-- ==== Sys2Proof/Word.lean ====
section
/-!
DEFINITION. Word types of the P64: bytes, 64-bit words, and the sparse map in canonical form in which every
large or mostly-reset piece of state is held.
-/
namespace Sys2Proof

/-- A byte of memory or of a protocol data unit. -/
abbrev Byte := BitVec 8

/-- A 64-bit register, dictionary value or memory word. -/
abbrev W64 := BitVec 64

/-- A sparse map from natural keys: strictly rising keys, no entry equal to the default (the value an unlisted
key reads as), so that equal contents are equal data. -/
abbrev SMap (α : Type) := List (Nat × α)

/-- The value at a key; `d` where the key is not listed. -/
def SMap.get {α : Type} (d : α) : SMap α → Nat → α
  | [], _ => d
  | (k, v) :: m, i => if i = k then v else SMap.get d m i

/-- The map without a key. -/
def SMap.erase {α : Type} : SMap α → Nat → SMap α
  | [], _ => []
  | (k, v) :: m, i => if i = k then SMap.erase m i else (k, v) :: SMap.erase m i

/-- Insert an entry before the first larger key. -/
def SMap.ins {α : Type} : SMap α → Nat → α → SMap α
  | [], i, v => [(i, v)]
  | (k, w) :: m, i, v => if i < k then (i, v) :: (k, w) :: m else (k, w) :: SMap.ins m i v

/-- Write a key. Writing the default removes the entry, which keeps the canonical form. -/
def SMap.set {α : Type} [DecidableEq α] (d : α) (m : SMap α) (i : Nat) (v : α) : SMap α :=
  if v = d then SMap.erase m i else SMap.ins (SMap.erase m i) i v

/-- The canonical form: keys strictly rise and no entry holds the default. -/
def SMap.wf {α : Type} [DecidableEq α] (d : α) : SMap α → Bool
  | [] => true
  | [(_, v)] => decide (v ≠ d)
  | (k, v) :: (k', v') :: m => decide (k < k') && decide (v ≠ d) && SMap.wf d ((k', v') :: m)

end Sys2Proof
end

