-- ==== Sys2Proof/Machine/Bits.lean ====
section
/-!
DEFINITION. Bit fields, byte order and saturation: the helpers every definition reads fields with (R4, R5).
-/
namespace Sys2Proof

/-- Bits `lo + w - 1` to `lo` of a number (R5). -/
def bits (v lo w : Nat) : Nat := v / 2 ^ lo % 2 ^ w

/-- One bit. -/
def bit (v i : Nat) : Bool := v / 2 ^ i % 2 == 1

/-- The number with bits `lo + w - 1` to `lo` replaced by `x`. -/
def setBits (v lo w x : Nat) : Nat :=
  v % 2 ^ lo + (x % 2 ^ w) * 2 ^ lo + v / 2 ^ (lo + w) * 2 ^ (lo + w)

/-- A flag as a bit. -/
def b2n (b : Bool) : Nat := if b then 1 else 0

/-- `n` bytes of a number, least significant first (R4). -/
def leBytes : Nat → Nat → List Byte
  | 0, _ => []
  | n + 1, v => BitVec.ofNat 8 v :: leBytes n (v / 256)

/-- The number that bytes spell, least significant first (R4). -/
def ofLE : List Byte → Nat
  | [] => 0
  | b :: bs => b.toNat + 256 * ofLE bs

/-- Bytes `o` to `o + n - 1` of a record, as a little-endian number. -/
def fieldLE (bs : List Byte) (o n : Nat) : Nat := ofLE ((bs.drop o).take n)

/-- `n` zero bytes. -/
def zeros (n : Nat) : List Byte := List.replicate n 0

/-- Bytes padded with zeros, or cut, to exactly `n`. -/
def padTo (n : Nat) (bs : List Byte) : List Byte := bs.take n ++ zeros (n - bs.length)

/-- Bytes with those from offset `o` replaced by `w`. -/
def splice (bs : List Byte) (o : Nat) (w : List Byte) : List Byte :=
  bs.take o ++ w ++ bs.drop (o + w.length)

/-- A counter of `w` bits that saturates at its maximum. -/
def satBump (w v n : Nat) : Nat := min (v + n) (2 ^ w - 1)

/-- The signed value of a `w`-bit two's-complement number. -/
def sgn (w v : Nat) : Int := if v % 2 ^ w < 2 ^ (w - 1) then (v % 2 ^ w : Nat) else (v % 2 ^ w : Nat) - (2 ^ w : Nat)

/-- The `w`-bit two's-complement encoding of an integer. -/
def unsgn (w : Nat) (i : Int) : Nat := (i % (2 ^ w : Nat)).toNat

/-- Ceiling division. -/
def cdiv (a b : Nat) : Nat := (a + b - 1) / b

/-- The list with position `i` replaced, unchanged where it is too short. -/
def setAt {α : Type} (l : List α) (i : Nat) (v : α) : List α := l.set i v

/-- ASCII bytes of a text. -/
def ascii (s : String) : List Byte := s.toList.map fun c => BitVec.ofNat 8 c.toNat

end Sys2Proof
end

