-- ==== Sys2Proof/Syntax.lean ====
section
/-!
DEFINITION. The commands of the block: one constructor per row of spec/opcode_table.json, with the operands the outside
gives it. A command names what occurs (a register write, a word at a slot, a packet at its home, a timer's expiry, an
event on a pin); what it does is its meaning in Machine/.
-/
namespace Sys2Proof

/-- The VIN bands of Table 2.1, in the encoding of 0x6100:03 (R36). -/
inductive VinBand where
  | full | reduced | hold | over
deriving DecidableEq, Repr

/-- The reference clocks of Table 2.4, and KCLK's agreement with REFCLK_SYS (R46, R49). -/
inductive Refclk where
  | sys | pcie | lane (g : Nat) | kclk
deriving DecidableEq, Repr

/-- The three OAP transports, with the transport byte of R109. -/
inductive Transport where
  | can | t1s | mbx
deriving DecidableEq, Repr

/-- What the mode registers of an LPDDR channel answer (R331): nothing, or the density of a rank in MiB and the rank count. -/
inductive LpChannel where
  | silent
  | answers (rankMib ranks : Nat)
deriving DecidableEq, Repr

/-- What the hardware finds when a bring-up stage is reached: the time, memory training and link training
results (R59, R65, R330). -/
structure StageReport where
  timeUs : Nat
  /-- the four channels of each LP port, and the rates in MT/s at which each port trains -/
  lpChannels : List (List LpChannel)
  lpTrains : List (List Nat)
  hbRepairs : List Nat
  hbFail : Nat
  unitFail : List Nat
  pcieRate : Nat
  pcieWidth : Nat
  /-- the highest rate that both partners of the PCIe link support (R65) -/
  pcieCommon : Nat
deriving DecidableEq, Repr

/-- A frame received on the CAN FD bus (R96). -/
structure CanFrame where
  ident : Nat
  fd : Bool
  extended : Bool
  remote : Bool
  data : List Byte
deriving DecidableEq, Repr

/-- An Ethernet II frame received on 10BASE-T1S (R98). -/
structure EthFrame where
  dst : Nat
  src : Nat
  etherType : Nat
  payload : List Byte
deriving DecidableEq, Repr

/-- The result of a self-test, as 0x7210:01 TEST_LAST encodes it (R764, R765). -/
inductive TestResult where
  | pass | repairable | fail
deriving DecidableEq, Repr

/-- One power domain's reading at an aging sample: its class and unit code as 0x7220:03 gives it, its drift in mV
and whether its VCORE would have to exceed 0.85 V (R767). -/
structure AgeReading where
  domain : Nat
  driftMv : Nat
  overLimit : Bool
deriving DecidableEq, Repr

/-- The features of Table 4.1 (R140). -/
inductive PcieFeature where
  | laneReversal | polarityInversion | flitMode | l0s | l0p | l1PmSubstates | aspmL1 | d0 | d3hot | noSoftReset | tags14 | aer
  | ecrcGeneration | ecrcCheck | poisonedTlp | functionLevelReset | sriov | ari | msix | msi | intx | ats | pri | pasid | tph | ide
  | doe | resizableBar
deriving DecidableEq, Repr

/-- A PCIe configuration request, by the field it reaches (R55, R140, R141, Tables 4.1 and 4.2). -/
inductive CfgField where
  | vendorId | deviceId | revisionId | classCode | subsystemVendorId | subsystemId | totalVfs | numVfs | vfEnable
  | msixTableSize | msixEnable | functionMask | bar0Size | bar2Size | bar4Size | bar5Size | romSize | bar0Type | bar2Type
  | linkSpeed | linkWidth | feature (f : PcieFeature) | powerState | aspmControl | maxPayloadSupported | maxPayloadSize
  | maxReadRequestSize | aerUncorrectable | ecrcControl
  | other (offset : Nat)
deriving DecidableEq, Repr

/-- What the VIN monitor has seen when a band is entered: the level now, and the lowest sample since the row before (Table 2.15). -/
structure VinLevel where
  now : Nat
  low : Nat
deriving DecidableEq, Repr

/-- The end of PCIe training: the rate the link runs at, and the highest rate that both ends of it support (R65, R184). -/
structure LinkRate where
  got : Nat
  common : Nat
deriving DecidableEq, Repr

/-- The answer of the host to a device-initiated read (R166, R249): data, data before which the link corrected that many errors
(AER_CORRECTABLE, Table 4.16), or a completion without data. -/
inductive HostAnswer where
  | data (bytes : List Byte)
  | corrected (errors : Nat) (bytes : List Byte)
  | unsupported | aborted | poisoned
deriving DecidableEq, Repr

/-- What a router finds in a received flit's check bits (R308). -/
inductive FlitCheck where
  | clean | corrected | payloadDouble | headerDouble
deriving DecidableEq, Repr

/-- The commands (spec/opcode_table.json). Where an operand is `t`, the command is a request that stands at the head of
that transport's queue; where it is `q k`, the command is the word at program slot `k` of sequencer `q`; where it is `p`,
it is the packet of that identity; where it is `e`, the stream engine of that number. -/
inductive Instr where
  -- Supply, clocks, reset and bring-up
  | powerOn (mv : Nat)
  | vinBandEntry (band : VinBand) (vin : VinLevel)
  | mewsEntryComplete
  | mewsExitComplete
  | vinLoss (collapse : Bool) (mv : Nat)
  | vinFastDrop (mv : Nat)
  | porstN
  | coldResetRelease (bootPins : Nat)
  | wrstN
  | krstN
  | pciePerstN
  | pciePerstRelease
  | resetRequest (t : Transport)
  | resetRequestApply
  | stageReached (r : StageReport)
  | bringupLate
  | safeInNAssert
  | safeInNRelease
  | refclkLoss (c : Refclk)
  | refclkLaneReturn (g : Nat)
  | thermalCompare (readings : List Int)
  | thermTrip (sensor : Nat)
  -- The object dictionary
  | canRequestRx (f : CanFrame)
  | t1sRequestRx (f : EthFrame)
  | mbxReqGo
  | mbxRspClear
  | mbxEvtClear
  | oapRead (t : Transport)
  | oapWrite (t : Transport)
  | oapReadPending (t : Transport)
  | oapDiscardPending (t : Transport)
  | oapDescribe (t : Transport)
  | sessionOpen (t : Transport)
  | sessionProve (t : Transport)
  | sessionClose (t : Transport)
  | oapUndefinedService (t : Transport)
  | segmentTimeout (t : Transport)
  | snapshotExpiry (t : Transport)
  | sessionIdleTimeout (t : Transport)
  | lockoutExpiry (t : Transport)
  | transportConfigApply (key : Nat)
  | expertKey (t : Transport)
  | unitObjectApply (unit : Nat)
  | profileApply (t : Transport)
  | unitReq (t : Transport)
  | ucbMirrorCompare
  | stateDivergence (unit : Nat)
  | deviceIdWrite (t : Transport)
  | deviceIdLock (t : Transport)
  | powerCapWrite (t : Transport)
  -- Host link and rings
  | pcieConfigRequest (fn : Nat) (f : CfgField) (write : Option Nat)
  | pcieLinkDown
  | pcieLinkUp (rate : LinkRate) (width : Nat)
  | functionLevelReset (fn : Nat)
  | registerWrite (fn offset size : Nat) (value : Option Nat)
  | ctxBindWrite (fn c value : Nat)
  | ringBindWrite (fn n value : Nat)
  | irqRouteWrite (fn e value : Nat)
  | bar2CtxWrite (fn value : Nat)
  | bar2Write (fn addr : Nat) (data : List Byte)
  | bar2Read (fn addr len : Nat)
  | sqCfgWrite (fn n value : Nat)
  | cqCfgWrite (fn n value : Nat)
  | sqDoorbell (fn n value : Nat)
  | resetSq (fn n : Nat) (andCq : Bool)
  | ringResetDone (n : Nat)
  | resetCq (fn n : Nat)
  | pause (fn n : Nat)
  | resume (fn n : Nat)
  | cqHeadWrite (fn n value : Nat)
  | entryFetch (ring : Nat)
  | dispatchDecision
  | moderationTimeout (cq : Nat)
  | msixUnmask (fn vector : Nat)
  -- Command words: each row names the sequencer and the program slot at whose word it stands
  | nop (q k : Nat)
  | endProgram (q k : Nat)
  | movi (q k : Nat)
  | movhi (q k : Nat)
  | addi (q k : Nat)
  | alu (q k : Nat)
  | overlap (q k : Nat)
  | br (q k : Nat)
  | loop (q k : Nat)
  | ld (q k : Nat)
  | st (q k : Nat)
  | ldp (q k : Nat)
  | stp (q k : Nat)
  | lr (q k : Nat)
  | sc (q k : Nat)
  | amo (q k : Nat)
  | fenceDrain (q k : Nat)
  | fenceAcquire (q k : Nat)
  | fenceRelease (q k : Nat)
  | fenceFull (q k : Nat)
  | fenceUnits (q k : Nat)
  | rand (q k : Nat)
  | semwait (q k : Nat)
  | semwaitSatisfied (q k : Nat)
  | semwaitTimeout (q k : Nat)
  | sempost (q k : Nat)
  | seminit (q k : Nat)
  | mxpass (q k : Nat)
  | vxopAdd (q k : Nat)
  | vxopSub (q k : Nat)
  | vxopMul (q k : Nat)
  | vxopMin (q k : Nat)
  | vxopMax (q k : Nat)
  | vxopAddSat (q k : Nat)
  | vxopSubSat (q k : Nat)
  | vxopAbs (q k : Nat)
  | vxopNeg (q k : Nat)
  | vxopRelu (q k : Nat)
  | vxopClamp (q k : Nat)
  | vxopAffine (q k : Nat)
  | vxopExp2 (q k : Nat)
  | vxopLog2 (q k : Nat)
  | vxopRecip (q k : Nat)
  | vxopRsqrt (q k : Nat)
  | vxopSigmoid (q k : Nat)
  | vxopTanh (q k : Nat)
  | vxopSilu (q k : Nat)
  | vxopConvert (q k : Nat)
  | vxopRequant (q k : Nat)
  | vxopRedSum (q k : Nat)
  | vxopRedMax (q k : Nat)
  | vxopRedMin (q k : Nat)
  | vxopTopk (q k : Nat)
  | vxopSort (q k : Nat)
  | vxopGather (q k : Nat)
  | vxopScatter (q k : Nat)
  | vxopLimbcomb (q k : Nat)
  | vxopUndefinedFunc (q k : Nat)
  | pAdd (q k : Nat)
  | pSub (q k : Nat)
  | pMul (q k : Nat)
  | pMulc (q k : Nat)
  | pNeg (q k : Nat)
  | pPart (q k : Nat)
  | ntt (q k : Nat)
  | intt (q k : Nat)
  | auto (q k : Nat)
  | rescale (q k : Nat)
  | moddrop (q k : Nat)
  | twgen (q k : Nat)
  | limbSplit (q k : Nat)
  | shAdd (q k : Nat)
  | shSub (q k : Nat)
  | shMul (q k : Nat)
  | shAddpub (q k : Nat)
  | shRand (q k : Nat)
  | cxopUndefinedFunc (q k : Nat)
  | gxop (q k : Nat)
  | streamStart (q k : Nat)
  | streamStop (q k : Nat)
  | streamWait (q k : Nat)
  | secopLayer (q k : Nat)
  | secopRun (q k : Nat)
  | secopFlush (q k : Nat)
  | secopClear (q k : Nat)
  | collRun (q k : Nat)
  | moult (q k : Nat)
  | epochMarkCmd (q k : Nat)
  | epochWaitCmd (q k : Nat)
  | epochMarkWait (q k : Nat)
  | cfgwCurBank (q k : Nat)
  | cfgwStatDrop (q k : Nat)
  | uctl (q k : Nat)
  | uctlTest (q k : Nat)
  | illegalOpcode (q k : Nat)
  | programComplete (q k : Nat)
  | unitOpComplete (q : Nat) (residueOk : Bool)
  | hangWatchHit (q k : Nat)
  | issueQueueRoom (q k : Nat)
  | storeBufferSend (q idx : Nat)
  | reservationTimeout (q k : Nat)
  -- Stream engines, jess pairs and pellets
  | descriptorStart (e : Nat)
  | streamSlotAcquire (e : Nat)
  | streamFillPost (e : Nat)
  | streamFreePost (e : Nat)
  | streamWaitTimeout (e : Nat)
  | descriptorComplete (e : Nat)
  | engSnap (e : Nat)
  | engClear (e : Nat)
  | stallSelect (t : Transport)
  | jessValueWrite (pair value : Nat)
  | jessPostRegister (pair value : Nat)
  | poisonInject (t : Transport)
  | pelletLogEntriesWrite (t : Transport)
  | pelletReadSeqWrite (t : Transport)
  -- The tile network: packets are named by their identity
  | flitArrival (p : Nat) (c : FlitCheck)
  | rdReq (p : Nat) (found : List (Nat × Nat))
  | wr (p piece : Nat)
  | wrPoison (p : Nat)
  | amoReq (p : Nat)
  | jessPost (p : Nat)
  | jessWait (p : Nat)
  | jessWaitCancel (p : Nat)
  | jessWaitTimeout (p : Nat)
  | epochMark (p : Nat)
  | gatherReq (p : Nat)
  | gatherServe (g : Nat)
  | rdRsp (p : Nat)
  | wrAck (p : Nat)
  | amoRsp (p : Nat)
  | jessGrant (p : Nat)
  | gatherRsp (p : Nat)
  | niRequestTimeout (node tc tag : Nat)
  | routeCtrlWrite (node e value : Nat)
  | routeMovesWrite (node e value : Nat)
  | statsSnapshot (t : Transport)
  | statsSnapshotClear (t : Transport)
  | statsSnapshotDone
  | domainDrainComplete (unit : Nat)
  | domainDrainTimeout (unit : Nat)
  | powerDownComplete (unit : Nat)
  | powerUpComplete (unit : Nat)
  -- Memories and apertures
  | scrubLine (line : Nat) (found : List (Nat × Nat)) (onDie : Bool)
  | sramScrubWord (addr : Nat) (found : List (Nat × Nat))
  | lpRecal (port : Nat)
  | aptWord0Write (ctx entry value : Nat)
  | aptWord1Write (ctx entry value : Nat)
  | eccInject (t : Transport)
  -- Matrix and vector tiles
  | mxpassStart (q waited : Nat)
  | mxpassDrainDone (q : Nat) (residueOk : Bool)
  | mxtRole (t : Transport)
  | understudy (t : Transport)
  | repairRequest (t : Transport)
  | repairProgramDone (tile : Nat)
  | faultInject (t : Transport)
  | mxtClkLimit (t : Transport)
  | handoverCopyDone (tile : Nat)
  | releaseCopyDone (tile : Nat)
  | vxtExcInject (t : Transport)
  -- Tables, phase maps, the moult and epochs
  | tableDescWord0Write (d value : Nat)
  | tableDescWordWrite (d word value : Nat)
  | hotTagWrite (slot value : Nat)
  | hotTagCopyDone (slot : Nat)
  | hotCacheKib (t : Transport)
  | gatherLookupIssue (g : Nat)
  | phaseMapWrite (m value : Nat)
  | currentPhaseWrite (value : Nat)
  | moultStepStart (step : Nat)
  | moultStepDone (step : Nat)
  | moultStepTimeout (step : Nat)
  | epochTimerTick (d : Nat)
  | epochInEdge (n : Nat)
  | epochMarkMgmt (t : Transport)
  | epochCommitApply (d : Nat)
  | epochCommitRelease (d : Nat)
  | epochOutPulseEnd (n : Nat)
  | edSourceWrite (t : Transport)
  | unitDomainWrite (t : Transport)
  -- Cipher arithmetic
  | chainCtrlWrite (c value : Nat)
  | chainInvalidateDone (c : Nat)
  | drbgSeed (ok : Bool)
  | drbgHealthFail
  | catInject (t : Transport)
  -- Sensor ports and spiking event cores
  | spFrameStart (p vc ecc : Nat)
  | spFrameEnd (p vc ecc : Nat)
  | spLongPacket (p vc dt ecc : Nat) (payload : List Byte) (crcOk : Bool)
  | spBeatFlush (p : Nat)
  | spFrameFillPost (p : Nat)
  | secEventProcess (c : Nat)
  | secBinIdleClose (c : Nat)
  | secBinArrivalClose (c : Nat)
  | secBinFillPost (c : Nat)
  | secBatchTimeout (c : Nat)
  | spRuleWrite (t : Transport)
  | frCfgWrite (p offset value : Nat)
  | spInject (t : Transport)
  -- The logic fabric
  | cfgGo (value : Nat)
  | cfgAbort (value : Nat)
  | cfgDataWrite (value : Nat)
  | loadHeaderCheck (flash : List Byte) (flashBytes : Nat)
  | loadBodyComplete (flash : List Byte)
  | loadSignatureVerify
  | loadRelease
  | cfgStreamTimeout
  | xspiTimeout
  | cfgScrubFrame (found : Nat)
  | cfgInject (t : Transport)
  | fabricRamError (double : Bool)
  | fpMasterRequest (n cmd addr len oid tc : Nat) (poison : Bool) (op : Nat) (data : List Byte)
  | fpTargetAnswer (n tag status : Nat) (poison : Bool) (data : List Byte)
  | fpCtxWrite (t : Transport)
  | fabricEpochEdge (n : Nat)
  -- Phidun lanes
  | presenceTimeout (n : Nat)
  | phRetryExpiry (n : Nat)
  | lureDetected (n l : Nat)
  | trainingFrameRx (n l hdr : Nat)
  | presenceComplete (n : Nat)
  | rateSwitch (n : Nat)
  | ffeRequestApply (n l : Nat)
  | creanceStepComplete (n skew : Nat)
  | creanceStepTimeout (n : Nat)
  | linkFramingStart (n : Nat)
  | losDetected (n l : Nat)
  | lolDetected (n l : Nat)
  | phRequiredGrace (n : Nat)
  | phLinkEnable (t : Transport)
  | recalDue (n l : Nat)
  | recalPiece (n l : Nat) (done : Bool)
  | recalDeferred (n l : Nat)
  | patternCtrl (t : Transport)
  | laneInject (t : Transport)
  -- The Phidun link
  | codewordRx (n corrected : Nat) (uncorrectable : Bool) (lane0 lane1 lane2 lane3 : List Nat) (upper : List (List Nat))
  | linkTransactionRx (n : Nat)
  | lctrlIdle (n : Nat)
  | pmReq (n : Nat)
  | pmAck (n : Nat)
  | recalWin (n : Nat)
  | laneDown (n : Nat)
  | laneUp (n : Nat)
  | hood (n : Nat)
  | open_ (n : Nat)
  | ackTimer (n : Nat)
  | replayTimeout (n : Nat)
  | laneDegradeSwitch (n : Nat)
  | linkIdleTimer (n : Nat)
  | pmReqTimeout (n : Nat)
  | dropNoticeRx (p : Nat)
  | devRouteWrite (t : Transport)
  -- Safety and lifetime
  | errNClear (t : Transport)
  | errInject (t : Transport)
  | logReadWrite (value : Nat)
  | pathTest (returned : Bool)
  | monitorCompareFail
  | testRequest (t : Transport)
  | testForce (t : Transport)
  | faultClear (t : Transport)
  | selftestScheduleTick (cls : Nat)
  | selftestStart (unit : Nat)
  | selftestComplete (unit : Nat) (r : TestResult) (phys : Nat) (column : Bool) (repairs : List Nat)
  | agingSample (rs : List AgeReading)
  | ageHourBurn
  -- Pins, cooling and boundary scan
  | coolantInletWrite (t : Transport)
  | coolantWatchExpiry
  | extest
  | idcode
  | samplePreload (sample preload : List Bool)
  | extestPulse
  | extestTrain
  | highz
  | clamp
  | bypass
  | inputPowerCapControl (watts : Nat)
  | refclkReturn (c : Refclk)
  | hostReadCompletion (tag : Nat) (a : HostAnswer)
  | pcieCompletionTimeout (tag : Nat)
  | timedOutTagRelease (node tc tag : Nat)
  | patternCheckerLock (n l : Nat)
  | patternCheckerLockLoss (n l counted errors : Nat)
deriving DecidableEq, Repr

end Sys2Proof
end

