-- ==== Sys2Proof/Decode.lean ====
section
/-!
DEFINITION. Table words: spec/opcode_table.json gives its rows no bits, so no word spells a command.
-/
namespace Sys2Proof

/-- The command that a table word spells: none, since no row of the table has bits. -/
def decodeTableWord (_nbits _w : Nat) : Option Instr := none

end Sys2Proof
end

