-- ==== Sys2Proof/Config.lean ====
section
/-!
DEFINITION. The free values: results the spec leaves open, as constants without a body, so that no proof can see what
they are. Each is named in the assumption log.
-/
namespace Sys2Proof.Config

/-- The n-th free 64-bit word drawn: undefined data, DRBG output, device nonces (DESIGN CHOICE, log 3;
safe). -/
opaque freeWord : Nat → BitVec 64

/-- The owner key digest in fuses, a SHA-384 digest; fuses are the part's own and the manual gives no content (R57; DESIGN
CHOICE, log 11; safe). -/
opaque ownerKeyDigest : List Byte

/-- The minimum security version in fuses (R57; DESIGN CHOICE, log 11; safe). -/
opaque minSecVersion : Nat

/-- Whether an ECDSA P-384 signature verifies over a digest under a public key (R57): key, digest, signature
(DESIGN CHOICE, log 11; safe). -/
opaque signatureOk : List Byte → List Byte → List Byte → Bool

/-- How far, in patterns, a transcendental result lies from the nearest one: function code, source bits (R482, R484; DESIGN
CHOICE, log 11; safe: the result keeps the table's bound). -/
opaque approxSkew : Nat → Nat → Int

/-- The first of the 16 consecutive powers of the primitive element that are roots of the Valpiox line code; R343 does not name it
(DESIGN CHOICE, log 52; safe). -/
opaque lineCodeRoot : Nat

end Sys2Proof.Config
end

