-- ==== Sys2Proof/Machine/Formats.lean ====
section
/-!
DEFINITION. Number formats (chapter 10): integer elements, rounding of the drain, the three floating formats as exact
values rounded once, the approximated functions of Table 12.5 and the exception record of Table 10.6.
-/
namespace Sys2Proof.Machine

/-! Rounding of exact quotients. -/

/-- Round half to even of m / 2^k, for a magnitude (R415, R418). -/
def rneShift (m k : Nat) : Nat :=
  let q := m / 2 ^ k
  let f := m % 2 ^ k * 2
  if f > 2 ^ k || (f = 2 ^ k && q % 2 = 1) then q + 1 else q

/-- The rounding of R415 of p / 2^k: half to even, or half away from zero where `rha`. -/
def roundShift (rha : Bool) (p : Int) (k : Nat) : Int :=
  if k = 0 then p else
  let q := p / (2 ^ k : Nat)
  let f := p % (2 ^ k : Nat) * 2
  let h : Int := (2 ^ k : Nat)
  if rha then (if (decide (0 ≤ p) && decide (f ≥ h)) || (decide (p < 0) && decide (f > h)) then q + 1 else q)
  else if f > h || (f == h && q % 2 == 1) then q + 1 else q

/-- An integer clamped to [lo, hi], with the event it gives: 4 SAT_HIGH, 5 SAT_LOW, 0 none (Table 10.7). -/
def clampEv (lo hi o : Int) : Int × Nat := if o > hi then (hi, 4) else if o < lo then (lo, 5) else (o, 0)

/-! Floating formats (Table 10.5). -/

/-- A floating format: exponent bits and fraction bits. -/
structure Fmt where
  ew : Nat
  fw : Nat
deriving DecidableEq, Repr

def fp32 : Fmt := ⟨8, 23⟩
def fp16 : Fmt := ⟨5, 10⟩
def bf16 : Fmt := ⟨8, 7⟩

/-- An exact floating value: NaN, an infinity, or sign, magnitude and exponent of ± m × 2^e. -/
inductive Fv where
  | nan
  | inf (neg : Bool)
  | fin (neg : Bool) (m : Nat) (e : Int)
deriving DecidableEq, Repr

/-- The exponent of a format's smallest subnormal. -/
def Fmt.emin (f : Fmt) : Int := 2 - 2 ^ (f.ew - 1) - f.fw

/-- The pattern of infinity without its sign. -/
def Fmt.infPat (f : Fmt) : Nat := (2 ^ f.ew - 1) * 2 ^ f.fw

/-- The canonical NaN (R419). -/
def Fmt.nanPat (f : Fmt) : Nat := f.infPat + 2 ^ (f.fw - 1)

def Fmt.signPat (f : Fmt) (neg : Bool) : Nat := b2n neg * 2 ^ (f.ew + f.fw)

def Fmt.bytes (f : Fmt) : Nat := (f.ew + f.fw + 1) / 8

/-- The value of a pattern. -/
def Fmt.value (f : Fmt) (p : Nat) : Fv :=
  let neg := bit p (f.ew + f.fw)
  let e := bits p f.fw f.ew
  let m := bits p 0 f.fw
  if e = 2 ^ f.ew - 1 then (if m = 0 then .inf neg else .nan)
  else if e = 0 then .fin neg m f.emin
  else .fin neg (2 ^ f.fw + m) (f.emin + ((e : Nat) : Int) - 1)

/-- Round an exact value into a format, to nearest even with gradual underflow (R418 to R420). -/
def Fmt.round (f : Fmt) : Fv → Nat
  | .nan => f.nanPat
  | .inf neg => f.signPat neg + f.infPat
  | .fin neg m e =>
    if m = 0 then f.signPat neg else
    let t := max ((Nat.log2 m : Int) + e - f.fw) f.emin
    let q := if t ≤ e then m * 2 ^ (e - t).toNat else rneShift m (t - e).toNat
    f.signPat neg + min ((t - f.emin).toNat * 2 ^ f.fw + q) f.infPat

def Fv.neg : Fv → Fv
  | .nan => .nan
  | .inf s => .inf !s
  | .fin s m e => .fin (!s) m e

def Fv.isNeg : Fv → Bool
  | .nan => false
  | .inf s => s
  | .fin s _ _ => s

def Fv.isZero : Fv → Bool
  | .fin _ m _ => m == 0
  | _ => false

/-- The signed magnitude at an exponent no larger than the value's. -/
def scaled (s : Bool) (m : Nat) (e lo : Int) : Int :=
  let x : Int := ((m * 2 ^ (e - lo).toNat : Nat) : Int)
  if s then -x else x

/-- Exact sum. -/
def Fv.add : Fv → Fv → Fv
  | .nan, _ => .nan
  | _, .nan => .nan
  | .inf s, .inf t => if s = t then .inf s else .nan
  | .inf s, _ => .inf s
  | _, .inf t => .inf t
  | .fin s m e, .fin t n g =>
    let lo := min e g
    let x := scaled s m e lo + scaled t n g lo
    if x = 0 then .fin (if m = 0 && n = 0 then s && t else false) 0 0 else .fin (decide (x < 0)) x.natAbs lo

/-- Exact product. -/
def Fv.mul : Fv → Fv → Fv
  | .nan, _ => .nan
  | _, .nan => .nan
  | .inf s, .inf t => .inf (s != t)
  | .inf s, .fin t n _ => if n = 0 then .nan else .inf (s != t)
  | .fin s m _, .inf t => if m = 0 then .nan else .inf (s != t)
  | .fin s m e, .fin t n g => .fin (s != t) (m * n) (e + g)

/-- Order of two values that are not NaN, with −0 and +0 equal. -/
def Fv.lt : Fv → Fv → Bool
  | .nan, _ => false
  | _, .nan => false
  | .inf s, .inf t => s && !t
  | .inf s, _ => s
  | _, .inf t => !t
  | .fin s m e, .fin t n g => let lo := min e g; scaled s m e lo < scaled t n g lo

/-- MIN of R476: NaN wins, and MIN(−0, +0) is −0. -/
def Fv.min (a b : Fv) : Fv :=
  if a == .nan || b == .nan then .nan
  else if Fv.lt a b then a else if Fv.lt b a then b else if a.isNeg then a else b

/-- MAX of R476: NaN wins, and MAX(−0, +0) is +0. -/
def Fv.max (a b : Fv) : Fv :=
  if a == .nan || b == .nan then .nan
  else if Fv.lt a b then b else if Fv.lt b a then a else if a.isNeg then b else a

/-- An exact integer as a value; 0 is +0 (R417). -/
def Fv.ofInt (i : Int) : Fv := .fin (decide (i < 0)) i.natAbs 0

/-- The rounding of R421 and R480 to an integer; a NaN gives 0. Infinities give a value beyond every integer type. -/
def Fv.toInt (rha : Bool) : Fv → Int
  | .nan => 0
  | .inf s => if s then -(2 ^ 200 : Nat) else (2 ^ 200 : Nat)
  | .fin s m e =>
    let x : Int := if s then -(m : Int) else m
    if 0 ≤ e then x * (2 ^ e.toNat : Nat) else roundShift rha x (-e).toNat

/-- Convert a pattern between formats (R420, R480). -/
def Fmt.conv (src dst : Fmt) (p : Nat) : Nat := dst.round (src.value p)

/-- The event kind of a written floating pattern (R422): 1 NaN, 2 +∞, 3 −∞, 0 none. -/
def Fmt.event (f : Fmt) (p : Nat) : Nat :=
  match f.value p with
  | .nan => 1
  | .inf false => 2
  | .inf true => 3
  | .fin .. => 0

/-! The approximated functions (R482 to R484). Each reference is a fixed-point number of far more bits than FP32; the
device's result is any pattern within the bound of Table 12.5, named by an opaque function of the source bits
(DESIGN CHOICE, log 11). -/

/-- The largest number whose square is at most n, bit by bit from bit k. -/
def sqrtBits : Nat → Nat → Nat → Nat
  | 0, _, r => r
  | k + 1, n, r => let c := r + 2 ^ k; sqrtBits k n (if c * c ≤ n then c else r)

/-- 2^f for f = x / 2^n with 0 ≤ x < 2^n, in units of 2^-100: the product of the roots that x's bits select, `root` being
2^(1/2) in those units at the top bit. -/
def exp2Frac : Nat → Nat → Nat → Nat → Nat
  | 0, _, _, acc => acc
  | n + 1, x, root, acc =>
    exp2Frac n (x % 2 ^ n) (sqrtBits 101 (root * 2 ^ 100) 0) (if 2 ^ n ≤ x then acc * root / 2 ^ 100 else acc)

/-- log2 of m in [1, 2), m in units of 2^-100: `n` fraction bits, by repeated squaring. -/
def log2Frac : Nat → Nat → Nat → Nat
  | 0, _, acc => acc
  | n + 1, m, acc =>
    let q := m * m / 2 ^ 100
    if 2 ^ 101 ≤ q then log2Frac n (q / 2) (2 * acc + 1) else log2Frac n q (2 * acc)

/-- |a − b| ≤ c for values given as (number, exponent): all brought to the lowest exponent. -/
def within (a : Int × Int) (b : Int × Int) (c : Int × Int) : Bool :=
  let lo := min a.2 (min b.2 c.2)
  let at_ (x : Int × Int) : Int := x.1 * (2 ^ (x.2 - lo).toNat : Nat)
  decide ((at_ a - at_ b).natAbs ≤ (at_ c).natAbs)

/-- Signed number and exponent of a finite value. -/
def Fv.pair : Fv → Int × Int
  | .fin s m e => ((if s then -(m : Int) else m), e)
  | _ => (0, 0)

/-- The exponent of the ULP of an exact finite value's binade in FP32, or −149. -/
def ulpExp (m : Nat) (e : Int) : Int := max ((Nat.log2 m : Int) + e - 23) (-149)

/-- The device's result where the exact value is `ref`: the pattern the opaque function names if it is finite and within
`tol` of `ref`, else the nearest pattern. -/
def approxPick (fn src : Nat) (ref : Fv) (tol : Int × Int) : Nat :=
  let c := fp32.round ref
  let p := (((c : Nat) : Int) + Config.approxSkew fn src).toNat % 2 ^ 32
  match fp32.value p with
  | .fin s m e => if within (Fv.pair (.fin s m e)) ref.pair tol then p else c
  | _ => c

/-- EXP2 in FP32 (Tables 12.5 and 12.6). -/
def exp2Fp (p : Nat) : Nat :=
  match fp32.value p with
  | .nan => fp32.nanPat
  | .inf false => fp32.infPat
  | .inf true => 0
  | .fin s m e =>
    if m = 0 then fp32.round (.fin false 1 0) else
    let x := scaled s m (max e (-200)) (-200)
    let x := if e < -200 then 0 else x
    if x ≥ 128 * (2 ^ 200 : Nat) then fp32.infPat
    else if x ≤ -150 * (2 ^ 200 : Nat) then 0
    else
      let i := x / (2 ^ 200 : Nat)
      let f := (x % (2 ^ 200 : Nat)).toNat
      if f = 0 then fp32.round (.fin false 1 i) else
      let r := exp2Frac 200 f (sqrtBits 101 (2 ^ 201) 0) (2 ^ 100)
      approxPick 0x20 p (.fin false r (i - 100)) (2, ulpExp r (i - 100))

/-- LOG2 in FP32 (Tables 12.5 and 12.6). -/
def log2Fp (p : Nat) : Nat :=
  match fp32.value p with
  | .nan => fp32.nanPat
  | .inf true => fp32.nanPat
  | .inf false => fp32.infPat
  | .fin s m e =>
    if m = 0 then fp32.signPat true + fp32.infPat else
    if s then fp32.nanPat else
    let i : Int := (Nat.log2 m : Int) + e
    if m = 2 ^ Nat.log2 m then fp32.round (.ofInt i) else
    let f := log2Frac 64 (m * 2 ^ 100 / 2 ^ Nat.log2 m) 0
    let v : Int := i * (2 ^ 64 : Nat) + f
    let ref : Fv := .fin (decide (v < 0)) v.natAbs (-64)
    if -1 ≤ i && i < 1 then approxPick 0x21 p ref (1, -22)
    else approxPick 0x21 p ref (2, ulpExp v.natAbs (-64))

/-- RECIP in FP32 (Tables 12.5 and 12.6). The reference is the quotient to 80 bits below its leading bit. -/
def recipFp (p : Nat) : Nat :=
  match fp32.value p with
  | .nan => fp32.nanPat
  | .inf s => fp32.signPat s
  | .fin s m e =>
    if m = 0 then fp32.signPat s + fp32.infPat else
    let k := Nat.log2 m + 80
    let r := 2 ^ k / m
    let ref : Fv := .fin s r (-(k : Int) - e)
    if m = 2 ^ Nat.log2 m then
      (let c := fp32.round ref
       if bits c 23 8 = 0 then approxPick 0x22 p ref (1, ulpExp r (-(k : Int) - e)) else c)
    else approxPick 0x22 p ref (1, ulpExp r (-(k : Int) - e))

/-- RSQRT in FP32 (Tables 12.5 and 12.6). -/
def rsqrtFp (p : Nat) : Nat :=
  match fp32.value p with
  | .nan => fp32.nanPat
  | .inf true => fp32.nanPat
  | .inf false => 0
  | .fin s m e =>
    if m = 0 then fp32.signPat s + fp32.infPat else
    if s then fp32.nanPat else
    -- x = m' × 2^(2h), 1/√x = √(2^200 / m') × 2^(-100 - h)
    let m' := if e % 2 = 0 then m else 2 * m
    let h := (if e % 2 = 0 then e else e - 1) / 2
    let r := sqrtBits 101 (2 ^ 200 / m') 0
    let ref : Fv := .fin false r (-100 - h)
    if m' = 2 ^ Nat.log2 m' && Nat.log2 m' % 2 = 0 then fp32.round (.fin false 1 (-h - (Nat.log2 m' / 2 : Nat)))
    else approxPick 0x23 p ref (2, ulpExp r (-100 - h))

/-- An FP32 operation on patterns, rounded once. -/
def fadd32 (a b : Nat) : Nat := fp32.round (Fv.add (fp32.value a) (fp32.value b))
def fmul32 (a b : Nat) : Nat := fp32.round (Fv.mul (fp32.value a) (fp32.value b))
def fneg32 (a : Nat) : Nat := fp32.round (fp32.value a).neg

/-- 1, 2 and log2(e) in FP32. -/
def one32 : Nat := 0x3F800000
def two32 : Nat := 0x40000000
def log2e32 : Nat := 0x3FB8AA3B

/-- SIGMOID, TANH and SILU in FP32, step by step (R483). -/
def sigmoidFp (x : Nat) : Nat := recipFp (fadd32 one32 (exp2Fp (fneg32 (fmul32 x log2e32))))
def tanhFp (x : Nat) : Nat :=
  fadd32 one32 (fneg32 (fmul32 two32 (recipFp (fadd32 one32 (exp2Fp (fmul32 two32 (fmul32 x log2e32)))))))
def siluFp (x : Nat) : Nat := fmul32 x (sigmoidFp x)

/-! The exception record (R422 to R425). -/

/-- An element's event: its kind and whether its accumulator was saturated. -/
structure Event where
  row : Nat
  col : Nat
  kind : Nat
  acc : Bool
deriving DecidableEq, Repr

/-- The record of an output tile, from its elements' events in row-major order; kind 0 is no event, and `acc` of such an
element still counts for ACC_SAT_ANY. -/
def excRecord (evs : List Event) (cls idx word : Nat) : List Byte :=
  let real := evs.filter fun e => e.kind ≠ 0
  let cnt (k : Nat) : Nat := (real.filter fun e => e.kind = k).length
  let stopped := [1, 2, 3, 4, 5].any fun k => decide (65535 ≤ cnt k)
  let any := evs.any (·.acc)
  match real with
  | [] => leBytes 1 0 ++ leBytes 1 (2 * b2n any) ++ zeros 14 ++ leBytes 1 cls ++ zeros 1 ++ leBytes 2 idx ++ leBytes 4 word
  | e :: _ =>
    leBytes 1 e.kind ++ leBytes 1 (b2n e.acc + 2 * b2n any + 4 * b2n stopped) ++ leBytes 2 e.row ++ leBytes 2 e.col ++
    ([1, 2, 3, 4, 5].flatMap fun k => leBytes 2 (min 65535 (cnt k))) ++
    leBytes 1 cls ++ zeros 1 ++ leBytes 2 idx ++ leBytes 4 word

/-- Whether a record holds an event. -/
def excHolds (r : List Byte) : Bool := fieldLE r 0 1 ≠ 0

/-! Integer elements. -/

/-- Element i of packed elements of w bits (R404, R474): nibbles lie low first. -/
def elem (bs : List Byte) (w i : Nat) : Nat :=
  if w = 4 then bits (bs.getD (i / 2) 0).toNat (i % 2 * 4) 4 else fieldLE bs (i * (w / 8)) (w / 8)

/-- Pack elements of w bits; for nibbles of an odd count, the last high nibble keeps what `old` holds (R416). -/
def packElems (w : Nat) (xs : List Nat) (old : List Byte) : List Byte :=
  if w = 4 then
    (List.range ((xs.length + 1) / 2)).map fun i =>
      BitVec.ofNat 8 (xs.getD (2 * i) 0 % 16 +
        16 * (if 2 * i + 1 < xs.length then xs.getD (2 * i + 1) 0 % 16 else bits (old.getD i 0).toNat 4 4))
  else xs.flatMap fun x => leBytes (w / 8) x

end Sys2Proof.Machine
end

