-- ==== Sys2Proof/Machine/LineCode.lean ====
section
/-!
DEFINITION. The codes of memory (R342, R343): the Valpiox line code, a Reed-Solomon code over GF(2^8) of 128 data symbols, 16 check
symbols and 7 virtual symbols, and the SECDED code of the on-die stores. Errors of a stored line are a list of (symbol or bit,
what is added to it): symbols 0 to 127 are the line's bytes, 128 to 143 its check bytes, and 144 to 150 bytes of the local address
it was stored for; in an on-die store, bit b of word w is 72 w + b.
-/
namespace Sys2Proof

/-! GF(2^8) with primitive polynomial x^8 + x^4 + x^3 + x^2 + 1 (R343). -/

/-- A field element times x. -/
def gfTwice (a : Nat) : Nat := if a < 128 then 2 * a else Nat.xor (2 * a) 0x11D

/-- The product of two field elements. -/
def gfMul (a b : Nat) : Nat := (List.range 8).foldl (fun r i => let d := gfTwice r; if bit b (7 - i) then Nat.xor d a else d) 0

/-- The n-th power of the primitive element. -/
def gfExp (n : Nat) : Nat := (List.range (n % 255)).foldl (fun r _ => gfTwice r) 1

/-- The inverse of a nonzero element, its 254th power. -/
def gfInv (a : Nat) : Nat := (List.range 253).foldl (fun r _ => gfMul r a) a

/-- The value at x of a polynomial with the constant term first. -/
def gfEval (p : List Nat) (x : Nat) : Nat := p.foldr (fun c r => Nat.xor (gfMul r x) c) 0

/-! The line code. Which 16 consecutive powers are the roots is left open, and the order of the symbols in the codeword is the
model's choice (log 52). -/

/-- The exponent of a symbol's place in the codeword: check symbols lowest, then the line's bytes, then the virtual symbols. -/
def symbolPlace (i : Nat) : Nat := if i < 128 then 16 + i else if i < 144 then i - 128 else i

/-- The generator polynomial: 16 roots, the constant term first. -/
def lineGenerator : List Nat :=
  (List.range 16).foldl (fun g j =>
    let r := gfExp (Config.lineCodeRoot + j)
    (0 :: g).zipWith Nat.xor (g.map (gfMul r) ++ [0])) [1]

/-- The 16 check symbols of a line at a local address (R343): the remainder of its virtual symbols and bytes. -/
def lineCheck (addr : Nat) (bs : List Byte) : List Nat :=
  let msg := ((List.range 128).map fun i => (bs.getD i 0).toNat) ++ (List.range 7).map fun i => bits addr (8 * i) 8
  msg.foldr (fun m r =>
    let f := Nat.xor m (r.getD 15 0)
    (0 :: r.take 15).zipWith Nat.xor ((lineGenerator.take 16).map (gfMul f))) (List.replicate 16 0)

/-- Errors at one symbol or bit combined, those that cancel left out. -/
def mergeErrs (es : List (Nat × Nat)) : List (Nat × Nat) :=
  es.foldl (fun m e => SMap.set 0 m e.1 (Nat.xor (SMap.get 0 m e.1) e.2)) []

/-- The 16 syndromes of an error pattern. -/
def syndromes (es : List (Nat × Nat)) : List Nat :=
  (List.range 16).map fun j =>
    es.foldl (fun r e => Nat.xor r (gfMul e.2 (gfExp ((Config.lineCodeRoot + j) * symbolPlace e.1)))) 0

/-- The error locator of 16 syndromes and its degree (Berlekamp and Massey). -/
def errorLocator (sy : List Nat) : List Nat × Nat :=
  let sum (l : List Nat) : Nat := l.foldl Nat.xor 0
  let pad (n : Nat) (l : List Nat) : List Nat := l ++ List.replicate (n - l.length) 0
  let r := (List.range 16).foldl (fun (a : List Nat × List Nat × Nat × Nat × Nat) n =>
    let (c, b, l, m, d0) := a
    let d := sum ((List.range (l + 1)).map fun i => gfMul (c.getD i 0) (if i ≤ n then sy.getD (n - i) 0 else 0))
    if d = 0 then (c, b, l, m + 1, d0)
    else
      let f := gfMul d (gfInv d0)
      let c' := (pad 34 c).zipWith Nat.xor (pad 34 (List.replicate m 0 ++ b.map (gfMul f)))
      if 2 * l ≤ n then (c', c, n + 1 - l, 1, d) else (c', b, l, m + 1, d0)) ([1], [1], 0, 1, 1)
  (r.1, r.2.2.1)

/-- What decoding takes an error pattern of more than 10 symbols for: up to 6 erroneous symbols with the same syndromes; none where
there are none such. -/
def decodeFar (es : List (Nat × Nat)) : Option (List (Nat × Nat)) :=
  let sy := syndromes es
  let loc := errorLocator sy
  let omega := (List.range 16).map fun n =>
    ((List.range (n + 1)).map fun i => gfMul (loc.1.getD i 0) (sy.getD (n - i) 0)).foldl Nat.xor 0
  let slope := loc.1.zipIdx.map fun c => if c.2 % 2 = 1 then c.1 else 0
  let fix := (List.range 151).filterMap fun i =>
    let x := gfExp (symbolPlace i)
    let y := gfInv x
    if gfEval loc.1 y = 0 then
      -- Forney: the slope of the locator at y, times y, is the odd part of the locator there
      some (i, gfMul (gfMul (gfEval omega y) (gfInv (gfEval slope y)))
        (gfExp (symbolPlace i * (255 - Config.lineCodeRoot % 255))))
    else none
  if fix.length ≤ 6 && fix.length == loc.2 && syndromes fix == sy then some fix else none

/-- What decoding a stored line corrects (R342, R343): the symbols and what is added to each; none where the errors are
uncorrectable. Up to 6 erroneous symbols are found as they are, and a line whose address symbols would have to change does not
decode; 7 to 10 are never within 6 of another codeword. -/
def lineDecode (errs : List (Nat × Nat)) : Option (List (Nat × Nat)) :=
  let es := mergeErrs errs
  let fix := if es.length ≤ 6 then some es else if es.length ≤ 10 then none else decodeFar es
  match fix with
  | some l => if l.all fun e => decide (e.1 < 144) then some l else none
  | none => none

/-- Erroneous bits by word of an on-die line: the words and how many bits of each. -/
def wordErrors (errs : List (Nat × Nat)) : List (Nat × Nat) :=
  let es := mergeErrs errs
  (List.range 16).filterMap fun w =>
    let n := (es.filter fun e => e.1 / 72 == w).length
    if n = 0 then none else some (w, n)

end Sys2Proof
end

