-- ==== Sys2Proof/Machine/ObjTable.lean ====
section
/-!
DEFINITION. The object dictionary's table: every object the spec names, with its index range, sub-index range,
type, access code, default in each variant and legal values (Tables 0.5, 1.11 to 1.14, 2.12 to 2.15, 3.10 to 3.15 and
the control and status tables of every later chapter). Keys are INDEX * 256 + SUBINDEX, as Table 3.11 writes them.
-/
namespace Sys2Proof

/-- The dictionary types of Table 3.1 (R78). -/
inductive OTy where
  | bool | u8 | u16 | u32 | u64 | i32 | f32 | str | block
deriving DecidableEq, Repr

/-- The access codes of Table 0.4 that objects carry (R9). -/
inductive OAcc where
  | ro | rw | wo | rws | const
deriving DecidableEq, Repr

/-- The legal values of an object, as its table states them: a value outside an enumeration or a mask is reserved
(RESERVED_NONZERO), a value outside a range is BOUND_VIOLATION. -/
inductive ORng where
  | any
  | rng (lo hi : Nat)        -- a range
  | srng (lo hi : Int)       -- a signed range
  | zeroOr (lo hi : Nat)     -- 0, or a range
  | enum (lo hi : Nat)       -- an enumeration whose other encodings are reserved
  | enumOf (l : List Nat)    -- the same, listed
  | oneOf (l : List Nat)     -- listed values, others outside range
  | mask (m : Nat)           -- bits outside m are reserved
  | fixed (n : Nat)          -- a BLOCK of exactly n bytes
  | upTo (n : Nat)           -- a BLOCK or STR of up to n bytes
  | custom                   -- checked by objCustom
deriving DecidableEq, Repr

/-- One row: indices `iLo` to `iHi`, sub-indices `sLo` to `sHi`, type, access, defaults of V and D, legal values. -/
structure ORow where
  iLo : Nat
  iHi : Nat
  sLo : Nat
  sHi : Nat
  ty : OTy
  acc : OAcc
  dV : Nat
  dD : Nat
  rng : ORng
deriving DecidableEq, Repr

/-- Objects of indices 0x1000 to 0x10FF. -/
def objRows10 : List ORow := [
  ⟨0x1000, 0x1000, 1, 1, .u8, .const, 1, 2, .any⟩,  -- VARIANT
  ⟨0x1000, 0x1000, 2, 2, .u8, .const, 176, 176, .any⟩,  -- STEPPING
  ⟨0x1000, 0x1000, 3, 3, .str, .const, 0, 0, .any⟩,  -- SERIAL
  ⟨0x1000, 0x1000, 4, 4, .u32, .const, 0x23640430, 0x5A7D1440, .any⟩,  -- CAPABILITY
  ⟨0x1000, 0x1000, 5, 5, .u8, .const, 105, 110, .any⟩,  -- TJ_LIMIT
  ⟨0x1010, 0x1010, 1, 1, .u8, .rw, 0, 0, .any⟩]  -- DEVICE_ID

/-- Objects of indices 0x1100 to 0x11FF. -/
def objRows11 : List ORow := [
  ⟨0x1100, 0x1100, 1, 1, .u8, .rw, 32, 32, .rng 1 0x7F⟩,  -- CAN_NODE_ID
  ⟨0x1100, 0x1100, 2, 2, .u8, .rw, 2, 2, .enum 0 3⟩,  -- CAN_NOM_RATE
  ⟨0x1100, 0x1100, 3, 3, .u8, .rw, 2, 2, .enum 0 4⟩,  -- CAN_DATA_RATE
  ⟨0x1100, 0x1100, 4, 4, .bool, .rw, 1, 1, .enum 0 1⟩,  -- CAN_ENABLE
  ⟨0x1101, 0x1101, 1, 1, .u8, .rw, 255, 255, .any⟩,  -- PLCA_NODE_ID
  ⟨0x1101, 0x1101, 2, 2, .u8, .rw, 8, 8, .rng 1 255⟩,  -- PLCA_NODE_COUNT
  ⟨0x1101, 0x1101, 3, 3, .u16, .rw, 0x88B5, 0x88B5, .rng 0x600 0xFFFF⟩,  -- OAP_ETHERTYPE
  ⟨0x1101, 0x1101, 4, 4, .u64, .const, 0, 0, .any⟩,  -- MAC_ADDRESS
  ⟨0x1101, 0x1101, 5, 5, .bool, .rw, 1, 1, .enum 0 1⟩,  -- T1S_ENABLE
  ⟨0x1101, 0x1101, 6, 6, .u64, .rw, 0, 0, .mask 0xFFFFFFFFFFFF⟩,  -- CLIENT_MAC
  ⟨0x1102, 0x1102, 1, 1, .bool, .rw, 1, 1, .enum 0 1⟩]  -- MBX_ENABLE

/-- Objects of indices 0x1200 to 0x12FF. -/
def objRows12 : List ORow := [
  ⟨0x1200, 0x1200, 1, 1, .block, .wo, 0, 0, .fixed 32⟩,  -- EXPERT_KEY
  ⟨0x1200, 0x1200, 2, 2, .u8, .ro, 8, 8, .any⟩,  -- KEY_PROGRAMS_LEFT
  ⟨0x1200, 0x1200, 3, 3, .u16, .rw, 600, 600, .rng 10 3600⟩,  -- SESSION_IDLE_S
  ⟨0x1200, 0x1200, 4, 4, .u8, .ro, 0, 0, .any⟩]  -- SESSION_STATE

/-- Objects of indices 0x2000 to 0x20FF. -/
def objRows20 : List ORow := [
  ⟨0x2000, 0x2000, 2, 2, .u8, .rw, 0, 0, .enum 0 2⟩]  -- ERR_REPORTING

/-- Objects of indices 0x2100 to 0x21FF. -/
def objRows21 : List ORow := [
  ⟨0x2100, 0x2100, 1, 1, .u16, .rw, 350, 900, .custom⟩,  -- POWER_CAP
  ⟨0x2110, 0x2110, 1, 1, .u8, .rw, 1, 31, .mask 0x1F⟩,  -- LANE_REFCLK_USED
  ⟨0x2120, 0x2120, 1, 1, .u8, .rw, 5, 5, .enum 1 5⟩,  -- STAGE_HOLD
  ⟨0x2120, 0x2120, 3, 3, .u8, .rw, 0, 0, .enum 0 3⟩]  -- FABRIC_BOOT

/-- Objects of indices 0x2200 to 0x22FF. -/
def objRows22 : List ORow := [
  ⟨0x2200, 0x2200, 1, 1, .u16, .rw, 71, 71, .mask 0x7F⟩,  -- EVENT_MASK_CAN
  ⟨0x2200, 0x2200, 2, 2, .u16, .rw, 71, 71, .mask 0x7F⟩,  -- EVENT_MASK_T1S
  ⟨0x2200, 0x2200, 3, 3, .u16, .rw, 127, 127, .mask 0x7F⟩]  -- EVENT_MASK_MBX

/-- Objects of indices 0x2300 to 0x23FF. -/
def objRows23 : List ORow := [
  ⟨0x2300, 0x2300, 1, 64, .u8, .rw, 3, 3, .enum 0 3⟩,  -- UNIT_REQ
  ⟨0x2301, 0x2301, 1, 32, .u8, .rw, 3, 3, .enum 0 3⟩,  -- UNIT_REQ
  ⟨0x2302, 0x2302, 1, 8, .u8, .rw, 3, 3, .enum 0 3⟩,  -- UNIT_REQ
  ⟨0x2303, 0x2303, 1, 16, .u8, .rw, 3, 3, .enum 0 3⟩,  -- UNIT_REQ
  ⟨0x2304, 0x2304, 1, 8, .u8, .rw, 3, 3, .enum 0 3⟩,  -- UNIT_REQ
  ⟨0x2305, 0x2305, 1, 16, .u8, .rw, 3, 3, .enum 0 3⟩,  -- UNIT_REQ
  ⟨0x2306, 0x2306, 1, 20, .u8, .rw, 3, 3, .enum 0 3⟩,  -- UNIT_REQ
  ⟨0x2307, 0x2307, 1, 8, .u8, .rw, 3, 3, .enum 0 3⟩,  -- UNIT_REQ
  ⟨0x2308, 0x2308, 1, 4, .u8, .rw, 3, 3, .enum 0 3⟩,  -- UNIT_REQ
  ⟨0x2309, 0x2309, 1, 16, .u8, .rw, 3, 3, .enum 0 3⟩,  -- UNIT_REQ
  ⟨0x230A, 0x230A, 1, 8, .u8, .rw, 3, 3, .enum 0 3⟩,  -- UNIT_REQ
  ⟨0x230B, 0x230B, 1, 1, .u8, .rw, 3, 3, .enum 0 3⟩]  -- UNIT_REQ

/-- Objects of indices 0x2400 to 0x24FF. -/
def objRows24 : List ORow := [
  ⟨0x2400, 0x2400, 1, 1, .bool, .rw, 0, 0, .enum 0 1⟩,  -- ABFT_FORCE
  ⟨0x2401, 0x2401, 1, 64, .u8, .rw, 0, 0, .enum 0 1⟩,  -- MXT_ROLE
  ⟨0x2402, 0x2402, 1, 64, .u8, .rw, 255, 255, .custom⟩,  -- UNDERSTUDY
  ⟨0x2403, 0x2403, 1, 1, .u8, .rw, 0, 0, .enum 0 1⟩,  -- REPAIR_POLICY
  ⟨0x2410, 0x2410, 1, 1, .bool, .rw, 1, 1, .enum 0 1⟩,  -- IDLE_GATE
  ⟨0x2410, 0x2410, 2, 2, .u8, .rw, 1, 1, .enum 0 2⟩,  -- SPARE_STATE
  ⟨0x2410, 0x2410, 3, 3, .u16, .rw, 1000, 1250, .custom⟩]  -- MXT_CLK_LIMIT

/-- Objects of indices 0x2500 to 0x25FF. -/
def objRows25 : List ORow := [
  ⟨0x2500, 0x2500, 1, 1, .bool, .rw, 1, 1, .enum 0 1⟩,  -- VXT_IDLE_GATE
  ⟨0x2500, 0x2500, 2, 2, .u8, .rw, 0, 0, .enum 0 1⟩]  -- NAN_RANK

/-- Objects of indices 0x2600 to 0x26FF. -/
def objRows26 : List ORow := [
  ⟨0x2600, 0x2600, 1, 1, .bool, .rw, 1, 1, .enum 0 1⟩]  -- CAT_IDLE_GATE

/-- Objects of indices 0x2700 to 0x27FF. -/
def objRows27 : List ORow := [
  ⟨0x2700, 0x2700, 1, 8, .u8, .rws, 0, 0, .custom⟩,  -- SP_MODE
  ⟨0x2701, 0x2701, 1, 8, .u8, .rw, 4, 4, .oneOf [1, 2, 4]⟩,  -- SP_LANES
  ⟨0x2702, 0x2702, 1, 8, .u16, .rw, 1500, 1500, .rng 80 4500⟩,  -- SP_LANE_MBPS
  ⟨0x2703, 0x2703, 1, 8, .u8, .rw, 0, 0, .rng 0 15⟩,  -- SP_VC
  ⟨0x2704, 0x2704, 1, 8, .u8, .rw, 48, 48, .rng 0x10 0x3F⟩,  -- SP_DATA_TYPE
  ⟨0x2705, 0x2705, 1, 8, .u8, .rw, 0, 0, .enum 0 1⟩,  -- SP_EVENT_FORMAT
  ⟨0x2706, 0x2706, 1, 8, .u32, .rw, 0x10001000, 0x10001000, .custom⟩,  -- SP_GEOMETRY
  ⟨0x2707, 0x2707, 1, 8, .u16, .rw, 0, 0, .any⟩,  -- SP_EVT_CORES
  ⟨0x2720, 0x2720, 1, 16, .u8, .rw, 0, 0, .enum 0 1⟩,  -- SEC_OVERLOAD
  ⟨0x2721, 0x2721, 1, 16, .u16, .rw, 0xFFFF, 0xFFFF, .custom⟩,  -- SEC_EVT_CQ
  ⟨0x2722, 0x2722, 1, 16, .u16, .rw, 100, 100, .rng 1 10000⟩]  -- SEC_BATCH_US

/-- Objects of indices 0x2800 to 0x28FF. -/
def objRows28 : List ORow := [
  ⟨0x2800, 0x2800, 1, 1, .u8, .rw, 0, 0, .enum 0 2⟩,  -- GATHER_PACING
  ⟨0x2801, 0x2801, 1, 1, .u16, .rw, 0, 0, .custom⟩,  -- HOT_CACHE_KIB
  ⟨0x2801, 0x2801, 2, 2, .u16, .rw, 256, 256, .oneOf [32, 64, 128, 256, 512, 1024]⟩,  -- HOT_SLOT_BYTES
  ⟨0x2810, 0x2810, 1, 1, .u8, .rw, 1, 1, .enum 0 7⟩,  -- ED_SOURCE
  ⟨0x2810, 0x2810, 2, 32, .u8, .rw, 0, 0, .enum 0 7⟩,  -- ED_SOURCE
  ⟨0x2811, 0x2811, 1, 32, .u32, .rw, 0, 0, .any⟩,  -- ED_SOURCE_ARG
  ⟨0x2812, 0x2812, 1, 1, .u8, .wo, 0, 0, .rng 0 31⟩,  -- EPOCH_MARK_MGMT
  ⟨0x2813, 0x2813, 1, 4, .u8, .rw, 255, 255, .custom⟩,  -- EPOCH_OUT_SEL
  ⟨0x2820, 0x2820, 1, 64, .u8, .rw, 0, 0, .rng 0 31⟩,  -- UNIT_DOMAIN
  ⟨0x2821, 0x2821, 1, 32, .u8, .rw, 0, 0, .rng 0 31⟩,  -- UNIT_DOMAIN
  ⟨0x2822, 0x2822, 1, 8, .u8, .rw, 0, 0, .rng 0 31⟩,  -- UNIT_DOMAIN
  ⟨0x2823, 0x2823, 1, 16, .u8, .rw, 0, 0, .rng 0 31⟩,  -- UNIT_DOMAIN
  ⟨0x2824, 0x2824, 1, 8, .u8, .rw, 0, 0, .rng 0 31⟩,  -- UNIT_DOMAIN
  ⟨0x2825, 0x2825, 1, 16, .u8, .rw, 0, 0, .rng 0 31⟩,  -- UNIT_DOMAIN
  ⟨0x2826, 0x2826, 1, 20, .u8, .rw, 0, 0, .rng 0 31⟩,  -- UNIT_DOMAIN
  ⟨0x2827, 0x2827, 1, 8, .u8, .rw, 0, 0, .rng 0 31⟩,  -- UNIT_DOMAIN
  ⟨0x2828, 0x2828, 1, 4, .u8, .rw, 0, 0, .rng 0 31⟩,  -- UNIT_DOMAIN
  ⟨0x2829, 0x2829, 1, 16, .u8, .rw, 0, 0, .rng 0 31⟩,  -- UNIT_DOMAIN
  ⟨0x282A, 0x282A, 1, 8, .u8, .rw, 0, 0, .rng 0 31⟩,  -- UNIT_DOMAIN
  ⟨0x282B, 0x282B, 1, 1, .u8, .rw, 0, 0, .rng 0 31⟩]  -- UNIT_DOMAIN

/-- Objects of indices 0x2900 to 0x29FF. -/
def objRows29 : List ORow := [
  ⟨0x2900, 0x2900, 1, 1, .u8, .rw, 6, 6, .enum 1 6⟩,  -- PCIE_MAX_RATE
  ⟨0x2900, 0x2900, 2, 2, .u8, .rw, 16, 16, .enumOf [1, 2, 4, 8, 16]⟩,  -- PCIE_MAX_WIDTH
  ⟨0x2900, 0x2900, 3, 3, .u8, .rw, 63, 63, .rng 0 63⟩,  -- TOTAL_VFS
  ⟨0x2900, 0x2900, 4, 4, .u8, .rw, 16, 16, .rng 1 16⟩,  -- VF_MSIX_VECTORS
  ⟨0x2900, 0x2900, 5, 5, .u8, .rw, 32, 32, .rng 30 36⟩,  -- VF_BAR2_LOG2
  ⟨0x2900, 0x2900, 6, 6, .u16, .rw, 0, 0, .any⟩,  -- SUBSYSTEM_ID
  ⟨0x2900, 0x2900, 7, 7, .u16, .rw, 0x1F3C, 0x1F3C, .any⟩,  -- SUBSYSTEM_VENDOR_ID
  ⟨0x2920, 0x2920, 1, 1, .u8, .rw, 0, 0, .enum 0 2⟩,  -- OVERLAP_MODE
  ⟨0x2920, 0x2920, 2, 2, .u16, .rw, 0, 0, .rng 0 60000⟩]  -- HANG_WATCH_MS

/-- Objects of indices 0x2A00 to 0x2AFF. -/
def objRows2A : List ORow := [
  ⟨0x2A00, 0x2A00, 1, 1, .u8, .rw, 0, 0, .enum 0 2⟩,  -- STREAM_PACING
  ⟨0x2A01, 0x2A01, 1, 1, .u8, .rw, 14, 14, .rng 10 16⟩,  -- PELLET_LOG_ENTRIES
  ⟨0x2A01, 0x2A01, 2, 2, .u32, .rw, 0, 0, .any⟩,  -- PELLET_READ_SEQ
  ⟨0x2A01, 0x2A01, 3, 3, .u8, .rw, 0, 0, .enum 0 1⟩,  -- PELLET_LOG_MODE
  ⟨0x2A02, 0x2A02, 1, 1, .u16, .rw, 0, 0, .rng 0 439⟩]  -- STALL_SELECT

/-- Objects of indices 0x2B00 to 0x2BFF. -/
def objRows2B : List ORow := [
  ⟨0x2B00, 0x2B00, 1, 1, .u8, .rw, 0, 0, .enum 0 1⟩,  -- ROUTING
  ⟨0x2B00, 0x2B00, 2, 2, .u8, .rw, 0, 0, .enum 0 2⟩,  -- TC_BALANCE
  ⟨0x2B10, 0x2B10, 1, 64, .u8, .rws, 1, 1, .enum 0 1⟩,  -- DOMAIN_POLICY
  ⟨0x2B11, 0x2B11, 1, 32, .u8, .rws, 1, 1, .enum 0 1⟩,  -- DOMAIN_POLICY
  ⟨0x2B12, 0x2B12, 1, 8, .u8, .rws, 1, 1, .enum 0 1⟩,  -- DOMAIN_POLICY
  ⟨0x2B13, 0x2B13, 1, 16, .u8, .rws, 1, 1, .enum 0 1⟩,  -- DOMAIN_POLICY
  ⟨0x2B14, 0x2B14, 1, 8, .u8, .rws, 0, 0, .enum 0 1⟩,  -- DOMAIN_POLICY
  ⟨0x2B15, 0x2B15, 1, 16, .u8, .rws, 1, 1, .enum 0 1⟩,  -- DOMAIN_POLICY
  ⟨0x2B16, 0x2B16, 1, 20, .u8, .rws, 0, 0, .enum 0 1⟩,  -- DOMAIN_POLICY
  ⟨0x2B17, 0x2B17, 1, 8, .u8, .rws, 0, 0, .enum 0 1⟩,  -- DOMAIN_POLICY
  ⟨0x2B18, 0x2B18, 1, 4, .u8, .rws, 0, 0, .enum 0 1⟩,  -- DOMAIN_POLICY
  ⟨0x2B19, 0x2B19, 1, 16, .u8, .rws, 0, 0, .enum 0 1⟩,  -- DOMAIN_POLICY
  ⟨0x2B1A, 0x2B1A, 1, 8, .u8, .rws, 0, 0, .enum 0 1⟩,  -- DOMAIN_POLICY
  ⟨0x2B1B, 0x2B1B, 1, 1, .u8, .rws, 1, 1, .enum 0 1⟩,  -- DOMAIN_POLICY
  ⟨0x2B20, 0x2B20, 1, 1, .bool, .rw, 1, 1, .enum 0 1⟩,  -- STATS_ENABLE
  ⟨0x2B20, 0x2B20, 2, 2, .u8, .wo, 0, 0, .enum 0 2⟩,  -- STATS_SNAPSHOT
  ⟨0x2B20, 0x2B20, 3, 3, .u8, .rw, 0, 0, .any⟩,  -- STATS_SELECT
  ⟨0x2B20, 0x2B20, 4, 4, .u16, .rw, 32, 32, .enumOf [8, 16, 32, 64, 128, 256, 512, 1024]⟩]  -- LAT_BUCKET_BASE

/-- Objects of indices 0x2C00 to 0x2CFF. -/
def objRows2C : List ORow := [
  ⟨0x2C00, 0x2C00, 1, 1, .u16, .rw, 24, 24, .rng 0 168⟩,  -- SCRUB_PERIOD_H
  ⟨0x2C01, 0x2C01, 1, 1, .u8, .rw, 0, 0, .enum 0 1⟩,  -- HBM_MAP
  ⟨0x2C02, 0x2C02, 1, 1, .u8, .rw, 0, 0, .enum 0 1⟩,  -- LP_MAP
  ⟨0x2C02, 0x2C02, 2, 2, .bool, .rw, 1, 1, .enum 0 1⟩,  -- LP_INLINE_ECC
  ⟨0x2C03, 0x2C03, 1, 1, .u8, .rw, 0, 0, .enum 0 2⟩,  -- INBOUND_POLICY
  ⟨0x2C40, 0x2C40, 1, 1, .u8, .rw, 0, 0, .enum 0 1⟩]  -- STORE_ORDER_MODE

/-- Objects of indices 0x2D00 to 0x2DFF. -/
def objRows2D : List ORow := [
  ⟨0x2D00, 0x2D00, 1, 1, .u8, .rw, 1, 1, .enum 0 2⟩,  -- CFG_SCRUB
  ⟨0x2D00, 0x2D00, 2, 2, .u8, .rw, 0, 0, .enum 0 1⟩,  -- FABRIC_UE_ACTION
  ⟨0x2D01, 0x2D01, 1, 16, .u8, .rw, 0, 0, .rng 0 63⟩,  -- FP_CTX
  ⟨0x2D02, 0x2D02, 1, 8, .u8, .rw, 255, 255, .custom⟩]  -- SP_FABRIC_PORT

/-- Objects of indices 0x2E00 to 0x2EFF. -/
def objRows2E : List ORow := [
  ⟨0x2E00, 0x2E00, 1, 20, .u8, .rw, 3, 3, .enum 0 3⟩,  -- PH_MAX_RATE
  ⟨0x2E01, 0x2E01, 1, 20, .u8, .rw, 0, 0, .enum 0 2⟩,  -- PH_EQ_PROFILE
  ⟨0x2E02, 0x2E02, 1, 20, .bool, .rw, 0, 0, .enum 0 1⟩,  -- PH_REQUIRED
  ⟨0x2E03, 0x2E03, 1, 20, .u16, .rw, 1000, 1000, .rng 100 60000⟩,  -- PH_RETRY_MS
  ⟨0x2E04, 0x2E04, 1, 20, .u8, .rw, 255, 255, .oneOf [0xFF, 0x0F, 0xF0]⟩,  -- PH_LANE_MASK
  ⟨0x2E05, 0x2E05, 1, 20, .u8, .rw, 1, 1, .enum 0 2⟩,  -- PH_IDLE_POLICY
  ⟨0x2E80, 0x2E80, 1, 20, .bool, .rw, 1, 1, .enum 0 1⟩,  -- PH_LINK_ENABLE
  ⟨0x2E81, 0x2E81, 1, 128, .u16, .rw, 0, 0, .mask 0x80FF⟩,  -- DEV_ROUTE
  ⟨0x2E82, 0x2E82, 1, 128, .u16, .rw, 0, 0, .mask 0x80FF⟩,  -- DEV_ROUTE
  ⟨0x2E84, 0x2E84, 1, 1, .u8, .rw, 0, 0, .enum 0 2⟩,  -- LINK_PROFILE
  ⟨0x2E85, 0x2E85, 1, 1, .bool, .rw, 1, 1, .enum 0 1⟩,  -- DEGRADE_ENABLE
  ⟨0x2E86, 0x2E86, 1, 1, .bool, .rw, 1, 1, .enum 0 1⟩]  -- FORWARD_ENABLE

/-- Objects of indices 0x2F00 to 0x2FFF. -/
def objRows2F : List ORow := [
  ⟨0x2F00, 0x2F00, 1, 1, .i32, .rw, 450, 450, .srng (-350) 1000⟩,  -- COOLANT_INLET_DC
  ⟨0x2F00, 0x2F00, 2, 2, .u16, .rw, 10, 0, .zeroOr 1 600⟩,  -- COOLANT_WATCH_S
  ⟨0x2F01, 0x2F01, 1, 1, .u8, .rw, 0, 1, .enum 0 1⟩]  -- COOLING_PROFILE

/-- Objects of indices 0x4000 to 0x40FF. -/
def objRows40 : List ORow := [
  ⟨0x4000, 0x4000, 1, 1, .bool, .rw, 0, 0, .enum 0 1⟩,  -- DEVICE_ID_LOCK
  ⟨0x4001, 0x4001, 1, 1, .bool, .rw, 0, 0, .enum 0 1⟩,  -- ERRN_CORRECTED
  ⟨0x4001, 0x4001, 2, 2, .bool, .rw, 0, 0, .enum 0 1⟩,  -- ERRN_DEFERRED
  ⟨0x4001, 0x4001, 3, 3, .bool, .rw, 1, 1, .enum 0 1⟩,  -- ERRN_CONTAINED
  ⟨0x4001, 0x4001, 4, 4, .bool, .const, 1, 1, .any⟩]  -- ERRN_FATAL

/-- Objects of indices 0x4100 to 0x41FF. -/
def objRows41 : List ORow := [
  ⟨0x4100, 0x4100, 1, 1, .u16, .rw, 250, 250, .rng 100 350⟩,  -- REDUCED_CAP_W
  ⟨0x4100, 0x4100, 2, 2, .u16, .rw, 1000, 1000, .rng 100 10000⟩,  -- CAP_WINDOW_US
  ⟨0x4100, 0x4100, 3, 3, .u8, .rw, 2, 2, .rng 1 4⟩,  -- ISLEW_A_PER_US
  ⟨0x4101, 0x4101, 1, 1, .bool, .rw, 1, 1, .enum 0 1⟩,  -- AVS_ENABLE
  ⟨0x4101, 0x4101, 2, 2, .u8, .rw, 15, 15, .rng 0 50⟩,  -- VCORE_MARGIN_MV
  ⟨0x4102, 0x4102, 1, 1, .u16, .rw, 500, 500, .custom⟩,  -- EYAS_TCLK_MHZ
  ⟨0x4103, 0x4103, 1, 1, .u8, .wo, 0, 0, .enum 0 2⟩]  -- RESET_REQUEST

/-- Objects of indices 0x4200 to 0x42FF. -/
def objRows42 : List ORow := [
  ⟨0x4210, 0x4210, 1, 1, .u16, .rw, 800, 800, .rng 700 900⟩,  -- CAN_NOM_SP
  ⟨0x4210, 0x4210, 2, 2, .u16, .rw, 750, 750, .rng 600 900⟩,  -- CAN_DATA_SP
  ⟨0x4210, 0x4210, 3, 3, .bool, .rw, 1, 1, .enum 0 1⟩,  -- CAN_TDC_ENABLE
  ⟨0x4211, 0x4211, 1, 1, .u8, .rw, 32, 32, .rng 1 255⟩,  -- PLCA_TO_TIMER
  ⟨0x4211, 0x4211, 2, 2, .u8, .rw, 0, 0, .any⟩,  -- PLCA_BURST
  ⟨0x4212, 0x4212, 1, 1, .u8, .rw, 3, 3, .rng 1 10⟩,  -- PROVE_LIMIT
  ⟨0x4212, 0x4212, 2, 2, .u16, .rw, 60, 60, .rng 10 3600⟩]  -- LOCKOUT_S

/-- Objects of indices 0x4400 to 0x44FF. -/
def objRows44 : List ORow := [
  ⟨0x4410, 0x4410, 1, 64, .u32, .wo, 0, 0, .custom⟩,  -- REPAIR_REQUEST
  ⟨0x4420, 0x4420, 1, 1, .u64, .wo, 0, 0, .mask 0x9FFFFF3F⟩]  -- FAULT_INJECT

/-- Objects of indices 0x4500 to 0x45FF. -/
def objRows45 : List ORow := [
  ⟨0x4500, 0x4500, 1, 1, .u16, .wo, 0, 0, .mask 0x801F⟩]  -- VXT_EXC_INJECT

/-- Objects of indices 0x4600 to 0x46FF. -/
def objRows46 : List ORow := [
  ⟨0x4600, 0x4600, 1, 1, .u8, .rw, 0, 0, .enum 0 1⟩,  -- NTT_RADIX
  ⟨0x4600, 0x4600, 2, 2, .u16, .wo, 0, 0, .mask 0x8007⟩]  -- CAT_INJECT

/-- Objects of indices 0x4700 to 0x47FF. -/
def objRows47 : List ORow := [
  ⟨0x4700, 0x4700, 1, 8, .u64, .rw, 0x12002, 0x12002, .custom⟩,  -- SP_EVT_WORD
  ⟨0x4701, 0x4701, 1, 8, .u32, .rw, 0, 0, .any⟩,  -- SP_TS_OFFSET
  ⟨0x4702, 0x4702, 1, 8, .u16, .rw, 10, 10, .rng 1 1000⟩,  -- SP_EVT_FLUSH_US
  ⟨0x4710, 0x4710, 1, 16, .block, .rw, 0, 0, .fixed 24⟩,  -- SP_RULE
  ⟨0x4711, 0x4711, 1, 16, .block, .rw, 0, 0, .fixed 24⟩,  -- SP_RULE
  ⟨0x4712, 0x4712, 1, 16, .block, .rw, 0, 0, .fixed 24⟩,  -- SP_RULE
  ⟨0x4713, 0x4713, 1, 16, .block, .rw, 0, 0, .fixed 24⟩,  -- SP_RULE
  ⟨0x4714, 0x4714, 1, 16, .block, .rw, 0, 0, .fixed 24⟩,  -- SP_RULE
  ⟨0x4715, 0x4715, 1, 16, .block, .rw, 0, 0, .fixed 24⟩,  -- SP_RULE
  ⟨0x4716, 0x4716, 1, 16, .block, .rw, 0, 0, .fixed 24⟩,  -- SP_RULE
  ⟨0x4717, 0x4717, 1, 16, .block, .rw, 0, 0, .fixed 24⟩,  -- SP_RULE
  ⟨0x4720, 0x4720, 1, 1, .u16, .wo, 0, 0, .mask 0x8007⟩]  -- SP_INJECT

/-- Objects of indices 0x4800 to 0x48FF. -/
def objRows48 : List ORow := [
  ⟨0x4800, 0x4800, 1, 1, .u16, .rw, 0x1000, 0x1000, .rng 1 4096⟩,  -- GE_MAX_INFLIGHT
  ⟨0x4800, 0x4800, 2, 2, .u16, .rw, 256, 256, .rng 16 256⟩,  -- SERVE_QUEUE
  ⟨0x4810, 0x4810, 1, 1, .u8, .rw, 16, 16, .rng 1 64⟩]  -- MOULT_CONCURRENCY

/-- Objects of indices 0x4900 to 0x49FF. -/
def objRows49 : List ORow := [
  ⟨0x4900, 0x4900, 1, 1, .u8, .rw, 7, 7, .enum 0 10⟩,  -- PCIE_TX_PRESET
  ⟨0x4900, 0x4900, 2, 2, .u32, .rw, 0xC350, 0xC350, .rng 50 50000000⟩,  -- PCIE_CPL_TIMEOUT_US
  ⟨0x4900, 0x4900, 3, 3, .u8, .rw, 8, 8, .rng 1 16⟩,  -- DISPATCH_PREFETCH
  ⟨0x4920, 0x4920, 1, 1, .u8, .rw, 2, 2, .rng 1 2⟩,  -- SLOTS
  ⟨0x4920, 0x4920, 2, 2, .u8, .rw, 16, 16, .rng 1 16⟩]  -- ISSUE_DEPTH

/-- Objects of indices 0x4A00 to 0x4AFF. -/
def objRows4A : List ORow := [
  ⟨0x4A00, 0x4A00, 1, 1, .u16, .rw, 1024, 1024, .rng 1 1024⟩,  -- MAX_OUTSTANDING
  ⟨0x4A00, 0x4A00, 2, 2, .u8, .rw, 4, 4, .rng 0 16⟩,  -- XLATE_LOOKAHEAD
  ⟨0x4A02, 0x4A02, 1, 1, .u16, .wo, 0, 0, .custom⟩]  -- POISON_INJECT

/-- Objects of indices 0x4B00 to 0x4BFF. -/
def objRows4B : List ORow := [
  ⟨0x4B00, 0x4B00, 1, 1, .u8, .rw, 4, 4, .rng 1 32⟩,  -- VC_WEIGHT_TC
  ⟨0x4B00, 0x4B00, 2, 2, .u8, .rw, 8, 8, .rng 1 32⟩,  -- VC_WEIGHT_TC
  ⟨0x4B00, 0x4B00, 3, 3, .u8, .rw, 4, 4, .rng 1 32⟩,  -- VC_WEIGHT_TC
  ⟨0x4B01, 0x4B01, 1, 1, .bool, .rw, 0, 0, .enum 0 1⟩,  -- SRC_ROUTE_GLOBAL
  ⟨0x4B02, 0x4B02, 1, 1, .u32, .rw, 1000, 1000, .rng 100 1000000⟩]  -- NI_TIMEOUT_US

/-- Objects of indices 0x4C00 to 0x4CFF. -/
def objRows4C : List ORow := [
  ⟨0x4C00, 0x4C00, 1, 1, .u32, .rw, 0, 0, .rng 0 16777216⟩,  -- SCRUB_LINES_PER_S
  ⟨0x4C00, 0x4C00, 2, 2, .u16, .rw, 1000, 1000, .rng 100 60000⟩,  -- SRAM_SCRUB_PERIOD_MS
  ⟨0x4C10, 0x4C10, 1, 1, .u16, .rw, 0x2155, 0x2155, .oneOf [6400, 7500, 8533]⟩,  -- LP_RATE_MTS
  ⟨0x4C10, 0x4C10, 2, 2, .u16, .rw, 100, 100, .rng 10 1000⟩,  -- LP_RECAL_MS
  ⟨0x4C20, 0x4C20, 1, 1, .u64, .wo, 0, 0, .custom⟩,  -- ECC_INJECT
  ⟨0x4C30, 0x4C30, 1, 16, .u64, .rw, 0, 0, .custom⟩,  -- WIN_RANGE
  ⟨0x4C31, 0x4C31, 1, 16, .u32, .rw, 0, 0, .mask 0xE000FFFF⟩,  -- WIN_ACCESS
  ⟨0x4C40, 0x4C40, 1, 1, .u8, .rw, 32, 32, .rng 1 32⟩,  -- SB_DEPTH
  ⟨0x4C40, 0x4C40, 2, 2, .bool, .rw, 1, 1, .enum 0 1⟩,  -- SB_FORWARD
  ⟨0x4C40, 0x4C40, 3, 3, .bool, .rw, 0, 0, .enum 0 1⟩,  -- SB_SYNC
  ⟨0x4C40, 0x4C40, 4, 4, .u16, .rw, 256, 256, .rng 1 256⟩]  -- REMOTE_RSV_LIMIT

/-- Objects of indices 0x4D00 to 0x4DFF. -/
def objRows4D : List ORow := [
  ⟨0x4D00, 0x4D00, 1, 1, .u16, .rw, 10, 10, .zeroOr 10 1000⟩,  -- CFG_SCRUB_PERIOD_MS
  ⟨0x4D00, 0x4D00, 2, 2, .u16, .rw, 1000, 1000, .rng 10 60000⟩,  -- CFG_STREAM_TIMEOUT_MS
  ⟨0x4D00, 0x4D00, 3, 3, .u64, .wo, 0, 0, .custom⟩,  -- CFG_INJECT
  ⟨0x4D01, 0x4D01, 1, 16, .u16, .rw, 1024, 1024, .rng 1 1024⟩]  -- FP_MAX_OUTSTANDING

/-- Objects of indices 0x4E00 to 0x4EFF. -/
def objRows4E : List ORow := [
  ⟨0x4E00, 0x4E00, 1, 160, .u32, .rw, 5, 5, .custom⟩,  -- TX_FFE
  ⟨0x4E01, 0x4E01, 1, 160, .u16, .rw, 15, 15, .mask 0x800F⟩,  -- RX_CTLE
  ⟨0x4E02, 0x4E02, 1, 160, .u32, .rw, 4095, 4095, .mask 0x80070FFF⟩,  -- RX_DFE_CTRL
  ⟨0x4E03, 0x4E03, 1, 160, .u8, .rw, 60, 60, .rng 30 200⟩,  -- LOS_THRESH_MV
  ⟨0x4E04, 0x4E04, 1, 160, .u16, .rw, 1000, 1000, .rng 10 10000⟩,  -- LOS_FILTER_NS
  ⟨0x4E05, 0x4E05, 1, 160, .u16, .rw, 300, 300, .rng 100 1000⟩,  -- LOL_PPM
  ⟨0x4E06, 0x4E06, 1, 160, .u16, .rw, 10, 10, .rng 1 1000⟩,  -- LOL_FILTER_US
  ⟨0x4E07, 0x4E07, 1, 160, .u32, .rw, 0, 0, .custom⟩,  -- PATTERN_CTRL
  ⟨0x4E08, 0x4E08, 1, 160, .block, .rw, 0, 0, .fixed 10⟩,  -- PATTERN_USER
  ⟨0x4E09, 0x4E09, 1, 160, .u32, .wo, 0, 0, .custom⟩,  -- INJECT
  ⟨0x4E10, 0x4E10, 1, 20, .u16, .rw, 60, 60, .rng 1 3600⟩,  -- RECAL_INTERVAL_S
  ⟨0x4E11, 0x4E11, 1, 20, .u32, .rw, 10, 10, .any⟩,  -- IDLE_TIMERS
  ⟨0x4E12, 0x4E12, 1, 20, .u16, .rw, 50, 50, .rng 1 10000⟩,  -- REQUIRED_GRACE_MS
  ⟨0x4E80, 0x4E80, 1, 1, .u16, .rw, 10, 10, .rng 1 1000⟩,  -- REPLAY_TIMEOUT_US
  ⟨0x4E80, 0x4E80, 2, 2, .u8, .rw, 4, 4, .rng 1 16⟩,  -- REPLAY_LIMIT
  ⟨0x4E80, 0x4E80, 3, 3, .u8, .rw, 32, 32, .rng 1 128⟩,  -- ACK_INTERVAL
  ⟨0x4E81, 0x4E81, 1, 20, .u16, .rw, 0x1000, 0x1000, .rng 1 4096⟩,  -- PH_MAX_OUTSTANDING
  ⟨0x4E82, 0x4E82, 1, 1, .u8, .rw, 4, 4, .rng 1 15⟩,  -- MAX_HOPS
  ⟨0x4E82, 0x4E82, 2, 2, .u8, .rw, 2, 2, .rng 1 8⟩]  -- REISSUE_LIMIT

/-- Objects of indices 0x4F00 to 0x4FFF. -/
def objRows4F : List ORow := [
  ⟨0x4F00, 0x4F00, 1, 1, .u16, .rw, 110, 30, .rng 10 500⟩,  -- THETA_LI_MCW
  ⟨0x4F00, 0x4F00, 2, 2, .u8, .rw, 5, 5, .rng 2 20⟩,  -- TJ_MARGIN_C
  ⟨0x4F00, 0x4F00, 3, 3, .i32, .rw, 650, 650, .srng (-350) 1000⟩,  -- COOLANT_FALLBACK_DC
  ⟨0x4F01, 0x4F01, 1, 1, .u8, .rw, 1, 1, .enum 0 1⟩]  -- CMOS_DRIVE

/-- Objects of indices 0x6000 to 0x60FF. -/
def objRows60 : List ORow := [
  ⟨0x6000, 0x6000, 1, 1, .u8, .ro, 0, 0, .any⟩,  -- BRINGUP_STAGE
  ⟨0x6000, 0x6000, 2, 2, .u32, .ro, 0, 0, .any⟩,  -- STAGE_FAULTS
  ⟨0x6000, 0x6000, 3, 7, .u32, .ro, 0, 0, .any⟩,  -- STAGE_TIME_S1 to STAGE_TIME_S5
  ⟨0x6000, 0x6000, 8, 8, .u8, .ro, 0, 0, .any⟩,  -- BOOT_MODE_SAMPLED
  ⟨0x6000, 0x6000, 9, 9, .u8, .ro, 0, 0, .any⟩,  -- RESET_CAUSE
  ⟨0x6000, 0x6000, 10, 10, .u32, .ro, 0, 0, .any⟩,  -- EYAS_HOLDS
  ⟨0x6001, 0x6001, 1, 1, .u32, .ro, 0, 0, .any⟩,  -- ERR_COUNT_CORRECTED
  ⟨0x6001, 0x6001, 2, 2, .u32, .ro, 0, 0, .any⟩,  -- ERR_COUNT_DEFERRED
  ⟨0x6001, 0x6001, 3, 3, .u32, .ro, 0, 0, .any⟩,  -- ERR_COUNT_CONTAINED
  ⟨0x6001, 0x6001, 4, 4, .u32, .ro, 0, 0, .any⟩,  -- ERR_COUNT_FATAL
  ⟨0x6002, 0x6002, 1, 1, .u32, .ro, 0, 0, .any⟩,  -- UNBACKED_COUNT
  ⟨0x6002, 0x6002, 2, 2, .u64, .ro, 0, 0, .any⟩,  -- UNBACKED_LAST
  ⟨0x6003, 0x6003, 1, 1, .u32, .ro, 0, 0, .any⟩,  -- STATE_CONFLICT_COUNT
  ⟨0x6003, 0x6003, 2, 2, .u32, .ro, 0, 0, .any⟩,  -- RING_FAULT_COUNT
  ⟨0x6004, 0x6004, 1, 1, .u64, .ro, 0, 0, .any⟩,  -- EXC_NAN
  ⟨0x6004, 0x6004, 2, 2, .u64, .ro, 0, 0, .any⟩,  -- EXC_POS_INF
  ⟨0x6004, 0x6004, 3, 3, .u64, .ro, 0, 0, .any⟩,  -- EXC_NEG_INF
  ⟨0x6004, 0x6004, 4, 4, .u64, .ro, 0, 0, .any⟩,  -- EXC_SAT_HIGH
  ⟨0x6004, 0x6004, 5, 5, .u64, .ro, 0, 0, .any⟩,  -- EXC_SAT_LOW
  ⟨0x6004, 0x6004, 6, 6, .u64, .ro, 0, 0, .any⟩,  -- EXC_TILES_TOTAL
  ⟨0x6004, 0x6004, 7, 7, .u64, .ro, 0, 0, .any⟩,  -- ACC_SAT_TILES
  ⟨0x6010, 0x6010, 1, 1, .u32, .ro, 0, 0, .any⟩,  -- OAP_REQUESTS
  ⟨0x6010, 0x6010, 2, 2, .u32, .ro, 0, 0, .any⟩,  -- OAP_FAILURES
  ⟨0x6010, 0x6010, 3, 3, .u32, .ro, 0, 0, .any⟩,  -- OAP_OVERRUNS
  ⟨0x6010, 0x6010, 4, 4, .u32, .ro, 0, 0, .any⟩,  -- SEG_DISCARDS
  ⟨0x6010, 0x6010, 5, 5, .u16, .ro, 0, 0, .any⟩,  -- OVERRIDDEN_COUNT
  ⟨0x6010, 0x6010, 6, 6, .u16, .ro, 0, 0, .any⟩,  -- PENDING_COUNT
  ⟨0x6010, 0x6010, 7, 7, .u32, .ro, 0, 0, .any⟩,  -- LAST_FAIL_OBJECT
  ⟨0x6010, 0x6010, 8, 8, .u8, .ro, 0, 0, .any⟩,  -- LAST_FAIL_STATUS
  ⟨0x6010, 0x6010, 9, 9, .u32, .ro, 0, 0, .any⟩,  -- AUTH_FAILS
  ⟨0x6010, 0x6010, 10, 10, .u32, .ro, 0, 0, .any⟩,  -- CAN_IGNORED
  ⟨0x6010, 0x6010, 11, 11, .u32, .ro, 0, 0, .any⟩]  -- SESSIONS_OPENED

/-- Objects of indices 0x6100 to 0x61FF. -/
def objRows61 : List ORow := [
  ⟨0x6100, 0x6100, 1, 1, .u16, .ro, 0, 0, .any⟩,  -- VIN_MV
  ⟨0x6100, 0x6100, 2, 2, .u16, .ro, 0, 0, .any⟩,  -- VIN_MIN_MV
  ⟨0x6100, 0x6100, 3, 3, .u8, .ro, 0, 0, .any⟩,  -- VIN_BAND
  ⟨0x6100, 0x6100, 4, 4, .u32, .ro, 0, 0, .any⟩,  -- HOLD_ENTRIES
  ⟨0x6100, 0x6100, 5, 5, .u32, .ro, 0, 0, .any⟩,  -- REDUCED_ENTRIES
  ⟨0x6100, 0x6100, 6, 6, .u32, .ro, 0, 0, .any⟩,  -- OVER_ENTRIES
  ⟨0x6100, 0x6100, 7, 7, .u16, .ro, 0, 0, .any⟩,  -- INPUT_POWER_W
  ⟨0x6100, 0x6100, 8, 8, .u16, .ro, 0, 0, .any⟩,  -- CAP_EFFECTIVE_W
  ⟨0x6100, 0x6100, 9, 9, .u16, .ro, 0, 0, .any⟩,  -- VCORE_MV
  ⟨0x6101, 0x6101, 1, 1, .u8, .ro, 0, 0, .any⟩,  -- REFCLK_STATUS
  ⟨0x6101, 0x6101, 2, 2, .u32, .ro, 0, 0, .any⟩]  -- REFCLK_LOSS_COUNT

/-- Objects of indices 0x6300 to 0x63FF. -/
def objRows63 : List ORow := [
  ⟨0x6300, 0x6300, 1, 64, .u8, .ro, 0, 0, .any⟩,  -- UNIT_STATE
  ⟨0x6301, 0x6301, 1, 32, .u8, .ro, 0, 0, .any⟩,  -- UNIT_STATE
  ⟨0x6302, 0x6302, 1, 8, .u8, .ro, 0, 0, .any⟩,  -- UNIT_STATE
  ⟨0x6303, 0x6303, 1, 16, .u8, .ro, 0, 0, .any⟩,  -- UNIT_STATE
  ⟨0x6304, 0x6304, 1, 8, .u8, .ro, 0, 0, .any⟩,  -- UNIT_STATE
  ⟨0x6305, 0x6305, 1, 16, .u8, .ro, 0, 0, .any⟩,  -- UNIT_STATE
  ⟨0x6306, 0x6306, 1, 20, .u8, .ro, 0, 0, .any⟩,  -- UNIT_STATE
  ⟨0x6307, 0x6307, 1, 8, .u8, .ro, 0, 0, .any⟩,  -- UNIT_STATE
  ⟨0x6308, 0x6308, 1, 4, .u8, .ro, 0, 0, .any⟩,  -- UNIT_STATE
  ⟨0x6309, 0x6309, 1, 16, .u8, .ro, 0, 0, .any⟩,  -- UNIT_STATE
  ⟨0x630A, 0x630A, 1, 8, .u8, .ro, 0, 0, .any⟩,  -- UNIT_STATE
  ⟨0x630B, 0x630B, 1, 1, .u8, .ro, 0, 0, .any⟩]  -- UNIT_STATE

/-- Objects of indices 0x6400 to 0x64FF. -/
def objRows64 : List ORow := [
  ⟨0x6400, 0x6400, 1, 1, .u64, .ro, 0, 0, .any⟩,  -- PASSES
  ⟨0x6400, 0x6400, 2, 2, .u64, .ro, 0, 0, .any⟩,  -- MACS
  ⟨0x6400, 0x6400, 3, 3, .u64, .ro, 0, 0, .any⟩,  -- ABFT_CHECKS
  ⟨0x6400, 0x6400, 4, 4, .u32, .ro, 0, 0, .any⟩,  -- ABFT_MISMATCHES
  ⟨0x6400, 0x6400, 5, 5, .u32, .ro, 0, 0, .any⟩,  -- ABFT_SKIPPED
  ⟨0x6400, 0x6400, 6, 6, .u32, .ro, 0, 0, .any⟩,  -- ABFT_UNCHECKED
  ⟨0x6400, 0x6400, 7, 7, .u64, .ro, 0, 0, .any⟩,  -- BANK_WAIT_CYCLES
  ⟨0x6400, 0x6400, 8, 8, .u64, .ro, 0, 0, .any⟩,  -- STAT_REUSES
  ⟨0x6400, 0x6400, 9, 9, .u32, .ro, 0, 0, .any⟩,  -- HANDOVERS
  ⟨0x6400, 0x6400, 10, 10, .u8, .ro, 0, 0, .any⟩,  -- ACTIVE_TILES
  ⟨0x6401, 0x6401, 1, 64, .u32, .ro, 0, 0, .any⟩,  -- SPARE_MAP
  ⟨0x6402, 0x6402, 1, 64, .u32, .ro, 0, 0, .any⟩,  -- LAST_MISMATCH
  ⟨0x6403, 0x6403, 1, 64, .u8, .ro, 0, 0, .any⟩]  -- CARRYING

/-- Objects of indices 0x6500 to 0x65FF. -/
def objRows65 : List ORow := [
  ⟨0x6500, 0x6500, 1, 1, .u64, .ro, 0, 0, .any⟩,  -- VXOPS
  ⟨0x6500, 0x6500, 2, 2, .u64, .ro, 0, 0, .any⟩,  -- VX_ELEMENTS
  ⟨0x6500, 0x6500, 3, 3, .u64, .ro, 0, 0, .any⟩,  -- TRANSC_ELEMENTS
  ⟨0x6500, 0x6500, 4, 4, .u32, .ro, 0, 0, .any⟩,  -- TOPK_CALLS
  ⟨0x6500, 0x6500, 5, 5, .u64, .ro, 0, 0, .any⟩,  -- LIMB_ELEMENTS
  ⟨0x6500, 0x6500, 6, 6, .u32, .ro, 0, 0, .any⟩,  -- SCATTER_DUPS
  ⟨0x6500, 0x6500, 7, 7, .u32, .ro, 0, 0, .any⟩,  -- VX_EXC_TILES
  ⟨0x6501, 0x6501, 1, 32, .u64, .ro, 0, 0, .any⟩]  -- VXT_BUSY

/-- Objects of indices 0x6600 to 0x66FF. -/
def objRows66 : List ORow := [
  ⟨0x6600, 0x6600, 1, 1, .u64, .ro, 0, 0, .any⟩,  -- CXOPS
  ⟨0x6600, 0x6600, 2, 2, .u64, .ro, 0, 0, .any⟩,  -- NTT_RESIDUES
  ⟨0x6600, 0x6600, 3, 3, .u64, .ro, 0, 0, .any⟩,  -- MODMULS
  ⟨0x6600, 0x6600, 4, 4, .u32, .ro, 0, 0, .any⟩,  -- LEVEL_MISMATCHES
  ⟨0x6600, 0x6600, 5, 5, .u32, .ro, 0, 0, .any⟩,  -- LEVEL_UNDERFLOWS
  ⟨0x6600, 0x6600, 6, 6, .u32, .ro, 0, 0, .any⟩,  -- UNREDUCED_INPUTS
  ⟨0x6600, 0x6600, 7, 7, .u64, .ro, 0, 0, .any⟩,  -- SH_RAND_WORDS
  ⟨0x6600, 0x6600, 8, 8, .u64, .ro, 0, 0, .any⟩,  -- SH_RAND_REJECTS
  ⟨0x6600, 0x6600, 9, 9, .u32, .ro, 0, 0, .any⟩,  -- CHAIN_REJECTS
  ⟨0x6601, 0x6601, 1, 8, .u64, .ro, 0, 0, .any⟩]  -- CAT_BUSY

/-- Objects of indices 0x6700 to 0x67FF. -/
def objRows67 : List ORow := [
  ⟨0x6700, 0x6700, 1, 8, .u64, .ro, 0, 0, .any⟩,  -- SP_PACKETS
  ⟨0x6701, 0x6701, 1, 8, .u32, .ro, 0, 0, .any⟩,  -- SP_ECC_CORRECTED
  ⟨0x6702, 0x6702, 1, 8, .u32, .ro, 0, 0, .any⟩,  -- SP_HDR_ERRORS
  ⟨0x6703, 0x6703, 1, 8, .u32, .ro, 0, 0, .any⟩,  -- SP_CRC_ERRORS
  ⟨0x6704, 0x6704, 1, 8, .u32, .ro, 0, 0, .any⟩,  -- SP_OVERRUN
  ⟨0x6705, 0x6705, 1, 8, .u64, .ro, 0, 0, .any⟩,  -- SP_EVENTS_OUT
  ⟨0x6706, 0x6706, 1, 8, .u32, .ro, 0, 0, .any⟩,  -- SP_NOMATCH
  ⟨0x6707, 0x6707, 1, 8, .u32, .ro, 0, 0, .any⟩,  -- SP_RULE_MULTIHIT
  ⟨0x6708, 0x6708, 1, 8, .u32, .ro, 0, 0, .any⟩,  -- SP_OUT_OF_FRAME
  ⟨0x6709, 0x6709, 1, 8, .u32, .ro, 0, 0, .any⟩,  -- SP_FRAMES
  ⟨0x670A, 0x670A, 1, 8, .u32, .ro, 0, 0, .any⟩,  -- SP_FRAME_DROPS
  ⟨0x670B, 0x670B, 1, 8, .u32, .ro, 0, 0, .any⟩,  -- SP_VC_DISCARDS
  ⟨0x6720, 0x6720, 1, 16, .u64, .ro, 0, 0, .any⟩,  -- SEC_EVENTS
  ⟨0x6721, 0x6721, 1, 16, .u32, .ro, 0, 0, .any⟩,  -- SEC_DROPS
  ⟨0x6722, 0x6722, 1, 16, .u64, .ro, 0, 0, .any⟩,  -- SEC_UPDATES
  ⟨0x6723, 0x6723, 1, 16, .u64, .ro, 0, 0, .any⟩,  -- SEC_SPIKES
  ⟨0x6724, 0x6724, 1, 16, .u64, .ro, 0, 0, .any⟩,  -- SEC_REF_DROPS
  ⟨0x6725, 0x6725, 1, 16, .u32, .ro, 0, 0, .any⟩,  -- SEC_MEM_SATS
  ⟨0x6726, 0x6726, 1, 16, .u32, .ro, 0, 0, .any⟩,  -- SEC_BINS
  ⟨0x6727, 0x6727, 1, 16, .u32, .ro, 0, 0, .any⟩,  -- SEC_BIN_SKIPS
  ⟨0x6728, 0x6728, 1, 16, .u64, .ro, 0, 0, .any⟩,  -- SEC_FILTERED
  ⟨0x6729, 0x6729, 1, 16, .u16, .ro, 0, 0, .any⟩,  -- SEC_QUEUE_PEAK
  ⟨0x672A, 0x672A, 1, 16, .u32, .ro, 0, 0, .any⟩]  -- SEC_SAT_COUNTS

/-- Objects of indices 0x6800 to 0x68FF. -/
def objRows68 : List ORow := [
  ⟨0x6800, 0x6800, 1, 1, .u64, .ro, 0, 0, .any⟩,  -- GXOPS
  ⟨0x6800, 0x6800, 2, 2, .u64, .ro, 0, 0, .any⟩,  -- LOOKUPS_LOCAL
  ⟨0x6800, 0x6800, 3, 3, .u64, .ro, 0, 0, .any⟩,  -- LOOKUPS_REMOTE
  ⟨0x6800, 0x6800, 4, 4, .u64, .ro, 0, 0, .any⟩,  -- REQS_SERVED
  ⟨0x6800, 0x6800, 5, 5, .u32, .ro, 0, 0, .any⟩,  -- SERVE_REFUSED
  ⟨0x6800, 0x6800, 6, 6, .u64, .ro, 0, 0, .any⟩,  -- HOT_HITS
  ⟨0x6800, 0x6800, 7, 7, .u64, .ro, 0, 0, .any⟩,  -- HOT_MISSES
  ⟨0x6800, 0x6800, 8, 8, .u32, .ro, 0, 0, .any⟩,  -- HOT_MULTIHIT
  ⟨0x6800, 0x6800, 9, 9, .u32, .ro, 0, 0, .any⟩,  -- EMPTY_BAGS
  ⟨0x6800, 0x6800, 10, 10, .u32, .ro, 0, 0, .any⟩,  -- GATHER_REISSUES
  ⟨0x6800, 0x6800, 11, 11, .u32, .ro, 0, 0, .any⟩,  -- GXOP_STOPS
  ⟨0x6800, 0x6800, 12, 12, .u64, .ro, 0, 0, .any⟩,  -- INFLIGHT_LIMIT_CYCLES
  ⟨0x6800, 0x6800, 13, 13, .u32, .ro, 0, 0, .any⟩,  -- DESC_REJECTS
  ⟨0x6810, 0x6810, 1, 1, .u32, .ro, 0, 0, .any⟩,  -- MOULTS
  ⟨0x6810, 0x6810, 2, 2, .u64, .ro, 0, 0, .any⟩,  -- MOULT_STEPS
  ⟨0x6810, 0x6810, 3, 3, .u32, .ro, 0, 0, .any⟩,  -- MOULT_LAST_STEP
  ⟨0x6810, 0x6810, 4, 4, .u8, .ro, 0, 0, .any⟩,  -- MOULT_LAST_STATUS
  ⟨0x6820, 0x6820, 1, 32, .u32, .ro, 0, 0, .any⟩,  -- ED_EPOCH
  ⟨0x6821, 0x6821, 1, 32, .u32, .ro, 0, 0, .any⟩,  -- ED_OVERRUN
  ⟨0x6822, 0x6822, 1, 32, .u64, .ro, 0, 0, .any⟩,  -- ED_LAST_COMMIT_NS
  ⟨0x6823, 0x6823, 1, 32, .u32, .ro, 0, 0, .any⟩]  -- ED_REJECTED_MARKS

/-- Objects of indices 0x6900 to 0x69FF. -/
def objRows69 : List ORow := [
  ⟨0x6900, 0x6900, 1, 1, .u8, .ro, 0, 0, .any⟩,  -- PCIE_RATE
  ⟨0x6900, 0x6900, 2, 2, .u8, .ro, 0, 0, .any⟩,  -- PCIE_WIDTH
  ⟨0x6900, 0x6900, 3, 3, .u32, .ro, 0, 0, .any⟩,  -- PCIE_RETRAINS
  ⟨0x6900, 0x6900, 4, 4, .u32, .ro, 0, 0, .any⟩,  -- AER_CORRECTABLE
  ⟨0x6900, 0x6900, 5, 5, .u32, .ro, 0, 0, .any⟩,  -- AER_UNCORRECTABLE
  ⟨0x6900, 0x6900, 6, 6, .u16, .ro, 0, 0, .any⟩,  -- RINGS_FAULTED
  ⟨0x6900, 0x6900, 7, 7, .u64, .ro, 0, 0, .any⟩,  -- DISPATCHES
  ⟨0x6900, 0x6900, 8, 8, .u32, .ro, 0, 0, .any⟩,  -- REG_REJECTS
  ⟨0x6900, 0x6900, 9, 9, .u32, .ro, 0, 0, .any⟩,  -- BAR2_ABORTS
  ⟨0x6900, 0x6900, 10, 10, .u32, .ro, 0, 0, .any⟩,  -- BAR2_POISONED_PELLET
  ⟨0x6900, 0x6900, 11, 11, .u64, .ro, 0, 0, .any⟩,  -- DEVICE_TIME_NS
  ⟨0x6900, 0x6900, 12, 12, .u8, .ro, 0, 0, .any⟩,  -- NUM_VFS
  ⟨0x6920, 0x6920, 1, 1, .u64, .ro, 0, 0, .any⟩,  -- WORDS_EXECUTED
  ⟨0x6920, 0x6920, 2, 2, .u64, .ro, 0, 0, .any⟩,  -- PROGRAMS_COMPLETED
  ⟨0x6920, 0x6920, 3, 3, .u32, .ro, 0, 0, .any⟩,  -- ILLEGAL_OPS
  ⟨0x6920, 0x6920, 4, 4, .u32, .ro, 0, 0, .any⟩,  -- RESERVED_WORDS
  ⟨0x6920, 0x6920, 5, 5, .u32, .ro, 0, 0, .any⟩,  -- SEM_TIMEOUTS
  ⟨0x6920, 0x6920, 6, 6, .u32, .ro, 0, 0, .any⟩,  -- SEM_OVERRUNS
  ⟨0x6920, 0x6920, 7, 7, .u32, .ro, 0, 0, .any⟩,  -- HANG_WATCH_HITS
  ⟨0x6921, 0x6921, 1, 153, .u8, .ro, 0, 0, .any⟩,  -- SEQ_SLOTS
  ⟨0x6922, 0x6922, 1, 153, .u16, .ro, 0, 0, .any⟩,  -- SEQ_WAIT
  ⟨0x6923, 0x6923, 1, 153, .u32, .ro, 0, 0, .any⟩]  -- SEQ_WORD

/-- Objects of indices 0x6A00 to 0x6AFF. -/
def objRows6A : List ORow := [
  ⟨0x6A00, 0x6A00, 1, 1, .u32, .ro, 0, 0, .any⟩,  -- PELLETS_WRITTEN
  ⟨0x6A00, 0x6A00, 2, 2, .u32, .ro, 0, 0, .any⟩,  -- PELLETS_LOST
  ⟨0x6A00, 0x6A00, 3, 3, .u32, .ro, 0, 0, .any⟩,  -- PELLET_NEXT_SEQ
  ⟨0x6A00, 0x6A00, 4, 4, .u32, .ro, 0, 0, .any⟩,  -- JESS_OVERFLOWS
  ⟨0x6A00, 0x6A00, 5, 5, .u32, .ro, 0, 0, .any⟩,  -- JESS_SHARED
  ⟨0x6A00, 0x6A00, 6, 6, .u32, .ro, 0, 0, .any⟩,  -- STREAM_TIMEOUTS
  ⟨0x6A00, 0x6A00, 7, 7, .u32, .ro, 0, 0, .any⟩,  -- DETACHED_FAULTS
  ⟨0x6A10, 0x6A10, 1, 8, .u64, .ro, 0, 0, .any⟩,  -- STALL_INPUT_EMPTY to STALL_POWER_THROTTLE
  ⟨0x6A10, 0x6A10, 9, 9, .u64, .ro, 0, 0, .any⟩,  -- STALL_DRAIN
  ⟨0x6A10, 0x6A10, 10, 10, .u64, .ro, 0, 0, .any⟩,  -- STALL_ACTIVE
  ⟨0x6A10, 0x6A10, 11, 11, .u64, .ro, 0, 0, .any⟩,  -- STALL_BEATS_RD
  ⟨0x6A10, 0x6A10, 12, 12, .u64, .ro, 0, 0, .any⟩,  -- STALL_BEATS_WR
  ⟨0x6A10, 0x6A10, 13, 13, .u64, .ro, 0, 0, .any⟩]  -- STALL_TIME_NS

/-- Objects of indices 0x6B00 to 0x6BFF. -/
def objRows6B : List ORow := [
  ⟨0x6B00, 0x6B00, 1, 1, .u32, .ro, 0, 0, .any⟩,  -- FLITS_CORRECTED
  ⟨0x6B00, 0x6B00, 2, 2, .u32, .ro, 0, 0, .any⟩,  -- FLITS_POISONED
  ⟨0x6B00, 0x6B00, 3, 3, .u32, .ro, 0, 0, .any⟩,  -- HEADER_DISCARDS
  ⟨0x6B00, 0x6B00, 4, 4, .u32, .ro, 0, 0, .any⟩,  -- REQ_TIMEOUTS
  ⟨0x6B00, 0x6B00, 5, 5, .u32, .ro, 0, 0, .any⟩,  -- LATE_RESPONSES
  ⟨0x6B00, 0x6B00, 6, 6, .u32, .ro, 0, 0, .any⟩,  -- ROUTE_MULTIHIT_TOTAL
  ⟨0x6B00, 0x6B00, 7, 7, .u32, .ro, 0, 0, .any⟩,  -- ROUTE_REJECTS_TOTAL
  ⟨0x6B00, 0x6B00, 8, 8, .u32, .ro, 0, 0, .any⟩,  -- DOMAIN_OFF_REPLIES
  ⟨0x6B00, 0x6B00, 9, 9, .u32, .ro, 0, 0, .any⟩,  -- HOODED_REPLIES
  ⟨0x6B00, 0x6B00, 10, 10, .u32, .ro, 0, 0, .any⟩,  -- DRAIN_TIMEOUTS
  ⟨0x6B00, 0x6B00, 11, 11, .u32, .ro, 0, 0, .any⟩,  -- WAKES
  ⟨0x6B00, 0x6B00, 12, 12, .u32, .ro, 0, 0, .any⟩,  -- WAKE_ABORTS
  ⟨0x6B00, 0x6B00, 13, 13, .u64, .ro, 0, 0, .any⟩,  -- WAKE_FULL_CYCLES
  ⟨0x6B00, 0x6B00, 14, 14, .u32, .ro, 0, 0, .any⟩,  -- STATS_OVERRUNS
  ⟨0x6B00, 0x6B00, 15, 15, .u32, .ro, 0, 0, .any⟩,  -- JESS_RETURNS
  ⟨0x6B20, 0x6B20, 1, 1, .u64, .ro, 0, 0, .any⟩,  -- SEL_PACKETS
  ⟨0x6B20, 0x6B20, 2, 2, .u64, .ro, 0, 0, .any⟩,  -- SEL_BYTES
  ⟨0x6B20, 0x6B20, 3, 3, .u32, .ro, 0, 0, .any⟩,  -- SEL_MAX_LAT
  ⟨0x6B20, 0x6B20, 4, 4, .block, .ro, 0, 0, .fixed 64⟩,  -- SEL_HIST
  ⟨0x6B20, 0x6B20, 5, 5, .u64, .ro, 0, 0, .any⟩]  -- SEL_TIME_NS

/-- Objects of indices 0x6C00 to 0x6CFF. -/
def objRows6C : List ORow := [
  ⟨0x6C00, 0x6C00, 1, 1, .u32, .ro, 0, 0, .any⟩,  -- HBM_CE
  ⟨0x6C00, 0x6C00, 2, 2, .u32, .ro, 0, 0, .any⟩,  -- HBM_UE
  ⟨0x6C00, 0x6C00, 3, 3, .u32, .ro, 0, 0, .any⟩,  -- HBM_ONDIE
  ⟨0x6C00, 0x6C00, 4, 4, .u32, .ro, 0, 0, .any⟩,  -- LP_CE
  ⟨0x6C00, 0x6C00, 5, 5, .u32, .ro, 0, 0, .any⟩,  -- LP_UE
  ⟨0x6C00, 0x6C00, 6, 6, .u32, .ro, 0, 0, .any⟩,  -- SRAM_CE
  ⟨0x6C00, 0x6C00, 7, 7, .u32, .ro, 0, 0, .any⟩,  -- SRAM_UE
  ⟨0x6C00, 0x6C00, 8, 8, .u32, .ro, 0, 0, .any⟩,  -- POISON_CLEARS
  ⟨0x6C00, 0x6C00, 9, 9, .u32, .ro, 0, 0, .any⟩,  -- SCRUB_PASSES
  ⟨0x6C00, 0x6C00, 10, 10, .u32, .ro, 0, 0, .any⟩,  -- SCRUB_CORRECTED
  ⟨0x6C00, 0x6C00, 11, 11, .u64, .ro, 0, 0, .any⟩,  -- LAST_UE_ADDRESS
  ⟨0x6C10, 0x6C10, 1, 8, .u32, .ro, 0, 0, .any⟩,  -- LP_INSTALLED_MIB
  ⟨0x6C11, 0x6C11, 1, 8, .u16, .ro, 0, 0, .any⟩,  -- LP_RATE
  ⟨0x6C12, 0x6C12, 1, 4, .u8, .ro, 0, 0, .any⟩,  -- HBM_LANE_REPAIRS
  ⟨0x6C13, 0x6C13, 1, 1, .u32, .ro, 0, 0, .any⟩,  -- MAP_STATUS
  ⟨0x6C20, 0x6C20, 1, 1, .u32, .ro, 0, 0, .any⟩,  -- APERTURE_MISSES
  ⟨0x6C20, 0x6C20, 2, 2, .u32, .ro, 0, 0, .any⟩,  -- APERTURE_DENIALS
  ⟨0x6C20, 0x6C20, 3, 3, .u32, .ro, 0, 0, .any⟩,  -- APERTURE_MULTIHIT
  ⟨0x6C20, 0x6C20, 4, 4, .u32, .ro, 0, 0, .any⟩,  -- APT_WRITE_REJECTS
  ⟨0x6C20, 0x6C20, 5, 5, .u32, .ro, 0, 0, .any⟩,  -- INBOUND_REFUSED
  ⟨0x6C20, 0x6C20, 6, 6, .u32, .ro, 0, 0, .any⟩,  -- INBOUND_MULTIHIT
  ⟨0x6C40, 0x6C40, 1, 1, .u64, .ro, 0, 0, .any⟩,  -- SC_SUCCESS
  ⟨0x6C40, 0x6C40, 2, 2, .u64, .ro, 0, 0, .any⟩,  -- SC_FAIL
  ⟨0x6C40, 0x6C40, 3, 3, .u32, .ro, 0, 0, .any⟩,  -- RSV_LOST_STORE
  ⟨0x6C40, 0x6C40, 4, 4, .u32, .ro, 0, 0, .any⟩,  -- RSV_LOST_TIMEOUT
  ⟨0x6C40, 0x6C40, 5, 5, .u32, .ro, 0, 0, .any⟩,  -- RSV_LOST_OTHER
  ⟨0x6C40, 0x6C40, 6, 6, .u32, .ro, 0, 0, .any⟩,  -- REMOTE_RSV_EVICTIONS
  ⟨0x6C40, 0x6C40, 7, 7, .u64, .ro, 0, 0, .any⟩,  -- SB_FULL_WAITS
  ⟨0x6C40, 0x6C40, 8, 8, .u64, .ro, 0, 0, .any⟩,  -- LOADS_FORWARDED
  ⟨0x6C40, 0x6C40, 9, 9, .u32, .ro, 0, 0, .any⟩,  -- STORE_FAULTS
  ⟨0x6C40, 0x6C40, 10, 10, .u64, .ro, 0, 0, .any⟩]  -- DRAINS

/-- Objects of indices 0x6D00 to 0x6DFF. -/
def objRows6D : List ORow := [
  ⟨0x6D00, 0x6D00, 1, 1, .u32, .ro, 0, 0, .any⟩,  -- CFG_LOADS
  ⟨0x6D00, 0x6D00, 2, 2, .u32, .ro, 0, 0, .any⟩,  -- CFG_LOAD_FAILS
  ⟨0x6D00, 0x6D00, 3, 3, .u8, .ro, 0, 0, .any⟩,  -- CFG_LAST_STATUS
  ⟨0x6D00, 0x6D00, 4, 4, .u32, .ro, 0, 0, .any⟩,  -- CFG_CE
  ⟨0x6D00, 0x6D00, 5, 5, .u32, .ro, 0, 0, .any⟩,  -- CFG_UE
  ⟨0x6D00, 0x6D00, 6, 6, .u32, .ro, 0, 0, .any⟩,  -- CFG_SCRUB_PASSES
  ⟨0x6D00, 0x6D00, 7, 7, .u32, .ro, 0, 0, .any⟩,  -- FAB_RAM_CE
  ⟨0x6D00, 0x6D00, 8, 8, .u32, .ro, 0, 0, .any⟩,  -- FAB_RAM_UE
  ⟨0x6D00, 0x6D00, 9, 9, .u64, .ro, 0, 0, .any⟩,  -- REGION_STATE
  ⟨0x6D10, 0x6D10, 1, 16, .u64, .ro, 0, 0, .any⟩,  -- FP_MASTER_REQS
  ⟨0x6D11, 0x6D11, 1, 16, .u64, .ro, 0, 0, .any⟩,  -- FP_TARGET_REQS
  ⟨0x6D12, 0x6D12, 1, 16, .u32, .ro, 0, 0, .any⟩,  -- FP_POISON_MARKED
  ⟨0x6D13, 0x6D13, 1, 16, .u32, .ro, 0, 0, .any⟩,  -- FP_TARGET_ERRORS
  ⟨0x6D14, 0x6D14, 1, 16, .u32, .ro, 0, 0, .any⟩]  -- FP_SENSOR_DROPS

/-- Objects of indices 0x6E00 to 0x6EFF. -/
def objRows6E : List ORow := [
  ⟨0x6E00, 0x6E00, 1, 20, .u8, .ro, 0, 0, .any⟩,  -- PH_LINK_STATE
  ⟨0x6E01, 0x6E01, 1, 20, .u8, .ro, 0, 0, .any⟩,  -- PH_RATE
  ⟨0x6E02, 0x6E02, 1, 20, .u16, .ro, 0, 0, .any⟩,  -- PH_PARTNER
  ⟨0x6E03, 0x6E03, 1, 20, .u8, .ro, 0, 0, .any⟩,  -- PH_LANE_SET
  ⟨0x6E04, 0x6E04, 1, 20, .u32, .ro, 0, 0, .any⟩,  -- PH_ABSENT_COUNT
  ⟨0x6E05, 0x6E05, 1, 20, .u32, .ro, 0, 0, .any⟩,  -- CREANCE_RESTARTS
  ⟨0x6E06, 0x6E06, 1, 20, .u32, .ro, 0, 0, .any⟩,  -- TRAIN_TIMEOUTS
  ⟨0x6E07, 0x6E07, 1, 20, .u32, .ro, 0, 0, .any⟩,  -- RATE_FALLBACKS
  ⟨0x6E08, 0x6E08, 1, 20, .u32, .ro, 0, 0, .any⟩,  -- MISCABLE_EVENTS
  ⟨0x6E09, 0x6E09, 1, 20, .u32, .ro, 0, 0, .any⟩,  -- ID_CONFLICTS
  ⟨0x6E10, 0x6E10, 1, 160, .u16, .ro, 0, 0, .any⟩,  -- LANE_STATE
  ⟨0x6E11, 0x6E11, 1, 160, .u32, .ro, 0, 0, .any⟩,  -- LOS_EVENTS
  ⟨0x6E12, 0x6E12, 1, 160, .u32, .ro, 0, 0, .any⟩,  -- LOL_EVENTS
  ⟨0x6E13, 0x6E13, 1, 160, .u64, .ro, 0, 0, .any⟩,  -- PATTERN_ERRORS
  ⟨0x6E14, 0x6E14, 1, 160, .u64, .ro, 0, 0, .any⟩,  -- PATTERN_BITS
  ⟨0x6E15, 0x6E15, 1, 160, .u32, .ro, 0, 0, .any⟩,  -- CHK_RELOCKS
  ⟨0x6E16, 0x6E16, 1, 160, .u32, .ro, 0, 0, .any⟩,  -- RECAL_DONE
  ⟨0x6E17, 0x6E17, 1, 160, .u32, .ro, 0, 0, .any⟩,  -- RECAL_DEFERRED
  ⟨0x6E18, 0x6E18, 1, 160, .u32, .ro, 0, 0, .any⟩,  -- TF_REJECTS
  ⟨0x6E19, 0x6E19, 1, 160, .u32, .ro, 0, 0, .any⟩,  -- DFE_TAP_LIMITS
  ⟨0x6E1A, 0x6E1A, 1, 160, .u32, .ro, 0, 0, .any⟩,  -- INJECTED
  ⟨0x6E80, 0x6E80, 1, 20, .u64, .ro, 0, 0, .any⟩,  -- FEC_CODEWORDS
  ⟨0x6E81, 0x6E81, 1, 20, .u64, .ro, 0, 0, .any⟩,  -- FEC_CORRECTED
  ⟨0x6E82, 0x6E82, 1, 20, .u64, .ro, 0, 0, .any⟩,  -- FEC_SYMBOLS
  ⟨0x6E83, 0x6E83, 1, 20, .u32, .ro, 0, 0, .any⟩,  -- FEC_UNCORRECTABLE
  ⟨0x6E84, 0x6E84, 1, 20, .u32, .ro, 0, 0, .any⟩,  -- CRC_FAILS
  ⟨0x6E85, 0x6E85, 1, 20, .u32, .ro, 0, 0, .any⟩,  -- REPLAYS
  ⟨0x6E86, 0x6E86, 1, 20, .u64, .ro, 0, 0, .any⟩,  -- REPLAY_FULL_CYCLES
  ⟨0x6E87, 0x6E87, 1, 20, .u32, .ro, 0, 0, .any⟩,  -- DEGRADES
  ⟨0x6E88, 0x6E88, 1, 20, .u32, .ro, 0, 0, .any⟩,  -- DROPS
  ⟨0x6E89, 0x6E89, 1, 20, .u8, .ro, 0, 0, .any⟩,  -- PORT_LANES
  ⟨0x6E8A, 0x6E8A, 1, 20, .u16, .ro, 0, 0, .any⟩,  -- OUTSTANDING
  ⟨0x6E90, 0x6E90, 1, 1, .u32, .ro, 0, 0, .any⟩,  -- REISSUES
  ⟨0x6E90, 0x6E90, 2, 2, .u32, .ro, 0, 0, .any⟩,  -- LINK_LOST_DONE
  ⟨0x6E90, 0x6E90, 3, 3, .u32, .ro, 0, 0, .any⟩,  -- INDETERMINATE_DONE
  ⟨0x6E90, 0x6E90, 4, 4, .u64, .ro, 0, 0, .any⟩,  -- FORWARDED
  ⟨0x6E90, 0x6E90, 5, 5, .u32, .ro, 0, 0, .any⟩,  -- HOP_DISCARDS
  ⟨0x6E90, 0x6E90, 6, 6, .u32, .ro, 0, 0, .any⟩]  -- LATE_ANSWERS

/-- Objects of indices 0x6F00 to 0x6FFF. -/
def objRows6F : List ORow := [
  ⟨0x6F00, 0x6F00, 1, 1, .i32, .ro, 0, 0, .any⟩,  -- TJ_MAX_DC
  ⟨0x6F00, 0x6F00, 2, 2, .u8, .ro, 0, 0, .any⟩,  -- TJ_MAX_SENSOR
  ⟨0x6F00, 0x6F00, 3, 3, .block, .ro, 0, 0, .fixed 128⟩,  -- TJ_SENSORS
  ⟨0x6F00, 0x6F00, 4, 4, .i32, .ro, 0, 0, .any⟩,  -- TJ_PEAK_DC
  ⟨0x6F00, 0x6F00, 5, 5, .u8, .ro, 0, 0, .any⟩,  -- SENSORS_EXCLUDED
  ⟨0x6F00, 0x6F00, 6, 6, .u64, .ro, 0, 0, .any⟩,  -- THERM_THROTTLE_US
  ⟨0x6F01, 0x6F01, 1, 1, .i32, .ro, 0, 0, .any⟩,  -- COOLANT_IN_USE_DC
  ⟨0x6F01, 0x6F01, 2, 2, .u16, .ro, 0, 0, .any⟩,  -- COOLANT_LIMIT_W
  ⟨0x6F01, 0x6F01, 3, 3, .u8, .ro, 0, 0, .any⟩,  -- COOLANT_STATE
  ⟨0x6F01, 0x6F01, 4, 4, .u32, .ro, 0, 0, .any⟩,  -- WATCH_EXPIRIES
  ⟨0x6F02, 0x6F02, 1, 1, .u32, .ro, 0, 0, .any⟩,  -- PIN_LEVELS
  ⟨0x6F02, 0x6F02, 2, 2, .u32, .ro, 0, 0, .any⟩]  -- JTAG_REFUSED

/-- Objects of indices 0x7000 to 0x70FF. -/
def objRows70 : List ORow := [
  ⟨0x7000, 0x7000, 1, 1, .u8, .rw, 0, 1, .enum 0 2⟩,  -- SAFETY_PROFILE
  ⟨0x7000, 0x7000, 2, 2, .bool, .wo, 0, 0, .enum 0 1⟩,  -- ERR_N_CLEAR
  ⟨0x7000, 0x7000, 3, 3, .u16, .wo, 0, 0, .any⟩]  -- TEST_REQUEST

/-- Objects of indices 0x7100 to 0x71FF. -/
def objRows71 : List ORow := [
  ⟨0x7100, 0x7100, 1, 1, .u32, .rw, 600, 3600, .zeroOr 60 86400⟩,  -- TEST_INTERVAL_S
  ⟨0x7100, 0x7100, 2, 2, .u32, .rw, 600, 3600, .zeroOr 60 86400⟩,  -- TEST_INTERVAL_S
  ⟨0x7100, 0x7100, 3, 3, .u32, .rw, 3600, 3600, .zeroOr 60 86400⟩,  -- TEST_INTERVAL_S
  ⟨0x7100, 0x7100, 4, 4, .u32, .rw, 600, 3600, .zeroOr 60 86400⟩,  -- TEST_INTERVAL_S
  ⟨0x7100, 0x7100, 6, 6, .u32, .rw, 600, 3600, .zeroOr 60 86400⟩,  -- TEST_INTERVAL_S
  ⟨0x7100, 0x7100, 12, 12, .u32, .rw, 600, 3600, .zeroOr 60 86400⟩,  -- TEST_INTERVAL_S
  ⟨0x7101, 0x7101, 1, 1, .u16, .wo, 0, 0, .any⟩,  -- TEST_FORCE
  ⟨0x7101, 0x7101, 2, 2, .bool, .rw, 1, 1, .enum 0 1⟩,  -- AUTO_REPAIR
  ⟨0x7101, 0x7101, 3, 3, .u16, .wo, 0, 0, .any⟩,  -- FAULT_CLEAR
  ⟨0x7102, 0x7102, 1, 1, .u8, .rw, 0, 0, .enum 0 1⟩,  -- SAFE_MGMT
  ⟨0x7103, 0x7103, 1, 1, .u8, .rw, 40, 40, .rng 10 100⟩,  -- AGING_WARN_MV
  ⟨0x7104, 0x7104, 1, 1, .u16, .wo, 0, 0, .mask 0x81FF⟩,  -- ERR_INJECT
  ⟨0x7104, 0x7104, 2, 2, .u16, .rw, 100, 100, .rng 10 1000⟩]  -- PATH_TEST_MS

/-- Objects of indices 0x7200 to 0x72FF. -/
def objRows72 : List ORow := [
  ⟨0x7200, 0x7200, 1, 1, .bool, .ro, 0, 0, .any⟩,  -- SAFE_STATE
  ⟨0x7200, 0x7200, 2, 2, .block, .ro, 0, 0, .fixed 32⟩,  -- SAFE_RECORD
  ⟨0x7200, 0x7200, 3, 3, .bool, .ro, 0, 0, .any⟩,  -- ERR_N_LATCHED
  ⟨0x7200, 0x7200, 4, 4, .bool, .ro, 0, 0, .any⟩,  -- HB_RUNNING
  ⟨0x7201, 0x7201, 1, 1, .u32, .ro, 0, 0, .any⟩,  -- LOG_LOST
  ⟨0x7202, 0x7202, 1, 1, .block, .ro, 0, 0, .fixed 1024⟩,  -- ERR_LOG_TAIL
  ⟨0x7210, 0x7210, 1, 1, .u32, .ro, 0, 0, .any⟩,  -- TEST_LAST
  ⟨0x7210, 0x7210, 2, 2, .u32, .ro, 0, 0, .any⟩,  -- TEST_LAST_DETAIL
  ⟨0x7210, 0x7210, 3, 3, .u32, .ro, 0, 0, .any⟩,  -- TESTS_RUN
  ⟨0x7210, 0x7210, 4, 4, .u32, .ro, 0, 0, .any⟩,  -- TESTS_FAILED
  ⟨0x7210, 0x7210, 5, 5, .u32, .ro, 0, 0, .any⟩,  -- TESTS_DEFERRED
  ⟨0x7210, 0x7210, 6, 6, .u32, .ro, 0, 0, .any⟩,  -- TESTS_ABORTED
  ⟨0x7210, 0x7210, 7, 7, .u16, .ro, 0, 0, .any⟩,  -- OVERDUE_UNITS
  ⟨0x7210, 0x7210, 8, 8, .u16, .ro, 0, 0, .any⟩,  -- REPAIRS_AUTO
  ⟨0x7210, 0x7210, 9, 9, .u32, .ro, 0, 0, .any⟩,  -- PATH_TESTS
  ⟨0x7220, 0x7220, 1, 1, .u32, .ro, 0, 0, .any⟩,  -- AGE_HOURS
  ⟨0x7220, 0x7220, 2, 2, .u16, .ro, 0, 0, .any⟩,  -- AGING_MAX_MV
  ⟨0x7220, 0x7220, 3, 3, .u16, .ro, 0, 0, .any⟩,  -- AGING_MAX_DOMAIN
  ⟨0x7220, 0x7220, 4, 4, .u16, .ro, 0, 0, .any⟩,  -- AGING_WARN_COUNT
  ⟨0x7222, 0x7222, 1, 1, .block, .ro, 0, 0, .fixed 20⟩]  -- TJ_HIST

/-- Objects of indices 0x8000 to 0x80FF. -/
def objRows80 : List ORow := [
  ⟨0x8000, 0x8000, 1, 1, .block, .rw, 0, 0, .upTo 4096⟩,  -- PROFILE_ENTRIES
  ⟨0x8000, 0x8000, 2, 2, .u8, .ro, 255, 255, .any⟩,  -- LAST_APPLY
  ⟨0x8001, 0x8001, 1, 1, .block, .rw, 0, 0, .upTo 4096⟩,  -- PROFILE_ENTRIES
  ⟨0x8001, 0x8001, 2, 2, .u8, .ro, 255, 255, .any⟩,  -- LAST_APPLY
  ⟨0x8002, 0x8002, 1, 1, .block, .rw, 0, 0, .upTo 4096⟩,  -- PROFILE_ENTRIES
  ⟨0x8002, 0x8002, 2, 2, .u8, .ro, 255, 255, .any⟩,  -- LAST_APPLY
  ⟨0x8003, 0x8003, 1, 1, .block, .rw, 0, 0, .upTo 4096⟩,  -- PROFILE_ENTRIES
  ⟨0x8003, 0x8003, 2, 2, .u8, .ro, 255, 255, .any⟩,  -- LAST_APPLY
  ⟨0x8004, 0x8004, 1, 1, .block, .rw, 0, 0, .upTo 4096⟩,  -- PROFILE_ENTRIES
  ⟨0x8004, 0x8004, 2, 2, .u8, .ro, 255, 255, .any⟩,  -- LAST_APPLY
  ⟨0x8005, 0x8005, 1, 1, .block, .rw, 0, 0, .upTo 4096⟩,  -- PROFILE_ENTRIES
  ⟨0x8005, 0x8005, 2, 2, .u8, .ro, 255, 255, .any⟩,  -- LAST_APPLY
  ⟨0x8006, 0x8006, 1, 1, .block, .rw, 0, 0, .upTo 4096⟩,  -- PROFILE_ENTRIES
  ⟨0x8006, 0x8006, 2, 2, .u8, .ro, 255, 255, .any⟩,  -- LAST_APPLY
  ⟨0x8007, 0x8007, 1, 1, .block, .rw, 0, 0, .upTo 4096⟩,  -- PROFILE_ENTRIES
  ⟨0x8007, 0x8007, 2, 2, .u8, .ro, 255, 255, .any⟩,  -- LAST_APPLY
  ⟨0x8008, 0x8008, 1, 1, .block, .rw, 0, 0, .upTo 4096⟩,  -- PROFILE_ENTRIES
  ⟨0x8008, 0x8008, 2, 2, .u8, .ro, 255, 255, .any⟩,  -- LAST_APPLY
  ⟨0x8009, 0x8009, 1, 1, .block, .rw, 0, 0, .upTo 4096⟩,  -- PROFILE_ENTRIES
  ⟨0x8009, 0x8009, 2, 2, .u8, .ro, 255, 255, .any⟩,  -- LAST_APPLY
  ⟨0x800A, 0x800A, 1, 1, .block, .rw, 0, 0, .upTo 4096⟩,  -- PROFILE_ENTRIES
  ⟨0x800A, 0x800A, 2, 2, .u8, .ro, 255, 255, .any⟩,  -- LAST_APPLY
  ⟨0x800B, 0x800B, 1, 1, .block, .rw, 0, 0, .upTo 4096⟩,  -- PROFILE_ENTRIES
  ⟨0x800B, 0x800B, 2, 2, .u8, .ro, 255, 255, .any⟩,  -- LAST_APPLY
  ⟨0x800C, 0x800C, 1, 1, .block, .rw, 0, 0, .upTo 4096⟩,  -- PROFILE_ENTRIES
  ⟨0x800C, 0x800C, 2, 2, .u8, .ro, 255, 255, .any⟩,  -- LAST_APPLY
  ⟨0x800D, 0x800D, 1, 1, .block, .rw, 0, 0, .upTo 4096⟩,  -- PROFILE_ENTRIES
  ⟨0x800D, 0x800D, 2, 2, .u8, .ro, 255, 255, .any⟩,  -- LAST_APPLY
  ⟨0x800E, 0x800E, 1, 1, .block, .rw, 0, 0, .upTo 4096⟩,  -- PROFILE_ENTRIES
  ⟨0x800E, 0x800E, 2, 2, .u8, .ro, 255, 255, .any⟩,  -- LAST_APPLY
  ⟨0x800F, 0x800F, 1, 1, .block, .rw, 0, 0, .upTo 4096⟩,  -- PROFILE_ENTRIES
  ⟨0x800F, 0x800F, 2, 2, .u8, .ro, 255, 255, .any⟩]  -- LAST_APPLY

/-- Objects of indices 0x8F00 to 0x8FFF. -/
def objRows8F : List ORow := [
  ⟨0x8F00, 0x8F00, 1, 1, .u8, .wo, 0, 0, .enum 0 15⟩]  -- PROFILE_APPLY

/-- Every row of the dictionary. -/
def objRows : List ORow :=
  objRows10 ++ objRows11 ++ objRows12 ++ objRows20 ++ objRows21 ++ objRows22 ++
  objRows23 ++ objRows24 ++ objRows25 ++ objRows26 ++ objRows27 ++ objRows28 ++
  objRows29 ++ objRows2A ++ objRows2B ++ objRows2C ++ objRows2D ++ objRows2E ++
  objRows2F ++ objRows40 ++ objRows41 ++ objRows42 ++ objRows44 ++ objRows45 ++
  objRows46 ++ objRows47 ++ objRows48 ++ objRows49 ++ objRows4A ++ objRows4B ++
  objRows4C ++ objRows4D ++ objRows4E ++ objRows4F ++ objRows60 ++ objRows61 ++
  objRows63 ++ objRows64 ++ objRows65 ++ objRows66 ++ objRows67 ++ objRows68 ++
  objRows69 ++ objRows6A ++ objRows6B ++ objRows6C ++ objRows6D ++ objRows6E ++
  objRows6F ++ objRows70 ++ objRows71 ++ objRows72 ++ objRows80 ++ objRows8F

/-! Keys of the objects by their names in the spec; an object with one sub-index a unit takes the unit number. -/
namespace Obj

abbrev VARIANT : Nat := 0x100001
abbrev STEPPING : Nat := 0x100002
abbrev SERIAL : Nat := 0x100003
abbrev CAPABILITY : Nat := 0x100004
abbrev TJ_LIMIT : Nat := 0x100005
abbrev DEVICE_ID : Nat := 0x101001
abbrev CAN_NODE_ID : Nat := 0x110001
abbrev CAN_NOM_RATE : Nat := 0x110002
abbrev CAN_DATA_RATE : Nat := 0x110003
abbrev CAN_ENABLE : Nat := 0x110004
abbrev PLCA_NODE_ID : Nat := 0x110101
abbrev PLCA_NODE_COUNT : Nat := 0x110102
abbrev OAP_ETHERTYPE : Nat := 0x110103
abbrev MAC_ADDRESS : Nat := 0x110104
abbrev T1S_ENABLE : Nat := 0x110105
abbrev CLIENT_MAC : Nat := 0x110106
abbrev MBX_ENABLE : Nat := 0x110201
abbrev EXPERT_KEY : Nat := 0x120001
abbrev KEY_PROGRAMS_LEFT : Nat := 0x120002
abbrev SESSION_IDLE_S : Nat := 0x120003
abbrev SESSION_STATE : Nat := 0x120004
abbrev ERR_REPORTING : Nat := 0x200002
abbrev POWER_CAP : Nat := 0x210001
abbrev LANE_REFCLK_USED : Nat := 0x211001
abbrev STAGE_HOLD : Nat := 0x212001
abbrev FABRIC_BOOT : Nat := 0x212003
abbrev EVENT_MASK_CAN : Nat := 0x220001
abbrev EVENT_MASK_T1S : Nat := 0x220002
abbrev EVENT_MASK_MBX : Nat := 0x220003
abbrev ABFT_FORCE : Nat := 0x240001
abbrev MXT_ROLE (n : Nat) : Nat := 0x240101 + n
abbrev UNDERSTUDY (n : Nat) : Nat := 0x240201 + n
abbrev REPAIR_POLICY : Nat := 0x240301
abbrev IDLE_GATE : Nat := 0x241001
abbrev SPARE_STATE : Nat := 0x241002
abbrev MXT_CLK_LIMIT : Nat := 0x241003
abbrev VXT_IDLE_GATE : Nat := 0x250001
abbrev NAN_RANK : Nat := 0x250002
abbrev CAT_IDLE_GATE : Nat := 0x260001
abbrev SP_MODE (n : Nat) : Nat := 0x270001 + n
abbrev SP_LANES (n : Nat) : Nat := 0x270101 + n
abbrev SP_LANE_MBPS (n : Nat) : Nat := 0x270201 + n
abbrev SP_VC (n : Nat) : Nat := 0x270301 + n
abbrev SP_DATA_TYPE (n : Nat) : Nat := 0x270401 + n
abbrev SP_EVENT_FORMAT (n : Nat) : Nat := 0x270501 + n
abbrev SP_GEOMETRY (n : Nat) : Nat := 0x270601 + n
abbrev SP_EVT_CORES (n : Nat) : Nat := 0x270701 + n
abbrev SEC_OVERLOAD (n : Nat) : Nat := 0x272001 + n
abbrev SEC_EVT_CQ (n : Nat) : Nat := 0x272101 + n
abbrev SEC_BATCH_US (n : Nat) : Nat := 0x272201 + n
abbrev GATHER_PACING : Nat := 0x280001
abbrev HOT_CACHE_KIB : Nat := 0x280101
abbrev HOT_SLOT_BYTES : Nat := 0x280102
abbrev ED_SOURCE (n : Nat) : Nat := 0x281001 + n
abbrev ED_SOURCE_ARG (n : Nat) : Nat := 0x281101 + n
abbrev EPOCH_MARK_MGMT : Nat := 0x281201
abbrev EPOCH_OUT_SEL (n : Nat) : Nat := 0x281301 + n
abbrev PCIE_MAX_RATE : Nat := 0x290001
abbrev PCIE_MAX_WIDTH : Nat := 0x290002
abbrev TOTAL_VFS : Nat := 0x290003
abbrev VF_MSIX_VECTORS : Nat := 0x290004
abbrev VF_BAR2_LOG2 : Nat := 0x290005
abbrev SUBSYSTEM_ID : Nat := 0x290006
abbrev SUBSYSTEM_VENDOR_ID : Nat := 0x290007
abbrev OVERLAP_MODE : Nat := 0x292001
abbrev HANG_WATCH_MS : Nat := 0x292002
abbrev STREAM_PACING : Nat := 0x2A0001
abbrev PELLET_LOG_ENTRIES : Nat := 0x2A0101
abbrev PELLET_READ_SEQ : Nat := 0x2A0102
abbrev PELLET_LOG_MODE : Nat := 0x2A0103
abbrev STALL_SELECT : Nat := 0x2A0201
abbrev ROUTING : Nat := 0x2B0001
abbrev TC_BALANCE : Nat := 0x2B0002
abbrev STATS_ENABLE : Nat := 0x2B2001
abbrev STATS_SNAPSHOT : Nat := 0x2B2002
abbrev STATS_SELECT : Nat := 0x2B2003
abbrev LAT_BUCKET_BASE : Nat := 0x2B2004
abbrev SCRUB_PERIOD_H : Nat := 0x2C0001
abbrev HBM_MAP : Nat := 0x2C0101
abbrev LP_MAP : Nat := 0x2C0201
abbrev LP_INLINE_ECC : Nat := 0x2C0202
abbrev INBOUND_POLICY : Nat := 0x2C0301
abbrev STORE_ORDER_MODE : Nat := 0x2C4001
abbrev CFG_SCRUB : Nat := 0x2D0001
abbrev FABRIC_UE_ACTION : Nat := 0x2D0002
abbrev FP_CTX (n : Nat) : Nat := 0x2D0101 + n
abbrev SP_FABRIC_PORT (n : Nat) : Nat := 0x2D0201 + n
abbrev PH_MAX_RATE (n : Nat) : Nat := 0x2E0001 + n
abbrev PH_EQ_PROFILE (n : Nat) : Nat := 0x2E0101 + n
abbrev PH_REQUIRED (n : Nat) : Nat := 0x2E0201 + n
abbrev PH_RETRY_MS (n : Nat) : Nat := 0x2E0301 + n
abbrev PH_LANE_MASK (n : Nat) : Nat := 0x2E0401 + n
abbrev PH_IDLE_POLICY (n : Nat) : Nat := 0x2E0501 + n
abbrev PH_LINK_ENABLE (n : Nat) : Nat := 0x2E8001 + n
abbrev LINK_PROFILE : Nat := 0x2E8401
abbrev DEGRADE_ENABLE : Nat := 0x2E8501
abbrev FORWARD_ENABLE : Nat := 0x2E8601
abbrev COOLANT_INLET_DC : Nat := 0x2F0001
abbrev COOLANT_WATCH_S : Nat := 0x2F0002
abbrev COOLING_PROFILE : Nat := 0x2F0101
abbrev DEVICE_ID_LOCK : Nat := 0x400001
abbrev ERRN_CORRECTED : Nat := 0x400101
abbrev ERRN_DEFERRED : Nat := 0x400102
abbrev ERRN_CONTAINED : Nat := 0x400103
abbrev ERRN_FATAL : Nat := 0x400104
abbrev REDUCED_CAP_W : Nat := 0x410001
abbrev CAP_WINDOW_US : Nat := 0x410002
abbrev ISLEW_A_PER_US : Nat := 0x410003
abbrev AVS_ENABLE : Nat := 0x410101
abbrev VCORE_MARGIN_MV : Nat := 0x410102
abbrev EYAS_TCLK_MHZ : Nat := 0x410201
abbrev RESET_REQUEST : Nat := 0x410301
abbrev CAN_NOM_SP : Nat := 0x421001
abbrev CAN_DATA_SP : Nat := 0x421002
abbrev CAN_TDC_ENABLE : Nat := 0x421003
abbrev PLCA_TO_TIMER : Nat := 0x421101
abbrev PLCA_BURST : Nat := 0x421102
abbrev PROVE_LIMIT : Nat := 0x421201
abbrev LOCKOUT_S : Nat := 0x421202
abbrev REPAIR_REQUEST (n : Nat) : Nat := 0x441001 + n
abbrev FAULT_INJECT : Nat := 0x442001
abbrev VXT_EXC_INJECT : Nat := 0x450001
abbrev NTT_RADIX : Nat := 0x460001
abbrev CAT_INJECT : Nat := 0x460002
abbrev SP_EVT_WORD (n : Nat) : Nat := 0x470001 + n
abbrev SP_TS_OFFSET (n : Nat) : Nat := 0x470101 + n
abbrev SP_EVT_FLUSH_US (n : Nat) : Nat := 0x470201 + n
abbrev SP_INJECT : Nat := 0x472001
abbrev GE_MAX_INFLIGHT : Nat := 0x480001
abbrev SERVE_QUEUE : Nat := 0x480002
abbrev MOULT_CONCURRENCY : Nat := 0x481001
abbrev PCIE_TX_PRESET : Nat := 0x490001
abbrev PCIE_CPL_TIMEOUT_US : Nat := 0x490002
abbrev DISPATCH_PREFETCH : Nat := 0x490003
abbrev SLOTS : Nat := 0x492001
abbrev ISSUE_DEPTH : Nat := 0x492002
abbrev MAX_OUTSTANDING : Nat := 0x4A0001
abbrev XLATE_LOOKAHEAD : Nat := 0x4A0002
abbrev POISON_INJECT : Nat := 0x4A0201
abbrev SRC_ROUTE_GLOBAL : Nat := 0x4B0101
abbrev NI_TIMEOUT_US : Nat := 0x4B0201
abbrev SCRUB_LINES_PER_S : Nat := 0x4C0001
abbrev SRAM_SCRUB_PERIOD_MS : Nat := 0x4C0002
abbrev LP_RATE_MTS : Nat := 0x4C1001
abbrev LP_RECAL_MS : Nat := 0x4C1002
abbrev ECC_INJECT : Nat := 0x4C2001
abbrev WIN_RANGE (n : Nat) : Nat := 0x4C3001 + n
abbrev WIN_ACCESS (n : Nat) : Nat := 0x4C3101 + n
abbrev SB_DEPTH : Nat := 0x4C4001
abbrev SB_FORWARD : Nat := 0x4C4002
abbrev SB_SYNC : Nat := 0x4C4003
abbrev REMOTE_RSV_LIMIT : Nat := 0x4C4004
abbrev CFG_SCRUB_PERIOD_MS : Nat := 0x4D0001
abbrev CFG_STREAM_TIMEOUT_MS : Nat := 0x4D0002
abbrev CFG_INJECT : Nat := 0x4D0003
abbrev FP_MAX_OUTSTANDING (n : Nat) : Nat := 0x4D0101 + n
abbrev TX_FFE (n : Nat) : Nat := 0x4E0001 + n
abbrev RX_CTLE (n : Nat) : Nat := 0x4E0101 + n
abbrev RX_DFE_CTRL (n : Nat) : Nat := 0x4E0201 + n
abbrev LOS_THRESH_MV (n : Nat) : Nat := 0x4E0301 + n
abbrev LOS_FILTER_NS (n : Nat) : Nat := 0x4E0401 + n
abbrev LOL_PPM (n : Nat) : Nat := 0x4E0501 + n
abbrev LOL_FILTER_US (n : Nat) : Nat := 0x4E0601 + n
abbrev PATTERN_CTRL (n : Nat) : Nat := 0x4E0701 + n
abbrev PATTERN_USER (n : Nat) : Nat := 0x4E0801 + n
abbrev INJECT (n : Nat) : Nat := 0x4E0901 + n
abbrev RECAL_INTERVAL_S (n : Nat) : Nat := 0x4E1001 + n
abbrev IDLE_TIMERS (n : Nat) : Nat := 0x4E1101 + n
abbrev REQUIRED_GRACE_MS (n : Nat) : Nat := 0x4E1201 + n
abbrev REPLAY_TIMEOUT_US : Nat := 0x4E8001
abbrev REPLAY_LIMIT : Nat := 0x4E8002
abbrev ACK_INTERVAL : Nat := 0x4E8003
abbrev PH_MAX_OUTSTANDING (n : Nat) : Nat := 0x4E8101 + n
abbrev MAX_HOPS : Nat := 0x4E8201
abbrev REISSUE_LIMIT : Nat := 0x4E8202
abbrev THETA_LI_MCW : Nat := 0x4F0001
abbrev TJ_MARGIN_C : Nat := 0x4F0002
abbrev COOLANT_FALLBACK_DC : Nat := 0x4F0003
abbrev CMOS_DRIVE : Nat := 0x4F0101
abbrev BRINGUP_STAGE : Nat := 0x600001
abbrev STAGE_FAULTS : Nat := 0x600002
abbrev BOOT_MODE_SAMPLED : Nat := 0x600008
abbrev RESET_CAUSE : Nat := 0x600009
abbrev EYAS_HOLDS : Nat := 0x60000A
abbrev ERR_COUNT_CORRECTED : Nat := 0x600101
abbrev ERR_COUNT_DEFERRED : Nat := 0x600102
abbrev ERR_COUNT_CONTAINED : Nat := 0x600103
abbrev ERR_COUNT_FATAL : Nat := 0x600104
abbrev UNBACKED_COUNT : Nat := 0x600201
abbrev UNBACKED_LAST : Nat := 0x600202
abbrev STATE_CONFLICT_COUNT : Nat := 0x600301
abbrev RING_FAULT_COUNT : Nat := 0x600302
abbrev EXC_NAN : Nat := 0x600401
abbrev EXC_POS_INF : Nat := 0x600402
abbrev EXC_NEG_INF : Nat := 0x600403
abbrev EXC_SAT_HIGH : Nat := 0x600404
abbrev EXC_SAT_LOW : Nat := 0x600405
abbrev EXC_TILES_TOTAL : Nat := 0x600406
abbrev ACC_SAT_TILES : Nat := 0x600407
abbrev OAP_REQUESTS : Nat := 0x601001
abbrev OAP_FAILURES : Nat := 0x601002
abbrev OAP_OVERRUNS : Nat := 0x601003
abbrev SEG_DISCARDS : Nat := 0x601004
abbrev OVERRIDDEN_COUNT : Nat := 0x601005
abbrev PENDING_COUNT : Nat := 0x601006
abbrev LAST_FAIL_OBJECT : Nat := 0x601007
abbrev LAST_FAIL_STATUS : Nat := 0x601008
abbrev AUTH_FAILS : Nat := 0x601009
abbrev CAN_IGNORED : Nat := 0x60100A
abbrev SESSIONS_OPENED : Nat := 0x60100B
abbrev VIN_MV : Nat := 0x610001
abbrev VIN_MIN_MV : Nat := 0x610002
abbrev VIN_BAND : Nat := 0x610003
abbrev HOLD_ENTRIES : Nat := 0x610004
abbrev REDUCED_ENTRIES : Nat := 0x610005
abbrev OVER_ENTRIES : Nat := 0x610006
abbrev INPUT_POWER_W : Nat := 0x610007
abbrev CAP_EFFECTIVE_W : Nat := 0x610008
abbrev VCORE_MV : Nat := 0x610009
abbrev REFCLK_STATUS : Nat := 0x610101
abbrev REFCLK_LOSS_COUNT : Nat := 0x610102
abbrev PASSES : Nat := 0x640001
abbrev MACS : Nat := 0x640002
abbrev ABFT_CHECKS : Nat := 0x640003
abbrev ABFT_MISMATCHES : Nat := 0x640004
abbrev ABFT_SKIPPED : Nat := 0x640005
abbrev ABFT_UNCHECKED : Nat := 0x640006
abbrev BANK_WAIT_CYCLES : Nat := 0x640007
abbrev STAT_REUSES : Nat := 0x640008
abbrev HANDOVERS : Nat := 0x640009
abbrev ACTIVE_TILES : Nat := 0x64000A
abbrev SPARE_MAP (n : Nat) : Nat := 0x640101 + n
abbrev LAST_MISMATCH (n : Nat) : Nat := 0x640201 + n
abbrev CARRYING (n : Nat) : Nat := 0x640301 + n
abbrev VXOPS : Nat := 0x650001
abbrev VX_ELEMENTS : Nat := 0x650002
abbrev TRANSC_ELEMENTS : Nat := 0x650003
abbrev TOPK_CALLS : Nat := 0x650004
abbrev LIMB_ELEMENTS : Nat := 0x650005
abbrev SCATTER_DUPS : Nat := 0x650006
abbrev VX_EXC_TILES : Nat := 0x650007
abbrev VXT_BUSY (n : Nat) : Nat := 0x650101 + n
abbrev CXOPS : Nat := 0x660001
abbrev NTT_RESIDUES : Nat := 0x660002
abbrev MODMULS : Nat := 0x660003
abbrev LEVEL_MISMATCHES : Nat := 0x660004
abbrev LEVEL_UNDERFLOWS : Nat := 0x660005
abbrev UNREDUCED_INPUTS : Nat := 0x660006
abbrev SH_RAND_WORDS : Nat := 0x660007
abbrev SH_RAND_REJECTS : Nat := 0x660008
abbrev CHAIN_REJECTS : Nat := 0x660009
abbrev CAT_BUSY (n : Nat) : Nat := 0x660101 + n
abbrev SP_PACKETS (n : Nat) : Nat := 0x670001 + n
abbrev SP_ECC_CORRECTED (n : Nat) : Nat := 0x670101 + n
abbrev SP_HDR_ERRORS (n : Nat) : Nat := 0x670201 + n
abbrev SP_CRC_ERRORS (n : Nat) : Nat := 0x670301 + n
abbrev SP_OVERRUN (n : Nat) : Nat := 0x670401 + n
abbrev SP_EVENTS_OUT (n : Nat) : Nat := 0x670501 + n
abbrev SP_NOMATCH (n : Nat) : Nat := 0x670601 + n
abbrev SP_RULE_MULTIHIT (n : Nat) : Nat := 0x670701 + n
abbrev SP_OUT_OF_FRAME (n : Nat) : Nat := 0x670801 + n
abbrev SP_FRAMES (n : Nat) : Nat := 0x670901 + n
abbrev SP_FRAME_DROPS (n : Nat) : Nat := 0x670A01 + n
abbrev SP_VC_DISCARDS (n : Nat) : Nat := 0x670B01 + n
abbrev SEC_EVENTS (n : Nat) : Nat := 0x672001 + n
abbrev SEC_DROPS (n : Nat) : Nat := 0x672101 + n
abbrev SEC_UPDATES (n : Nat) : Nat := 0x672201 + n
abbrev SEC_SPIKES (n : Nat) : Nat := 0x672301 + n
abbrev SEC_REF_DROPS (n : Nat) : Nat := 0x672401 + n
abbrev SEC_MEM_SATS (n : Nat) : Nat := 0x672501 + n
abbrev SEC_BINS (n : Nat) : Nat := 0x672601 + n
abbrev SEC_BIN_SKIPS (n : Nat) : Nat := 0x672701 + n
abbrev SEC_FILTERED (n : Nat) : Nat := 0x672801 + n
abbrev SEC_QUEUE_PEAK (n : Nat) : Nat := 0x672901 + n
abbrev SEC_SAT_COUNTS (n : Nat) : Nat := 0x672A01 + n
abbrev GXOPS : Nat := 0x680001
abbrev LOOKUPS_LOCAL : Nat := 0x680002
abbrev LOOKUPS_REMOTE : Nat := 0x680003
abbrev REQS_SERVED : Nat := 0x680004
abbrev SERVE_REFUSED : Nat := 0x680005
abbrev HOT_HITS : Nat := 0x680006
abbrev HOT_MISSES : Nat := 0x680007
abbrev HOT_MULTIHIT : Nat := 0x680008
abbrev EMPTY_BAGS : Nat := 0x680009
abbrev GATHER_REISSUES : Nat := 0x68000A
abbrev GXOP_STOPS : Nat := 0x68000B
abbrev INFLIGHT_LIMIT_CYCLES : Nat := 0x68000C
abbrev DESC_REJECTS : Nat := 0x68000D
abbrev MOULTS : Nat := 0x681001
abbrev MOULT_STEPS : Nat := 0x681002
abbrev MOULT_LAST_STEP : Nat := 0x681003
abbrev MOULT_LAST_STATUS : Nat := 0x681004
abbrev ED_EPOCH (n : Nat) : Nat := 0x682001 + n
abbrev ED_OVERRUN (n : Nat) : Nat := 0x682101 + n
abbrev ED_LAST_COMMIT_NS (n : Nat) : Nat := 0x682201 + n
abbrev ED_REJECTED_MARKS (n : Nat) : Nat := 0x682301 + n
abbrev PCIE_RATE : Nat := 0x690001
abbrev PCIE_WIDTH : Nat := 0x690002
abbrev PCIE_RETRAINS : Nat := 0x690003
abbrev AER_CORRECTABLE : Nat := 0x690004
abbrev AER_UNCORRECTABLE : Nat := 0x690005
abbrev RINGS_FAULTED : Nat := 0x690006
abbrev DISPATCHES : Nat := 0x690007
abbrev REG_REJECTS : Nat := 0x690008
abbrev BAR2_ABORTS : Nat := 0x690009
abbrev BAR2_POISONED_PELLET : Nat := 0x69000A
abbrev DEVICE_TIME_NS : Nat := 0x69000B
abbrev NUM_VFS : Nat := 0x69000C
abbrev WORDS_EXECUTED : Nat := 0x692001
abbrev PROGRAMS_COMPLETED : Nat := 0x692002
abbrev ILLEGAL_OPS : Nat := 0x692003
abbrev RESERVED_WORDS : Nat := 0x692004
abbrev SEM_TIMEOUTS : Nat := 0x692005
abbrev SEM_OVERRUNS : Nat := 0x692006
abbrev HANG_WATCH_HITS : Nat := 0x692007
abbrev SEQ_SLOTS (n : Nat) : Nat := 0x692101 + n
abbrev SEQ_WAIT (n : Nat) : Nat := 0x692201 + n
abbrev SEQ_WORD (n : Nat) : Nat := 0x692301 + n
abbrev PELLETS_WRITTEN : Nat := 0x6A0001
abbrev PELLETS_LOST : Nat := 0x6A0002
abbrev PELLET_NEXT_SEQ : Nat := 0x6A0003
abbrev JESS_OVERFLOWS : Nat := 0x6A0004
abbrev JESS_SHARED : Nat := 0x6A0005
abbrev STREAM_TIMEOUTS : Nat := 0x6A0006
abbrev DETACHED_FAULTS : Nat := 0x6A0007
abbrev STALL_DRAIN : Nat := 0x6A1009
abbrev STALL_ACTIVE : Nat := 0x6A100A
abbrev STALL_BEATS_RD : Nat := 0x6A100B
abbrev STALL_BEATS_WR : Nat := 0x6A100C
abbrev STALL_TIME_NS : Nat := 0x6A100D
abbrev FLITS_CORRECTED : Nat := 0x6B0001
abbrev FLITS_POISONED : Nat := 0x6B0002
abbrev HEADER_DISCARDS : Nat := 0x6B0003
abbrev REQ_TIMEOUTS : Nat := 0x6B0004
abbrev LATE_RESPONSES : Nat := 0x6B0005
abbrev ROUTE_MULTIHIT_TOTAL : Nat := 0x6B0006
abbrev ROUTE_REJECTS_TOTAL : Nat := 0x6B0007
abbrev DOMAIN_OFF_REPLIES : Nat := 0x6B0008
abbrev HOODED_REPLIES : Nat := 0x6B0009
abbrev DRAIN_TIMEOUTS : Nat := 0x6B000A
abbrev WAKES : Nat := 0x6B000B
abbrev WAKE_ABORTS : Nat := 0x6B000C
abbrev WAKE_FULL_CYCLES : Nat := 0x6B000D
abbrev STATS_OVERRUNS : Nat := 0x6B000E
abbrev JESS_RETURNS : Nat := 0x6B000F
abbrev SEL_PACKETS : Nat := 0x6B2001
abbrev SEL_BYTES : Nat := 0x6B2002
abbrev SEL_MAX_LAT : Nat := 0x6B2003
abbrev SEL_HIST : Nat := 0x6B2004
abbrev SEL_TIME_NS : Nat := 0x6B2005
abbrev HBM_CE : Nat := 0x6C0001
abbrev HBM_UE : Nat := 0x6C0002
abbrev HBM_ONDIE : Nat := 0x6C0003
abbrev LP_CE : Nat := 0x6C0004
abbrev LP_UE : Nat := 0x6C0005
abbrev SRAM_CE : Nat := 0x6C0006
abbrev SRAM_UE : Nat := 0x6C0007
abbrev POISON_CLEARS : Nat := 0x6C0008
abbrev SCRUB_PASSES : Nat := 0x6C0009
abbrev SCRUB_CORRECTED : Nat := 0x6C000A
abbrev LAST_UE_ADDRESS : Nat := 0x6C000B
abbrev LP_INSTALLED_MIB (n : Nat) : Nat := 0x6C1001 + n
abbrev LP_RATE (n : Nat) : Nat := 0x6C1101 + n
abbrev HBM_LANE_REPAIRS (n : Nat) : Nat := 0x6C1201 + n
abbrev MAP_STATUS : Nat := 0x6C1301
abbrev APERTURE_MISSES : Nat := 0x6C2001
abbrev APERTURE_DENIALS : Nat := 0x6C2002
abbrev APERTURE_MULTIHIT : Nat := 0x6C2003
abbrev APT_WRITE_REJECTS : Nat := 0x6C2004
abbrev INBOUND_REFUSED : Nat := 0x6C2005
abbrev INBOUND_MULTIHIT : Nat := 0x6C2006
abbrev SC_SUCCESS : Nat := 0x6C4001
abbrev SC_FAIL : Nat := 0x6C4002
abbrev RSV_LOST_STORE : Nat := 0x6C4003
abbrev RSV_LOST_TIMEOUT : Nat := 0x6C4004
abbrev RSV_LOST_OTHER : Nat := 0x6C4005
abbrev REMOTE_RSV_EVICTIONS : Nat := 0x6C4006
abbrev SB_FULL_WAITS : Nat := 0x6C4007
abbrev LOADS_FORWARDED : Nat := 0x6C4008
abbrev STORE_FAULTS : Nat := 0x6C4009
abbrev DRAINS : Nat := 0x6C400A
abbrev CFG_LOADS : Nat := 0x6D0001
abbrev CFG_LOAD_FAILS : Nat := 0x6D0002
abbrev CFG_LAST_STATUS : Nat := 0x6D0003
abbrev CFG_CE : Nat := 0x6D0004
abbrev CFG_UE : Nat := 0x6D0005
abbrev CFG_SCRUB_PASSES : Nat := 0x6D0006
abbrev FAB_RAM_CE : Nat := 0x6D0007
abbrev FAB_RAM_UE : Nat := 0x6D0008
abbrev REGION_STATE : Nat := 0x6D0009
abbrev FP_MASTER_REQS (n : Nat) : Nat := 0x6D1001 + n
abbrev FP_TARGET_REQS (n : Nat) : Nat := 0x6D1101 + n
abbrev FP_POISON_MARKED (n : Nat) : Nat := 0x6D1201 + n
abbrev FP_TARGET_ERRORS (n : Nat) : Nat := 0x6D1301 + n
abbrev FP_SENSOR_DROPS (n : Nat) : Nat := 0x6D1401 + n
abbrev PH_LINK_STATE (n : Nat) : Nat := 0x6E0001 + n
abbrev PH_RATE (n : Nat) : Nat := 0x6E0101 + n
abbrev PH_PARTNER (n : Nat) : Nat := 0x6E0201 + n
abbrev PH_LANE_SET (n : Nat) : Nat := 0x6E0301 + n
abbrev PH_ABSENT_COUNT (n : Nat) : Nat := 0x6E0401 + n
abbrev CREANCE_RESTARTS (n : Nat) : Nat := 0x6E0501 + n
abbrev TRAIN_TIMEOUTS (n : Nat) : Nat := 0x6E0601 + n
abbrev RATE_FALLBACKS (n : Nat) : Nat := 0x6E0701 + n
abbrev MISCABLE_EVENTS (n : Nat) : Nat := 0x6E0801 + n
abbrev ID_CONFLICTS (n : Nat) : Nat := 0x6E0901 + n
abbrev LANE_STATE (n : Nat) : Nat := 0x6E1001 + n
abbrev LOS_EVENTS (n : Nat) : Nat := 0x6E1101 + n
abbrev LOL_EVENTS (n : Nat) : Nat := 0x6E1201 + n
abbrev PATTERN_ERRORS (n : Nat) : Nat := 0x6E1301 + n
abbrev PATTERN_BITS (n : Nat) : Nat := 0x6E1401 + n
abbrev CHK_RELOCKS (n : Nat) : Nat := 0x6E1501 + n
abbrev RECAL_DONE (n : Nat) : Nat := 0x6E1601 + n
abbrev RECAL_DEFERRED (n : Nat) : Nat := 0x6E1701 + n
abbrev TF_REJECTS (n : Nat) : Nat := 0x6E1801 + n
abbrev DFE_TAP_LIMITS (n : Nat) : Nat := 0x6E1901 + n
abbrev INJECTED (n : Nat) : Nat := 0x6E1A01 + n
abbrev FEC_CODEWORDS (n : Nat) : Nat := 0x6E8001 + n
abbrev FEC_CORRECTED (n : Nat) : Nat := 0x6E8101 + n
abbrev FEC_SYMBOLS (n : Nat) : Nat := 0x6E8201 + n
abbrev FEC_UNCORRECTABLE (n : Nat) : Nat := 0x6E8301 + n
abbrev CRC_FAILS (n : Nat) : Nat := 0x6E8401 + n
abbrev REPLAYS (n : Nat) : Nat := 0x6E8501 + n
abbrev REPLAY_FULL_CYCLES (n : Nat) : Nat := 0x6E8601 + n
abbrev DEGRADES (n : Nat) : Nat := 0x6E8701 + n
abbrev DROPS (n : Nat) : Nat := 0x6E8801 + n
abbrev PORT_LANES (n : Nat) : Nat := 0x6E8901 + n
abbrev OUTSTANDING (n : Nat) : Nat := 0x6E8A01 + n
abbrev REISSUES : Nat := 0x6E9001
abbrev LINK_LOST_DONE : Nat := 0x6E9002
abbrev INDETERMINATE_DONE : Nat := 0x6E9003
abbrev FORWARDED : Nat := 0x6E9004
abbrev HOP_DISCARDS : Nat := 0x6E9005
abbrev LATE_ANSWERS : Nat := 0x6E9006
abbrev TJ_MAX_DC : Nat := 0x6F0001
abbrev TJ_MAX_SENSOR : Nat := 0x6F0002
abbrev TJ_SENSORS : Nat := 0x6F0003
abbrev TJ_PEAK_DC : Nat := 0x6F0004
abbrev SENSORS_EXCLUDED : Nat := 0x6F0005
abbrev THERM_THROTTLE_US : Nat := 0x6F0006
abbrev COOLANT_IN_USE_DC : Nat := 0x6F0101
abbrev COOLANT_LIMIT_W : Nat := 0x6F0102
abbrev COOLANT_STATE : Nat := 0x6F0103
abbrev WATCH_EXPIRIES : Nat := 0x6F0104
abbrev PIN_LEVELS : Nat := 0x6F0201
abbrev JTAG_REFUSED : Nat := 0x6F0202
abbrev SAFETY_PROFILE : Nat := 0x700001
abbrev ERR_N_CLEAR : Nat := 0x700002
abbrev TEST_REQUEST : Nat := 0x700003
abbrev TEST_FORCE : Nat := 0x710101
abbrev AUTO_REPAIR : Nat := 0x710102
abbrev FAULT_CLEAR : Nat := 0x710103
abbrev SAFE_MGMT : Nat := 0x710201
abbrev AGING_WARN_MV : Nat := 0x710301
abbrev ERR_INJECT : Nat := 0x710401
abbrev PATH_TEST_MS : Nat := 0x710402
abbrev SAFE_STATE : Nat := 0x720001
abbrev SAFE_RECORD : Nat := 0x720002
abbrev ERR_N_LATCHED : Nat := 0x720003
abbrev HB_RUNNING : Nat := 0x720004
abbrev LOG_LOST : Nat := 0x720101
abbrev ERR_LOG_TAIL : Nat := 0x720201
abbrev TEST_LAST : Nat := 0x721001
abbrev TEST_LAST_DETAIL : Nat := 0x721002
abbrev TESTS_RUN : Nat := 0x721003
abbrev TESTS_FAILED : Nat := 0x721004
abbrev TESTS_DEFERRED : Nat := 0x721005
abbrev TESTS_ABORTED : Nat := 0x721006
abbrev OVERDUE_UNITS : Nat := 0x721007
abbrev REPAIRS_AUTO : Nat := 0x721008
abbrev PATH_TESTS : Nat := 0x721009
abbrev AGE_HOURS : Nat := 0x722001
abbrev AGING_MAX_MV : Nat := 0x722002
abbrev AGING_MAX_DOMAIN : Nat := 0x722003
abbrev AGING_WARN_COUNT : Nat := 0x722004
abbrev TJ_HIST : Nat := 0x722201
abbrev PROFILE_APPLY : Nat := 0x8F0001
abbrev STAGE_TIME (k : Nat) : Nat := 0x600002 + k
abbrev UNIT_REQ (c n : Nat) : Nat := 0x230001 + c * 256 + n
abbrev UNIT_STATE (c n : Nat) : Nat := 0x630001 + c * 256 + n
abbrev DOMAIN_POLICY (c n : Nat) : Nat := 0x2B1001 + c * 256 + n
abbrev UNIT_DOMAIN (c n : Nat) : Nat := 0x282001 + c * 256 + n
abbrev PROFILE_ENTRIES (n : Nat) : Nat := 0x800001 + n * 256
abbrev LAST_APPLY (n : Nat) : Nat := 0x800002 + n * 256
abbrev SP_RULE (p r : Nat) : Nat := 0x471001 + p * 256 + r
abbrev TEST_INTERVAL_S (c : Nat) : Nat := 0x710001 + c
abbrev DEV_ROUTE (d : Nat) : Nat := if d < 128 then 0x2E8101 + d else 0x2E8201 + (d - 128)
abbrev VC_WEIGHT_TC (k : Nat) : Nat := 0x4B0000 + k
abbrev STALL_CAUSE (c : Nat) : Nat := 0x6A1001 + c

end Obj

end Sys2Proof
end

