-- ==== Sys2Proof/Machine/PartsA.lean ====
section
/-!
DEFINITION. The parts of the state: supply and bring-up, unit control blocks, the object access protocol, the error
aggregator, safety, cooling and boundary scan (chapters 1 to 3, 19 and 20). Plain data; every default is the reset value.
-/
namespace Sys2Proof.Machine

/-- The orderable variants of Table 0.1 (R1), and the state of the profile fuses (R13). -/
inductive Variant where
  | v | d
deriving DecidableEq, Repr

/-- UCB states, in the encoding order of Table 1.9 (R28). -/
inductive UState where
  | off | mews | hooded | ready | busy | quiescing | test | faulted
deriving DecidableEq, Repr

/-- The error classes of Table 1.10 (R30). -/
inductive ErrClass where
  | corrected | deferred | contained | fatal
deriving DecidableEq, Repr

/-- One unit's control block: its state, the stop it obeys, a target not yet reached and the path that named it, and
what it returns to after band MEWS (R39) or a self-test (R764). -/
structure Ucb where
  st : UState := .off
  mgmtStop : Bool := false
  target : Option UState := none
  targetMgmt : Bool := false
  beforeBand : Option UState := none
  beforeTest : Option UState := none
  testWaits : Bool := false
  testForced : Bool := false
  /-- the test is the keeper's second one, after its own repairs (R765) -/
  testAgain : Bool := false
  /-- the test began from FAULTED under FAULT_CLEAR (Table 19.8) -/
  testClears : Bool := false
  overruns : Nat := 0
  lastPassNs : Nat := 0
deriving DecidableEq, Repr

/-- Supply, clocks, resets and bring-up as the hardware holds them; what the dictionary shows of them is a view. -/
structure Supply where
  vinMv : Nat := 6500
  band : VinBand := .hold
  entryRunning : Bool := false
  exitRunning : Bool := false
  inMews : Bool := false
  /-- a cold reset is held until its release (R56) -/
  coldReset : Bool := true
  /-- the bring-up under way, or the last one, followed a warm reset (R56) -/
  warmBoot : Bool := false
  pciePerst : Bool := false
  safeIn : Bool := false
  refSys : Bool := true
  refPcie : Bool := true
  refLane : Nat := 0x1F
  /-- clocks whose present absence has been reported: bit 0 REFCLK_SYS, 1 REFCLK_PCIE, 2 + g REFCLK_LANE[g] (R49) -/
  refSaid : Nat := 0
  /-- the STAGE_HOLD that the bring-up under way obeys (R67) -/
  stageHold : Nat := 5
  /-- KRST_N is asserted: the keeper is held in its reset (Table 2.8) -/
  keeperHeld : Bool := false
  kclkOk : Bool := true
  bootPins : Nat := 0
  resetWaits : Option Nat := none
  selfRefresh : Bool := false
  /-- MHz by which TCLK is held below its set value for the junction limit, and for the power cap (R47, R791, R794) -/
  thermDrop : Nat := 0
  capDrop : Nat := 0
deriving DecidableEq, Repr

/-- An expert session of one transport (R109 to R116). -/
structure Session where
  isOpen : Bool := false
  ks : List Byte := []
  ctr : Nat := 0
  challenge : Option (List Byte × List Byte) := none
  challengeNs : Nat := 0
  fails : Nat := 0
  locked : Bool := false
deriving DecidableEq, Repr

/-- A segmented write in progress (R88). -/
structure Segment where
  key : Nat
  total : Nat
  auth : Bool
  buf : List Byte
deriving DecidableEq, Repr

/-- A received request: its bytes and, on 10BASE-T1S, its source address (R99). -/
structure RxReq where
  bytes : List Byte
  src : Nat
deriving DecidableEq, Repr

/-- One OAP transport: its queue, session, segmented write and read snapshot (R88, R91, R94, R113). -/
structure Port where
  queue : List RxReq := []
  sess : Session := {}
  seg : Option Segment := none
  snap : Option (Nat × List Byte) := none
  lastSrc : Option Nat := none
deriving DecidableEq, Repr

/-- A write of a unit-homed object that waits for its unit's command-word boundary (R82). -/
structure UnitWrite where
  t : Transport
  src : Nat
  unit : Nat
  key : Nat
  value : W64
  bytes : List Byte
  header : List Byte
deriving DecidableEq, Repr

/-- The object access protocol: transports, mailbox, key store, staged values and shadows (chapter 3). -/
structure Oap where
  can : Port := {}
  t1s : Port := {}
  mbx : Port := {}
  turn : Nat := 0
  mbxReq : SMap Byte := []
  mbxRsp : List Byte := []
  mbxBusy : Bool := false
  mbxRspValid : Bool := false
  evtQ : List (List Byte) := []
  inEffect : SMap W64 := []
  key : List Byte := []
  programs : Nat := 0
  waiting : List UnitWrite := []
  /-- staged values of RWS objects: key to value + 1 (R118) -/
  staged : SMap Nat := []
  /-- shadow values written while a unit sleeps: key to value + 1 (R80) -/
  shadow : SMap Nat := []
  /-- basic objects now OVERRIDDEN (R105) -/
  overridden : List Nat := []
  /-- the keeper's mirror of the UCB states, as differences from them: unit to NS of the first difference + 1 (R131) -/
  mirrorDiff : SMap Nat := []
  /-- unit states as mirrored: unit to encoding (R131) -/
  mirror : SMap Nat := []
deriving DecidableEq, Repr

/-- The aggregator's record of one source (Table 19.6). -/
structure SrcRec where
  count : Nat := 0
  oClass : Nat := 0
  oIndex : Nat := 0
  firstNs : Nat := 0
  lastNs : Nat := 0
  lastInfo : Nat := 0
deriving DecidableEq, Repr

/-- An error record of the log (Table 19.5). -/
structure ErrRec where
  source : Nat := 0
  cls : Nat := 0
  oClass : Nat := 0
  oIndex : Nat := 0
  status : Nat := 0
  test : Bool := false
  time : Nat := 0
  info : Nat := 0
  seq : Nat := 0
deriving DecidableEq, Repr

/-- The error aggregator (R748 to R751) and the pellet log's position (R277, R278). -/
structure Aggregator where
  src : SMap SrcRec := []
  log : SMap ErrRec := []
  logNext : Nat := 0
  logRead : Nat := 0
  logLost : Nat := 0
  safeRec : Option ErrRec := none
  /-- time + 1 of the last event reported for a CORRECTED or DEFERRED source (R751) -/
  lastReport : SMap Nat := []
deriving DecidableEq, Repr

/-- The safety monitor, the safe state and the records of age (chapter 19). -/
structure Safety where
  safe : Bool := false
  logFrozen : Bool := false
  errN : Bool := false
  monitorOk : Bool := true
  hourBits : Nat := 0
  /-- powered ns since the last bit was burnt, less DEVICE_TIME_NS (R769) -/
  liveNs : Int := 0
  drift : SMap Nat := []
  driftOver : List Nat := []
  /-- next unit of each class the test schedule takes (R762) -/
  schedNext : SMap Nat := []
  /-- comparisons of 100 µs in each band of Table 19.11 -/
  tjHist : List Nat := [0, 0, 0, 0, 0]
deriving DecidableEq, Repr

/-- The instructions of the TAP (Table 20.8, R786). -/
inductive JInstr where
  | bypass | idcode | samplePreload | extest | extestPulse | extestTrain | highz | clamp
deriving DecidableEq, Repr

/-- Junction sensors, coolant, and boundary scan (chapter 20). -/
structure Cooling where
  sensors : List Int := List.replicate 64 0
  excluded : List Nat := []
  /-- comparisons in a row that found the hottest sensor below TJ_LIMIT - 3 °C (R791) -/
  cool : Nat := 0
  inletInUse : Int := 450
  fallback : Bool := false
  jtag : JInstr := .idcode
  boundary : List Bool := []
  sampled : List Bool := []
deriving DecidableEq, Repr

end Sys2Proof.Machine
end

