-- ==== Sys2Proof/Machine/PartsB.lean ====
section
/-!
DEFINITION. The parts of the state: host link and rings (chapter 4), sequencers, program slots and issue queues
(chapter 5), store buffers and reservations (chapter 9), stream engines and jess pairs (chapter 6).
-/
namespace Sys2Proof.Machine

/-- Submission ring states, in the encoding of Table 4.8. -/
inductive RingState where
  | disabled | running | paused | faulted | resetting
deriving DecidableEq, Repr

/-- A submission entry the dispatcher has read: its slot and 64 bytes (R155). -/
structure Fetched where
  slot : Nat
  bytes : List Byte
deriving DecidableEq, Repr

/-- One ring page of BAR0 (Table 4.5) with the positions behind it. `sqCfg` and `cqCfg` reset to SIZE_LOG2 4 and
WEIGHT 1 (Tables 4.6 and 4.7). -/
structure Ring where
  sqBase : Nat := 0
  sqCfg : Nat := 0x10004
  sqTail : Nat := 0
  sqHead : Nat := 0
  st : RingState := .disabled
  cqBase : Nat := 0
  cqCfg : Nat := 4
  cqHead : Nat := 0
  cqTail : Nat := 0
  regStatus : Nat := 0
  faultInfo : Nat := 0
  dispatched : Nat := 0
  cqWritten : Nat := 0
  cqFullEvents : Nat := 0
  eventOverruns : Nat := 0
  /-- the phase the device writes next (R174) -/
  phase : Bool := true
  /-- completions since the last interrupt, and the time + 1 of the first of them (R179) -/
  pend : Nat := 0
  pendSince : Nat := 0
  /-- entries read ahead and not yet passed by SQ_HEAD (R163) -/
  fetched : List Fetched := []
  /-- dispatched entries whose completion is not yet written (R160) -/
  inFlight : Nat := 0
  /-- RESET_CQ was written together with RESET_SQ (R169) -/
  resetCqAfter : Bool := false
  /-- the reset is part of a Function Level Reset: its RESET_CQ follows the last RESET_SQ (R171) -/
  flr : Bool := false
  /-- a PCIe fundamental reset waits for the ring's programs to finish (R54) -/
  perst : Bool := false
  /-- TARGET of the entry last dispatched (R130) -/
  lastTarget : Nat := 0
deriving DecidableEq, Repr

/-- One MSI-X table entry (R180). -/
structure Vector_ where
  addr : Nat := 0
  data : Nat := 0
  masked : Bool := true
  pba : Bool := false
deriving DecidableEq, Repr

/-- A completion that waits for room in its CQ or for the link (R172, R177). -/
structure WaitingCpl where
  cq : Nat
  bytes : List Byte
  irq : Bool
  /-- it has found its CQ full, which is counted once -/
  counted : Bool := false
deriving DecidableEq, Repr

/-- What a device-initiated read of host memory is for (R155, R249). -/
inductive HostReadUse where
  | entry (ring slot : Nat)
  | beat (engine slot : Nat) (dst : List (Nat × Nat × Nat))
deriving DecidableEq, Repr

/-- A BAR2 read whose answers are on their way: pieces left, bytes so far, the latest poison mark, and whether it must abort
(R147 to R149). -/
structure Bar2Read where
  id : Nat
  fn : Nat
  addr : Nat
  left : Nat
  buf : List Byte
  mark : Nat := 0
  bad : Bool := false
deriving DecidableEq, Repr

/-- A host access that waits for earlier writes of its function to be visible, or for tags (R304, R391). -/
inductive HostOp where
  | bar0Write (offset size value : Nat)
  | bar0Read (offset size : Nat)
  | bar2Write (addr : Nat) (data : List Byte)
  | bar2Read (addr len : Nat)
deriving DecidableEq, Repr

/-- The host interface: configuration space as the host set it, binding and routing registers, rings and the
dispatcher's round (chapter 4). -/
structure HostLink where
  linkUp : Bool := false
  rate : Nat := 0
  width : Nat := 0
  totalVfs : Nat := 63
  vfMsix : Nat := 16
  vfBar2Log2 : Nat := 32
  numVfs : Nat := 0
  vfEnable : Bool := false
  msixOn : SMap Bool := []
  fnMask : SMap Bool := []
  /-- the link has not been up since the endpoint's reset: its next training is no retraining -/
  fresh : Bool := true
  bar2Ctx : SMap Nat := []
  fnStatus : SMap Nat := []
  ctxBind : SMap Nat := []
  ringBind : SMap Nat := []
  irqRoute : SMap Nat := []
  irqMultihit : Nat := 0
  /-- vector of function f at key f * 2048 + vector -/
  vectors : SMap Vector_ := []
  rings : SMap Ring := []
  cplBuf : List WaitingCpl := []
  /-- ring last served and dispatches it used, per priority (R162) -/
  lastServed : SMap Nat := []
  used : SMap Nat := []
  reads : List (Nat × HostReadUse) := []
  nextTag : Nat := 0
  bar2 : List Bar2Read := []
  nextBar2 : Nat := 1
  /-- host accesses that wait, oldest first, each with its function (R391) -/
  held : List (Nat × HostOp) := []
  /-- power state (0 D0, 3 D3hot), ASPM control, Max_Payload_Size and Max_Read_Request_Size codes, AER uncorrectable status and
  ECRC enables of each function (R140; log 44) -/
  power : SMap Nat := []
  aspm : SMap Nat := []
  mps : SMap Nat := []
  mrrs : SMap Nat := []
  aer : SMap Nat := []
  ecrc : SMap Nat := []
deriving DecidableEq, Repr

/-- The roles of a program slot, in the encoding of 0x6921 SEQ_SLOTS (Table 5.14). -/
inductive Role where
  | empty | leader | follower | halted
deriving DecidableEq, Repr

/-- What a slot waits on, in the encoding of 0x6922 SEQ_WAIT (Table 5.14). -/
inductive WaitKind where
  | nothing | semwait | epoch | bringup | issueQueue | busyEngine | fence | ended | hold | leader
deriving DecidableEq, Repr

/-- A loop of the loop stack: first body word, first word after the body, iterations left (R203). -/
structure Loop where
  start : Nat
  stop : Nat
  left : Nat
deriving DecidableEq, Repr

/-- A line of command words as it was fetched: line number of the context address, its 128 bytes, and the pellet + 1
that marked it (R195, R196). -/
structure FetchLine where
  line : Nat
  bytes : List Byte
  poison : Nat
deriving DecidableEq, Repr

/-- A load, LR, SC or AMO of a slot whose answer has not arrived (R371, R382), or an MMIO store. `rd` is the destination
register, `kind` the word's opcode, `left` the packets still out, `buf` the bytes so far; `block` is set for an MMIO access,
whose word waits (R383). -/
structure PendLoad where
  tag : Nat
  rd : Nat
  n : Nat
  sx : Bool
  kind : Nat
  word : Nat
  left : Nat := 1
  buf : List Byte := []
  mark : Nat := 0
  status : Nat := 0
  block : Bool := false
  line : Nat := 0
deriving DecidableEq, Repr

/-- One program slot (R191), with what the completion will report (R239). -/
structure Slot where
  role : Role := .empty
  /-- the origin sequencer and its slot, for a member tile of a running cast (R189) -/
  castOrigin : Option Nat := none
  castSlot : Nat := 0
  ring : Nat := 0
  sqIndex : Nat := 0
  ctx : Nat := 0
  userTag : Nat := 0
  flags : Nat := 0
  target : Nat := 0
  execTarget : Nat := 0
  words : Nat := 0
  addr : Nat := 0
  x : List W64 := List.replicate 16 0
  /-- poison marks: pellet sequence + 1, 0 for none (R275) -/
  xp : List Nat := List.replicate 16 0
  wi : Nat := 0
  lastWi : Nat := 0
  loops : List Loop := []
  sticky : Nat := 0
  wait : WaitKind := .nothing
  /-- when the slot came to the word at which it stands (R240) -/
  waitNs : Nat := 0
  hang : Bool := false
  lines : List FetchLine := []
  /-- loads, reserved loads and atomics not yet performed -/
  loads : List PendLoad := []
  /-- operations issued and not completed -/
  ops : List Nat := []
  /-- engines whose last chain the program started, has not detached and has not yet taken the status of (R226) -/
  engines : List Nat := []
  /-- final statuses of chains whose engine has been started again since, as (engine, status, mark): not yet taken (R259) -/
  chains : List (Nat × Nat × Nat) := []
  /-- the word that the check of a LOOP's body has come to (R204) -/
  scan : Option Nat := none
  /-- bytes of the RAND at the word that are on their way (R211) -/
  randPos : Nat := 0
  overlapped : Bool := false
  /-- the status with which the program ended, + 1 (R237) -/
  ending : Nat := 0
  endFault : Bool := false
  firstPellet : Option Nat := none
  excTiles : Nat := 0
  excRec : List Byte := []
  /-- epoch domain whose commit count the slot waits to pass, and that count (R228) -/
  epochWait : Option (Nat × Nat) := none
  /-- the semaphore the slot waits on: pair * 2 + which (R213) -/
  semWait : Option Nat := none
  /-- an AMO, SEMPOST or mark on another device is outstanding (R216) -/
  remote : Option Nat := none
  /-- the reservation: granule line and home, + whether still held (R395) -/
  resv : Option Nat := none
  stopping : Bool := false
  /-- a line fetch is on its way -/
  fetching : Option Nat := none
  /-- the store at the word has counted its wait for the full buffer (R377) -/
  sbWaited : Bool := false
  /-- the INT4 pass at the word has counted its hold (R63) -/
  eyasHeld : Bool := false
  /-- settings taken at dispatch (R240, R399) -/
  sbDepth : Nat := 32
  sbForward : Bool := true
  sbSync : Bool := false
  depth : Nat := 16
  /-- HANG_WATCH_MS at the dispatch (R240) -/
  hangMs : Nat := 0
  /-- a program-fault status an operation found late, reported at the next word that waits for it (R412); 0 none -/
  late : Nat := 0
deriving DecidableEq, Repr

/-- The result formats and functions of unit operations are decoded once at issue; an operation keeps its words and the
registers they name as they were (R218). -/
structure UnitOp where
  id : Nat
  seq : Nat
  slot : Nat
  opcode : Nat
  w0 : Nat
  w1 : Nat
  w2 : Nat
  x : List W64
  ctx : Nat
  word : Nat
  /-- place in the order in which passes and operations began; 0 not begun -/
  began : Nat := 0
  poison : Nat := 0
deriving DecidableEq, Repr

/-- A store buffer entry (R374): the storing slot, a global address, its bytes, its poison mark and whether it is sent. -/
structure SbEntry where
  slot : Nat
  addr : Nat
  bytes : List Byte
  replay : Bool := false
  poison : Nat
  sent : Bool
  tag : Nat
deriving DecidableEq, Repr

/-- One sequencer: two slots, a store buffer and the issue queue of its unit (R191, R218, R374). -/
structure Sequencer where
  s0 : Slot := {}
  s1 : Slot := {}
  sb : List SbEntry := []
  queue : List UnitOp := []
deriving DecidableEq, Repr

/-- Stream engine states (Table 6.14). -/
inductive EngState where
  | idle | running | stopping
deriving DecidableEq, Repr

/-- The counters of one engine: cause counters 0 to 7, drain, active, beats read and beats written (R270, R283). -/
structure EngCounters where
  cause : List Nat := List.replicate 8 0
  drain : Nat := 0
  active : Nat := 0
  rd : Nat := 0
  wr : Nat := 0
  timeNs : Nat := 0
deriving DecidableEq, Repr

/-- A piece that an engine has still to write: its slot, global address, bytes, mark, and whether its page is replayable. -/
structure EngWrite where
  slot : Nat
  ga : Nat
  bytes : List Byte
  mark : Nat
  replay : Bool
deriving DecidableEq, Repr

/-- One stream engine (R244, R283). -/
structure Engine where
  st : EngState := .idle
  detached : Bool := false
  lastStatus : Nat := 0
  descs : Nat := 0
  descAddr : Nat := 0
  desc : List Byte := []
  descRunning : Bool := false
  /-- the descriptor's line: 0 not asked for, 1 on its way, 2 here -/
  descSt : Nat := 0
  ctx : Nat := 0
  ring : Nat := 0
  seq : Nat := 0
  slot : Nat := 0
  /-- slots acquired, and bytes of the stream moved (R250) -/
  slotsTaken : Nat := 0
  slotsFilled : Nat := 0
  slotsFreed : Nat := 0
  moved : Nat := 0
  outstanding : Nat := 0
  sticky : Nat := 0
  pellet : Option Nat := none
  /-- a final status the program that started the chain has not yet taken (R259) -/
  unread : Bool := false
  /-- writes of arrived beats that wait for a tag (R268, R304) -/
  wq : List EngWrite := []
  /-- a descriptor with totals of 0 has completed with OK_EMPTY (R253) -/
  sawEmpty : Bool := false
  /-- the slot's semaphores taken: IN_PAIR, OUT_PAIR (R263) -/
  tookIn : Bool := false
  tookOut : Bool := false
  gateEpoch : Option (Nat × Nat) := none
  armed : Bool := false
  live : EngCounters := {}
  snap : EngCounters := {}
deriving DecidableEq, Repr

/-- One jess pair (R261). -/
structure Jess where
  fill : Nat := 0
  free : Nat := 0
deriving DecidableEq, Repr

/-- Who waits on a semaphore (R266), in the order in which the waits began. `remote` is the index of the waiting
request at this device's NI (R292). -/
inductive Waiter where
  | slot (seq slot : Nat)
  | engine (e : Nat)
  | remote (id : Nat)
  | coll
deriving DecidableEq, Repr

/-- A waiting take: the semaphore as pair * 2 + which, the count and the waiter. -/
structure SemWaiting where
  sem : Nat
  count : Nat
  who : Waiter
  sinceNs : Nat := 0
  tmo : Nat := 0
  /-- the node, class and tag of the jess wait it came by (R292) -/
  reply : Option (Nat × Nat) := none
  packet : Nat := 0
deriving DecidableEq, Repr

/-- Streams, jess pairs and the pellet log's sequence (chapter 6). -/
structure Streams where
  engines : SMap Engine := []
  jess : SMap Jess := []
  waiters : List SemWaiting := []
  pelletNext : Nat := 0
  stallSnap : EngCounters := {}
deriving DecidableEq, Repr

end Sys2Proof.Machine
end

