-- ==== Sys2Proof/Machine/PartsC.lean ====
section
/-!
DEFINITION. The parts of the state: the tile network and power domains (chapter 7), memories, apertures and
reservations kept for other devices (chapters 8 and 9).
-/
namespace Sys2Proof.Machine

/-- The agents of Table 9.1, and the units that issue requests of their own (R370). -/
inductive Agent where
  | slot (seq slot : Nat)
  | op (seq : Nat)
  | engine (e : Nat)
  | host (fn : Nat)
  | fabric (port oid : Nat)
  | remote (dev req : Nat)
  | gather (g : Nat)
  | coll
  | sensor (p : Nat)
  | sec (c : Nat)
  | jess
deriving DecidableEq, Repr

/-- Packet kinds, in the encoding of Table 7.3 less one (R289). -/
inductive PKind where
  | rdReq | wr | wrPoison | amoReq | jessPost | jessWait | epochMark | gatherReq
  | rdRsp | wrAck | amoRsp | jessGrant | gatherRsp
deriving DecidableEq, Repr

/-- What an answer completes: a load, LR, SC or AMO of a slot (its PendLoad tag), a buffered store, a beat an engine reads (with
its slot and the destination pieces it fills: address, offset, bytes; none for a descriptor line) or writes, a post or wait, a
wait of an engine or a schedule step, a partial of a bag, a write of a unit's operation, a line such an operation reads, a write
of a schedule step, of a hot row, a fabric request, a BAR2 access, a relayed request of another device, an event beat or frame
line of a sensor port, or nothing that is kept. -/
inductive Use where
  | load (q k tag off : Nat)
  | fetch (q k line : Nat)
  | sbStore (q tag : Nat)
  | engRead (e slot : Nat) (dst : List (Nat × Nat × Nat))
  | engWrite (e slot : Nat)
  | engPost (e : Nat)
  | engWait (e sem : Nat)
  | collWait (step sem : Nat)
  | post (q k : Nat)
  | epoch (q k : Nat)
  | gather (g bag part : Nat)
  | opWrite (ag : Agent)
  | buf (ag : Agent) (job ga n : Nat)
  | hot (slot : Nat)
  | step (i : Nat)
  | fabric (port tag : Nat)
  | bar2 (id off : Nat)
  | relay (dev req : Nat)
  | beat (p events : Nat)
  | line (p frame : Nat)
  | plain
deriving DecidableEq, Repr

/-- A packet of the tile network (Tables 7.1 and 7.2): header fields, payload, and the node it stands at. -/
structure Packet where
  id : Nat
  kind : PKind
  tc : Nat
  src : Nat
  dst : Nat
  at_ : Nat
  /-- the router input it came by: from the east, west, north or south neighbour, or 4 from the node's NI (R295) -/
  via : Nat := 4
  tag : Nat := 0
  /-- RMODE 1: the straight segments of ROUTE, as (direction, length left) (R302) -/
  segs : Option (List (Nat × Nat)) := none
  /-- the route entry it was sent with (R303) -/
  route : Option Nat := none
  dev : Nat := 0
  addr : Nat := 0
  len : Nat := 0
  data : List Byte := []
  poison : Bool := false
  pseq : Nat := 0
  op : Nat := 0
  sz : Nat := 0
  which : Nat := 0
  pair : Nat := 0
  count : Nat := 0
  tmo : Nat := 0
  cancel : Bool := false
  ed : Nat := 0
  table : Nat := 0
  pool : Nat := 0
  status : Nat := 0
  seg : Nat := 0
  /-- pieces already performed, and whether the access is one single-copy-atomic piece (R374) -/
  pieces : List Nat := []
  whole : Bool := false
  /-- it came out of a domain's wake buffer and goes before every later packet to that domain (Table 7.8, P4) -/
  parked : Bool := false
  /-- its page is marked REPLAY (R735); device-to-device hops taken (R708); SRC and TAG at the device it began at (R722) -/
  replay : Bool := false
  hops : Nat := 0
  orig : Option (Nat × Nat) := none
  agent : Agent
  sentNs : Nat := 0
deriving DecidableEq, Repr

/-- A request that holds a tag (R304, R305): whether it timed out and its tag rests (R306, R307), and what an answer
completes. -/
structure Outst where
  node : Nat
  tc : Nat
  tag : Nat
  agent : Agent
  kind : PKind
  len : Nat := 0
  use : Use := .plain
  timedOut : Bool := false
  sentNs : Nat := 0
  /-- a request for another device, kept for reissue, and how often it was reissued (R735) -/
  pkt : Option Packet := none
  reissues : Nat := 0
  /-- the 128-byte line it accesses, + 1, of the global address space, and the route entry it was sent with (R373) -/
  line : Nat := 0
  route : Option Nat := none
deriving DecidableEq, Repr

/-- An NI register block (Table 7.5). -/
structure Ni where
  cfg : Nat := 0
  routeMultihit : Nat := 0
  routeFallbacks : Nat := 0
  routeRejects : Nat := 0
  regStatus : Nat := 0
  statId : SMap Nat := []
  moves : SMap Nat := []
  ctrl : SMap Nat := []
deriving DecidableEq, Repr

/-- The counts of one initiator ID (R319). -/
structure Stat where
  packets : Nat := 0
  bytes : Nat := 0
  hist : List Nat := List.replicate 16 0
  maxLat : Nat := 0
deriving DecidableEq, Repr

/-- Where a domain's power sequence stands (Tables 7.7 and 7.8). -/
inductive Phase where
  | open_ | draining | down | up
deriving DecidableEq, Repr

/-- A power domain: its sequence, the state it moves to, the time the phase began, and its wake buffer (R309, R313).
-/
structure Domain where
  phase : Phase := .open_
  target : UState := .ready
  sinceNs : Nat := 0
  wakeAfter : Bool := false
  /-- a stop that arrived past the point of no return or during a power-up: it is applied once the sequence ends (R129, Table
  7.12) -/
  next : Option UState := none
  /-- DOMAIN_POLICY in effect when the sequence started (R323) -/
  policy : Option Nat := none
  /-- a core's bin has been closed for the stop under way (R615) -/
  binDone : Bool := false
  parked : List Packet := []
  /-- since when a request has waited for the full wake buffer, + 1; 0 none does (R314) -/
  fullNs : Nat := 0
deriving DecidableEq, Repr

/-- A piece that a unit has read for one of its jobs: its status, bytes and mark. -/
structure BufLine where
  ag : Agent
  job : Nat
  ga : Nat
  n : Nat
  status : Nat
  bytes : List Byte
  mark : Nat
deriving DecidableEq, Repr

/-- The state of the arbiter of one router output on one plane (R295): flits that TC1, TC2 and TC3 have sent in the round, and the
input last served in each class. -/
structure Arbiter where
  used : List Nat := [0, 0, 0]
  last : List Nat := [4, 4, 4, 4]
deriving DecidableEq, Repr

/-- The tile network (chapter 7). -/
structure Network where
  packets : List Packet := []
  nextId : Nat := 0
  outst : List Outst := []
  buf : List BufLine := []
  nis : SMap Ni := []
  /-- arbiters, at node * 8 + 4 on the response plane + direction -/
  arbs : SMap Arbiter := []
  domains : SMap Domain := []
  stats : SMap Stat := []
  snap : SMap Stat := []
  snapTimeNs : Nat := 0
  copying : Bool := false
  snapPending : Option Bool := none
deriving DecidableEq, Repr

/-- An aperture entry: words 0 and 1 of Table 8.3. -/
structure Apt where
  w0 : Nat := 0
  w1 : Nat := 0
deriving DecidableEq, Repr

/-- The aperture control registers of a context (Table 8.5). -/
structure AptCtl where
  status : Nat := 0
  multihit : Nat := 0
  misses : Nat := 0
  lastMiss : Nat := 0
deriving DecidableEq, Repr

/-- A reservation held for a slot of another device (R397). -/
structure RemoteRsv where
  dev : Nat
  req : Nat
  line : Nat
deriving DecidableEq, Repr

/-- The boot entries of CTX0 (R360): VA n GiB, PAGE 1 GiB, VALID; PA MMIO + n GiB, LOCAL, R and W. -/
def bootEntries : SMap Apt :=
  [(0, ⟨0x00000009, 0x2000000000B⟩), (1, ⟨0x40000009, 0x2004000000B⟩),
   (2, ⟨0x80000009, 0x2008000000B⟩), (3, ⟨0xC0000009, 0x200C000000B⟩)]

/-- Memories and translation (chapter 8): contents, poison and injected errors by line, what training found, the map in
effect, aperture tables and their control registers, scrub position. -/
structure Memory where
  cells : List Host.Cell := []
  /-- pellet SEQ + 1 of a poisoned line (R346) -/
  poison : SMap Nat := []
  /-- errors of a stored line that its next read finds: symbols of the line code or bits of SECDED words, and what is added to
  each (R342 to R345) -/
  ecc : SMap (List (Nat × Nat)) := []
  lpMib : List Nat := List.replicate 8 0
  lpRate : List Nat := List.replicate 8 0
  lpFail : Nat := 0
  hbFail : Nat := 0
  hbRepairs : List Nat := List.replicate 4 0
  hbmLinear : Bool := false
  lpLinear : Bool := false
  lpFallback : Bool := false
  /-- LP_RATE_MTS as it stood when bring-up began (Table 8.7) -/
  lpRateMts : Nat := 8533
  inlineEcc : Bool := true
  apt : SMap Apt := bootEntries
  aptCtl : SMap AptCtl := []
  /-- next line of a DRAM unit, or word of an on-die store, that its scrubber reads (R348 to R350) -/
  scrubPos : SMap Nat := []
  logLostRaised : Bool := false
  /-- bytes of each fabric window that the image declares (R364) -/
  fabricWin : List Nat := List.replicate 16 0
  /-- tile to understudy + 1 whose store answers for it (R460) -/
  redirect : SMap Nat := []
  remoteRsv : List RemoteRsv := []
  /-- until when a periodic calibration holds an LP port's accesses (R336) -/
  lpHold : SMap Nat := []
deriving DecidableEq, Repr

end Sys2Proof.Machine
end

