-- ==== Sys2Proof/Machine/PartsD.lean ====
section
/-!
DEFINITION. The parts of the state: matrix tiles with their accumulator banks, spares and hand-overs (chapters 10 and 11),
and vector tiles (chapter 12).
-/
namespace Sys2Proof.Machine

/-- An accumulator bank of one tile (R405 to R410, R434): 96 bits a cell, the saturation state of each accumulator
(1 HIGH, 2 LOW), the pass that last added into it and its checksums (R455, R456). Cell key: row * 256 + column;
accumulator key: cell key * 4 + its place in the 2 x 2 block. -/
structure Bank where
  cells : SMap Nat := []
  sat : SMap Nat := []
  /-- OPW of the last pass + 1; 0 since the bank was zeroed -/
  opw : Nat := 0
  target : Nat := 0
  run : Nat := 0
  checked : Bool := false
  rowCk : SMap Nat := []
  colCk : SMap Nat := []
  poison : Nat := 0
deriving DecidableEq, Repr

/-- A region of tile store: first address, row stride, bytes a row, rows. -/
structure Area where
  addr : Nat
  stride : Nat
  len : Nat
  rows : Nat
deriving DecidableEq, Repr

/-- Stationary operands held for reuse (R442): the pass's own fields and the regions they were read from. -/
structure Held where
  target : Nat
  dflow : Nat
  off : Nat
  ld : Nat
  sign : Bool
  opw : Nat
  k : Nat
  span : Nat
  areas : List Area
deriving DecidableEq, Repr

/-- The conditions of a spare row or column (R431). -/
inductive SpareUse where
  | available | factory | field | retired
deriving DecidableEq, Repr

structure Spare where
  use : SpareUse := .available
  main : Nat := 0
deriving DecidableEq, Repr

/-- How far a tile's hand-over to its understudy has gone (R460, R461). -/
inductive Hand where
  | none_
  | waking (u : Nat)
  | redirected (u : Nat)
  | releasing (u : Nat)
  | ending (u : Nat)
deriving DecidableEq, Repr

/-- A matrix tile. -/
structure Tile where
  cur : Nat := 0
  b0 : Bank := {}
  b1 : Bank := {}
  held : Option Held := none
  /-- spare rows 256 to 263, then spare columns 256 to 263 -/
  spares : List Spare := List.replicate 16 {}
  mismatch : Nat := 0
  carrying : Option Nat := none
  hand : Hand := .none_
  /-- a REPAIR_REQUEST being programmed: its value, and who asked as transport, source address and request header -/
  repair : Option (Nat × Option (Transport × Nat × List Byte)) := none
  /-- repairs the keeper still requests itself (R765) -/
  auto : List Nat := []
deriving DecidableEq, Repr

/-- A vector tile's unit block (Table 12.8). -/
structure VTile where
  lastWord : Nat := 0
  busyCycles : Nat := 0
deriving DecidableEq, Repr

/-- Matrix and vector tiles, and the injections armed for them (R468, R502): value + 1, 0 for none. -/
structure Tiles where
  mxt : SMap Tile := []
  vxt : SMap VTile := []
  inject : Nat := 0
  vxInject : Nat := 0
  /-- passes started, for their order in the arrays (R448) -/
  started : Nat := 0
deriving DecidableEq, Repr

end Sys2Proof.Machine
end

