-- ==== Sys2Proof/Machine/PartsE.lean ====
section
/-!
DEFINITION. The parts of the state: epoch domains, table descriptors, hot-row tags, gather engines, phase maps and the
collective engine (chapter 13), modulus chains, cipher tiles and the DRBG (chapter 14).
-/
namespace Sys2Proof.Machine

/-- Where a boundary commit stands (Table 13.6). -/
inductive Commit where
  | idle | holding | applied
deriving DecidableEq, Repr

/-- An epoch domain: its commit, a latched trigger, commits counted for waits (R228), values applied at C2. -/
structure EpochDom where
  commit : Commit := .idle
  again : Bool := false
  commits : Nat := 0
  applied : Nat := 0
  /-- device time of the last trigger by TIMER -/
  tickNs : Nat := 0
deriving DecidableEq, Repr

/-- Epoch domains, the output pins and what waits for a commit: staged CFGW values as (unit, REG, value), and UNIT_DOMAIN
writes held until C3 (R229, R539, R541). `outLow` is the time + 1 at which EPOCH_OUT[n] goes low. -/
structure Epochs where
  doms : SMap EpochDom := []
  outLow : SMap Nat := []
  cfgw : List (Nat × Nat × Nat) := []
  moves : List (Nat × Nat) := []
deriving DecidableEq, Repr

/-- The device DRBG (R567): seeded, its source healthy, and generate requests since it was seeded. -/
structure Drbg where
  seeded : Bool := false
  healthy : Bool := true
  requests : Nat := 0
deriving DecidableEq, Repr

/-- A modulus chain (Table 14.3): its control word, q and ψ by modulus index, and what the read-only fields were computed from
when it was last made valid. `closing` is a write with VALID 0 that waits for started operations, + 1 (R554). -/
structure Chain where
  ctrl : Nat := 0
  q : SMap Nat := []
  psi : SMap Nat := []
  loadedQ : SMap Nat := []
  loadedPsi : SMap Nat := []
  loadedN : Nat := 0
  closing : Nat := 0
deriving DecidableEq, Repr

/-- A cipher tile's unit block (Table 14.9). -/
structure Cat where
  lastWord : Nat := 0
  busyCycles : Nat := 0
deriving DecidableEq, Repr

/-- Chains, cipher tiles and the armed injection, + 1 (R577). -/
structure Cipher where
  chains : SMap Chain := []
  status : Nat := 0
  cats : SMap Cat := []
  inject : Nat := 0
deriving DecidableEq, Repr

/-- A hot-row tag whose row is being copied (R521), and the request that wrote it. -/
structure TagCopy where
  slot : Nat
  value : Nat
  req : Option Packet
  /-- the row is read, and its write to the slot is on its way -/
  wrote : Bool := false
deriving DecidableEq, Repr

/-- A chunk of a bag's lookups, all of one owner, and one slice (R512): (local row, weight) pairs in entry order. -/
structure Chunk where
  owner : Nat
  no : Nat
  slice : Nat
  rows : List (Nat × Nat)
deriving DecidableEq, Repr

/-- A partial of a bag (R512, R515, R516): whether it is complete, its response flits so far, FP32 elements or the bytes of a
copied row as they stand in the response stream, and their mark. -/
structure Part where
  chunk : Chunk
  done : Bool := false
  segs : Nat := 0
  buf : List Byte := []
  mark : Nat := 0
deriving DecidableEq, Repr

/-- A bag being pooled. -/
structure Bag where
  no : Nat
  lookups : Nat
  todo : List Chunk
  parts : List Part
  mark : Nat := 0
deriving DecidableEq, Repr

/-- A gather engine: the GXOP it runs, the next bag, the bags in work, what it has found, and the requests it serves
(R508 to R514, R524). -/
structure Gather where
  op : Option Nat := none
  nextBag : Nat := 0
  bags : List Bag := []
  stop : Nat := 0
  sticky : Nat := 0
  mark : Nat := 0
  serve : List Packet := []
  /-- time + 1 since which the limit on lookups in flight holds the engine (R524) -/
  limitNs : Nat := 0
deriving DecidableEq, Repr

/-- A schedule step in flight (R529): its index, the bytes of the step, whether its wait still runs and since when, and how
many bytes it has moved. -/
structure StepRun where
  idx : Nat
  bytes : List Byte
  waiting : Bool
  sinceNs : Nat
  pos : Nat := 0
  /-- its post to another device is on its way -/
  posted : Bool := false
deriving DecidableEq, Repr

/-- The collective engine: the operation it runs and its steps (R528 to R533), phase maps and the current phase. -/
structure Coll where
  op : Option Nat := none
  next : Nat := 0
  flying : List StepRun := []
  done : List Nat := []
  fail : Option (Nat × Nat) := none
  sticky : Nat := 0
  mark : Nat := 0
  current : Nat := 0
  maps : SMap Nat := []
deriving DecidableEq, Repr

/-- Tables and phases (chapter 13). Descriptor word w of table t is at key t * 8 + w. -/
structure Tables where
  desc : SMap Nat := []
  tags : SMap Nat := []
  copies : List TagCopy := []
  regStatus : Nat := 0
  ge : SMap Gather := []
  coll : Coll := {}
deriving DecidableEq, Repr

end Sys2Proof.Machine
end

