-- ==== Sys2Proof/Machine/PartsF.lean ====
section
/-!
DEFINITION. The parts of the state: sensor ports and spiking event cores (chapter 15), and the logic fabric with its
configuration controller and ports (chapter 16).
-/
namespace Sys2Proof.Machine

/-- A layer block as it was applied or staged (Tables 15.4 and 15.5): which block, its 1,152 bytes, and the context and ring of
the program that ran LAYER (R605, R621). -/
structure Layer where
  which : Nat
  bytes : List Byte
  ctx : Nat
  ring : Nat
deriving DecidableEq, Repr

/-- A bin that is being written (R605): the place and bytes of what is still to write, and the FILL post it ends with. -/
structure BinOut where
  todo : List (Nat × List Byte)
  mark : Nat
  pair : Nat
  dev : Nat
  epoch : Bool
  replay : Bool
deriving DecidableEq, Repr

/-- A spiking event core. Neuron state, kernels, count buffers and layer blocks stand in its kernel store (R597). -/
structure Sec where
  /-- queued event words, oldest first, with the mark of the beat that brought each -/
  queue : List (Nat × Nat) := []
  running : Bool := false
  layer : Option Layer := none
  staged : Option Layer := none
  /-- the current count buffer, and the store units' time of the last event -/
  cur : Nat := 0
  coreTime : Nat := 0
  /-- the current bin: whether it has begun (TS), its start, first and last timestamps, and what its record will hold -/
  binOpen : Bool := false
  binSeq : Nat := 0
  tStart : Nat := 0
  firstT : Option Nat := none
  lastT : Nat := 0
  eventsIn : Nat := 0
  dropped : Nat := 0
  spikes : Nat := 0
  sats : Nat := 0
  lossy : Bool := false
  changed : Bool := false
  mark : Nat := 0
  /-- LOSS for the next spike word (R609) -/
  loss : Bool := false
  batch : List Nat := []
  batchSeq : Nat := 0
  slotNo : Nat := 0
  outs : List BinOut := []
  /-- spike words for another core's queue that wait for a tag: address, word, mark (R293, R304) -/
  spq : List (Nat × Nat × Nat) := []
deriving DecidableEq, Repr

/-- A sensor port. -/
structure Sp where
  tHigh : Nat := 0
  /-- events made and not delivered, with their marks (R592) -/
  fifo : List (Nat × Nat) := []
  /-- LOSS for the next event word delivered (R586), the mark for the next beat (R584), the armed injection (R622) -/
  loss : Bool := false
  pendMark : Nat := 0
  armed : Bool := false
  /-- FRAME_TILE: a capture is in progress, its slot, next line, frame number, and the line bytes still to write -/
  inFrame : Bool := false
  slot : Nat := 0
  line : Nat := 0
  frame : Nat := 0
  todo : List (Nat × Nat × List Byte × Nat × Bool) := []
  /-- captured frames whose FE has come and whose lines are not all visible -/
  ended : List Nat := []
  frBase : Nat := 0
  frCfg : Nat := 0
  regStatus : Nat := 0
deriving DecidableEq, Repr

/-- Sensor ports and cores. -/
structure Events where
  secs : SMap Sec := []
  sps : SMap Sp := []
deriving DecidableEq, Repr

/-- A region of the fabric (R625): its state (0 UNCONFIGURED, 1 LOADING, 2 RUNNING, 3 FAULTED), what its image set, and its
configuration words with the stored bits that differ from the written ones (bits 63:0 data, 71:64 check). -/
structure Region_ where
  st : Nat := 0
  fclkMhz : Nat := 0
  vio : Nat := 0
  flags : Nat := 0
  winLog2 : Nat := 0
  esig : Nat := 0
  frames : SMap Nat := []
  upset : SMap Nat := []
deriving DecidableEq, Repr

/-- A request of a fabric master that is not yet answered (R646), and its answer once it has come: status, poison mark, data. -/
structure MReq where
  oid : Nat
  tag : Nat
  mmio : Bool
  ans : Option (Nat × Nat × List Byte) := none
deriving DecidableEq, Repr

/-- A request that a fabric master makes (Table 16.5). -/
structure FpReq where
  cmd : Nat
  addr : Nat
  len : Nat
  oid : Nat
  tc : Nat
  poison : Bool
  op : Nat
  data : List Byte
deriving DecidableEq, Repr

/-- A fabric port: master requests outstanding, those that wait in the FPORT, oldest first, and target requests passed to the
fabric, by TAG (R646, R648). -/
structure Fport where
  masters : List MReq := []
  waiting : List FpReq := []
  nextTag : Nat := 0
  targets : List (Nat × Packet) := []
deriving DecidableEq, Repr

/-- A load (R634, R635): its step (0 none, 1 L1, 2 L2–L3, 3 L4, 4 L5), source, range, header, the bytes a STREAM brought, and
the failure found after L1. -/
structure Load where
  step : Nat := 0
  source : Nat := 0
  addr : Nat := 0
  len : Nat := 0
  boot : Bool := false
  header : List Byte := []
  body : List Byte := []
  got : Nat := 0
  fail : Option Nat := none
deriving DecidableEq, Repr

/-- The logic fabric and its configuration controller. -/
structure Fabric where
  regions : SMap Region_ := []
  ports : SMap Fport := []
  load : Load := {}
  cfgAddr : Nat := 0
  cfgLen : Nat := 0
  lastMask : Nat := 0
  regStatus : Nat := 0
  /-- next frame of the scrubber: region * 1280 + frame -/
  scrubPos : Nat := 0
  /-- the configuration controller waits for a host image (Table 2.9) -/
  waitHost : Bool := false
  /-- values of CFG_DATA writes that are held while a load pauses (R639) -/
  heldData : List Nat := []
deriving DecidableEq, Repr

end Sys2Proof.Machine
end

