-- ==== Sys2Proof/Machine/PartsG.lean ====
section
/-!
DEFINITION. The parts of the state: Phidun lanes and ports (chapter 17) and the Phidun link (chapter 18).
-/
namespace Sys2Proof.Machine

/-- One lane. `step` is its creance step (Table 17.4; 0 LOFF); `tx` and `rx` its power states: 0 L0, 1 LQ, 2 LS, 3 LOFF. After reset
they are in LOFF, as Table 2.8 says, where Table 17.8 gives LANE_STATUS 0 (R8; DESIGN CHOICE, log 49; unsafe). -/
structure Lane where
  step : Nat := 0
  tx : Nat := 3
  rx : Nat := 3
  los : Bool := false
  lol : Bool := false
  excluded : Bool := false
  miscabled : Bool := false
  /-- consecutive valid headers, those of them with STEP 1 and HEARD, those whose RATE_SEL is ours; each up to 8 -/
  good : Nat := 0
  heard : Nat := 0
  sel : Nat := 0
  /-- a header with STEP 2 came since the port entered RATE; a header with READY came in this step -/
  sawRate : Bool := false
  partnerReady : Bool := false
  /-- the last valid header -/
  hdr : Nat := 0
  /-- coefficients in force and the answers to the partner's requests (R677) -/
  pre : Int := 0
  main : Int := 0
  post : Int := 0
  stsPre : Nat := 0
  stsMain : Nat := 0
  stsPost : Nat := 0
  ctle : Nat := 0
  taps : List Int := List.replicate 12 0
  /-- the pattern checker: locked, and has it been locked since it was started -/
  locked : Bool := false
  relock : Bool := false
  recalDue : Bool := false
  recalLate : Bool := false
  inject : Nat := 0
  /-- since when the checker counts and the injector runs (R696, R697) -/
  lockNs : Nat := 0
  injectNs : Nat := 0
  /-- TX_FFE as step FFE uses it; RX_CTLE and RX_DFE_CTRL as the creance used them, and as they read when it no longer did (R701) -/
  ffeAt : Nat := 0
  ctleAt : Nat := 0
  ctleEnd : Nat := 0
  dfeAt : Nat := 0
  dfeEnd : Nat := 0
deriving DecidableEq, Repr

/-- A link flit: its 128-bit header and 128 bytes of payload (R707, R708). -/
structure LinkFlit where
  hdr : Nat
  payload : List Byte
deriving DecidableEq, Repr

/-- A request received over a port and not yet answered (R722). -/
structure Rcvd where
  id : Nat
  src : Nat
  tag : Nat
  tc : Nat
  kind : PKind
  addr : Nat
deriving DecidableEq, Repr

/-- One Phidun port. `step` is its creance step with 0 LOFF and 8 DISABLED. -/
structure Phy where
  step : Nat := 0
  rate : Nat := 0
  rateSel : Option Nat := none
  switched : Bool := false
  /-- when the lanes last switched their rate (R685) -/
  switchNs : Nat := 0
  /-- when the port entered RATE (R673) -/
  rateNs : Nat := 0
  maxRate : Nat := 3
  laneMask : Nat := 0xFF
  exclRates : Nat := 0
  fails : Nat := 0
  failSel : Option Nat := none
  set : Nat := 0
  running : Nat := 0
  partner : Option (Nat × Nat) := none
  conflict : Bool := false
  /-- PH_REQUIRED_DOWN has been raised for the present time out of UP (R682) -/
  graceSaid : Bool := false
  /-- link framing has started (R680) -/
  framing : Bool := false
  /-- HOOD and OPEN as sent and received since link-up (R732) -/
  hoodTx : Bool := false
  hoodRx : Bool := false
  openTx : Bool := false
  openRx : Bool := false
  /-- sequencing and replay (R711 to R715) -/
  txSeq : Nat := 0
  unacked : List (Nat × LinkFlit) := []
  replays : Nat := 0
  rxSeq : Nat := 0
  nak : Bool := false
  nakGiven : Bool := false
  /-- bits of a flit that straddles into the next codeword: how many and what they hold; none after a codeword failure -/
  part : Option (Nat × Nat) := some (0, 0)
  badCodewords : Nat := 0
  accepted : Nat := 0
  credits : List Nat := List.replicate 8 32
  creditSeen : List Nat := List.replicate 8 0
  freed : List Nat := List.replicate 8 0
  freedSince : List Nat := List.replicate 8 0
  /-- accepted transaction flits and link-control headers that wait to be taken, and what waits to be sent -/
  rx : List LinkFlit := []
  ctl : List Nat := []
  txq : List Packet := []
  /-- requests sent and not answered, those ended by a drop notice, requests received and not answered -/
  sent : List Packet := []
  noticed : List (Nat × Nat × Nat) := []
  rcvd : List Rcvd := []
  nextReq : Nat := 0
  /-- power state announced to the partner and not acknowledged; lane set being switched to; the lane that idles for the
  partner's recalibration, and until when (R728 to R731) -/
  pmWait : Option Nat := none
  laneReq : Option Nat := none
  window : Option (Nat × Nat) := none
  /-- since when the replay buffer is full, + 1; 0 it is not (R714) -/
  fullNs : Nat := 0
deriving DecidableEq, Repr

/-- Lanes, by 8 n + lane, and ports. -/
structure Links where
  lanes : SMap Lane := []
  ports : SMap Phy := []
deriving DecidableEq, Repr

end Sys2Proof.Machine
end

