-- ==== Sys2Proof/Machine/State.lean ====
section
/-!
DEFINITION. The state of the P64 as one block: everything the spec gives the machine, the queue of waiting commands, what
has left the chip, and the model's own free-value counter. Every default is the reset value; INVENTORY.md lists them.
-/
namespace Sys2Proof.Machine

/-- How a station of 10BASE-T1S reaches its medium (R100): CSMA/CD, or PLCA under its node ID, with the number of nodes it
coordinates where it is the coordinator, the transmit-opportunity timer in bit times and the extra frames of a burst
(Table 3.13). -/
inductive MediaAccess where
  | csmaCd
  | plca (node : Nat) (coordinates : Option Nat) (toTimer burst : Nat)
deriving DecidableEq, Repr

/-- What leaves the chip, oldest first: management frames, PCIe traffic, link flits and pin changes. -/
inductive Output where
  /-- an FD base-format data frame: its bits FDF and BRS, its identifier and data field (R96) -/
  | can (ident : Nat) (fdf brs : Bool) (data : List Byte)
  /-- an Ethernet II frame: destination, source, EtherType and payload, and the access to the medium with which it is sent
  (R98, R100) -/
  | eth (dst src etherType : Nat) (access : MediaAccess) (payload : List Byte)
  | msix (fn vector addr data : Nat)
  | cfgAnswer (retry : Bool) (value : Nat)
  | hostWrite (fn addr : Nat) (data : List Byte)
  | hostRead (fn tag addr len : Nat)
  | bar2Data (fn addr : Nat) (data : List Byte) (ep : Bool)
  | bar2Abort (fn addr : Nat)
  | bar0Data (fn offset size value : Nat)
  | epochOut (n : Nat) (level : Bool)
  | xspiRead (addr len : Nat)
  | link (port header : Nat) (payload : List Byte)
  | fportAnswer (port oid status pseq : Nat) (poison : Bool) (data : List Byte)
  | fportTarget (port tag cmd offset len op : Nat) (data : List Byte) (poison : Bool) (pseq : Nat)
  | fportItem (port mark sp vc dt : Nat) (data : List Byte) (poison : Bool) (pseq : Nat)
deriving DecidableEq, Repr

/-- Why a step stops with a fault. No rule of the spec stops the machine as a whole: every failure it names is a status, a
recorded event or the safe state, all of them next states. -/
inductive Fault where
  /-- raised by no meaning; the machine has no fault that ends it (safe: it adds no behaviour) -/
  | none_
deriving DecidableEq, Repr

/-- Why a step refuses a command. -/
inductive Refusal where
  /-- answered by an arm of exec for a command that has no meaning yet (safe: a claim about it cannot be proved) -/
  | notModelled (mnemonic : String)
deriving DecidableEq, Repr

/-- The status of one unit as the keeper captured it when the unit last entered OFF, MEWS or TEST (R81): its counters in the
dictionary, and the records that its status objects show. -/
structure Capture where
  dict : SMap W64
  tile : Tile
  vxt : VTile
  cat : Cat
  phy : Phy
  lanes : SMap Lane
  lpMib : Nat
  lpRate : Nat
  hbRepairs : Nat
deriving DecidableEq, Repr

structure State where
  /-- commands that wait, first in first out -/
  pending : List Instr := []
  /-- what has left the chip, oldest first -/
  out : List Output := []
  /-- the model's own counter of free values drawn; no statement rests on its value -/
  freeCtr : Nat := 0
  /-- 0x6900:0B DEVICE_TIME_NS -/
  timeNs : Nat := 0
  /-- the fused variant (R1, R2) and whether the profile fuses are valid (R13) -/
  variant : Variant := .d
  fusesOk : Bool := true
  /-- values of dictionary objects that differ from their defaults; key INDEX * 256 + SUBINDEX -/
  dict : SMap W64 := []
  /-- values of BLOCK and STR objects -/
  blocks : SMap (List Byte) := []
  sup : Supply := {}
  ucbs : SMap Ucb := []
  oap : Oap := {}
  agg : Aggregator := {}
  safety : Safety := {}
  cool : Cooling := {}
  host : HostLink := {}
  seqs : SMap Sequencer := []
  nextOp : Nat := 0
  str : Streams := {}
  net : Network := {}
  mem : Memory := {}
  tiles : Tiles := {}
  ep : Epochs := {}
  tab : Tables := {}
  cat : Cipher := {}
  drbg : Drbg := {}
  ev : Events := {}
  fab : Fabric := {}
  link : Links := {}
  /-- what the keeper captured of sleeping units (R81) -/
  captured : SMap (Option Capture) := []
deriving DecidableEq, Repr

/-- The machine right after a cold reset: S0, nothing queued, memory with nothing listed, every register at the value the
spec states, or the assumption log names (DESIGN CHOICE and PRESUMED, logs 5, 10 and 13; unsafe). -/
def State.reset : State := {}

end Sys2Proof.Machine
end

