-- ==== Sys2Proof/Machine/Ops.lean ====
section
/-!
DEFINITION. The named operations every chapter shares: status codes, dictionary values, units and their control blocks,
outputs, free values, interrupts, the error aggregator, the safe state and the pellet log.
-/
namespace Sys2Proof.Machine

/-- The outcome of a command. -/
abbrev Res := Host.Outcome State Fault Refusal

/-- A command with an occasion: its effect where the occasion holds, else the state as it is (DESIGN CHOICE, log 2). -/
def occ (c : Bool) (s t : State) : Res := .next (if c then t else s)

/-- Nanoseconds of device time that one idle step takes: one TS tick (R12; DESIGN CHOICE, log 9). -/
def tickNs : Nat := 40

/-- Device time goes on by `tickNs`; nothing else changes. -/
def State.idle (s : State) : State := { s with timeNs := (s.timeNs + tickNs) % 2 ^ 64 }

/-- Where the state keeps the moment from which a limit runs, the row of that limit acts once device time has reached it; the
other rows of time say themselves that it has passed (DESIGN CHOICE, log 9). -/
def State.passed (s : State) (since ns : Nat) : Bool := decide (since + ns ≤ s.timeNs)

/-! Status codes (Table 1.8). -/
namespace Sc
abbrev ok : Nat := 0x00
abbrev okEmpty : Nat := 0x01
abbrev okPoisoned : Nat := 0x02
abbrev okException : Nat := 0x03
abbrev illegalOp : Nat := 0x10
abbrev reservedNonzero : Nat := 0x11
abbrev boundViolation : Nat := 0x12
abbrev alignment : Nat := 0x13
abbrev apertureMiss : Nat := 0x14
abbrev accessDenied : Nat := 0x15
abbrev levelMismatch : Nat := 0x16
abbrev levelUnderflow : Nat := 0x17
abbrev checksumMismatch : Nat := 0x18
abbrev unitDisabled : Nat := 0x20
abbrev unitHooded : Nat := 0x21
abbrev domainOff : Nat := 0x22
abbrev testDeferred : Nat := 0x23
abbrev stateConflict : Nat := 0x24
abbrev linkLost : Nat := 0x30
abbrev linkAbsent : Nat := 0x31
abbrev indeterminate : Nat := 0x32
abbrev remoteFault : Nat := 0x33
abbrev timeout : Nat := 0x40
abbrev overrun : Nat := 0x41
abbrev internalFault : Nat := 0x7F
end Sc

/-- A program-fault status of R237. -/
def isFaultStatus (st : Nat) : Bool := 0x10 ≤ st && st ≤ 0x17

/-- An ending status of R237. -/
def isEndingStatus (st : Nat) : Bool :=
  st == Sc.unitDisabled || st == Sc.timeout || st == Sc.overrun || st == Sc.indeterminate || st == Sc.internalFault

/-- A status of R238, which becomes sticky. -/
def isStickyStatus (st : Nat) : Bool :=
  st == Sc.checksumMismatch || st == Sc.unitHooded || st == Sc.domainOff || st == Sc.testDeferred ||
  st == Sc.stateConflict || st == Sc.linkLost || st == Sc.linkAbsent || st == Sc.remoteFault

/-! Dictionary values. -/

/-- The row of an object, by key. -/
def objRow (key : Nat) : Option ORow :=
  objRows.find? fun r =>
    r.iLo ≤ key / 256 && key / 256 ≤ r.iHi && r.sLo ≤ key % 256 && key % 256 ≤ r.sHi

/-- The default of an object in a variant (R8, R10 and the chapters' tables). MXT_ROLE and UNDERSTUDY of an RBR-P64-V
depend on the tile's row (Table 11.6). -/
def objDefault (vr : Variant) (key : Nat) : Nat :=
  match objRow key with
  | none => 0
  | some r =>
    match vr with
    | .d => r.dD
    | .v =>
      if key / 256 = 0x2401 then (if (key % 256 - 1) / 8 < 2 then 1 else 0)
      else if key / 256 = 0x2402 then
        (if (key % 256 - 1) / 8 < 2 then 0xFF
         else ((key % 256 - 1) / 8 % 2) * 8 + (key % 256 - 1) % 8)
      else r.dV

/-- The stored value of an object. -/
def State.obj (s : State) (key : Nat) : Nat :=
  (SMap.get (BitVec.ofNat 64 (objDefault s.variant key)) s.dict key).toNat

/-- Store a value of an object. -/
def State.setObj (s : State) (key v : Nat) : State :=
  { s with dict := SMap.set (BitVec.ofNat 64 (objDefault s.variant key)) s.dict key (BitVec.ofNat 64 v) }

/-- A Boolean object. -/
def State.flag (s : State) (key : Nat) : Bool := s.obj key == 1

/-- Add to a 32-bit counter object, saturating (R35). -/
def State.bump (s : State) (key : Nat) (n : Nat := 1) : State := s.setObj key (satBump 32 (s.obj key) n)

/-- Add to a 64-bit counter object, saturating. -/
def State.bump64 (s : State) (key : Nat) (n : Nat := 1) : State := s.setObj key (satBump 64 (s.obj key) n)

/-- The bytes of a BLOCK or STR object. -/
def State.block (s : State) (key : Nat) : List Byte := SMap.get [] s.blocks key

def State.setBlock (s : State) (key : Nat) (v : List Byte) : State :=
  { s with blocks := SMap.set [] s.blocks key v }

/-- This device's ID in global addresses (R17). -/
def State.devId (s : State) : Nat := s.obj Obj.DEVICE_ID

/-- The fused top figures (Table 0.7). -/
def State.pcapMaxW (s : State) : Nat := match s.variant with | .v => 350 | .d => 900
def State.tclkMaxMhz (s : State) : Nat := match s.variant with | .v => 1000 | .d => 1250
def State.tjLimit (s : State) : Nat := match s.variant with | .v => 105 | .d => 110
def State.phPorts (s : State) : Nat := match s.variant with | .v => 4 | .d => 20

/-- The bring-up stage. -/
def State.stage (s : State) : Nat := s.obj Obj.BRINGUP_STAGE

/-! Units (Tables 3.9 and 19.3): unit u from 0 to 200 in class order. -/

/-- First unit number of each class, and one past the last. -/
def classBase : List Nat := [0, 64, 96, 104, 120, 128, 144, 164, 172, 176, 192, 200, 201]

/-- The class of a unit. -/
def unitClass (u : Nat) : Nat := (classBase.filter (· ≤ u)).length - 1

/-- The number of a unit within its class. -/
def unitIndex (u : Nat) : Nat := u - classBase.getD (unitClass u) 0

/-- The unit of a class and number. -/
def unitOf (cls n : Nat) : Nat := classBase.getD cls 0 + n

/-- Units of a class (Table 3.9). -/
def classCount (cls : Nat) : Nat := classBase.getD (cls + 1) 0 - classBase.getD cls 0

/-- Whether a unit is present in the variant: PH4 to PH19 are absent in an RBR-P64-V (R3). -/
def State.present (s : State) (u : Nat) : Bool :=
  u < 201 && !(148 ≤ u && u < 164 && s.variant == .v)

/-- The node a unit attaches to, as y * 16 + x (Table 1.1, R14). Memory controllers are named by their first node. -/
def unitNode (u : Nat) : Nat :=
  let n := unitIndex u
  match unitClass u with
  | 0 => (n / 8 + 2) * 16 + (n % 8 + 4)
  | 1 => if n < 16 then (2 + n / 2) * 16 + (2 + n % 2) else (2 + (n - 16) / 2) * 16 + (12 + n % 2)
  | 2 => 16 + 4 + n
  | 3 => 160 + 4 + n / 2
  | 4 => if n < 4 then 16 + 2 + n / 2 else 16 + 10 + n / 2
  | 5 => (2 + n / 2) * 16 + 14
  | 6 => if n / 2 < 4 then n / 2 else if n / 2 < 8 then n / 2 + 8 else 16 + (n / 2 - 8)
  | 7 => (2 + n) * 16
  | 8 => if n < 2 then 4 + 4 * n else 176 + 4 + 4 * (n - 2)
  | 9 => if n < 8 then (2 + n) * 16 + 15 else if n < 12 then 160 + (n - 8) else 160 + n
  | 10 => (2 + n) * 16 + 1
  | _ => 176

/-- The encoding of a UCB state (Table 1.9). -/
def UState.code : UState → Nat
  | .off => 0 | .mews => 1 | .hooded => 2 | .ready => 3 | .busy => 4 | .quiescing => 5 | .test => 6 | .faulted => 7

def State.ucb (s : State) (u : Nat) : Ucb := SMap.get {} s.ucbs u

/-- The unit an object is homed in, where its table names one unit (chapters 2, 3, 7, 11, 13, 15 to 18). -/
def keyHome (key : Nat) : Option Nat :=
  let i := key / 256
  let n := key % 256 - 1
  if key % 256 = 0 then none
  else if i = 0x2401 || i = 0x2402 || i = 0x4410 then some n
  else if (0x2700 ≤ i && i ≤ 0x2707) || (0x4700 ≤ i && i ≤ 0x4702) || i = 0x2D02 then some (unitOf 4 n)
  else if 0x4710 ≤ i && i ≤ 0x4717 then some (unitOf 4 (i - 0x4710))
  else if 0x2720 ≤ i && i ≤ 0x2722 then some (unitOf 3 n)
  else if 0x2820 ≤ i && i ≤ 0x282B then some (unitOf (i - 0x2820) n)
  else if 0x2B10 ≤ i && i ≤ 0x2B1B then some (unitOf (i - 0x2B10) n)
  else if i = 0x2D01 || i = 0x4D01 then some (unitOf 9 n)
  else if (0x2E00 ≤ i && i ≤ 0x2E05) || i = 0x2E80 || (0x4E10 ≤ i && i ≤ 0x4E12) || i = 0x4E81 then some (unitOf 6 n)
  else if 0x4E00 ≤ i && i ≤ 0x4E09 then some (unitOf 6 (n / 8))
  else none

/-- The unit a status object or UCB view shows, or in which a configuration object is homed. -/
def objUnit (key : Nat) : Option Nat :=
  let i := key / 256
  let n := key % 256 - 1
  let h := i / 256
  if key % 256 = 0 then none
  else if h = 0x23 || h = 0x63 then some (unitOf (i % 256) n)
  else if 0x6401 ≤ i && i ≤ 0x6403 then some n
  else if i = 0x6501 then some (unitOf 1 n)
  else if i = 0x6601 then some (unitOf 2 n)
  else if 0x6700 ≤ i && i < 0x6720 then some (unitOf 4 n)
  else if 0x6720 ≤ i && i < 0x6800 then some (unitOf 3 n)
  else if i = 0x6C10 || i = 0x6C11 then some (unitOf 7 n)
  else if i = 0x6C12 then some (unitOf 8 n)
  else if 0x6D10 ≤ i && i ≤ 0x6D14 then some (unitOf 9 n)
  else if (0x6E00 ≤ i && i ≤ 0x6E09) || (0x6E80 ≤ i && i ≤ 0x6E8A) then some (unitOf 6 n)
  else if 0x6E10 ≤ i && i ≤ 0x6E1A then some (unitOf 6 (n / 8))
  else keyHome key

/-- The states in which the keeper answers for a unit's objects (R80, R81). -/
def UState.sleeps : UState → Bool
  | .off | .mews | .test => true
  | _ => false

/-- What the status objects of a unit show now (R81). -/
def State.capture (s : State) (u : Nat) : Capture :=
  let n := unitIndex u
  { dict := s.dict.filter fun e => decide (0x600000 ≤ e.1) && objUnit e.1 == some u
    tile := SMap.get {} s.tiles.mxt n, vxt := SMap.get {} s.tiles.vxt n, cat := SMap.get {} s.cat.cats n
    phy := SMap.get {} s.link.ports n, lanes := s.link.lanes.filter fun e => e.1 / 8 == n
    lpMib := s.mem.lpMib.getD n 0, lpRate := s.mem.lpRate.getD n 0, hbRepairs := s.mem.hbRepairs.getD n 0 }

/-- Change a unit's control block. The keeper's mirror follows each UCB change (R131), and its status is captured as it enters
OFF, MEWS or TEST (R81). -/
def State.setUcb (s : State) (u : Nat) (b : Ucb) : State :=
  { s with
    ucbs := SMap.set {} s.ucbs u b, oap := { s.oap with mirror := SMap.set 0 s.oap.mirror u b.st.code }
    captured := if b.st.sleeps && (s.ucb u).st != b.st then SMap.set none s.captured u (some (s.capture u)) else s.captured }

def State.unitSt (s : State) (u : Nat) : UState := (s.ucb u).st

def State.setUnitSt (s : State) (u : Nat) (st : UState) : State := s.setUcb u { s.ucb u with st := st }

/-! Outputs and free values. -/

def State.emit (s : State) (o : Output) : State := { s with out := s.out ++ [o] }

/-- Draw a free word (DESIGN CHOICE, log 3). -/
def State.draw (s : State) : W64 × State := (Config.freeWord s.freeCtr, { s with freeCtr := s.freeCtr + 1 })

/-- `n` free words. -/
def State.drawN : Nat → State → List W64 × State
  | 0, s => ([], s)
  | n + 1, s => let r := State.drawN n s.draw.2; (s.draw.1 :: r.1, r.2)

/-- `n` free bytes. -/
def State.drawBytes (s : State) (n : Nat) : List Byte × State :=
  let r := s.drawN (cdiv n 8)
  ((r.1.flatMap fun w => leBytes 8 w.toNat).take n, r.2)

/-! Interrupts. -/

def State.vec (s : State) (fn v : Nat) : Vector_ := SMap.get {} s.host.vectors (fn * 2048 + v)

def State.setVec (s : State) (fn v : Nat) (x : Vector_) : State :=
  { s with host := { s.host with vectors := SMap.set {} s.host.vectors (fn * 2048 + v) x } }

/-- Vectors of a function (R141). -/
def State.vectorCount (s : State) (fn : Nat) : Nat := if fn = 0 then 1024 else s.host.vfMsix

/-- Raise an MSI-X vector: sent at once, or held in its PBA bit while it or its function is masked, MSI-X is off or the
link is down (R172, R180), or its function in D3hot. -/
def State.raiseVector (s : State) (fn v : Nat) : State :=
  let x := s.vec fn v
  if v < s.vectorCount fn then
    if x.masked || SMap.get false s.host.fnMask fn || !(SMap.get false s.host.msixOn fn) || !s.host.linkUp ||
       SMap.get 0 s.host.power fn != 0 then
      s.setVec fn v { x with pba := true }
    else s.emit (.msix fn v x.addr x.data)
  else s

/-- IRQ_ROUTE entry e: VALID, VECTOR, FUNC, SRC_HI, SRC_LO (Table 4.4). -/
def irqMatches (w src : Nat) : Bool := bit w 63 && bits w 0 9 ≤ src && src ≤ bits w 16 9

/-- The interrupt of an error event (R182): the lowest-numbered matching route. -/
def State.routeError (s : State) (src : Nat) : State :=
  match (s.host.irqRoute.filter fun e => irqMatches e.2 src) with
  | [] => s
  | (_, w) :: rest =>
    let s := if rest.isEmpty then s
      else { s with host := { s.host with irqMultihit := satBump 32 s.host.irqMultihit 1 } }
    s.raiseVector (bits w 32 6) (bits w 48 11)

/-- A status ends what it met: a program fault or an ending status (R237). -/
def endsProgram (st : Nat) : Bool := isFaultStatus st || isEndingStatus st

/-! OAP events (R133). -/

/-- The 20-byte event PDU of Table 3.3. -/
def eventPdu (index sub status : Nat) (value : List Byte) : List Byte :=
  [0xC0, 0] ++ leBytes 2 index ++ leBytes 1 sub ++ leBytes 1 status ++ leBytes 2 0 ++ leBytes 2 8 ++ leBytes 2 8 ++
    padTo 8 value

/-- Frame data padded with zeros to the next length a CAN FD DLC encodes (Table 3.6). -/
def canPad (bs : List Byte) : List Byte :=
  padTo (([8, 12, 16, 20, 24, 32, 48, 64].find? fun n => bs.length ≤ n).getD 64) bs

/-- The value of an object of 0x1100 to 0x11FF in effect on its transport (R135). -/
def State.inEffect (s : State) (key : Nat) : Nat :=
  (SMap.get (BitVec.ofNat 64 (objDefault s.variant key)) s.oap.inEffect key).toNat

/-- Whether the management transmit pins are driven: from S1 and not while the keeper is
held in reset (Table 2.8), and in the safe state only under SAFE_MGMT KEEP (R755). -/
def State.mgmtDriven (s : State) : Bool :=
  decide (1 ≤ s.stage) && !s.sup.keeperHeld && (!s.safety.safe || s.obj Obj.SAFE_MGMT == 0)

/-- Queue an event for the mailbox: discarded and counted when 16 wait. The first of the queue sets EVT_VALID, which raises the
vector (R103). -/
def State.mbxEvent (s : State) (pdu : List Byte) : State :=
  if s.oap.evtQ.length < 16 then
    let t : State := { s with oap := { s.oap with evtQ := s.oap.evtQ ++ [pdu] } }
    if s.oap.evtQ.isEmpty then t.raiseVector 0 0 else t
  else s.bump Obj.OAP_OVERRUNS

/-- How the device reaches the 10BASE-T1S medium (R100): PLCA with its node ID, as the coordinator where that is 0, or CSMA/CD
under node ID 0xFF. The turns of the bus themselves go with time (log 42). -/
def State.mediaAccess (s : State) : MediaAccess :=
  let n := s.inEffect Obj.PLCA_NODE_ID
  if n = 0xFF then .csmaCd
  else .plca n (if n = 0 then some (s.inEffect Obj.PLCA_NODE_COUNT) else none) (s.obj Obj.PLCA_TO_TIMER) (s.obj Obj.PLCA_BURST)

/-- Send a CAN FD frame: FDF set, and BRS unless CAN_DATA_RATE is 0x00 (R96). -/
def State.sendCan (s : State) (ident : Nat) (pdu : List Byte) : State :=
  s.emit (.can ident true (s.inEffect Obj.CAN_DATA_RATE != 0) (canPad pdu))

/-- Send an Ethernet frame with the OAP EtherType and the device's address as its source (R98). -/
def State.sendEth (s : State) (dst : Nat) (pdu : List Byte) : State :=
  s.emit (.eth dst (s.obj Obj.MAC_ADDRESS) (s.inEffect Obj.OAP_ETHERTYPE) s.mediaAccess (padTo 46 pdu))

/-- Send an event PDU on each transport whose mask enables it (R133, R134). -/
def State.sendEvent (s : State) (code cls sub data related relSub status : Nat) : State :=
  let bitNo := code - 1
  -- the related object of a unit's event is its UNIT_STATE
  let unit := related == 0 && cls != 0xFF
  let pdu := eventPdu (if unit then 0x6300 + cls else related) (if unit then sub else relSub) status
    (leBytes 2 code ++ leBytes 1 cls ++ leBytes 1 sub ++ leBytes 4 data)
  let s := if bit (s.obj Obj.EVENT_MASK_CAN) bitNo && s.inEffect Obj.CAN_ENABLE == 1 && s.mgmtDriven then
      s.sendCan (0x500 + s.inEffect Obj.CAN_NODE_ID) pdu else s
  let s := if bit (s.obj Obj.EVENT_MASK_T1S) bitNo && s.inEffect Obj.T1S_ENABLE == 1 && s.mgmtDriven then
      (if s.inEffect Obj.CLIENT_MAC ≠ 0 then s.sendEth (s.inEffect Obj.CLIENT_MAC) pdu
       else match s.oap.t1s.lastSrc with
         | some a => s.sendEth a pdu
         | none => s) else s
  if bit (s.obj Obj.EVENT_MASK_MBX) bitNo && s.inEffect Obj.MBX_ENABLE == 1 && decide (1 ≤ s.stage) then
    s.mbxEvent pdu else s

/-! The error aggregator (R746 to R752). -/

/-! Error sources by number (Table 19.3). -/
namespace Es
abbrev unitFault (u : Nat) : Nat := u
abbrev stateDivergence (u : Nat) : Nat := 0x0C9 + u
abbrev mxtAbft (n : Nat) : Nat := 0x192 + n
abbrev profileFuse : Nat := 0x1D2
abbrev bootModeRsv : Nat := 0x1D3
abbrev bringupLate : Nat := 0x1D4
abbrev vinOv : Nat := 0x1D5
abbrev refclkSysLossContained : Nat := 0x1D6
abbrev refclkPcieLoss : Nat := 0x1D7
abbrev refclkLaneLoss : Nat := 0x1D8
abbrev xspiAbsent : Nat := 0x1D9
abbrev fabricAuth : Nat := 0x1DA
abbrev fabricLoad : Nat := 0x1DB
abbrev fabricCfgUe : Nat := 0x1DC
abbrev phRequiredDown : Nat := 0x1DD
abbrev pelletLogLost : Nat := 0x1DE
abbrev streamDetachedFault : Nat := 0x1DF
abbrev lpPoisonFull : Nat := 0x1E0
abbrev nocHeader : Nat := 0x1E1
abbrev drbgHealth : Nat := 0x1E2
abbrev hostIfFault : Nat := 0x1E3
abbrev hbmCe : Nat := 0x1E4
abbrev hbmOndie : Nat := 0x1E5
abbrev lpCe : Nat := 0x1E6
abbrev sramCe : Nat := 0x1E7
abbrev nocCorrected : Nat := 0x1E8
abbrev fabricCfgCe : Nat := 0x1E9
abbrev hbmUe : Nat := 0x1EA
abbrev lpUe : Nat := 0x1EB
abbrev sramUe : Nat := 0x1EC
abbrev nocPoison : Nat := 0x1ED
abbrev pelletLogFull : Nat := 0x1EE
abbrev spHeader : Nat := 0x1EF
abbrev spCrc : Nat := 0x1F0
abbrev fabricRamUe : Nat := 0x1F1
abbrev fabricPoison : Nat := 0x1F2
abbrev hostError : Nat := 0x1F3
abbrev linkPoison : Nat := 0x1F4
abbrev accessPoison : Nat := 0x1F5
abbrev poisonInjected : Nat := 0x1F6
abbrev refclkSysLossFatal : Nat := 0x1F7
abbrev kclkFreq : Nat := 0x1F8
abbrev fabricCfgUeFatal : Nat := 0x1F9
abbrev safeIn : Nat := 0x1FA
abbrev monitorFault : Nat := 0x1FB
abbrev aggregatorFault : Nat := 0x1FC
abbrev keeperMemUe : Nat := 0x1FD
abbrev railFault : Nat := 0x1FE
abbrev thermTrip : Nat := 0x1FF
end Es

/-- The class of each source (Table 19.3). -/
def sourceClass (src : Nat) : ErrClass :=
  if src < 0x192 then .contained
  else if src < 0x1D2 then .deferred
  else if src < 0x1E4 then .contained
  else if src < 0x1EA then .corrected
  else if src < 0x1F7 then .deferred
  else .fatal

def ErrClass.code : ErrClass → Nat
  | .corrected => 0 | .deferred => 1 | .contained => 2 | .fatal => 3

/-- What an error event carries beside its source. -/
structure ErrInfo where
  oClass : Nat := 0x10
  oIndex : Nat := 0
  status : Nat := 0
  info : Nat := 0
  test : Bool := false
  /-- unit class and sub-index for the ERROR event of R133 -/
  cls : Nat := 0xFF
  sub : Nat := 0

/-- Update the source's record and append to the log when it has room and is not frozen (R748, R750, R755). -/
def State.recordError (s : State) (src : Nat) (e : ErrInfo) : State :=
  let a := s.agg
  let r := SMap.get {} a.src src
  let r' : SrcRec :=
    { count := satBump 32 r.count 1, oClass := e.oClass, oIndex := e.oIndex,
      firstNs := if r.count = 0 then s.timeNs else r.firstNs, lastNs := s.timeNs, lastInfo := e.info }
  let a := { a with src := SMap.set {} a.src src r' }
  let rec_ : ErrRec :=
    { source := src, cls := (sourceClass src).code, oClass := e.oClass, oIndex := e.oIndex,
      status := e.status, test := e.test, time := s.timeNs, info := e.info, seq := a.logNext }
  let a := if s.safety.logFrozen then a
    else if a.logNext - a.logRead ≥ 1024 then { a with logLost := satBump 32 a.logLost 1 }
    else { a with log := SMap.set {} a.log (a.logNext % 1024) rec_, logNext := a.logNext + 1 }
  let a := if sourceClass src == .fatal && !s.safety.safe then { a with safeRec := some rec_ } else a
  { s with agg := a }

/-- The device-wide class counter of an event (Table 1.14). -/
def classCounter : ErrClass → Nat
  | .corrected => Obj.ERR_COUNT_CORRECTED
  | .deferred => Obj.ERR_COUNT_DEFERRED
  | .contained => Obj.ERR_COUNT_CONTAINED
  | .fatal => Obj.ERR_COUNT_FATAL

/-- Whether 0x4001 enables ERR_N for a class (R752). -/
def State.errNEnabled (s : State) : ErrClass → Bool
  | .corrected => s.flag Obj.ERRN_CORRECTED
  | .deferred => s.flag Obj.ERRN_DEFERRED
  | .contained => s.flag Obj.ERRN_CONTAINED
  | .fatal => true

/-- The ERROR event and interrupt: for every CONTAINED and FATAL event, and at most once in 100 ms for a CORRECTED or
DEFERRED source (R751). -/
def State.reportError (s : State) (src : Nat) (e : ErrInfo) : State :=
  let c := sourceClass src
  let last := SMap.get 0 s.agg.lastReport src
  let due := c == .contained || c == .fatal || last == 0 || decide (last - 1 + 100000000 ≤ s.timeNs)
  if due then
    let s := { s with agg := { s.agg with lastReport := SMap.set 0 s.agg.lastReport src (s.timeNs + 1) } }
    (s.sendEvent 2 e.cls e.sub (c.code * 512 + src) 0 0 e.status).routeError src
  else s

/-- End every running self-test without a result: the unit returns to its earlier state and TEST_LAST records ABORTED
(R766). -/
def State.abortTests (s : State) : State :=
  (List.range 201).foldl (fun s u =>
    let b := s.ucb u
    if b.st == .test then
      let s := s.setUcb u { b with st := b.beforeTest.getD .ready, beforeTest := none }
      (s.setObj Obj.TEST_LAST (unitClass u * 256 + unitIndex u + 4 * 65536)).bump Obj.TESTS_ABORTED
    else s) s

/-- The safe state (Table 19.7, R755): the latch, ERR_N, the stopped heartbeat; unit operations, engines and packets end as
they stand, the log freezes once the pellets begun are in it, and the memories go to self-refresh. -/
def State.enterSafe (s : State) : State :=
  if s.safety.safe then s else
  let s := s.abortTests
  { s with
    safety := { s.safety with safe := true, logFrozen := true, errN := true }
    seqs := s.seqs.map fun (k, q) => (k, { q with queue := [] })
    str := { s.str with engines := s.str.engines.map fun (k, e) => (k, { e with st := .idle, outstanding := 0 }) }
    net := { s.net with packets := [], outst := [] }
    host := { s.host with linkUp := false }
    sup := { s.sup with selfRefresh := true } }

/-- Raise an error source with its full reaction (Table 1.10): record and log, count, report, the ERR_N latch, and the
safe state on FATAL. -/
def State.raise (s : State) (src : Nat) (e : ErrInfo := {}) : State :=
  let c := sourceClass src
  let s := s.recordError src e
  let s := s.bump (classCounter c)
  let s := s.reportError src e
  let s := if s.errNEnabled c then { s with safety := { s.safety with errN := true } } else s
  if c == .fatal then s.enterSafe else s

/-- UNIT_FAULT[u] with its cause; the unit becomes FAULTED unless the cause is REPAIRABLE (R758). -/
def State.unitFault (s : State) (u cause : Nat) : State :=
  let s := s.raise (Es.unitFault u)
    { oClass := unitClass u, oIndex := unitIndex u, status := Sc.internalFault, info := cause,
      cls := unitClass u, sub := unitIndex u + 1 }
  if cause = 3 then s else s.setUcb u { s.ucb u with st := .faulted, target := none }

/-! The pellet log (R272 to R278, R341). -/

/-! Pellet codes (Table 6.8). -/
namespace Pc
abbrev memUncorrectable : Nat := 1
abbrev nocIntegrity : Nat := 2
abbrev unbacked : Nat := 3
abbrev domainOff : Nat := 4
abbrev unitHooded : Nat := 5
abbrev linkLost : Nat := 6
abbrev linkAbsent : Nat := 7
abbrev indeterminate : Nat := 8
abbrev remote : Nat := 9
abbrev hostError : Nat := 0xA
abbrev checksum : Nat := 0xB
abbrev fabric : Nat := 0xC
abbrev sensor : Nat := 0xD
abbrev injected : Nat := 0xE
end Pc

/-- What a poison origin puts into its pellet (Table 6.7). -/
structure PelletInfo where
  source : Nat
  code : Nat
  status : Nat := 0
  addr : Option Nat := none
  oClass : Nat := 0
  oIndex : Nat := 0
  oDev : Option Nat := none
  forwarded : Bool := false
  cls : Nat := 0xFF
  sub : Nat := 0

/-- The 32 bytes of a pellet (R273). -/
def State.pelletBytes (s : State) (seq : Nat) (p : PelletInfo) : List Byte :=
  leBytes 4 seq ++ leBytes 2 p.source ++ leBytes 1 p.code ++ leBytes 1 p.status ++ leBytes 8 (p.addr.getD 0) ++
  leBytes 8 s.timeNs ++ leBytes 1 (p.oDev.getD s.devId) ++ leBytes 1 p.oClass ++ leBytes 2 p.oIndex ++
  leBytes 1 (b2n p.forwarded + 2 * b2n p.addr.isSome) ++ zeros 3

/-- Bytes of memory as stored, without any check. -/
def State.rawRead (s : State) (a n : Nat) : List Byte := (List.range n).map fun i => SMap.get 0 s.mem.cells (a + i)

def cellsWrite (m : List Host.Cell) (a : Nat) : List Byte → List Host.Cell
  | [] => m
  | b :: bs => cellsWrite (SMap.set 0 m a b) (a + 1) bs

def State.rawWrite (s : State) (a : Nat) (bs : List Byte) : State :=
  { s with mem := { s.mem with cells := cellsWrite s.mem.cells a bs } }

/-- Entries of the pellet log. -/
def State.logEntries (s : State) : Nat := 2 ^ s.obj Obj.PELLET_LOG_ENTRIES

/-- Where pellet SEQ q sits (R277). -/
def State.pelletAddr (s : State) (q : Nat) : Nat :=
  0x10004000000 - s.logEntries * 32 + q % s.logEntries * 32

/-- The log is full (R278): unread pellets, modulo 0xFFFF_FFFF, fill it. -/
def State.pelletLogFull (s : State) : Bool :=
  (s.str.pelletNext + 0xFFFFFFFF - s.obj Obj.PELLET_READ_SEQ) % 0xFFFFFFFF == s.logEntries

/-- Whether MS7, which holds the log, can be written (R341). -/
def State.ms7Up (s : State) : Bool :=
  s.unitSt 199 == .ready || s.unitSt 199 == .busy

/-- A poison event: write one pellet and raise its source (R747). The answer is the sequence number its beats carry:
0xFFFF_FFFF where the log is full in HOLD mode or cannot be written (R278, R341). -/
def State.pellet (s : State) (p : PelletInfo) : Nat × State :=
  let info (q : Nat) : ErrInfo :=
    { oClass := p.oClass, oIndex := p.oIndex, status := p.status, info := q, cls := p.cls, sub := p.sub }
  if !s.ms7Up then
    let s := (s.bump Obj.PELLETS_LOST).raise p.source (info 0xFFFFFFFF)
    if s.mem.logLostRaised then (0xFFFFFFFF, s)
    else
      let s := s.raise Es.pelletLogLost
      (0xFFFFFFFF, { s with mem := { s.mem with logLostRaised := true } })
  else if s.pelletLogFull && s.obj Obj.PELLET_LOG_MODE == 0 then
    (0xFFFFFFFF, ((s.bump Obj.PELLETS_LOST).raise p.source (info 0xFFFFFFFF)).raise Es.pelletLogFull
      { oClass := p.oClass, oIndex := p.oIndex })
  else
    let q := s.str.pelletNext
    let s := if s.pelletLogFull then s.setObj Obj.PELLET_READ_SEQ ((s.obj Obj.PELLET_READ_SEQ + 1) % 0xFFFFFFFF) else s
    let s := s.rawWrite (s.pelletAddr q) (s.pelletBytes q p)
    let s := { s with str := { s.str with pelletNext := (q + 1) % 0xFFFFFFFF } }
    (q, (s.bump Obj.PELLETS_WRITTEN).raise p.source (info q))

/-- A mark was written no later than another: sequence numbers run modulo 0xFFFF_FFFF, so the one less than half a turn behind is
the earlier; a beat without a pellet of its own, 0xFFFF_FFFF, comes last (R273, R274, R278; DEDUCED, log 47). -/
def markBefore (a b : Nat) : Bool :=
  if a = 0x100000000 then b == a else b == 0x100000000 || decide ((b + 0xFFFFFFFF - a) % 0xFFFFFFFF < 0x80000000)

/-- The earlier-written of two poison marks, each a sequence number + 1 with 0 for none (R274). -/
def firstMark (a b : Nat) : Nat := if a = 0 then b else if b = 0 then a else if markBefore a b then a else b

end Sys2Proof.Machine
end

