-- ==== Sys2Proof/Machine/SecQueue.lean ====
section
/-!
DEFINITION. A spiking event core's layer fields and event queue (R591, R597 to R601): what a write to the event queue window
appends.
-/
namespace Sys2Proof.Machine

def State.sec (s : State) (c : Nat) : Sec := SMap.get {} s.ev.secs c
def State.setSec (s : State) (c : Nat) (x : Sec) : State := { s with ev := { s.ev with secs := SMap.set {} s.ev.secs c x } }

/-! Event words (Table 15.2). -/

def evTime (w : Nat) : Nat := bits w 28 32
def evX (w : Nat) : Nat := bits w 0 12
def evY (w : Nat) : Nat := bits w 12 12
def evPol (w : Nat) : Nat := bits w 24 1
def evPort (w : Nat) : Nat := bits w 25 3
def evCore (w : Nat) : Bool := bit w 63
def evLoss (w : Nat) : Bool := bit w 62
/-- CH of a core's event. -/
def evCh (w : Nat) : Nat := bits w 60 2 * 16 + bits w 25 3 * 2 + bits w 24 1

/-! Layer block fields (Table 15.4). -/

def Layer.f (l : Layer) (o n : Nat) : Nat := fieldLE l.bytes o n
def Layer.inX0 (l : Layer) : Nat := l.f 0 2
def Layer.inY0 (l : Layer) : Nat := l.f 2 2
def Layer.inW (l : Layer) : Nat := l.f 4 2
def Layer.inH (l : Layer) : Nat := l.f 6 2
def Layer.cIn (l : Layer) : Nat := l.f 8 1
def Layer.cOut (l : Layer) : Nat := l.f 9 1
def Layer.k (l : Layer) : Nat := l.f 10 1
def Layer.stride (l : Layer) : Nat := l.f 11 1
def Layer.pad (l : Layer) : Nat := l.f 12 1
def Layer.portMask (l : Layer) : Nat := l.f 13 1
def Layer.tensor (l : Layer) : Bool := bit (l.f 14 1) 0
def Layer.toCq (l : Layer) : Bool := bit (l.f 14 1) 1
def Layer.toCore (l : Layer) : Bool := bit (l.f 14 1) 2
def Layer.binMode (l : Layer) : Nat := l.f 15 1
def Layer.chanBase (l : Layer) (p : Nat) : Nat := l.f (16 + p) 1
def Layer.binUs (l : Layer) : Nat := l.f 24 4
def Layer.outX0 (l : Layer) : Nat := l.f 28 2
def Layer.outY0 (l : Layer) : Nat := l.f 30 2
def Layer.outCore (l : Layer) : Nat := l.f 32 1
def Layer.outDev (l : Layer) : Nat := l.f 33 1
def Layer.outPair (l : Layer) : Nat := bits (l.f 34 2) 0 11
def Layer.tstride (l : Layer) : Nat := l.f 36 2
def Layer.slotLog2 (l : Layer) : Nat := l.f 38 1
def Layer.slotsLog2 (l : Layer) : Nat := l.f 39 1
def Layer.dstBase (l : Layer) : Nat := l.f 40 8

/-- OUT_W and OUT_H of a window side (R600). -/
def outSide (side pad k stride : Nat) : Nat := (side + 2 * pad - k) / max stride 1 + 1
def Layer.outW (l : Layer) : Nat := outSide l.inW l.pad l.k l.stride
def Layer.outH (l : Layer) : Nat := outSide l.inH l.pad l.k l.stride
def Layer.neurons (l : Layer) : Nat := l.outW * l.outH * l.cOut

/-- A field of output channel co's parameter set (Table 15.5). -/
def Layer.param (l : Layer) (co o n : Nat) : Nat := l.f (128 + 16 * co + o) n

/-- The layer accepts an event (R598). -/
def Layer.accepts (l : Layer) (w : Nat) : Bool :=
  (if evCore w then decide (evCh w < l.cIn) else bit l.portMask (evPort w)) &&
  decide (l.inX0 ≤ evX w) && decide (evX w < l.inX0 + l.inW) && decide (l.inY0 ≤ evY w) && decide (evY w < l.inY0 + l.inH)

/-- Count an event discarded at a full queue (R599). -/
def Sec.drop (x : Sec) : Sec := { x with dropped := satBump 32 x.dropped 1, lossy := true, loss := true }

/-- Append one event word to a core's queue: filtered, appended, or handled by SEC_OVERLOAD (R598, R599). -/
def State.secAppend (s : State) (c w m : Nat) : State :=
  let x := s.sec c
  match x.layer with
  | none => s.bump64 (Obj.SEC_FILTERED c)
  | some l =>
    if !l.accepts w then s.bump64 (Obj.SEC_FILTERED c)
    else if 16384 ≤ x.queue.length then
      let x := x.drop
      let x := if s.obj (Obj.SEC_OVERLOAD c) = 1 then { x with queue := x.queue.drop 1 ++ [(w, m)] } else x
      (s.setSec c x).bump (Obj.SEC_DROPS c)
    else
      let x := { x with queue := x.queue ++ [(w, m)] }
      let s := s.setSec c x
      s.setObj (Obj.SEC_QUEUE_PEAK c) (max (s.obj (Obj.SEC_QUEUE_PEAK c)) x.queue.length)

/-- The part of a core's store that an offset is in: the event queue window, or the count buffers (Table 15.3). -/
def inQueueWindow (off : Nat) : Bool := 0x50000 ≤ off && off < 0x70000
def inCountBuffers (off : Nat) : Bool := 0x70000 ≤ off && off < 0x74000

/-- A write to the event queue window appends its words in address order; one that is not whole words is not performed. -/
def State.secWindow (s : State) (c off : Nat) (bs : List Byte) (m : Nat) : Nat × State :=
  if off % 8 ≠ 0 || bs.length % 8 ≠ 0 then (0x13, s)
  else (0, (List.range (bs.length / 8)).foldl (fun s i => s.secAppend c (fieldLE bs (8 * i) 8) m) s)

end Sys2Proof.Machine
end

