-- ==== Sys2Proof/Machine/Mem.lean ====
section
/-!
DEFINITION. Memory: regions and backing (Table 1.7, R327 to R337), what a domain answers (R310 to R317), reads and writes
at the home with codes and poison (R342 to R347), reservations lost to stores (R396), and aperture translation (R351 to R356).
-/
namespace Sys2Proof.Machine

/-- The regions of Table 1.7. -/
inductive Region where
  | hbm | lpddr | mid | mxt | vxt | cat | sec | mmio | fabric | reserved
deriving DecidableEq, Repr

def mmioBase : Nat := 0x20000000000
def mxtBase : Nat := 0x10010000000
def vxtBase : Nat := 0x10020000000
def catBase : Nat := 0x10028000000
def secBase : Nat := 0x10030000000
def midBase : Nat := 0x10000000000
def midTop : Nat := 0x10004000000
def lpBase : Nat := 0x8000000000
def fabricBase : Nat := 0x40000000000

/-- The region of a local address (R16). -/
def regionOf (a : Nat) : Region :=
  if a < 0x2000000000 then .hbm
  else if lpBase ≤ a && a < 0x10000000000 then .lpddr
  else if midBase ≤ a && a < midTop then .mid
  else if mxtBase ≤ a && a < vxtBase then .mxt
  else if vxtBase ≤ a && a < vxtBase + 0x4000000 then .vxt
  else if catBase ≤ a && a < catBase + 0x4000000 then .cat
  else if secBase ≤ a && a < secBase + 0x800000 then .sec
  else if mmioBase ≤ a && a < mmioBase + 0x100000000 then .mmio
  else if fabricBase ≤ a && a < fabricBase + 0x4000000000 then .fabric
  else .reserved

def gib : Nat := 0x40000000

/-- The stack and stack offset of an HBM offset (R328). -/
def State.hbmMap (s : State) (a : Nat) : Nat × Nat :=
  if s.mem.hbmLinear then (a / (24 * gib), a % (24 * gib))
  else (a / 256 % 4, a / 256 / 4 * 256 + a % 256)

/-- Usable bytes of an LP port (R333). -/
def State.lpUsable (s : State) (n : Nat) : Nat :=
  let c := s.mem.lpMib.getD n 0 * 0x100000
  if s.mem.inlineEcc then c / 8 * 7 else c

/-- Installed ports, in rising order (R331). -/
def State.lpInstalled (s : State) : List Nat := (List.range 8).filter fun n => decide (0 < s.mem.lpMib.getD n 0)

/-- The port and port offset of an LPDDR offset, where the layout gives one (R334). -/
def State.lpMap (s : State) (o : Nat) : Option (Nat × Nat) :=
  if s.mem.lpLinear then
    let n := o / (64 * gib)
    if o % (64 * gib) < s.lpUsable n then some (n, o % (64 * gib)) else none
  else
    let ps := s.lpInstalled
    let p := ps.length
    if p = 0 then none else
    if o < p * s.lpUsable (ps.getD 0 0) then
      some (ps.getD (o / 4096 % p) 0, o / 4096 / p * 4096 + o % 4096)
    else none

/-- The unit that holds a backed address (Table 8.1), with the offset inside it; none for an unbacked or reserved address and
for MMIO. -/
def State.holder (s : State) (a : Nat) : Option Nat :=
  match regionOf a with
  | .hbm =>
    if a < 96 * gib then
      (let n := (s.hbmMap a).1
       if bit s.mem.hbFail n then none else some (unitOf 8 n))
    else none
  | .lpddr =>
    match s.lpMap (a - lpBase) with
    | some (n, _) => if bit s.mem.lpFail n then none else some (unitOf 7 n)
    | none => none
  | .mid => some (unitOf 10 ((a - midBase) / 0x800000))
  | .mxt => some (unitOf 0 ((a - mxtBase) / 0x400000))
  | .vxt => some (unitOf 1 ((a - vxtBase) / 0x200000))
  | .cat => some (unitOf 2 ((a - catBase) / 0x800000))
  | .sec => some (unitOf 3 ((a - secBase) / 0x80000))
  | .fabric =>
    let n := (a - fabricBase) / (16 * gib)
    if (a - fabricBase) % (16 * gib) < s.mem.fabricWin.getD n 0 then some (unitOf 9 n) else none
  | .mmio => none
  | .reserved => none

/-- Whether every address of a region is beyond its bring-up stage's service yet: HBM before S4, LPDDR before S3 (R64). -/
def State.regionLate (s : State) (a : Nat) : Bool :=
  match regionOf a with
  | .hbm => decide (a < 96 * gib) && decide (s.stage < 4)
  | .lpddr => decide (s.stage < 3)
  | _ => false

/-- The unit whose domain a request for a local address enters (Table 8.1): the holder, or before its stage the stack that the
layout gives and, in LPDDR, the port of the linear layout (R310; DESIGN CHOICE, log 46: no port's size is known then). -/
def State.edgeUnit (s : State) (a : Nat) : Option Nat :=
  if !s.regionLate a then s.holder a
  else if regionOf a == .hbm then some (unitOf 8 (s.hbmMap a).1)
  else some (unitOf 7 ((a - lpBase) / (64 * gib)))

/-- The node of controller q of an HBM stack (Table 1.1): the one that serves quarter q of its channels. -/
def hbmNode (n q : Nat) : Nat := (if n < 2 then 0 else 176) + 4 + 4 * (n % 2) + q

/-- The quarter of a stack's channels that holds a stack offset (R328). -/
def hbmQuarter (o : Nat) : Nat := o / 256 % 4

/-- The edge node of a backed local address outside MMIO: for HBM the controller of the quarter of the stack's channels that holds
it (Tables 1.1 and 8.1, R328), else the node of its unit. -/
def State.edgeNode (s : State) (a u : Nat) : Nat :=
  if unitClass u = 8 then hbmNode (unitIndex u) (hbmQuarter (s.hbmMap a).2) else unitNode u

/-- A backed address: it falls inside the backed part of its region, or anywhere in MMIO (R16, R362). -/
def State.backed (s : State) (a : Nat) : Bool := (s.holder a).isSome || regionOf a == .mmio

/-- The units of eyas service (Table 2.11). -/
def eyasUnit (u : Nat) : Bool :=
  (16 ≤ u && u < 20) || (24 ≤ u && u < 28) || (64 ≤ u && u < 68) || (104 ≤ u && u < 128) || (192 ≤ u && u < 200)

/-- Whether bring-up has made a unit available (R59, R60, R310). -/
def State.available (s : State) (u : Nat) : Bool :=
  s.present u &&
  (decide ((if unitClass u = 9 then 5 else 4) ≤ s.stage) || (decide (2 ≤ s.stage) && eyasUnit u) ||
   (decide (3 ≤ s.stage) && decide (164 ≤ u) && decide (u < 172)))

/-- What a domain does with a request (R310 to R317). -/
inductive Reply where
  | deliver | off | hooded | park
deriving DecidableEq, Repr

def State.dom (s : State) (u : Nat) : Domain := SMap.get {} s.net.domains u

def State.setDom (s : State) (u : Nat) (d : Domain) : State :=
  { s with net := { s.net with domains := SMap.set {} s.net.domains u d } }

/-- WAKE rather than FENCE (R309). -/
def State.wakePolicy (s : State) (u : Nat) : Bool := s.obj (Obj.DOMAIN_POLICY (unitClass u) (unitIndex u)) == 1

/-- What the domain of a unit answers to a request now. -/
def State.reply (s : State) (u : Nat) : Reply :=
  if !s.available u then .off else
  -- an understudy's own range answers as a hooded unit while it carries another tile's store (R460)
  if u < 64 && s.mem.redirect.any (fun e => e.2 == u + 1) then .hooded else
  let b := s.ucb u
  let d := s.dom u
  -- a sequence that has started keeps the policy in effect at its start (R323)
  let wakes := if d.phase == .open_ then s.wakePolicy u else d.policy.getD (s.obj (Obj.DOMAIN_POLICY (unitClass u) (unitIndex u))) == 1
  let asleep := if wakes && !b.mgmtStop then Reply.park else Reply.off
  match d.phase with
  | .draining => if d.target == .hooded then .off else asleep
  | .down => asleep
  | .up => asleep
  | .open_ =>
    match b.st with
    | .off | .mews => asleep
    | .hooded | .test => .hooded
    | .faulted => if 164 ≤ u && u < 200 then .off else .deliver
    | _ => .deliver

/-- DOMAIN_POLICY of a unit as a sequence takes it where it starts (R323). -/
def State.policyNow (s : State) (u : Nat) : Option Nat := some (s.obj (Obj.DOMAIN_POLICY (unitClass u) (unitIndex u)))

/-- Start a power-up of a sleeping domain (Table 7.8, P1). -/
def State.powerUp (s : State) (u : Nat) : State :=
  s.setDom u { s.dom u with phase := .up, target := .ready, sinceNs := s.timeNs, wakeAfter := false, next := none, policy := s.policyNow u }

/-- A request meets a domain under WAKE: abort a power-down before its point of no return E6 (1.2 µs after its drain), let
one past it finish and be followed by power-up, or power up (R313, R317). -/
def State.wake (s : State) (u : Nat) : State :=
  let d := s.dom u
  match d.phase with
  | .draining =>
    (s.setDom u { d with phase := .open_ }).setUcb u { s.ucb u with st := .ready, target := none } |>.bump Obj.WAKE_ABORTS
  | .down =>
    if s.timeNs < d.sinceNs + 1200 then
      (s.setDom u { d with phase := .open_ }).setUcb u { s.ucb u with st := .ready, target := none } |>.bump Obj.WAKE_ABORTS
    else if d.wakeAfter then s
    else (s.setDom u { d with wakeAfter := true }).bump Obj.WAKES
  | .up => s
  | .open_ =>
    if s.sup.inMews || s.sup.band == .hold || s.sup.band == .over then s
    else ((s.powerUp u).bump Obj.WAKES)

/-- A reader or writer's answer: its status, bytes and poison mark (pellet SEQ + 1, 0 for none). -/
structure Ans where
  status : Nat := 0
  bytes : List Byte := []
  mark : Nat := 0
deriving DecidableEq, Repr

/-- Record an access to an unbacked or reserved address by its global address (R22, Table 1.14). -/
def State.unbackedAt (s : State) (ga : Nat) : State := (s.bump Obj.UNBACKED_COUNT).setObj Obj.UNBACKED_LAST ga

/-- The same of a local address. -/
def State.unbackedHit (s : State) (a : Nat) : State := s.unbackedAt (s.devId * 2 ^ 56 + a)

/-- The hot-row cache's bytes (R337). -/
def State.inHotCache (s : State) (a : Nat) : Bool :=
  0x10003E00000 - s.obj Obj.HOT_CACHE_KIB * 1024 ≤ a && a < 0x10003E00000

/-- The pellet log's bytes (R277). -/
def State.inPelletLog (s : State) (a : Nat) : Bool := midTop - s.logEntries * 32 ≤ a && a < midTop

/-- A tile store whose work an understudy carries answers from the understudy's store (R460). -/
def State.redirected (s : State) (a : Nat) : Nat :=
  if regionOf a == .mxt then
    match SMap.get 0 s.mem.redirect ((a - mxtBase) / 0x400000) with
    | 0 => a
    | u + 1 => mxtBase + u * 0x400000 + (a - mxtBase) % 0x400000
  else a

/-- A poisoned answer with free data and a pellet of the edge NI (R311, R312). -/
def State.closedRead (s : State) (u a n code status : Nat) (counter : Nat) : Ans × State :=
  let s := s.bump counter
  let r := s.pellet { source := Es.accessPoison, code := code, status := status, addr := some (s.devId * 2 ^ 56 + a / 128 * 128),
                      oClass := 0x0D, oIndex := s.edgeNode a u }
  let d := r.2.drawBytes n
  ({ status := status, bytes := d.1, mark := r.1 + 1 }, d.2)

/-- Which counters and sources a memory's code reports (Tables 1.10, 8.9): correctable and uncorrectable. -/
def eccReport (a : Nat) : (Nat × Nat) × (Nat × Nat) :=
  match regionOf a with
  | .hbm => ((Obj.HBM_CE, Es.hbmCe), (Obj.HBM_UE, Es.hbmUe))
  | .lpddr => ((Obj.LP_CE, Es.lpCe), (Obj.LP_UE, Es.lpUe))
  | _ => ((Obj.SRAM_CE, Es.sramCe), (Obj.SRAM_UE, Es.sramUe))

def State.mark (s : State) (a : Nat) : Nat := SMap.get 0 s.mem.poison (a / 128)

def State.setMark (s : State) (a m : Nat) : State :=
  { s with mem := { s.mem with poison := SMap.set 0 s.mem.poison (a / 128) m } }

def State.eccErr (s : State) (a : Nat) : List (Nat × Nat) := SMap.get [] s.mem.ecc (a / 128)

def State.setEcc (s : State) (a : Nat) (e : List (Nat × Nat)) : State :=
  { s with mem := { s.mem with ecc := SMap.set [] s.mem.ecc (a / 128) e } }

/-- The codes of Table 8.2. -/
inductive MemCode where
  | line | secded | none
deriving DecidableEq, Repr

/-- The code that protects an address. -/
def State.codeOf (s : State) (a : Nat) : MemCode :=
  match regionOf a with
  | .hbm => .line
  | .lpddr => if s.mem.inlineEcc then .line else .none
  | _ => .secded

/-- Where port offset d lies in the DRAM of an LP port with inline ECC on: its address, and that of its line's 16 check bytes
(R335). -/
def inlinePlace (d : Nat) : Nat × Nat :=
  let g := d / 896
  let l := d % 896 / 128
  (g * 1024 + l * 128 + d % 128, g * 1024 + 896 + l * 16)

/-- The bytes of a group that inline ECC leaves unused: the first and the last (R335). -/
def inlineUnused (g : Nat) : Nat × Nat := (g * 1024 + 1008, g * 1024 + 1023)

/-- The LP port and DRAM address of an LPDDR address, and the address of its line's check bytes where it has any. -/
def State.lpPlace (s : State) (a : Nat) : Option (Nat × Nat × Option Nat) :=
  (s.lpMap (a - lpBase)).map fun x =>
    if s.mem.inlineEcc then (x.1, (inlinePlace x.2).1, some (inlinePlace x.2).2) else (x.1, x.2, none)

/-- The check bytes that stand beside a line of HBM or LPDDR (R342, R343): those of its data, with the line's errors in them. -/
def State.checkBytes (s : State) (a : Nat) : List Byte :=
  let l := a / 128 * 128
  (lineCheck l (s.rawRead l 128)).zipIdx.map fun c =>
    BitVec.ofNat 8 (Nat.xor c.1 (SMap.get 0 (mergeErrs (s.eccErr a)) (128 + c.2)))

/-- The bits that errors change in byte i of a line's data. -/
def errByte (c : MemCode) (es : List (Nat × Nat)) (i : Nat) : Nat :=
  match c with
  | .secded => (List.range 8).foldl (fun r b => r + b2n (SMap.get 0 es (72 * (i / 8) + 8 * (i % 8) + b) != 0) * 2 ^ b) 0
  | _ => SMap.get 0 es i

/-- Errors that no code takes away become the line's data. -/
def State.errsStand (s : State) (a : Nat) (es : List (Nat × Nat)) : State :=
  let l := a / 128 * 128
  let es := mergeErrs es
  if es.isEmpty then s
  else s.rawWrite l ((s.rawRead l 128).zipIdx.map fun b => BitVec.ofNat 8 (Nat.xor b.1.toNat (errByte (s.codeOf a) es b.2)))

/-- What decoding a line finds (R342): the corrections to count, the uncorrectable words or lines, and the errors that are left
in the data. Three or more erroneous bits in a SECDED word have no stated outcome: `free` decides it (log 52). -/
def State.decodeLine (s : State) (a free : Nat) : Nat × Nat × List (Nat × Nat) :=
  let es := s.eccErr a
  match s.codeOf a with
  | .none => (0, 0, es)
  | .line =>
    match lineDecode es with
    | none => (0, 1, [])
    | some fix => (b2n !fix.isEmpty, 0, mergeErrs (es ++ fix))
  | .secded =>
    let ws := wordErrors es
    let far := ws.filter fun w => decide (3 ≤ w.2)
    let one := (ws.filter fun w => w.2 = 1).length
    let two := (ws.filter fun w => w.2 = 2).length
    if far.isEmpty then (one, two, [])
    else match free % 3 with
      | 0 => (one, two, es.filter fun e => far.any fun w => w.1 == e.1 / 72)
      | 1 => (one + far.length, two, es.filter fun e => far.any fun w => w.1 == e.1 / 72)
      | _ => (one, two + far.length, [])

/-- Leave a line's data undefined: free bytes (R290, R345). -/
def State.scramble (s : State) (a : Nat) : State :=
  let d := s.drawBytes 128
  d.2.rawWrite (a / 128 * 128) d.1

/-- Decode the line of an address as its memory's code does: correct and write back, or poison with a new pellet
(R344, R345). `u` is the holder. -/
def State.checkLine (s : State) (u a : Nat) : State :=
  let r := eccReport a
  if s.mark a ≠ 0 then s else
  if s.eccErr a = [] then s else
  let f := s.drawN 1
  let d := s.decodeLine a (f.1.headD 0).toNat
  let s := (f.2.errsStand a d.2.2).setEcc a []
  let s := if d.1 = 0 then s else
    (s.bump r.1.1 d.1).raise r.1.2 { oClass := unitClass u, oIndex := unitIndex u, cls := unitClass u, sub := unitIndex u + 1 }
  if d.2.1 = 0 then s else
    let s := (s.bump r.2.1 d.2.1).setObj Obj.LAST_UE_ADDRESS (s.devId * 2 ^ 56 + a / 128 * 128)
    let p := s.pellet { source := r.2.2, code := Pc.memUncorrectable, addr := some (s.devId * 2 ^ 56 + a / 128 * 128),
                        oClass := unitClass u, oIndex := unitIndex u, cls := unitClass u, sub := unitIndex u + 1 }
    (p.2.scramble a).setMark a (p.1 + 1)

/-- Read up to one 128-byte line at its home, outside MMIO (R22, R311, R344 to R346). `gather` is set for gather engines,
which alone reach the hot-row cache (R337). -/
def State.homeRead (s : State) (gather : Bool) (a n : Nat) : Ans × State :=
  if regionOf a == .mmio then ({ status := Sc.alignment }, s) else
  if s.regionLate a then s.closedRead ((s.edgeUnit a).getD 0) a n Pc.domainOff Sc.domainOff Obj.DOMAIN_OFF_REPLIES else
  match s.holder a with
  | none => ({ status := Sc.accessDenied }, s.unbackedHit a)
  | some u =>
    if s.inHotCache a && !gather then ({ status := Sc.accessDenied }, s) else
    if SMap.get 0 s.mem.redirect u ≠ 0 && u < 64 then
      let b := s.redirected a
      let s := s.checkLine ((b - mxtBase) / 0x400000) b
      ({ bytes := s.rawRead b n, mark := s.mark b }, s)
    else
    match s.reply u with
    | .off => s.closedRead u a n Pc.domainOff Sc.domainOff Obj.DOMAIN_OFF_REPLIES
    | .hooded => s.closedRead u a n Pc.unitHooded Sc.unitHooded Obj.HOODED_REPLIES
    | _ =>
      let s := if s.reply u == .park then s.wake u else s
      if regionOf a == .sec && inQueueWindow ((a - secBase) % 0x80000) then ({ bytes := zeros n }, s) else
      let s := s.checkLine u a
      ({ bytes := s.rawRead a n, mark := s.mark a }, s)

/-- A reservation kept here for an agent beyond the sequencers of this device: another device's slot, by its 4 KiB block, or a
fabric master, by its line. -/
def RemoteRsv.holds (r : RemoteRsv) (dev line : Nat) : Bool := if r.dev = dev then r.line == line else r.line / 32 == line / 32

/-- The agent that a kept reservation belongs to. -/
def RemoteRsv.owner (r : RemoteRsv) (dev : Nat) (ag : Agent) : Bool :=
  match ag with
  | .remote d q => r.dev == d && r.req == q
  | .fabric p _ => r.dev == dev && r.req == p
  | _ => false

/-- Reservations that a store at a line by an agent loses: those of other slots on the line, and those kept for other agents
on their granules (R396, R397). A slot's reservation names the line of the global address. -/
def State.loseReservations (s : State) (ag : Agent) (a : Nat) : State :=
  let line := a / 128
  let far := s.devId * 2 ^ 49 + line
  let hit (q k : Nat) (t : Slot) : Bool := t.resv == some far && ag != .slot q k
  let lost : Nat := (s.seqs.map fun x => b2n (hit x.1 0 x.2.s0) + b2n (hit x.1 1 x.2.s1)).sum
  let s := if lost = 0 then s else
    { s with seqs := s.seqs.map fun (q, x) =>
        (q, { x with
          s0 := if hit q 0 x.s0 then { x.s0 with resv := none } else x.s0
          s1 := if hit q 1 x.s1 then { x.s1 with resv := none } else x.s1 }) }
  let goes (r : RemoteRsv) : Bool := r.holds s.devId line && !(r.owner s.devId ag)
  let gone := (s.mem.remoteRsv.filter goes).length
  let s := if gone = 0 then s else { s with mem := { s.mem with remoteRsv := s.mem.remoteRsv.filter fun r => !(goes r) } }
  if lost + gone = 0 then s else s.bump Obj.RSV_LOST_STORE (lost + gone)

/-- Poisoned lines of an LP port with inline ECC off (R347). -/
def State.lpPoisoned (s : State) (n : Nat) : Nat :=
  (s.mem.poison.filter fun e =>
    regionOf (e.1 * 128) == .lpddr &&
    (match s.lpMap (e.1 * 128 - lpBase) with | some (m, _) => m == n | none => false)).length

/-- Poison a whole line with a pellet's mark, its data undefined (R290). An LP port without ECC keeps 1,024 lines and
becomes FAULTED at the next (R347). -/
def State.poisonLine (s : State) (u a m : Nat) : State :=
  if unitClass u = 7 && !s.mem.inlineEcc && s.mark a == 0 && decide (1024 ≤ s.lpPoisoned (unitIndex u)) then
    (s.raise Es.lpPoisonFull { oClass := 7, oIndex := unitIndex u, cls := 7, sub := unitIndex u + 1 }).setUnitSt u .faulted
  else ((s.setEcc a []).scramble a).setMark a m

/-- A write of n bytes at an address drops the stationary operands that were read from there (R442). -/
def Area.hit (r : Area) (a n : Nat) : Bool :=
  (List.range r.rows).any fun i => r.addr + i * r.stride < a + n && a < r.addr + i * r.stride + r.len

def State.dropHeld (s : State) (a n : Nat) : State :=
  let hit (t : Tile) : Bool := match t.held with | some h => h.areas.any fun r => r.hit a n | none => false
  if regionOf a == .mxt && s.tiles.mxt.any (fun e => hit e.2) then
    { s with tiles := { s.tiles with mxt := s.tiles.mxt.map fun e => (e.1, if hit e.2 then { e.2 with held := none } else e.2) } }
  else s

/-- Write within one line at a resolved place: a poisoned beat marks the line; a full line clears poison; a partial write
keeps it, and poisons a line its read-modify-write cannot decode (R290, R346). -/
def State.storeLine (s : State) (u a : Nat) (bs : List Byte) (m : Nat) : State :=
  let s := s.dropHeld a bs.length
  if m ≠ 0 then s.poisonLine u a m
  else if bs.length = 128 then
    let s := if s.mark a ≠ 0 then (s.setMark a 0).bump Obj.POISON_CLEARS else s
    (s.setEcc a []).rawWrite a bs
  else (s.checkLine u a).rawWrite a bs

/-- Write up to one line at its home, outside MMIO. The answer is the WR_ACK status (R22, R277, R311, R312, R337). -/
def State.homeWrite (s : State) (ag : Agent) (gather : Bool) (a : Nat) (bs : List Byte) (m : Nat) : Nat × State :=
  if regionOf a == .mmio then (Sc.alignment, s) else
  if s.regionLate a then (Sc.domainOff, s.bump Obj.DOMAIN_OFF_REPLIES) else
  match s.holder a with
  | none => (Sc.accessDenied, s.unbackedHit a)
  | some u =>
    if (s.inHotCache a && !gather) || s.inPelletLog a then (Sc.accessDenied, s) else
    if SMap.get 0 s.mem.redirect u ≠ 0 && u < 64 then
      let b := s.redirected a
      (Sc.ok, ((s.loseReservations ag a).storeLine ((b - mxtBase) / 0x400000) b bs m))
    else
    match s.reply u with
    | .off => (Sc.domainOff, s.bump Obj.DOMAIN_OFF_REPLIES)
    | .hooded => (Sc.unitHooded, s.bump Obj.HOODED_REPLIES)
    | _ =>
      let s := if s.reply u == .park then s.wake u else s
      let off := (a - secBase) % 0x80000
      if regionOf a == .sec && inQueueWindow off then s.secWindow (unitIndex u) off bs m
      else if regionOf a == .sec && inCountBuffers off then (Sc.accessDenied, s)
      else (Sc.ok, (s.loseReservations ag a).storeLine u a bs m)

/-- The pieces of a range within 128-byte lines, as (address, bytes). -/
def linePieces : Nat → Nat → Nat → List (Nat × Nat)
  | 0, _, _ => []
  | f + 1, a, n =>
    if n = 0 then [] else
    let k := min n (128 - a % 128)
    (a, k) :: linePieces f (a + k) (n - k)

/-- Read a local range line by line; marks combine to the earliest pellet and the first failure status is kept. -/
def State.readRange (s : State) (gather : Bool) (a n : Nat) : Ans × State :=
  (linePieces (n / 128 + 2) a n).foldl (fun (r : Ans × State) p =>
    let x := r.2.homeRead gather p.1 p.2
    ({ status := if r.1.status ≠ 0 then r.1.status else x.1.status,
       bytes := r.1.bytes ++ padTo p.2 x.1.bytes, mark := firstMark r.1.mark x.1.mark }, x.2)) ({}, s)

/-- Write a local range line by line. -/
def State.writeRange (s : State) (ag : Agent) (gather : Bool) (a : Nat) (bs : List Byte) (m : Nat) : Nat × State :=
  (linePieces (bs.length / 128 + 2) a bs.length).foldl (fun (r : Nat × State) p =>
    let x := r.2.homeWrite ag gather p.1 ((bs.drop (p.1 - a)).take p.2) m
    (if r.1 ≠ 0 then r.1 else x.1, x.2)) (0, s)

/-! A unit's accesses to its own store, inside its domain. -/

/-- Base address of a unit's store. -/
def storeBase (u : Nat) : Nat :=
  match unitClass u with
  | 0 => mxtBase + unitIndex u * 0x400000
  | 1 => vxtBase + unitIndex u * 0x200000
  | 2 => catBase + unitIndex u * 0x800000
  | 3 => secBase + unitIndex u * 0x80000
  | 10 => midBase + unitIndex u * 0x800000
  | _ => 0

/-- Bytes of a unit's store. -/
def storeBytes (u : Nat) : Nat :=
  match unitClass u with
  | 0 => 0x400000 | 1 => 0x200000 | 2 => 0x800000 | 3 => 0x80000 | 10 => 0x800000 | _ => 0

/-- Read a unit's own store: bytes and the earliest mark (R274, R344 to R346). -/
def State.ownRead (s : State) (u off n : Nat) : List Byte × Nat × State :=
  let a := storeBase u + off
  let s := (linePieces (n / 128 + 2) a n).foldl (fun s p => s.checkLine u p.1) s
  (s.rawRead a n, (linePieces (n / 128 + 2) a n).foldl (fun m p => firstMark m (s.mark p.1)) 0, s)

/-- Write a unit's own store: the data as it is, each line written marked where the data is poisoned (R274). -/
def State.ownWrite (s : State) (u off : Nat) (bs : List Byte) (m : Nat) : State :=
  let a := storeBase u + off
  (linePieces (bs.length / 128 + 2) a bs.length).foldl (fun s p =>
    let d := (bs.drop (p.1 - a)).take p.2
    let s := s.loseReservations (.op u) p.1
    if m = 0 then s.storeLine u p.1 d 0
    else
      let kept := if p.2 = 128 then 0 else s.mark p.1
      ((((s.dropHeld p.1 p.2).setEcc p.1 []).rawWrite p.1 d).setMark p.1 (firstMark kept m))) s

/-! Aperture translation (R351 to R356). -/

def State.aptEntry (s : State) (c i : Nat) : Apt := SMap.get {} s.mem.apt (c * 4096 + i)

/-- Page size of an entry (Table 8.3). -/
def Apt.size (e : Apt) : Nat :=
  match bits e.w0 2 2 with
  | 0 => 0x10000
  | 1 => 0x200000
  | _ => gib

def Apt.valid (e : Apt) : Bool := bit e.w0 0
def Apt.va (e : Apt) : Nat := e.w0 / 0x10000 * 0x10000
def Apt.pa (e : Apt) : Nat := e.w1 / 0x10000 * 0x10000

/-- An entry matches a context address (R352). -/
def Apt.covers (e : Apt) (ca : Nat) : Bool := e.valid && e.va ≤ ca && ca < e.va + e.size

/-- The entries of a context that match, lowest number first. -/
def State.aptMatches (s : State) (c ca : Nat) : List Apt :=
  (s.mem.apt.filter fun (k, e) => k / 4096 == c && e.covers ca).map (·.2)

/-- The global address an entry gives (R353). -/
def State.aptTarget (s : State) (e : Apt) (ca : Nat) : Nat :=
  let g := (e.pa + (ca - e.va)) % 2 ^ 64
  if bit e.w1 3 then s.devId * 2 ^ 56 + g % 2 ^ 56 else g

def State.aptCtl (s : State) (c : Nat) : AptCtl := SMap.get {} s.mem.aptCtl c

def State.setAptCtl (s : State) (c : Nat) (x : AptCtl) : State :=
  { s with mem := { s.mem with aptCtl := SMap.set {} s.mem.aptCtl c x } }

/-- What a translation answers: a status, or a global address and whether its page is replayable. -/
structure Xlat where
  status : Nat := 0
  ga : Nat := 0
  replay : Bool := false
deriving DecidableEq, Repr

/-- Translate one context address for a read, a write or both, counting misses, multiple hits and denials
(R352 to R354). -/
def State.xlate (s : State) (c ca : Nat) (r w : Bool) : Xlat × State :=
  match s.aptMatches c ca with
  | [] =>
    let x := s.aptCtl c
    ({ status := Sc.apertureMiss },
     (s.setAptCtl c { x with misses := satBump 32 x.misses 1, lastMiss := ca }).bump Obj.APERTURE_MISSES)
  | e :: rest =>
    let s := if rest.isEmpty then s else
      let x := s.aptCtl c
      (s.setAptCtl c { x with multihit := satBump 32 x.multihit 1 }).bump Obj.APERTURE_MULTIHIT
    if (r && !bit e.w1 0) || (w && !bit e.w1 1) then
      ({ status := Sc.accessDenied }, s.bump Obj.APERTURE_DENIALS)
    else ({ ga := s.aptTarget e ca, replay := bit e.w1 2 }, s)

/-- The pages (64 KiB grains) a range touches. -/
def grains (ca n : Nat) : List Nat :=
  (List.range ((ca + n - 1) / 0x10000 - ca / 0x10000 + 1)).map fun i => max ca ((ca / 0x10000 + i) * 0x10000)

/-- Where a global address lies: device and region, for the two-region rule of R34 and R355. -/
def State.placeOf (_s : State) (ga : Nat) : Nat × Region := (ga / 2 ^ 56, regionOf (ga % 2 ^ 56))

/-- Translate a range of `n` > 0 bytes: the global address of each piece, as (global address, offset in the range, bytes).
Pieces that reach two regions or two devices answer ALIGNMENT (R34, R355). -/
def State.xlateRange (s : State) (c ca n : Nat) (r w : Bool) : Nat × List (Nat × Nat × Nat) × Bool × State :=
  let gs := grains ca n
  let res := gs.foldl (fun (acc : Nat × List (Nat × Nat × Nat) × Bool × State) g =>
    if acc.1 ≠ 0 then acc else
    let x := acc.2.2.2.xlate c g r w
    if x.1.status ≠ 0 then (x.1.status, acc.2.1, acc.2.2.1, x.2)
    else (0, acc.2.1 ++ [(x.1.ga, g - ca, min (ca + n) ((g / 0x10000 + 1) * 0x10000) - g)],
          acc.2.2.1 && x.1.replay, x.2)) (0, [], true, s)
  if res.1 ≠ 0 then res else
  let places := res.2.1.flatMap fun p => [s.placeOf p.1, s.placeOf (p.1 + p.2.2 - 1)]
  if places.all (· == places.headD (0, .reserved)) then res else (Sc.alignment, [], false, res.2.2.2)

/-- A global address whose home this device reads and writes at once: its own memories, fabric windows apart. -/
def State.isDirect (s : State) (ga : Nat) : Bool := ga / 2 ^ 56 == s.devId && regionOf (ga % 2 ^ 56) != .fabric

end Sys2Proof.Machine
end

