-- ==== Sys2Proof/Machine/Seq.lean ====
section
/-!
DEFINITION. Completion rings (R173 to R182), sequencers and program slots (R188 to R198), what a program's failure or an
operation's completion leaves in its slot (R218, R237 to R239), and the tile group that a TARGET names (Table 4.11).
-/
namespace Sys2Proof.Machine

/-! Rings and completions. -/

def State.ring (s : State) (n : Nat) : Ring := SMap.get {} s.host.rings n

def State.setRing (s : State) (n : Nat) (r : Ring) : State :=
  { s with host := { s.host with rings := SMap.set {} s.host.rings n r } }

/-- Slots of a submission ring and of a completion ring (Tables 4.6, 4.7). -/
def Ring.sqSize (r : Ring) : Nat := 2 ^ bits r.sqCfg 0 5
def Ring.cqSize (r : Ring) : Nat := 2 ^ bits r.cqCfg 0 5
def Ring.cqId (r : Ring) : Nat := bits r.sqCfg 24 8
def Ring.ctxOf (r : Ring) : Nat := bits r.sqCfg 32 6

/-- The function a ring is bound to, where it is bound (Table 4.4). -/
def State.ringFn (s : State) (n : Nat) : Option Nat :=
  let w := SMap.get 0 s.host.ringBind n
  if bit w 63 then some (bits w 0 6) else none

/-- CQ_TAIL one slot behind CQ_HEAD (R177). -/
def Ring.cqFull (r : Ring) : Bool := (r.cqTail + 1) % r.cqSize == r.cqHead

/-- Write one 64-byte entry into a CQ with its phase bit (R174), then raise the moderation interrupt (R179). `irq`
is set by an IRQ flag or by a status of 0x10 or above. -/
def State.writeCpl (s : State) (cq : Nat) (bs : List Byte) (irq : Bool) : State :=
  let r := s.ring cq
  let fn := (s.ringFn cq).getD 0
  let bs := splice bs 13 [(bs.getD 13 0) ||| BitVec.ofNat 8 (b2n r.phase)]
  let bs := if bs.getD 12 0 = 3 then bs else splice bs 24 (leBytes 8 s.timeNs)
  let s := s.emit (.hostWrite fn (r.cqBase + 64 * r.cqTail) bs)
  let tail := (r.cqTail + 1) % r.cqSize
  let n := r.pend + 1
  let fire := irq || bits r.cqCfg 24 8 == 0 || bits r.cqCfg 32 16 == 0 || decide (bits r.cqCfg 24 8 ≤ n)
  let s := s.setRing cq { r with
    cqTail := tail, phase := if tail = 0 then !r.phase else r.phase, cqWritten := satBump 64 r.cqWritten 1,
    pend := if fire then 0 else n,
    pendSince := if fire then 0 else if r.pend = 0 then s.timeNs + 1 else r.pendSince }
  if fire then s.raiseVector fn (bits r.cqCfg 8 11) else s

/-- Nothing can be written to a CQ's function: the link is down, the function is in D3hot, or the device is in the safe state. -/
def State.cqShut (s : State) (cq : Nat) : Bool :=
  !s.host.linkUp || s.safety.safe || SMap.get 0 s.host.power ((s.ringFn cq).getD 0) != 0

/-- Count once that a completion found its CQ full (R177). -/
def State.countFull (s : State) (cq : Nat) : State :=
  s.setRing cq { s.ring cq with cqFullEvents := satBump 32 (s.ring cq).cqFullEvents 1 }

/-- A completion: written, or kept in the completion buffer while its CQ is full or the link is down (R172, R177); after
PCIE_PERST_N it is discarded (R54). -/
def State.postCpl (s : State) (cq : Nat) (bs : List Byte) (irq : Bool) : State :=
  let r := s.ring cq
  let wait : State :=
    { s with host := { s.host with cplBuf := s.host.cplBuf ++ [{ cq := cq, bytes := bs, irq := irq, counted := r.cqFull }] } }
  if r.perst then s
  else if r.cqFull then wait.countFull cq
  else if s.cqShut cq || s.host.cplBuf.any (·.cq == cq) then wait
  else s.writeCpl cq bs irq

/-- Write waiting completions whose CQ has room, oldest first (COMPLETION_BUFFER_DRAIN). -/
def State.drainCpls (s : State) : State :=
  let keep (s : State) (w : WaitingCpl) : State := { s with host := { s.host with cplBuf := s.host.cplBuf ++ [w] } }
  s.host.cplBuf.foldl (fun s w =>
    if s.cqShut w.cq then keep s w
    else if (s.ring w.cq).cqFull then keep (if w.counted then s else s.countFull w.cq) { w with counted := true }
    else s.writeCpl w.cq w.bytes w.irq) { s with host := { s.host with cplBuf := [] } }

/-- The completion buffer's 512 entries are taken (R177). -/
def State.cplBufFull (s : State) : Bool := decide (512 ≤ s.host.cplBuf.length)

/-- A KIND 0x02 event record: discarded where the CQ is full, or where it would have to wait in a full completion buffer (R177). -/
def State.eventRecord (s : State) (ring status : Nat) (value : List Byte) : State :=
  let cq := (s.ring ring).cqId
  let r := s.ring cq
  if r.cqFull || s.cplBufFull then s.setRing cq { r with eventOverruns := satBump 32 r.eventOverruns 1 }
  else s.postCpl cq (padTo 8 value ++ leBytes 2 0 ++ leBytes 1 ring ++ leBytes 1 status ++ leBytes 1 2 ++ zeros 51)
    (decide (0x10 ≤ status))

/-- The 64 bytes of a KIND 0x01 completion (Table 4.12); phase and time are set at the write. -/
def cplBytes (tag sqIdx ring status : Nat) (exc : List Byte) (excTiles word : Nat) (pellet : Option Nat) (target : Nat) :
    List Byte :=
  leBytes 8 tag ++ leBytes 2 sqIdx ++ leBytes 1 ring ++ leBytes 1 status ++ leBytes 1 1 ++
  leBytes 1 (2 * b2n (!exc.isEmpty) + 4 * b2n pellet.isSome) ++ leBytes 2 (min excTiles 65535) ++ leBytes 4 word ++
  leBytes 4 (pellet.getD 0) ++ leBytes 8 0 ++ padTo 24 exc ++ leBytes 2 target ++ zeros 6

/-! Sequencers. -/

def State.seq (s : State) (q : Nat) : Sequencer := SMap.get {} s.seqs q
def State.setSeq (s : State) (q : Nat) (x : Sequencer) : State := { s with seqs := SMap.set {} s.seqs q x }

def State.slot (s : State) (q k : Nat) : Slot := if k = 0 then (s.seq q).s0 else (s.seq q).s1
def State.setSlot (s : State) (q k : Nat) (t : Slot) : State :=
  let x := s.seq q
  s.setSeq q (if k = 0 then { x with s0 := t } else { x with s1 := t })

/-- The unit that a sequencer serves (Table 5.1). -/
def seqUnit (q : Nat) : Nat :=
  if q < 120 then q else if q < 136 then unitOf 5 (q - 120) else if q = 136 then 200 else unitOf 9 (q - 137)

/-- The sequencer of a unit, where it has one. -/
def unitSeq (u : Nat) : Option Nat :=
  match unitClass u with
  | 0 | 1 | 2 | 3 => some u
  | 5 => some (120 + unitIndex u)
  | 11 => some 136
  | 9 => some (137 + unitIndex u)
  | _ => none

/-- The class of a sequencer: the TARGET class of Table 4.11 for its unit. -/
def seqClass (q : Nat) : Nat :=
  if q < 64 then 1 else if q < 96 then 3 else if q < 104 then 4 else if q < 120 then 5
  else if q < 136 then 6 else if q = 136 then 7 else 8

/-- Width and height in tiles of a TARGET (Table 4.11). -/
def targetShape (t : Nat) : Nat × Nat :=
  if bits t 12 4 ≠ 2 then (1, 1) else
  match bits t 8 4 with
  | 1 => (1, 2) | 2 => (2, 1) | 3 => (2, 2) | 4 => (2, 4) | 5 => (4, 2) | 6 => (4, 4)
  | _ => (1, 1)

/-- Whether a TARGET holds no reserved value (Table 4.11, R157). -/
def targetLegal (t : Nat) : Bool :=
  let c := bits t 12 4
  let sh := bits t 8 4
  let i := bits t 0 6
  bits t 6 2 == 0 &&
  match c with
  | 1 => sh == 0
  | 2 => decide (1 ≤ sh) && decide (sh ≤ 6) && i % 8 % (targetShape t).1 == 0 && i / 8 % (targetShape t).2 == 0
  | 3 => sh == 0 && decide (i < 32)
  | 4 => sh == 0 && decide (i < 8)
  | 5 => sh == 0 && decide (i < 16)
  | 6 => sh == 0 && decide (i < 16)
  | 7 => sh == 0 && decide (i = 0)
  | 8 => sh == 0 && decide (i < 16)
  | _ => false

/-- The units that a legal TARGET names: for a cast, its member tiles in member order (Table 5.1). -/
def targetUnits (t : Nat) : List Nat :=
  let i := bits t 0 6
  match bits t 12 4 with
  | 1 => [i]
  | 2 =>
    let wh := targetShape t
    (List.range (wh.1 * wh.2)).map fun m => i + m / wh.1 * 8 + m % wh.1
  | 3 => [unitOf 1 i]
  | 4 => [unitOf 2 i]
  | 5 => [unitOf 3 i]
  | 6 => [unitOf 5 i]
  | 7 => [200]
  | 8 => [unitOf 9 i]
  | _ => []

/-- The sequencer that runs an entry of a legal TARGET. -/
def targetSeq (t : Nat) : Nat := (unitSeq ((targetUnits t).headD 0)).getD 0

/-! What a program's slot records. -/

/-- Charge a wait in the word at which the slot stands (Table 5.14). -/
def Slot.waitOn (t : Slot) (w : WaitKind) : Slot := { t with wait := w }

/-- The first pellet of a program is kept (R239). -/
def Slot.withPellet (t : Slot) (mark : Nat) : Slot :=
  if mark = 0 || t.firstPellet.isSome then t else { t with firstPellet := some (mark - 1) }

/-- Record a word's status that does not end the program (R238). -/
def Slot.stick (t : Slot) (st : Nat) : Slot := if t.sticky = 0 && isStickyStatus st then { t with sticky := st } else t

/-- Put a ring into FAULTED with its FAULT_INFO (R24, R164, Table 4.5). A ring already FAULTED keeps its first, and one that is
being reset stays so. -/
def State.faultRing (s : State) (n cause word sqIdx status : Nat) : State :=
  let r := s.ring n
  if r.st == .faulted || r.st == .resetting then s else
  (s.bump Obj.RING_FAULT_COUNT).setRing n { r with st := .faulted, faultInfo := cause * 2 ^ 56 + word % 2 ^ 32 * 2 ^ 24 + sqIdx * 2 ^ 8 + status }

/-- End the program of a slot at its word with a status (R24, R237): a program fault also faults its ring. A loop, a wait and
held loads end with it. -/
def State.endProgram (s : State) (q k status : Nat) : State :=
  let t := s.slot q k
  if t.ending ≠ 0 then s else
  let fault := isFaultStatus status
  let s := s.setSlot q k { t with
    ending := status + 1, endFault := fault, wait := .ended, waitNs := s.timeNs, hang := false, scan := none, randPos := 0,
    semWait := none, epochWait := none, overlapped := true }
  -- the slot's reservation goes with it (R396)
  let s := if t.resv.isSome then (s.setSlot q k { s.slot q k with resv := none }).bump Obj.RSV_LOST_OTHER else s
  let s := if status = Sc.illegalOp then s.bump Obj.ILLEGAL_OPS else s
  let s := if status = Sc.reservedNonzero then s.bump Obj.RESERVED_WORDS else s
  let s := if status = Sc.timeout then s.bump Obj.SEM_TIMEOUTS else s
  let s := if status = Sc.overrun then s.bump Obj.SEM_OVERRUNS else s
  if fault then s.faultRing t.ring 2 t.wi t.sqIndex status else s

/-- An operation's record reaches its slot (R239, R426). -/
structure OpEnd where
  mark : Nat := 0
  exc : List Byte := []
  sticky : Nat := 0
  late : Nat := 0
  ending : Nat := 0

/-- An operation of a slot has completed: it leaves the slot's list, and its pellet, exception record and status are kept
for the completion. -/
def State.finishOp (s : State) (o : UnitOp) (e : OpEnd) : State :=
  let x := s.seq o.seq
  let s := s.setSeq o.seq { x with queue := x.queue.filter (·.id ≠ o.id) }
  let t := s.slot o.seq o.slot
  if !t.ops.contains o.id then s else
  let t : Slot := { (t.withPellet e.mark).stick e.sticky with ops := t.ops.filter (· ≠ o.id) }
  let t : Slot := if excHolds e.exc then
      { t with excTiles := t.excTiles + 1, excRec := if t.excRec.isEmpty then e.exc else t.excRec } else t
  let t := if t.late = 0 then { t with late := e.late } else t
  let s := s.setSlot o.seq o.slot t
  if e.ending ≠ 0 then s.endProgram o.seq o.slot e.ending else s

end Sys2Proof.Machine
end

