-- ==== Sys2Proof/Machine/Net.lean ====
section
/-!
DEFINITION. Sending on the tile network: classes, tags, routes and statistics (R285 to R305, R319, R320).
-/
namespace Sys2Proof.Machine

/-- Nodes that Table 1.1 assigns: those a route may name. -/
def unitNodes : List Nat :=
  ((List.range 201).map unitNode) ++ ((List.range 16).map fun i => hbmNode (i / 4) (i % 4)) ++ [16 * 1 + 14, 16 * 1 + 15, 16 * 11 + 1]

/-- The host-interface node, which holds the jess table and the epoch controller. -/
def hostNode : Nat := 16 * 1 + 14

/-- The node of a sequencer. -/
def seqNode (q : Nat) : Nat := unitNode (seqUnit q)

/-- The unit whose engine e is (Table 6.1); a SEC node's engine belongs to the lower SEC. -/
def engUnit (e : Nat) : Nat :=
  if e < 256 then e / 4 else if e < 384 then 64 + (e - 256) / 4 else if e < 416 then 96 + (e - 384) / 4
  else if e < 424 then 104 + 2 * (e - 416) else 176 + (e - 424)

def engNode (e : Nat) : Nat := unitNode (engUnit e)

/-- Engine number within its unit. -/
def engLocal (e : Nat) : Nat := if e < 416 then e % 4 else 0

/-- The node an agent sends from. -/
def agentNode : Agent → Nat
  | .slot q _ => seqNode q
  | .op q => seqNode q
  | .engine e => engNode e
  | .host _ => hostNode
  | .fabric p _ => unitNode (unitOf 9 p)
  | .remote _ req => req / 65536
  | .gather g => unitNode (unitOf 5 g)
  | .coll => unitNode 200
  | .sensor p => unitNode (unitOf 4 p)
  | .sec c => unitNode (unitOf 3 c)
  | .jess => hostNode

/-- The agent number at its node (Table 7.6). -/
def agentNo : Agent → Nat
  | .slot q _ => if 104 ≤ q && q < 120 then q % 2 else if 137 ≤ q then 1 else if 120 ≤ q && q < 136 then q % 2 else 0
  | .op q => if 104 ≤ q && q < 120 then q % 2 else 0
  | .engine e => 4 + engLocal e
  | .host _ => 0
  | .fabric .. => 0
  | .remote _ req => req / 32768 % 2
  | .gather g => g % 2
  | .coll => 0
  | .sensor p => p % 2
  | .sec c => c % 2
  | .jess => 1

def State.ni (s : State) (n : Nat) : Ni := SMap.get {} s.net.nis n
def State.setNi (s : State) (n : Nat) (x : Ni) : State :=
  { s with net := { s.net with nis := SMap.set {} s.net.nis n x } }

/-- The initiator ID of an agent (Table 7.5). -/
def State.statId (s : State) (ag : Agent) : Nat :=
  SMap.get (agentNode ag) (s.ni (agentNode ag)).statId (agentNo ag)

def State.stat (s : State) (i : Nat) : Stat := SMap.get {} s.net.stats i
def State.setStat (s : State) (i : Nat) (x : Stat) : State :=
  { s with net := { s.net with stats := SMap.set {} s.net.stats i x } }

/-- Count a request packet and its written bytes (R319). -/
def State.countSent (s : State) (ag : Agent) (bytes : Nat) : State :=
  if s.flag Obj.STATS_ENABLE then
    let i := s.statId ag
    let x := s.stat i
    s.setStat i { x with packets := satBump 48 x.packets 1, bytes := satBump 48 x.bytes bytes }
  else s

/-- NCLK cycles in a time: 1.5 GHz from S4, 750 MHz in eyas service (R285). -/
def State.nclk (s : State) (ns : Nat) : Nat := if s.stage < 4 then ns * 3 / 4 else ns * 3 / 2

/-- The histogram bucket of a latency (R320). -/
def latBucket (base lat : Nat) : Nat :=
  ((List.range 15).filter fun i => base * 2 ^ i ≤ lat).length

/-- Count payload bytes returned (R319). -/
def State.countBytes (s : State) (ag : Agent) (bytes : Nat) : State :=
  if s.flag Obj.STATS_ENABLE then
    let i := s.statId ag
    let x := s.stat i
    s.setStat i { x with bytes := satBump 48 x.bytes bytes }
  else s

/-- Count the latency of a request whose full response is here (R319, R320). -/
def State.countLat (s : State) (ag : Agent) (sentNs : Nat) : State :=
  if s.flag Obj.STATS_ENABLE then
    let i := s.statId ag
    let x := s.stat i
    let lat := s.nclk (s.timeNs - sentNs)
    let b := latBucket (s.obj Obj.LAT_BUCKET_BASE) lat
    s.setStat i { x with
      maxLat := max x.maxLat (min lat (2 ^ 32 - 1))
      hist := x.hist.set b (satBump 32 (x.hist.getD b 0) 1) }
  else s

/-- A response kind (Table 7.3). -/
def PKind.response : PKind → Bool
  | .rdRsp | .wrAck | .amoRsp | .jessGrant | .gatherRsp => true
  | _ => false

/-- A posted kind takes no tag (R289). -/
def PKind.posted : PKind → Bool
  | .jessPost | .epochMark => true
  | _ => false

/-- Engines at a node that own 1,024 TC2 tags each (R304). -/
def enginesAt (node : Nat) : Nat :=
  if (List.range 104).any (fun u => unitNode u == node) then 4
  else if (List.range 16).any (fun i => unitNode (104 + i) == node || unitNode (176 + i) == node) then 1
  else 0

/-- The tags an agent may take: first and count (R304). -/
def tagRange (ag : Agent) (tc : Nat) : Nat × Nat :=
  match ag with
  | .engine e => if tc = 2 then (engLocal e * 1024, 1024) else (0, 4096)
  | _ => if tc = 2 then (let n := enginesAt (agentNode ag) * 1024; (n, 4096 - n)) else (0, 4096)

/-- The lowest free tag of a range at a node in a class: one that no request holds and that does not rest after a timeout. -/
def State.freeTag (s : State) (ag : Agent) (tc : Nat) : Option Nat :=
  let used := (s.net.outst.filter fun o => o.node == agentNode ag && o.tc == tc).map (·.tag)
  let r := tagRange ag tc
  (List.range (used.length + 1)).findSome? fun i =>
    if i < r.2 && !(used.contains (r.1 + i)) then some (r.1 + i) else none

/-- The straight segments of a route entry's moves (R302). -/
def segments : Nat → Nat → List (Nat × Nat)
  | 0, _ => []
  | n + 1, moves =>
    let d := moves % 4
    match segments n (moves / 4) with
    | (d', k) :: rest => if d = d' then (d, k + 1) :: rest else (d, 1) :: (d', k) :: rest
    | [] => [(d, 1)]

/-- The route of a request by its NI's table (R298): the segments for RMODE 1, none for RMODE 0. -/
def State.chooseRoute (s : State) (node dst tc : Nat) : Option (Nat × List (Nat × Nat)) × State :=
  let x := s.ni node
  if bit x.cfg tc && s.flag Obj.SRC_ROUTE_GLOBAL then
    match x.ctrl.filter fun e => bit e.2 63 && bits e.2 0 8 == dst && bit e.2 (16 + tc) with
    | [] => (none, s.setNi node { x with routeFallbacks := satBump 32 x.routeFallbacks 1 })
    | (e, c) :: rest =>
      let s := if rest.isEmpty then s else
        (s.setNi node { x with routeMultihit := satBump 32 x.routeMultihit 1 }).bump Obj.ROUTE_MULTIHIT_TOTAL
      (some (e, segments (bits c 8 5) (SMap.get 0 x.moves e)), s)
  else (none, s)

/-- Tags an agent may still take in a class (R304). -/
def State.tagsLeft (s : State) (ag : Agent) (tc : Nat) : Nat :=
  let r := tagRange ag tc
  r.2 - (s.net.outst.filter fun o => o.node == agentNode ag && o.tc == tc && r.1 ≤ o.tag && o.tag < r.1 + r.2).length

/-- A post or mark for another device, and one that came from another device, travels as a tagged request (R718). -/
def State.untagged (s : State) (p : Packet) : Bool :=
  p.kind.posted && p.dev == s.devId && (match p.agent with | .remote _ _ => false | _ => true)

/-- The line that a request for memory accesses, + 1; 0 for other kinds. -/
def Packet.lineOf (p : Packet) : Nat :=
  match p.kind with
  | .rdReq | .wr | .wrPoison | .amoReq => (p.dev * 2 ^ 56 + p.addr) / 128 + 1
  | _ => 0

/-- An earlier request of the agent to the line was sent with another route and still awaits its response (R373). -/
def State.routeHeld (s : State) (ag : Agent) (line : Nat) (route : Option Nat) : Bool :=
  line != 0 && s.net.outst.any fun o => o.agent == ag && o.line == line && o.route != route

/-- Send a request packet: its tag, its route and its statistics. `none` where no tag is free, or the request waits for an earlier
one to its line (R304, R305, R373). -/
def State.send (s : State) (p : Packet) (use : Use) : Option State :=
  let node := agentNode p.agent
  let r := s.chooseRoute node p.dst p.tc
  let route := r.1.map (·.1)
  let go (tag : Nat) (s : State) : State :=
    let s := s.countSent p.agent (if p.kind == .wr then p.len else 0)
    let id := s.net.nextId
    let p := { p with id := id, src := node, at_ := node, tag := tag, segs := r.1.map (·.2), route := r.1.map (·.1), sentNs := s.timeNs }
    { s with net := { s.net with packets := s.net.packets ++ [p], nextId := id + 1 } }
  if s.untagged p then some (go 0 r.2)
  else if s.routeHeld p.agent p.lineOf route then none
  else match s.freeTag p.agent p.tc with
    | none => none
    | some t =>
      let o : Outst := {
        node := node, tc := p.tc, tag := t, agent := p.agent, kind := p.kind, len := p.len, use := use, line := p.lineOf, route := route
        sentNs := s.timeNs, pkt := if p.dev = s.devId then none else some { p with tag := t, src := node } }
      some (go t { r.2 with net := { r.2.net with outst := r.2.net.outst ++ [o] } })

/-- A response to a request packet goes back XY-routed in its class (R293, R297). -/
def State.respond (s : State) (req : Packet) (kind : PKind) (status : Nat) (data : List Byte) (mark : Nat) (seg : Nat) : State :=
  let id := s.net.nextId
  let p : Packet :=
    { req with id := id, kind := kind, src := req.dst, dst := req.src, at_ := req.dst, segs := none, route := none, status := status,
               data := data, len := data.length, poison := mark ≠ 0, pseq := mark - 1, seg := seg }
  { s with net := { s.net with packets := s.net.packets ++ [p], nextId := id + 1 } }

/-- Two packets stand in one input buffer of a router: of one input, class and plane. What a wake buffer gave back stands in none
(R295, R314). -/
def Packet.beside (a b : Packet) : Bool :=
  a.at_ == b.at_ && a.via == b.via && a.tc == b.tc && a.kind.response == b.kind.response && !a.parked && !b.parked

/-- The packet is the oldest in its input buffer. -/
def State.headOfBuffer (s : State) (p : Packet) : Bool :=
  p.parked || (match s.net.packets.find? (·.beside p) with | some o => o.id == p.id | none => true)

/-- Flits in an input buffer of a router (R295). -/
def State.inputHolds (s : State) (node via tc : Nat) (response : Bool) : Nat :=
  (s.net.packets.filter fun p => p.at_ == node && p.via == via && p.tc == tc && p.kind.response == response && !p.parked).length

/-- The packet of an identity. -/
def State.packet (s : State) (i : Nat) : Option Packet := s.net.packets.find? (·.id == i)

def State.dropPacket (s : State) (i : Nat) : State :=
  { s with net := { s.net with packets := s.net.packets.filter (·.id ≠ i) } }

/-- Two packets whose order of arrival R303 fixes: same source, destination, class and plane, same way. -/
def sameFlow (a b : Packet) : Bool :=
  a.src == b.src && a.dst == b.dst && a.tc == b.tc && a.route == b.route && a.kind.response == b.kind.response

/-- No earlier packet of the flow is still on its way. -/
def State.firstOfFlow (s : State) (p : Packet) : Bool :=
  !(s.net.packets.any fun o => decide (o.id < p.id) && sameFlow o p)

/-- The request that a tag holds. -/
def State.outst (s : State) (node tc tag : Nat) : Option Outst :=
  s.net.outst.find? fun o => o.node == node && o.tc == tc && o.tag == tag

def State.freeOutst (s : State) (node tc tag : Nat) : State :=
  { s with net := { s.net with outst := s.net.outst.filter fun o => !(o.node == node && o.tc == tc && o.tag == tag) } }

def State.phy (s : State) (n : Nat) : Phy := SMap.get {} s.link.ports n

/-- A port is a member of its bundle while it is UP with its UCB READY and no hood started on either side (R732). -/
def State.member (s : State) (n : Nat) : Bool :=
  let p := s.phy n
  decide (n < 20) && p.step == 7 && p.framing && s.unitSt (unitOf 6 n) == .ready && (s.dom (unitOf 6 n)).phase == .open_ &&
  !p.hoodTx && !p.hoodRx && s.obj (Obj.PH_LINK_ENABLE n) == 1

/-- The members whose partner is a device (section on bundles). -/
def State.bundle (s : State) (dev : Nat) : List Nat :=
  (List.range 20).filter fun n => s.member n && (match (s.phy n).partner with | some q => q.1 == dev | none => false)

/-- DEV_ROUTE of a device. -/
def State.devRoute (s : State) (dev : Nat) : Nat := s.obj (Obj.DEV_ROUTE dev)

/-- The bundle that leads toward a device (R720). -/
def State.bundleFor (s : State) (dev : Nat) : List Nat :=
  let b := s.bundle dev
  if !b.isEmpty then b
  else if bit (s.devRoute dev) 15 then s.bundle (bits (s.devRoute dev) 0 8) else []

/-- The port that a request for another device takes, by the member index of Table 18.7; none where no port is enabled toward
it (R20). -/
def State.portFor (s : State) (dev sel : Nat) : Option Nat :=
  let b := s.bundleFor dev
  if b.isEmpty then none else some (b.getD (sel % b.length) 0)

/-- The node of the block that serves an offset of MMIO (Table 8.4). -/
def mmioNode (o : Nat) : Nat :=
  if o < 0xC0000 then o / 0x1000
  else if 0x110000 ≤ o && o < 0x130000 then engNode ((o - 0x110000) / 0x100)
  else if 0x300000 ≤ o && o < 0x400000 then 16 * 11 + 1
  else if 0x15700000 ≤ o && o < 0x16000000 then unitNode (unitOf 5 0)
  else if 0x10000000 ≤ o && o < 0x1C000000 then unitNode (unitOf ((o - 0x10000000) / 0x1000000) (o % 0x1000000 / 0x10000))
  else hostNode

/-- Where an access to a device and local address goes: to a node, nowhere because nothing backs the address (R22, R291), or
nowhere because no port is enabled toward the device (R20). -/
inductive Dest where
  | node (n : Nat)
  | unbacked
  | absent
deriving DecidableEq, Repr

/-- The node that a request for a device and local address goes to: the port's node for another device, else the edge node of the
unit that holds the address, or the node of the block that serves it in MMIO. -/
def State.dest (s : State) (dev a : Nat) : Dest :=
  if a / 2 ^ 43 ≠ 0 then .unbacked
  else if dev ≠ s.devId then (match s.portFor dev (a / 128) with | some p => .node (unitNode (unitOf 6 p)) | none => .absent)
  else match regionOf a with
    | .mmio => .node (mmioNode (a - mmioBase))
    | _ => match s.edgeUnit a with | some u => .node (s.edgeNode a u) | none => .unbacked

/-- The same of a global address. -/
def State.destOf (s : State) (ga : Nat) : Dest := s.dest (ga / 2 ^ 56) (ga % 2 ^ 56)

/-- Nothing backs the address of an access (R22, R291). -/
def State.isUnbacked (s : State) (ga : Nat) : Bool := s.destOf ga == .unbacked

/-- The node alone, where there is one. -/
def State.destNode (s : State) (dev a : Nat) : Option Nat :=
  match s.dest dev a with | .node n => some n | _ => none

/-- An access to a global address would wait for an earlier one of its agent to the line (R373). -/
def State.lineHeld (s : State) (ag : Agent) (tc ga : Nat) : Bool :=
  match s.destOf ga with
  | .node d => s.routeHeld ag (ga / 128 + 1) ((s.chooseRoute (agentNode ag) d tc).1.map (·.1))
  | _ => false

/-! Requests by kind (Table 7.2). -/

/-- RD_REQ of up to one line at a global address. -/
def readPacket (ag : Agent) (tc n ga len : Nat) : Packet :=
  { id := 0, kind := .rdReq, tc := tc, src := 0, dst := n, at_ := 0, dev := ga / 2 ^ 56, addr := ga % 2 ^ 56, len := len, agent := ag }

/-- A write of up to one line: WR, or WR_POISON where its beat is poisoned (R290). -/
def writePacket (ag : Agent) (tc n ga : Nat) (bs : List Byte) (m : Nat) (replay : Bool) : Packet :=
  { id := 0, kind := if m = 0 then .wr else .wrPoison, tc := tc, src := 0, dst := n, at_ := 0, dev := ga / 2 ^ 56,
    addr := ga % 2 ^ 56, len := bs.length, data := bs, poison := m ≠ 0, pseq := m - 1, replay := replay, agent := ag }

/-- JESS_POST to a semaphore, pair * 2 + WHICH, of a device. -/
def postPacket (ag : Agent) (n dev m count : Nat) : Packet :=
  { id := 0, kind := .jessPost, tc := 0, src := 0, dst := n, at_ := 0, dev := dev, which := m % 2, pair := m / 2, count := count,
    agent := ag }

/-- JESS_WAIT for a semaphore of this device, or its cancel. -/
def waitPacket (ag : Agent) (m count tmo : Nat) (cancel : Bool) : Packet :=
  { id := 0, kind := .jessWait, tc := 0, src := 0, dst := hostNode, at_ := 0, which := m % 2, pair := m / 2, count := count,
    tmo := tmo, cancel := cancel, agent := ag }

/-- A request to the jess table or the epoch controller that its word performs at once: it is sent in class SYNC by its route and
counted (R293, R298, R319; DESIGN CHOICE, log 5). -/
def State.counted (s : State) (ag : Agent) : State := (s.chooseRoute (agentNode ag) hostNode 0).2.countSent ag 0

/-- What a read toward a device without a route returns (R20): poisoned data with a pellet, and LINK_ABSENT. -/
def State.linkAbsentData (s : State) (ga n : Nat) (oClass oIndex : Nat) : Ans × State :=
  let r := s.pellet { source := Es.linkPoison, code := Pc.linkAbsent, status := Sc.linkAbsent, addr := some (ga / 128 * 128),
                      oClass := oClass, oIndex := oIndex }
  let d := r.2.drawBytes n
  ({ status := Sc.linkAbsent, bytes := d.1, mark := r.1 + 1 }, d.2)

end Sys2Proof.Machine
end

