-- ==== Sys2Proof/Machine/Jess.lean ====
section
/-!
DEFINITION. Semaphores of the jess table (R212 to R217, R261 to R267) and the end of a stream chain (R258 to R260).
-/
namespace Sys2Proof.Machine

/-- A semaphore is named by pair * 2 + WHICH, FILL 0 and FREE 1 (Table 5.5). -/
def semOf (pair which : Nat) : Nat := pair * 2 + which

def State.jess (s : State) (p : Nat) : Jess := SMap.get {} s.str.jess p

def State.setJess (s : State) (p : Nat) (j : Jess) : State :=
  { s with str := { s.str with jess := SMap.set {} s.str.jess p j } }

def State.sem (s : State) (m : Nat) : Nat := if m % 2 = 0 then (s.jess (m / 2)).fill else (s.jess (m / 2)).free

def State.setSem (s : State) (m v : Nat) : State :=
  let j := s.jess (m / 2)
  s.setJess (m / 2) (if m % 2 = 0 then { j with fill := v } else { j with free := v })

/-- Post to a local semaphore: a sum above 65,535 leaves it and counts (R215, R265, R267). The answer is whether the sum
held. -/
def State.post (s : State) (m n : Nat) : Bool × State :=
  if s.sem m + n ≤ 65535 then (true, s.setSem m (s.sem m + n)) else (false, s.bump Obj.JESS_OVERFLOWS)

/-- The waiters of a semaphore in the order in which they began to wait. -/
def State.waitersOf (s : State) (m : Nat) : List SemWaiting := s.str.waiters.filter (·.sem == m)

/-- A wait joins the line of its semaphore (R266). -/
def State.addWaiter (s : State) (w : SemWaiting) : State :=
  let s := if (s.waitersOf w.sem).isEmpty then s else s.bump Obj.JESS_SHARED
  { s with str := { s.str with waiters := s.str.waiters ++ [w] } }

/-- Cease to wait. -/
def State.dropWaiter (s : State) (w : Waiter) : State :=
  { s with str := { s.str with waiters := s.str.waiters.filter (·.who ≠ w) } }

/-- A take succeeds: the semaphore is large enough, and the waiter is the first in line or nobody waits (R266). -/
def State.canTake (s : State) (m n : Nat) (w : Waiter) : Bool :=
  decide (n ≤ s.sem m) &&
  match s.waitersOf m with
  | [] => true
  | x :: _ => x.who == w

/-- Subtract in one atomic step and leave the line (R213). -/
def State.take (s : State) (m n : Nat) (w : Waiter) : State :=
  let s := s.setSem m (s.sem m - n)
  { s with str := { s.str with waiters := s.str.waiters.filter fun x => !(x.sem == m && x.who == w) } }

/-- The agent that a wait is for. -/
def Waiter.agent : Waiter → Agent
  | .slot q k => .slot q k
  | .engine e => .engine e
  | .coll => .coll
  | .remote _ => .jess

/-- The jess table answers a queued wait: JESS_GRANT to the NI that asked (R292). -/
def State.answerWait (s : State) (w : SemWaiting) (st : Nat) : State :=
  let r := w.reply.getD (hostNode, 0)
  let req : Packet := { waitPacket w.who.agent w.sem w.count w.tmo false with
    src := r.1, at_ := hostNode, tag := r.2, sentNs := w.sinceNs }
  ({ s with str := { s.str with waiters := s.str.waiters.filter fun x => !(x == w) } }).respond req .jessGrant st [] 0 0

/-- The wait of an agent at the jess table. -/
def State.waitOf (s : State) (w : Waiter) : Option SemWaiting := s.str.waiters.find? (·.who == w)

/-- A take that a word or engine makes where nothing keeps it waiting: its JESS_WAIT and JESS_GRANT are counted (R292, R319). -/
def State.takeNow (s : State) (ag : Agent) (m n : Nat) (w : Waiter) : State :=
  ((s.counted ag).countLat ag s.timeNs).take m n w

/-- The semaphore that a wait of an engine or a schedule step is for; a slot keeps its own. -/
def Use.sem (u : Use) (m : Nat) : Nat :=
  match u with
  | .engWait _ x => x
  | .collWait _ x => x
  | _ => m

/-- Withdraw a wait, a slot's on semaphore `m`: its request is nobody's any more, and a cancel is sent (R292). Where no tag is
free the wait leaves the table as the cancel would make it. -/
def State.cancelWait (s : State) (w : Waiter) (m : Nat) : State :=
  let ag := w.agent
  match s.net.outst.find? fun o => o.agent == ag && o.kind == .jessWait && o.use != .plain with
  | none => s
  | some o =>
    let s : State := { s with net := { s.net with outst := s.net.outst.map fun x => if x == o then { x with use := .plain } else x } }
    match s.send (waitPacket ag (o.use.sem m) 0 0 true) .plain with
    | some s => s
    | none => (s.dropWaiter w).freeOutst o.node o.tc o.tag

/-- The limit of a TMO code in ns: none for 0 (Table 5.5). -/
def tmoNs (t : Nat) : Option Nat := if t = 0 then none else some (2 ^ (t + 3) * 1000)

/-! Stream engines. -/

def State.engine (s : State) (e : Nat) : Engine := SMap.get {} s.str.engines e

def State.setEngine (s : State) (e : Nat) (x : Engine) : State :=
  { s with str := { s.str with engines := SMap.set {} s.str.engines e x } }

/-- End a chain with a status: in LAST_STATUS, for its program to take unless detached (R259); a detached chain's failure
raises its source (R282). An engine's own sticky status stands where the chain itself ends OK. -/
def State.endChain (s : State) (e st : Nat) : State :=
  let x := s.engine e
  if x.st == .idle then s else
  let st := if st = 0 then x.sticky else st
  -- a chain that ends OK after a descriptor whose totals were 0 ends with the status of that descriptor (R253; DEDUCED, log 48)
  let st := if st = 0 && x.sawEmpty then Sc.okEmpty else st
  let s := s.cancelWait (.engine e) 0
  let s := s.setEngine e { s.engine e with
    st := .idle, descRunning := false, lastStatus := st, outstanding := 0, gateEpoch := none, wq := [],
    unread := !x.detached, tookIn := false, tookOut := false }
  let s := if st = Sc.timeout then s.bump Obj.STREAM_TIMEOUTS else s
  if x.detached && decide (0x10 ≤ st) then
    (s.bump Obj.DETACHED_FAULTS).raise Es.streamDetachedFault
      { oClass := 0x0C, oIndex := e, status := st, cls := unitClass (engUnit e), sub := unitIndex (engUnit e) + 1 }
  else s

/-- The engines of a unit. -/
def unitEngines (u : Nat) : List Nat :=
  if u < 104 then (List.range 4).map (u * 4 + ·)
  else if u < 120 then [416 + (u - 104) / 2]
  else if 176 ≤ u && u < 192 then [424 + (u - 176)]
  else []

end Sys2Proof.Machine
end

