-- ==== Sys2Proof/Machine/Units.lean ====
section
/-!
DEFINITION. Unit control blocks and power domains: requests of both paths (R124 to R130), the moves of Tables 7.7 and 7.8,
stops at a program's end (R29), shadows (R80) and the home of an object (chapter 2).
-/
namespace Sys2Proof.Machine

/-- Bytes of the BLOCK objects that are homed in a unit; 0 for other objects. -/
def blockBytes (key : Nat) : Nat :=
  if key / 256 = 0x4E08 then 10 else if 0x4710 ≤ key / 256 && key / 256 ≤ 0x4717 then 24 else 0

/-- One shadowed value is loaded. A written PH_MAX_RATE ends the exclusion of rates (R681). -/
def State.loadShadow (s : State) (key v : Nat) : State :=
  let s := if blockBytes key = 0 then s.setObj key v else s.setBlock key (leBytes (blockBytes key) v)
  if key / 256 = 0x2E00 then
    let n := key % 256 - 1
    let p : Phy := SMap.get {} s.link.ports n
    { s with link := { s.link with ports := SMap.set {} s.link.ports n { p with exclRates := 0 } } }
  else s

/-- Load a unit's shadowed writes as it enters READY (R80). -/
def State.shadowLoad (s : State) (u : Nat) : State :=
  let mine := s.oap.shadow.filter fun e => keyHome e.1 == some u
  if mine.isEmpty then s else
  let s := mine.foldl (fun s e => s.loadShadow e.1 (e.2 - 1)) s
  { s with oap := { s.oap with shadow := s.oap.shadow.filter fun e => !(keyHome e.1 == some u) } }

/-- A unit's domain opens and its UCB enters READY (P4, or the release of a hood). -/
def State.enterReady (s : State) (u : Nat) : State :=
  ((s.setDom u { s.dom u with phase := .open_, wakeAfter := false }).setUcb u
    { s.ucb u with st := .ready, target := none }).shadowLoad u

/-- Program slots in flight that name a unit: its sequencer's, and those of casts it is a member of. -/
def State.slotsNaming (s : State) (u : Nat) : List (Nat × Nat) :=
  s.seqs.flatMap fun e =>
    [(e.1, 0, e.2.s0), (e.1, 1, e.2.s1)].filterMap fun x =>
      if x.2.2.role ≠ .empty && x.2.2.castOrigin.isNone &&
         ((targetUnits x.2.2.target).contains u || seqUnit x.1 == u) then some (x.1, x.2.1) else none

/-- The slots of a unit that still run a program: halted programs of a faulted ring do not (R165). -/
def State.runningOn (s : State) (u : Nat) : Bool :=
  (s.slotsNaming u).any fun x => (s.slot x.1 x.2).role ≠ .halted

/-- TARGET of an entry. -/
def entryTarget (bs : List Byte) : Nat := fieldLE bs 2 2

/-- Whether an entry names a unit. -/
def entryNames (bs : List Byte) (u : Nat) : Bool :=
  fieldLE bs 0 1 == 1 && targetLegal (entryTarget bs) && (targetUnits (entryTarget bs)).contains u

/-- Rings that hold work naming a unit: entries read and not dispatched. -/
def State.ringsQueuing (s : State) (u : Nat) : List Nat :=
  (s.host.rings.filter fun e => e.2.fetched.any fun f => entryNames f.bytes u).map (·.1)

/-- A STATE_CONFLICT: an event on each enabled transport, and a record on each completion ring concerned (R130): those of rings with
an entry read ahead for the unit, or whose last dispatch was (DESIGN CHOICE, log 49). -/
def State.stateConflict (s : State) (u target : Nat) (mgmt : Bool) : State :=
  let data := (s.unitSt u).code + target * 8 + b2n mgmt * 64
  let value := leBytes 2 1 ++ leBytes 1 (unitClass u) ++ leBytes 1 (unitIndex u + 1) ++ leBytes 4 data
  let s := (s.bump Obj.STATE_CONFLICT_COUNT).sendEvent 1 (unitClass u) (unitIndex u + 1) data 0 0 Sc.stateConflict
  let rings := (s.host.rings.filter fun e =>
      (e.2.fetched.any fun f => entryNames f.bytes u) ||
      (e.2.lastTarget ≠ 0 && (targetUnits e.2.lastTarget).contains u)).map (·.1)
  rings.foldl (fun s r => s.eventRecord r Sc.stateConflict value) s

/-- Close ingress and drain (E1), ending the chains of the domain's engines with DOMAIN_OFF. -/
def State.startDrain (s : State) (u : Nat) (t : UState) : State :=
  let s := (unitEngines u).foldl (fun s e =>
    if 104 ≤ u && u < 120 && seqUnit (s.engine e).seq ≠ u then s else s.endChain e Sc.domainOff) s
  s.setDom u { s.dom u with
    phase := .draining, target := t, sinceNs := s.timeNs, wakeAfter := false, next := none, binDone := false, policy := s.policyNow u }

def State.tile (s : State) (t : Nat) : Tile := SMap.get {} s.tiles.mxt t

def State.setTile (s : State) (t : Nat) (x : Tile) : State :=
  { s with tiles := { s.tiles with mxt := SMap.set {} s.tiles.mxt t x } }

def State.tileRole (s : State) (n : Nat) : Nat := s.obj (Obj.MXT_ROLE n)

def State.setHand (s : State) (n : Nat) (h : Hand) : State :=
  { s with tiles := { s.tiles with mxt := SMap.set {} s.tiles.mxt n { SMap.get {} s.tiles.mxt n with hand := h } } }

def State.handOf (s : State) (n : Nat) : Hand := (SMap.get {} s.tiles.mxt n).hand

/-- Release a hood. A tile whose understudy carries its work is released under R461 first. -/
def State.unhood (s : State) (u : Nat) : State :=
  if u < 64 then
    match s.handOf u with
    | .redirected v => s.setHand u (.releasing v)
    | .releasing _ => s
    | _ => s.enterReady u
  else s.enterReady u

/-- A unit's domain starts to power down from where it stands, or up toward a state that is not READY. -/
def State.startDown (s : State) (u : Nat) (t : UState) : State :=
  s.setDom u { s.dom u with
    phase := .down, target := t, sinceNs := s.timeNs, wakeAfter := false, next := none, policy := s.policyNow u }

/-- Move an idle unit toward a state (R309). A stop that meets a drain, or a power-down before its point of no return, takes the
place of its target (R125); past that point, and while a power-up runs, it is applied when the sequence ends (Table 7.12). -/
def State.moveUnit (s : State) (u : Nat) (t : UState) : State :=
  let b := s.ucb u
  let d := s.dom u
  if s.sup.inMews && b.beforeBand.isSome then s.setUcb u { b with beforeBand := some t } else
  match t with
  | .ready =>
    match d.phase with
    | .draining => if d.target == .hooded then s.setDom u { d with target := .ready } else s.wake u
    | .down => (s.setDom u { d with next := none }).wake u
    | .up => s.setDom u { d with target := .ready, next := none }
    | .open_ =>
      match b.st with
      | .hooded => s.unhood u
      | .off | .mews => s.powerUp u
      | _ => s
  | _ =>
    match d.phase with
    | .draining => s.setDom u { d with target := t }
    | .down =>
      if s.timeNs < d.sinceNs + 1200 then
        if t == .hooded then (s.setDom u { d with phase := .open_ }).setUcb u { b with st := .hooded, target := none }
        else s.setDom u { d with target := t }
      else s.setDom u { d with next := some t }
    | .up => s.setDom u { d with next := some t }
    | .open_ =>
      match b.st with
      | .ready => s.startDrain u t
      | .hooded => if t == .hooded then s else s.startDown u t
      | .off | .mews =>
        if t == b.st then s
        else if t == .off then s.startDown u t
        else s.setDom u { d with phase := .up, target := t, sinceNs := s.timeNs, wakeAfter := false, next := none, policy := s.policyNow u }
      | _ => s

/-- Target code of a UCB state in events (Table 3.11). -/
def stopTarget : UState → Bool
  | .off | .mews | .hooded => true
  | _ => false

/-- A request whose target the unit has reached leaves none to reach (R130). -/
def State.reached (s : State) (u : Nat) (t : UState) : State :=
  if (s.dom u).phase == .open_ && s.unitSt u == t then s.setUcb u { s.ucb u with target := none } else s

/-- A request of either path reaches the UCB (R125 to R130): the conflict event where R130 says so, then the request as the
unit's state takes it. Management stops hold until a READY request. -/
def State.ucbRequest (s : State) (u : Nat) (t : UState) (mgmt : Bool) : State :=
  let b := s.ucb u
  let conflict :=
    (match b.target with | some t' => t' != t && b.targetMgmt != mgmt | none => false) ||
    (stopTarget t && (s.runningOn u || !(s.ringsQueuing u).isEmpty))
  let s := if conflict then s.stateConflict u t.code mgmt else s
  let b := { b with
    mgmtStop := if mgmt then (if stopTarget t then true else if t == UState.ready then false else b.mgmtStop) else b.mgmtStop
    target := some t, targetMgmt := mgmt }
  match b.st with
  | .busy => if stopTarget t then s.setUcb u { b with st := .quiescing } else s.setUcb u { b with target := none }
  | .quiescing => s.setUcb u b
  | .test => s.setUcb u b
  | .faulted => s
  | _ => ((s.setUcb u b).moveUnit u t).reached u t

def State.setRedirect (s : State) (t : Nat) (v : Option Nat) : State :=
  { s with mem := { s.mem with redirect := SMap.set 0 s.mem.redirect t (match v with | some u => u + 1 | none => 0) } }

/-- An idle SPARE tile goes to SPARE_STATE (R452). -/
def State.restSpare (s : State) (v : Nat) : State :=
  if s.tileRole v = 1 && (s.tile v).carrying.isNone && s.unitSt v != .faulted && !s.runningOn v then
    match s.obj Obj.SPARE_STATE with
    | 0 => s.moveUnit v .off
    | 1 => s.moveUnit v .mews
    | _ => s.moveUnit v .ready
  else s

/-- The redirection of a tile ends, and its understudy rests. -/
def State.endRedirect (s : State) (t v : Nat) : State :=
  (((s.setRedirect t none).setHand t .none_).setTile v { (s.tile v) with carrying := none }).restSpare v

/-- A faulted tile's redirection ends once its understudy's programs have finished (R461). -/
def State.settleHand (s : State) (t : Nat) : State :=
  match s.handOf t with
  | .ending v => if s.runningOn v then s else s.endRedirect t v
  | _ => s

/-- The last program naming a unit has completed: BUSY returns to READY, and QUIESCING enters what its stop named (R29). -/
def State.unitIdle (s : State) (u : Nat) : State :=
  if s.runningOn u then s else
  let s := match (if u < 64 then (s.tile u).carrying else none) with | some t => s.settleHand t | none => s
  let b := s.ucb u
  match b.st with
  | .busy => s.setUcb u { b with st := .ready }
  | .quiescing =>
    let s := s.setUcb u { b with st := .ready }
    match b.target with
    | some .ready => s.setUcb u { b with st := .ready, target := none }
    | some t => s.moveUnit u t
    | none => s
  | _ => s

/-- A unit takes a program: READY becomes BUSY (Table 1.9). -/
def State.unitBusy (s : State) (u : Nat) : State := if s.unitSt u == .ready then s.setUnitSt u .busy else s

/-- Whether the device's work runs at all: not in the safe state, and not stopped for HOLD or OVER (R38, R755). -/
def State.live (s : State) : Bool :=
  !s.safety.safe && !s.sup.inMews && !s.sup.entryRunning && decide (2 ≤ s.stage)

end Sys2Proof.Machine
end

