-- ==== Sys2Proof/Machine/LinkTx.lean ====
section
/-!
DEFINITION. Sending on a Phidun link: link flits (R708, Tables 7.2, 18.2, 18.4), credits and the replay buffer (R711 to R715),
requests that leave the device (R720, R721, R724), drops and their notices (R733, R734).
-/
namespace Sys2Proof.Machine

def State.setPhy (s : State) (n : Nat) (x : Phy) : State :=
  { s with link := { s.link with ports := SMap.set {} s.link.ports n x } }

def phUnit (n : Nat) : Nat := unitOf 6 n
def phNode (n : Nat) : Nat := unitNode (phUnit n)

/-- The ports of a node. -/
def portsAt (node : Nat) : List Nat := (List.range 20).filter fun n => phNode n == node

/-- KIND codes (Table 7.3). -/
def PKind.code : PKind → Nat
  | .rdReq => 1 | .wr => 2 | .wrPoison => 3 | .amoReq => 4 | .jessPost => 5 | .jessWait => 6 | .epochMark => 7 | .gatherReq => 8
  | .rdRsp => 9 | .wrAck => 0xA | .amoRsp => 0xB | .jessGrant => 0xC | .gatherRsp => 0xD

/-- The kind that answers a request kind on the link (Table 18.6). -/
def PKind.answer : PKind → PKind
  | .rdReq => .rdRsp
  | .amoReq => .amoRsp
  | .gatherReq => .gatherRsp
  | .jessWait => .jessGrant
  | _ => .wrAck

/-- Bits 75:0 of a header (Table 7.2). -/
def Packet.fields (p : Packet) : Nat :=
  let dev := p.dev * 2 ^ 68
  let addr := p.addr % 2 ^ 43 * 2 ^ 25
  match p.kind with
  | .rdReq | .wr => dev + addr + p.len * 2 ^ 17
  | .wrPoison => dev + p.addr / 128 % 2 ^ 36 * 2 ^ 32 + p.pseq % 2 ^ 32
  | .amoReq => dev + addr + p.op * 2 ^ 20 + p.sz * 2 ^ 18
  | .jessPost => dev + p.which * 2 ^ 67 + p.pair * 2 ^ 56 + p.count * 2 ^ 40
  | .jessWait => p.which * 2 ^ 67 + p.pair * 2 ^ 56 + p.count * 2 ^ 40 + p.tmo * 2 ^ 36 + b2n p.cancel * 2 ^ 35
  | .epochMark => dev + p.ed * 2 ^ 63
  | .gatherReq => dev + p.table * 2 ^ 58 + p.pool * 2 ^ 55 + p.len * 2 ^ 50
  | .rdRsp | .gatherRsp => p.status * 2 ^ 68 + p.len * 2 ^ 60 + p.seg * 2 ^ 57 + (if p.poison then p.pseq % 2 ^ 32 else 0)
  | .wrAck => p.status * 2 ^ 68
  | .amoRsp => p.status * 2 ^ 68 + (if p.poison then p.pseq % 2 ^ 32 else 0)
  | .jessGrant => p.status * 2 ^ 68 + p.which * 2 ^ 67 + p.pair * 2 ^ 56

/-- SRC and TAG at the device that a packet began at. -/
def Packet.origin (p : Packet) : Nat × Nat := p.orig.getD (p.src, p.tag)

/-- The payload of a packet's flit: byte i is byte i of the line it carries bytes of, or of its block (R287). -/
def Packet.payload (p : Packet) : List Byte :=
  padTo 128 (match p.kind with | .wr | .rdRsp => zeros (p.addr % 128) ++ p.data | _ => p.data)

/-- The link flit of a packet: a poisoned beat carries its pellet (R287, R716). -/
def State.linkFlit (s : State) (p : Packet) : LinkFlit :=
  let o := p.origin
  let bad := p.poison || p.kind == .wrPoison
  { hdr := p.kind.code * 2 ^ 124 + p.tc * 2 ^ 122 + b2n bad * 2 ^ 121 + p.hops * 2 ^ 117 + s.devId * 2 ^ 109 + o.1 * 2 ^ 88 +
      o.2 * 2 ^ 76 + p.fields
    payload := if bad then padTo 128 (s.rawRead (s.pelletAddr p.pseq) 32) else p.payload }

/-- The queue of a packet: plane * 4 + TC (Table 18.4). -/
def Packet.queue (p : Packet) : Nat := (if p.kind.response then 4 else 0) + p.tc

/-- The number that selects a bundle member (Table 18.7). -/
def Packet.sel (p : Packet) : Nat :=
  match p.kind with
  | .gatherReq => p.table
  | .jessPost => p.pair
  | .epochMark => p.ed
  | _ => p.addr / 128

/-- Send an LCTRL with an OP and its ARG; every one carries the current ACK, NAK and CRED values (R710). While the port waits
to switch away from a lane that this side has lost, an IDLE gives way to LANE_DOWN (R728). -/
def State.sendCtl (s : State) (n op arg : Nat) : State :=
  let x := s.phy n
  let lost (k : Nat) : Bool := (List.range 8).any fun l =>
    !bit k l && ((SMap.get {} s.link.lanes (8 * n + l) : Lane).los || (SMap.get {} s.link.lanes (8 * n + l) : Lane).lol)
  let down : Option Nat := match x.laneReq with | some k => if op = 0 && k != 0xFF && lost k then some k else none | none => none
  let arg := down.getD arg
  let op := if down.isSome then 4 else op
  let cred := (x.freed.zipIdx.map fun c => c.1 % 256 * 256 ^ c.2).sum
  let h := 0xE * 2 ^ 124 + op * 2 ^ 120 + (x.rxSeq + 511) % 512 * 2 ^ 111 + b2n x.nak * 2 ^ 110 + arg * 2 ^ 64 + cred
  (s.setPhy n { x with nak := false, accepted := 0, freedSince := List.replicate 8 0 }).emit (.link n h (zeros 128))

/-- A running lane of the port has left L0 with its transmitter. -/
def State.txAsleep (s : State) (n : Nat) : Bool :=
  (List.range 8).any fun l => bit (s.phy n).running l && (SMap.get {} s.link.lanes (8 * n + l) : Lane).tx != 0

/-- The lanes sleep with their domains in HOLD and OVER (R42, R691). -/
def State.lanesHeld (s : State) : Bool := s.sup.entryRunning || s.sup.inMews

/-- A transmitter returns to L0 when a transaction flit waits (R730): IDLE first; not while HOLD or OVER lasts (R691). -/
def State.txWake (s : State) (n : Nat) : State :=
  if !s.txAsleep n || s.lanesHeld then s else
  let lanes := (List.range 8).foldl (fun (m : SMap Lane) l =>
    if bit (s.phy n).running l then SMap.set {} m (8 * n + l) { (SMap.get {} m (8 * n + l) : Lane) with tx := 0 } else m) s.link.lanes
  let s := { s with link := { s.link with lanes := lanes } }
  (s.setPhy n { s.phy n with pmWait := none }).sendCtl n 0 0

/-- Send one transaction flit: its number, its place in the replay buffer, its credit (R711, R714, R715). -/
def State.sendFlit (s : State) (n : Nat) (p : Packet) : State :=
  let s := s.txWake n
  let x := s.phy n
  let f := s.linkFlit p
  let q := p.queue
  (s.setPhy n { x with
    txSeq := (x.txSeq + 1) % 512, unacked := x.unacked ++ [(x.txSeq, f)]
    fullNs := if x.unacked.length + 1 = 256 then s.timeNs + 1 else x.fullNs
    credits := x.credits.set q (x.credits.getD q 0 - 1)
    sent := if p.kind.response then x.sent else x.sent ++ [p] }).emit (.link n f.hdr f.payload)

/-- Send what waits at a port in the order of each queue, while its queue has a credit and the replay buffer a place. -/
def State.pumpQueue (n : Nat) : List Packet → List Nat → List Packet → State → State
  | [], _, left, s => s.setPhy n { s.phy n with txq := left.reverse }
  | p :: r, stuck, left, s =>
    let x := s.phy n
    if stuck.contains p.queue || x.credits.getD p.queue 0 = 0 || 256 ≤ x.unacked.length then
      State.pumpQueue n r (p.queue :: stuck) (p :: left) s
    else State.pumpQueue n r stuck left (s.sendFlit n p)

/-- A port may carry transaction flits: it is UP, no HOOD has ended that, and its lanes do not sleep for HOLD or OVER. -/
def State.carries (s : State) (n : Nat) : Bool :=
  (s.phy n).framing && !(s.phy n).hoodTx && !s.safety.safe && !(s.lanesHeld && s.txAsleep n)

def State.linkPump (s : State) (n : Nat) : State :=
  if s.carries n then State.pumpQueue n (s.phy n).txq [] [] s else s

/-- A drop notice: a response of the request's kind with STATUS LINK_LOST (R734), which names the port in its TABLE field. -/
def State.dropNotice (s : State) (n : Nat) (p : Packet) : State :=
  s.respond { p with table := n, dst := phNode n } p.kind.answer Sc.linkLost [] 0 0

/-- Requests for other devices that have reached a Phidun node: each goes to the port that it selects there, waits while that
port holds PH_MAX_OUTSTANDING, and is noticed where the selection no longer leads through the node (R724, R734). -/
def State.takeRequests (s : State) (node : Nat) : State :=
  (s.net.packets.filter fun p => p.dst == node && p.at_ == node && !p.kind.response && p.dev != s.devId).foldl (fun s p =>
    if !(s.headOfBuffer p) || !(s.firstOfFlow p) then s else
    match s.portFor p.dev p.sel with
    | some n =>
      if phNode n = node then
        let x := s.phy n
        if s.obj (Obj.PH_MAX_OUTSTANDING n) ≤ x.sent.length + (x.txq.filter fun t => !t.kind.response).length then s
        else ((s.dropPacket p.id).setPhy n { x with txq := x.txq ++ [p] }).linkPump n
      else (s.dropPacket p.id).dropNotice ((portsAt node).headD 0) p
    | none => (s.dropPacket p.id).dropNotice ((portsAt node).headD 0) p) s

/-- Look after a node's ports: take what has arrived and send what may be sent. -/
def State.serveNode (s : State) (node : Nat) : State :=
  (portsAt node).foldl (fun s n => s.linkPump n) (s.takeRequests node)

/-- NCLK cycles for which the replay buffer has been full (R714). -/
def State.fullCycles (s : State) (n : Nat) : Nat :=
  let x := s.phy n
  if x.fullNs = 0 then 0 else s.nclk (s.timeNs - (x.fullNs - 1))

/-- The replay buffer is full no more. -/
def State.endFull (s : State) (n : Nat) : State :=
  if (s.phy n).fullNs = 0 then s
  else (s.bump64 (Obj.REPLAY_FULL_CYCLES n) (s.fullCycles n)).setPhy n { s.phy n with fullNs := 0 }

/-- The link state at link-up: numbers from 0, 32 credits a queue (R711, R715). -/
def Phy.linkUp (x : Phy) : Phy :=
  { x with
    framing := true, hoodTx := false, hoodRx := false, openTx := false, openRx := false, txSeq := 0, unacked := [], replays := 0,
    rxSeq := 0, nak := false, nakGiven := false, part := some (0, 0), badCodewords := 0, accepted := 0,
    credits := List.replicate 8 32, creditSeen := List.replicate 8 0, freed := List.replicate 8 0,
    freedSince := List.replicate 8 0, rx := [], ctl := [], txq := [], sent := [], noticed := [], rcvd := [], pmWait := none,
    laneReq := none, window := none, fullNs := 0 }

/-- Reservations that a port's loss takes with it (R397): those kept here for slots beyond it, and those of this device's slots
on lines it carried. -/
def State.loseRemoteRsv (s : State) (n : Nat) : State :=
  let far (r : RemoteRsv) : Bool := r.dev != s.devId && r.req / 65536 == phNode n && r.req / 32768 % 2 == n % 2
  let carried (line : Nat) : Bool := line * 128 / 2 ^ 56 != s.devId && s.portFor (line * 128 / 2 ^ 56) (line % 2 ^ 49) == some n
  let clear (t : Slot) : Slot := match t.resv with | some l => if carried l then { t with resv := none } else t | none => t
  let lost : Nat := (s.seqs.map fun q => b2n ((clear q.2.s0) != q.2.s0) + b2n ((clear q.2.s1) != q.2.s1)).sum
  let s1 := if lost = 0 then s else { s with seqs := s.seqs.map fun q => (q.1, { q.2 with s0 := clear q.2.s0, s1 := clear q.2.s1 }) }
  let s1 := { s1 with mem := { s1.mem with remoteRsv := s1.mem.remoteRsv.filter fun r => !far r } }
  if lost = 0 then s1 else s1.bump Obj.RSV_LOST_OTHER lost

/-- What a drop does to the link (R733, R734): every request sent or waiting is answered with a notice, the rest is lost. -/
def State.linkDrop (s : State) (n : Nat) : State :=
  let s := ((s.bump (Obj.DROPS n)).loseRemoteRsv n).endFull n
  let x := s.phy n
  let gone := x.sent ++ x.txq.filter fun p => !p.kind.response
  let s := s.setPhy n { x.linkUp with
    framing := false, noticed := x.noticed ++ x.sent.map fun p => (p.origin.1, p.origin.2, p.tc) }
  gone.foldl (fun s p => s.dropNotice n p) s

end Sys2Proof.Machine
end

