-- ==== Sys2Proof/Machine/Epoch.lean ====
section
/-!
DEFINITION. Epoch triggers and holds (R534 to R537).
-/
namespace Sys2Proof.Machine

def State.epoch (s : State) (d : Nat) : EpochDom := SMap.get {} s.ep.doms d

def State.setEpoch (s : State) (d : Nat) (x : EpochDom) : State :=
  { s with ep := { s.ep with doms := SMap.set {} s.ep.doms d x } }

/-- The epoch domain of a unit (R539). -/
def State.domainOf (s : State) (u : Nat) : Nat := s.obj (Obj.UNIT_DOMAIN (unitClass u) (unitIndex u))

/-- ED_SOURCE and its argument (Table 13.5). -/
def State.edSource (s : State) (d : Nat) : Nat := s.obj (Obj.ED_SOURCE d)
def State.edArg (s : State) (d : Nat) : Nat := s.obj (Obj.ED_SOURCE_ARG d)

/-- A trigger: it starts a commit, is latched, or is discarded (R536). -/
def State.trigger (s : State) (d : Nat) : State :=
  let x := s.epoch d
  if x.commit == .idle then s.setEpoch d { x with commit := .holding, applied := 0 }
  else if !x.again then s.setEpoch d { x with again := true }
  else s.bump (Obj.ED_OVERRUN d)

/-- Trigger every domain whose source is the one named (R534). -/
def State.triggerSource (s : State) (src arg : Nat) : State :=
  (List.range 32).foldl (fun s d => if s.edSource d = src && s.edArg d = arg then s.trigger d else s) s

/-- The units of a domain hold between C1 and C3 (R537). -/
def State.held (s : State) (u : Nat) : Bool := (s.epoch (s.domainOf u)).commit != .idle

end Sys2Proof.Machine
end

