-- ==== Sys2Proof/Machine/Program.lean ====
section
/-!
DEFINITION. Executing command words: fetch (R192 to R198), advancing and loops (R203 to R205), waits, the statuses of
operations and streams (R225, R237 to R239, R259) and the end of a program.
-/
namespace Sys2Proof.Machine

/-- The status of the first check that fails, 0 where none does (R26, R198). -/
def firstFail : List (Bool × Nat) → Nat
  | [] => 0
  | (bad, st) :: r => if bad then st else firstFail r

/-- Whether any bit of a mask is set. -/
def anyBits (v mask : Nat) : Bool := Nat.land v mask ≠ 0

/-- A command: its head word and extension words (R192). -/
structure Cmd where
  w0 : Nat
  w1 : Nat := 0
  w2 : Nat := 0
deriving DecidableEq, Repr

/-- Words of a command by its opcode (Table 5.3). -/
def cmdWords (op : Nat) : Nat :=
  if op = 0x30 then 3
  else if op = 0x31 || op = 0x32 || op = 0x33 || op = 0x35 || op = 0x36 || op = 0x37 then 2 else 1

/-- Whether an opcode is defined and legal for a sequencer (Table 5.3, R190). -/
def opLegal (q op : Nat) : Bool :=
  let c := seqClass q
  (decide (1 ≤ op) && decide (op ≤ 9)) || (decide (0x10 ≤ op) && decide (op ≤ 0x18)) ||
  (decide (0x20 ≤ op) && decide (op ≤ 0x22)) || op == 0x38 || op == 0x39 || op == 0x3A ||
  (op == 0x30 && c == 1) || (op == 0x31 && c == 3) || (op == 0x32 && c == 4) || (op == 0x33 && c == 6) ||
  (op == 0x34 && (c == 1 || c == 3 || c == 4 || c == 5 || c == 8)) || (op == 0x35 && c == 5) ||
  (op == 0x36 && c == 7) || (op == 0x37 && c == 7)

/-- Entries of a slot in its sequencer's store buffer. -/
def State.buffered (s : State) (q k : Nat) : List SbEntry := (s.seq q).sb.filter (·.slot == k)

/-- A slot may execute a word: its program runs, is not ended or stopping, its units are not held at a commit (R537), and no
MMIO access or synchronous store of it is outstanding (R377, R383). -/
def State.canRun (s : State) (q k : Nat) : Bool :=
  s.live && decide (q < 153) && decide (k < 2) &&
  (let t := s.slot q k
   (t.role == .leader || t.role == .follower) && t.ending == 0 && t.castOrigin.isNone && !t.stopping &&
   !(s.held (seqUnit q)) && !(t.loads.any (·.block)) && !(t.sbSync && !(s.buffered q k).isEmpty))

/-- What fetching a word gives. -/
inductive Fetch where
  | blocked (s : State)
  | fault (st mark : Nat) (s : State)
  | word (v : Nat) (s : State)

/-- Keep a fetched line: the 8 most recent (R195). -/
def Slot.keepLine (t : Slot) (l : FetchLine) : Slot := { t with lines := (l :: t.lines.filter (·.line ≠ l.line)).take 8 }

/-- Fetch the word of a slot at an index: from the lines it holds, else by one line read that its answer keeps (R195, R196, R20). -/
def State.fetch (s : State) (q k i : Nat) : Fetch :=
  let t := s.slot q k
  let ca := (t.addr + 8 * i) % 2 ^ 64
  match t.lines.find? (·.line == ca / 128) with
  | some l => if l.poison ≠ 0 then .fault Sc.accessDenied l.poison s else .word (fieldLE l.bytes (ca % 128) 8) s
  | none =>
    if t.fetching.isSome then .blocked s else
    let x := s.xlate t.ctx (ca / 128 * 128) true false
    if x.1.status ≠ 0 then .fault x.1.status 0 x.2 else
    let u := x.2
    match u.destOf x.1.ga with
    | .unbacked => .fault Sc.accessDenied 0 (u.unbackedAt x.1.ga)
    | .absent =>
      let r := u.linkAbsentData x.1.ga 128 0x0F q
      .fault Sc.accessDenied r.1.mark
        (r.2.setSlot q k (t.keepLine { line := ca / 128, bytes := r.1.bytes, poison := r.1.mark }))
    | .node n =>
      match u.send (readPacket (.slot q k) 1 n x.1.ga 128) (.fetch q k (ca / 128)) with
      | some v => .blocked (v.setSlot q k { t with fetching := some (ca / 128) })
      | none => .blocked s

/-- Halt or end a program with a pellet (R196, R275). -/
def State.endWith (s : State) (q k st mark : Nat) : State :=
  (s.setSlot q k ((s.slot q k).withPellet mark)).endProgram q k st

/-- The extension words of a command, fetched in turn. -/
def State.fetchCmd (s : State) (q k i w0 n : Nat) : Fetch × Cmd :=
  if n = 1 then (.word w0 s, { w0 := w0 }) else
  match s.fetch q k (i + 1) with
  | .word a s =>
    if n = 2 then (.word w0 s, { w0 := w0, w1 := a }) else
    (match s.fetch q k (i + 2) with
     | .word b s => (.word w0 s, { w0 := w0, w1 := a, w2 := b })
     | .blocked s => (.blocked s, { w0 := w0 })
     | .fault st m s => (.fault st m s, { w0 := w0 }))
  | .blocked s => (.blocked s, { w0 := w0 })
  | .fault st m s => (.fault st m s, { w0 := w0 })

/-! What the first word of a command shows: function codes, types and reserved bits (Tables 5.5, 5.9, 12.1 and 14.4). -/

def isFloat (t : Nat) : Bool := 1 ≤ t && t ≤ 3
def isInt (t : Nat) : Bool := 4 ≤ t && t ≤ 6

/-- FUNC values of Table 12.1 with their legal types. -/
def vxTypeOk (f t : Nat) : Bool :=
  if (1 ≤ f && f ≤ 5) || (0x10 ≤ f && f ≤ 0x13) || f == 0x30 || (0x40 ≤ f && f ≤ 0x42) || f == 0x50 || f == 0x51 then
    isFloat t || isInt t
  else if f == 8 || f == 9 then isInt t
  else if f == 0x14 || (0x20 ≤ f && f ≤ 0x23) || (0x28 ≤ f && f ≤ 0x2A) then isFloat t
  else if f == 0x31 then t == 4
  else if f == 0x60 || f == 0x61 then t == 0
  else if f == 0x70 then t == 7
  else false

def vxUsesXs2 (f : Nat) : Bool := (1 ≤ f && f ≤ 5) || f == 8 || f == 9 || f == 0x60 || f == 0x61

def cxUsesXs1 (f : Nat) : Bool := f != 0x18 && f != 0x34
def cxUsesXs2 (f : Nat) : Bool := f == 1 || f == 2 || f == 3 || f == 0x10 || (0x30 ≤ f && f ≤ 0x33)
def cxDefined (f : Nat) : Bool :=
  (1 ≤ f && f ≤ 6) || (8 ≤ f && f ≤ 0xA) || f == 0x10 || f == 0x11 || f == 0x18 || f == 0x20 || (0x30 ≤ f && f ≤ 0x34)

/-- A reserved bit or value in the first word of a command of two or three words: what R198 checks before its bounds. -/
def Slot.headReserved (t : Slot) (w0 : Nat) : Bool :=
  let op := bits w0 56 8
  let f := bits w0 48 8
  if op = 0x30 then
    let d := bits w0 20 3
    let wh := targetShape t.target
    bits w0 12 6 ≠ 0 || bits w0 54 2 == 3 || d == 7 || (!bit w0 23 && d ≠ 0) || (bit w0 19 && !(decide (1 ≤ d) && decide (d ≤ 3))) ||
    (bit w0 18 && decide (d < 4)) || (bit w0 53 && decide (2 < wh.1 * wh.2))
  else if op = 0x31 then !vxTypeOk f (bits w0 44 4) || (!vxUsesXs2 f && bits w0 32 4 ≠ 0)
  else if op = 0x32 then
    !cxDefined f || bits w0 44 4 ≠ 0 || (!cxUsesXs1 f && bits w0 36 4 ≠ 0) || (!cxUsesXs2 f && bits w0 32 4 ≠ 0)
  else if op = 0x33 then decide (5 ≤ bits w0 43 3) || bits w0 40 3 ≠ 0
  else if op = 0x35 then f = 0 || decide (4 < f) || bits w0 32 16 ≠ 0
  else if op = 0x36 then f ≠ 1 || bits w0 40 8 ≠ 0 || bits w0 32 4 ≠ 0
  else if op = 0x37 then bits w0 32 12 ≠ 0
  else false

/-- A command-word row at a slot: its word is fetched, and where it is this row's word, `body` runs it. A fetch that fails
halts the program (R196), and so does a command that reaches beyond the program (R194), after the checks of its first word
(R198). -/
def State.atWord (s : State) (q k : Nat) (sel : Nat → Bool) (body : State → Cmd → State) : Res :=
  if !s.canRun q k then .next s else
  let t := s.slot q k
  if t.words ≤ t.wi then .next s else
  match s.fetch q k t.wi with
  | .blocked s => .next s
  | .fault st m s => .next (s.endWith q k st m)
  | .word w0 s' =>
    if !sel w0 then .next s else
    let n := cmdWords (bits w0 56 8)
    if t.words < t.wi + n then
      .next (s'.endProgram q k (if (s'.slot q k).headReserved w0 then Sc.reservedNonzero else Sc.boundViolation)) else
    match s'.fetchCmd q k t.wi w0 n with
    | (.blocked s, _) => .next s
    | (.fault st m s, _) => .next (s.endWith q k st m)
    | (.word _ s, c) => .next (body s c)

/-- The row of a word whose opcode is no command of the sequencer: the word alone is fetched (R190, R198, R199). -/
def State.atHead (s : State) (q k : Nat) (sel : Nat → Bool) (body : State → State) : Res :=
  if !s.canRun q k then .next s else
  let t := s.slot q k
  if t.words ≤ t.wi then .next s else
  match s.fetch q k t.wi with
  | .blocked s => .next s
  | .fault st m s => .next (s.endWith q k st m)
  | .word w0 s => if !sel w0 then .next s else .next (body s)

/-- A word of one opcode, legal for the sequencer. -/
def isOp (q op : Nat) (w : Nat) : Bool := bits w 56 8 == op && opLegal q op

/-! Registers. -/

def Slot.reg (t : Slot) (r : Nat) : Nat := (t.x.getD r 0).toNat
def Slot.regMark (t : Slot) (r : Nat) : Nat := t.xp.getD r 0

/-- Write a register with its poison mark. -/
def Slot.setReg (t : Slot) (r v m : Nat) : Slot :=
  { t with x := t.x.set r (BitVec.ofNat 64 v), xp := t.xp.set r m }

/-- A register whose load has not been performed. -/
def Slot.pendReg (t : Slot) (r : Nat) : Bool :=
  t.loads.any fun l => !l.block && (l.rd == r || (l.kind == 0x12 && l.rd + 1 == r))

/-- The earliest mark among registers (R274). -/
def Slot.marks (t : Slot) (rs : List Nat) : Nat := rs.foldl (fun m r => firstMark m (t.regMark r)) 0

/-! Advancing. -/

/-- Close the loops whose body ends at a word index: back to the start while iterations are left, else out (R203). -/
def loopBack : List Loop → Nat → List Loop × Nat
  | [], i => ([], i)
  | l :: r, i =>
    if i = l.stop then
      (if 1 < l.left then ({ l with left := l.left - 1 } :: r, l.start) else loopBack r i)
    else (l :: r, i)

/-- Go on to a word index, past any loop ends there; the word's waits are over. -/
def Slot.goto (t : Slot) (i now : Nat) : Slot :=
  let r := loopBack t.loops i
  { t with lastWi := t.wi, wi := r.2, loops := r.1, wait := .nothing, waitNs := now, hang := false, sbWaited := false,
           eyasHeld := false, scan := none, randPos := 0 }

/-- The word of a slot has executed; the next is `n` words on. -/
def State.advance (s : State) (q k n : Nat) : State :=
  let t := s.slot q k
  (s.setSlot q k (t.goto (t.wi + n) s.timeNs)).bump64 Obj.WORDS_EXECUTED

/-- The slot waits at its word (Table 5.14). -/
def State.waitAt (s : State) (q k : Nat) (w : WaitKind) : State := s.setSlot q k ((s.slot q k).waitOn w)

/-! Operations and streams of a program. -/

/-- The engine that an ENG value names (Table 5.1, R225), or none where it is beyond the sequencer's engines. -/
def engOf (q target eng : Nat) : Option Nat :=
  if q < 64 then
    match (targetUnits target)[eng / 4]? with
    | some u => if bits target 12 4 = 2 || eng < 4 then some (u * 4 + eng % 4) else none
    | none => none
  else if q < 104 then (if eng < 4 then some (q * 4 + eng) else none)
  else if q < 120 then (if eng = 0 then some (416 + (q - 104) / 2) else none)
  else if 137 ≤ q then (if eng = 0 then some (424 + (q - 137)) else none)
  else none

/-- Whether a slot's operations, its own streams and the writes of its RAND are complete (R210, R226, Table 9.3). -/
def State.opsDone (s : State) (q k : Nat) : Bool :=
  let t := s.slot q k
  t.ops.isEmpty && (t.engines.all fun e => (s.engine e).st == .idle) &&
  !(s.net.outst.any fun o => o.use == .opWrite (.slot q k))

/-- The mark of a chain's first pellet. -/
def Engine.mark (x : Engine) : Nat := match x.pellet with | some p => p + 1 | none => 0

/-- One final status of a chain reaches its program (R259): one that halts or ends is answered, another becomes sticky; its
pellet counts for the completion. -/
def State.takeStatus (s : State) (q k st mark : Nat) : Nat × State :=
  let t := (s.slot q k).withPellet mark
  if isFaultStatus st || isEndingStatus st then (st, s.setSlot q k t) else (0, s.setSlot q k (t.stick st))

/-- A waiting word takes the final statuses of chains of some engines (R259), those of earlier chains first: the first that halts
or ends. -/
def State.takeStreams (s : State) (q k : Nat) (es : List Nat) : Nat × State :=
  let t := s.slot q k
  let mine (c : Nat × Nat × Nat) : Bool := es.contains c.1
  let first (r x : Nat × State) : Nat × State := (if r.1 ≠ 0 then r.1 else x.1, x.2)
  let r := (t.chains.filter mine).foldl (fun (r : Nat × State) c => first r (r.2.takeStatus q k c.2.1 c.2.2))
    (0, s.setSlot q k { t with chains := t.chains.filter fun c => !mine c })
  (es.filter t.engines.contains).foldl (fun (r : Nat × State) e =>
    let x := r.2.engine e
    let s := r.2.setEngine e { x with unread := false }
    let u := s.slot q k
    let s := s.setSlot q k { u with engines := u.engines.filter (· ≠ e) }
    if x.unread then first r (s.takeStatus q k x.lastStatus x.mark) else (r.1, s)) r

/-- A START finds a final status that its program has not taken: it is kept for that program (R259). -/
def State.keepStatus (s : State) (e : Nat) : State :=
  let x := s.engine e
  let t := s.slot x.seq x.slot
  if x.unread && t.engines.contains e then
    s.setSlot x.seq x.slot { t with engines := t.engines.filter (· ≠ e), chains := t.chains ++ [(e, x.lastStatus, x.mark)] }
  else s

/-- Every engine whose status a program has still to take. -/
def Slot.untaken (t : Slot) : List Nat := t.chains.map (·.1) ++ t.engines

/-- The status of a word that has waited for the slot's operations: a late failure (R412), else its streams'. -/
def State.settle (s : State) (q k : Nat) : Nat × State :=
  let r := s.takeStreams q k (s.slot q k).untaken
  let t := r.2.slot q k
  if t.late ≠ 0 then (t.late, r.2.setSlot q k { t with late := 0 }) else r

/-- A drain of a slot is complete (R378). -/
def State.drained (s : State) (q k : Nat) : Bool := (s.buffered q k).isEmpty

/-- Clear a slot's reservation; a held one counts as lost otherwise (R396). -/
def State.loseRsv (s : State) (q k : Nat) : State :=
  let t := s.slot q k
  if t.resv.isSome then (s.setSlot q k { t with resv := none }).bump Obj.RSV_LOST_OTHER else s

/-- The status a completion reports (R239). -/
def Slot.finalStatus (t : Slot) : Nat :=
  if t.ending > 1 then t.ending - 1
  else if t.sticky ≠ 0 then t.sticky
  else if t.firstPellet.isSome then Sc.okPoisoned
  else if t.excTiles ≠ 0 then Sc.okException
  else Sc.ok

/-- A program leaves its slot as `t`; a follower beside it becomes the leader (R232, R235). -/
def State.vacate (s : State) (q k : Nat) (t : Slot) : State :=
  let s := s.setSlot q k t
  let o := s.slot q (1 - k)
  if o.role == .follower then s.setSlot q (1 - k) { o with role := .leader } else s

/-- A slot is held for the cast that runs in a slot of its origin (R189). -/
def Slot.castOf (t : Slot) (q k : Nat) : Bool := t.castOrigin == some q && t.castSlot == k

/-- The slots of member tiles that the program of a slot holds (R189). -/
def State.memberSlots (s : State) (q k : Nat) : List (Nat × Nat) :=
  (targetUnits (s.slot q k).target).flatMap fun u =>
    if u = q || 64 ≤ u then [] else
    [(u, 0), (u, 1)].filter fun m => (s.slot m.1 m.2).castOf q k

/-- The slots of a program, its own and its cast's members', all leave with it: freed, or kept as halted until its ring is reset
(R165, R189, R232, R235). -/
def State.vacateAll (s : State) (q k : Nat) (halt : Bool) : State :=
  let left (t : Slot) : Slot := if halt then { t with role := .halted, wait := .nothing } else {}
  ((q, k) :: s.memberSlots q k).foldl (fun s m => s.vacate m.1 m.2 (left (s.slot m.1 m.2))) s

/-- The word at which a program ended (R173, R239): where it stands, or the last one executed where it ran past its end (R194). -/
def Slot.finalWord (t : Slot) : Nat := if t.wi < t.words then t.wi else t.lastWi

/-- Write a program's completion and release its slot: a halted program keeps it until its ring is reset (R165, R232, R235),
a follower becomes the leader, and the units go on (R29). -/
def State.completeProgram (s : State) (q k : Nat) : State :=
  let t := s.slot q k
  let st := t.finalStatus
  let ring := s.ring t.ring
  let fault := t.endFault
  let s := s.setRing t.ring { ring with inFlight := ring.inFlight - 1 }
  let s := s.bump64 Obj.PROGRAMS_COMPLETED
  let s := if bit t.flags 1 && st ≤ 1 then s else
    s.postCpl ring.cqId
      (cplBytes t.userTag t.sqIndex t.ring st t.excRec t.excTiles t.finalWord t.firstPellet t.execTarget)
      (bit t.flags 0 || decide (0x10 ≤ st))
  let s := s.vacateAll q k fault
  (targetUnits t.target).foldl (fun s u => s.unitIdle u) (s.unitIdle (seqUnit q))

/-- A program may complete: every operation it issued, its loads, its buffered stores and its posts to other devices are done
(R216, R237, R378). -/
def State.mayComplete (s : State) (q k : Nat) : Bool :=
  s.opsDone q k && s.drained q k && (s.slot q k).loads.isEmpty &&
  !(s.net.outst.any fun o => o.kind.posted && (o.use == .post q k || o.use == .epoch q k))

/-- END is over (R237); a word that was reached counts as executed. -/
def State.endNormally (s : State) (q k : Nat) : State :=
  let t := s.slot q k
  let s := s.setSlot q k { t with ending := 1, wait := .ended }
  if t.wi < t.words then s.bump64 Obj.WORDS_EXECUTED else s

/-- PROGRAM_COMPLETE: END's wait is over, or an ended program's operations are (R237). A failure that END's wait uncovers
ends the program with it instead. -/
def execProgramComplete (q k : Nat) (s : State) : Res :=
  let t := s.slot q k
  if q < 153 && k < 2 && !s.safety.safe && (t.role == .leader || t.role == .follower) && !t.stopping && s.mayComplete q k &&
     (t.ending ≠ 0 || t.wait == .ended) then
    if t.ending ≠ 0 then .next (((s.takeStreams q k t.untaken).2).completeProgram q k)
    else
      let r := s.settle q k
      if r.1 ≠ 0 then .next (r.2.endProgram q k r.1)
      else .next ((r.2.endNormally q k).completeProgram q k)
  else .next s

end Sys2Proof.Machine
end

