-- ==== Sys2Proof/Machine/Words.lean ====
section
/-!
DEFINITION. Control, scalar, memory, fence and semaphore words (R199 to R217, R371 to R387, R395).
-/
namespace Sys2Proof.Machine

/-- A word that has no fields: only reserved bits (Table 5.4). -/
def State.plainWord (s : State) (q k : Nat) (c : Cmd) (t : State → State) : State :=
  if bits c.w0 0 56 ≠ 0 then s.endProgram q k Sc.reservedNonzero else t s

def execNop (q k : Nat) (s : State) : Res :=
  s.atWord q k (isOp q 0x01) fun s c => s.plainWord q k c fun s => s.advance q k 1

/-- Release what a follower's word waits for (R233). -/
def State.releaseFollower (s : State) (q k : Nat) : State := s.setSlot q k { s.slot q k with overlapped := true }

def execOverlap (q k : Nat) (s : State) : Res :=
  s.atWord q k (isOp q 0x07) fun s c => s.plainWord q k c fun s => (s.releaseFollower q k).advance q k 1

/-- END, reached as a word or by running past the program's end (R194): the follower is released, and the program ends when
its operations, streams and stores are done; until then the slot waits (R226, R237, R378). -/
def State.endWord (s : State) (q k : Nat) : State :=
  let s := s.releaseFollower q k
  if s.mayComplete q k then
    let s := s.bump64 Obj.DRAINS
    let r := s.settle q k
    if r.1 ≠ 0 then r.2.endProgram q k r.1
    else r.2.endNormally q k
  else s.waitAt q k .ended

def execEndProgram (q k : Nat) (s : State) : Res :=
  let t := s.slot q k
  if s.canRun q k && decide (t.words ≤ t.wi) then .next (s.endWord q k)
  else s.atWord q k (isOp q 0x02) fun s c => s.plainWord q k c fun s => s.endWord q k

/-- A scalar word that writes one register from others: it waits for pending loads of any of them, and the result takes the
marks of its inputs (R275). -/
def State.scalar (s : State) (q k : Nat) (rd : Nat) (srcs : List Nat) (v : Slot → Nat) : State :=
  let t := s.slot q k
  if t.pendReg rd || srcs.any t.pendReg then s
  else (s.setSlot q k (t.setReg rd (v t) (t.marks srcs))).advance q k 1

def execMovi (q k : Nat) (s : State) : Res :=
  s.atWord q k (isOp q 0x03) fun s c =>
    if bits c.w0 52 4 ≠ 0 then s.endProgram q k Sc.reservedNonzero
    else s.scalar q k (bits c.w0 48 4) [] fun _ => unsgn 64 (sgn 48 c.w0)

def execMovhi (q k : Nat) (s : State) : Res :=
  s.atWord q k (isOp q 0x04) fun s c =>
    if bits c.w0 52 4 ≠ 0 || bits c.w0 16 32 ≠ 0 then s.endProgram q k Sc.reservedNonzero
    else
      let rd := bits c.w0 48 4
      s.scalar q k rd [rd] fun t => setBits (t.reg rd) 48 16 (bits c.w0 0 16)

def execAddi (q k : Nat) (s : State) : Res :=
  s.atWord q k (isOp q 0x05) fun s c =>
    if bits c.w0 52 4 ≠ 0 || bits c.w0 32 12 ≠ 0 then s.endProgram q k Sc.reservedNonzero
    else
      let xs := bits c.w0 44 4
      s.scalar q k (bits c.w0 48 4) [xs] fun t => (t.reg xs + unsgn 64 (sgn 32 c.w0)) % 2 ^ 64

/-- The ALU operations (Table 5.5, R201). -/
def aluOp (op a b : Nat) : Nat :=
  let sh := b % 64
  match op with
  | 0x0 => (a + b) % 2 ^ 64
  | 0x1 => (a + 2 ^ 64 - b) % 2 ^ 64
  | 0x2 => Nat.land a b
  | 0x3 => Nat.lor a b
  | 0x4 => Nat.xor a b
  | 0x5 => a * 2 ^ sh % 2 ^ 64
  | 0x6 => a / 2 ^ sh
  | 0x7 => unsgn 64 (sgn 64 a / (2 ^ sh : Nat))
  | 0x8 => a * b % 2 ^ 64
  | 0x9 => if sgn 64 a ≤ sgn 64 b then a else b
  | 0xA => if sgn 64 a ≤ sgn 64 b then b else a
  | 0xB => min a b
  | _ => max a b

def execAlu (q k : Nat) (s : State) : Res :=
  s.atWord q k (isOp q 0x06) fun s c =>
    if bits c.w0 52 4 ≠ 0 || bits c.w0 4 36 ≠ 0 || 0xC < bits c.w0 0 4 then s.endProgram q k Sc.reservedNonzero
    else
      let xs := bits c.w0 44 4
      let xt := bits c.w0 40 4
      s.scalar q k (bits c.w0 48 4) [xs, xt] fun t => aluOp (bits c.w0 0 4) (t.reg xs) (t.reg xt)

/-- The branch conditions (Table 5.5). -/
def brCond (c a b : Nat) : Bool :=
  match c with
  | 0 => true
  | 1 => a == b
  | 2 => a != b
  | 3 => decide (sgn 64 a < sgn 64 b)
  | 4 => decide (sgn 64 b ≤ sgn 64 a)
  | 5 => decide (a < b)
  | _ => decide (b ≤ a)

/-- Leave the loops whose body a target lies outside (R205). -/
def leaveLoops : List Loop → Nat → List Loop
  | [], _ => []
  | l :: r, i => if l.start ≤ i && i < l.stop then l :: r else leaveLoops r i

/-- A word that uses a marked register as an address, an operand of a branch or a count (R275): the first mark. -/
def State.halted (s : State) (q k m : Nat) : State := s.endWith q k Sc.accessDenied m

def execBr (q k : Nat) (s : State) : Res :=
  s.atWord q k (isOp q 0x08) fun s c =>
    let t := s.slot q k
    let cond := bits c.w0 48 4
    let xs := bits c.w0 44 4
    let xt := bits c.w0 40 4
    if bits c.w0 52 4 ≠ 0 || bits c.w0 24 16 ≠ 0 || 6 < cond || (cond = 0 && (xs ≠ 0 || xt ≠ 0)) then
      s.endProgram q k Sc.reservedNonzero
    else
    let rs := if cond = 0 then [] else [xs, xt]
    if rs.any t.pendReg then s else
    if t.marks rs ≠ 0 then s.halted q k (t.marks rs) else
    if !brCond cond (t.reg xs) (t.reg xt) then s.advance q k 1 else
    let i : Int := (t.wi : Int) + sgn 24 c.w0
    if i < 0 || (t.words : Int) ≤ i then s.endProgram q k Sc.boundViolation
    else
      (s.setSlot q k { t with
        lastWi := t.wi, wi := i.toNat, loops := leaveLoops t.loops i.toNat, wait := .nothing, waitNs := s.timeNs, hang := false }).bump64
        Obj.WORDS_EXECUTED

/-- The check of a LOOP's body (R204): the body's words are fetched in turn from `i` on, whole commands at a time. The answer is
the word it has come to, `stop` where the body ends between two commands; a fetch on its way leaves it at the word it waits for.
A word whose fetch fails is taken as one word: it fails when it executes (R196). -/
def State.scanBody (q k stop : Nat) : Nat → Nat → State → Nat × Bool × State
  | 0, i, s => (i, true, s)
  | f + 1, i, s =>
    if stop ≤ i then (i, true, s) else
    match s.fetch q k i with
    | .word w s => State.scanBody q k stop f (i + cmdWords (bits w 56 8)) s
    | .fault _ _ s => State.scanBody q k stop f (i + 1) s
    | .blocked s => (i, false, s)

/-- LOOP (R203 to R205). A BODY of 0 completes at once, also where 4 loops are active (DESIGN CHOICE, log 50). -/
def execLoop (q k : Nat) (s : State) : Res :=
  s.atWord q k (isOp q 0x09) fun s c =>
    let t := s.slot q k
    let mode := bit c.w0 51
    let xs := bits c.w0 44 4
    let body := bits c.w0 24 16
    let start := t.wi + 1
    let stop := start + body
    if bits c.w0 52 4 ≠ 0 || bits c.w0 48 3 ≠ 0 || bits c.w0 40 4 ≠ 0 || (!mode && xs ≠ 0) || (mode && bits c.w0 0 24 ≠ 0) then
      s.endProgram q k Sc.reservedNonzero
    else if mode && t.pendReg xs then s
    else if mode && t.regMark xs ≠ 0 then s.halted q k (t.regMark xs)
    else if body = 0 then s.advance q k 1
    else if t.words < stop || (match t.loops with | l :: _ => decide (l.stop < stop) | [] => false) || 4 ≤ t.loops.length then
      s.endProgram q k Sc.boundViolation
    else
      let r := State.scanBody q k stop body (t.scan.getD start) s
      let s := r.2.2
      if !r.2.1 then s.setSlot q k { s.slot q k with scan := some r.1 }
      else if r.1 ≠ stop then s.endProgram q k Sc.boundViolation
      else
      let n := if mode then t.reg xs else bits c.w0 0 24
      if n = 0 then s.advance q k (1 + body)
      else
        (s.setSlot q k { s.slot q k with
          lastWi := t.wi, wi := start, loops := { start := start, stop := stop, left := n } :: t.loops,
          wait := .nothing, waitNs := s.timeNs, hang := false, scan := none }).bump64 Obj.WORDS_EXECUTED

/-! Memory words. -/

/-- The address of a memory word: XS + OFF (R206). -/
def memAddr (t : Slot) (c : Cmd) : Nat := (t.reg (bits c.w0 44 4) + unsgn 64 (sgn 32 c.w0)) % 2 ^ 64

/-- The packets of a scalar access: its pieces cut at 128-byte lines, as (global address, offset, bytes). -/
def cutLines (ps : List (Nat × Nat × Nat)) : List (Nat × Nat × Nat) :=
  ps.flatMap fun p => (linePieces (p.2.2 / 128 + 2) p.1 p.2.2).map fun x => (x.1, p.2.1 + (x.1 - p.1), x.2)

/-- A 16-byte pair that is one single-copy-atomic piece (R374). -/
def State.wholePair (s : State) (ga n : Nat) : Bool :=
  n == 16 && ga % 16 == 0 && ga / 2 ^ 56 == s.devId &&
  (match regionOf (ga % 2 ^ 56) with | .hbm | .lpddr | .mxt | .vxt => true | _ => false)

/-- Whether a global address is device space of this device. -/
def State.isMmio (s : State) (ga : Nat) : Bool := ga / 2 ^ 56 == s.devId && regionOf (ga % 2 ^ 56) == .mmio

/-- Combine buffered bytes over a range, later stores over earlier ones: byte, mark, where covered (R375). -/
def coverBytes (es : List SbEntry) (ga : Nat) : Option (Byte × Nat) :=
  es.foldl (fun r e => if e.addr ≤ ga && ga < e.addr + e.bytes.length then some (e.bytes.getD (ga - e.addr) 0, e.poison) else r) none

/-- A byte range overlaps a buffered store. -/
def overlaps (e : SbEntry) (ga n : Nat) : Bool := e.addr < ga + n && ga < e.addr + e.bytes.length

/-- Finish a load with its bytes: extend them and write the register or the pair, with the mark (R207, R275). -/
def Slot.loaded (t : Slot) (l : PendLoad) (bs : List Byte) (m : Nat) : Slot :=
  if l.kind = 0x12 then (t.setReg l.rd (fieldLE bs 0 8) m).setReg (l.rd + 1) (fieldLE bs 8 8) m
  else
    let v := fieldLE bs 0 l.n
    t.setReg l.rd (if l.sx then unsgn 64 (sgn (8 * l.n) v) else v) m

/-- Send the read packets of a load whose PendLoad is `l`, all of them or none (R305). -/
def State.sendReads (s : State) (q k : Nat) (l : PendLoad) : List (Nat × Nat × Nat) → Option State
  | [] => some s
  | p :: r =>
    match s.destNode (p.1 / 2 ^ 56) (p.1 % 2 ^ 56) with
    | none => none
    | some n =>
      match s.send { readPacket (.slot q k) 1 n p.1 p.2.2 with whole := s.wholePair p.1 l.n } (.load q k l.tag p.2.1) with
      | none => none
      | some s => s.sendReads q k l r

/-- LD and LDP of n bytes into rd (R206, R207, R354, R375, R383). -/
def State.loadWord (s : State) (q k : Nat) (c : Cmd) (rd n : Nat) (sx : Bool) : State :=
  let t := s.slot q k
  let xs := bits c.w0 44 4
  let ca := memAddr t c
  let kind := bits c.w0 56 8
  if t.pendReg xs || t.pendReg rd || (kind = 0x12 && t.pendReg (rd + 1)) then s else
  if t.regMark xs ≠ 0 then s.halted q k (t.regMark xs) else
  let x := s.xlateRange t.ctx ca n true false
  if x.1 ≠ 0 then x.2.2.2.endProgram q k x.1 else
  let s1 := x.2.2.2
  let ps := cutLines x.2.1
  let ga := (ps.headD (0, 0, 0)).1
  if s1.isMmio ga then
    if ga % n ≠ 0 || (n ≠ 4 && n ≠ 8) then s1.endProgram q k Sc.alignment
    else if !s1.drained q k || !t.loads.isEmpty then s.waitAt q k .fence
    else
      let l : PendLoad := { tag := s1.nextOp, rd := rd, n := n, sx := sx, kind := kind, word := t.wi, buf := zeros n, block := true, line := ga / 128 }
      match (s1.setSlot q k { t with loads := t.loads ++ [l] }).sendReads q k l ps with
      | some s => ({ s with nextOp := s.nextOp + 1 }.bump64 Obj.DRAINS).advance q k 1
      | none => s
  else
  let own := s1.buffered q k
  let hitsOwn := own.filter fun e => ps.any fun p => overlaps e p.1 p.2.2
  let hitsOther := (s1.buffered q (1 - k)).any fun e => ps.any fun p => overlaps e p.1 p.2.2
  let covered := ps.flatMap fun p => (List.range p.2.2).map fun i => coverBytes own (p.1 + i)
  if hitsOther then s else
  if !hitsOwn.isEmpty then
    if t.sbForward && covered.all (·.isSome) then
      let l : PendLoad := { tag := 0, rd := rd, n := n, sx := sx, kind := kind, word := t.wi }
      let bs := covered.map fun c => match c with | some (b, _) => b | none => 0
      let m := covered.foldl (fun m c => match c with | some (_, p) => firstMark m p | none => m) 0
      ((s1.setSlot q k (t.loaded l bs m)).bump64 Obj.LOADS_FORWARDED).advance q k 1
    else s
  else
  match ps.find? fun p => (s1.destNode (p.1 / 2 ^ 56) (p.1 % 2 ^ 56)).isNone with
  | some p =>
    -- nothing backs the address (R22), or no port leads to its device (R20)
    if s1.destOf p.1 == .unbacked then (s1.unbackedAt p.1).endProgram q k Sc.accessDenied
    else
      let r := s1.linkAbsentData p.1 n 0x0F q
      let l : PendLoad := { tag := 0, rd := rd, n := n, sx := sx, kind := kind, word := t.wi }
      let t := ((t.loaded l r.1.bytes r.1.mark).withPellet r.1.mark).stick Sc.linkAbsent
      (r.2.setSlot q k t).advance q k 1
  | none =>
    let l : PendLoad := { tag := s1.nextOp, rd := rd, n := n, sx := sx, kind := kind, word := t.wi, left := ps.length, buf := zeros n, line := ga / 128 }
    match (s1.setSlot q k { t with loads := t.loads ++ [l] }).sendReads q k l ps with
    | some s => { s with nextOp := s.nextOp + 1 }.advance q k 1
    | none => s

def execLd (q k : Nat) (s : State) : Res :=
  s.atWord q k (isOp q 0x10) fun s c =>
    if bits c.w0 52 4 ≠ 0 || bits c.w0 32 9 ≠ 0 || (bits c.w0 42 2 = 3 && bit c.w0 41) then
      s.endProgram q k Sc.reservedNonzero
    else s.loadWord q k c (bits c.w0 48 4) (2 ^ bits c.w0 42 2) (bit c.w0 41)

def execLdp (q k : Nat) (s : State) : Res :=
  s.atWord q k (isOp q 0x12) fun s c =>
    if bits c.w0 52 4 ≠ 0 || bits c.w0 32 12 ≠ 0 || bit c.w0 48 then s.endProgram q k Sc.reservedNonzero
    else s.loadWord q k c (bits c.w0 48 4) 16 false

/-- ST and STP of n bytes (R207, R354, R374 to R379, R383). -/
def State.storeWord (s : State) (q k : Nat) (c : Cmd) (xv n : Nat) : State :=
  let t := s.slot q k
  let xs := bits c.w0 44 4
  let ca := memAddr t c
  let kind := bits c.w0 56 8
  let vals := if kind = 0x13 then [xv, xv + 1] else [xv]
  if t.pendReg xs || vals.any t.pendReg then s else
  if t.regMark xs ≠ 0 then s.halted q k (t.regMark xs) else
  let x := s.xlateRange t.ctx ca n false true
  if x.1 ≠ 0 then x.2.2.2.endProgram q k x.1 else
  let s1 := x.2.2.2
  let ps := cutLines x.2.1
  let ga := (ps.headD (0, 0, 0)).1
  let data := if kind = 0x13 then leBytes 8 (t.reg xv) ++ leBytes 8 (t.reg (xv + 1)) else leBytes n (t.reg xv)
  let mark := t.marks vals
  if s1.isMmio ga then
    if ga % n ≠ 0 || (n ≠ 4 && n ≠ 8) then s1.endProgram q k Sc.alignment
    else if !s1.drained q k || !t.loads.isEmpty then s.waitAt q k .fence
    else
      let l : PendLoad := { tag := s1.nextOp, rd := 16, n := 0, sx := false, kind := kind, word := t.wi, block := true, line := ga / 128 }
      match s1.destNode (ga / 2 ^ 56) (ga % 2 ^ 56) with
      | none => s
      | some d =>
        (match (s1.setSlot q k { t with loads := t.loads ++ [l] }).send (writePacket (.slot q k) 1 d ga data mark false)
            (.load q k l.tag 0) with
         | some s => ({ s with nextOp := s.nextOp + 1 }.bump64 Obj.DRAINS).advance q k 1
         | none => s)
  else if t.sbDepth < (s1.seq q).sb.length + ps.length then
    (if t.sbWaited then s else (s.setSlot q k { t with sbWaited := true }).bump64 Obj.SB_FULL_WAITS)
  else
    let es := ps.zipIdx.map fun p =>
      ({ slot := k, addr := p.1.1, bytes := (data.drop p.1.2.1).take p.1.2.2, replay := x.2.2.1, poison := mark, sent := false, tag := s1.nextOp + p.2 } : SbEntry)
    let y := s1.seq q
    { s1.setSeq q { y with sb := y.sb ++ es } with nextOp := s1.nextOp + ps.length }.advance q k 1

def execSt (q k : Nat) (s : State) : Res :=
  s.atWord q k (isOp q 0x11) fun s c =>
    if bits c.w0 52 4 ≠ 0 || bits c.w0 32 10 ≠ 0 then s.endProgram q k Sc.reservedNonzero
    else s.storeWord q k c (bits c.w0 48 4) (2 ^ bits c.w0 42 2)

def execStp (q k : Nat) (s : State) : Res :=
  s.atWord q k (isOp q 0x13) fun s c =>
    if bits c.w0 52 4 ≠ 0 || bits c.w0 32 12 ≠ 0 || bit c.w0 48 then s.endProgram q k Sc.reservedNonzero
    else s.storeWord q k c (bits c.w0 48 4) 16

/-- LR, SC and AMO: one aligned piece, performed at its home after the slot's buffered stores to the line (R207 to R209,
R354, R384). `op` is the packet's OP. -/
def State.atomicWord (s : State) (q k : Nat) (c : Cmd) (rd n op : Nat) (data : Slot → List Byte) (uses : List Nat) (r w : Bool) :
    State :=
  let t := s.slot q k
  let xs := bits c.w0 44 4
  let ca := memAddr t c
  if t.pendReg xs || t.pendReg rd || uses.any t.pendReg then s else
  if t.regMark xs ≠ 0 then s.halted q k (t.regMark xs) else
  if ca % n ≠ 0 then s.endProgram q k Sc.alignment else
  let x := s.xlateRange t.ctx ca n r w
  if x.1 ≠ 0 then x.2.2.2.endProgram q k x.1 else
  let s1 := x.2.2.2
  let ga := (x.2.1.headD (0, 0, 0)).1
  if s1.isMmio ga then s1.endProgram q k Sc.accessDenied else
  if (s1.buffered q k).any (fun e => e.addr / 128 == ga / 128) then s else
  -- an SC beyond this device's memories asks first whether the slot holds the reservation (R395, R396)
  let away := op = 0x11 && !(s1.isDirect ga)
  if away && t.loads.any (fun l => l.kind == 0x14) then s else
  if away && t.resv != some (ga / 128) then
    ((s1.setSlot q k { t.setReg rd 1 0 with resv := none }).bump Obj.SC_FAIL).advance q k 1 else
  let t := if away then { t with resv := none } else t
  let mark := t.marks uses
  let l : PendLoad := { tag := s1.nextOp, rd := rd, n := n, sx := false, kind := bits c.w0 56 8, word := t.wi, buf := zeros n,
                        mark := if op = 0x11 then 0 else mark, line := ga / 128 }
  match s1.destNode (ga / 2 ^ 56) (ga % 2 ^ 56) with
  | none =>
    if s1.destOf ga == .unbacked then (s1.unbackedAt ga).endProgram q k Sc.accessDenied
    else
      let a := s1.linkAbsentData ga n 0x0F q
      let t := ((t.loaded l a.1.bytes a.1.mark).withPellet a.1.mark).stick Sc.linkAbsent
      (a.2.setSlot q k t).advance q k 1
  | some d =>
    match (s1.setSlot q k { t with loads := t.loads ++ [l] }).send
        { id := 0, kind := .amoReq, tc := 0, src := 0, dst := d, at_ := 0, dev := ga / 2 ^ 56, addr := ga % 2 ^ 56, len := n,
          data := data t, op := op, sz := if n = 8 then 1 else 0, agent := .slot q k } (.load q k l.tag 0) with
    | some s => { s with nextOp := s.nextOp + 1 }.advance q k 1
    | none => s

def execLr (q k : Nat) (s : State) : Res :=
  s.atWord q k (isOp q 0x14) fun s c =>
    if bits c.w0 52 4 ≠ 0 || bits c.w0 32 12 ≠ 0 then s.endProgram q k Sc.reservedNonzero
    else s.atomicWord q k c (bits c.w0 48 4) 8 0x10 (fun _ => zeros 16) [] true false

def execSc (q k : Nat) (s : State) : Res :=
  s.atWord q k (isOp q 0x15) fun s c =>
    let xv := bits c.w0 40 4
    if bits c.w0 52 4 ≠ 0 || bits c.w0 32 8 ≠ 0 then s.endProgram q k Sc.reservedNonzero
    else s.atomicWord q k c (bits c.w0 48 4) 8 0x11 (fun t => leBytes 8 (t.reg xv) ++ zeros 8) [xv] true true

def execAmo (q k : Nat) (s : State) : Res :=
  s.atWord q k (isOp q 0x16) fun s c =>
    let rd := bits c.w0 48 4
    let xv := bits c.w0 40 4
    let aop := bits c.w0 35 4
    if bits c.w0 52 4 ≠ 0 || bits c.w0 32 3 ≠ 0 || 9 < aop then s.endProgram q k Sc.reservedNonzero
    else s.atomicWord q k c rd (if bit c.w0 39 then 8 else 4) aop (fun t => leBytes 8 (t.reg xv) ++ leBytes 8 (t.reg rd))
      (if aop = 9 then [xv, rd] else [xv]) true true

/-! Fences. -/

/-- A FENCE word of one kind. -/
def isFence (q kind : Nat) (w : Nat) : Bool := isOp q 0x17 w && bits w 48 4 == kind

/-- A fence: its reserved bits and reserved KIND, then its wait, then its effect (R200, R385). -/
def State.fence (s : State) (q k : Nat) (c : Cmd) (done : Bool) (t : State → State) : State :=
  if bits c.w0 52 4 ≠ 0 || bits c.w0 0 48 ≠ 0 || 4 < bits c.w0 48 4 then s.endProgram q k Sc.reservedNonzero
  else if done then (t s).advance q k 1
  else s.waitAt q k .fence

/-- FENCE DRAIN; a FENCE of a reserved KIND halts here (R200, R242). -/
def execFenceDrain (q k : Nat) (s : State) : Res :=
  s.atWord q k (fun w => isFence q 0 w || (isOp q 0x17 w && decide (4 < bits w 48 4))) fun s c =>
    s.fence q k c (s.drained q k) fun s => (s.loseRsv q k).bump64 Obj.DRAINS

def execFenceAcquire (q k : Nat) (s : State) : Res :=
  s.atWord q k (isFence q 1) fun s c => s.fence q k c (s.slot q k).loads.isEmpty id

def execFenceRelease (q k : Nat) (s : State) : Res :=
  s.atWord q k (isFence q 2) fun s c =>
    s.fence q k c ((s.slot q k).loads.isEmpty && s.drained q k) fun s => s.bump64 Obj.DRAINS

def execFenceFull (q k : Nat) (s : State) : Res :=
  s.atWord q k (isFence q 3) fun s c =>
    s.fence q k c ((s.slot q k).loads.isEmpty && s.drained q k) fun s =>
      (s.setSlot q k { s.slot q k with lines := [] }).bump64 Obj.DRAINS

/-- Wait for the slot's operations and streams, then go on or end with what they report (R210, R226, R259, R412). -/
def State.afterOps (s : State) (q k : Nat) (t : State → State) : State :=
  if s.opsDone q k then
    let r := s.settle q k
    if r.1 ≠ 0 then r.2.endProgram q k r.1 else t r.2
  else s.waitAt q k .fence

def execFenceUnits (q k : Nat) (s : State) : Res :=
  s.atWord q k (isFence q 4) fun s c =>
    if bits c.w0 52 4 ≠ 0 || bits c.w0 0 48 ≠ 0 then s.endProgram q k Sc.reservedNonzero
    else s.afterOps q k fun s => s.advance q k 1

/-! RAND. -/

/-- The DRBG answers requests: seeded, and its source healthy (R567). -/
def State.drbgUp (s : State) : Bool := s.drbg.seeded && s.drbg.healthy

/-- Write free bytes to the next lines of a RAND, by packets that the operation waits for, as far as tags are free (R211, R304):
the status that ends it, and the bytes sent. -/
def State.randLines (q k : Nat) (replay : Bool) : List (Nat × Nat × Nat) → State → Nat × Nat × State
  | [], s => (0, 0, s)
  | p :: r, s =>
    let more (s : State) : Nat × Nat × State :=
      let u := State.randLines q k replay r s
      (u.1, p.2.2 + u.2.1, u.2.2)
    match s.destOf p.1 with
    | .unbacked => (Sc.accessDenied, 0, s.unbackedAt p.1)
    | .absent => more (s.setSlot q k ((s.slot q k).stick Sc.linkAbsent))
    | .node n =>
      let d := s.drawBytes p.2.2
      match d.2.send (writePacket (.slot q k) 1 n p.1 d.1 0 replay) (.opWrite (.slot q k)) with
      | some t => more t
      | none => (0, 0, s)

/-- RAND (R211): COUNT bytes of the DRBG are written. Its request to the DRBG is made once; where tags run out, the word goes on
with the next line when one is free (R304). -/
def execRand (q k : Nat) (s : State) : Res :=
  s.atWord q k (isOp q 0x18) fun s c =>
    let t := s.slot q k
    let xs := bits c.w0 44 4
    let n := bits c.w0 0 32
    if bits c.w0 48 8 ≠ 0 || bits c.w0 32 12 ≠ 0 then s.endProgram q k Sc.reservedNonzero
    else if n = 0 then s.advance q k 1
    else if t.randPos = 0 && !s.drbgUp then s.endProgram q k Sc.unitDisabled
    else if n % 8 ≠ 0 then s.endProgram q k Sc.boundViolation
    else if t.pendReg xs then s
    else if t.regMark xs ≠ 0 then s.halted q k (t.regMark xs)
    else
      let x := s.xlateRange t.ctx (t.reg xs) n false true
      if x.1 ≠ 0 then x.2.2.2.endProgram q k x.1 else
      let u : State := if t.randPos ≠ 0 then s else
        { x.2.2.2 with drbg := { x.2.2.2.drbg with requests := x.2.2.2.drbg.requests + cdiv n 65536 } }
      let r := State.randLines q k x.2.2.1 ((cutLines x.2.1).filter fun p => decide (t.randPos ≤ p.2.1)) u
      if r.1 ≠ 0 then r.2.2.endProgram q k r.1
      else if r.2.1 = 0 then s
      else if t.randPos + r.2.1 = n then r.2.2.advance q k 1
      else r.2.2.setSlot q k { r.2.2.slot q k with randPos := t.randPos + r.2.1 }

/-! Semaphores. -/

def execSemwait (q k : Nat) (s : State) : Res :=
  s.atWord q k (isOp q 0x20) fun s c =>
    let t := s.slot q k
    let m := semOf (bits c.w0 40 11) (bits c.w0 51 1)
    let n := bits c.w0 0 16
    if bits c.w0 52 4 ≠ 0 || bits c.w0 24 16 ≠ 0 || bits c.w0 16 4 ≠ 0 then s.endProgram q k Sc.reservedNonzero
    else if t.semWait.isSome then s
    else if s.canTake m n (.slot q k) then (s.takeNow (.slot q k) m n (.slot q k)).advance q k 1
    else
      match s.send (waitPacket (.slot q k) m n (bits c.w0 20 4) false) (.post q k) with
      | some s => s.setSlot q k ((({ t with semWait := some m } : Slot)).waitOn .semwait)
      | none => s

/-- SEMWAIT_SATISFIED (R213, R292): the table takes the count of a slot's wait and grants it; the program goes on with the grant. -/
def execSemwaitSatisfied (q k : Nat) (s : State) : Res :=
  match s.waitOf (.slot q k) with
  | some w =>
    if s.safety.safe || !s.canTake w.sem w.count (.slot q k) then .next s
    else .next ((s.take w.sem w.count (.slot q k)).answerWait w Sc.ok)
  | none => .next s

/-- SEMWAIT_TIMEOUT (R213, R292): the limit of a slot's wait passes; the table answers TIMEOUT, which ends the program. -/
def execSemwaitTimeout (q k : Nat) (s : State) : Res :=
  match s.waitOf (.slot q k) with
  | some w => occ (!s.safety.safe && (tmoNs w.tmo).any (s.passed w.sinceNs)) s (s.answerWait w Sc.timeout)
  | none => .next s

/-- A release by a slot: earlier loads performed and stores visible (R378, R386, R387). -/
def State.released (s : State) (q k : Nat) : Bool := (s.slot q k).loads.isEmpty && s.drained q k

def execSempost (q k : Nat) (s : State) : Res :=
  s.atWord q k (isOp q 0x21) fun s c =>
    let which := bits c.w0 51 1
    let pair := bits c.w0 40 11
    let dev := bits c.w0 32 8
    let n := bits c.w0 0 16
    if bits c.w0 52 4 ≠ 0 || bits c.w0 16 15 ≠ 0 then s.endProgram q k Sc.reservedNonzero
    else if !s.released q k then s.waitAt q k .fence
    else
      let go (s : State) : State :=
        let s := s.bump64 Obj.DRAINS
        if dev = s.devId then
          let r := (s.counted (.slot q k)).post (semOf pair which) n
          if r.1 then r.2.advance q k 1 else r.2.endProgram q k Sc.overrun
        else match s.portFor dev pair with
          | none => (s.setSlot q k ((s.slot q k).stick Sc.linkAbsent)).advance q k 1
          | some p =>
            (match s.send (postPacket (.slot q k) (unitNode (unitOf 6 p)) dev (semOf pair which) n) (.post q k) with
             | some s => s.advance q k 1
             | none => s)
      if bit c.w0 31 then s.afterOps q k go else go s

def execSeminit (q k : Nat) (s : State) : Res :=
  s.atWord q k (isOp q 0x22) fun s c =>
    if bits c.w0 51 5 ≠ 0 || bits c.w0 32 8 ≠ 0 then s.endProgram q k Sc.reservedNonzero
    else if !s.released q k then s.waitAt q k .fence
    else (((s.setJess (bits c.w0 40 11) { fill := bits c.w0 16 16, free := bits c.w0 0 16 }).bump64 Obj.DRAINS)).advance q k 1

/-! System words. -/

/-- Whether an EPOCH word has a form of Table 5.10. -/
def isEpoch (q mode : Nat) (w : Nat) : Bool := isOp q 0x38 w && bits w 54 2 == mode

/-- EPOCH MARK's effect (R227): a trigger of a local domain whose source is COMMAND, or a mark that leaves for another
device. -/
def State.markEpoch (s : State) (q k d dev : Nat) (next : State → State) : State :=
  if dev = s.devId then
    if s.edSource d ≠ 1 then s.endProgram q k Sc.accessDenied else next ((s.counted (.slot q k)).trigger d)
  else match s.portFor dev d with
    | none => next (s.setSlot q k ((s.slot q k).stick Sc.linkAbsent))
    | some p =>
      match s.send { id := 0, kind := .epochMark, tc := 0, src := 0, dst := unitNode (unitOf 6 p), at_ := 0, dev := dev, ed := d,
                     agent := .slot q k, sentNs := 0 } (.epoch q k) with
      | some s => next s
      | none => s

/-- EPOCH MARK; an EPOCH of the reserved MODE halts here (R200, R242). -/
def execEpochMarkCmd (q k : Nat) (s : State) : Res :=
  s.atWord q k (fun w => isEpoch q 0 w || isEpoch q 3 w) fun s c =>
    if bits c.w0 54 2 = 3 || bit c.w0 53 || bits c.w0 0 40 ≠ 0 then s.endProgram q k Sc.reservedNonzero
    else if !s.released q k then s.waitAt q k .fence
    else (s.bump64 Obj.DRAINS).markEpoch q k (bits c.w0 48 5) (bits c.w0 40 8) fun s => s.advance q k 1

/-- Begin to wait for the next commit of a domain (R228). -/
def State.beginEpochWait (s : State) (q k d : Nat) : State :=
  (s.setSlot q k { s.slot q k with epochWait := some (d, (s.epoch d).commits) }).waitAt q k .epoch

/-- EPOCH WAIT begins to wait; when a commit of the domain has completed since, it goes on. -/
def State.epochWaitWord (s : State) (q k d : Nat) (begin_ : State → State) : State :=
  match (s.slot q k).epochWait with
  | none => begin_ s
  | some (e, n) =>
    if e = d && n < (s.epoch d).commits then
      (s.setSlot q k { s.slot q k with epochWait := none }).advance q k 1
    else s

def execEpochWaitCmd (q k : Nat) (s : State) : Res :=
  s.atWord q k (isEpoch q 1) fun s c =>
    if bit c.w0 53 || bits c.w0 0 40 ≠ 0 || bits c.w0 40 8 ≠ s.devId then s.endProgram q k Sc.reservedNonzero
    else s.epochWaitWord q k (bits c.w0 48 5) fun s => s.beginEpochWait q k (bits c.w0 48 5)

def execEpochMarkWait (q k : Nat) (s : State) : Res :=
  s.atWord q k (isEpoch q 2) fun s c =>
    if bit c.w0 53 || bits c.w0 0 40 ≠ 0 then s.endProgram q k Sc.reservedNonzero
    else s.epochWaitWord q k (bits c.w0 48 5) fun s =>
      if !s.released q k then s.waitAt q k .fence
      else
        let d := bits c.w0 48 5
        (s.bump64 Obj.DRAINS).markEpoch q k d (bits c.w0 40 8) fun s =>
          (s.setSlot q k { s.slot q k with epochWait := some (d, (s.epoch d).commits) }).waitAt q k .epoch

def execIllegalOpcode (q k : Nat) (s : State) : Res :=
  s.atHead q k (fun w => !opLegal q (bits w 56 8)) fun s => s.endProgram q k Sc.illegalOp

/-- HANG_WATCH_HIT: a program has stood at one word for longer than the limit that its dispatch took (R240). -/
def execHangWatchHit (q k : Nat) (s : State) : Res :=
  let t := s.slot q k
  occ (q < 153 && k < 2 && (t.role == .leader || t.role == .follower) && t.castOrigin.isNone && !t.hang && t.hangMs ≠ 0 &&
       decide (t.waitNs + t.hangMs * 1000000 < s.timeNs)) s
    ((s.setSlot q k { t with hang := true }).bump Obj.HANG_WATCH_HITS)

def execReservationTimeout (q k : Nat) (s : State) : Res :=
  let t := s.slot q k
  occ (q < 153 && k < 2 && t.resv.isSome) s ((s.setSlot q k { t with resv := none }).bump Obj.RSV_LOST_TIMEOUT)

/-- A store buffer entry is sent: every earlier load of its slot performed, every earlier entry of the slot to its line
acknowledged (R376). An address that nothing backs answers at once. -/
def execStoreBufferSend (q i : Nat) (s : State) : Res :=
  let x := s.seq q
  match x.sb[i]? with
  | none => .next s
  | some e =>
    let t := s.slot q e.slot
    let free := !e.sent && !(t.loads.any fun l => decide (l.tag < e.tag)) &&
      (x.sb.take i).all fun o => !(o.slot == e.slot && o.addr / 128 == e.addr / 128)
    if q < 153 && !s.safety.safe && free then
      let gone := s.setSeq q { x with sb := x.sb.take i ++ x.sb.drop (i + 1) }
      match s.destOf e.addr with
      | .unbacked => .next (((gone.unbackedAt e.addr).bump Obj.STORE_FAULTS).endProgram q e.slot Sc.accessDenied)
      | .absent => .next (gone.setSlot q e.slot ((gone.slot q e.slot).stick Sc.linkAbsent))
      | .node n =>
        (match s.send { writePacket (.slot q e.slot) 1 n e.addr e.bytes e.poison e.replay with whole := s.wholePair e.addr e.bytes.length }
            (.sbStore q e.tag) with
         | some s => .next (s.setSeq q { x with sb := x.sb.set i { e with sent := true } })
         | none => .next s)
    else .next s

end Sys2Proof.Machine
end

