-- ==== Sys2Proof/Machine/Issue.lean ====
section
/-!
DEFINITION. Issuing unit operations (R218, R231 to R234) and what follows when a unit's checker fails (R743).
-/
namespace Sys2Proof.Machine

/-- The program that a slot is held for: its own, or that of the cast it belongs to (R189). -/
def State.programOf (s : State) (q k : Nat) : Slot :=
  let t := s.slot q k
  match t.castOrigin with | some o => s.slot o t.castSlot | none => t

/-- A follower's unit operation is held until the leader has reached END, its STREAM STARTs until OVERLAP (R233, R235), on every
sequencer whose slot the program holds. -/
def State.leaderHolds (s : State) (q k : Nat) (stream : Bool) : Bool :=
  ((q, k) :: s.memberSlots q k).any fun m =>
    let o := s.slot m.1 (1 - m.2)
    let p := s.programOf m.1 (1 - m.2)
    (s.slot m.1 m.2).role == .follower && o.role == .leader &&
    (if stream then !p.overlapped else !(p.wait == .ended || p.ending ≠ 0))

/-- Put an operation at the tail of its unit's queue and go on (R218). -/
def State.pushOp (s : State) (q k : Nat) (c : Cmd) : State :=
  let t := s.slot q k
  let x := s.seq q
  let o : UnitOp := { id := s.nextOp, seq := q, slot := k, opcode := bits c.w0 56 8, w0 := c.w0, w1 := c.w1, w2 := c.w2, x := t.x,
                      ctx := t.ctx, word := t.wi }
  let s := { s.setSeq q { x with queue := x.queue ++ [o] } with nextOp := s.nextOp + 1 }
  (s.setSlot q k { s.slot q k with ops := t.ops ++ [o.id] }).advance q k (cmdWords (bits c.w0 56 8))

/-- A unit-operation word: its registers performed and unmarked, its checks, a count of 0, the leader's hold, room in the
queue, then the issue. `regs` are the registers it uses as addresses; `check` is the first failure of R198. -/
def State.issue (s : State) (q k : Nat) (c : Cmd) (regs : List Nat) (check : State → Slot → Nat) (zero : Bool) : State :=
  let t := s.slot q k
  if regs.any t.pendReg then s
  else
    let st := check s t
    if st = Sc.illegalOp || st = Sc.reservedNonzero || st = Sc.unitDisabled then s.endProgram q k st
    else if (targetUnits t.execTarget).any fun u => s.unitSt u == .faulted then s.endProgram q k Sc.unitDisabled
    else if zero then s.advance q k (cmdWords (bits c.w0 56 8))
    else if t.marks regs ≠ 0 then s.halted q k (t.marks regs)
    else if st ≠ 0 then s.endProgram q k st
    else if s.leaderHolds q k false then s.waitAt q k .leader
    else if t.depth ≤ (s.seq q).queue.length then s.waitAt q k .issueQueue
    else s.pushOp q k c

/-- ISSUE_QUEUE_ROOM: the waiting word's operation is issued (R218); its checks were made when the word was reached. -/
def execIssueQueueRoom (q k : Nat) (s : State) : Res :=
  let t := s.slot q k
  if s.canRun q k && t.wait == .issueQueue && decide ((s.seq q).queue.length < t.depth) then
    match s.fetch q k t.wi with
    | .word w0 s' =>
      (match s'.fetchCmd q k t.wi w0 (cmdWords (bits w0 56 8)) with
       | (.word _ s, c) => .next (s.pushOp q k c)
       | _ => .next s)
    | _ => .next s
  else .next s

/-- A residue checker of a unit disagrees (R743): the unit enters FAULTED with cause CHECKER, its operations end, and the
programs that name it end with INTERNAL_FAULT. -/
def State.checkerFault (s : State) (u : Nat) : State :=
  let s : State := match unitSeq u with
    | some q =>
      let x : Sequencer := s.seq q
      let ids := x.queue.map fun (o : UnitOp) => o.id
      let drop (t : Slot) : Slot := { t with ops := t.ops.filter fun i => !(ids.contains i) }
      s.setSeq q { x with queue := [], s0 := drop x.s0, s1 := drop x.s1 }
    | none => s
  let s := (s.slotsNaming u).foldl (fun (s : State) (x : Nat × Nat) =>
    if (s.slot x.1 x.2).role == .halted then s else s.endProgram x.1 x.2 Sc.internalFault) s
  s.unitFault u 1

/-- The operation at the head of a unit's queue. -/
def State.headOp (s : State) (q : Nat) : Option UnitOp := (s.seq q).queue.head?

/-- The register value an operation captured (R218). -/
def UnitOp.reg (o : UnitOp) (r : Nat) : Nat := (o.x.getD r 0).toNat

/-- Count an output tile's record (R430). -/
def State.countExc (s : State) (r : List Byte) : State :=
  if !excHolds r then s else
  let s := s.bump64 Obj.EXC_NAN (fieldLE r 6 2)
  let s := s.bump64 Obj.EXC_POS_INF (fieldLE r 8 2)
  let s := s.bump64 Obj.EXC_NEG_INF (fieldLE r 10 2)
  let s := s.bump64 Obj.EXC_SAT_HIGH (fieldLE r 12 2)
  let s := s.bump64 Obj.EXC_SAT_LOW (fieldLE r 14 2)
  s.bump64 Obj.EXC_TILES_TOTAL

end Sys2Proof.Machine
end

