-- ==== Sys2Proof/Machine/Matrix.lean ====
section
/-!
DEFINITION. Matrix passes (R403 to R417, R431 to R457): the word, the start in the arrays, accumulation, checksums, drain.
-/
namespace Sys2Proof.Machine

/-! Tiles and banks. -/

def Tile.bank (t : Tile) : Bank := if t.cur = 0 then t.b0 else t.b1

def Tile.setBank (t : Tile) (b : Bank) : Tile := if t.cur = 0 then { t with b0 := b } else { t with b1 := b }

/-- The place of a dimension's first spare in a tile's list: rows 256 to 263, then columns 256 to 263. -/
def spareBase (column : Bool) : Nat := if column then 8 else 0

def Tile.spareAt (t : Tile) (i : Nat) : Spare := t.spares.getD i {}

/-- The place of the spare that serves a main index (R431). -/
def Tile.serving (t : Tile) (column : Bool) (i : Nat) : Option Nat :=
  (List.range 8).map (· + spareBase column) |>.find? fun k =>
    let x := t.spareAt k
    (x.use == .factory || x.use == .field) && x.main == i

/-- The physical row or column that serves logical index i (R431). -/
def Tile.physical (t : Tile) (column : Bool) (i : Nat) : Nat :=
  match t.serving column i with
  | some k => 256 + (k - spareBase column)
  | none => i

/-- Available spares of a dimension, lowest first. -/
def Tile.freeSpares (t : Tile) (column : Bool) : List Nat :=
  ((List.range 8).map (· + spareBase column)).filter fun k => (t.spareAt k).use == .available

/-- The spare of a dimension that computes checksums: the highest-numbered available one (R432). -/
def Tile.abftSpare (t : Tile) (column : Bool) : Option Nat := (t.freeSpares column).getLast?

/-- A tile has a spare row and a spare column for checksums (R455). -/
def Tile.abftAvailable (t : Tile) : Bool := (t.abftSpare false).isSome && (t.abftSpare true).isSome

/-! The fields of a pass (Table 5.8). -/

/-- A decoded MXPASS with the register values it uses. -/
structure Pass where
  dflow : Nat
  prop : Bool
  int4 : Bool
  sa : Bool
  sb : Bool
  wrap : Bool
  accum : Bool
  kk : Nat
  drain : Bool
  dfmt : Nat
  rha : Bool
  bias : Bool
  xa : Nat
  xb : Nat
  xc : Nat
  m : Nat
  n : Nat
  xq : Nat
  lda : Nat
  ldb : Nat
  ldc : Nat
  abft : Bool

def decodePass (w0 w1 w2 : Nat) (reg : Nat → Nat) : Pass :=
  { dflow := bits w0 54 2, prop := bit w0 53, int4 := bit w0 52, sa := bit w0 51, sb := bit w0 50, wrap := bit w0 49,
    accum := bit w0 48, kk := bits w0 24 24, drain := bit w0 23, dfmt := bits w0 20 3, rha := bit w0 19, bias := bit w0 18,
    xa := reg (bits w0 8 4), xb := reg (bits w0 4 4), xc := reg (bits w0 0 4), m := bits w1 52 12, n := bits w1 40 12,
    xq := reg (bits w1 36 4), lda := bits w1 18 18 * 16, ldb := bits w1 0 18 * 16, ldc := bits w2 46 18 * 16, abft := bit w2 45 }

/-- Output rows and columns that one tile of a target holds at a width (R447). -/
def Pass.part (p : Pass) : Nat := if p.int4 then 512 else 256

/-- Bits of an operand element and of an output element. -/
def Pass.opBits (p : Pass) : Nat := if p.int4 then 4 else 8
def outBits (dfmt : Nat) : Nat :=
  match dfmt with | 0 => 32 | 1 => 16 | 2 => 8 | 3 => 4 | 4 => 32 | 5 => 16 | _ => 16

/-- Bytes that a row of n elements of w bits takes (R439). -/
def rowBytes (n w : Nat) : Nat := cdiv (n * w) 8

/-- The accumulator is signed (R405); its width and range. -/
def Pass.signed (p : Pass) : Bool := p.sa || p.sb
def Pass.accW (p : Pass) : Nat := if p.int4 then 24 else 32
def Pass.accLo (p : Pass) : Int := if p.signed then -(2 ^ (p.accW - 1) : Nat) else 0
def Pass.accHi (p : Pass) : Int := if p.signed then (2 ^ (p.accW - 1) : Nat) - 1 else (2 ^ p.accW : Nat) - 1

/-! Cycle counts (R441, R443 to R446). -/

/-- The lengths of the chunks of k over `r` cells: whole ones, then the remainder (R441). -/
def chunks (k r : Nat) : List Nat := (List.range (cdiv k r)).map fun j => min r (k - j * r)

/-- Cell rows and cell columns that a pass uses (R433). -/
def Pass.cellRows (p : Pass) : Nat := if p.int4 then cdiv p.m 2 else p.m
def Pass.cellCols (p : Pass) : Nat := if p.int4 then cdiv p.n 2 else p.n

/-- L and S of a pass on a target of `wh` tiles (Table 11.2); `reuse` is R442's. -/
def Pass.loadStream (p : Pass) (wh : Nat × Nat) (reuse : Bool) : Nat × Nat :=
  let go (cs : List Nat) (edge : Nat) : Nat × Nat :=
    (if reuse then 0 else cs.headD 0, edge + (cs.tail.map (max edge)).sum)
  match p.dflow with
  | 1 => go (chunks p.kk (256 * wh.2)) p.cellRows
  | 2 => go (chunks p.kk (256 * wh.1)) p.cellCols
  | _ => (0, p.kk)

/-- F of a target (Table 11.3): the systolic fill of the whole target, or the depth of the broadcast trees. -/
def fillCycles (broadcast : Bool) (wh : Nat × Nat) : Nat :=
  if broadcast then (if wh.1 * wh.2 = 1 then 5 else 9) else 256 * wh.2 + 256 * wh.1 - 1

/-- D of a pass: its drain, every member in parallel (R445). -/
def Pass.drainCycles (p : Pass) (compares : Bool) : Nat :=
  if !p.drain then 0
  else (if 4 ≤ p.dfmt then 16 else 12) + (if p.int4 then 4 else 1) * min 256 p.cellRows + (if compares then 4 else 0)

/-- TCLK cycles from a pass's first cycle to its outputs: E + F + D (R443). -/
def Pass.cycles (p : Pass) (wh : Nat × Nat) (reuse compares : Bool) : Nat :=
  let ls := p.loadStream wh reuse
  ls.1 + ls.2 + fillCycles p.prop wh + p.drainCycles compares

/-! Issue. -/

/-- The width and target of the pass that will last have added into the bank a new pass of `seq` accumulates into, on one
tile: the passes queued before it are followed through (R410, R436). OPW is coded as in Bank. -/
def State.bankAhead (s : State) (tile : Nat) : Nat × Nat :=
  let t := s.tile tile
  let qs := (s.seqs.flatMap fun e => e.2.queue.map fun o => (o, (s.slot e.1 o.slot).target)).filter fun x =>
    x.1.opcode == 0x30 && ((targetUnits x.2).contains tile || x.1.seq == tile)
  let step (r : Bool × (Nat × Nat) × (Nat × Nat)) (x : UnitOp × Nat) : Bool × (Nat × Nat) × (Nat × Nat) :=
    let e := (b2n (bit x.1.w0 52) + 1, x.2)
    let r := if r.1 then (r.1, r.2.1, e) else (r.1, e, r.2.2)
    if bit x.1.w0 23 then (!r.1, r.2) else r
  let r := qs.foldl step (t.cur = 1, (t.b0.opw, t.b0.target), (t.b1.opw, t.b1.target))
  if r.1 then r.2.2 else r.2.1

/-- The checks of an MXPASS word, in the order of R198 (R221, R222, R410, R436, R439). -/
def passCheck (q : Nat) (c : Cmd) (s : State) (t : Slot) : Nat :=
  let p := decodePass c.w0 c.w1 c.w2 t.reg
  let wh := targetShape t.target
  let rn := bit c.w0 19
  let fdm := 4 ≤ p.dfmt
  let xqf := bits c.w1 36 4
  let mRows := min p.m p.part
  let nCols := min p.n p.part
  let past (off stride rows len : Nat) : Bool := decide (0x400000 ≤ off) || decide (0x400000 < off + (rows - 1) * stride + len)
  let aLen := rowBytes p.kk p.opBits
  let cLen := rowBytes nCols (outBits p.dfmt)
  let params := p.drain && p.dfmt ≠ 0
  firstFail [
    (bits c.w0 12 6 ≠ 0 || bits c.w2 0 45 ≠ 0 || p.dflow == 3 || p.dfmt == 7, Sc.reservedNonzero),
    (!p.drain && p.dfmt ≠ 0, Sc.reservedNonzero),
    (rn && !(decide (1 ≤ p.dfmt) && decide (p.dfmt ≤ 3)), Sc.reservedNonzero),
    (p.bias && !fdm, Sc.reservedNonzero),
    (!params && xqf ≠ 0, Sc.reservedNonzero),
    (p.prop && decide (2 < wh.1 * wh.2), Sc.reservedNonzero),
    (p.accum && (if bits t.target 12 4 = 2 then targetUnits t.target else [q]).any (fun u =>
        let b := s.bankAhead u
        b.1 ≠ 0 && (b.1 ≠ b2n p.int4 + 1 || b.2 ≠ t.target)), Sc.reservedNonzero),
    (decide (wh.2 * p.part < p.m) || decide (wh.1 * p.part < p.n), Sc.boundViolation),
    (decide (p.lda < aLen) || decide (p.ldb < aLen) || (p.drain && decide (p.ldc < cLen)), Sc.boundViolation),
    (past p.xa p.lda mRows aLen || past p.xb p.ldb nCols aLen || (p.drain && past p.xc p.ldc mRows cLen) ||
      (params && past p.xq 8 nCols 8), Sc.boundViolation),
    (p.xa % 16 ≠ 0 || p.xb % 16 ≠ 0 || (p.drain && p.xc % 16 ≠ 0) || (params && p.xq % 16 ≠ 0), Sc.alignment)]

/-- MXPASS: an INT4 pass waits for S4 (R63); then the pass is issued. -/
def execMxpass (q k : Nat) (s : State) : Res :=
  s.atWord q k (isOp q 0x30) fun s c =>
    let t := s.slot q k
    let regs := [bits c.w0 8 4, bits c.w0 4 4] ++ (if bit c.w0 23 then [bits c.w0 0 4] else []) ++
      (if bit c.w0 23 && bits c.w0 20 3 ≠ 0 then [bits c.w1 36 4] else [])
    let zero := bits c.w1 52 12 = 0 || bits c.w1 40 12 = 0 || bits c.w0 24 24 = 0
    if bit c.w0 52 && decide (s.stage < 4) && passCheck q c s t ≠ Sc.reservedNonzero && !zero then
      let s := if t.eyasHeld then s else (s.setSlot q k { t with eyasHeld := true }).bump Obj.EYAS_HOLDS
      s.waitAt q k .bringup
    else s.issue q k c regs (passCheck q c) zero

/-! Start. -/

/-- The tiles a pass uses: the executing tile, or the members of its cast in member order. -/
def State.passTiles (s : State) (o : UnitOp) : List Nat :=
  let t := (s.slot o.seq o.slot).target
  if bits t 12 4 = 2 then targetUnits t else [o.seq]

/-- Passes begun and not done that use a tile, oldest first. -/
def State.begunOn (s : State) (tile : Nat) : List UnitOp :=
  ((s.seqs.flatMap fun e => e.2.queue).filter fun o => o.opcode == 0x30 && o.began ≠ 0 && (s.passTiles o).contains tile)

/-- MXPASS_START: the oldest pass not begun of a queue begins, when on each of its tiles the bank it adds into is not being
drained; `waited` is how long it waited for that, in TCLK cycles (R434, R435, R444, R448). -/
def execMxpassStart (q waited : Nat) (s : State) : Res :=
  match (s.seq q).queue.find? (·.began == 0) with
  | none => .next s
  | some o =>
    let drains (tile : Nat) : Nat := ((s.begunOn tile).filter fun x => bit x.w0 23).length
    if q < 64 && s.live && o.opcode == 0x30 && !(s.held q) && (s.passTiles o).all (fun u => decide (drains u < 2)) then
      let x := s.seq q
      let n := s.tiles.started + 1
      let s := s.setSeq q { x with queue := x.queue.map fun y => if y.id = o.id then { y with began := n } else y }
      .next (({ s with tiles := { s.tiles with started := n } }).bump64 Obj.BANK_WAIT_CYCLES waited)
    else .next s

/-! Accumulation. -/

/-- A row of operand elements: packed, signed or not (R403, R404). -/
def operandRow (bs : List Byte) (w : Nat) (sg : Bool) (n : Nat) : List Int :=
  (List.range n).map fun i => let v := elem bs w i; if sg then sgn w v else (v : Nat)

/-- Read rows of a region of a tile's store: values and the earliest mark. -/
def State.readRows (s : State) (tile off stride len rows w : Nat) (sg : Bool) (n : Nat) : List (List Int) × Nat × State :=
  (List.range rows).foldl (fun (r : List (List Int) × Nat × State) i =>
    let x := r.2.2.ownRead tile (off + i * stride) len
    (r.1 ++ [operandRow x.1 w sg n], firstMark r.2.1 x.2.1, x.2.2)) ([], 0, s)

/-- The 96-bit cell and place of output element (i, j) of a part (R433, R434): cell key, low bit, accumulator key. -/
def accPlace (int4 : Bool) (i j : Nat) : Nat × Nat × Nat :=
  if int4 then
    let c := i / 2 * 256 + j / 2
    (c, (i % 2 * 2 + j % 2) * 24, c * 4 + i % 2 * 2 + j % 2)
  else (i * 256 + j, 0, (i * 256 + j) * 4)

/-- One accumulator over a reduction: the exact sum modulo 2^w, or clamped step by step (R407, R408). The saturation state is
1 HIGH, 2 LOW, 0 NONE. -/
def Pass.accumulate (p : Pass) (start : Int) (sat : Nat) (a b : List Int) : Int × Nat :=
  if p.wrap then
    let v := start + (a.zip b).foldl (fun t x => t + x.1 * x.2) 0
    (if p.signed then sgn p.accW (unsgn p.accW v) else ((unsgn p.accW v : Nat) : Int), sat)
  else
    (a.zip b).foldl (fun (r : Int × Nat) x =>
      let v := r.1 + x.1 * x.2
      if v > p.accHi then (p.accHi, 1) else if v < p.accLo then (p.accLo, 2) else (v, r.2)) (start, sat)

/-- The value of an accumulator as a pass reads it (R405, R410). -/
def Pass.accValue (p : Pass) (b : Bank) (i j : Nat) : Int :=
  let pl := accPlace p.int4 i j
  let v := bits (SMap.get 0 b.cells pl.1) pl.2.1 p.accW
  if p.signed then sgn p.accW v else (v : Nat)

/-- Add a pass's products into a bank (R405 to R410, R455): cells that it does not use keep their values. `ck` is set where this
member computes checksums. -/
def Pass.addInto (p : Pass) (b : Bank) (target : Nat) (ck : Bool) (as bs : List (List Int)) : Bank :=
  let b0 : Bank := if p.accum then b else { cells := b.cells, sat := b.sat, checked := true }
  let b1 := as.zipIdx.foldl (fun b x => bs.zipIdx.foldl (fun b y =>
    let pl := accPlace p.int4 x.2 y.2
    let old : Int := if p.accum then p.accValue b x.2 y.2 else 0
    let r := p.accumulate old (if p.accum then SMap.get 0 b.sat pl.2.2 else 0) x.1 y.1
    { b with cells := SMap.set 0 b.cells pl.1 (setBits (SMap.get 0 b.cells pl.1) pl.2.1 p.accW (unsgn p.accW r.1)),
             sat := SMap.set 0 b.sat pl.2.2 r.2 }) b) b0
  let aS := (List.range p.kk).map fun k => (as.foldl (fun t r => t + r.getD k 0) 0) % 255
  let bS := (List.range p.kk).map fun k => (bs.foldl (fun t r => t + r.getD k 0) 0) % 255
  let dot (u v : List Int) : Int := (u.zip v).foldl (fun t x => t + x.1 * x.2) 0
  let add (m : SMap Nat) (i : Nat) (v : Int) : SMap Nat := SMap.set 0 m i (((SMap.get 0 m i : Nat) + v) % 255).toNat
  let row := if ck then bs.zipIdx.foldl (fun m y => add m y.2 (dot aS y.1)) b1.rowCk else b1.rowCk
  let col := if ck then as.zipIdx.foldl (fun m x => add m x.2 (dot x.1 bS)) b1.colCk else b1.colCk
  { b1 with opw := b2n p.int4 + 1, target := target, run := (if p.accum then b.run else 0) + p.kk,
            checked := (if p.accum then b.checked else true) && ck, rowCk := row, colCk := col }

/-- Compare a member's checksums: the first disagreeing row and column (R456). -/
def Pass.compare (p : Pass) (b : Bank) (m n : Nat) : Option Nat × Option Nat :=
  let rowSum (i : Nat) : Int := ((List.range n).foldl (fun t j => t + p.accValue b i j) 0) % 255
  let colSum (j : Nat) : Int := ((List.range m).foldl (fun t i => t + p.accValue b i j) 0) % 255
  ((List.range m).find? (fun i => rowSum i != (SMap.get 0 b.colCk i : Nat)),
   (List.range n).find? (fun j => colSum j != (SMap.get 0 b.rowCk j : Nat)))

/-! The drain. -/

/-- Integer output bounds (Table 10.4). -/
def outRange (w : Nat) (uns : Bool) : Int × Int :=
  if uns then (0, (2 ^ w : Nat) - 1) else (-(2 ^ (w - 1) : Nat), (2 ^ (w - 1) : Nat) - 1)

/-- A parameter record with a reserved SHIFT or MODE (Table 10.3). -/
def paramBad (r : List Byte) : Bool := decide (64 ≤ fieldLE r 6 1) || decide (2 ≤ fieldLE r 7 1)

/-- The integer drain of one value (R414): pattern and event kind. -/
def drainInt (w : Nat) (rha : Bool) (r : List Byte) (v : Int) : Nat × Nat :=
  let o := roundShift rha (v * sgn 32 (fieldLE r 0 4)) (fieldLE r 6 1) + sgn 16 (fieldLE r 4 2)
  let b := outRange w (fieldLE r 7 1 = 1)
  let c := clampEv b.1 b.2 o
  (unsgn w c.1, c.2)

/-- The floating drain of one value (R417): FP32 once, then the narrower format. -/
def drainFp (dfmt : Nat) (bias : Bool) (r : List Byte) (v : Int) : Nat × Nat :=
  let w := v + (if bias then sgn 32 (fieldLE r 4 4) else 0)
  let y := fp32.round (Fv.mul (Fv.ofInt w) (fp32.value (fieldLE r 0 4)))
  match dfmt with
  | 4 => (y, fp32.event y)
  | 5 => let z := fp32.conv fp16 y; (z, fp16.event z)
  | _ => let z := fp32.conv bf16 y; (z, bf16.event z)

/-- One element's output pattern and event (R413 to R417, R422). -/
def Pass.drainElem (p : Pass) (r : List Byte) (v : Int) (sat : Nat) : Nat × Nat :=
  let x : Nat × Nat := if p.dfmt = 0 then (unsgn 32 v, 0)
    else if p.dfmt ≤ 3 then drainInt (outBits p.dfmt) p.rha r v else drainFp p.dfmt p.bias r v
  (x.1, if x.2 ≠ 0 then x.2 else if sat = 1 then 4 else if sat = 2 then 5 else 0)

/-- What the drain of one member found and wrote. -/
structure Drained where
  s : State
  evs : List Event
  bad : Bool

/-- The parameter records of a member's columns, and their mark (R411). -/
def State.drainParams (s : State) (p : Pass) (tile n : Nat) : List (List Byte) × Nat × State :=
  if p.dfmt = 0 then ([], 0, s) else
  let x := s.ownRead tile p.xq (8 * n)
  ((List.range n).map fun c => (x.1.drop (8 * c)).take 8, x.2.1, x.2.2)

/-- Write a member's part of the output (R438, R447), with its events placed in the cast (R423). -/
def State.drainPart (s : State) (p : Pass) (tile r0 c0 m n : Nat) (b : Bank) (ps : List (List Byte)) (mark : Nat) :
    List Event × State :=
  let w := outBits p.dfmt
  (List.range m).foldl (fun (r : List Event × State) i =>
    let el := (List.range n).map fun j =>
      let sat := SMap.get 0 b.sat (accPlace p.int4 i j).2.2
      (p.drainElem (ps.getD j []) (p.accValue b i j) sat, sat, j)
    let off := p.xc + i * p.ldc
    let old := r.2.rawRead (storeBase tile + off) (rowBytes n w)
    (r.1 ++ el.map (fun e => { row := r0 + i, col := c0 + e.2.2, kind := e.1.2, acc := e.2.1 ≠ 0 }),
     r.2.ownWrite tile off (packElems w (el.map (·.1.1)) old) mark)) ([], s)

/-- A pass is read and accumulated in every member (R437, R440, R447): the banks are updated, and the earliest mark of its
operands is answered. -/
def State.passAccumulate (s : State) (p : Pass) (target : Nat) (tiles : List Nat) (w : Nat) : Nat × State :=
  let t := p.part
  let aLen := rowBytes p.kk p.opBits
  let want := p.abft || s.flag Obj.ABFT_FORCE
  tiles.zipIdx.foldl (fun (r : Nat × State) x =>
    let pc := x.2 % w
    let pr := x.2 / w
    let m := min t (p.m - pr * t)
    let n := min t (p.n - pc * t)
    if m = 0 || n = 0 then r else
    let a := r.2.readRows (tiles.getD (pr * w) 0) p.xa p.lda aLen m p.opBits p.sa p.kk
    let b := a.2.2.readRows (tiles.getD pc 0) p.xb p.ldb aLen n p.opBits p.sb p.kk
    let s := b.2.2
    let tile := s.tile x.1
    let ck := want && tile.abftAvailable
    let s := if want && !ck then s.bump Obj.ABFT_UNCHECKED else s
    let bank := p.addInto tile.bank target ck a.1 b.1
    (firstMark r.1 (firstMark a.2.1 b.2.1), s.setTile x.1 (tile.setBank bank))) (0, s)

/-- The injected bit flip reaches the bank of its tile before a compared drain (R468). -/
def State.applyInject (s : State) (tile : Nat) : State :=
  let v := s.tiles.inject
  if v ≠ 0 && bits (v - 1) 0 6 = tile then
    let w := v - 1
    let t := s.tile tile
    let b := t.bank
    let key := bits w 8 8 * 256 + bits w 16 8
    let c := SMap.get 0 b.cells key
    let i := bits w 24 5
    let b := { b with cells := SMap.set 0 b.cells key (setBits c i 1 (1 - bits c i 1)) }
    { s.setTile tile (t.setBank b) with tiles := { (s.setTile tile (t.setBank b)).tiles with inject := 0 } }
  else s

/-- Whether a WS or IS pass of one chunk holds its operand, and what it would hold (R441, R442). -/
def Pass.holding (p : Pass) (target : Nat) (tiles : List Nat) (wh : Nat × Nat) : Option Held :=
  let one := if p.dflow = 1 then decide (p.kk ≤ 256 * wh.2) else p.dflow = 2 && decide (p.kk ≤ 256 * wh.1)
  if !one then none else
  let t := p.part
  let len := rowBytes p.kk p.opBits
  if p.dflow = 1 then
    some { target := target, dflow := 1, off := p.xb, ld := p.ldb, sign := p.sb, opw := b2n p.int4, k := p.kk, span := p.n,
           areas := (List.range wh.1).map fun c =>
             { addr := storeBase (tiles.getD c 0) + p.xb, stride := p.ldb, len := len, rows := min t (p.n - c * t) } }
  else
    some { target := target, dflow := 2, off := p.xa, ld := p.lda, sign := p.sa, opw := b2n p.int4, k := p.kk, span := p.m,
           areas := (List.range wh.2).map fun r =>
             { addr := storeBase (tiles.getD (r * wh.1) 0) + p.xa, stride := p.lda, len := len, rows := min t (p.m - r * t) } }

/-- The members' comparison at a drain: which disagree, with the counters of R456. -/
def State.passCompare (s : State) (p : Pass) (tiles : List Nat) (w : Nat) : List Nat × State :=
  tiles.zipIdx.foldl (fun (r : List Nat × State) x =>
    let m := min p.part (p.m - x.2 / w * p.part)
    let n := min p.part (p.n - x.2 % w * p.part)
    if m = 0 || n = 0 then r else
    let b := (r.2.tile x.1).bank
    if b.checked && decide (b.run ≤ 65536) then
      let s := (r.2.applyInject x.1).bump64 Obj.ABFT_CHECKS
      let d := p.compare (s.tile x.1).bank m n
      if d.1.isSome || d.2.isSome then
        let lm := (match d.1 with | some i => i + 2 ^ 15 | none => 0) + (match d.2 with | some j => j * 2 ^ 16 + 2 ^ 31 | none => 0)
        (r.1 ++ [x.1], (s.setTile x.1 { s.tile x.1 with mismatch := lm }).bump Obj.ABFT_MISMATCHES)
      else (r.1, s)
    else (r.1, r.2.bump Obj.ABFT_SKIPPED)) ([], s)

/-- Run a pass to its end (R437 to R457): reads, sums, comparison, drain, outputs, the exception record and the bank switch. -/
def State.runPass (s : State) (o : UnitOp) : State :=
  let p := decodePass o.w0 o.w1 o.w2 o.reg
  let target := (s.slot o.seq o.slot).target
  let tiles := s.passTiles o
  let wh := targetShape target
  let origin := tiles.headD 0
  let hold := p.holding target tiles wh
  let reuse := hold.isSome && tiles.all fun u => (s.tile u).held == hold
  let s := if reuse then s.bump64 Obj.STAT_REUSES else s
  let s := tiles.foldl (fun s u => let t := s.tile u; if t.held.isSome then s.setTile u { t with held := none } else s) s
  let acc := s.passAccumulate p target tiles wh.1
  let s := acc.2
  let s := tiles.foldl (fun s u => s.setTile u { s.tile u with held := hold }) s
  -- the bank stays poisoned through passes with ACCUM 1 (Table 6.10)
  let bankMark := tiles.foldl (fun m u => firstMark m (if p.accum then ((s.tile u).bank).poison else 0)) 0
  let mark := firstMark acc.1 bankMark
  let setPoison (s : State) (m : Nat) : State :=
    tiles.foldl (fun s u => let t := s.tile u; s.setTile u (t.setBank { t.bank with poison := m })) s
  let s := setPoison s mark
  let s := (s.bump64 Obj.PASSES).bump64 Obj.MACS (p.m * p.n * p.kk)
  if !p.drain then s.finishOp o {} else
  let prm := tiles.zipIdx.foldl (fun (r : List (List (List Byte)) × Nat × State) x =>
      let n := min p.part (p.n - x.2 % wh.1 * p.part)
      let d := r.2.2.drainParams p x.1 n
      (r.1 ++ [d.1], firstMark r.2.1 d.2.1, d.2.2)) ([], 0, s)
  let s := prm.2.2
  let mark := firstMark mark prm.2.1
  let toggle (s : State) : State := tiles.foldl (fun s u => let t := s.tile u; s.setTile u { t with cur := 1 - t.cur }) s
  let ints := decide (1 ≤ p.dfmt) && decide (p.dfmt ≤ 3)
  if ints && prm.1.any (fun l => l.any paramBad) then (toggle s).finishOp o { late := Sc.reservedNonzero }
  else
  let cmp := s.passCompare p tiles wh.1
  let s := cmp.2
  let worst := (List.range 64).find? fun u => cmp.1.contains u
  let pel : Nat × State := match worst with
    | none => (0, s)
    | some u =>
      let r := s.pellet { source := Es.mxtAbft u, code := Pc.checksum, status := Sc.checksumMismatch,
                          addr := some (s.devId * 2 ^ 56 + (storeBase u + p.xc) / 128 * 128), oClass := 0, oIndex := u,
                          cls := 0, sub := u + 1 }
      (r.1 + 1, r.2)
  let mark := firstMark mark pel.1
  let s := if worst.isSome then setPoison pel.2 mark else pel.2
  let parts := tiles.zipIdx.foldl (fun (r : List Event × State) x =>
      let r0 := x.2 / wh.1 * p.part
      let c0 := x.2 % wh.1 * p.part
      let m := min p.part (p.m - r0)
      let n := min p.part (p.n - c0)
      if m = 0 || n = 0 then r else
      let d := r.2.drainPart p x.1 r0 c0 m n ((r.2.tile x.1).bank) (prm.1.getD x.2 []) mark
      (r.1 ++ d.1, d.2)) ([], s)
  let evs := parts.1.mergeSort fun a b => decide (a.row < b.row) || (a.row == b.row && decide (a.col ≤ b.col))
  let rec_ := excRecord evs 0 origin o.word
  let s := (toggle parts.2).countExc rec_
  let s := if bit (fieldLE rec_ 1 1) 1 then s.bump64 Obj.ACC_SAT_TILES else s
  s.finishOp o { mark := mark, exc := rec_, sticky := if worst.isSome then Sc.checksumMismatch else 0 }

/-- MXPASS_DRAIN_DONE: the oldest pass begun of a queue ends, once every pass begun before it on its tiles has; or its
residue checker disagrees (R443, R743). -/
def execMxpassDrainDone (q : Nat) (residueOk : Bool) (s : State) : Res :=
  match s.headOp q with
  | none => .next s
  | some o =>
    let first := (s.passTiles o).all fun u => (s.begunOn u).all fun x => decide (o.began ≤ x.began)
    if q < 64 && s.live && o.opcode == 0x30 && o.began ≠ 0 && first then
      .next (if residueOk then s.runPass o else s.checkerFault q)
    else .next s

end Sys2Proof.Machine
end

