-- ==== Sys2Proof/Machine/Oap.lean ====
section
/-!
DEFINITION. Answering object-access requests (R83 to R103): the response of each transport, and what the counters of Table
3.15 record of it.
-/
namespace Sys2Proof.Machine

def State.port (s : State) : Transport → Port
  | .can => s.oap.can
  | .t1s => s.oap.t1s
  | .mbx => s.oap.mbx

def State.setPort (s : State) (t : Transport) (p : Port) : State :=
  match t with
  | .can => { s with oap := { s.oap with can := p } }
  | .t1s => { s with oap := { s.oap with t1s := p } }
  | .mbx => { s with oap := { s.oap with mbx := p } }

/-- Who waits for an answer: transport, source address, the request's 12 header bytes. -/
abbrev Asker := Transport × Nat × List Byte

/-- Send bytes on a transport; the mailbox response stands in MBX_RSP and raises vector 0 (R96, R98, R102, R103). -/
def State.sendPdu (s : State) (t : Transport) (src : Nat) (pdu : List Byte) : State :=
  match t with
  | .can => if s.mgmtDriven then s.sendCan (0x480 + s.inEffect Obj.CAN_NODE_ID) pdu else s
  | .t1s => if s.mgmtDriven then s.sendEth src pdu else s
  | .mbx => ({ s with oap := { s.oap with mbxRsp := pdu, mbxRspValid := true, mbxBusy := false } }).raiseVector 0 0

/-- The response PDU of Table 3.3. -/
def responsePdu (hdr : List Byte) (status : Nat) (value : List Byte) (total : Nat) : List Byte :=
  [(hdr.getD 0 0) ||| 0x80, hdr.getD 1 0] ++ padTo 3 ((hdr.drop 2).take 3) ++ leBytes 1 status ++
  padTo 2 ((hdr.drop 6).take 2) ++ leBytes 2 value.length ++ leBytes 2 total ++ value

/-- Answer a request and record a failure (Table 3.15). -/
def State.answer (s : State) (a : Asker) (status : Nat) (value : List Byte := []) (total : Nat := 0) : State :=
  let s := if 0x10 ≤ status then
      ((s.bump Obj.OAP_FAILURES).setObj Obj.LAST_FAIL_OBJECT (fieldLE a.2.2 2 2 * 256 + fieldLE a.2.2 4 1)).setObj
        Obj.LAST_FAIL_STATUS status
    else s
  s.sendPdu a.1 a.2.1 (responsePdu a.2.2 status value total)

end Sys2Proof.Machine
end

