-- ==== Sys2Proof/Machine/Selftest.lean ====
section
/-!
DEFINITION. Self-tests, hand-over to an understudy and field repair (R431, R432, R452 to R454, R458 to R461, R758 to R766).
-/
namespace Sys2Proof.Machine

/-! Work that names a unit. -/

/-- TARGET and FLAGS of every queued or running entry that names a unit. -/
def State.entriesNaming (s : State) (u : Nat) : List (Nat × Nat) :=
  ((s.slotsNaming u).map fun x => ((s.slot x.1 x.2).target, (s.slot x.1 x.2).flags)) ++
  (s.host.rings.flatMap fun e => (e.2.fetched.filter fun f => entryNames f.bytes u).map fun f =>
    (entryTarget f.bytes, fieldLE f.bytes 1 1))

/-- The safety-critical entries that name a unit (R459). -/
def State.criticalEntries (s : State) (u : Nat) : List (Nat × Nat) := (s.entriesNaming u).filter fun e => bit e.2 2

/-- A tile's understudy, where it is free (R458). -/
def State.freeUnderstudy (s : State) (n : Nat) : Option Nat :=
  let v := s.obj (Obj.UNDERSTUDY n)
  if v < 64 && s.tileRole v == 1 && s.unitSt v != .faulted && (s.tile v).carrying.isNone then some v else none

/-! Tests. -/

/-- Classes with a self-test (Table 19.9). -/
def hasTest (cls : Nat) : Bool := [0, 1, 2, 3, 5, 11].contains cls

/-- Class and unit as TEST_LAST gives them. -/
def unitCode (u : Nat) : Nat := unitClass u * 256 + unitIndex u

/-- A test of this unit's class is on its way or running (R762). -/
def State.classTesting (s : State) (u : Nat) : Bool :=
  s.ucbs.any fun e => unitClass e.1 == unitClass u && e.1 ≠ u && e.2.beforeTest.isSome

/-- Whether a unit's safety-critical work refuses its test (R459, R761). -/
def State.testCritical (s : State) (u : Nat) : Bool :=
  let es := s.criticalEntries u
  !es.isEmpty && !(unitClass u == 0 && es.all (fun e => bits e.1 12 4 == 1) && (s.freeUnderstudy u).isSome)

/-- The unit is hooded for its test: it enters TEST, after a hand-over where it is a tile with a free understudy (R460). -/
def State.testHooded (s : State) (u : Nat) : State :=
  let test (s : State) : State := s.setUnitSt u .test
  if unitClass u = 0 then
    match s.handOf u, s.freeUnderstudy u with
    | .redirected _, _ => test s
    | _, some v =>
      let s := (s.setHand u (.waking v)).setTile v { s.tile v with carrying := some u }
      if s.unitSt v == .ready then s else s.moveUnit v .ready
    | _, none => test s
  else test s

/-- A requested test begins (R760): the unit is drained and hooded, or first woken. -/
def State.startTest (s : State) (u : Nat) : State :=
  let b := { s.ucb u with testWaits := false }
  match b.st with
  | .ready => (s.setUcb u { b with beforeTest := some .ready }).startDrain u .hooded
  | .hooded => (s.setUcb u { b with beforeTest := some .hooded }).testHooded u
  | .off => (s.setUcb u { b with beforeTest := some .off }).powerUp u
  | .mews => (s.setUcb u { b with beforeTest := some .mews }).powerUp u
  | .busy => s.setUcb u { b with beforeTest := some .ready, st := .quiescing, target := some .hooded }
  | .faulted => s.setUcb u { b with beforeTest := some .ready, testClears := true, st := .test }
  | _ => s

/-- A test request (R459, R760, R761, Table 19.15): the answer's status and the state after it. -/
def State.requestTest (s : State) (u : Nat) (forced : Bool) : Nat × State :=
  if !s.present u then (Sc.unitDisabled, s)
  else if s.unitSt u == .faulted then (Sc.unitDisabled, s)
  else if !hasTest (unitClass u) then (Sc.accessDenied, s)
  else
    let b := s.ucb u
    if b.testWaits then (Sc.ok, s.setUcb u { b with overruns := satBump 32 b.overruns 1 })
    else if !forced && s.testCritical u then
      (Sc.testDeferred, (s.bump Obj.TESTS_DEFERRED).setObj Obj.TEST_LAST (unitCode u + 3 * 65536))
    else
      let s := s.setUcb u { b with testWaits := true, testForced := forced }
      let now := (b.st == .ready && (s.dom u).phase == .open_) || b.st == .hooded || b.st == .off || b.st == .mews
      (Sc.ok, if now && b.beforeTest.isNone && !s.classTesting u then s.startTest u else s)

/-- SELFTEST_START: a waiting test begins when its unit is idle, or busy at its epoch boundary (R34, R760). -/
def execSelftestStart (unit : Nat) (s : State) : Res :=
  let b := s.ucb unit
  let idle := (b.st == .ready && (s.dom unit).phase == .open_) || b.st == .hooded || b.st == .off || b.st == .mews
  let boundary := b.st == .busy && (s.epoch (s.domainOf unit)).commit == .applied
  if s.live && decide (unit < 201) && b.testWaits && b.beforeTest.isNone && (idle || boundary) && !s.classTesting unit then
    if !b.testForced && s.testCritical unit then
      .next (((s.setUcb unit { b with testWaits := false }).bump Obj.TESTS_DEFERRED).setObj Obj.TEST_LAST
        (unitCode unit + 3 * 65536))
    else .next (s.startTest unit)
  else .next s

/-- Keys of a map moved from one store to another, the target's own removed: stores copied line by line. -/
def moveKeys {α : Type} [DecidableEq α] (d : α) (m : SMap α) (src dst n : Nat) : SMap α :=
  (m.filter fun e => decide (src ≤ e.1) && decide (e.1 < src + n)).foldl (fun m e => SMap.set d m (e.1 - src + dst) e.2)
    (m.filter fun e => !(decide (dst ≤ e.1) && decide (e.1 < dst + n)))

/-- Copy a tile's 4 MiB store into another's, poison and stored errors with it. -/
def State.copyTile (s : State) (a b : Nat) : State :=
  let src := storeBase a
  let dst := storeBase b
  let s := s.setTile b { s.tile b with held := none }
  { s with mem := { s.mem with
      cells := moveKeys 0 s.mem.cells src dst 0x400000
      poison := moveKeys 0 s.mem.poison (src / 128) (dst / 128) 0x8000
      ecc := moveKeys [] s.mem.ecc (src / 128) (dst / 128) 0x8000 } }

/-- HANDOVER_COPY_DONE (R460): the understudy is awake and holds the store; the redirection begins and the tile enters TEST. -/
def execHandoverCopyDone (tile : Nat) (s : State) : Res :=
  match s.handOf tile with
  | .waking v =>
    if tile < 64 && s.unitSt v == .ready && s.unitSt tile == .hooded then
      .next (((((s.copyTile tile v).setRedirect tile (some v)).setHand tile (.redirected v)).bump Obj.HANDOVERS).setUnitSt tile .test)
    else .next s
  | _ => .next s

/-- RELEASE_COPY_DONE (R461): the understudy's programs have finished and its store is copied back. -/
def execReleaseCopyDone (tile : Nat) (s : State) : Res :=
  match s.handOf tile with
  | .releasing v =>
    if tile < 64 && !s.runningOn v then
      let s := if s.unitSt v == .faulted then s else s.copyTile v tile
      .next ((s.endRedirect tile v).enterReady tile)
    else .next s
  | _ => .next s

/-! Field repair. -/

/-- What a repair request means for a tile (R453): the spare to retire, and the main index to give a new spare. -/
def Tile.repairPlan (t : Tile) (v : Nat) : Option Nat × Option Nat :=
  let p := bits v 0 9
  let c := bit v 12
  let viaSpare (k : Nat) : Option Nat × Option Nat :=
    match (t.spareAt k).use with
    | .available => (some k, none)
    | .retired => (none, none)
    | _ => (some k, some (t.spareAt k).main)
  if 256 ≤ p then viaSpare (spareBase c + (p - 256))
  else match t.serving c p with
    | some k => viaSpare k
    | none => (none, some p)

/-- The status of a repair request (R453, R454, R468). -/
def State.repairStatus (s : State) (n v : Nat) : Nat :=
  let t := s.tile n
  let pl := t.repairPlan v
  let free := (t.freeSpares (bit v 12)).length
  let left := free - (if pl.2.isSome then 1 else 0) -
    (match pl.1 with | some k => if (t.spareAt k).use == .available then 1 else 0 | none => 0)
  if 263 < bits v 0 9 then Sc.boundViolation
  else if s.unitSt n != .hooded then Sc.accessDenied
  else if pl.2.isSome && free = 0 then Sc.boundViolation
  else if s.obj Obj.REPAIR_POLICY = 0 && pl ≠ (none, none) && left = 0 then Sc.accessDenied
  else Sc.ok

/-- Program a repair: retire, then the lowest-numbered available spare takes the main index (R432, R453). -/
def Tile.program (t : Tile) (v : Nat) : Tile :=
  let pl := t.repairPlan v
  let t := match pl.1 with | some k => { t with spares := t.spares.set k { use := .retired } } | none => t
  match pl.2, t.freeSpares (bit v 12) with
  | some m, k :: _ => { t with spares := t.spares.set k { use := .field, main := m } }
  | _, _ => t

/-- A repair request is taken: programming starts. -/
def State.startRepair (s : State) (n v : Nat) (who : Option Asker) : State :=
  s.setTile n { s.tile n with repair := some (v, who) }

/-- The keeper's own repairs of a tile go on: the next is requested, a refused one faults the tile, and after the last the
tile is tested once more (R765). -/
def State.autoRepair (s : State) (n : Nat) : State :=
  match (s.tile n).auto with
  | [] => s.setUcb n { s.ucb n with testAgain := true, beforeTest := some .ready, st := .test }
  | v :: rest =>
    let s := s.setTile n { s.tile n with auto := rest }
    if s.repairStatus n v = 0 then s.startRepair n v none
    else
      let s := (s.setTile n { s.tile n with auto := [] }).unitFault n 2
      match s.handOf n with
      | .redirected u => (s.setHand n (.ending u)).settleHand n
      | _ => s

/-- REPAIR_PROGRAM_DONE: the mapping is in force from the next pass, and the write is answered (R453). -/
def execRepairProgramDone (tile : Nat) (s : State) : Res :=
  match (s.tile tile).repair with
  | none => .next s
  | some (v, who) =>
    if 64 ≤ tile then .next s else
    let s := s.setTile tile { (s.tile tile).program v with repair := none, held := (s.tile tile).held }
    match who with
    | some a => .next (s.answer a Sc.ok)
    | none => .next (s.autoRepair tile)

/-! The end of a test. -/

/-- A unit leaves TEST for the state it had, or for what a management request asked meanwhile (R764, R461). -/
def State.leaveTest (s : State) (u : Nat) : State :=
  let b := s.ucb u
  let t := match b.target with | some t => t | none => b.beforeTest.getD .ready
  let s := s.setUcb u { b with st := .hooded, beforeTest := none, target := none, testAgain := false, testClears := false }
  match t with
  | .hooded => s
  | .ready => s.unhood u
  | t => s.moveUnit u t

/-- SELFTEST_COMPLETE (R758, R764, R765). `phys` and `column` are the first failing physical index of a tile, `repairs` the
requests that would mend it, encoded as REPAIR_REQUEST. -/
def execSelftestComplete (unit : Nat) (r : TestResult) (phys : Nat) (column : Bool) (repairs : List Nat) (s : State) : Res :=
  let b := s.ucb unit
  if decide (201 ≤ unit) || b.st != .test || s.safety.safe then .next s else
  -- only a tile's faults are repairable
  let r := if r = .repairable && unitClass unit ≠ 0 then .fail else r
  let code := match r with | .pass => 0 | .repairable => 1 | .fail => 2
  let s := (s.bump Obj.TESTS_RUN).setObj Obj.TEST_LAST (unitCode unit + code * 65536)
  let s := s.setObj Obj.TEST_LAST_DETAIL
    (if unitClass unit = 0 && r ≠ .pass then phys % 512 + b2n column * 4096 else 0)
  let fault (s : State) : State :=
    let s := (s.setUcb unit { s.ucb unit with beforeTest := none, testAgain := false, testClears := false }).unitFault unit 2
    match s.handOf unit with
    | .redirected v => if unit < 64 then (s.setHand unit (.ending v)).settleHand unit else s
    | _ => s
  match r with
  | .pass =>
    let s := s.setUcb unit { s.ucb unit with lastPassNs := s.timeNs }
    let s := if b.testAgain then s.bump Obj.REPAIRS_AUTO else s
    -- after FAULT_CLEAR a unit under MGMT_STOP goes to the stop's target (Table 19.8)
    let stop := match s.obj ((0x2300 + unitClass unit) * 256 + unitIndex unit + 1) with
      | 0 => UState.off | 1 => .mews | _ => .hooded
    let s := if b.testClears && b.mgmtStop && b.target.isNone then s.setUcb unit { s.ucb unit with target := some stop } else s
    .next (s.leaveTest unit)
  | .fail => .next (fault (s.bump Obj.TESTS_FAILED))
  | .repairable =>
    let s := s.bump Obj.TESTS_FAILED
    if b.testAgain then .next (fault s)
    else
      let s := (s.setUcb unit { s.ucb unit with st := .hooded, beforeTest := none, testClears := false }).unitFault unit 3
      if s.flag Obj.AUTO_REPAIR then .next ((s.setTile unit { s.tile unit with auto := repairs }).autoRepair unit)
      else .next s

/-- Abort every running test (R766); a tile whose understudy carries its work is released under R461. -/
def State.stopTests (s : State) : State :=
  let s := s.abortTests
  (List.range 64).foldl (fun s t =>
    match s.handOf t with
    | .redirected v =>
      if s.unitSt t == .ready then (s.setUnitSt t .hooded).setHand t (.releasing v) else s
    | _ => s) s

end Sys2Proof.Machine
end

