-- ==== Sys2Proof/Machine/TileCtl.lean ====
section
/-!
DEFINITION. The configuration and unit-control words (R229, R230, R463) and what the matrix-tile objects check and do (R450,
R452, R458, R466, R468).
-/
namespace Sys2Proof.Machine

/-! CFGW. -/

/-- Units that a CFGW of a slot reaches: the members of its cast, or its sequencer's unit. -/
def State.cfgUnits (s : State) (q k : Nat) : List Nat :=
  let t := (s.slot q k).target
  if bits t 12 4 = 2 then targetUnits t else [seqUnit q]

/-- A bank of a tile drains (R434). -/
def State.draining (s : State) (tile : Nat) : Bool := (s.begunOn tile).any fun o => bit o.w0 23

/-- Write a configuration register of a unit (Table 11.4). -/
def State.cfgWrite (s : State) (u reg v : Nat) : State :=
  if u < 64 then
    if reg = 1 then s.setTile u { s.tile u with cur := v }
    else if reg = 2 && v = 1 then s.setTile u { s.tile u with held := none }
    else s
  else s

/-- A pending value of a register gives way to what is written later (R229). -/
def State.cfgForget (s : State) (u reg : Nat) : State :=
  { s with ep := { s.ep with cfgw := s.ep.cfgw.filter fun e => !(e.1 == u && e.2.1 == reg) } }

/-- Stage a value; a later one of the same register replaces it (R229). -/
def State.cfgStage (s : State) (u reg v : Nat) : State :=
  let s := s.cfgForget u reg
  { s with ep := { s.ep with cfgw := s.ep.cfgw ++ [(u, reg, v)] } }

/-- A CFGW word whose register may be written now. -/
def State.cfgWord (s : State) (q k : Nat) (c : Cmd) (mayWrite : Bool) : State :=
  let t := s.slot q k
  let reg := bits c.w0 40 12
  let xs := bits c.w0 36 4
  let us := s.cfgUnits q k
  if t.pendReg xs then s
  else
    let st := firstFail [
      (bits c.w0 52 3 ≠ 0 || bits c.w0 0 36 ≠ 0 || !(us.all fun u => decide (u < 64)) || !(reg == 1 || reg == 2),
        Sc.reservedNonzero),
      (t.regMark xs = 0 && decide (1 < t.reg xs), Sc.reservedNonzero)]
    if st ≠ 0 then s.endProgram q k st
    else if t.regMark xs ≠ 0 then s.halted q k (t.regMark xs)
    else if bit c.w0 55 then ((us.foldl (fun s u => s.cfgStage u reg (t.reg xs)) s)).advance q k 1
    else if mayWrite then ((us.foldl (fun s u => (s.cfgForget u reg).cfgWrite u reg (t.reg xs)) s)).advance q k 1
    else s

def isStatDrop (q : Nat) (w : Nat) : Bool := isOp q 0x39 w && seqClass q == 1 && bits w 40 12 == 2

/-- CFGW of CUR_BANK, and of every register that no unit lists: a write of CUR_BANK waits while a bank drains (R463). -/
def execCfgwCurBank (q k : Nat) (s : State) : Res :=
  s.atWord q k (fun w => isOp q 0x39 w && !isStatDrop q w) fun s c =>
    s.cfgWord q k c ((s.cfgUnits q k).all fun u => !(s.draining u))

/-- CFGW of STAT_DROP: the stationary operands held for R442 are discarded. -/
def execCfgwStatDrop (q k : Nat) (s : State) : Res :=
  s.atWord q k (isStatDrop q) fun s c => s.cfgWord q k c true

/-! UCTL. -/

def uctlState (w : Nat) : Nat := bits w 48 4

/-- What every UCTL checks first: reserved values, units absent or FAULTED, MGMT_STOP (R26, R230); then `go`.
One member of a cast with MGMT_STOP stops the request for all (DESIGN CHOICE, log 49). -/
def State.uctlWord (s : State) (q k : Nat) (c : Cmd) (go : State → List Nat → State) : State :=
  let tg := bits c.w0 32 16
  let us := targetUnits tg
  if bits c.w0 52 4 ≠ 0 || bits c.w0 0 32 ≠ 0 || !targetLegal tg || 5 ≤ uctlState c.w0 then
    s.endProgram q k Sc.reservedNonzero
  else if us.any fun u => !(s.present u) || s.unitSt u == .faulted then s.endProgram q k Sc.unitDisabled
  else if us.any fun u => (s.ucb u).mgmtStop then
    (s.setSlot q k ((s.slot q k).stick Sc.stateConflict)).advance q k 1
  else go s us

/-- UCTL of OFF, MEWS, HOODED or READY: a data-path request to each unit's UCB (R230). -/
def execUctl (q k : Nat) (s : State) : Res :=
  s.atWord q k (fun w => isOp q 0x3A w && uctlState w != 4) fun s c =>
    s.uctlWord q k c fun s us =>
      let t := match uctlState c.w0 with | 0 => UState.off | 1 => .mews | 2 => .hooded | _ => .ready
      (us.foldl (fun s u => s.ucbRequest u t false) s).advance q k 1

/-- UCTL of TEST: a self-test request for each unit; a refusal is recorded as TEST_DEFERRED, and a class without a self-test
answers ACCESS_DENIED (R230, R759). -/
def execUctlTest (q k : Nat) (s : State) : Res :=
  s.atWord q k (fun w => isOp q 0x3A w && uctlState w == 4) fun s c =>
    s.uctlWord q k c fun s us =>
      if us.any fun u => !hasTest (unitClass u) then s.endProgram q k Sc.accessDenied
      else
        let r := us.foldl (fun (r : Bool × State) u =>
          let x := r.2.requestTest u false
          (r.1 || x.1 == Sc.testDeferred, x.2)) (false, s)
        let s := if r.1 then r.2.setSlot q k ((r.2.slot q k).stick Sc.testDeferred) else r.2
        s.advance q k 1

/-! Objects of matrix tiles. -/

/-- Tiles of role ACTIVE (Table 11.9). -/
def State.activeTiles (s : State) : Nat := ((List.range 64).filter fun n => s.tileRole n = 0).length

/-- The status of a write of MXT_ROLE (R450, R452). -/
def State.checkRole (s : State) (n v : Nat) : Nat :=
  if v = 0 then
    if s.variant == .v && s.tileRole n ≠ 0 && 48 ≤ s.activeTiles then Sc.boundViolation
    else if (List.range 64).any fun t => s.obj (Obj.UNDERSTUDY t) = n then Sc.accessDenied
    else Sc.ok
  else
    let st := s.unitSt n
    if !(st == .ready || st == .mews || st == .off || st == .faulted) || !(s.entriesNaming n).isEmpty then Sc.accessDenied
    else Sc.ok

/-- A written role; an idle SPARE tile goes to SPARE_STATE. -/
def State.applyRole (s : State) (n v : Nat) : State := (s.setObj (Obj.MXT_ROLE n) v).restSpare n

/-- The status of a write of UNDERSTUDY (R458). -/
def State.checkUnderstudy (s : State) (n v : Nat) : Nat :=
  if v = 0xFF then Sc.ok
  else if 63 < v then Sc.boundViolation
  else if v = n || s.tileRole v ≠ 1 then Sc.accessDenied
  else Sc.ok

/-- A written SPARE_STATE: every idle SPARE tile follows it (R452). -/
def State.applySpareState (s : State) (v : Nat) : State :=
  (List.range 64).foldl (fun s n => s.restSpare n) (s.setObj Obj.SPARE_STATE v)

/-- FAULT_INJECT arms a flip, or replaces an armed one (R468). -/
def State.applyFaultInject (s : State) (v : Nat) : State :=
  { s with tiles := { s.tiles with inject := if bit v 31 then v + 1 else 0 } }

/-- The set value of TCLK: EYAS_TCLK_MHZ before S4, MXT_CLK_LIMIT from S4 (Table 2.5, R466). -/
def State.tclkSet (s : State) : Nat := if s.stage < 4 then s.obj Obj.EYAS_TCLK_MHZ else s.obj Obj.MXT_CLK_LIMIT

/-- TCLK: below its set value only by what the junction limit and the power cap hold (R47). -/
def State.tclk (s : State) : Nat := max 25 (s.tclkSet - s.sup.thermDrop - s.sup.capDrop)

/-- MXT_STATUS (Table 11.5). -/
def State.mxtStatus (s : State) (n : Nat) : Nat :=
  let t := s.tile n
  let drains := (s.begunOn n).filter fun o => bit o.w0 23
  let d (b : Nat) : Bool := (drains.length ≥ 1 && t.cur = b) || drains.length ≥ 2
  (s.unitSt n).code + t.cur * 8 + b2n (d 0) * 16 + b2n (d 1) * 32 + b2n t.held.isSome * 64 + b2n t.abftAvailable * 128 +
  (t.carrying.getD 0) * 256 + b2n t.carrying.isSome * 2 ^ 14 +
  b2n (SMap.get 0 s.mem.redirect n ≠ 0) * 2 ^ 15

/-- REPAIR_MAP entry i (Table 11.5). -/
def Tile.repairMap (t : Tile) (i : Nat) : Nat :=
  let x := t.spareAt i
  match x.use with
  | .available => 0
  | .factory => x.main % 512 + 2 ^ 14 + 2 ^ 15
  | .field => x.main % 512 + 2 ^ 13 + 2 ^ 15
  | .retired => 2 ^ 12

/-- SPARE_MAP (Table 11.9). -/
def Tile.spareMap (t : Tile) : Nat :=
  let cnt (base : Nat) (u : SpareUse) : Nat := ((List.range 8).filter fun i => (t.spareAt (base + i)).use == u).length
  cnt 0 .factory + cnt 8 .factory * 2 ^ 4 + cnt 0 .field * 2 ^ 8 + cnt 8 .field * 2 ^ 12 + cnt 0 .retired * 2 ^ 16 +
  cnt 8 .retired * 2 ^ 20 + b2n t.abftAvailable * 2 ^ 24

end Sys2Proof.Machine
end

