-- ==== Sys2Proof/Machine/Vector.lean ====
section
/-!
DEFINITION. Vector operations (chapter 12): the words, their checks, and what each function writes.
-/
namespace Sys2Proof.Machine

/-! Fields (Table 5.9) and types (Table 5.5). -/

def cFunc (c : Cmd) : Nat := bits c.w0 48 8
def cType (c : Cmd) : Nat := bits c.w0 44 4
def cXd (c : Cmd) : Nat := bits c.w0 40 4
def cXs1 (c : Cmd) : Nat := bits c.w0 36 4
def cXs2 (c : Cmd) : Nat := bits c.w0 32 4
def cCount (c : Cmd) : Nat := bits c.w0 0 32
def cXp (c : Cmd) : Nat := bits c.w1 60 4
def cRsv (c : Cmd) : Nat := bits c.w1 32 28
def cImm (c : Cmd) : Nat := bits c.w1 0 32

def tySize (t : Nat) : Nat :=
  match t with | 1 => 4 | 2 => 2 | 3 => 2 | 4 => 4 | 5 => 2 | 6 => 1 | 7 => 8 | _ => 4

def tyFmt (t : Nat) : Fmt := match t with | 2 => fp16 | 3 => bf16 | _ => fp32

def vxUsesXp (f : Nat) : Bool := f == 0x13 || f == 0x14 || f == 0x31 || f == 0x70
def vxElementwise (f : Nat) : Bool := f ≤ 0x31

/-- Bits of a result element. -/
def vxOutBits (f t imm : Nat) : Nat :=
  if f = 0x30 then tySize (bits imm 0 4) * 8
  else if f = 0x31 then (match bits imm 0 2 with | 1 => 16 | 2 => 8 | _ => 4)
  else if f = 0x40 && isInt t then 32
  else if f = 0x70 then 64
  else tySize t * 8

/-- Result type where it is a float type (R502). -/
def vxFloatOut (f t imm : Nat) : Option Fmt :=
  if f = 0x30 then (if isFloat (bits imm 0 4) then some (tyFmt (bits imm 0 4)) else none)
  else if f < 0x60 && isFloat t then some (tyFmt t) else none

def vxStore : Nat := 0x200000

/-- Reserved values of a VXOP word (R471, R475, Table 12.2). -/
def vxReserved (c : Cmd) : Bool :=
  let f := cFunc c
  let imm := cImm c
  cRsv c ≠ 0 || (!vxUsesXs2 f && cXs2 c ≠ 0) || (!vxUsesXp f && cXp c ≠ 0) ||
  (if f = 0x30 then
     let d := bits imm 0 4
     d == 0 || decide (7 ≤ d) || bits imm 5 27 ≠ 0 || (bit imm 4 && !(isFloat (cType c) && isInt d))
   else if f = 0x31 then bits imm 0 2 == 0 || bits imm 2 2 ≠ 0 || bits imm 5 11 ≠ 0
   else if 0x40 ≤ f && f ≤ 0x42 then false
   else if f = 0x50 then bits imm 11 5 ≠ 0 || bits imm 17 15 ≠ 0
   else if f = 0x51 then bits imm 2 30 ≠ 0
   else if f = 0x60 || f = 0x61 then false
   else imm ≠ 0)

/-- A count of 0 in any of its forms (R231, R485, R489, R492, Table 12.4). -/
def State.vxZero (s : State) (u : Nat) (t : Slot) (c : Cmd) : Bool :=
  let f := cFunc c
  let imm := cImm c
  cCount c = 0 || (f = 0x31 && bits imm 16 16 = 0) || (0x40 ≤ f && f ≤ 0x42 && imm = 0) || (f = 0x50 && bits imm 0 11 = 0) ||
  ((f = 0x60 || f = 0x61) && imm = 0) ||
  (f = 0x70 && t.reg (cXp c) + 88 ≤ vxStore && fieldLE (s.rawRead (storeBase u + t.reg (cXp c)) 1) 0 1 = 0)

/-- Source, result and parameter regions as (offset, bytes, alignment): sources, results, parameters. -/
def State.vxRegions (s : State) (u : Nat) (reg : Nat → Nat) (c : Cmd) :
    List (Nat × Nat × Nat) × List (Nat × Nat × Nat) × List (Nat × Nat × Nat) :=
  let f := cFunc c
  let imm := cImm c
  let n := cCount c
  let sz := tySize (cType c)
  let xd := reg (cXd c)
  let a := reg (cXs1 c)
  let b := reg (cXs2 c)
  let p := reg (cXp c)
  if f = 0x60 then ([(b, 4 * n, 4), (a, 0, 4)], [(xd, n * imm, 4)], [])
  else if f = 0x61 then ([(b, 4 * n, 4), (a, n * imm, 4)], [(xd, 0, 4)], [])
  else if f = 0x70 then
    let blk := s.rawRead (storeBase u + p) 88
    ([(a, (fieldLE blk 0 1 - 1) * fieldLE blk 4 4 + 4 * n, 4)], [(xd, 8 * n, 8)], [(p, 88, 16)])
  else
    let src := (a, sz * n, sz) :: (if vxUsesXs2 f then [(b, sz * n, sz)] else [])
    let par := if f = 0x31 then [(p, 8 * bits imm 16 16, 16)] else if vxUsesXp f then [(p, 16, 16)] else []
    let w := vxOutBits f (cType c) imm
    let al := max 1 (w / 8)
    let res :=
      if 0x40 ≤ f && f ≤ 0x42 then [(xd, n / imm * (w / 8), al)]
      else if f = 0x50 then
        let k := bits imm 0 11
        [(xd, k * sz, al), (xd + 16 * cdiv (k * sz) 16, 4 * k, 1)]
      else if f = 0x51 then
        if bit imm 1 then [(xd, n * sz, al), (xd + 16 * cdiv (n * sz) 16, 4 * n, 1)] else [(xd, n * sz, al)]
      else [(xd, cdiv (n * w) 8, al)]
    (src, res, par)

/-- Checks on a parameter block as it stands (R479, R494, Tables 12.3, 12.4): RESERVED_NONZERO, then BOUND_VIOLATION. -/
def vxBlockStatus (f t : Nat) (blk : List Byte) : Nat :=
  if f = 0x13 then
    let sz := tySize t
    let lo := fieldLE blk 0 sz
    let hi := fieldLE blk 8 sz
    let rsv := fieldLE blk sz (8 - sz) ≠ 0 || fieldLE blk (8 + sz) (8 - sz) ≠ 0
    let bad := if isFloat t then
        let a := (tyFmt t).value lo
        let b := (tyFmt t).value hi
        a == .nan || b == .nan || Fv.lt b a
      else decide (sgn (8 * sz) hi < sgn (8 * sz) lo)
    firstFail [(rsv, Sc.reservedNonzero), (bad, Sc.boundViolation)]
  else if f = 0x14 then firstFail [(fieldLE blk 8 8 ≠ 0, Sc.reservedNonzero)]
  else if f = 0x70 then
    let l := fieldLE blk 0 1
    let mode := fieldLE blk 1 1
    let q := fieldLE blk 8 8
    let sh (i : Nat) : Nat := fieldLE blk (16 + i) 1
    firstFail [
      (decide (2 ≤ mode) || fieldLE blk 2 2 ≠ 0 || (mode = 0 && q ≠ 0) ||
        (decide (l ≤ 64) && (List.range 64).any fun i => decide (l ≤ i) && sh i ≠ 0), Sc.reservedNonzero),
      (decide (64 < l) || (List.range 64).any (fun i => decide (63 < sh i)) ||
        (mode = 1 && (decide (q < 2) || decide (2 ^ 60 - 1 < q))), Sc.boundViolation),
      (fieldLE blk 4 4 % 4 ≠ 0, Sc.alignment)]
  else Sc.ok

/-- Indices of a GATHER or SCATTER whose row lies beyond the store (R492). -/
def State.vxBadIndex (s : State) (u n a b row : Nat) : Bool :=
  (List.range n).any fun i => decide (vxStore < a + (fieldLE (s.rawRead (storeBase u + b + 4 * i) 4) 0 4 + 1) * row)

/-- The first failing check of a VXOP (R198, R471 to R494). -/
def State.vxCheck (s : State) (u : Nat) (reg : Nat → Nat) (c : Cmd) : Nat :=
  let f := cFunc c
  let imm := cImm c
  let n := cCount c
  let r := s.vxRegions u reg c
  let all := r.1 ++ r.2.1 ++ r.2.2
  let beyond := all.any fun x => decide (vxStore < x.1 + x.2.1)
  let blk : List Byte := match r.2.2 with
    | (p, k, _) :: _ => if p + k ≤ vxStore && f ≠ 0x31 then s.rawRead (storeBase u + p) k else []
    | [] => []
  let st := if blk.isEmpty then 0 else vxBlockStatus f (cType c) blk
  let d := r.2.1.headD (0, 0, 1)
  let clash := vxElementwise f && r.1.any (fun x => x.1 < d.1 + d.2.1 && d.1 < x.1 + x.2.1) && !(r.1.any (·.1 == d.1))
  let idx := !beyond && f = 0x60 && imm ≤ 4096 && s.vxBadIndex u n (reg (cXs1 c)) (reg (cXs2 c)) imm ||
    (!beyond && f = 0x61 && imm ≤ 4096 && s.vxBadIndex u n (reg (cXd c)) (reg (cXs2 c)) imm)
  firstFail [
    (vxReserved c || st = Sc.reservedNonzero, Sc.reservedNonzero),
    (beyond || clash || st = Sc.boundViolation, Sc.boundViolation),
    (0x40 ≤ f && f ≤ 0x42 && imm ≠ 0 && n % imm ≠ 0, Sc.boundViolation),
    (f = 0x50 && (decide (1024 < bits imm 0 11) || decide (n < bits imm 0 11)), Sc.boundViolation),
    (f = 0x51 && decide (65536 < n), Sc.boundViolation),
    ((f = 0x60 || f = 0x61) && decide (4096 < imm), Sc.boundViolation),
    (idx, Sc.boundViolation),
    (all.any (fun x => x.1 % x.2.2 ≠ 0) || ((f = 0x60 || f = 0x61) && imm % 4 ≠ 0) || st = Sc.alignment, Sc.alignment)]

/-- A VXOP word of one FUNC, of a legal type. -/
def vxRow (q k f : Nat) (s : State) : Res :=
  s.atWord q k (fun w => isOp q 0x31 w && bits w 48 8 == f && vxTypeOk f (bits w 44 4)) fun s c =>
    let t := s.slot q k
    let u := seqUnit q
    let regs := [cXd c, cXs1 c] ++ (if vxUsesXs2 f then [cXs2 c] else []) ++ (if vxUsesXp f then [cXp c] else [])
    s.issue q k c regs (fun s t => s.vxCheck u t.reg c) (s.vxZero u t c)

def execVxopAdd (q k : Nat) (s : State) : Res := vxRow q k 0x01 s
def execVxopSub (q k : Nat) (s : State) : Res := vxRow q k 0x02 s
def execVxopMul (q k : Nat) (s : State) : Res := vxRow q k 0x03 s
def execVxopMin (q k : Nat) (s : State) : Res := vxRow q k 0x04 s
def execVxopMax (q k : Nat) (s : State) : Res := vxRow q k 0x05 s
def execVxopAddSat (q k : Nat) (s : State) : Res := vxRow q k 0x08 s
def execVxopSubSat (q k : Nat) (s : State) : Res := vxRow q k 0x09 s
def execVxopAbs (q k : Nat) (s : State) : Res := vxRow q k 0x10 s
def execVxopNeg (q k : Nat) (s : State) : Res := vxRow q k 0x11 s
def execVxopRelu (q k : Nat) (s : State) : Res := vxRow q k 0x12 s
def execVxopClamp (q k : Nat) (s : State) : Res := vxRow q k 0x13 s
def execVxopAffine (q k : Nat) (s : State) : Res := vxRow q k 0x14 s
def execVxopExp2 (q k : Nat) (s : State) : Res := vxRow q k 0x20 s
def execVxopLog2 (q k : Nat) (s : State) : Res := vxRow q k 0x21 s
def execVxopRecip (q k : Nat) (s : State) : Res := vxRow q k 0x22 s
def execVxopRsqrt (q k : Nat) (s : State) : Res := vxRow q k 0x23 s
def execVxopSigmoid (q k : Nat) (s : State) : Res := vxRow q k 0x28 s
def execVxopTanh (q k : Nat) (s : State) : Res := vxRow q k 0x29 s
def execVxopSilu (q k : Nat) (s : State) : Res := vxRow q k 0x2A s
def execVxopConvert (q k : Nat) (s : State) : Res := vxRow q k 0x30 s
def execVxopRequant (q k : Nat) (s : State) : Res := vxRow q k 0x31 s
def execVxopRedSum (q k : Nat) (s : State) : Res := vxRow q k 0x40 s
def execVxopRedMax (q k : Nat) (s : State) : Res := vxRow q k 0x41 s
def execVxopRedMin (q k : Nat) (s : State) : Res := vxRow q k 0x42 s
def execVxopTopk (q k : Nat) (s : State) : Res := vxRow q k 0x50 s
def execVxopSort (q k : Nat) (s : State) : Res := vxRow q k 0x51 s
def execVxopGather (q k : Nat) (s : State) : Res := vxRow q k 0x60 s
def execVxopScatter (q k : Nat) (s : State) : Res := vxRow q k 0x61 s
def execVxopLimbcomb (q k : Nat) (s : State) : Res := vxRow q k 0x70 s

/-- A reserved FUNC, or a TYPE not legal with its FUNC (R475). -/
def execVxopUndefinedFunc (q k : Nat) (s : State) : Res :=
  s.atWord q k (fun w => isOp q 0x31 w && !vxTypeOk (bits w 48 8) (bits w 44 4)) fun s _ =>
    s.endProgram q k Sc.reservedNonzero

/-! What an element becomes. -/

/-- A float pattern with its event. -/
def fl (ft : Fmt) (p : Nat) : Nat × Nat := (p, ft.event p)

/-- A clamped integer with its event. -/
def sat (w : Nat) (i : Int) : Nat × Nat :=
  let c := clampEv (outRange w false).1 (outRange w false).2 i
  (unsgn w c.1, c.2)

/-- Two-source functions (R476, R478). -/
def vxBinary (f t a b : Nat) : Nat × Nat :=
  if isFloat t then
    let ft := tyFmt t
    let x := ft.value a
    let y := ft.value b
    fl ft (ft.round (match f with
      | 1 => Fv.add x y
      | 2 => Fv.add x y.neg
      | 3 => Fv.mul x y
      | 4 => Fv.min x y
      | _ => Fv.max x y))
  else
    let w := 8 * tySize t
    let x := sgn w a
    let y := sgn w b
    match f with
    | 1 => (unsgn w (x + y), 0)
    | 2 => (unsgn w (x - y), 0)
    | 3 => (unsgn w (x * y), 0)
    | 4 => (unsgn w (min x y), 0)
    | 5 => (unsgn w (max x y), 0)
    | 8 => sat w (x + y)
    | _ => sat w (x - y)

def Fv.abs : Fv → Fv
  | .nan => .nan
  | .inf _ => .inf false
  | .fin _ m e => .fin false m e

/-- The FP32 function of a FUNC (R482, R483). -/
def fpFunc (f p : Nat) : Nat :=
  match f with
  | 0x20 => exp2Fp p
  | 0x21 => log2Fp p
  | 0x22 => recipFp p
  | 0x23 => rsqrtFp p
  | 0x28 => sigmoidFp p
  | 0x29 => tanhFp p
  | _ => siluFp p

/-- CONVERT (R480, R421). -/
def vxConvert (src dst : Nat) (rha : Bool) (a : Nat) : Nat × Nat :=
  if isFloat src then
    if isFloat dst then fl (tyFmt dst) ((tyFmt src).conv (tyFmt dst) a)
    else
      match (tyFmt src).value a with
      | .nan => (0, 1)
      | v => sat (8 * tySize dst) (v.toInt rha)
  else
    let x := sgn (8 * tySize src) a
    if isFloat dst then fl (tyFmt dst) ((tyFmt dst).round (Fv.ofInt x)) else sat (8 * tySize dst) x

/-- One-source functions (R477 to R483); `blk` is the parameter block, `i` the element's index. -/
def vxUnary (f t imm : Nat) (blk : List Byte) (i a : Nat) : Nat × Nat :=
  let w := 8 * tySize t
  let ft := tyFmt t
  match f with
  | 0x10 => if isFloat t then fl ft (ft.round (ft.value a).abs) else sat w ((sgn w a).natAbs : Int)
  | 0x11 => if isFloat t then fl ft (ft.round (ft.value a).neg) else sat w (-(sgn w a))
  | 0x12 => if isFloat t then fl ft (ft.round (Fv.max (ft.value a) (.fin false 0 0))) else (unsgn w (max (sgn w a) 0), 0)
  | 0x13 =>
    let lo := fieldLE blk 0 (w / 8)
    let hi := fieldLE blk 8 (w / 8)
    if isFloat t then
      let x := ft.value a
      if x == .nan then fl ft ft.nanPat
      else if Fv.lt x (ft.value lo) then fl ft lo
      else if Fv.lt (ft.value hi) x then fl ft hi else fl ft a
    else (unsgn w (max (sgn w lo) (min (sgn w hi) (sgn w a))), 0)
  | 0x14 =>
    let r := fp32.round (Fv.add (Fv.mul (ft.value a) (fp32.value (fieldLE blk 0 4))) (fp32.value (fieldLE blk 4 4)))
    fl ft (fp32.conv ft r)
  | 0x30 => vxConvert t (bits imm 0 4) (bit imm 4) a
  | 0x31 =>
    let ch := bits imm 16 16
    let o := (match bits imm 0 2 with | 1 => 16 | 2 => 8 | _ => 4 : Nat)
    drainInt o (bit imm 4) ((blk.drop (8 * (i % ch))).take 8) (sgn 32 a)
  | f => fl ft (fp32.conv ft (fpFunc f (ft.conv fp32 a)))

/-! Reductions (R485 to R487). -/

/-- Adjacent partials combined. -/
def pairUp {α : Type} (op : α → α → α) : List α → List α
  | a :: b :: r => op a b :: pairUp op r
  | l => l

/-- The lane tree: lanes of every 128th element in ascending order, then seven rounds. -/
def laneTree {α : Type} (op : α → α → α) (zero : α) (xs : List α) : α :=
  let lanes := (List.range (min 128 xs.length)).map fun l =>
    let mine := (List.range (cdiv (xs.length - l) 128)).map fun j => xs.getD (l + 128 * j) zero
    mine.tail.foldl op (mine.headD zero)
  (((List.range 7).foldl (fun ls _ => pairUp op ls) lanes).headD zero)

def vxReduce (f t : Nat) (xs : List Nat) : Nat × Nat :=
  if isFloat t then
    let ft := tyFmt t
    let op (a b : Nat) : Nat := fp32.round (match f with
      | 0x40 => Fv.add (fp32.value a) (fp32.value b)
      | 0x41 => Fv.max (fp32.value a) (fp32.value b)
      | _ => Fv.min (fp32.value a) (fp32.value b))
    let r := laneTree op 0 (xs.map fun x => ft.conv fp32 x)
    fl ft (fp32.conv ft r)
  else
    let w := 8 * tySize t
    let vs := xs.map (sgn w)
    if f = 0x40 then sat 32 (vs.foldl (· + ·) 0)
    else (unsgn w (laneTree (fun a b => if f = 0x41 then max a b else min a b) 0 vs), 0)

/-! Ranking (R488). -/

/-- x ranks strictly below y. -/
def rankLt (t : Nat) (nanLow : Bool) (x y : Nat) : Bool :=
  if isFloat t then
    let a := (tyFmt t).value x
    let b := (tyFmt t).value y
    if a == .nan then nanLow && b != .nan
    else if b == .nan then !nanLow
    else Fv.lt a b
  else decide (sgn (8 * tySize t) x < sgn (8 * tySize t) y)

/-- (value, index) pairs in rank order: equal values keep their source order, since the sort is stable. -/
def rankOrder (t : Nat) (nanLow asc : Bool) (xs : List Nat) : List (Nat × Nat) :=
  xs.zipIdx.mergeSort fun a b => if asc then !(rankLt t nanLow b.1 a.1) else !(rankLt t nanLow a.1 b.1)

/-- A ranked value as it is written. -/
def rankOut (t x : Nat) : Nat × Nat :=
  if isFloat t then (let ft := tyFmt t; if ft.value x == .nan then fl ft ft.nanPat else fl ft x) else (x, 0)

/-- LIMBCOMB of one element (R493). -/
def limbComb (blk : List Byte) (vs : List Nat) : Nat :=
  let v : Int := vs.zipIdx.foldl (fun t x =>
    let p : Int := if bit (fieldLE blk 80 8) x.2 then sgn 32 x.1 else (x.1 : Nat)
    t + p * (2 ^ fieldLE blk (16 + x.2) 1 : Nat)) 0
  if fieldLE blk 1 1 = 0 then unsgn 64 v else (v % (fieldLE blk 8 8 : Nat)).toNat

/-! Timing (R495). -/

def vxCycles (f t imm n l mode : Nat) : Nat :=
  let e (bytes : Nat) : Nat := if bytes = 1 then 512 else if bytes = 2 then 256 else 128
  let wide := max (tySize t) (vxOutBits f t imm / 8)
  if f ≤ 0x14 || f = 0x30 || f = 0x31 then 10 + cdiv n (e wide)
  else if f ≤ 0x2A then 24 + cdiv n 32
  else if f ≤ 0x42 then 10 + n / imm * (cdiv imm (e wide) + 7)
  else if f = 0x50 then 16 + cdiv n 32 + 4 * bits imm 0 11
  else if f = 0x51 then
    let p := Nat.log2 (2 * n - 1)
    16 + (max 256 (2 ^ p) / 256) * (p * (p + 1) / 2)
  else if f ≤ 0x61 then 12 + n * cdiv imm 512
  else 12 + l * cdiv n 128 + (if mode = 1 then 2 * cdiv n 64 else 0)

/-! Running an operation. -/

/-- The earliest mark of the lines of a region of a unit's store. -/
def State.regionMark (s : State) (u off n : Nat) : Nat :=
  (linePieces (n / 128 + 2) (storeBase u + off) n).foldl (fun m p => firstMark m (s.mark p.1)) 0

/-- Write a result of elements of w bits line by line, each line with the marks of the elements it holds. -/
def State.writeMarked (s : State) (u off : Nat) (bs : List Byte) (mk : Nat → Nat → Nat) : State :=
  let a := storeBase u + off
  (linePieces (bs.length / 128 + 2) a bs.length).foldl (fun s p =>
    s.ownWrite u (p.1 - storeBase u) ((bs.drop (p.1 - a)).take p.2) (mk (p.1 - a) (p.1 - a + p.2))) s

/-- What a function gives: the state after its reads, result parts as (offset, bytes, whether they are index parts), the
elements' events in order, and the mark of each byte range of the first part. -/
structure VxOut where
  s : State
  parts : List (Nat × List Byte)
  evs : List Nat
  marks : Nat → Nat → Nat
  elements : Nat
  dups : Nat := 0

/-- The element a NaN injection replaces (R502). -/
def State.vxInjectAt (s : State) (n : Nat) : Bool := s.tiles.vxInject ≠ 0 && bits (s.tiles.vxInject - 1) 0 5 == n

/-- An elementwise function (R473, R474): elements in ascending order, each read as memory then stands. -/
def State.vxElems (s : State) (u : Nat) (o : UnitOp) (c : Cmd) (inj : Option Fmt) : VxOut :=
  let f := cFunc c
  let t := cType c
  let imm := cImm c
  let n := cCount c
  let sz := tySize t
  let w := vxOutBits f t imm
  let xd := o.reg (cXd c)
  let a := o.reg (cXs1 c)
  let b := o.reg (cXs2 c)
  let two := vxUsesXs2 f
  let ra := s.ownRead u a (sz * n)
  let rb := if two then ra.2.2.ownRead u b (sz * n) else ([], 0, ra.2.2)
  let pn := if f = 0x31 then 8 * bits imm 16 16 else if vxUsesXp f then 16 else 0
  let rp := rb.2.2.ownRead u (o.reg (cXp c)) pn
  let s1 := rp.2.2
  let base := storeBase u
  let r := (List.range n).foldl (fun (acc : State × List Nat) i =>
    let x := fieldLE (acc.1.rawRead (base + a + sz * i) sz) 0 sz
    let y := if two then fieldLE (acc.1.rawRead (base + b + sz * i) sz) 0 sz else 0
    let v := if two then vxBinary f t x y else vxUnary f t imm rp.1 i x
    let v := match inj with | some ft => if i = 0 then fl ft ft.nanPat else v | none => v
    let d := base + xd + i * w / 8
    let s := if w = 4 then
        let old := fieldLE (acc.1.rawRead d 1) 0 1
        acc.1.rawWrite d (leBytes 1 (setBits old (i % 2 * 4) 4 v.1))
      else acc.1.rawWrite d (leBytes (w / 8) v.1)
    (s, v.2 :: acc.2)) (s1, [])
  let mk (lo hi : Nat) : Nat :=
    let e0 := lo * 8 / w
    let e1 := min n (cdiv (hi * 8) w)
    firstMark rp.2.1 (firstMark (s1.regionMark u (a + e0 * sz) ((e1 - e0) * sz))
      (if two then s1.regionMark u (b + e0 * sz) ((e1 - e0) * sz) else 0))
  { s := s1, parts := [(xd, r.1.rawRead (base + xd) (cdiv (n * w) 8))], evs := r.2.reverse, marks := mk, elements := n }

/-- Every other function: all sources and parameters are read first; the whole result carries the earliest mark. -/
def State.vxWhole (s : State) (u : Nat) (o : UnitOp) (c : Cmd) (inj : Option Fmt) : VxOut :=
  let f := cFunc c
  let t := cType c
  let imm := cImm c
  let n := cCount c
  let sz := tySize t
  let xd := o.reg (cXd c)
  let a := o.reg (cXs1 c)
  let b := o.reg (cXs2 c)
  let inject (vs : List (Nat × Nat)) : List (Nat × Nat) :=
    match inj, vs with
    | some ft, _ :: r => fl ft ft.nanPat :: r
    | _, vs => vs
  let elems (bs : List Byte) (m : Nat) : List Nat := (List.range m).map fun i => fieldLE bs (i * sz) sz
  if f ≤ 0x42 then
    let r := s.ownRead u a (sz * n)
    let xs := elems r.1 n
    let w := vxOutBits f t imm / 8
    let vs := inject ((List.range (n / imm)).map fun g => vxReduce f t ((xs.drop (g * imm)).take imm))
    { s := r.2.2, parts := [(xd, vs.flatMap fun v => leBytes w v.1)], evs := vs.map (·.2), marks := fun _ _ => r.2.1,
      elements := vs.length }
  else if f = 0x50 || f = 0x51 then
    let r := s.ownRead u a (sz * n)
    let k := if f = 0x50 then bits imm 0 11 else n
    let asc := if f = 0x50 then bit imm 16 else bit imm 0
    let ord := (rankOrder t (s.obj Obj.NAN_RANK == 1) asc (elems r.1 n)).take k
    let vs := inject (ord.map fun e => rankOut t e.1)
    let idx := if f = 0x50 || bit imm 1 then [(xd + 16 * cdiv (k * sz) 16, ord.flatMap fun e => leBytes 4 e.2)] else []
    { s := r.2.2, parts := (xd, vs.flatMap fun v => leBytes sz v.1) :: idx, evs := vs.map (·.2), marks := fun _ _ => r.2.1,
      elements := k }
  else if f = 0x60 || f = 0x61 then
    let ri := s.ownRead u b (4 * n)
    let idx := (List.range n).map fun i => fieldLE ri.1 (4 * i) 4
    let rd := (if f = 0x60 then idx else List.range n).foldl (fun (acc : List (List Byte) × Nat × State) j =>
      let x := acc.2.2.ownRead u (a + j * imm) imm
      (acc.1 ++ [x.1], firstMark acc.2.1 x.2.1, x.2.2)) ([], ri.2.1, ri.2.2)
    let dups := n - idx.eraseDups.length
    if f = 0x60 then
      { s := rd.2.2, parts := [(xd, rd.1.flatten)], evs := [], marks := fun _ _ => rd.2.1, elements := n }
    else
      { s := rd.2.2, parts := (idx.zip rd.1).map fun e => (xd + e.1 * imm, e.2), evs := [], marks := fun _ _ => rd.2.1,
        elements := n, dups := dups }
  else
    let p := s.ownRead u (o.reg (cXp c)) 88
    let l := fieldLE p.1 0 1
    let st := fieldLE p.1 4 4
    let rd := (List.range l).foldl (fun (acc : List (List Byte) × Nat × State) j =>
      let x := acc.2.2.ownRead u (a + j * st) (4 * n)
      (acc.1 ++ [x.1], firstMark acc.2.1 x.2.1, x.2.2)) ([], p.2.1, p.2.2)
    let out := (List.range n).flatMap fun i => leBytes 8 (limbComb p.1 (rd.1.map fun pl => fieldLE pl (4 * i) 4))
    { s := rd.2.2, parts := [(xd, out)], evs := [], marks := fun _ _ => rd.2.1, elements := n }

/-- REQUANT records with a reserved value (R412, R481). -/
def State.requantBad (s : State) (u : Nat) (o : UnitOp) (c : Cmd) : Bool :=
  cFunc c = 0x31 && (List.range (min (cCount c) (bits (cImm c) 16 16))).any fun i =>
    paramBad (s.rawRead (storeBase u + o.reg (cXp c) + 8 * i) 8)

/-- Run a VXOP to its end: results, exception record, counters. Contents that no longer pass the word's checks are not
written, and the program learns of it where it waits (R412; DEDUCED, log 6). -/
def State.runVx (s : State) (o : UnitOp) : State :=
  let c : Cmd := { w0 := o.w0, w1 := o.w1 }
  let u := o.seq
  let n := unitIndex u
  let f := cFunc c
  let st := s.vxCheck u o.reg c
  let blk := if f = 0x70 then s.rawRead (storeBase u + o.reg (cXp c)) 2 else []
  let cyc := vxCycles f (cType c) (cImm c) (cCount c) (fieldLE blk 0 1) (fieldLE blk 1 1)
  let vt := SMap.get {} s.tiles.vxt n
  let vt : VTile := { vt with lastWord := o.word, busyCycles := satBump 64 vt.busyCycles cyc }
  let s : State := { s with tiles := { s.tiles with vxt := SMap.set {} s.tiles.vxt n vt } }
  let s := s.bump64 Obj.VXOPS
  if st ≠ 0 then s.finishOp o { late := st }
  else if s.requantBad u o c then s.finishOp o { late := Sc.reservedNonzero }
  else
    let inj := if s.vxInjectAt n then vxFloatOut f (cType c) (cImm c) else none
    let s : State := if inj.isSome then { s with tiles := { s.tiles with vxInject := 0 } } else s
    let r := if vxElementwise f then s.vxElems u o c inj else s.vxWhole u o c inj
    let s := r.parts.foldl (fun s p => s.writeMarked u p.1 p.2 r.marks) r.s
    let total := r.parts.foldl (fun m p => firstMark m (r.marks 0 p.2.length)) 0
    let s := s.bump64 Obj.VX_ELEMENTS r.elements
    let s := if 0x20 ≤ f && f ≤ 0x2A then s.bump64 Obj.TRANSC_ELEMENTS r.elements else s
    let s := if f = 0x50 then s.bump Obj.TOPK_CALLS else s
    let s := if f = 0x70 then s.bump64 Obj.LIMB_ELEMENTS r.elements else s
    let s := if r.dups = 0 then s else s.bump Obj.SCATTER_DUPS r.dups
    let evs := r.evs.zipIdx.map fun e => ({ row := e.2 / 65536, col := e.2 % 65536, kind := e.1, acc := false } : Event)
    let rec_ := excRecord evs 1 n o.word
    let s := if excHolds rec_ then s.bump Obj.VX_EXC_TILES else s
    (s.countExc rec_).finishOp o { mark := total, exc := rec_ }

/-- VXT_EXC_INJECT arms a NaN, or replaces an armed one (R502). -/
def State.applyExcInject (s : State) (v : Nat) : State :=
  { s with tiles := { s.tiles with vxInject := if bit v 15 then v + 1 else 0 } }

/-- VXT_STATUS (Table 12.8). -/
def State.vxtStatus (s : State) (n : Nat) : Nat :=
  let u := unitOf 1 n
  (s.unitSt u).code + (match s.headOp u with | some o => 8 + bits o.w0 48 8 * 256 | none => 0)

end Sys2Proof.Machine
end

