-- ==== Sys2Proof/Machine/Streams.lean ====
section
/-!
DEFINITION. Stream engines: the STREAM words, descriptors, slots, posts and the end of a chain (R225, R226, R244 to R268,
R271, R282).
-/
namespace Sys2Proof.Machine

/-! Descriptors (Tables 6.2 and 6.3). -/

structure Pat where
  base : Nat
  s1 : Nat
  s2 : Nat
  s3 : Nat
  len0 : Nat
  c1 : Nat
  c2 : Nat
  c3 : Nat
  space : Nat
  ring : Nat

def decodePat (d : List Byte) (o : Nat) : Pat :=
  { base := fieldLE d o 8, s1 := fieldLE d (o + 8) 8, s2 := fieldLE d (o + 16) 8, s3 := fieldLE d (o + 24) 8,
    len0 := fieldLE d (o + 32) 4, c1 := fieldLE d (o + 36) 4, c2 := fieldLE d (o + 40) 4, c3 := fieldLE d (o + 44) 4,
    space := fieldLE d (o + 48) 1, ring := fieldLE d (o + 49) 1 }

def Pat.total (p : Pat) : Nat := p.len0 * p.c1 * p.c2 * p.c3

/-- Bytes of the run that dimensions 0 to k make (R250). -/
def Pat.run (p : Pat) (k : Nat) : Nat :=
  p.len0 * (if 1 ≤ k then p.c1 else 1) * (if 2 ≤ k then p.c2 else 1) * (if 3 ≤ k then p.c3 else 1)

/-- Where the n-th byte of a pattern lies (R247). -/
def Pat.addr (p : Pat) (n : Nat) : Nat :=
  let b := n % p.len0
  let r := n / p.len0
  let o := (b + r % p.c1 * p.s1 + r / p.c1 % p.c2 * p.s2 + r / p.c1 / p.c2 * p.s3) % 2 ^ 64
  (p.base + (if p.ring = 0 then o else o % 2 ^ p.ring)) % 2 ^ 64

/-- Bytes from the n-th on that lie together within one 128-byte line. -/
def Pat.together (p : Pat) (n : Nat) : Nat := min (p.len0 - n % p.len0) (128 - p.addr n % 128)

/-- First address and bytes of a pattern's extent (R252). -/
def Pat.extent (p : Pat) : Nat × Nat :=
  if p.ring ≠ 0 then (p.base, 2 ^ p.ring) else
  let lo (c st : Nat) : Int := min 0 ((c - 1 : Int) * sgn 64 st)
  let hi (c st : Nat) : Int := max 0 ((c - 1 : Int) * sgn 64 st)
  let l := lo p.c1 p.s1 + lo p.c2 p.s2 + lo p.c3 p.s3
  let h := hi p.c1 p.s1 + hi p.c2 p.s2 + hi p.c3 p.s3
  (unsgn 64 (p.base + l), (p.len0 + (h - l)).toNat)

def dType (d : List Byte) : Nat := fieldLE d 0 1
def dChain (d : List Byte) : Bool := bit (fieldLE d 1 1) 0
def dIn (d : List Byte) : Bool := bit (fieldLE d 1 1) 1
def dOut (d : List Byte) : Bool := bit (fieldLE d 1 1) 2
def dGate (d : List Byte) : Bool := bit (fieldLE d 1 1) 3
def dSlotDim (d : List Byte) : Nat := fieldLE d 2 1
def dTmo (d : List Byte) : Nat := fieldLE d 3 1
def dInPair (d : List Byte) : Nat := fieldLE d 4 2
def dOutPair (d : List Byte) : Nat := fieldLE d 6 2
def dInDev (d : List Byte) : Nat := fieldLE d 8 1
def dOutDev (d : List Byte) : Nat := fieldLE d 9 1
def dNext (d : List Byte) : Nat := fieldLE d 16 8
def dSrc (d : List Byte) : Pat := decodePat d 24
def dDst (d : List Byte) : Pat := decodePat d 76

def dZero (d : List Byte) : Bool := dType d == 2

/-- Bytes the descriptor moves, and bytes of a slot: the whole of it where nothing is synced. -/
def dTotal (d : List Byte) : Nat := (dDst d).total
def dSlotBytes (d : List Byte) : Nat :=
  if dIn d then (dSrc d).run (dSlotDim d) else if dOut d then (dDst d).run (dSlotDim d) else dTotal d

/-- Reserved values and unused fields that are not 0 (R246, check 1 of R252). -/
def dReserved (d : List Byte) : Bool :=
  let pat (o : Nat) : Bool :=
    let r := fieldLE d (o + 49) 1
    decide (2 ≤ fieldLE d (o + 48) 1) || (r ≠ 0 && (decide (r < 7) || decide (40 < r))) || fieldLE d (o + 50) 2 ≠ 0
  !(dType d == 1 || dType d == 2) || decide (16 ≤ fieldLE d 1 1) || decide (4 ≤ dSlotDim d) || decide (16 ≤ dTmo d) ||
  decide (2048 ≤ dInPair d) || decide (2048 ≤ dOutPair d) || fieldLE d 10 6 ≠ 0 ||
  (!dIn d && (dInPair d ≠ 0 || dInDev d ≠ 0)) || (!dOut d && (dOutPair d ≠ 0 || dOutDev d ≠ 0)) ||
  (!dIn d && !dOut d && (dSlotDim d ≠ 0 || dTmo d ≠ 0)) || (!dChain d && dNext d ≠ 0) ||
  (dZero d && ((d.drop 24).take 52).any (· ≠ 0)) || (!dZero d && pat 24) || pat 76

/-- Sizes that disagree (check 2 of R252). -/
def dBound (d : List Byte) : Bool :=
  let sb := dSlotBytes d
  let synced := dIn d || dOut d
  let small (p : Pat) : Bool := p.ring ≠ 0 && decide (2 ^ p.ring < sb)
  (!dZero d && (dSrc d).total ≠ (dDst d).total) ||
  (synced && dTotal d ≠ 0 && (sb = 0 || dTotal d % sb ≠ 0)) ||
  (dIn d && dOut d && (dSrc d).run (dSlotDim d) ≠ (dDst d).run (dSlotDim d)) ||
  (dIn d && small (dSrc d)) || (dOut d && small (dDst d))

/-- What the pages of an extent show (R252, R255, R356): two regions or devices are reached, a page is not mapped, or one is mapped
without the permission or to device space. -/
structure Extent where
  apart : Bool := false
  miss : Bool := false
  denied : Bool := false

/-- Translate every page of a context-space extent. -/
def State.extentCheck (s : State) (c : Nat) (p : Pat) (r w : Bool) : Extent × State :=
  if p.space = 1 || p.total = 0 then ({}, s) else
  let e := p.extent
  let res := (grains e.1 e.2).foldl (fun (acc : List (Nat × Region) × Extent × State) g =>
    let x := acc.2.2.xlate c g r w
    let last := min (e.1 + e.2) ((g / 0x10000 + 1) * 0x10000) - g - 1
    let y := acc.2.1
    if x.1.status ≠ 0 then
      (acc.1, { y with miss := y.miss || x.1.status == Sc.apertureMiss, denied := y.denied || x.1.status == Sc.accessDenied }, x.2)
    else (acc.1 ++ [x.2.placeOf x.1.ga, x.2.placeOf (x.1.ga + last)], { y with denied := y.denied || x.2.isMmio x.1.ga }, x.2))
    ([], {}, s)
  ({ res.2.1 with apart := !(res.1.all (· == res.1.headD (0, .reserved))) }, res.2.2)

/-- The first failing check of a descriptor (R252), both patterns together at each step of R26. -/
def State.descCheck (s : State) (x : Engine) (d : List Byte) : Nat × State :=
  if dReserved d then (Sc.reservedNonzero, s)
  else if dBound d then (Sc.boundViolation, s)
  else
    let a := if dZero d then ({}, s) else s.extentCheck x.ctx (dSrc d) true false
    let b := a.2.extentCheck x.ctx (dDst d) false true
    let s := b.2
    let ringOff (p : Pat) : Bool := p.ring ≠ 0 && p.base % 128 ≠ 0
    let absent (use : Bool) (dev pair : Nat) : Bool := use && dev ≠ s.devId && (s.portFor dev pair).isNone
    (firstFail [
      (x.descAddr % 128 ≠ 0 || (!dZero d && ringOff (dSrc d)) || ringOff (dDst d) || a.1.apart || b.1.apart, Sc.alignment),
      (a.1.miss || b.1.miss, Sc.apertureMiss), (a.1.denied || b.1.denied, Sc.accessDenied),
      (absent (dIn d) (dInDev d) (dInPair d) || absent (dOut d) (dOutDev d) (dOutPair d), Sc.linkAbsent)], s)

/-! Chains. -/

/-- A request or host read of the engine is still out, or a write waits for a tag. Its jess waits are withdrawn with the chain. -/
def State.engOut (s : State) (e : Nat) : Bool :=
  !(s.engine e).wq.isEmpty ||
  (s.net.outst.any fun o => match o.use with
    | .engRead x _ _ => x == e | .engWrite x _ => x == e | .engPost x => x == e | _ => false) ||
  (s.host.reads.any fun r => match r.2 with | .beat x _ _ => x == e | _ => false)

/-- A request of the engine for one of its first `n` slots is still out; `wr` asks for writes too. -/
def State.engSlotOut (s : State) (e n : Nat) (wr : Bool) : Bool :=
  (wr && (s.engine e).wq.any fun w => decide (w.slot < n)) ||
  (s.net.outst.any fun o => match o.use with
    | .engRead x k _ => x == e && decide (k < n)
    | .engWrite x k => wr && x == e && decide (k < n)
    | _ => false) ||
  (s.host.reads.any fun r => match r.2 with | .beat x k _ => x == e && decide (k < n) | _ => false)

/-- The chain ends with a status: at once, or when the last answer to what it asked for has come. Its wait is withdrawn, and what it
has not yet sent is not. -/
def State.stopChain (s : State) (e st : Nat) : State :=
  let s := s.cancelWait (.engine e) 0
  let s := s.setEngine e { s.engine e with wq := [] }
  if s.engOut e then s.setEngine e { s.engine e with st := .stopping, lastStatus := st } else s.endChain e st

/-- A stopping chain ends once nothing of it is out. -/
def State.engSettle (s : State) (e : Nat) : State :=
  let x := s.engine e
  if x.st == .stopping && !s.engOut e then s.endChain e x.lastStatus else s

/-- Record what a beat met: a sticky status and the first pellet (R256, R259). -/
def Engine.note (x : Engine) (st mark : Nat) : Engine :=
  { x with
    sticky := if x.sticky = 0 && isStickyStatus st then st else x.sticky
    pellet := if mark = 0 || x.pellet.isSome then x.pellet else some (mark - 1) }

def State.noteBeat (s : State) (e st mark : Nat) : State := s.setEngine e ((s.engine e).note st mark)

/-- The pellet of an access to an unbacked address (R22, R256). -/
def State.unbackedPellet (s : State) (e ga : Nat) : Nat × State :=
  let r := s.pellet { source := Es.accessPoison, code := Pc.unbacked, status := Sc.accessDenied, addr := some (ga / 128 * 128),
                      oClass := 0x0C, oIndex := e, cls := unitClass (engUnit e), sub := unitIndex (engUnit e) + 1 }
  (r.1 + 1, r.2)

/-- The function whose requester ID an engine's host accesses carry (R249). -/
def State.engFn (s : State) (e : Nat) : Nat := bits (SMap.get 0 s.host.ctxBind (s.engine e).ctx) 0 6

/-- The function that a read of host memory is made for. -/
def State.readFn (s : State) : HostReadUse → Nat
  | .entry ring _ => (s.ringFn ring).getD 0
  | .beat e _ _ => s.engFn e

/-- A function may have another read of host memory: it is in D0 and has fewer than 1,024 non-posted requests out (R140). -/
def State.mayRead (s : State) (fn : Nat) : Bool :=
  SMap.get 0 s.host.power fn == 0 && decide ((s.host.reads.filter fun r => s.readFn r.2 == fn).length < 1024)

/-- A beat the engine has written is counted (Table 6.14). -/
def State.countWr (s : State) (e : Nat) : State :=
  let x := s.engine e
  s.setEngine e { x with live := { x.live with wr := satBump 48 x.live.wr 1 } }

/-- Send the engine's writes in order, as far as tags are free (R268, R304): the first `n` that wait. -/
def State.pumpEng (e : Nat) : Nat → State → State
  | 0, s => s
  | n + 1, s =>
    match (s.engine e).wq with
    | [] => s
    | w :: r =>
      let gone := s.setEngine e { s.engine e with wq := r }
      match s.destOf w.ga with
      | .unbacked =>
        let p := (gone.unbackedAt w.ga).unbackedPellet e w.ga
        State.pumpEng e n (p.2.noteBeat e 0 p.1)
      | .absent => State.pumpEng e n (gone.noteBeat e Sc.linkAbsent 0)
      | .node d =>
        match gone.send (writePacket (.engine e) 2 d w.ga w.bytes w.mark w.replay) (.engWrite e w.slot) with
        | some t => State.pumpEng e n ((t.countWr e).noteBeat e 0 w.mark)
        | none => s

/-- Write a piece of a beat to its destination (R248, R249, R255, R256, R356): the state, and a status that ends the chain. -/
def State.beatWrite (s : State) (e slot space a : Nat) (bs : List Byte) (m : Nat) : Nat × State :=
  if space = 1 then (0, (s.emit (.hostWrite (s.engFn e) a bs)).countWr e) else
  let x := s.xlate (s.engine e).ctx a false true
  if x.1.status ≠ 0 then (x.1.status, x.2)
  else if x.2.isMmio x.1.ga then (Sc.accessDenied, x.2)
  else
    let y := x.2.engine e
    let wq := y.wq ++ [{ slot := slot, ga := x.1.ga, bytes := bs, mark := m, replay := x.1.replay }]
    (0, State.pumpEng e wq.length (x.2.setEngine e { y with wq := wq }))

/-- Destination pieces of stream bytes n to n + k - 1, as (address, offset in the beat, bytes). -/
def destPieces (d : List Byte) : Nat → Nat → Nat → Nat → List (Nat × Nat × Nat)
  | 0, _, _, _ => []
  | f + 1, n, k, o =>
    if k = 0 then [] else
    let c := min k ((dDst d).together n)
    ((dDst d).addr n, o, c) :: destPieces d f (n + c) (k - c) (o + c)

/-- Deliver a beat's bytes to its destination pieces (R248); poison reaches every line written (Table 6.10). -/
def State.deliverBeat (s : State) (e slot : Nat) (ps : List (Nat × Nat × Nat)) (bs : List Byte) (m : Nat) : State :=
  let space := (dDst (s.engine e).desc).space
  ps.foldl (fun s p =>
    if (s.engine e).st != .running then s else
    let r := s.beatWrite e slot space p.1 ((bs.drop p.2.1).take p.2.2) m
    if r.1 ≠ 0 then r.2.stopChain e r.1 else r.2) s

/-- An armed injection poisons the engine's next read beat (R281). -/
def State.injectBeat (s : State) (e m ga : Nat) : Nat × State :=
  let x := s.engine e
  if x.armed then
    let s := s.setEngine e { x with armed := false }
    let r := s.pellet { source := Es.poisonInjected, code := Pc.injected, addr := some (ga / 128 * 128), oClass := 0x0C, oIndex := e,
                        cls := unitClass (engUnit e), sub := unitIndex (engUnit e) + 1 }
    (firstMark m (r.1 + 1), r.2)
  else (m, s)

/-- A read response has come (Table 6.14). -/
def State.countRd (s : State) (e : Nat) : State :=
  let x := s.engine e
  s.setEngine e { x with live := { x.live with rd := satBump 48 x.live.rd 1 } }

/-- A read beat's data is here: count it, note what it met, and write it on. -/
def State.beatArrives (s : State) (e slot : Nat) (ps : List (Nat × Nat × Nat)) (st : Nat) (bs : List Byte) (m ga : Nat) : State :=
  let i := s.injectBeat e m ga
  ((i.2.countRd e).noteBeat e st i.1).deliverBeat e slot ps bs i.1

/-- Room for another read (R268). -/
def State.readRoom (s : State) (e : Nat) : Bool := decide ((s.engine e).outstanding < s.obj Obj.MAX_OUTSTANDING)

/-- Move the beats of a slot that can move now: each read is requested of its home, and its response is written on when it
comes. No read is issued while a write waits for a tag. -/
def State.moveBeats (s : State) (e : Nat) (d : List Byte) : Nat → Nat → State
  | 0, _ => s
  | f + 1, stop =>
    let x := s.engine e
    let n := x.moved
    if x.st != .running || decide (stop ≤ n) || !x.wq.isEmpty then s else
    let slot := n / dSlotBytes d
    let go (k : Nat) (s : State) : State := s.setEngine e { s.engine e with moved := n + k }
    if dZero d then
      let k := min (stop - n) ((dDst d).together n)
      ((go k s).deliverBeat e slot (destPieces d k n k 0) (zeros k) 0).moveBeats e d f stop
    else if !s.readRoom e then s
    else
      let k := min (stop - n) ((dSrc d).together n)
      let a := (dSrc d).addr n
      let ps := destPieces d k n k 0
      let more (s : State) : State :=
        let x := s.engine e
        s.setEngine e { x with outstanding := x.outstanding + 1 }
      if (dSrc d).space = 1 then
        if !s.mayRead (s.engFn e) then s else
        let tag := s.host.nextTag
        let s := { s with host := { s.host with nextTag := tag + 1, reads := s.host.reads ++ [(tag, .beat e slot ps)] } }
        ((more (go k s)).emit (.hostRead (s.engFn e) tag a k)).moveBeats e d f stop
      else
        let t := s.xlate x.ctx a true false
        let ga := t.1.ga
        if t.1.status ≠ 0 then t.2.stopChain e t.1.status
        else if t.2.isMmio ga then t.2.stopChain e Sc.accessDenied
        else match t.2.destOf ga with
        | .unbacked =>
          let p := (t.2.unbackedAt ga).unbackedPellet e ga
          let fr := p.2.drawBytes k
          ((go k fr.2).beatArrives e slot ps 0 fr.1 p.1 ga).moveBeats e d f stop
        | .absent =>
          let r := t.2.linkAbsentData ga k 0x0C e
          ((go k r.2).beatArrives e slot ps Sc.linkAbsent r.1.bytes r.1.mark ga).moveBeats e d f stop
        | .node nd =>
          match t.2.send (readPacket (.engine e) 2 nd ga k) (.engRead e slot ps) with
          | some s => (more (go k s)).moveBeats e d f stop
          | none => s

/-- The unit of an engine may move data: the device runs, its domain applies no commit, and it is not asleep or drained. -/
def State.engLive (s : State) (e : Nat) : Bool :=
  s.live && decide (e < 440) && !(s.held (engUnit e)) && (s.engine e).st == .running

/-! The STREAM words (Table 5.10). -/

def isStream (q mode : Nat) (w : Nat) : Bool := isOp q 0x34 w && bits w 48 2 == mode

/-- What every STREAM word checks (R225): reserved bits, unused fields and the engine. -/
def State.streamWord (s : State) (q k : Nat) (c : Cmd) (start : Bool) (go : Nat → State) : State :=
  let bad := bits c.w0 0 43 ≠ 0 || (!start && (bits c.w0 44 4 ≠ 0 || bit c.w0 43))
  match engOf q (s.slot q k).target (bits c.w0 50 6) with
  | some e => if bad then s.endProgram q k Sc.reservedNonzero else go e
  | none => s.endProgram q k Sc.reservedNonzero

/-- START: the chain at XS begins on an idle engine; a follower's waits for OVERLAP (R225, R233). The reserved MODE halts here. -/
def execStreamStart (q k : Nat) (s : State) : Res :=
  s.atWord q k (fun w => isStream q 0 w || isStream q 3 w) fun s c =>
    if bits c.w0 48 2 = 3 then s.endProgram q k Sc.reservedNonzero else
    s.streamWord q k c true fun e =>
      let t := s.slot q k
      let xs := bits c.w0 44 4
      let x := s.engine e
      if t.pendReg xs then s
      else if t.regMark xs ≠ 0 then s.halted q k (t.regMark xs)
      else if s.leaderHolds q k true then s.waitAt q k .leader
      else if x.st != .idle then s.waitAt q k .busyEngine
      else
        let det := bit c.w0 43
        let s := s.keepStatus e
        let t := s.slot q k
        let s := s.setEngine e { x with
          st := .running, detached := det, lastStatus := 0, descs := 0, descAddr := t.reg xs, desc := [], descRunning := false,
          descSt := 0, ctx := t.ctx, ring := t.ring, seq := q, slot := k, slotsTaken := 0, slotsFilled := 0, slotsFreed := 0,
          moved := 0, outstanding := 0, sticky := 0, pellet := none, unread := false, gateEpoch := none, wq := [], sawEmpty := false }
        (s.setSlot q k { t with engines := if det then t.engines else t.engines.filter (· ≠ e) ++ [e] }).advance q k 1

/-- STOP: the chain ends after its current beat, with status OK (R260). -/
def execStreamStop (q k : Nat) (s : State) : Res :=
  s.atWord q k (isStream q 1) fun s c =>
    s.streamWord q k c false fun e =>
      if s.leaderHolds q k false then s.waitAt q k .leader else
      (if (s.engine e).st == .running then s.stopChain e Sc.ok else s).advance q k 1

/-- WAIT: until the engine's chain has completed; its status is taken here (R225, R259). -/
def execStreamWait (q k : Nat) (s : State) : Res :=
  s.atWord q k (isStream q 2) fun s c =>
    s.streamWord q k c false fun e =>
      if s.leaderHolds q k false then s.waitAt q k .leader
      else if (s.engine e).st != .idle then s.waitAt q k .busyEngine
      else
        let r := s.takeStreams q k [e]
        if r.1 ≠ 0 then r.2.endProgram q k r.1 else r.2.advance q k 1

/-! Descriptors and slots. -/

/-- A descriptor is done: the chain goes on to NEXT or ends (R258). -/
def State.nextDesc (s : State) (e : Nat) (d : List Byte) : State :=
  let x := s.engine e
  let x := { x with descs := x.descs + 1, descRunning := false, descSt := 0, gateEpoch := none, sawEmpty := decide (dTotal d = 0) }
  if dChain d then s.setEngine e { x with descAddr := dNext d, desc := [] }
  else (s.setEngine e x).stopChain e Sc.ok

/-- Run a descriptor whose line is here: poison and the checks of R252 end the chain; totals of 0 complete it (R253). -/
def State.beginDesc (s : State) (e : Nat) (d : List Byte) : State :=
  let x := s.engine e
  let r := s.descCheck x d
  let s := r.2
  if r.1 ≠ 0 then s.stopChain e r.1
  else if dTotal d = 0 then s.nextDesc e d
  else
    let dom := s.domainOf (engUnit e)
    s.setEngine e { x with
      desc := d, descRunning := true, descSt := 0, moved := 0, slotsTaken := 0, slotsFilled := 0, slotsFreed := 0,
      tookIn := false, tookOut := false,
      gateEpoch := if dGate d then some (dom, (s.epoch dom).commits) else none }

/-- DESCRIPTOR_START: the engine reads its descriptor as one line, once (R251), and checks it. -/
def execDescriptorStart (e : Nat) (s : State) : Res :=
  let x := s.engine e
  if !s.engLive e || x.descRunning then .next s
  else if x.descSt = 2 then .next (s.beginDesc e x.desc)
  else if x.descSt = 1 then .next s
  else if x.descAddr % 128 ≠ 0 then .next (s.stopChain e Sc.alignment)
  else
    let t := s.xlate x.ctx x.descAddr true false
    let ga := t.1.ga
    if t.1.status ≠ 0 then .next (t.2.stopChain e t.1.status)
    else if t.2.isMmio ga then .next (t.2.stopChain e Sc.accessDenied)
    else match t.2.destOf ga with
    | .unbacked => .next ((t.2.unbackedAt ga).stopChain e Sc.accessDenied)
    | .absent =>
      let r := t.2.linkAbsentData ga 0 0x0C e
      .next ((r.2.noteBeat e Sc.linkAbsent r.1.mark).stopChain e Sc.accessDenied)
    | .node nd =>
      match t.2.send (readPacket (.engine e) 2 nd ga 128) (.engRead e 0 []) with
      | some s => .next (s.setEngine e { s.engine e with descSt := 1 })
      | none => .next s

/-- A jess wait of the engine has gone out: its semaphore. -/
def State.engWaitsOn (s : State) (e : Nat) : Option Nat :=
  s.net.outst.findSome? fun o => match o.use with | .engWait x m => if x = e then some m else none | _ => none

/-- The engine waits on a semaphore, by a JESS_WAIT that carries the descriptor's limit (R261 to R264, R292). -/
def State.engWait (s : State) (e m tmo : Nat) : State :=
  (s.send (waitPacket (.engine e) m 1 tmo false) (.engWait e m)).getD s

/-- The epoch gate of the descriptor is past (R257). -/
def State.gateOpen (s : State) (e : Nat) : Bool :=
  match (s.engine e).gateEpoch with | some g => decide (g.2 < (s.epoch g.1).commits) | none => true

/-- STREAM_SLOT_ACQUIRE: past its epoch gate the engine takes FILL of IN_PAIR, then FREE of OUT_PAIR, and moves the slot's
bytes; a slot whose reads reach the limit, and writes that waited for tags, go on at the next such command (R257, R261 to R263,
R268). A wait that the table holds is granted here once its take succeeds (R292). -/
def execStreamSlotAcquire (e : Nat) (s : State) : Res :=
  let x := s.engine e
  let d := x.desc
  let w := Waiter.engine e
  if !s.engLive e || !x.descRunning then .next s
  else if !x.wq.isEmpty then .next (State.pumpEng e x.wq.length s)
  else if decide (dTotal d ≤ x.moved) || !s.gateOpen e then .next s else
  let sb := dSlotBytes d
  let move (s : State) : State :=
    let x := s.engine e
    let stop := min (dTotal d) (x.slotsTaken * sb)
    s.moveBeats e d (stop - x.moved) stop
  if x.moved < x.slotsTaken * sb then .next (move s) else
  match s.waitOf w with
  | some q => if s.canTake q.sem 1 w then .next ((s.take q.sem 1 w).answerWait q Sc.ok) else .next s
  | none =>
    if (s.engWaitsOn e).isSome then .next s else
    let mi := semOf (dInPair d) 0
    let mo := semOf (dOutPair d) 1
    if dIn d && !x.tookIn && !s.canTake mi 1 w then .next (s.engWait e mi (dTmo d)) else
    let s := if dIn d && !x.tookIn then (s.takeNow (.engine e) mi 1 w).setEngine e { x with tookIn := true } else s
    if dOut d && !x.tookOut && !s.canTake mo 1 w then .next (s.engWait e mo (dTmo d)) else
    let s := if dOut d && !x.tookOut then s.takeNow (.engine e) mo 1 w else s
    .next (move (s.setEngine e { s.engine e with
      slotsTaken := x.slotsTaken + 1, tookIn := false, tookOut := false, gateEpoch := none }))

/-- Post 1 to a semaphore of a device, with release semantics (R264, R265). -/
def State.engPost (s : State) (e m dev : Nat) (done : Engine → Engine) : State :=
  if dev = s.devId then
    let r := (s.counted (.engine e)).post m 1
    if r.1 then r.2.setEngine e (done (r.2.engine e)) else r.2.stopChain e Sc.overrun
  else match s.portFor dev (m / 2) with
    | none => s.stopChain e Sc.linkAbsent
    | some p =>
      match s.send (postPacket (.engine e) (unitNode (unitOf 6 p)) dev m 1) (.engPost e) with
      | some s => s.setEngine e (done (s.engine e))
      | none => s

/-- STREAM_FILL_POST: every write of the next slot is visible (R261, R390). -/
def execStreamFillPost (e : Nat) (s : State) : Res :=
  let x := s.engine e
  let d := x.desc
  let k := x.slotsFilled + 1
  if s.engLive e && x.descRunning && dOut d && decide (k * dSlotBytes d ≤ x.moved) && !s.engSlotOut e k true then
    .next (s.engPost e (semOf (dOutPair d) 0) (dOutDev d) fun x => { x with slotsFilled := k })
  else .next s

/-- STREAM_FREE_POST: every read of the next slot has returned (R262, R390). -/
def execStreamFreePost (e : Nat) (s : State) : Res :=
  let x := s.engine e
  let d := x.desc
  let k := x.slotsFreed + 1
  if s.engLive e && x.descRunning && dIn d && decide (k * dSlotBytes d ≤ x.moved) && !s.engSlotOut e k false then
    .next (s.engPost e (semOf (dInPair d) 1) (dInDev d) fun x => { x with slotsFreed := k })
  else .next s

/-- STREAM_WAIT_TIMEOUT: the engine's wait reaches its limit; the table answers TIMEOUT, which ends the chain with the semaphore
unchanged (R264, R292). -/
def execStreamWaitTimeout (e : Nat) (s : State) : Res :=
  match s.waitOf (.engine e) with
  | some w => occ (!s.safety.safe && (tmoNs w.tmo).any (s.passed w.sinceNs)) s (s.answerWait w Sc.timeout)
  | none => .next s

/-- DESCRIPTOR_COMPLETE: every byte is moved and visible and every post is made (R258). -/
def execDescriptorComplete (e : Nat) (s : State) : Res :=
  let x := s.engine e
  let d := x.desc
  let slots := dTotal d / dSlotBytes d
  if s.engLive e && x.descRunning && decide (dTotal d ≤ x.moved) && !s.engOut e &&
     (!dOut d || x.slotsFilled == slots) && (!dIn d || x.slotsFreed == slots) then .next (s.nextDesc e d)
  else .next s

/-! Counters. -/

/-- ENG_CTRL SNAP: the live counters and the time are copied in one cycle (R271). -/
def State.engSnap (s : State) (e : Nat) : State :=
  let x := s.engine e
  let c := { x.live with timeNs := s.timeNs }
  let s := s.setEngine e { x with snap := c }
  -- 0x6A10 shows the engine of STALL_SELECT as snapped (Table 6.15)
  if s.obj Obj.STALL_SELECT = e then { s with str := { s.str with stallSnap := c } } else s

def execEngSnap (e : Nat) (s : State) : Res := occ (decide (e < 440)) s (s.engSnap e)

/-- ENG_CTRL CLEAR: every counter is set to 0 (Table 6.14). -/
def execEngClear (e : Nat) (s : State) : Res :=
  occ (decide (e < 440)) s (s.setEngine e { s.engine e with live := {} })

/-- STALL_SELECT captures the counters of an engine for 0x6A10 (R271). -/
def State.applyStallSelect (s : State) (v : Nat) : State :=
  let s := s.setObj Obj.STALL_SELECT v
  { s with str := { s.str with stallSnap := { (s.engine v).live with timeNs := s.timeNs } } }

/-- POISON_INJECT with ARM arms its engine; without ARM it does nothing. -/
def State.applyPoisonInject (s : State) (v : Nat) : State :=
  if bit v 15 then s.setEngine (bits v 0 9) { s.engine (bits v 0 9) with armed := true } else s

/-- The engine's next read or write: its global address and whether it is a read. Nothing is counted here. -/
def State.engNext (s : State) (e : Nat) : Option (Nat × Bool) :=
  let x := s.engine e
  let d := x.desc
  match x.wq with
  | w :: _ => some (w.ga, false)
  | [] =>
    if !x.descRunning || decide (min (dTotal d) (x.slotsTaken * dSlotBytes d) ≤ x.moved) then none
    else
      let p := if dZero d then dDst d else dSrc d
      if p.space = 1 then none else
      let t := (s.xlate x.ctx (p.addr x.moved) (!dZero d) (dZero d)).1
      if t.status = 0 then some (t.ga, !dZero d) else none

/-- A port toward a device has no credit for bulk requests, is replaying, or is reissuing after a drop. -/
def State.linkStalls (s : State) (ga : Nat) : Bool :=
  let dev := ga / 2 ^ 56
  dev != s.devId &&
  (match s.portFor dev (ga % 2 ^ 56 / 128) with
   | some n =>
     let x := s.phy n
     x.credits.getD 2 0 == 0 || x.replays != 0 ||
     s.net.outst.any fun o => o.reissues != 0 && (match o.pkt with | some p => p.dev == dev | none => false)
   | none => false)

/-- Whether a stall cause of Table 6.6 holds. A translation takes no time here, and the capping of clocks is not kept by domain
(timing, log 9), so causes 5 and 7 hold never. -/
def State.engCauseHolds (s : State) (e c : Nat) : Bool :=
  let x := s.engine e
  let waits (which : Nat) : Bool := match s.engWaitsOn e with | some m => m % 2 == which && s.sem m == 0 | none => false
  match c with
  | 0 => waits 0
  | 1 => waits 1
  | 2 => (s.engNext e).isSome && decide (4 ≤ s.inputHolds (engNode e) 4 2 false)
  | 3 => (match s.engNext e with | some n => n.2 | none => false) && !s.readRoom e
  | 4 => (match s.engNext e with | some n => s.linkStalls n.1 | none => false)
  | 6 => (x.descRunning && !s.gateOpen e) || s.held (engUnit e)
  | _ => false

/-- The cause of an engine's stall: of those that hold, the one with the lowest priority number (R270, Table 6.6). -/
def State.engCause (s : State) (e : Nat) : Option Nat :=
  if (s.engine e).st != .running then none else [7, 6, 5, 4, 3, 2, 1, 0].find? (s.engCauseHolds e)

/-- ENG_STATUS (Table 6.14). -/
def State.engStatus (s : State) (e : Nat) : Nat :=
  let x := s.engine e
  let c := s.engCause e
  (match x.st with | .idle => 0 | .running => 1 | .stopping => 2) + b2n x.detached * 4 + b2n c.isSome * 8 + c.getD 0 * 16 +
  x.lastStatus * 256 + x.descs % 2 ^ 32 * 2 ^ 32

/-! The jess table's registers (Table 6.4). -/

/-- A write of JESS_VALUE sets both semaphores of a pair at once (R217, R267). -/
def execJessValueWrite (pair value : Nat) (s : State) : Res :=
  occ (decide (pair < 2048) && bits value 32 32 == 0 && decide (value < 2 ^ 64)) s
    (s.setJess pair { fill := bits value 0 16, free := bits value 16 16 })

/-- A write of JESS_POST posts; a sum above 65,535 leaves the semaphore and counts (R267). -/
def execJessPostRegister (pair value : Nat) (s : State) : Res :=
  occ (decide (pair < 2048) && bits value 17 47 == 0 && decide (value < 2 ^ 64)) s
    (s.post (semOf pair (bits value 16 1)) (bits value 0 16)).2

/-! Pellet-log objects (R280). -/

/-- Pellets in the log not yet read. -/
def State.pelletsUnread (s : State) : Nat :=
  (s.str.pelletNext + 0xFFFFFFFF - s.obj Obj.PELLET_READ_SEQ) % 0xFFFFFFFF

/-- A write of PELLET_LOG_ENTRIES while unread pellets are in the log is refused. -/
def State.checkLogEntries (s : State) : Nat := if s.pelletsUnread = 0 then Sc.ok else Sc.accessDenied

/-- A write of PELLET_READ_SEQ beyond the next sequence number: further on than the log's unread pellets reach. -/
def State.checkReadSeq (s : State) (v : Nat) : Nat :=
  if v < 0xFFFFFFFF && (v + 0xFFFFFFFF - s.obj Obj.PELLET_READ_SEQ) % 0xFFFFFFFF ≤ s.pelletsUnread then Sc.ok
  else Sc.boundViolation

end Sys2Proof.Machine
end

