-- ==== Sys2Proof/Machine/NoC.lean ====
section
/-!
DEFINITION. The tile network's own commands: flits on their routes (R286, R297, R302, R308), route tables (R300, R301), the
jess table's packets (R292) and statistics snapshots (R321).
-/
namespace Sys2Proof.Machine

/-! Flits. -/

/-- The node one link away in a direction: 0 east, 1 west, 2 north, 3 south (Table 7.5); none beyond the mesh. -/
def linkFrom (n dir : Nat) : Option Nat :=
  match dir with
  | 0 => if n % 16 < 15 then some (n + 1) else none
  | 1 => if 0 < n % 16 then some (n - 1) else none
  | 2 => if 16 ≤ n then some (n - 16) else none
  | _ => if n < 176 then some (n + 16) else none

/-- The direction of XY routing toward a node (R297). -/
def xyDir (n dst : Nat) : Nat :=
  if n % 16 < dst % 16 then 0 else if dst % 16 < n % 16 then 1 else if dst < n then 2 else 3

/-- The packet stands at the NI it leaves into: its destination, or the end of its segments (R286, R302). -/
def Packet.ended (p : Packet) : Bool :=
  match p.segs with
  | none => p.at_ == p.dst
  | some l => l.all fun g => g.2 == 0

/-- One link in the direction of the first segment whose LEN is above 0, which is then one less (R302). -/
def segStep : List (Nat × Nat) → List (Nat × Nat)
  | [] => []
  | g :: r => if g.2 = 0 then g :: segStep r else (g.1, g.2 - 1) :: r

/-- One link on: the direction, and the segments left (R297, R302). -/
def Packet.hop (p : Packet) : Nat × Option (List (Nat × Nat)) :=
  match p.segs with
  | none => (xyDir p.at_ p.dst, none)
  | some l => (match l.find? (fun g => g.2 != 0) with | some g => g.1 | none => xyDir p.at_ p.dst, some (segStep l))

/-- The ROUTE field: the destination under RMODE 0, four segments of DIR and LEN under RMODE 1 (Table 7.1). -/
def Packet.routeField (p : Packet) : Nat :=
  match p.segs with
  | none => p.dst
  | some l => (l.zipIdx.map fun g => (g.1.1 * 16 + g.1.2) * 2 ^ (18 - 6 * g.2)).sum

/-- The 128 bits of a packet's header on the mesh (R288, Tables 7.1 and 7.2). -/
def Packet.header (p : Packet) : Nat :=
  let data := match p.kind with | .rdRsp | .amoRsp | .gatherRsp => true | _ => false
  let bad := p.kind == .wrPoison || (data && p.poison)
  p.kind.code * 2 ^ 124 + p.tc * 2 ^ 122 + b2n p.segs.isSome * 2 ^ 121 + b2n bad * 2 ^ 120 + p.routeField * 2 ^ 96 +
  p.src * 2 ^ 88 + p.tag * 2 ^ 76 + p.fields

/-- A flit: 128 bits of header and 1,024 bits of payload (R287). Beside it a link carries 49 check bits; which error their codes
show at a router is FLIT_ARRIVAL's operand, for the spec gives the codes' widths and not their matrices. -/
structure Flit where
  header : BitVec 128
  payload : List Byte
deriving DecidableEq, Repr

/-- The flit in which a packet crosses a link (R287). -/
def Packet.flit (p : Packet) : Flit := { header := BitVec.ofNat 128 p.header, payload := p.payload }

/-- Check bits beside a flit: a SECDED code of 9 bits over the header and one of 10 over each quarter of the payload (R287). -/
def flitCheckBits : Nat := 9 + 4 * 10

def State.setPacket (s : State) (p : Packet) : State :=
  { s with net := { s.net with packets := s.net.packets.map fun o => if o.id = p.id then p else o } }

/-- A beat that a double-bit payload error poisons: write data, an atomic's operand, lookups, or returned data. Other kinds
carry none. -/
def PKind.hasBeat : PKind → Bool
  | .wr | .wrPoison | .amoReq | .gatherReq | .rdRsp | .amoRsp | .gatherRsp => true
  | _ => false

/-- A flit whose header cannot be trusted is discarded (R308). -/
def State.discardFlit (s : State) (p : Packet) (node : Nat) : State :=
  ((s.dropPacket p.id).bump Obj.HEADER_DISCARDS).raise Es.nocHeader { oClass := 0x0D, oIndex := node }

/-! Routers (R295). -/

/-- The input of the next router by which a hop in a direction enters it. -/
def inputOf (dir : Nat) : Nat := match dir with | 0 => 1 | 1 => 0 | 2 => 3 | _ => 2

/-- A packet stands first in its buffer and the next input has a credit for it: a candidate for its output. -/
def State.ready (s : State) (o : Packet) : Bool :=
  !o.ended && s.headOfBuffer o &&
  (match linkFrom o.at_ o.hop.1 with
   | some n => decide (s.inputHolds n (inputOf o.hop.1) o.tc o.kind.response < 4)
   | none => false)

/-- The candidates of the output that a packet takes, on its plane. -/
def State.rivals (s : State) (k : Packet) : List Packet :=
  s.net.packets.filter fun o => o.at_ == k.at_ && o.kind.response == k.kind.response && s.ready o && o.hop.1 == k.hop.1

/-- The arbiter of the output that a packet takes. -/
def Packet.arbiter (k : Packet) : Nat := k.at_ * 8 + 4 * b2n k.kind.response + k.hop.1

/-- VC_WEIGHT of TC1 to TC3. -/
def State.weight (s : State) (tc : Nat) : Nat := s.obj (Obj.VC_WEIGHT_TC tc)

/-- A class of 1 to 3 has weight left in the round. -/
def State.weightLeft (s : State) (a : Arbiter) (tc : Nat) : Bool := decide (a.used.getD (tc - 1) 0 < s.weight tc)

/-- The output serves a packet now: TC0 before the rest, which share it by weight, and within a class the next input in turn. -/
def State.granted (s : State) (k : Packet) : Bool :=
  let a : Arbiter := SMap.get {} s.net.arbs k.arbiter
  let rs := s.rivals k
  let turn (o : Packet) : Nat := (o.via + 4 - a.last.getD k.tc 4) % 5
  s.ready k && (k.tc == 0 || !(rs.any fun o => o.tc == 0)) &&
  (k.tc == 0 || s.weightLeft a k.tc || !(rs.any fun o => o.tc != 0 && s.weightLeft a o.tc)) &&
  rs.all fun o => o.tc != k.tc || decide (turn k ≤ turn o)

/-- The output has served a packet: its flit counts in the round, which begins anew where every class that competes is spent. -/
def State.served (s : State) (k : Packet) : State :=
  let a : Arbiter := SMap.get {} s.net.arbs k.arbiter
  let used := if k.tc = 0 then a.used
    else
      let u := if s.weightLeft a k.tc then a.used else [0, 0, 0]
      u.set (k.tc - 1) (u.getD (k.tc - 1) 0 + 1)
  { s with net := { s.net with arbs := SMap.set {} s.net.arbs k.arbiter { used := used, last := a.last.set k.tc k.via } } }

/-- A packet goes to the end of the line of packets as it stands now. -/
def State.movePacket (s : State) (p : Packet) : State :=
  { s with net := { s.net with packets := s.net.packets.filter (fun o => o.id ≠ p.id) ++ [p] } }

/-- A double-bit payload error that a router finds in a beat: the router writes a pellet unless the beat is poisoned already, and
the beat goes on poisoned, a write as WR_POISON (R308). An AMO_REQ becomes a WR_POISON too, whose acknowledgement answers no
atomic; a GATHER_REQ has no LINE to become one of and is lost: both end under R306 (log 20). -/
def State.poisonFlit (s : State) (k : Packet) : State :=
  let s := s.bump Obj.FLITS_POISONED
  let r := if k.poison then (k.pseq, s) else
    s.pellet { source := Es.nocPoison, code := Pc.nocIntegrity, oClass := 0x0D, oIndex := k.at_ }
  match k.kind with
  | .gatherReq => r.2.dropPacket k.id
  | .wr | .amoReq => r.2.movePacket { k with poison := true, pseq := r.1, kind := .wrPoison }
  | _ => r.2.movePacket { k with poison := true, pseq := r.1 }

/-- FLIT_ARRIVAL (R295, R308): the next router on the packet's route takes the flit over once its output grants it, checks it and
holds it. -/
def execFlitArrival (p : Nat) (c : FlitCheck) (s : State) : Res :=
  match s.packet p with
  | none => .next s
  | some k =>
    if k.ended || s.safety.safe then .next s else
    let h := k.hop
    match linkFrom k.at_ h.1 with
    | none => .next (if s.headOfBuffer k then s.discardFlit k k.at_ else s)
    | some n =>
      if !s.granted k then .next s else
      let s := s.served k
      let k' : Packet := { k with at_ := n, via := inputOf h.1, segs := h.2 }
      -- a request that has come to its Phidun node is taken up by the port there
      let go (s : State) : State := if k'.ended && k'.dev != s.devId && !k'.kind.response then s.serveNode n else s
      match c with
      | .clean => .next (go (s.movePacket k'))
      | .corrected =>
        .next (go <| ((s.movePacket k').bump Obj.FLITS_CORRECTED).raise Es.nocCorrected { oClass := 0x0D, oIndex := n })
      | .headerDouble => .next (s.discardFlit k n)
      | .payloadDouble => .next (go (if k.kind.hasBeat then s.poisonFlit k' else s.movePacket k'))

/-! Route tables. -/

/-- NI register blocks answer from S2 and not in the safe state. -/
def State.niUp (s : State) (node : Nat) : Bool := decide (2 ≤ s.stage) && !s.safety.safe && decide (node < 192)

/-- A rejected register write (R144): its status and offset in NI_REG_STATUS. -/
def State.niReject (s : State) (node off st : Nat) : State :=
  s.setNi node { s.ni node with regStatus := st + off * 2 ^ 8 }

/-- The moves of an entry: the first `n`, from move 0 on. -/
def movesOf (n moves : Nat) : List Nat := (List.range n).map fun i => bits moves (2 * i) 2

/-- The west-first turn check: no west move after another, no move after its opposite. -/
def badTurns : List Nat → Bool
  | a :: b :: r =>
    (b == 1 && a != 1) || (a == 0 && b == 1) || (a == 1 && b == 0) || (a == 2 && b == 3) || (a == 3 && b == 2) || badTurns (b :: r)
  | _ => false

/-- The node a list of moves ends at, while it stays in the mesh. -/
def walk : List Nat → Nat → Option Nat
  | [], n => some n
  | d :: r, n => match linkFrom n d with | some m => walk r m | none => none

/-- The status of a write of ROUTE_CTRL (R300). -/
def routeCheck (node value moves : Nat) : Nat :=
  let hops := bits value 8 5
  let dest := bits value 0 8
  let ms := movesOf hops moves
  if !bit value 63 then Sc.ok
  else firstFail [
    (bits value 20 43 ≠ 0 || bits value 13 3 ≠ 0 || decide (24 < hops) || !(unitNodes.contains dest) ||
       moves / 2 ^ (2 * hops) ≠ 0 || badTurns ms, Sc.reservedNonzero),
    (walk ms node != some dest || decide (4 < (segments hops moves).length), Sc.boundViolation)]

/-- A write of ROUTE_CTRL[e] (R300, R301): the answer's status. -/
def State.routeCtrlWrite (s : State) (node e value : Nat) : Nat × State :=
  let x := s.ni node
  let st := routeCheck node value (SMap.get 0 x.moves e)
  if st ≠ 0 then
    (st, ((s.setNi node { x with routeRejects := satBump 32 x.routeRejects 1 }).bump Obj.ROUTE_REJECTS_TOTAL).niReject node (0x108 + e * 16) st)
  else
    let v := b2n (bit value 63) * 2 ^ 63 + bits value 16 4 * 2 ^ 16 + bits value 8 5 * 2 ^ 8 + bits value 0 8
    (Sc.ok, s.setNi node { x with ctrl := SMap.set 0 x.ctrl e v })

def execRouteCtrlWrite (node e value : Nat) (s : State) : Res :=
  occ (s.niUp node && decide (e < 64)) s (s.routeCtrlWrite node e value).2

/-- A write of ROUTE_MOVES[e] of an entry that is not in use. -/
def State.routeMovesWrite (s : State) (node e value : Nat) : Nat × State :=
  let x := s.ni node
  let st := firstFail [(bits value 48 16 ≠ 0, Sc.reservedNonzero), (bit (SMap.get 0 x.ctrl e) 63, Sc.accessDenied)]
  if st ≠ 0 then (st, s.niReject node (0x100 + e * 16) st)
  else (Sc.ok, s.setNi node { x with moves := SMap.set 0 x.moves e (bits value 0 48) })

def execRouteMovesWrite (node e value : Nat) (s : State) : Res :=
  occ (s.niUp node && decide (e < 64)) s (s.routeMovesWrite node e value).2

/-! Statistics. -/

/-- Copy the live counts at one edge, and clear them where asked (R321). -/
def State.takeStats (s : State) (clear : Bool) : State :=
  { s with net := { s.net with snap := s.net.stats, snapTimeNs := s.timeNs, copying := true,
                               stats := if clear then [] else s.net.stats } }

/-- A write of STATS_SNAPSHOT: a trigger starts a copy, is latched pending, or is discarded (R321). -/
def State.applyStatsSnapshot (s : State) (v : Nat) : State :=
  if v = 0 then s
  else if !s.net.copying then s.takeStats (v == 2)
  else if s.net.snapPending.isNone then { s with net := { s.net with snapPending := some (v == 2) } }
  else s.bump Obj.STATS_OVERRUNS

def execStatsSnapshotDone (s : State) : Res :=
  if !s.net.copying then .next s else
  match s.net.snapPending with
  | none => .next { s with net := { s.net with copying := false } }
  | some c => .next ({ s with net := { s.net with snapPending := none } }.takeStats c)

/-! The jess table's packets. -/

/-- A request of an LP port waits at its controller while a calibration runs (R336). -/
def State.calibrates (s : State) (p : Packet) : Bool :=
  !p.kind.response && regionOf p.addr == .lpddr &&
  (match s.lpMap (p.addr - lpBase) with | some (n, _) => decide (s.timeNs < SMap.get 0 s.mem.lpHold n) | none => false)

/-- A packet that has reached the NI it is for, in its turn: it names this device where its kind carries a DEVID. -/
def State.arrived (s : State) (i : Nat) (kind : PKind) : Option Packet :=
  match s.packet i with
  | some p =>
    if p.kind == kind && p.ended && !s.safety.safe && s.headOfBuffer p && s.firstOfFlow p && (p.kind == .jessWait || kind.response || p.dev == s.devId) &&
      !(s.calibrates p) then
      some p
    else none
  | none => none

/-- JESS_POST (R215, R292): COUNT is added to the semaphore; a sum above 65,535 leaves it. -/
def execJessPost (p : Nat) (s : State) : Res :=
  match s.arrived p .jessPost with
  | some k =>
    let r := s.post (semOf k.pair k.which) k.count
    let s := r.2.dropPacket p
    -- one that came over a link is answered (Table 18.6)
    .next (match k.agent with
      | .remote _ _ => s.respond k .wrAck (if r.1 then Sc.ok else Sc.overrun) [] 0 0
      | _ => s)
  | none => .next s

/-- The slot that a jess wait is for. -/
def Packet.waiter (p : Packet) : Waiter :=
  match p.agent with
  | .slot q k => .slot q k
  | .engine e => .engine e
  | .coll => .coll
  | _ => .remote p.id

def execJessWait (p : Nat) (s : State) : Res :=
  match s.arrived p .jessWait with
  | none => .next s
  | some k =>
    if k.cancel then .next s else
    let m := semOf k.pair k.which
    let s := s.dropPacket p
    if s.canTake m k.count k.waiter then .next ((s.take m k.count k.waiter).respond k .jessGrant Sc.ok [] 0 0)
    else .next (s.addWaiter
      { sem := m, count := k.count, who := k.waiter, sinceNs := s.timeNs, tmo := k.tmo, reply := some (k.src, k.tag), packet := p })

/-- A JESS_WAIT with CANCEL: the matching wait is withdrawn, its tag freed, and the cancel answered OK_EMPTY. -/
def execJessWaitCancel (p : Nat) (s : State) : Res :=
  match s.arrived p .jessWait with
  | none => .next s
  | some k =>
    if !k.cancel then .next s else
    let mine (w : SemWaiting) : Bool := w.sem == semOf k.pair k.which && w.who == k.waiter
    let tags := (s.str.waiters.filter mine).filterMap (·.reply)
    let s := tags.foldl (fun s r => s.freeOutst r.1 0 r.2) s
    let s := { s with str := { s.str with waiters := s.str.waiters.filter fun w => !mine w } }
    .next ((s.dropPacket p).respond k .jessGrant Sc.okEmpty [] 0 0)

/-- A queued jess wait, `p` the packet it came by, outlasts its TMO (R292). -/
def execJessWaitTimeout (p : Nat) (s : State) : Res :=
  match s.str.waiters.find? fun w => w.packet == p && w.reply.isSome && (tmoNs w.tmo).any (s.passed w.sinceNs) with
  | none => .next s
  | some w => occ (!s.safety.safe) s (s.answerWait w Sc.timeout)

end Sys2Proof.Machine
end

