-- ==== Sys2Proof/Machine/Apt.lean ====
section
/-!
DEFINITION. Memory and translation commands: patrol scrub (R348 to R350), LPDDR calibration (R336), aperture entries (R357,
R360), error injection (R367) and the inbound policy (R361).
-/
namespace Sys2Proof.Machine

/-! Scrub. -/

/-- The DRAM unit of a line and the line's place in it, where the scrubber reads it: HBM, and LP ports with inline ECC
(R348). -/
def State.dramLine (s : State) (line : Nat) : Option (Nat × Nat) :=
  let a := line * 128
  match s.holder a with
  | some u =>
    (match regionOf a with
     | .hbm => some (u, (s.hbmMap a).2 / 128)
     | .lpddr => if s.mem.inlineEcc then (s.lpMap (a - lpBase)).map fun m => (u, m.2 / 128) else none
     | _ => none)
  | none => none

/-- The backed parts of the local address map, in rising order, for ranges of whole pages: a page of an interleaved layout
touches every stack or port of it. -/
def State.backedSpans (s : State) : List (Nat × Nat) :=
  (if s.mem.hbmLinear then ((List.range 4).filter fun n => !bit s.mem.hbFail n).map fun n => (n * (24 * gib), 24 * gib)
   else if s.mem.hbFail = 0 then [(0, 96 * gib)] else []) ++
  (if s.mem.lpLinear then
     ((List.range 8).filter fun n => decide (0 < s.lpUsable n) && !bit s.mem.lpFail n).map fun n => (lpBase + n * (64 * gib), s.lpUsable n)
   else
     let ps := s.lpInstalled
     if ps.any fun n => bit s.mem.lpFail n then [] else [(lpBase, ps.length * s.lpUsable (ps.getD 0 0))]) ++
  [(midBase, 0x4000000), (mxtBase, 0x10000000), (vxtBase, 0x4000000), (catBase, 0x4000000), (secBase, 0x800000),
   (mmioBase, 0x100000000)] ++
  (List.range 16).map fun n => (fabricBase + n * (16 * gib), s.mem.fabricWin.getD n 0)

/-- Bytes of backed DRAM of a region. -/
def State.backedIn (s : State) (hbm : Bool) : Nat :=
  ((s.backedSpans.filter fun x => match regionOf x.1 with | .hbm => hbm | .lpddr => !hbm | _ => false).map (·.2)).sum

/-- What SCRUB_PERIOD_H derives: all backed lines in that many hours, a fraction rounded up (R366; DESIGN CHOICE, log 31). -/
def State.scrubDefault (s : State) : Nat :=
  if s.obj Obj.SCRUB_PERIOD_H = 0 then 0
  else min (cdiv ((s.backedIn true + s.backedIn false) / 128) (s.obj Obj.SCRUB_PERIOD_H * 3600)) 16777216

/-- SCRUB_LINES_PER_S in effect: as derived, until it is written itself (R104, R105). -/
def State.scrubRate (s : State) : Nat :=
  if s.oap.overridden.contains Obj.SCRUB_PERIOD_H then s.obj Obj.SCRUB_LINES_PER_S else s.scrubDefault

/-- DRAM units with backed lines to scrub, and their lines. -/
def State.scrubUnits (s : State) : List (Nat × Nat) :=
  (((List.range 4).filter fun n => !bit s.mem.hbFail n).map fun n => (unitOf 8 n, 24 * gib / 128)) ++
  (if s.mem.inlineEcc then
    ((List.range 8).filter fun n => decide (0 < s.lpUsable n) && !bit s.mem.lpFail n).map fun n => (unitOf 7 n, s.lpUsable n / 128)
   else [])

/-- Scrubbing of a unit runs: the unit awake and sound, VIN not in HOLD or OVER (R350). -/
def State.scrubs (s : State) (u : Nat) : Bool :=
  s.available u && (s.unitSt u == .ready || s.unitSt u == .busy || s.unitSt u == .quiescing) && !s.safety.safe && !s.sup.inMews &&
  s.sup.band != .hold && s.sup.band != .over

def State.scrubAt (s : State) (u : Nat) : Nat := SMap.get 0 s.mem.scrubPos u
def State.setScrubAt (s : State) (u p : Nat) : State := { s with mem := { s.mem with scrubPos := SMap.set 0 s.mem.scrubPos u p } }

/-- Errors that a read finds beyond what was injected: those that name a symbol or bit of the line. -/
def State.finds (s : State) (a : Nat) (found : List (Nat × Nat)) : State :=
  let es := match s.codeOf a with
    | .secded => (found.filter fun e => decide (e.1 < 1152)).map fun e => (e.1, 1)
    | _ => found.filter fun e => decide (e.1 < 151) && decide (e.2 < 256)
  if es.isEmpty then s else s.setEcc a (mergeErrs (s.eccErr a ++ es))

/-- A line that reading corrects. -/
def State.corrects (s : State) (a : Nat) : Bool :=
  let d := s.decodeLine a 0
  d.1 != 0 && d.2.1 == 0

/-- SCRUB_LINE: the unit's next line is read, corrected or poisoned; `found` is what errors it shows beyond what was injected,
`onDie` a report from HBM3 on-die ECC (R344, R345, R348, R350). -/
def execScrubLine (line : Nat) (found : List (Nat × Nat)) (onDie : Bool) (s : State) : Res :=
  match s.dramLine line with
  | none => .next s
  | some (u, n) =>
    if !s.scrubs u || s.scrubRate == 0 || n ≠ s.scrubAt u then .next s else
    let a := line * 128
    let s := if s.mark a ≠ 0 then s else
      let s := s.finds a found
      let s := if onDie && unitClass u == 8 then
          (s.bump Obj.HBM_ONDIE).raise Es.hbmOndie { oClass := 8, oIndex := unitIndex u, cls := 8, sub := unitIndex u + 1 }
        else s
      let s := if s.corrects a then s.bump Obj.SCRUB_CORRECTED else s
      s.checkLine u a
    let s := s.setScrubAt u (n + 1)
    if s.scrubUnits.all fun x => decide (x.2 ≤ s.scrubAt x.1) then
      .next ((s.scrubUnits.foldl (fun s x => s.setScrubAt x.1 0) s).bump Obj.SCRUB_PASSES)
    else .next s

/-- SRAM_SCRUB_WORD: the next 8-byte word of an on-die store is read (R349, R350). -/
def execSramScrubWord (addr : Nat) (found : List (Nat × Nat)) (s : State) : Res :=
  let sram : Bool := match regionOf addr with | .mid | .mxt | .vxt | .cat | .sec => true | _ => false
  match s.holder addr with
  | none => .next s
  | some u =>
    let n := (addr - storeBase u) / 8
    if !sram || addr % 8 ≠ 0 || !s.scrubs u || n ≠ s.scrubAt u then .next s else
    let s := if s.mark addr ≠ 0 then s else (s.finds addr found).checkLine u addr
    .next (s.setScrubAt u (if (n + 1) * 8 = storeBytes u then 0 else n + 1))

/-- LP_RECAL (R336): accesses of the port wait at its controller for at most 2 µs, for how long is open, and are not refused. -/
def execLpRecal (port : Nat) (s : State) : Res :=
  occ (s.available (unitOf 7 port) && decide (port < 8) && decide (3 ≤ s.stage) && decide (0 < s.lpUsable port) && !s.safety.safe) s <|
    { s.draw.2 with mem := { s.draw.2.mem with lpHold := SMap.set 0 s.draw.2.mem.lpHold port (s.timeNs + s.draw.1.toNat % 2001) } }

/-! Aperture entries. -/

/-- Every byte of a range of pages is backed (R21). -/
def State.rangeBacked (s : State) (a n : Nat) : Bool :=
  decide (a + n ≤ s.backedSpans.foldl (fun p x => if x.1 ≤ p && p < x.1 + x.2 then x.1 + x.2 else p) a)

/-- The status of a write of word 0 with VALID 1 against word 1 (R357). -/
def State.aptCheck (s : State) (w0 w1 : Nat) : Nat :=
  let e : Apt := { w0 := w0, w1 := w1 }
  let a := e.pa % 2 ^ 56
  let here := bit w1 3 || e.pa / 2 ^ 56 == s.devId
  firstFail [
    (bits w0 4 12 ≠ 0 || bit w0 1 || bits w0 2 2 == 3, Sc.reservedNonzero),
    (here && !(s.rangeBacked a e.size), Sc.boundViolation),
    (e.va % e.size ≠ 0 || e.pa % e.size ≠ 0 || (here && regionOf a != regionOf (a + e.size - 1)), Sc.alignment)]

def State.setApt (s : State) (c i : Nat) (e : Apt) : State :=
  { s with mem := { s.mem with apt := SMap.set {} s.mem.apt (c * 4096 + i) e } }

/-- A rejected entry write is recorded in APT_STATUS (R357, Table 8.5). -/
def State.aptReject (s : State) (c i word st : Nat) : State :=
  (s.setAptCtl c { s.aptCtl c with status := st + i * 2 ^ 8 + word * 2 ^ 20 }).bump Obj.APT_WRITE_REJECTS

/-- The aperture tables answer from S2 and not in the safe state. -/
def State.aptUp (s : State) (c i : Nat) : Bool := decide (2 ≤ s.stage) && !s.safety.safe && decide (c < 64) && decide (i < 4096)

/-- A write of word 0 validates or invalidates the entry; translations use it from then on (R357, R358). -/
def State.aptWord0 (s : State) (c i value : Nat) : Nat × State :=
  let e := s.aptEntry c i
  let v := value / 2 ^ 16 * 2 ^ 16 + bits value 2 2 * 4 + b2n (bit value 0)
  let st := if bit value 0 then s.aptCheck value e.w1 else Sc.ok
  if st ≠ 0 then (st, s.aptReject c i 0 st) else (Sc.ok, s.setApt c i { e with w0 := v })

/-- A write of word 1 of an entry that is not in use (R357). -/
def State.aptWord1 (s : State) (c i value : Nat) : Nat × State :=
  let e := s.aptEntry c i
  let st := firstFail [(bits value 4 12 ≠ 0, Sc.reservedNonzero), (e.valid, Sc.accessDenied)]
  if st ≠ 0 then (st, s.aptReject c i 1 st) else (Sc.ok, s.setApt c i { e with w1 := value })

def execAptWord0Write (ctx entry value : Nat) (s : State) : Res :=
  occ (s.aptUp ctx entry) s (s.aptWord0 ctx entry (value % 2 ^ 64)).2

def execAptWord1Write (ctx entry value : Nat) (s : State) : Res :=
  occ (s.aptUp ctx entry) s (s.aptWord1 ctx entry (value % 2 ^ 64)).2

/-- Entries with VALID 1 (Table 8.5). -/
def State.aptValidCount (s : State) (c : Nat) : Nat :=
  (s.mem.apt.filter fun e => e.1 / 4096 == c && e.2.valid).length

/-- A PF Function Level Reset, or a reset of the aperture tables, leaves the boot entries in CTX0 and nothing else (R360). -/
def State.bootApt (s : State) : State := { s with mem := { s.mem with apt := bootEntries, aptCtl := [] } }

/-! Injection and the inbound policy. -/

/-- ECC_INJECT's own checks (R366, R367). -/
def State.checkEccInject (s : State) (v : Nat) : Nat :=
  let a := bits v 7 49 * 128
  let lp := match regionOf a with | .lpddr => !s.mem.inlineEcc | .fabric => true | _ => false
  firstFail [(bits v 56 6 ≠ 0 || bits v 0 7 ≠ 0 || bits v 62 2 == 3, Sc.reservedNonzero),
             ((s.holder a).isNone || lp, Sc.accessDenied)]

/-- ECC_INJECT alters the stored line at once (Table 8.7): one symbol or bit, or what its code cannot correct: seven symbols,
two bits of a word. Which ones the spec leaves open; their data come back corrected or undefined (DESIGN CHOICE, log 52). -/
def State.applyEccInject (s : State) (v : Nat) : State :=
  let a := bits v 7 49 * 128
  if bits v 62 2 = 0 then s
  else if bits v 62 2 = 1 then s.setEcc a [(0, 1)]
  else s.setEcc a ((List.range (if s.codeOf a == .line then 7 else 2)).map fun i => (i, 1))

/-- WIN_RANGE's own checks (R366, R367). -/
def checkWinRange (v : Nat) : Nat :=
  let n := bits v 0 6
  firstFail [(bits v 56 8 ≠ 0 || bits v 6 10 ≠ 0, Sc.reservedNonzero),
             (decide (n < 16) || decide (40 < n) || (v / 2 ^ 16 * 2 ^ 16) % 2 ^ n ≠ 0, Sc.boundViolation)]

/-- The windows of Tables 8.6 and 8.7 that hold an address and a sender, lowest first: their access words. -/
def State.winMatches (s : State) (dev a : Nat) : List Nat :=
  (List.range 16).filterMap fun n =>
    let r := s.obj (Obj.WIN_RANGE n)
    let w := s.obj (Obj.WIN_ACCESS n)
    let base := bits r 16 40 * 2 ^ 16
    if bit w 31 && base ≤ a && a < base + 2 ^ bits r 0 6 && bits w 0 8 ≤ dev && dev ≤ bits w 8 8 then some w else none

/-- INBOUND_POLICY admits an access of another device (R361): whether, and the counts it leaves. -/
def State.inbound (s : State) (dev a : Nat) (r w : Bool) : Bool × State :=
  let refuse (s : State) : Bool × State := (false, s.bump Obj.INBOUND_REFUSED)
  if regionOf a == .mmio then refuse s else
  match s.obj Obj.INBOUND_POLICY with
  | 0 => (true, s)
  | 1 =>
    (match s.winMatches dev a with
     | [] => refuse s
     | x :: rest =>
       let s := if rest.isEmpty then s else s.bump Obj.INBOUND_MULTIHIT
       if (r && !bit x 30) || (w && !bit x 29) then refuse s else (true, s))
  | _ => refuse s

end Sys2Proof.Machine
end

