-- ==== Sys2Proof/Machine/Fetch.lean ====
section
/-!
DEFINITION. How a unit's own operation reads and writes memory, by packets of its agent: what comes back is kept for the job that
asked, until the job has all it needs (R20, R22, R255, R293, R304, R356, R370).
-/
namespace Sys2Proof.Machine

/-- Forget what was read for a job of an agent; what is still on its way is nobody's. -/
def State.clearBuf (s : State) (ag : Agent) (job : Nat) : State :=
  let mine (o : Outst) : Bool := match o.use with | .buf a j _ _ => a == ag && j == job | _ => false
  { s with net := { s.net with
    buf := s.net.buf.filter fun b => !(b.ag == ag && b.job == job)
    outst := s.net.outst.map fun o => if mine o then { o with use := .plain } else o } }

/-- Which unit an agent's own records name, as pellets and errors give it (Table 6.9). -/
def agentOrigin : Agent → Nat × Nat
  | .slot q _ => (0x0F, q)
  | .op q => (0x0F, q)
  | .engine e => (0x0C, e)
  | .host _ => (0x0E, 0)
  | .fabric p _ => (9, p)
  | .gather g => (5, g)
  | .coll => (11, 0)
  | .sensor p => (4, p)
  | .sec c => (3, c)
  | .remote _ _ => (6, 0)
  | .jess => (0x0E, 0)

/-- Stream and gather engines go on past an unbacked address; the other agents' accesses end there (R22). -/
def Agent.poisons : Agent → Bool
  | .engine _ => true
  | .gather _ => true
  | _ => false

/-- An access of a gather engine reaches an unbacked address: the beat is poisoned with a pellet, and the engine goes on (R22). -/
def State.unbackedBeat (s : State) (ag : Agent) (ga : Nat) : Nat × State :=
  let o := agentOrigin ag
  let r := (s.unbackedAt ga).pellet
    { source := Es.accessPoison, code := Pc.unbacked, status := Sc.accessDenied, addr := some (ga / 128 * 128), oClass := o.1,
      oIndex := o.2 }
  (r.1 + 1, r.2)

/-- What a job of an agent has read at an address. -/
def State.bufAt (s : State) (ag : Agent) (job ga n : Nat) : Option BufLine :=
  s.net.buf.find? fun b => b.ag == ag && b.job == job && b.ga == ga && b.n == n

/-- Ask for a piece of a job that is neither here nor on its way, where a tag is free. -/
def State.askPiece (s : State) (ag : Agent) (job tc ga n : Nat) : State :=
  if s.net.outst.any fun o => o.use == .buf ag job ga n then s else
  match s.destOf ga with
  | .node d => (s.send (readPacket ag tc d ga n) (.buf ag job ga n)).getD s
  | _ => s

/-- Read translated pieces for a job: what is not here is asked for, and there is no answer yet; the caller asks again. -/
def State.fetchPieces (s : State) (ag : Agent) (job tc : Nat) (ps : List (Nat × Nat × Nat)) : Option Ans × State :=
  let ps := cutLines ps
  let away (p : Nat × Nat × Nat) : Bool := (s.destNode (p.1 / 2 ^ 56) (p.1 % 2 ^ 56)).isSome
  let missing := ps.filter fun p => away p && (s.bufAt ag job p.1 p.2.2).isNone
  if ps.any fun p => s.isMmio p.1 then (some { status := Sc.accessDenied }, s)
  else if !missing.isEmpty then (none, missing.foldl (fun s p => s.askPiece ag job tc p.1 p.2.2) s)
  else
    let r := ps.foldl (fun (r : Ans × State) p =>
      let add (x : Ans × State) : Ans × State :=
        ({ status := if r.1.status ≠ 0 then r.1.status else x.1.status, bytes := r.1.bytes ++ padTo p.2.2 x.1.bytes,
           mark := firstMark r.1.mark x.1.mark }, x.2)
      let s := r.2
      match s.bufAt ag job p.1 p.2.2 with
      | some b => add ({ status := b.status, bytes := b.bytes, mark := b.mark }, s)
      | none =>
        if s.isUnbacked p.1 then
          (if ag.poisons then
            let m := s.unbackedBeat ag p.1
            let d := m.2.drawBytes p.2.2
            add ({ bytes := d.1, mark := m.1 }, d.2)
           else add ({ status := Sc.accessDenied }, s.unbackedAt p.1))
        else
          let o := agentOrigin ag
          add (s.linkAbsentData p.1 p.2.2 o.1 o.2)) (({} : Ans), s)
    (some r.1, r.2)

/-- Read a range of context addresses for a job. What the translation counts is counted once, with the answer. -/
def State.readCa (s : State) (ag : Agent) (job tc ctx ca n : Nat) : Option Ans × State :=
  if n = 0 then (some {}, s) else
  let x := s.xlateRange ctx (ca % 2 ^ 64) n true false
  if x.1 ≠ 0 then (some { status := x.1 }, x.2.2.2) else
  match s.fetchPieces ag job tc x.2.1 with
  | (none, t) => (none, t)
  | (some _, _) => x.2.2.2.fetchPieces ag job tc x.2.1

/-- Write translated pieces by packets that `use` follows. `none` where the packets would find no tag, or one waits (R304,
R373). The answer is the first status that is not OK. -/
def State.putPieces (s : State) (ag : Agent) (tc : Nat) (replay : Bool) (ps : List (Nat × Nat × Nat)) (bs : List Byte)
    (m : Nat) (use : Use) : Option (Nat × State) :=
  let ps := cutLines ps
  if ps.any fun p => s.isMmio p.1 then some (Sc.accessDenied, s)
  else if s.tagsLeft ag tc < ps.length || ps.any fun p => s.lineHeld ag tc p.1 then none else
  some (ps.foldl (fun (r : Nat × State) p =>
    let s := r.2
    let first (st : Nat) : Nat := if r.1 ≠ 0 then r.1 else st
    match s.destOf p.1 with
    | .unbacked => if ag.poisons then (r.1, (s.unbackedBeat ag p.1).2) else (first Sc.accessDenied, s.unbackedAt p.1)
    | .absent => (first Sc.linkAbsent, s)
    | .node d => (r.1, (s.send (writePacket ag tc d p.1 ((bs.drop p.2.1).take p.2.2) m replay) use).getD s)) (0, s))

/-- Writes of an agent that are not acknowledged yet. -/
def State.writing (s : State) (use : Use) : Bool := s.net.outst.any fun o => o.use == use

end Sys2Proof.Machine
end

