-- ==== Sys2Proof/Machine/Host.lean ====
section
/-!
DEFINITION. The host link and command rings (chapter 4): configuration space, binding registers, BAR2, ring registers, entry
fetch, dispatch, ring and function resets, moderation, and the answers of host memory.
-/
namespace Sys2Proof.Machine

/-- The endpoint answers: the link is up, from S2 on, and not in the safe state. -/
def State.hostUp (s : State) : Bool := s.host.linkUp && decide (2 ≤ s.stage) && !s.safety.safe

/-- A function that exists: the PF, or a VF while VF Enable is set. -/
def State.fnExists (s : State) (fn : Nat) : Bool := fn == 0 || (s.host.vfEnable && decide (fn ≤ s.host.numVfs))

/-- A function answers memory requests: it exists and is in D0. -/
def State.fnAnswers (s : State) (fn : Nat) : Bool := s.fnExists fn && SMap.get 0 s.host.power fn == 0

/-! The order of a function's accesses (R391). -/

/-- A write of the function through BAR2 is not visible yet. -/
def State.hostWriting (s : State) (fn : Nat) : Bool :=
  s.net.outst.any fun o => o.agent == .host fn && !o.timedOut && (o.kind == .wr || o.kind == .wrPoison)

/-- An access of the function that must follow its earlier writes has to wait. -/
def State.hostWaits (s : State) (fn : Nat) : Bool := s.host.held.any (·.1 == fn) || s.hostWriting fn

/-- Keep an access until its turn. -/
def State.holdHost (s : State) (fn : Nat) (op : HostOp) : State :=
  { s with host := { s.host with held := s.host.held ++ [(fn, op)] } }

/-- A register access of a function: in its turn, or kept until every earlier write of the function is visible. -/
def State.inOrder (s : State) (fn : Nat) (op : HostOp) (go : Res) : Res :=
  if s.hostUp && s.fnAnswers fn && s.hostWaits fn then .next (s.holdHost fn op) else go

/-- Offset of a ring page's register in BAR0 (Table 4.3). -/
def ringOff (n off : Nat) : Nat := 0x100000 + 0x1000 * n + off

/-- A function sees a ring page (R150). -/
def State.seesRing (s : State) (fn n : Nat) : Bool := s.fnAnswers fn && decide (n < 256) && (fn == 0 || s.ringFn n == some fn)

/-- A rejected write of a ring register, and of any other register (R144). -/
def State.ringReject (s : State) (n off st : Nat) : State :=
  (s.setRing n { s.ring n with regStatus := st + off % 4096 * 256 }).bump Obj.REG_REJECTS

def State.fnReject (s : State) (fn off st : Nat) : State :=
  ({ s with host := { s.host with fnStatus := SMap.set 0 s.host.fnStatus fn (st + off % 4096 * 256) } }).bump Obj.REG_REJECTS

/-- A ring register's write: discarded where the function does not see the page (R143), rejected with the status of the first
failing check, else applied. -/
def State.ringWrite (s : State) (fn n off : Nat) (checks : List (Bool × Nat)) (go : State → State) : Res :=
  if !s.hostUp || !s.seesRing fn n then .next s
  else let st := firstFail checks
    if st ≠ 0 then .next (s.ringReject n off st) else .next (go s)

/-- A binding or function register's write. -/
def State.fnWrite (s : State) (fn off : Nat) (may : Bool) (checks : List (Bool × Nat)) (go : State → State) : Res :=
  if !s.hostUp || !s.fnAnswers fn || !may then .next s
  else let st := firstFail checks
    if st ≠ 0 then .next (s.fnReject fn off st) else .next (go s)

/-! Configuration space (R140 to R142). -/

/-- Every vector of a function whose message is due and may now be sent, in ascending order (R180). -/
def State.sendPending (s : State) (fn : Nat) : State :=
  (s.host.vectors.filter fun v => v.1 / 2048 == fn && v.2.pba && !v.2.masked).foldl (fun s v =>
    if SMap.get false s.host.fnMask fn || !(SMap.get false s.host.msixOn fn) || !s.host.linkUp || SMap.get 0 s.host.power fn != 0 then s
    else (s.setVec fn (v.1 % 2048) { v.2 with pba := false }).emit (.msix fn (v.1 % 2048) v.2.addr v.2.data)) s

/-- Stop a chain that a reset ring's program started: after the current beat, with OK (R260). -/
def State.stopRingChains (s : State) (n : Nat) : State :=
  (s.str.engines.filter fun e => e.2.ring == n && e.2.st == .running).foldl (fun s e => s.stopChain e.1 Sc.ok) s

/-- The program slots that hold a ring's programs. -/
def State.ringSlots (s : State) (n : Nat) : List (Nat × Nat) :=
  s.seqs.flatMap fun e => [(e.1, 0, e.2.s0), (e.1, 1, e.2.s1)].filterMap fun x =>
    if x.2.2.role != .empty && x.2.2.castOrigin.isNone && x.2.2.ring == n then some (x.1, x.2.1) else none

/-- A stopped program withdraws the jess wait it stands at, by a CANCEL to the table (R292). -/
def State.stopWait (s : State) (q k : Nat) : State :=
  match (s.slot q k).semWait with
  | none => s
  | some m => (s.setSlot q k { s.slot q k with semWait := none }).cancelWait (.slot q k) m

/-- RESET_SQ (R167): undispatched entries are discarded, and the ring's programs stop at their next boundary. -/
def State.resetSq (s : State) (n : Nat) (andCq : Bool) : State :=
  let r := s.ring n
  let s := s.setRing n { r with st := .resetting, fetched := [], resetCqAfter := r.resetCqAfter || andCq }
  let s := { s with host := { s.host with reads := s.host.reads.filter fun x => match x.2 with | .entry m _ => m != n | _ => true } }
  let s := (s.ringSlots n).foldl (fun s x =>
    let s := (s.stopWait x.1 x.2).loseRsv x.1 x.2
    s.setSlot x.1 x.2 { s.slot x.1 x.2 with stopping := true }) s
  s.stopRingChains n

/-- A submission ring that is not DISABLED names a CQ (R153, R168). -/
def State.cqNamed (s : State) (cq : Nat) : Bool := s.host.rings.any fun e => e.2.st != .disabled && e.2.cqId == cq

/-- RESET_CQ's effect (R168). -/
def State.resetCqNow (s : State) (n : Nat) : State :=
  let s := s.setRing n { s.ring n with cqHead := 0, cqTail := 0, phase := true, pend := 0, pendSince := 0 }
  { s with host := { s.host with cplBuf := s.host.cplBuf.filter (·.cq != n) } }

/-- Free the slot of a stopped program; the sequencer's other program goes on as the leader (R167, R232). -/
def State.freeSlot (s : State) (q k : Nat) : State :=
  let t := s.slot q k
  let s := s.vacateAll q k false
  (targetUnits t.target).foldl (fun s u => s.unitIdle u) (s.unitIdle (seqUnit q))

/-- The completion rings of a Function Level Reset that no ring names any more are reset; one that still is waits for the
ring that names it (R168, R171). -/
def State.settleFlr (s : State) : State :=
  s.host.rings.foldl (fun s e =>
    let r := s.ring e.1
    if r.flr && r.resetCqAfter && r.st == .disabled && !s.cqNamed e.1 then
      (s.setRing e.1 { r with flr := false, resetCqAfter := false }).resetCqNow e.1
    else s) s

/-- The last step of a ring reset: slots free, pointers and status cleared, DISABLED (R167). -/
def State.finishReset (s : State) (n : Nat) : State :=
  let s := (s.ringSlots n).foldl (fun s x => s.freeSlot x.1 x.2) s
  let r := s.ring n
  let s := s.setRing n { r with
    sqHead := 0, sqTail := 0, regStatus := 0, faultInfo := 0, sqCfg := setBits r.sqCfg 63 1 0, st := .disabled, fetched := []
    inFlight := 0, resetCqAfter := r.resetCqAfter && r.flr, perst := false, lastTarget := 0 }
  if r.flr then s.settleFlr
  else if !r.resetCqAfter then s
  else if s.cqNamed n then s.ringReject n 0x1C Sc.accessDenied else s.resetCqNow n

/-- RING_RESET_DONE: the programs stand at boundaries and their store buffers have drained (R167, R380); after PCIE_PERST_N
they have finished, or stand halted (R54). -/
def execRingResetDone (n : Nat) (s : State) : Res :=
  let r := s.ring n
  let stopped (x : Nat × Nat) : Bool :=
    (!r.perst || (s.slot x.1 x.2).role == .halted || (s.slot x.1 x.2).stopping) && (s.buffered x.1 x.2).isEmpty
  occ ((r.st == .resetting || r.perst) && (s.ringSlots n).all stopped) s (s.finishReset n)

/-- The reset of a function: its rings, its contexts' aperture entries, its MSI-X table and BAR2_CTX (R171). -/
def State.resetFunction (s : State) (fn : Nat) : State :=
  let s := (List.range 256).foldl (fun s n =>
    if s.ringFn n == some fn then
      let s := s.resetSq n true
      s.setRing n { s.ring n with flr := true }
    else s) s
  let mine (c : Nat) : Bool := let w := SMap.get 0 s.host.ctxBind c; bit w 63 && bits w 0 6 == fn
  let cut (a : Apt) : Apt := { a with w0 := setBits a.w0 0 1 0 }
  let keep (e : Nat × Apt) : Option (Nat × Apt) :=
    if mine (e.1 / 4096) then (if cut e.2 = {} then none else some (e.1, cut e.2)) else some e
  let s := if fn = 0 then s.bootApt else { s with mem := { s.mem with apt := s.mem.apt.filterMap keep } }
  { s with host := { s.host with
      vectors := s.host.vectors.filter fun v => v.1 / 2048 != fn
      msixOn := SMap.set false s.host.msixOn fn false, fnMask := SMap.set false s.host.fnMask fn false
      bar2Ctx := SMap.set 0 s.host.bar2Ctx fn 0
      held := s.host.held.filter (·.1 != fn)
      power := SMap.set 0 s.host.power fn 0, aspm := SMap.set 0 s.host.aspm fn 0, mps := SMap.set 0 s.host.mps fn 0
      mrrs := SMap.set 2 s.host.mrrs fn 2, aer := SMap.set 0 s.host.aer fn 0, ecrc := SMap.set 0 s.host.ecrc fn 0 } }

/-- Clearing VF Enable resets every VF (R171). -/
def State.clearVfs (s : State) : State :=
  let s := if s.host.vfEnable then (List.range s.host.numVfs).foldl (fun s i => s.resetFunction (i + 1)) s else s
  { s with host := { s.host with vfEnable := false } }

/-- A Function Level Reset (R171). One of the PF clears the aperture tables to their boot entries and VF Enable. -/
def execFunctionLevelReset (fn : Nat) (s : State) : Res :=
  if !s.hostUp || !s.fnExists fn then .next s
  else if fn = 0 then
    .next (s.clearVfs.resetFunction 0)
  else .next (s.resetFunction fn)

/-- Whether a feature is supported (Table 4.1). -/
def pcieSupported : PcieFeature → Bool
  | .laneReversal | .polarityInversion | .flitMode | .aspmL1 | .d0 | .d3hot | .noSoftReset | .tags14 | .aer | .ecrcGeneration
  | .ecrcCheck | .poisonedTlp | .functionLevelReset | .sriov | .ari | .msix => true
  | .l0s | .l0p | .l1PmSubstates | .msi | .intx | .ats | .pri | .pasid | .tph | .ide | .doe | .resizableBar => false

/-- The value of a configuration field (Tables 4.1 and 4.2); a field beyond the tables is free. BAR types are coded as the PCI
Express Base Specification codes them: bit 2 for 64 bits, bit 3 for prefetchable; payload and request sizes as powers of two
of 128 bytes (PRESUMED, log 44). -/
def State.cfgValue (s : State) (fn : Nat) (f : CfgField) : Nat × State :=
  let pf := fn == 0
  let v := s.variant == .v
  match f with
  | .vendorId => (0x1F3C, s)
  | .deviceId => ((if v then (if pf then 0x5064 else 0x5066) else if pf then 0x5065 else 0x5067), s)
  | .revisionId => (0xB0, s)
  | .classCode => (0x120000, s)
  | .subsystemVendorId => (s.obj Obj.SUBSYSTEM_VENDOR_ID, s)
  | .subsystemId => (s.obj Obj.SUBSYSTEM_ID, s)
  | .totalVfs => (if pf then s.host.totalVfs else 0, s)
  | .numVfs => (if pf then s.host.numVfs else 0, s)
  | .vfEnable => (if pf then b2n s.host.vfEnable else 0, s)
  | .msixTableSize => (s.vectorCount fn, s)
  | .msixEnable => (b2n (SMap.get false s.host.msixOn fn), s)
  | .functionMask => (b2n (SMap.get false s.host.fnMask fn), s)
  | .bar0Size => (0x200000, s)
  | .bar2Size => (if pf then 64 * gib else 2 ^ s.host.vfBar2Log2, s)
  | .bar4Size | .bar5Size | .romSize => (0, s)
  | .bar0Type => (0b0100, s)
  | .bar2Type => (0b1100, s)
  | .feature f => (b2n (pcieSupported f), s)
  | .powerState => (SMap.get 0 s.host.power fn, s)
  | .aspmControl => (SMap.get 0 s.host.aspm fn, s)
  | .maxPayloadSupported => (2, s)
  | .maxPayloadSize => (SMap.get 0 s.host.mps fn, s)
  | .maxReadRequestSize => (SMap.get 2 s.host.mrrs fn, s)
  | .aerUncorrectable => (SMap.get 0 s.host.aer fn, s)
  | .ecrcControl => (SMap.get 0 s.host.ecrc fn, s)
  | .linkSpeed => (s.host.rate, s)
  | .linkWidth => (s.host.width, s)
  | .other _ => let d := s.draw; (d.1.toNat % 2 ^ 32, d.2)

/-- A write of a field that the host may set. -/
def State.cfgSet (s : State) (fn : Nat) (f : CfgField) (v : Nat) : State :=
  match f with
  | .numVfs => if fn = 0 && !s.host.vfEnable && v ≤ s.host.totalVfs then { s with host := { s.host with numVfs := v } } else s
  | .vfEnable =>
    if fn ≠ 0 then s else if v % 2 = 1 then { s with host := { s.host with vfEnable := true } } else s.clearVfs
  | .msixEnable => ({ s with host := { s.host with msixOn := SMap.set false s.host.msixOn fn (v % 2 == 1) } }).sendPending fn
  | .functionMask => ({ s with host := { s.host with fnMask := SMap.set false s.host.fnMask fn (v % 2 == 1) } }).sendPending fn
  | .powerState =>
    -- back in D0 the function has kept its state (No_Soft_Reset), and what has waited is sent
    if v % 4 = 0 then (({ s with host := { s.host with power := SMap.set 0 s.host.power fn 0 } } : State).sendPending fn).drainCpls
    else if v % 4 = 3 then { s with host := { s.host with power := SMap.set 0 s.host.power fn 3 } }
    else s
  | .aspmControl => { s with host := { s.host with aspm := SMap.set 0 s.host.aspm fn (v % 4 / 2 * 2) } }
  | .maxPayloadSize => if v ≤ 2 then { s with host := { s.host with mps := SMap.set 0 s.host.mps fn v } } else s
  | .maxReadRequestSize => if v ≤ 5 then { s with host := { s.host with mrrs := SMap.set 2 s.host.mrrs fn v } } else s
  -- its status bits are cleared by writing 1
  | .aerUncorrectable =>
    { s with host := { s.host with aer := SMap.set 0 s.host.aer fn (Nat.land (SMap.get 0 s.host.aer fn) (2 ^ 32 - 1 - v % 2 ^ 32)) } }
  | .ecrcControl => { s with host := { s.host with ecrc := SMap.set 0 s.host.ecrc fn (v % 4) } }
  | _ => s

/-- PCIE_CONFIG_REQUEST: Request Retry Status before S2 (R55), the header's values after. -/
def execPcieConfigRequest (fn : Nat) (f : CfgField) (write : Option Nat) (s : State) : Res :=
  if s.safety.safe then .next s
  else if s.stage < 2 then .next (s.emit (.cfgAnswer true 0))
  else if !s.host.linkUp || !s.fnExists fn then .next s
  else match write with
    | some v => .next ((s.cfgSet fn f v).emit (.cfgAnswer false 0))
    | none => let r := s.cfgValue fn f; .next (r.2.emit (.cfgAnswer false r.1))

/-- PCIE_LINK_DOWN (R172): nothing is dispatched, and completions and interrupts wait. -/
def execPcieLinkDown (s : State) : Res :=
  occ s.host.linkUp s { s with host := { s.host with linkUp := false, rate := 0, width := 0 } }

/-- The link is up: what has waited is delivered (R172). -/
def State.linkReturns (s : State) (rate width : Nat) : State :=
  let s := if s.host.fresh then s else s.bump Obj.PCIE_RETRAINS
  let s := { s with host := { s.host with linkUp := true, rate := rate, width := width, fresh := false } }
  (List.range 64).foldl (fun s fn => s.sendPending fn) s.drainCpls

/-- PCIE_REDUCED: the link of S4 and after is below x16, or below the highest rate that both partners support (R65, Table 2.16). -/
def State.pcieReduced (s : State) (common : Nat) : State :=
  if s.host.width < 16 || s.host.rate < min common (s.obj Obj.PCIE_MAX_RATE) then
    s.setObj Obj.STAGE_FAULTS (setBits (s.obj Obj.STAGE_FAULTS) 12 1 1)
  else s.setObj Obj.STAGE_FAULTS (setBits (s.obj Obj.STAGE_FAULTS) 12 1 0)

/-! Binding and routing (R145, R146). -/

def execCtxBindWrite (fn c value : Nat) (s : State) : Res :=
  let named := (s.host.rings.any fun e => e.2.st != .disabled && e.2.ctxOf == c) ||
    (s.host.bar2Ctx.any fun e => bit e.2 31 && bits e.2 0 6 == c)
  s.inOrder fn (.bar0Write (0x1000 + 8 * c) 8 value) <| s.fnWrite fn (0x1000 + 8 * c) (fn == 0 && decide (c < 64))
    [(bits value 6 57 ≠ 0 || decide (2 ^ 64 ≤ value), Sc.reservedNonzero), (named || decide (s.host.numVfs < bits value 0 6), Sc.accessDenied)]
    fun s => { s with host := { s.host with ctxBind := SMap.set 0 s.host.ctxBind c value } }

def execRingBindWrite (fn n value : Nat) (s : State) : Res :=
  let r := s.ring n
  s.inOrder fn (.bar0Write (0x2000 + 8 * n) 8 value) <| s.fnWrite fn (0x2000 + 8 * n) (fn == 0 && decide (n < 256))
    [(bits value 6 57 ≠ 0 || decide (2 ^ 64 ≤ value), Sc.reservedNonzero),
     (r.st != .disabled || bit r.cqCfg 63 || decide (s.host.numVfs < bits value 0 6), Sc.accessDenied)]
    fun s => { s with host := { s.host with ringBind := SMap.set 0 s.host.ringBind n value } }

def execIrqRouteWrite (fn e value : Nat) (s : State) : Res :=
  s.inOrder fn (.bar0Write (0x4000 + 16 * e) 8 value) <| s.fnWrite fn (0x4000 + 16 * e) (fn == 0 && decide (e < 64))
    [(bits value 59 4 ≠ 0 || bits value 38 10 ≠ 0 || bits value 25 7 ≠ 0 || bits value 9 7 ≠ 0 || decide (2 ^ 64 ≤ value), Sc.reservedNonzero),
     (decide (s.host.numVfs < bits value 32 6), Sc.accessDenied)]
    fun s => { s with host := { s.host with irqRoute := SMap.set 0 s.host.irqRoute e value } }

/-- A context is bound to a function. -/
def State.ctxOwned (s : State) (c fn : Nat) : Bool := let w := SMap.get 0 s.host.ctxBind c; bit w 63 && bits w 0 6 == fn

def execBar2CtxWrite (fn value : Nat) (s : State) : Res :=
  s.inOrder fn (.bar0Write 8 4 value) <| s.fnWrite fn 8 true
    [(bits value 6 25 ≠ 0 || decide (2 ^ 32 ≤ value), Sc.reservedNonzero),
     (bit value 31 && !(s.ctxOwned (bits value 0 6) fn), Sc.accessDenied)]
    fun s => { s with host := { s.host with bar2Ctx := SMap.set 0 s.host.bar2Ctx fn value } }

/-! BAR2 (R147 to R149). -/

/-- The pieces of a BAR2 access, none where it must be aborted. -/
def State.bar2Pieces (s : State) (fn addr len : Nat) (w : Bool) : Option (List (Nat × Nat × Nat)) × State :=
  let c := SMap.get 0 s.host.bar2Ctx fn
  let size := if fn = 0 then 64 * gib else 2 ^ s.host.vfBar2Log2
  if !bit c 31 || len = 0 || size < addr + len then (none, s)
  else
    let x := s.xlateRange (bits c 0 6) addr len (!w) w
    let ps := cutLines x.2.1
    if x.1 ≠ 0 then (none, x.2.2.2)
    else match ps.find? fun p => s.isUnbacked p.1 with
      | some p => (none, x.2.2.2.unbackedAt p.1)
      | none => (some ps, x.2.2.2)

/-- The packet of one piece of a BAR2 access. -/
def State.bar2Packet (s : State) (fn : Nat) (kind : PKind) (p : Nat × Nat × Nat) (data : List Byte) : Option Packet :=
  (s.destNode (p.1 / 2 ^ 56) (p.1 % 2 ^ 56)).map fun d =>
    { id := 0, kind := kind, tc := 1, src := 0, dst := d, at_ := 0, dev := p.1 / 2 ^ 56, addr := p.1 % 2 ^ 56, len := p.2.2
      data := (data.drop p.2.1).take p.2.2, agent := .host fn, sentNs := s.timeNs }

/-- BAR2_WRITE: at most Max_Payload_Size bytes (R140). It waits behind accesses that wait, for tags (R304), and where it reaches
MMIO for the earlier writes of its function (R391). -/
def execBar2Write (fn addr : Nat) (data : List Byte) (s : State) : Res :=
  if !s.hostUp || !s.fnAnswers fn || decide (512 < data.length) then .next s
  else if s.host.held.any (·.1 == fn) then .next (s.holdHost fn (.bar2Write addr data)) else
  match s.bar2Pieces fn addr data.length true with
  | (none, s) => .next (s.bump Obj.BAR2_ABORTS)
  | (some ps, t) =>
    if t.tagsLeft (.host fn) 1 < ps.length || (ps.any fun p => t.lineHeld (.host fn) 1 p.1) || (s.hostWriting fn && ps.any fun p => s.isMmio p.1) then
      .next (s.holdHost fn (.bar2Write addr data))
    else .next (ps.foldl (fun t p =>
      match t.bar2Packet fn .wr p data with
      | some k => (t.send k (.bar2 0 0)).getD t
      | none => t) t)

/-- A piece of a BAR2 read is here; the last one completes it: with data, with EP where any of it is poisoned, or with
Completer Abort (R148, R149). -/
def State.bar2Piece (s : State) (id off status : Nat) (bs : List Byte) (mark : Nat) : State :=
  match s.host.bar2.find? (·.id == id) with
  | none => s
  | some r =>
    let r := { r with left := r.left - 1, buf := splice r.buf off bs, mark := if mark ≠ 0 then mark else r.mark
                      bad := r.bad || status == Sc.accessDenied }
    let others := s.host.bar2.filter (·.id != id)
    if r.left ≠ 0 then { s with host := { s.host with bar2 := r :: others } }
    else
      let s := { s with host := { s.host with bar2 := others } }
      if r.bad then (s.bump Obj.BAR2_ABORTS).emit (.bar2Abort r.fn r.addr)
      else
        let s := if r.mark ≠ 0 then s.setObj Obj.BAR2_POISONED_PELLET (r.mark - 1) else s
        s.emit (.bar2Data r.fn r.addr r.buf (r.mark ≠ 0))

/-- BAR2_READ: it is performed once every earlier write of its function is visible (R391) and there are tags for it (R304). -/
def execBar2Read (fn addr len : Nat) (s : State) : Res :=
  if !s.hostUp || !s.fnAnswers fn || decide (4096 < len) then .next s
  else if s.hostWaits fn then .next (s.holdHost fn (.bar2Read addr len)) else
  match s.bar2Pieces fn addr len false with
  | (none, s) => .next ((s.bump Obj.BAR2_ABORTS).emit (.bar2Abort fn addr))
  | (some ps, t) =>
    if t.tagsLeft (.host fn) 1 < ps.length || (ps.any fun p => t.lineHeld (.host fn) 1 p.1) then
      .next (s.holdHost fn (.bar2Read addr len))
    else
      let id := t.host.nextBar2
      let r : Bar2Read := { id := id, fn := fn, addr := addr, left := ps.length, buf := zeros len }
      let t := { t with host := { t.host with nextBar2 := id + 1, bar2 := r :: t.host.bar2 } }
      .next (ps.foldl (fun t p =>
        match t.bar2Packet fn .rdReq p [] with
        | some k => (t.send k (.bar2 id p.2.1)).getD t
        | none =>
          -- no port toward the device: poisoned data (R20)
          let x := t.linkAbsentData p.1 p.2.2 0x0E 0
          x.2.bar2Piece id p.2.1 x.1.status x.1.bytes x.1.mark) t)

/-! Ring registers (R151 to R154, R167 to R170, R178). -/

/-- The reserved values of SQ_CFG and CQ_CFG. -/
def sqCfgBad (v : Nat) : Bool := bits v 38 25 ≠ 0 || bits v 11 5 ≠ 0 || bits v 5 3 ≠ 0 || bits v 0 5 < 4 || 16 < bits v 0 5 || 2 ^ 64 ≤ v
def cqCfgBad (v : Nat) : Bool := bits v 48 15 ≠ 0 || bits v 19 5 ≠ 0 || bits v 5 3 ≠ 0 || bits v 0 5 < 4 || 16 < bits v 0 5 || 2 ^ 64 ≤ v

/-- Whether a ring may be enabled with a configuration (R151). -/
def State.mayEnable (s : State) (n v : Nat) : Bool :=
  match s.ringFn n with
  | none => false
  | some fn =>
    let cq := bits v 24 8
    s.ctxOwned (bits v 32 6) fn && bit (s.ring cq).cqCfg 63 && s.ringFn cq == some fn

/-- SQ_CFG (R151, R152). Entries read ahead stay over ENABLE 0 (DESIGN CHOICE, log 49). -/
def execSqCfgWrite (fn n value : Nat) (s : State) : Res :=
  let r := s.ring n
  let fixed := bits value 32 6 ≠ bits r.sqCfg 32 6 || bits value 24 8 ≠ bits r.sqCfg 24 8 || bits value 0 5 ≠ bits r.sqCfg 0 5
  let on := bit value 63
  s.inOrder fn (.bar0Write (ringOff n 8) 8 value) <| s.ringWrite fn n 8
    [(sqCfgBad value, Sc.reservedNonzero),
     ((r.st != .disabled && fixed) || (on && !bit r.sqCfg 63 && !(s.mayEnable n value)), Sc.accessDenied)]
    fun s => s.setRing n { r with
      sqCfg := value
      st := match r.st with
        | .disabled => if on then .running else .disabled
        | .running | .paused => if on then r.st else .disabled
        | t => t }

/-- CQ_CFG (R153). Of a ring bound to no function, VECTOR is held to the PF's table (DESIGN CHOICE, log 49). -/
def execCqCfgWrite (fn n value : Nat) (s : State) : Res :=
  let r := s.ring n
  s.inOrder fn (.bar0Write (ringOff n 0x28) 8 value) <| s.ringWrite fn n 0x28
    [(cqCfgBad value, Sc.reservedNonzero),
     (decide (s.vectorCount ((s.ringFn n).getD 0) ≤ bits value 8 11), Sc.boundViolation),
     ((bit r.cqCfg 63 && bits value 0 5 ≠ bits r.cqCfg 0 5) || (bit r.cqCfg 63 && !bit value 63 && s.cqNamed n), Sc.accessDenied)]
    fun s => s.setRing n { r with cqCfg := value }

def execSqDoorbell (fn n value : Nat) (s : State) : Res :=
  let r := s.ring n
  s.inOrder fn (.bar0Write (ringOff n 0x10) 4 value) <| s.ringWrite fn n 0x10
    [(decide (65536 ≤ value), Sc.reservedNonzero), (decide (r.sqSize ≤ value), Sc.boundViolation),
     (r.st == .resetting, Sc.stateConflict)]
    fun s => s.setRing n { r with sqTail := value }

def execResetSq (fn n : Nat) (andCq : Bool) (s : State) : Res :=
  s.inOrder fn (.bar0Write (ringOff n 0x1C) 4 (1 + 2 * b2n andCq)) <| s.ringWrite fn n 0x1C [] fun s => s.resetSq n andCq

def execResetCq (fn n : Nat) (s : State) : Res :=
  s.inOrder fn (.bar0Write (ringOff n 0x1C) 4 2) <|
    s.ringWrite fn n 0x1C [(s.cqNamed n, Sc.accessDenied)] fun s => s.resetCqNow n

def execPause (fn n : Nat) (s : State) : Res :=
  s.inOrder fn (.bar0Write (ringOff n 0x1C) 4 4) <| s.ringWrite fn n 0x1C [] fun s =>
    if (s.ring n).st == .running then s.setRing n { s.ring n with st := .paused } else s

def execResume (fn n : Nat) (s : State) : Res :=
  s.inOrder fn (.bar0Write (ringOff n 0x1C) 4 8) <| s.ringWrite fn n 0x1C [] fun s =>
    if (s.ring n).st == .paused then s.setRing n { s.ring n with st := .running } else s

def execCqHeadWrite (fn n value : Nat) (s : State) : Res :=
  let r := s.ring n
  let z := r.cqSize
  s.inOrder fn (.bar0Write (ringOff n 0x30) 4 value) <| s.ringWrite fn n 0x30
    [(decide (65536 ≤ value), Sc.reservedNonzero),
     (decide (z ≤ value) || decide ((r.cqTail + z - r.cqHead) % z < (value + z - r.cqHead) % z), Sc.boundViolation)]
    fun s => (s.setRing n { r with cqHead := value }).drainCpls

/-! Entries and dispatch. -/

/-- The dispatcher works: link up, not in HOLD or OVER, no PCIe reset on its way, not in the safe state (R42, R54, R172). -/
def State.dispatches (s : State) : Bool :=
  s.hostUp && !s.sup.pciePerst && s.sup.band != .hold && s.sup.band != .over && s.live

/-- Slots of a ring whose entry is being read. -/
def State.fetching (s : State) (n : Nat) : Nat :=
  (s.host.reads.filter fun (x : Nat × HostReadUse) => match x.2 with | .entry m _ => m == n | .beat .. => false).length

/-- ENTRY_FETCH (R155, R163): the next submitted slot of a RUNNING ring is read from host memory. -/
def execEntryFetch (ring : Nat) (s : State) : Res :=
  let r := s.ring ring
  let ahead := r.fetched.length + s.fetching ring
  let z := r.sqSize
  occ (s.dispatches && decide (ring < 256) && r.st == .running && decide (ahead < (r.sqTail + z - r.sqHead) % z) &&
       decide (ahead < s.obj Obj.DISPATCH_PREFETCH) && s.mayRead ((s.ringFn ring).getD 0)) s <|
    let slot := (r.sqHead + ahead) % z
    let tag := s.host.nextTag
    let s := { s with host := { s.host with nextTag := tag + 1, reads := s.host.reads ++ [(tag, HostReadUse.entry ring slot)] } }
    s.emit (.hostRead ((s.ringFn ring).getD 0) tag (r.sqBase + 64 * slot) 64)

/-- A completion of an entry that no sequencer ran. -/
def State.entryDone (s : State) (n slot tag status flags : Nat) : State :=
  if bit flags 1 && status ≤ 1 then s
  else s.postCpl (s.ring n).cqId (cplBytes tag slot n status [] 0 0 none 0) (bit flags 0 || decide (0x10 ≤ status))

/-- A failed entry fetch (R166). -/
def State.entryFetchFailed (s : State) (n slot : Nat) : State :=
  (s.entryDone n slot 0 Sc.accessDenied 0).faultRing n 3 0 slot Sc.accessDenied

/-- Where the aperture tables of a context next change beyond an address: the end of the entry that maps it or the start of
another. -/
def State.aptNext (s : State) (c a : Nat) (e : Apt) : Nat :=
  s.mem.apt.foldl (fun m x => if x.1 / 4096 == c && x.2.valid && a < x.2.va && x.2.va < m then x.2.va else m) (e.va + e.size)

/-- Check 5 of R158 over a program's range: not mapped, mapped without read, or neither. -/
def State.programMapped (s : State) (c : Nat) : Nat → Nat → Nat → Bool → Nat × Nat
  | 0, _, _, denied => (if denied then Sc.accessDenied else Sc.ok, 0)
  | f + 1, a, n, denied =>
    if n = 0 then (if denied then Sc.accessDenied else Sc.ok, 0) else
    match s.aptMatches c a with
    | [] => (Sc.apertureMiss, a)
    | e :: _ =>
      let k := min n (s.aptNext c a e - a)
      s.programMapped c f (a + k) (n - k) (denied || !bit e.w1 0)

/-- Checks 1 and 2 of R158. -/
def entryCheck (bs : List Byte) : Nat :=
  let ty := fieldLE bs 0 1
  let nop := ty == 2
  firstFail [
    (ty ≠ 1 && ty ≠ 2, Sc.illegalOp),
    (bits (fieldLE bs 1 1) 4 4 ≠ 0 || fieldLE bs 56 8 ≠ 0 || (nop && (fieldLE bs 2 2 ≠ 0 || fieldLE bs 4 4 ≠ 0 || fieldLE bs 8 8 ≠ 0 ||
       fieldLE bs 24 32 ≠ 0)) || (!nop && !(targetLegal (entryTarget bs))), Sc.reservedNonzero)]

/-- What becomes of an entry at the head of its ring (R158 to R160). -/
inductive Verdict where
  | hold
  | fail (status at_ : Nat)
  | disabled
  | done (status : Nat)
  | run
deriving DecidableEq, Repr

/-- The unit that does the work of a target's unit: a tile's understudy where it carries the tile's work (R460). -/
def State.workUnit (s : State) (target u : Nat) : Nat :=
  if bits target 12 4 = 1 then (match s.handOf u with | .redirected v => v | _ => u) else u

/-- A unit is absent in the variant, FAULTED, QUIESCING or stopped by management (R126, R158, R451, Table 1.9). -/
def State.unitRefuses (s : State) (u : Nat) : Bool :=
  !(s.present u) || s.unitSt u == .faulted || s.unitSt u == .quiescing || (s.ucb u).mgmtStop || (decide (u < 64) && s.tileRole u == 1)

/-- A unit can take a program: available, powered and open, and neither hooded, stopping nor in a test (R62, R159). -/
def State.unitTakes (s : State) (u : Nat) : Bool :=
  s.available u && (s.dom u).phase == .open_ && (s.unitSt u == .ready || s.unitSt u == .busy) && !(s.sup.inMews)

/-- A sequencer has a free slot under the two-programs-in-flight rule: SLOTS slots, and no follower beside a halted program
(R160, R232, R235). -/
def State.freeSlotOf (s : State) (q : Nat) : Option Nat :=
  let x := s.seq q
  let n := b2n (x.s0.role != .empty) + b2n (x.s1.role != .empty)
  if s.obj Obj.SLOTS ≤ n then none else if x.s0.role == .empty then some 0 else some 1

/-- The sequencers whose slots a target occupies: its own first, then those of a cast's other members (R189). -/
def State.targetSeqs (s : State) (target : Nat) : List Nat :=
  (targetUnits target).map fun u => (unitSeq (s.workUnit target u)).getD 0

def State.verdict (s : State) (n : Nat) (bs : List Byte) : Verdict :=
  let flags := fieldLE bs 1 1
  let blocked := bit flags 3 && (s.ring n).inFlight != 0
  let st := entryCheck bs
  if st ≠ 0 then .fail st 0
  else if fieldLE bs 0 1 = 2 then (if blocked then .hold else .done Sc.ok)
  else
    let tg := entryTarget bs
    let us := targetUnits tg
    let words := fieldLE bs 4 4
    let addr := fieldLE bs 8 8
    if us.any fun u => s.unitRefuses u then .disabled
    else if !(us.all fun u => s.unitTakes (s.workUnit tg u)) then .hold
    else if words = 0 then (if blocked then .hold else .done Sc.okEmpty)
    else if addr % 8 ≠ 0 then .fail Sc.alignment 0
    else
      let m := s.programMapped (s.ring n).ctxOf (2 * s.mem.apt.length + 2) addr (8 * words) false
      if m.1 ≠ 0 then .fail m.1 m.2
      else if blocked || (s.targetSeqs tg).any fun q => (s.freeSlotOf q).isNone then .hold
      else .run

/-- The head entry of a ring, where it has been read. -/
def Ring.head (r : Ring) : Option Fetched := r.fetched.find? fun f => f.slot == r.sqHead

/-- Work that names a sleeping unit wakes it: in MEWS always, in OFF as its domain's policy says (Table 1.9). -/
def State.wakeForWork (s : State) (u : Nat) : State :=
  if s.available u && !s.unitRefuses u && (s.dom u).phase == .open_ &&
     (s.unitSt u == .mews || (s.unitSt u == .off && s.wakePolicy u)) then s.powerUp u
  else s

/-- Wake the sleeping units that the head entries of the RUNNING rings name. -/
def State.wakeHeads (s : State) : State :=
  s.host.rings.foldl (fun s e =>
    let r := s.ring e.1
    match r.head with
    | some f =>
      if r.st == .running && r.sqHead != r.sqTail && entryCheck f.bytes = 0 && fieldLE f.bytes 0 1 = 1 then
        (targetUnits (entryTarget f.bytes)).foldl (fun s u => s.wakeForWork u) s
      else s
    | none => s) s

/-- A ring is ready (R161). -/
def State.ringReady (s : State) (n : Nat) : Bool :=
  let r := s.ring n
  r.st == .running && r.sqHead != r.sqTail && !(s.ring r.cqId).cqFull &&
  (match r.head with | some f => s.verdict n f.bytes != .hold | none => false)

def Ring.prio (r : Ring) : Nat := bits r.sqCfg 8 3
def Ring.weight (r : Ring) : Nat := bits r.sqCfg 16 8

/-- The ring a decision serves, and the dispatches it has then used of its WEIGHT (R161, R162). -/
def State.chooseRing (s : State) : Option (Nat × Nat × Nat) :=
  let ready := (s.host.rings.map (·.1)).filter fun n => s.ringReady n
  match ready with
  | [] => none
  | _ =>
    let p := ready.foldl (fun m n => max m (s.ring n).prio) 0
    let cand := ready.filter fun n => (s.ring n).prio == p
    let pos := cand.filter fun n => (s.ring n).weight != 0
    let last := SMap.get 256 s.host.lastServed p
    let used := SMap.get 0 s.host.used p
    let after (l : List Nat) : Nat := (l.find? fun n => last < 256 && last < n).getD (l.headD 0)
    if pos.isEmpty then some (p, after cand, 0)
    else if pos.contains last && used < (s.ring last).weight then some (p, last, used + 1)
    else some (p, after pos, 1)

/-- SQ_HEAD passes an entry: it counts as dispatched. -/
def State.passHead (s : State) (n : Nat) : State :=
  let r := s.ring n
  (s.setRing n { r with
    sqHead := (r.sqHead + 1) % r.sqSize, fetched := r.fetched.filter fun f => f.slot != r.sqHead
    dispatched := satBump 64 r.dispatched 1 }).bump64 Obj.DISPATCHES

/-- Give a program to its sequencer (R188 to R191, R232, R240, R399). -/
def State.startProgram (s : State) (n sqIdx : Nat) (bs : List Byte) : State :=
  let tg := entryTarget bs
  let qs := s.targetSeqs tg
  let origin := qs.headD 0
  let home := (s.freeSlotOf origin).getD 0
  let args := (List.range 8).map fun i => BitVec.ofNat 64 (fieldLE bs (24 + 4 * i) 4)
  let exec_ := if bits tg 12 4 = 1 then 0x1000 + (s.workUnit tg (bits tg 0 6)) else tg
  let ring := s.ring n
  let role (s : State) (q k : Nat) : Role :=
    match (s.slot q (1 - k)).role with | .leader | .follower => .follower | _ => .leader
  let s := qs.foldl (fun s q =>
    match s.freeSlotOf q with
    | none => s
    | some k =>
      if q = origin then s.setSlot q k {
          role := role s q k, ring := n, sqIndex := sqIdx, ctx := ring.ctxOf, userTag := fieldLE bs 16 8, flags := fieldLE bs 1 1
          target := exec_, execTarget := exec_, words := fieldLE bs 4 4, addr := fieldLE bs 8 8
          x := args ++ List.replicate 8 0, depth := s.obj Obj.ISSUE_DEPTH, sbDepth := s.obj Obj.SB_DEPTH
          sbForward := s.flag Obj.SB_FORWARD, sbSync := s.flag Obj.SB_SYNC, hangMs := s.obj Obj.HANG_WATCH_MS, waitNs := s.timeNs }
      else s.setSlot q k { role := role s q k, castOrigin := some origin, castSlot := home, ring := n, target := tg }) s
  let s := s.setRing n { s.ring n with inFlight := (s.ring n).inFlight + 1, lastTarget := tg }
  (targetUnits tg).foldl (fun s u => s.unitBusy (s.workUnit tg u)) s

/-- DISPATCH_DECISION (R158 to R164): sleeping units that work waits for are woken, and the next ready ring's head entry is
dispatched, completed, or faults its ring. -/
def execDispatchDecision (s : State) : Res :=
  if !s.dispatches then .next s else
  let s := s.wakeHeads
  match s.chooseRing with
  | none => .next s
  | some (p, n, used) =>
    let s := { s with host := { s.host with lastServed := SMap.set 256 s.host.lastServed p n, used := SMap.set 0 s.host.used p used } }
    match (s.ring n).head with
    | none => .next s
    | some f =>
      let tag := fieldLE f.bytes 16 8
      let flags := fieldLE f.bytes 1 1
      match s.verdict n f.bytes with
      | .hold => .next s
      | .fail st a =>
        -- a range that is not mapped counts as the translation that failed
        let s := if st = Sc.apertureMiss || st = Sc.accessDenied then (s.xlate (s.ring n).ctxOf (if st = Sc.apertureMiss then a else
          fieldLE f.bytes 8 8) true false).2 else s
        .next ((s.entryDone n f.slot tag st flags).faultRing n 1 0 f.slot st)
      | .disabled => .next ((s.passHead n).entryDone n f.slot tag Sc.unitDisabled flags)
      | .done st => .next ((s.passHead n).entryDone n f.slot tag st flags)
      | .run => .next ((s.passHead n).startProgram n f.slot f.bytes)

/-! Moderation and vectors (R179, R180). -/

def execModerationTimeout (cq : Nat) (s : State) : Res :=
  let r := s.ring cq
  occ (decide (0 < r.pend) && bits r.cqCfg 32 16 != 0 && s.passed (r.pendSince - 1) (bits r.cqCfg 32 16 * 1000)) s <|
    (s.setRing cq { r with pend := 0, pendSince := 0 }).raiseVector ((s.ringFn cq).getD 0) (bits r.cqCfg 8 11)

def execMsixUnmask (fn vector : Nat) (s : State) : Res :=
  s.inOrder fn (.bar0Write (0x2000C + 16 * vector) 4 0) <|
    occ (s.hostUp && s.fnAnswers fn && decide (vector < s.vectorCount fn)) s <|
    (s.setVec fn vector { s.vec fn vector with masked := false }).sendPending fn

/-! Host memory's answers (R166, R249). -/

/-- An engine's read has its answer: the beat is delivered, or discarded where the chain no longer runs. -/
def State.engRead (s : State) (e slot : Nat) (dst : List (Nat × Nat × Nat)) (st : Nat) (bs : List Byte) (mark ga : Nat) : State :=
  let x := s.engine e
  let s := s.setEngine e { x with outstanding := x.outstanding - 1 }
  let s := if x.st == .running then s.beatArrives e slot dst st bs mark ga else if x.st == .stopping then s.countRd e else s
  s.engSettle e

/-- The pellet of a beat that host memory did not give. -/
def State.hostErrorBeat (s : State) (e slot : Nat) (dst : List (Nat × Nat × Nat)) : State :=
  let r := s.pellet { source := Es.hostError, code := Pc.hostError, oClass := 0x0E, oIndex := 0 }
  let n := (dst.map fun p => p.2.2).sum
  let d := r.2.drawBytes n
  d.2.engRead e slot dst 0 d.1 (r.1 + 1) 0

/-- An uncorrectable error that AER logs: bit 12 a poisoned completion, bit 14 a completion timeout (PRESUMED, log 44). -/
def State.aerUncorrectable (s : State) (fn b : Nat) : State :=
  ({ s with host := { s.host with aer := SMap.set 0 s.host.aer fn (setBits (SMap.get 0 s.host.aer fn) b 1 1) } }).bump Obj.AER_UNCORRECTABLE

/-- The errors that an answer shows are logged: those the link corrected, or its poison. What the answer brings then. -/
def State.logAnswer (s : State) (fn : Nat) (a : HostAnswer) : HostAnswer × State :=
  match a with
  | .corrected n bs => (.data bs, s.bump Obj.AER_CORRECTABLE n)
  | .poisoned => (a, s.aerUncorrectable fn 12)
  | _ => (a, s)

/-- HOST_READ_COMPLETION: data, or an unsuccessful or poisoned completion. -/
def execHostReadCompletion (tag : Nat) (a : HostAnswer) (s : State) : Res :=
  match s.host.reads.find? (·.1 == tag) with
  | none => .next s
  | some r =>
    if !s.hostUp then .next s else
    let s := { s with host := { s.host with reads := s.host.reads.filter (·.1 != tag) } }
    let x := s.logAnswer (s.readFn r.2) a
    let s := x.2
    match r.2, x.1 with
    | .entry n slot, .data bs => .next (s.setRing n { s.ring n with fetched := (s.ring n).fetched ++ [{ slot := slot, bytes := padTo 64 bs }] })
    | .entry n slot, _ => .next (s.entryFetchFailed n slot)
    | .beat e slot dst, .data bs => .next (s.engRead e slot dst 0 (padTo (dst.map fun p => p.2.2).sum bs) 0 0)
    | .beat e slot dst, _ => .next (s.hostErrorBeat e slot dst)

/-- PCIE_COMPLETION_TIMEOUT (R166, R185): no completion within PCIE_CPL_TIMEOUT_US. -/
def execPcieCompletionTimeout (tag : Nat) (s : State) : Res :=
  match s.host.reads.find? (·.1 == tag) with
  | none => .next s
  | some r =>
    if s.safety.safe then .next s else
    let s := ({ s with host := { s.host with reads := s.host.reads.filter (·.1 != tag) } }).aerUncorrectable (s.readFn r.2) 14
    match r.2 with
    | .entry n slot => .next (s.entryFetchFailed n slot)
    | .beat e slot dst => .next (s.hostErrorBeat e slot dst)

end Sys2Proof.Machine
end

