-- ==== Sys2Proof/Machine/Tables.lean ====
section
/-!
DEFINITION. Embedding tables (chapter 13): descriptors, hot-row tags, gather operations, served requests and pooling.
-/
namespace Sys2Proof.Machine

/-! Descriptors (Table 13.1). -/

def State.descWord (s : State) (t w : Nat) : Nat := SMap.get 0 s.tab.desc (t * 8 + w)

/-- A table descriptor, field by field. -/
structure Desc where
  flags : Nat
  format : Nat
  rowBytes : Nat
  ctx : Nat
  shard : Nat
  devFirst : Nat
  devCount : Nat
  base : Nat
  total : Nat
  local_ : Nat
  shardRows : Nat
  scale : Nat
  offset : Nat
  quant : Nat
  outFmt : Nat
  srcLo : Nat
  srcHi : Nat
deriving DecidableEq, Repr

/-- The descriptor whose words a function gives. -/
def descOf (w : Nat → Nat) : Desc :=
  { flags := bits (w 0) 0 8, format := bits (w 0) 8 8, rowBytes := bits (w 0) 16 16, ctx := bits (w 0) 32 8,
    shard := bits (w 0) 40 8, devFirst := bits (w 0) 48 8, devCount := bits (w 0) 56 8, base := w 1, total := bits (w 2) 0 40,
    local_ := bits (w 3) 0 40, shardRows := bits (w 4) 0 40, scale := bits (w 5) 0 32, offset := bits (w 5) 32 32,
    quant := bits (w 6) 0 8, outFmt := bits (w 6) 8 8, srcLo := bits (w 6) 16 8, srcHi := bits (w 6) 24 8 }

def State.desc (s : State) (t : Nat) : Desc := descOf (s.descWord t)

def Desc.valid (d : Desc) : Bool := bit d.flags 0
def Desc.serves (d : Desc) : Bool := bit d.flags 1
def Desc.hot (d : Desc) : Bool := bit d.flags 2
def Desc.idxBytes (d : Desc) : Nat := if bit d.flags 3 then 8 else 4
def Desc.ctxNo (d : Desc) : Nat := bits d.ctx 0 6

/-- Data bytes and data elements of a row (Table 13.1). -/
def Desc.dataBytes (d : Desc) : Nat := if d.quant = 1 then d.rowBytes - 8 else d.rowBytes
def Desc.elements (d : Desc) : Nat :=
  match d.format with | 0 => d.dataBytes | 1 => d.dataBytes * 2 | _ => d.dataBytes / 2

/-- The status of a write of word 0 with VALID 1 (R506). -/
def descCheckWords (dev : Nat) (w : Nat → Nat) : Nat :=
  let d := descOf w
  firstFail [
    (bits d.flags 4 4 ≠ 0 || bits d.ctx 6 2 ≠ 0 || bits (w 2) 40 24 ≠ 0 || bits (w 3) 40 24 ≠ 0 || bits (w 4) 40 24 ≠ 0 ||
       bits (w 6) 32 32 ≠ 0 || w 7 ≠ 0 || decide (3 < d.format) || decide (2 < d.shard) || decide (1 < d.quant) ||
       decide (d.outFmt < 1) || decide (3 < d.outFmt) || (d.quant == 1 && decide (2 ≤ d.format)), Sc.reservedNonzero),
    (decide (d.rowBytes < 32) || decide (1024 < d.rowBytes) || d.rowBytes % 32 ≠ 0 ||
       (if d.shard = 0 then d.devCount ≠ 0 || d.total ≠ d.local_
        else d.devCount == 0 || decide (256 < d.devFirst + d.devCount) || decide (dev < d.devFirst) ||
             decide (d.devFirst + d.devCount ≤ dev)) ||
       (d.shard == 1 && (d.shardRows == 0 || decide (d.shardRows * d.devCount < d.total))), Sc.boundViolation),
    (d.base % 32 ≠ 0, Sc.alignment)]

def State.setDescWord (s : State) (t w v : Nat) : State :=
  { s with tab := { s.tab with desc := SMap.set 0 s.tab.desc (t * 8 + w) v } }

/-- A rejected descriptor or tag write is recorded in GE_REG_STATUS (R506). -/
def State.geReject (s : State) (off st : Nat) : State :=
  { s with tab := { s.tab with regStatus := st + off * 2 ^ 8 } }.bump Obj.DESC_REJECTS

/-- The gather class block answers while GE0 and its neighbours are powered: from S2, and not in the safe state. -/
def State.geUp (s : State) : Bool := decide (2 ≤ s.stage) && !s.safety.safe

/-- A write of word 0 (R506): the answer's status. VALID 0 drops the table's tags and the copies on their way to one. -/
def State.descWord0 (s : State) (t v : Nat) : Nat × State :=
  if bit v 0 then
    let st := descCheckWords s.devId fun w => if w = 0 then v else s.descWord t w
    if st ≠ 0 then (st, s.geReject (0x800000 + t * 64) st) else (Sc.ok, s.setDescWord t 0 v)
  else
    let names (tag : Nat) : Bool := bits tag 40 10 == t
    let s := s.setDescWord t 0 v
    let cut := s.tab.copies.filter fun c => names c.value
    let s := { s with tab := { s.tab with
      tags := s.tab.tags.filterMap fun e =>
        if !names e.2 then some e else if bits e.2 0 50 = 0 then none else some (e.1, bits e.2 0 50)
      copies := s.tab.copies.filter fun c => !names c.value } }
    (Sc.ok, cut.foldl (fun s c => match c.req with
      | some p => (s.respond p .wrAck Sc.accessDenied [] 0 0)
      | none => s) s)

def State.descWordN (s : State) (t w v : Nat) : Nat × State :=
  if bit (s.descWord t 0) 0 then (Sc.accessDenied, s.geReject (0x800000 + t * 64 + w * 8) Sc.accessDenied)
  else (Sc.ok, s.setDescWord t w v)

def execTableDescWord0Write (d value : Nat) (s : State) : Res :=
  occ (s.geUp && decide (d < 1024)) s (s.descWord0 d (value % 2 ^ 64)).2

def execTableDescWordWrite (d word value : Nat) (s : State) : Res :=
  occ (s.geUp && decide (d < 1024) && decide (1 ≤ word) && decide (word ≤ 7)) s (s.descWordN d word (value % 2 ^ 64)).2

/-! Hot-row tags (R521 to R523). -/

def State.hotBase (s : State) : Nat := 0x10003E00000 - s.obj Obj.HOT_CACHE_KIB * 1024
def State.hotSlots (s : State) : Nat := min 16384 (s.obj Obj.HOT_CACHE_KIB * 1024 / s.obj Obj.HOT_SLOT_BYTES)
def State.hotTag (s : State) (e : Nat) : Nat := SMap.get 0 s.tab.tags e
def State.setHotTag (s : State) (e v : Nat) : State := { s with tab := { s.tab with tags := SMap.set 0 s.tab.tags e v } }
def State.copyingTag (s : State) (e : Nat) : Bool := s.tab.copies.any fun c => c.slot == e

/-- A write of a tag (R521): its status where it is answered now, or a copy that answers later. -/
def State.hotTagWrite (s : State) (e v : Nat) (req : Option Packet) : Option Nat × State :=
  if bits v 50 13 ≠ 0 then (some Sc.reservedNonzero, s.geReject (0x900000 + e * 8) Sc.reservedNonzero)
  else if !bit v 63 then
    let gone := s.tab.copies.filter fun c => c.slot == e
    let s := s.setHotTag e (bits v 0 50)
    let s := { s with tab := { s.tab with copies := s.tab.copies.filter fun c => c.slot ≠ e } }
    (some Sc.ok, gone.foldl (fun s c => match c.req with
      | some p => s.respond p .wrAck Sc.accessDenied [] 0 0
      | none => s) s)
  else
    let d := s.desc (bits v 40 10)
    let st := firstFail [
      (bit (s.hotTag e) 63 || s.copyingTag e || !d.valid || !d.hot, Sc.accessDenied),
      (decide (s.hotSlots ≤ e) || decide (d.local_ ≤ bits v 0 40) || decide (s.obj Obj.HOT_SLOT_BYTES < d.rowBytes), Sc.boundViolation)]
    if st ≠ 0 then (some st, s.geReject (0x900000 + e * 8) st)
    else (none, { s with tab := { s.tab with copies := s.tab.copies ++ [{ slot := e, value := v, req := req }] } })

def execHotTagWrite (slot value : Nat) (s : State) : Res :=
  occ (s.geUp && decide (slot < 16384)) s (s.hotTagWrite slot (value % 2 ^ 64) none).2

/-! What a gather engine reads is kept by job: 0 its GXOP, 1 the request it serves, 2 and on the copies to hot slots. -/

/-- The row of a table on this device, read from memory (R507). -/
def State.rowAt (s : State) (ag : Agent) (job : Nat) (d : Desc) (l : Nat) : Option Ans × State :=
  s.readCa ag job 2 d.ctxNo (d.base + l * d.rowBytes) d.rowBytes

/-- A hot slot's bytes, as a piece of this device's memory (R337, R521). -/
def State.hotPiece (s : State) (e n : Nat) : List (Nat × Nat × Nat) :=
  [(s.devId * 2 ^ 56 + s.hotBase + e * s.obj Obj.HOT_SLOT_BYTES, 0, n)]

/-- A copy to a hot slot is over: the write of its tag is answered. -/
def State.endCopy (s : State) (slot st : Nat) : State :=
  let mine := s.tab.copies.filter fun c => c.slot == slot
  let s := { s with tab := { s.tab with copies := s.tab.copies.filter fun c => c.slot ≠ slot } }
  let s := mine.foldl (fun s c => match c.req with | some p => s.respond p .wrAck st [] 0 0 | none => s) (s.clearBuf (.gather 0) (2 + slot))
  if st = 0 then s else s.geReject (0x900000 + slot * 8) st

/-- HOT_TAG_COPY_DONE (R521): GE0 reads the row and writes it to the slot; once the write is visible the tag becomes valid and its
own write is answered. -/
def execHotTagCopyDone (slot : Nat) (s : State) : Res :=
  match s.tab.copies.find? fun c => c.slot == slot with
  | none => .next s
  | some c =>
    if s.safety.safe || s.reply (unitOf 5 0) != .deliver then .next s
    else if c.wrote then
      .next (if s.net.outst.any fun o => o.use == .hot slot then s else (s.endCopy slot Sc.ok).setHotTag slot c.value)
    else
      let d := s.desc (bits c.value 40 10)
      match s.rowAt (.gather 0) (2 + slot) d (bits c.value 0 40) with
      | (none, s) => .next s
      | (some a, t) =>
        if isFaultStatus a.status then .next (t.endCopy slot a.status)
        else match t.putPieces (.gather 0) 2 false (t.hotPiece slot a.bytes.length) a.bytes a.mark (.hot slot) with
          | none => .next s
          | some w => .next { w.2 with tab := { w.2.tab with
              copies := w.2.tab.copies.map fun x => if x.slot = slot then { x with wrote := true } else x } }

/-- The tags that name a table's local row, lowest first. -/
def State.hotFind (s : State) (t l : Nat) : List Nat :=
  (s.tab.tags.filter fun e => bit e.2 63 && bits e.2 40 10 == t && bits e.2 0 40 == l).map (·.1)

/-- Read a row for a lookup: from its slot where the table is HOT and a tag names it (R522). -/
def State.lookupRow (s : State) (ag : Agent) (job t l : Nat) : Option Ans × State :=
  let d := s.desc t
  match (if d.hot then s.hotFind t l else []) with
  | [] => s.rowAt ag job d l
  | e :: _ => s.fetchPieces ag job 2 (s.hotPiece e d.rowBytes)

/-- A lookup of a HOT table counts as a hit or a miss (R522). -/
def State.countLookup (s : State) (t l : Nat) : State :=
  if !(s.desc t).hot then s else
  match s.hotFind t l with
  | [] => s.bump64 Obj.HOT_MISSES
  | _ :: rest =>
    let s := s.bump64 Obj.HOT_HITS
    if rest.isEmpty then s else s.bump Obj.HOT_MULTIHIT

/-! Pooling arithmetic (R518 to R520). -/

/-- The FP32 value of a row's data element (R518). -/
def Desc.element (d : Desc) (row : List Byte) (i : Nat) : Nat :=
  let sc := if d.quant = 1 then fieldLE row (d.rowBytes - 8) 4 else d.scale
  let off := if d.quant = 1 then fieldLE row (d.rowBytes - 4) 4 else d.offset
  let affine (q : Int) : Nat := fp32.round (Fv.add (Fv.mul (Fv.ofInt q) (fp32.value sc)) (fp32.value off))
  match d.format with
  | 0 => affine (sgn 8 (elem row 8 i))
  | 1 => affine (sgn 4 (elem row 4 i))
  | 2 => fp16.conv fp32 (elem row 16 i)
  | _ => bf16.conv fp32 (elem row 16 i)

/-- Elements of slice s (R512). -/
def Desc.slice (d : Desc) (sl : Nat) : List Nat :=
  (List.range (min d.elements (256 * sl + 256) - 256 * sl)).map (256 * sl + ·)

/-- One step of a pool: POOL codes of Table 5.5, 4 MAX, else a sum (R519). -/
def poolStep (pool a b : Nat) : Nat :=
  if pool = 4 then fp32.round (Fv.max (fp32.value a) (fp32.value b)) else fadd32 a b

/-- Fold partials or terms of one width elementwise, the first as it is. -/
def poolFold (pool : Nat) : List (List Nat) → List Nat
  | [] => []
  | v :: vs => vs.foldl (fun a b => List.zipWith (poolStep pool) a b) v

/-- S ÷ n rounded once (R519): the quotient with a sticky bit below 64 further bits. -/
def fdivNat32 (x n : Nat) : Nat :=
  match fp32.value x with
  | .fin neg m e =>
    let q := m * 2 ^ 64 / n
    let r := if m * 2 ^ 64 % n = 0 then 0 else 1
    fp32.round (.fin neg (2 * q + r) (e - 65))
  | v => fp32.round v

/-- A chunk's pooled partial of one slice: FP32 patterns (R518, R519). -/
def Desc.partial (d : Desc) (pool sl : Nat) (rows : List (List Byte)) (ws : List Nat) : List Nat :=
  let terms := (rows.zip ws).map fun r => (d.slice sl).map fun i =>
    let x := d.element r.1 i
    if pool = 2 then fmul32 x r.2 else x
  poolFold pool terms

/-- FP32 patterns as the bytes of a response stream (R515). -/
def fpBytes (vs : List Nat) : List Byte := vs.flatMap (leBytes 4)
def fpVals (bs : List Byte) : List Nat := (List.range (bs.length / 4)).map fun i => fieldLE bs (4 * i) 4

/-! Gather operations. -/

def State.ge (s : State) (g : Nat) : Gather := SMap.get {} s.tab.ge g
def State.setGe (s : State) (g : Nat) (x : Gather) : State := { s with tab := { s.tab with ge := SMap.set {} s.tab.ge g x } }

def gTable (c : Cmd) : Nat := bits c.w0 46 10
def gPool (c : Cmd) : Nat := bits c.w0 43 3
def gXi (c : Cmd) : Nat := bits c.w0 36 4
def gXo (c : Cmd) : Nat := bits c.w0 32 4
def gBags (c : Cmd) : Nat := bits c.w0 0 32
def gXl (c : Cmd) : Nat := bits c.w1 60 4
def gXw (c : Cmd) : Nat := bits c.w1 56 4
def gLookups (c : Cmd) : Nat := bits c.w1 0 32

/-- The checks of R508 on a word, with its registers' values. -/
def State.gxCheck (s : State) (ctx : Nat) (x : Nat → Nat) (c : Cmd) : Nat :=
  let d := s.desc (gTable c)
  firstFail [
    (decide (5 ≤ gPool c) || bits c.w0 40 3 ≠ 0 || bits c.w1 32 24 ≠ 0 || (gPool c ≠ 2 && gXw c ≠ 0) || (gPool c == 0 && gXl c ≠ 0),
      Sc.reservedNonzero),
    (gPool c == 0 && gBags c ≠ gLookups c, Sc.boundViolation),
    (x (gXi c) % d.idxBytes ≠ 0 || (gPool c ≠ 0 && x (gXl c) % 4 ≠ 0) || (gPool c == 2 && x (gXw c) % 4 ≠ 0) || x (gXo c) % 4 ≠ 0,
      Sc.alignment),
    (!d.valid || d.ctxNo ≠ ctx, Sc.accessDenied)]

def execGxop (q k : Nat) (s : State) : Res :=
  s.atWord q k (isOp q 0x33) fun s c =>
    let regs := [gXi c, gXo c] ++ (if gPool c = 0 then [] else [gXl c]) ++ (if gPool c = 2 then [gXw c] else [])
    s.issue q k c regs (fun s t => s.gxCheck t.ctx t.reg c) (gBags c == 0 || gLookups c == 0)

/-- The chunk that an engine issues next, where it is pooled here and its rows are being read. -/
def State.localChunk (s : State) (g : Nat) : Option Chunk :=
  match (s.ge g).bags.find? fun b => !b.todo.isEmpty with
  | some b => (match b.todo with
    | k :: _ =>
      if k.owner = s.devId && (s.net.outst.any fun o => match o.use with | .buf a j _ _ => a == .gather g && j == 0 | _ => false) then some k
      else none
    | [] => none)
  | none => none

/-- Lookups in flight: those whose rows are being read here, and those of GATHER_REQs not answered in full (R524). -/
def State.inflight (s : State) (g : Nat) : Nat :=
  (match s.localChunk g with | some k => k.rows.length | none => 0) +
  ((s.net.outst.filter fun o => o.kind == .gatherReq && !o.timedOut && o.agent == .gather g).map (·.len)).sum

/-- A chunk of `n` lookups finds no room under GE_MAX_INFLIGHT; one that is larger than the limit goes alone (DESIGN CHOICE, log
54). -/
def State.limitHolds (s : State) (g n : Nat) : Bool :=
  s.inflight g ≠ 0 && decide (min 4096 (s.obj Obj.GE_MAX_INFLIGHT) < s.inflight g + n)

/-- The engine's next action waits on the limit from here on (R524). -/
def State.holdLimit (s : State) (g : Nat) : State :=
  if (s.ge g).limitNs = 0 then s.setGe g { s.ge g with limitNs := s.timeNs + 1 } else s

/-- The wait on the limit ends: its NCLK cycles are counted (R524). -/
def State.endLimit (s : State) (g : Nat) : State :=
  let x := s.ge g
  if x.limitNs = 0 then s
  else (s.bump64 Obj.INFLIGHT_LIMIT_CYCLES (s.nclk (s.timeNs - (x.limitNs - 1)))).setGe g { x with limitNs := 0 }

/-- The owner of a row and its local row there (Table 13.2). -/
def Desc.owner (d : Desc) (dev r : Nat) : Nat × Nat :=
  match d.shard with
  | 0 => (dev, r)
  | 1 => (d.devFirst + r / d.shardRows, r % d.shardRows)
  | _ => (d.devFirst + r % d.devCount, r / d.devCount)

/-- Cut a list into runs of n. -/
def runsOf {α : Type} (n : Nat) : Nat → List α → List (List α)
  | 0, _ => []
  | f + 1, l => if l.isEmpty then [] else l.take n :: runsOf n f (l.drop n)

/-- The chunks of a bag's lookups: owners rising, list order within an owner, each row cut into slices (R512). -/
def Desc.chunks (d : Desc) (dev pool : Nat) (ls : List (Nat × Nat)) : List Chunk :=
  let owned := ls.map fun l => (d.owner dev l.1, l.2)
  let owners := (List.range 256).filter fun o => owned.any fun x => x.1.1 == o
  let slices := if pool = 0 then 1 else cdiv d.elements 256
  owners.flatMap fun o =>
    let mine := (owned.filter fun x => x.1.1 == o).map fun x => (x.1.2, x.2)
    (runsOf (if pool = 2 then 8 else 16) mine.length mine).zipIdx.flatMap fun r =>
      (List.range slices).map fun sl => { owner := o, no := r.2, slice := sl, rows := r.1 }

/-- Stop a GXOP (R510). -/
def State.gxStop (s : State) (g st : Nat) : State :=
  let x := s.ge g
  if x.stop ≠ 0 then s else s.setGe g { x with stop := st, bags := x.bags.map fun b => { b with todo := [] } }

/-- Note what an access of a gather engine met. -/
def State.gxNote (s : State) (g st : Nat) : State :=
  let x := s.ge g
  s.setGe g { x with sticky := if x.sticky = 0 && isStickyStatus st then st else x.sticky }

/-- Read a range of a list by its context address. -/
def State.gxList (s : State) (g ctx ca n : Nat) : Option Ans × State := s.readCa (.gather g) 0 2 ctx ca n

/-- The lookups of bag `b` of an operation: its bounds, from LOOKUPS or its OFFSETS entries (R509). -/
def bagBounds (c : Cmd) (b : Nat) (offs : List Byte) : Nat × Nat :=
  if gPool c = 0 then (b, b + 1)
  else (fieldLE offs 0 4, if b + 1 = gBags c then gLookups c else fieldLE offs 4 4)

/-- Open the next bag: its bounds, indices and weights, checked as they are read (R509, R510). What is not here yet is asked for. -/
def State.openBag (s : State) (g : Nat) (o : UnitOp) : State :=
  let c : Cmd := { w0 := o.w0, w1 := o.w1 }
  let b := (s.ge g).nextBag
  let pool := gPool c
  let d := s.desc (gTable c)
  if !d.valid then s.gxStop g Sc.accessDenied else
  let offs := s.gxList g o.ctx (o.reg (gXl c) + 4 * b) (if pool = 0 then 0 else if b + 1 = gBags c then 4 else 8)
  match offs.1 with
  | none => offs.2
  | some a =>
    if isFaultStatus a.status then offs.2.gxStop g a.status else
    let lh := bagBounds c b a.bytes
    let lo := lh.1
    let n := lh.2 - lo
    if (b = 0 && lo ≠ 0) || lh.2 < lo || gLookups c < lh.2 then offs.2.gxStop g Sc.boundViolation else
    let idxs (s : State) : Option Ans × State := s.gxList g o.ctx (o.reg (gXi c) + d.idxBytes * lo) (d.idxBytes * n)
    let weights (s : State) : Option Ans × State := s.gxList g o.ctx (o.reg (gXw c) + 4 * lo) (if pool = 2 then 4 * n else 0)
    -- each list is asked for in turn; what a list's answer leaves is kept once all are here
    match (idxs s).1 with
    | none => (idxs s).2
    | some ix =>
      let t := (idxs offs.2).2
      if isFaultStatus ix.status then t.gxStop g ix.status else
      let idx := (List.range n).map fun i => fieldLE ix.bytes (d.idxBytes * i) d.idxBytes
      if idx.any fun r => decide (d.total ≤ r) then t.gxStop g Sc.boundViolation else
      match (weights s).1 with
      | none => (weights s).2
      | some w =>
        let t := (weights t).2
        if isFaultStatus w.status then t.gxStop g w.status else
        let ws := (List.range n).map fun i => if pool = 2 then fieldLE w.bytes (4 * i) 4 else one32
        let t := (((t.gxNote g a.status).gxNote g ix.status).gxNote g w.status).clearBuf (.gather g) 0
        let bag : Bag := { no := b, lookups := n, todo := d.chunks t.devId pool (idx.zip ws), parts := [],
                           mark := firstMark a.mark (firstMark ix.mark w.mark) }
        let y := t.ge g
        t.setGe g { y with nextBag := b + 1, bags := y.bags ++ [bag] }

/-- Bytes of a partial's response stream (R513, R515). -/
def Desc.streamBytes (d : Desc) (pool sl : Nat) : Nat := if pool = 0 then d.rowBytes else 4 * (d.slice sl).length

/-- Read rows in order, all of them here. -/
def State.tableRows (s : State) (ag : Agent) (job t : Nat) : List Nat → List Ans × State
  | [] => ([], s)
  | l :: r =>
    let a := s.lookupRow ag job t l
    let b := a.2.tableRows ag job t r
    (a.1.getD {} :: b.1, b.2)

/-- Read a chunk's rows in order: those that are not here are asked for, and there is no answer yet. -/
def State.chunkRows (s : State) (ag : Agent) (job t : Nat) (ls : List Nat) : Option (List Ans) × State :=
  if ls.all fun l => (s.lookupRow ag job t l).1.isSome then
    let r := s.tableRows ag job t ls
    (some r.1, r.2)
  else (none, ls.foldl (fun s l => match s.lookupRow ag job t l with | (none, u) => u | (some _, _) => s) s)

/-- A chunk's stream of bytes from its rows (R511, R515). -/
def Desc.chunkBytes (d : Desc) (pool sl : Nat) (rows : List Ans) (ws : List Nat) : List Byte :=
  if pool = 0 then padTo d.rowBytes ((rows.headD {}).bytes)
  else fpBytes (d.partial pool sl (rows.map fun a => padTo d.rowBytes a.bytes) ws)

/-- The payload of a GATHER_REQ (Table 13.3). -/
def gatherPayload (pool : Nat) (k : Chunk) : List Byte :=
  padTo 128 (k.rows.zipIdx.flatMap fun r =>
    let e := leBytes 8 (r.1.1 + (if r.2 = 0 then k.slice * 2 ^ 40 else 0))
    if pool = 2 then e ++ leBytes 4 r.1.2 ++ zeros 4 else e)

/-- A bag with a part added or changed. -/
def Gather.setBag (x : Gather) (b : Bag) : Gather := { x with bags := x.bags.map fun y => if y.no = b.no then b else y }

/-- Take the first chunk of a bag: pooled here where this device owns it, else requested of its owner (R512, R513). -/
def State.takeChunk (s : State) (g : Nat) (o : UnitOp) (b : Bag) (k : Chunk) (rest : List Chunk) : State :=
  let c : Cmd := { w0 := o.w0, w1 := o.w1 }
  let t := gTable c
  let pool := gPool c
  let d := s.desc t
  let n := k.rows.length
  let part (p : Part) : Bag := { b with todo := rest, parts := b.parts ++ [p] }
  if k.owner = s.devId then
    if !d.valid then s.gxStop g Sc.accessDenied else
    match s.chunkRows (.gather g) 0 t (k.rows.map (·.1)) with
    | (none, s) => s
    | (some as, s) =>
      -- every slice of a row reads it again; the lookup counts with the first
      let s := if k.slice = 0 then k.rows.foldl (fun s r => s.countLookup t r.1) s else s
      match as.find? fun a => isFaultStatus a.status with
      | some a => s.gxStop g a.status
      | none =>
        let s := as.foldl (fun s a => s.gxNote g a.status) s
        let s := if k.slice = 0 then s.bump64 Obj.LOOKUPS_LOCAL n else s
        let m := as.foldl (fun m a => firstMark m a.mark) 0
        let p : Part := { chunk := k, done := true, buf := d.chunkBytes pool k.slice as (k.rows.map (·.2)), mark := m }
        let s := s.clearBuf (.gather g) 0
        s.setGe g ((s.ge g).setBag (part p))
  else match s.portFor k.owner t with
    | none =>
      let r := s.pellet { source := Es.linkPoison, code := Pc.linkAbsent, status := Sc.linkAbsent, oClass := 5, oIndex := g,
                          cls := 5, sub := g + 1 }
      let bytes := r.2.drawBytes (d.streamBytes pool k.slice)
      let s := bytes.2.gxNote g Sc.linkAbsent
      s.setGe g ((s.ge g).setBag (part { chunk := k, done := true, buf := bytes.1, mark := r.1 + 1 }))
    | some p =>
      match s.send { id := 0, kind := .gatherReq, tc := 3, src := 0, dst := unitNode (unitOf 6 p), at_ := 0, dev := k.owner, len := n,
                     data := gatherPayload pool k, table := t, pool := if pool = 3 then 1 else pool, agent := .gather g,
                     sentNs := 0 } (.gather g b.no b.parts.length) with
      | none => s
      | some s =>
        let s := s.bump64 Obj.LOOKUPS_REMOTE n
        s.setGe g ((s.ge g).setBag (part { chunk := k }))

/-- Issue the first chunk of a bag, where the limit on lookups in flight has room for it (R524). -/
def State.issueChunk (s : State) (g : Nat) (o : UnitOp) (b : Bag) (k : Chunk) (rest : List Chunk) : State :=
  if (s.localChunk g).isNone && s.limitHolds g k.rows.length then s.holdLimit g
  else (s.endLimit g).takeChunk g o b k rest

/-- A bag's output bytes: partials combined in owner and chunk order, slice by slice (R511, R516, R519, R520). -/
def Desc.bagBytes (d : Desc) (pool : Nat) (b : Bag) : List Byte :=
  let out : Fmt := tyFmt d.outFmt
  if pool = 0 then (match b.parts with | p :: _ => padTo d.rowBytes p.buf | [] => [])
  else if b.lookups = 0 then zeros (d.elements * out.bytes)
  else
    (List.range (cdiv d.elements 256)).flatMap fun sl =>
      let ps := (b.parts.filter fun p => p.chunk.slice == sl).map fun p => (fpVals p.buf).take (d.slice sl).length
      (poolFold pool ps).flatMap fun v =>
        leBytes out.bytes (fp32.conv out (if pool = 3 then fdivNat32 v b.lookups else v))

/-- Write the bags that are complete; each output row is poisoned as its bag is (R509, R516, Table 6.10). -/
def State.writeBags (s : State) (g : Nat) (o : UnitOp) : State :=
  let c : Cmd := { w0 := o.w0, w1 := o.w1 }
  let pool := gPool c
  let d := s.desc (gTable c)
  ((s.ge g).bags.filter fun b => b.todo.isEmpty && b.parts.all (·.done)).foldl (fun s b =>
    let drop (s : State) : State := let x := s.ge g; s.setGe g { x with bags := x.bags.filter fun y => y.no ≠ b.no }
    if (s.ge g).stop ≠ 0 then drop s else
    let bs := d.bagBytes pool b
    let m := b.parts.foldl (fun m p => firstMark m p.mark) b.mark
    let x := s.xlateRange o.ctx ((o.reg (gXo c) + b.no * bs.length) % 2 ^ 64) bs.length false true
    if x.1 ≠ 0 then drop (x.2.2.2.gxStop g x.1) else
    match x.2.2.2.putPieces (.gather g) 2 x.2.2.1 x.2.1 bs m (.opWrite (.gather g)) with
    | none => s
    | some w =>
      let s := drop w.2
      let s := if isFaultStatus w.1 then s.gxStop g w.1 else s.gxNote g w.1
      let s := if b.lookups = 0 then s.bump Obj.EMPTY_BAGS else s
      let y := s.ge g
      s.setGe g { y with mark := firstMark y.mark m }) s

/-- The GXOP at the head of a gather engine's queue. -/
def State.gxHead (s : State) (g : Nat) : Option UnitOp := s.headOp (120 + g)

/-- A gather engine works: its unit serves, and its epoch domain does not hold it (R537). -/
def State.geLive (s : State) (g : Nat) : Bool := s.live && decide (g < 16) && s.reply (unitOf 5 g) == .deliver && !(s.held (unitOf 5 g))

/-- GATHER_LOOKUP_ISSUE (R508 to R513, R524): the engine opens a bag, or issues its next chunk. -/
def execGatherLookupIssue (g : Nat) (s : State) : Res :=
  match s.gxHead g with
  | none => .next s
  | some o =>
    if !s.geLive g then .next s else
    let s := if (s.ge g).op == some o.id then s else s.setGe g { serve := (s.ge g).serve, op := some o.id }
    let x := s.ge g
    let c : Cmd := { w0 := o.w0, w1 := o.w1 }
    if x.stop ≠ 0 then .next (s.writeBags g o) else
    match x.bags.find? fun b => !b.todo.isEmpty with
    | some b =>
      (match b.todo with
       | k :: rest => .next ((s.issueChunk g o b k rest).writeBags g o)
       | [] => .next s)
    | none =>
      if x.nextBag < gBags c then .next ((s.openBag g o).writeBags g o) else .next (s.writeBags g o)

/-- A GXOP ends: every bag written and acknowledged, or it stopped and its lookups in flight are back (R510). -/
def State.gxComplete (s : State) (g : Nat) (o : UnitOp) : State :=
  let x := s.ge g
  let c : Cmd := { w0 := o.w0, w1 := o.w1 }
  let idle := x.bags.isEmpty && s.inflight g == 0 && !(s.writing (.opWrite (.gather g)))
  if x.op != some o.id || !idle || (x.stop = 0 && x.nextBag < gBags c) then s else
  let s := s.setGe g { serve := x.serve }
  let s := if x.stop = 0 then s.bump64 Obj.GXOPS else s.bump Obj.GXOP_STOPS
  s.finishOp o { mark := x.mark, sticky := x.sticky, late := x.stop }

/-! Serving other devices. -/

/-- Answer a gather request with a stream of flits, each with the status and mark (R514, R515). -/
def State.answerGather (s : State) (req : Packet) (status : Nat) (bs : List Byte) (m : Nat) : State :=
  (List.range (max 1 (cdiv bs.length 128))).foldl (fun s k =>
    s.respond req .gatherRsp status ((bs.drop (128 * k)).take 128) m k) s

/-- Entry i of a request's payload: local row, SLICE, reserved bits and weight (Table 13.3). -/
def gatherEntry (p : Packet) (i : Nat) : Nat × Nat × Bool × Nat :=
  let sz := if p.pool = 2 then 16 else 8
  let w := fieldLE p.data (sz * i) 8
  let hi := if p.pool = 2 then fieldLE p.data (sz * i + 8) 8 else 0
  (bits w 0 40, bits w 40 5, bits w 45 19 ≠ 0 || (p.pool == 2 && hi / 2 ^ 32 ≠ 0) || (i ≠ 0 && bits w 40 5 ≠ 0), hi % 2 ^ 32)

/-- The checks of R514 on a request. -/
def State.serveCheck (s : State) (p : Packet) : Nat :=
  let d := s.desc p.table
  let es := (List.range p.len).map (gatherEntry p)
  let dev := match p.agent with | .remote dev _ => dev | _ => s.devId
  firstFail [
    (es.any (fun e => e.2.2.1) || decide (5 ≤ p.pool) || (p.pool == 2 && decide (8 < p.len)) || (p.pool == 0 && decide (1 < p.len)) ||
       decide (p.len < 1) || decide (16 < p.len) || (d.valid && decide (cdiv d.elements 256 ≤ (es.headD (0, 0, false, 0)).2.1)), Sc.reservedNonzero),
    (!d.valid || !d.serves || decide (dev < d.srcLo) || decide (d.srcHi < dev), Sc.accessDenied),
    (es.any fun e => decide (d.local_ ≤ e.1), Sc.boundViolation)]

/-- A refused request is answered in full, each flit poisoned; the spec names no CODE for the pellet, so it is
one of Table 6.8's, freely (R7; log 51). -/
def State.refuseGather (s : State) (g : Nat) (p : Packet) (st : Nat) : State :=
  let code := s.draw
  let r := code.2.pellet { source := Es.accessPoison, code := 1 + code.1.toNat % 14, status := st, oClass := 5, oIndex := g, cls := 5,
                           sub := g + 1 }
  let d := s.desc p.table
  let bytes := r.2.drawBytes (max 1 (d.streamBytes p.pool (gatherEntry p 0).2.1))
  (bytes.2.answerGather p st bytes.1 (r.1 + 1)).bump Obj.SERVE_REFUSED

/-- GATHER_SERVE (R514, R515): the oldest request held is pooled and answered. -/
def execGatherServe (g : Nat) (s : State) : Res :=
  if s.safety.safe || 16 ≤ g || s.reply (unitOf 5 g) != .deliver then .next s else
  match (s.ge g).serve with
  | [] => .next s
  | p :: rest =>
    let s0 := s.setGe g { s.ge g with serve := rest }
    let st := s.serveCheck p
    if st ≠ 0 then .next (s0.refuseGather g p st) else
    let d := s.desc p.table
    let es := (List.range p.len).map (gatherEntry p)
    let sl := (gatherEntry p 0).2.1
    match s0.chunkRows (.gather g) 1 p.table (es.map (·.1)) with
    | (none, t) => .next (t.setGe g { t.ge g with serve := p :: rest })
    | (some as, t) =>
      let t := (es.foldl (fun t e => t.countLookup p.table e.1) t).clearBuf (.gather g) 1
      match as.find? fun a => isFaultStatus a.status with
      | some a => .next (t.refuseGather g p a.status)
      | none =>
        let m := as.foldl (fun m a => firstMark m a.mark) (if p.poison then p.pseq + 1 else 0)
        .next ((t.answerGather p Sc.ok (d.chunkBytes p.pool sl as (es.map fun e => e.2.2.2)) m).bump64 Obj.REQS_SERVED)

/-- A request enters the serve queue, or is refused at once; a full queue leaves it where it is (R514). -/
def State.takeGather (s : State) (g : Nat) (p : Packet) : Option State :=
  let st := s.serveCheck p
  if st ≠ 0 then some (s.refuseGather g p st)
  else if s.obj Obj.SERVE_QUEUE ≤ (s.ge g).serve.length then none
  else some (s.setGe g { s.ge g with serve := (s.ge g).serve ++ [p] })

/-- A response flit reaches a bag (R516): REMOTE_FAULT for a failure at the owner, LINK_LOST and LINK_ABSENT as they are. -/
def State.gatherArrives (s : State) (g bag part seg status : Nat) (bs : List Byte) (m : Nat) : Bool × State :=
  match s.gxHead g with
  | none => (true, s)
  | some o =>
    let x := s.ge g
    let c : Cmd := { w0 := o.w0, w1 := o.w1 }
    let d := s.desc (gTable c)
    match x.bags.find? fun b => b.no == bag with
    | none => (true, s)
    | some b =>
      match b.parts[part]? with
      | none => (true, s)
      | some p =>
        let want := max 1 (cdiv (d.streamBytes (gPool c) p.chunk.slice) 128)
        let p := { p with segs := p.segs + 1, buf := splice (padTo (want * 128) p.buf) (128 * seg) bs, mark := firstMark p.mark m,
                          done := decide (want ≤ p.segs + 1) }
        let s := s.setGe g (x.setBag { b with parts := b.parts.set part p })
        let s := if status = 0 then s
          else if status = Sc.linkLost || status = Sc.linkAbsent then s.gxNote g status
          else if status = Sc.timeout then s.gxStop g Sc.timeout
          else s.gxNote g Sc.remoteFault
        (p.done, s.writeBags g o)

/-! Controls. -/

/-- HOT_CACHE_KIB and HOT_SLOT_BYTES while a tag is valid, or a size that reaches a slice not READY (R544). -/
def State.checkHotSize (s : State) (kib : Option Nat) : Nat :=
  let busy := s.tab.tags.any (fun e => bit e.2 63) || !s.tab.copies.isEmpty
  let reach (k : Nat) : Bool := (List.range 8).any fun n =>
    decide (0x3E00000 - k * 1024 < (n + 1) * 0x800000) && decide (n * 0x800000 < 0x3E00000) && 0 < k &&
    s.unitSt (unitOf 10 n) != .ready && s.unitSt (unitOf 10 n) != .busy
  if busy then Sc.accessDenied
  else match kib with
    | some k => if reach k then Sc.accessDenied else Sc.ok
    | none => Sc.ok

end Sys2Proof.Machine
end

