-- ==== Sys2Proof/Machine/Moult.lean ====
section
/-!
DEFINITION. Phase maps, the moult and collectives (R525 to R533), and the triggers and outputs of epoch domains (R534 to R541).
-/
namespace Sys2Proof.Machine

/-! Phase maps. -/

def State.coll (s : State) : Coll := s.tab.coll
def State.setColl (s : State) (x : Coll) : State := { s with tab := { s.tab with coll := x } }
def State.phaseMap (s : State) (m : Nat) : Nat := SMap.get 0 s.tab.coll.maps m

/-- The operation the collective engine runs, once it has begun. -/
def State.collOp (s : State) : Option UnitOp :=
  match s.headOp 136 with
  | some o => if s.coll.op == some o.id then some o else none
  | none => none

def isMoult (o : UnitOp) : Bool := o.opcode == 0x37
def mFrom (o : UnitOp) : Nat := bits o.w0 52 4
def mTo (o : UnitOp) : Nat := bits o.w0 48 4
/-- Schedule address, steps and first step of a MOULT or COLL (R529, R533). -/
def schedBase (o : UnitOp) : Nat := if isMoult o then o.reg (bits o.w0 44 4) else o.reg (bits o.w0 36 4)
def schedSteps (o : UnitOp) : Nat := bits o.w0 0 32
def schedFirst (o : UnitOp) : Nat := if isMoult o then bits o.w1 32 32 else bits o.w1 0 32

/-- A MOULT runs. -/
def State.moulting (s : State) : Bool := match s.collOp with | some o => isMoult o | none => false
def State.moultNames (s : State) (m : Nat) : Bool :=
  match s.collOp with | some o => isMoult o && (mFrom o == m || mTo o == m) | none => false

/-- A write of PHASE_MAP[m] (R525): the answer's status. -/
def State.phaseMapWrite (s : State) (m v : Nat) : Nat × State :=
  let st := firstFail [
    (bits v 27 36 ≠ 0 || bits v 22 2 ≠ 0 || decide (5 ≤ bits v 24 3), Sc.reservedNonzero),
    (bit v 63 && bits v 8 8 == 0, Sc.boundViolation),
    (s.moultNames m, Sc.accessDenied)]
  if st ≠ 0 then (st, s) else (Sc.ok, s.setColl { s.coll with maps := SMap.set 0 s.coll.maps m v })

/-- A write of CURRENT_PHASE (R526). -/
def State.currentPhaseWrite (s : State) (v : Nat) : Nat × State :=
  let st := firstFail [(bits v 8 24 ≠ 0 || bits v 4 3 ≠ 0, Sc.reservedNonzero), (s.moulting, Sc.accessDenied)]
  if st ≠ 0 then (st, s) else (Sc.ok, s.setColl { s.coll with current := v % 256 })

def execPhaseMapWrite (m value : Nat) (s : State) : Res :=
  occ (s.geUp && decide (m < 16)) s (s.phaseMapWrite m (value % 2 ^ 64)).2

def execCurrentPhaseWrite (value : Nat) (s : State) : Res :=
  occ s.geUp s (s.currentPhaseWrite (value % 2 ^ 32)).2

/-! The words. -/

/-- MOULT's checks (R528). -/
def State.moultCheck (s : State) (x : Nat → Nat) (c : Cmd) : Nat :=
  let f := bits c.w0 52 4
  firstFail [
    (bits c.w0 32 12 ≠ 0 || bits c.w1 0 32 ≠ 0, Sc.reservedNonzero),
    (x (bits c.w0 44 4) % 32 ≠ 0, Sc.alignment),
    (!bit (s.phaseMap f) 63 || !bit (s.phaseMap (bits c.w0 48 4)) 63 || !bit s.coll.current 7 || bits s.coll.current 0 4 ≠ f, Sc.accessDenied)]

/-- COLL's checks (R533). -/
def collCheck (x : Nat → Nat) (c : Cmd) : Nat :=
  firstFail [
    (cFunc c ≠ 1 || cType c ≠ 0 || cXd c ≠ 0 || cXs2 c ≠ 0 || cXp c ≠ 0 || cRsv c ≠ 0, Sc.reservedNonzero),
    (x (cXs1 c) % 32 ≠ 0, Sc.alignment)]

/-- MOULT: its maps are checked again where it begins, so the word's own check covers what the word alone shows. -/
def execMoult (q k : Nat) (s : State) : Res :=
  s.atWord q k (isOp q 0x37) fun s c =>
    s.issue q k c [bits c.w0 44 4] (fun _ t => firstFail [
      (bits c.w0 32 12 ≠ 0 || bits c.w1 0 32 ≠ 0, Sc.reservedNonzero), (t.reg (bits c.w0 44 4) % 32 ≠ 0, Sc.alignment)])
      (bits c.w0 0 32 == 0)

def execCollRun (q k : Nat) (s : State) : Res :=
  s.atWord q k (isOp q 0x36) fun s c =>
    s.issue q k c [cXs1 c] (fun _ t => collCheck t.reg c) (cCount c == 0)

/-! Steps (Table 13.4). -/

def stSrc (b : List Byte) : Nat := fieldLE b 0 8
def stDst (b : List Byte) : Nat := fieldLE b 8 8
def stBytes (b : List Byte) : Nat := fieldLE b 16 4
def stWait (b : List Byte) : Nat := fieldLE b 20 2
def stPost (b : List Byte) : Nat := fieldLE b 22 2
def stPostDev (b : List Byte) : Nat := fieldLE b 24 1
def stTmo (b : List Byte) : Nat := fieldLE b 25 1
def stOp (b : List Byte) : Nat := fieldLE b 26 1
def stType (b : List Byte) : Nat := fieldLE b 27 1
/-- The semaphore that WAIT or POST names. -/
def stSem (w : Nat) : Nat := semOf (bits w 0 11) (bits w 11 1)

/-- The schedule entry of a step is read as a job of its own. -/
def stepJob (step : Nat) : Nat := 2 ^ 32 + step

/-- Reserved values of a step (R527, R529). -/
def stReserved (moult : Bool) (b : List Byte) : Bool :=
  bits (stWait b) 12 3 ≠ 0 || bits (stPost b) 12 3 ≠ 0 || bits (stTmo b) 4 4 ≠ 0 || decide (1 < stOp b) || (moult && stOp b == 1) ||
  (if stOp b = 1 then decide (stType b < 1) || decide (6 < stType b) else stType b ≠ 0) || fieldLE b 28 4 ≠ 0

/-- The checks of a step before it moves a byte (R529): its status. -/
def State.stepCheck (s : State) (o : UnitOp) (b : List Byte) : Nat × State :=
  let n := stBytes b
  if stReserved (isMoult o) b then (Sc.reservedNonzero, s) else
  if n = 0 then (0, s) else
  if stOp b = 1 && n % tySize (stType b) ≠ 0 then (Sc.alignment, s) else
  let x := s.xlateRange o.ctx (stSrc b) n true false
  let y := x.2.2.2.xlateRange o.ctx (stDst b) n (stOp b == 1) true
  let s := y.2.2.2
  let st := if x.1 = Sc.alignment || y.1 = Sc.alignment then Sc.alignment
    else if x.1 = Sc.apertureMiss || y.1 = Sc.apertureMiss then Sc.apertureMiss
    else if x.1 ≠ 0 then x.1 else y.1
  if st ≠ 0 then (st, s) else
  let mmio (ps : List (Nat × Nat × Nat)) : Bool := ps.any fun p => s.isMmio p.1
  let map := s.phaseMap (mTo o)
  let out (ps : List (Nat × Nat × Nat)) : Bool := ps.any fun p =>
    let d := p.1 / 2 ^ 56
    decide (d < bits map 0 8) || decide (bits map 0 8 + bits map 8 8 ≤ d)
  if mmio x.2.1 || mmio y.2.1 || (isMoult o && out y.2.1) || (stOp b == 1 && y.2.1.any fun p => p.1 / 2 ^ 56 ≠ s.devId) then (Sc.accessDenied, s)
  else if bit (stPost b) 15 && stPostDev b ≠ s.devId && (s.portFor (stPostDev b) (bits (stPost b) 0 11)).isNone then (Sc.linkAbsent, s)
  else (0, s)

/-- The sum that ADD writes (R529). -/
def addElem (t a b : Nat) : Nat :=
  if isFloat t then (tyFmt t).round (Fv.add ((tyFmt t).value a) ((tyFmt t).value b)) else (a + b) % 2 ^ (8 * tySize t)

def State.setFlying (s : State) (r : StepRun) : State :=
  s.setColl { s.coll with flying := s.coll.flying.map fun x => if x.idx = r.idx then r else x }

/-- A step fails with a status: the first failure stands, and the operation ends when the steps in flight have (R532). -/
def State.stepFail (s : State) (i st : Nat) : State :=
  let x := s.coll
  let x := { x with flying := x.flying.filter fun r => r.idx ≠ i }
  (s.clearBuf .coll i).setColl { x with fail := if x.fail.isSome then x.fail else some (i, st) }

/-- Note what an access of a step met. -/
def State.collNote (s : State) (st m : Nat) : State :=
  let x := s.coll
  s.setColl { x with sticky := if x.sticky = 0 && isStickyStatus st then st else x.sticky, mark := firstMark x.mark m }

/-- Move the bytes of a step from where it stands, as far as its reads are here and tags are free (R529, step 3). -/
def State.moveStep (s : State) (o : UnitOp) : Nat → StepRun → State
  | 0, r => s.setFlying r
  | f + 1, r =>
    let b := r.bytes
    let n := stBytes b
    if n ≤ r.pos then s.setFlying r else
    let src := (stSrc b + r.pos) % 2 ^ 64
    let dst := (stDst b + r.pos) % 2 ^ 64
    -- a sum moves whole elements of up to one line; a copy stops at the lines of both sides
    let k := if stOp b = 1 then min (n - r.pos) 128 else min (n - r.pos) (min (128 - src % 128) (128 - dst % 128))
    let y := s.xlateRange o.ctx dst k (stOp b == 1) true
    if y.1 ≠ 0 then y.2.2.2.stepFail r.idx y.1 else
    let old (s : State) : Option Ans × State := s.readCa .coll r.idx 2 o.ctx dst (if stOp b = 1 then k else 0)
    let a := s.readCa .coll r.idx 2 o.ctx src k
    match a.1, (old s).1 with
    | none, _ => a.2.setFlying r
    | some _, none => (old s).2.setFlying r
    | some a', some e =>
      let t := (old a.2).2
      if isFaultStatus a'.status then (t.collNote 0 a'.mark).stepFail r.idx a'.status
      else if isFaultStatus e.status then (t.collNote 0 e.mark).stepFail r.idx e.status
      else
        let w := tySize (stType b)
        let bs := if stOp b = 1 then
            (List.range (k / w)).flatMap fun i => leBytes w (addElem (stType b) (fieldLE e.bytes (w * i) w) (fieldLE a'.bytes (w * i) w))
          else a'.bytes
        match t.putPieces .coll 2 y.2.2.1 y.2.1 bs (firstMark a'.mark e.mark) (.step r.idx) with
        | none => s.setFlying r
        | some p =>
          let s := (((p.2.collNote a'.status (firstMark a'.mark e.mark)).collNote e.status 0).collNote p.1 0).clearBuf .coll r.idx
          if isFaultStatus p.1 then s.stepFail r.idx p.1
          else s.moveStep o f { r with pos := r.pos + k }

/-- Most rounds that moving a step takes. -/
def stepFuel (r : StepRun) : Nat := stBytes r.bytes / 64 + 4

/-- Steps FIRST to FIRST + STEPS - 1 that are not completed, lowest first. -/
def Coll.openSteps (x : Coll) (o : UnitOp) : Option Nat :=
  let rec go : Nat → Nat → Option Nat
    | 0, _ => none
    | n + 1, i => if x.done.contains i then go n (i + 1) else some i
  if x.done.length = schedSteps o then none else go (x.done.length + 1) (schedFirst o)

/-- A mark of a local domain, as EPOCH MARK gives it (R227): whether the domain takes marks. -/
def State.markDomain (s : State) (d : Nat) : Bool × State := if s.edSource d = 1 then (true, s.trigger d) else (false, s)

/-- The operation ends when it has failed and nothing is in flight, or when every step is complete (R531, R532). -/
def State.settleColl (s : State) (o : UnitOp) : State :=
  let x := s.coll
  let idle : Coll := { current := x.current, maps := x.maps }
  -- writes and posts of a step that has failed are answered first
  if s.net.outst.any fun y => !y.timedOut && (match y.use with | .step _ => true | _ => false) then s else
  match x.fail with
  | some (_, st) =>
    if !x.flying.isEmpty then s else
    let first := (x.openSteps o).getD (schedFirst o)
    let s := s.setColl idle
    let s := if isMoult o then (s.setObj Obj.MOULT_LAST_STEP first).setObj Obj.MOULT_LAST_STATUS st else s
    s.finishOp o (if isStickyStatus st then { mark := x.mark, sticky := st } else { mark := x.mark, sticky := x.sticky, late := st })
  | none =>
    if !x.flying.isEmpty || x.done.length < schedSteps o then s else
    if isMoult o then
      let map := s.phaseMap (mTo o)
      let s := s.setColl { idle with current := 128 + mTo o }
      let r := if bit map 21 then (s.counted .coll).markDomain (bits map 16 5) else (true, s)
      (r.2.bump Obj.MOULTS).finishOp o { mark := x.mark, sticky := x.sticky, late := if r.1 then 0 else Sc.accessDenied }
    else (s.setColl idle).finishOp o { mark := x.mark, sticky := x.sticky }

/-- The collective engine works. -/
def State.collLive (s : State) : Bool := s.live && s.reply 200 == .deliver && !(s.held 200)

/-- The engine begins the operation at its queue's head; a MOULT's maps are checked here (R528). -/
def State.beginColl (s : State) (o : UnitOp) : State :=
  if s.coll.op == some o.id then s else
  let x := s.coll
  let s := s.setColl { current := x.current, maps := x.maps, op := some o.id }
  let st := if isMoult o then s.moultCheck o.reg { w0 := o.w0, w1 := o.w1 } else 0
  if st ≠ 0 then s.setColl { s.coll with fail := some (schedFirst o, st) } else s

/-- Go on with a step: its wait, which the table grants once its take succeeds (R292), then its bytes. -/
def State.runStep (s : State) (o : UnitOp) (r : StepRun) : State :=
  if r.waiting then
    match s.waitOf .coll with
    | some w => if s.canTake w.sem 1 .coll then (s.take w.sem 1 .coll).answerWait w Sc.ok else s
    | none => s
  else s.moveStep o (stepFuel r) r

/-- A step takes its WAIT semaphore: at once, or by a JESS_WAIT with its limit; whether it waits. `none` where no tag is free. -/
def State.stepWait (s : State) (step : Nat) (b : List Byte) : Option (Bool × State) :=
  let m := stSem (stWait b)
  if !bit (stWait b) 15 then some (false, s)
  else if s.canTake m 1 .coll then some (false, s.takeNow .coll m 1 .coll)
  else (s.send (waitPacket .coll m 1 (bits (stTmo b) 0 4) false) (.collWait step m)).map fun s => (true, s)

/-- MOULT_STEP_START (R527, R529, R530): the next step of the schedule is read and checked and begins, or a step in flight goes
on with its wait or its bytes. -/
def execMoultStepStart (step : Nat) (s : State) : Res :=
  match s.headOp 136 with
  | none => .next s
  | some o =>
    if !s.collLive then .next s else
    let s := s.beginColl o
    let x := s.coll
    match x.flying.find? fun r => r.idx == step with
    | some r => .next ((s.runStep o r).settleColl o)
    | none =>
      if x.fail.isSome then .next (s.settleColl o) else
      if step ≠ schedFirst o + x.next || schedSteps o ≤ x.next || s.obj Obj.MOULT_CONCURRENCY ≤ x.flying.length ||
         x.flying.any (·.waiting) then .next s else
      let a := s.readCa .coll (stepJob step) 2 o.ctx (schedBase o + step * 32) 32
      match a.1 with
      | none => .next a.2
      | some a' =>
        let u := (a.2.collNote a'.status a'.mark).clearBuf .coll (stepJob step)
        if isFaultStatus a'.status then .next ((u.stepFail step a'.status).settleColl o) else
        let ck := u.stepCheck o a'.bytes
        if ck.1 ≠ 0 then .next ((ck.2.stepFail step ck.1).settleColl o) else
        if stBytes a'.bytes = 0 then
          let x := ck.2.coll
          .next (((ck.2.setColl { x with next := x.next + 1, done := x.done ++ [step] }).bump64 Obj.MOULT_STEPS).settleColl o)
        else match ck.2.stepWait step a'.bytes with
          | none => .next s
          | some w =>
            let x := w.2.coll
            let r : StepRun := { idx := step, bytes := a'.bytes, waiting := w.1, sinceNs := s.timeNs }
            .next (((w.2.setColl { x with next := x.next + 1, flying := x.flying ++ [r] }).runStep o r).settleColl o)

/-- A step is complete: its writes are visible and its post has been made, or acknowledged by the other device (R529, R532). -/
def State.endStep (s : State) (o : UnitOp) (step : Nat) : State :=
  let x := s.coll
  ((s.setColl { x with flying := x.flying.filter fun y => y.idx ≠ step, done := x.done ++ [step] }).bump64 Obj.MOULT_STEPS).settleColl o

/-- A write or the post of a step is answered: a status that ends a program fails the step, and the post's OK completes it. -/
def State.stepAcked (s : State) (step st mark : Nat) : State :=
  if endsProgram st then
    let s := (s.collNote 0 mark).stepFail step st
    (match s.collOp with | some o => s.settleColl o | none => s)
  else
    let s := if st = 0 then s else s.collNote st mark
    match s.collOp, s.coll.flying.find? fun r => r.idx == step with
    | some o, some r => if r.posted then s.endStep o step else s
    | some o, none => s.settleColl o
    | _, _ => s

/-- MOULT_STEP_DONE (R529, step 4): every write of the step is visible, and its post goes out. -/
def execMoultStepDone (step : Nat) (s : State) : Res :=
  match s.collOp with
  | none => .next s
  | some o =>
    match s.coll.flying.find? fun r => r.idx == step with
    | none => .next s
    | some r =>
      if s.safety.safe || r.waiting || r.pos < stBytes r.bytes || s.writing (.step step) then .next s else
      let w := stPost r.bytes
      if !bit w 15 then .next (s.endStep o step)
      else if stPostDev r.bytes = s.devId then
        let p := (s.counted .coll).post (stSem w) 1
        if p.1 then .next (p.2.endStep o step) else .next ((p.2.stepFail step Sc.overrun).settleColl o)
      else match s.portFor (stPostDev r.bytes) (bits w 0 11) with
        | none => .next ((s.stepFail step Sc.linkAbsent).settleColl o)
        | some p =>
          match s.send (postPacket .coll (unitNode (unitOf 6 p)) (stPostDev r.bytes) (stSem w) 1) (.step step) with
          | some s => .next (s.setFlying { r with posted := true })
          | none => .next s

/-- MOULT_STEP_TIMEOUT (R532, R292): the step's wait has reached its limit; the table answers TIMEOUT, which fails the step. -/
def execMoultStepTimeout (step : Nat) (s : State) : Res :=
  match s.coll.flying.find? fun r => r.idx == step, s.waitOf .coll with
  | some r, some w => occ (!s.safety.safe && r.waiting && (tmoNs w.tmo).any (s.passed w.sinceNs)) s (s.answerWait w Sc.timeout)
  | _, _ => .next s

/-! Epoch domains. -/

/-- EPOCH_TIMER_TICK (R534): device time reaches a multiple of a TIMER domain's period. -/
def execEpochTimerTick (d : Nat) (s : State) : Res :=
  let x := s.epoch d
  occ (decide (d < 32) && decide (2 ≤ s.stage) && !s.safety.safe && s.edSource d == 2 && s.timeNs % (s.edArg d * 1000) == 0 &&
    x.tickNs != s.timeNs) s ((s.setEpoch d { x with tickNs := s.timeNs }).trigger d)

/-- EPOCH_IN_EDGE (R534): every domain whose source the pin is takes a trigger. -/
def execEpochInEdge (n : Nat) (s : State) : Res :=
  occ (decide (n < 4) && decide (2 ≤ s.stage) && !s.safety.safe) s (s.triggerSource 5 n)

/-- EPOCH_OUT_PULSE_END (R541): the pin goes low 100 ns after the last C3. -/
def execEpochOutPulseEnd (n : Nat) (s : State) : Res :=
  occ (SMap.get 0 s.ep.outLow n ≠ 0 && s.passed 0 (SMap.get 0 s.ep.outLow n - 1)) s
    ({ s with ep := { s.ep with outLow := SMap.set 0 s.ep.outLow n 0 } }.emit (.epochOut n false))

/-- EPOCH_OUT[n] goes high, or stays high, at a C3 of the domain it names (R541). -/
def State.pulseOut (s : State) (d : Nat) : State :=
  (List.range 4).foldl (fun s n =>
    if s.obj (Obj.EPOCH_OUT_SEL n) = d then
      let s := if SMap.get 0 s.ep.outLow n = 0 then s.emit (.epochOut n true) else s
      { s with ep := { s.ep with outLow := SMap.set 0 s.ep.outLow n (s.timeNs + 100 + 1) } }
    else s) s

/-- Bounds of ED_SOURCE_ARG for a source (Table 13.5). -/
def edArgOk (src v : Nat) : Bool :=
  match src with
  | 2 => decide (10 ≤ v) && decide (v ≤ 1000000)
  | 3 => decide (v ≤ 7)
  | 4 => decide (v ≤ 15)
  | 5 => decide (v ≤ 3)
  | 6 => decide (v ≤ 255)
  | 7 => decide (v ≤ 31)
  | _ => true

/-- A write of ED_SOURCE or ED_SOURCE_ARG is checked with the other value as it stands (R534; DEDUCED, log 21). -/
def State.checkEdSource (s : State) (d v : Nat) : Nat :=
  if 7 < v then Sc.reservedNonzero else if edArgOk v (s.edArg d) then Sc.ok else Sc.boundViolation
def State.checkEdArg (s : State) (d v : Nat) : Nat := if edArgOk (s.edSource d) v then Sc.ok else Sc.boundViolation

/-- EPOCH_MARK_MGMT (R540). -/
def State.checkEpochMark (s : State) (v : Nat) : Nat :=
  if 31 < v then Sc.boundViolation else if s.edSource v = 1 then Sc.ok else Sc.accessDenied

/-- UNIT_DOMAIN (R539): in effect at once, or at C3 of a commit of either domain. -/
def State.applyUnitDomain (s : State) (u v : Nat) : State :=
  if s.held u || (s.epoch v).commit != .idle then
    { s with ep := { s.ep with moves := (s.ep.moves.filter fun m => m.1 ≠ u) ++ [(u, v)] } }
  else s.setObj (Obj.UNIT_DOMAIN (unitClass u) (unitIndex u)) v

end Sys2Proof.Machine
end

