-- ==== Sys2Proof/Machine/Cipher.lean ====
section
/-!
DEFINITION. Cipher arithmetic tiles (chapter 14): modulus chains, objects and their headers, the CXOP functions, and the DRBG.
-/
namespace Sys2Proof.Machine

/-! Arithmetic modulo q. -/

/-- Barrett reduction as R556 writes it, with k the bit length of q. -/
def barrett (q x : Nat) : Nat :=
  let k := Nat.log2 q + 1
  let mu := 2 ^ (2 * k) / q
  let q3 := x / 2 ^ (k - 1) * mu / 2 ^ (k + 1)
  let r := (x + 2 ^ 64 * (q3 + 1) - q3 * q) % 2 ^ 64
  let r := if q ≤ r then r - q else r
  if q ≤ r then r - q else r

def mulMod (q a b : Nat) : Nat := a * b % q
def subMod (q a b : Nat) : Nat := (a + q - b) % q

/-- b^(2^n) mod q by squaring. -/
def squarings (q : Nat) : Nat → Nat → Nat
  | 0, b => b % q
  | n + 1, b => squarings q n (b * b % q)

/-- b^e mod q for e below 2^n. -/
def powMod (q b e : Nat) : Nat → Nat
  | 0 => 1 % q
  | n + 1 => let h := powMod q b (e / 2) n; if e % 2 = 1 then h * h % q * b % q else h * h % q

/-- The powers b^0 to b^(n - 1) mod q. -/
def powers (q b : Nat) : Nat → Nat → List Nat
  | 0, _ => []
  | n + 1, p => p :: powers q b n (p * b % q)

/-- Extended Euclid: the coefficient of the second argument, as an integer. -/
def euclid : Nat → Int → Int → Int → Int → Int
  | 0, _, _, _, t => t
  | f + 1, a, b, t0, t1 => if b = 0 then t0 else euclid f b (a % b) t1 (t0 - a / b * t1)

/-- The inverse of a modulo m, where they are coprime. -/
def modInv (m a : Nat) : Nat := (euclid 200 m (a % m : Nat) 0 1 % m).toNat

/-- Reverse the n low bits (R563). -/
def brv : Nat → Nat → Nat
  | 0, _ => 0
  | n + 1, j => j % 2 * 2 ^ n + brv n (j / 2)

/-! Chains. -/

def State.chain (s : State) (c : Nat) : Chain := SMap.get {} s.cat.chains c
def State.setChain (s : State) (c : Nat) (x : Chain) : State := { s with cat := { s.cat with chains := SMap.set {} s.cat.chains c x } }

def Chain.valid (x : Chain) : Bool := bit x.ctrl 63
def Chain.open_ (x : Chain) : Bool := x.valid && x.closing == 0
def Chain.nLog2 (x : Chain) : Nat := bits x.ctrl 0 5
def Chain.count (x : Chain) : Nat := bits x.ctrl 8 6
def Chain.special (x : Chain) : Nat := bits x.ctrl 16 6
def Chain.qAt (x : Chain) (r : Nat) : Nat := SMap.get 0 x.q r
def Chain.psiAt (x : Chain) (r : Nat) : Nat := SMap.get 0 x.psi r

/-- Whether modulus r of a chain fails R553 for a ring of dimension 2^n. -/
def Chain.badModulus (x : Chain) (n r : Nat) : Bool :=
  let q := x.qAt r
  decide (q ≤ 2 ^ 31) || decide (2 ^ 60 ≤ q) || q % 2 == 0 || q % 2 ^ (n + 1) ≠ 1 || decide (q ≤ x.psiAt r) ||
  squarings q n (x.psiAt r) ≠ q - 1 || (List.range r).any fun i => Nat.gcd (x.qAt i) q ≠ 1

/-- The status of a write of CHAIN_CTRL with VALID 1 and the failing modulus index (R553). -/
def Chain.check (x : Chain) (v : Nat) : Nat × Nat :=
  let n := bits v 0 5
  let count := bits v 8 6
  if bits v 22 41 ≠ 0 || bits v 14 2 ≠ 0 || bits v 5 3 ≠ 0 then (Sc.reservedNonzero, 0)
  else if n < 10 || 16 < n || count < 1 || 48 < count || count ≤ bits v 16 6 then (Sc.boundViolation, 0)
  else match (List.range count).find? (x.badModulus n) with
    | some r => (Sc.boundViolation, r)
    | none => (Sc.ok, 0)

/-- A rejected chain write (R553): CHAIN_STATUS and CHAIN_REJECTS. -/
def State.chainReject (s : State) (c r st : Nat) : State :=
  { s with cat := { s.cat with status := st + r * 2 ^ 8 + c * 2 ^ 16 } }.bump Obj.CHAIN_REJECTS

/-- The chain an operation names: XS1's, or IMM's for TWGEN (Table 14.4); share operations name none. -/
def State.opChain (s : State) (o : UnitOp) : Option Nat :=
  let c : Cmd := { w0 := o.w0, w1 := o.w1 }
  if o.opcode ≠ 0x32 || 0x30 ≤ cFunc c then none
  else if cFunc c = 0x18 then some (bits (cImm c) 0 4)
  else
    let h := s.rawRead (storeBase o.seq + o.reg (cXs1 c)) 32
    if fieldLE h 0 4 = 0xCA700001 then some (fieldLE h 8 2) else none

/-- Operations that have started and name a chain. -/
def State.chainBusy (s : State) (c : Nat) : Bool :=
  s.seqs.any fun e => decide (96 ≤ e.1) && decide (e.1 < 104) && e.2.queue.any fun o => s.opChain o == some c

/-- A write of CHAIN_CTRL (R553, R554): the answer's status. -/
def State.chainCtrl (s : State) (c v : Nat) : Nat × State :=
  let x := s.chain c
  if bit v 63 then
    let r := x.check v
    if r.1 ≠ 0 then (r.1, s.chainReject c r.2 r.1)
    else (Sc.ok, s.setChain c { x with ctrl := v, closing := 0, loadedQ := x.q, loadedPsi := x.psi, loadedN := bits v 0 5 })
  else if bits v 22 41 ≠ 0 || bits v 14 2 ≠ 0 || bits v 5 3 ≠ 0 then (Sc.reservedNonzero, s.chainReject c 0 Sc.reservedNonzero)
  else
    if x.valid && s.chainBusy c then (Sc.ok, s.setChain c { x with closing := v + 1 })
    else (Sc.ok, s.setChain c { x with ctrl := v, closing := 0 })

/-- A write of MOD_Q or MOD_PSI (R554). -/
def State.chainModulus (s : State) (c r : Nat) (psi : Bool) (v : Nat) : Nat × State :=
  let x := s.chain c
  let st := firstFail [(bits v 60 4 ≠ 0, Sc.reservedNonzero), (x.valid, Sc.accessDenied)]
  if st ≠ 0 then (st, s.chainReject c r st)
  else (Sc.ok, s.setChain c (if psi then { x with psi := SMap.set 0 x.psi r v } else { x with q := SMap.set 0 x.q r v }))

/-- The chain table answers from S2 and not in the safe state. -/
def State.chainUp (s : State) : Bool := decide (2 ≤ s.stage) && !s.safety.safe

def execChainCtrlWrite (c value : Nat) (s : State) : Res :=
  occ (s.chainUp && decide (c < 16)) s (s.chainCtrl c (value % 2 ^ 64)).2

/-- CHAIN_INVALIDATE_DONE (R554): the started operations have completed. -/
def execChainInvalidateDone (c : Nat) (s : State) : Res :=
  let x := s.chain c
  occ (decide (c < 16) && x.closing != 0 && !(s.chainBusy c)) s (s.setChain c { x with ctrl := x.closing - 1, closing := 0 })

/-! Headers. -/

/-- A polynomial object header (Table 14.1). -/
structure PHdr where
  magic : Nat
  nLog2 : Nat
  lvl : Nat
  scale : Nat
  chain : Nat
  polys : Nat
  form : Nat
  first : Nat
  count : Nat
  flags : Nat
  user : Nat
  rsv : Nat
deriving DecidableEq, Repr

def polyHdr (bs : List Byte) : PHdr :=
  { magic := fieldLE bs 0 4, nLog2 := fieldLE bs 4 1, lvl := fieldLE bs 5 1, scale := fieldLE bs 6 2, chain := fieldLE bs 8 2,
    polys := fieldLE bs 10 1, form := fieldLE bs 11 1, first := fieldLE bs 12 1, count := fieldLE bs 13 1,
    flags := fieldLE bs 14 2, user := fieldLE bs 16 8, rsv := fieldLE bs 24 8 }

def PHdr.bytes (h : PHdr) : List Byte :=
  leBytes 4 h.magic ++ leBytes 1 h.nLog2 ++ leBytes 1 h.lvl ++ leBytes 2 h.scale ++ leBytes 2 h.chain ++ leBytes 1 h.polys ++
  leBytes 1 h.form ++ leBytes 1 h.first ++ leBytes 1 h.count ++ leBytes 2 h.flags ++ leBytes 8 h.user ++ leBytes 8 h.rsv

def PHdr.n (h : PHdr) : Nat := 2 ^ h.nLog2
def PHdr.level (h : PHdr) : Nat := bits h.lvl 0 6
def PHdr.ext (h : PHdr) : Bool := bit h.flags 0
/-- Bytes of the object (R550). -/
def PHdr.size (h : PHdr) : Nat := 32 + 8 * h.polys * h.count * h.n
/-- The part ends with the residue of the level. -/
def PHdr.hasTop (h : PHdr) : Bool := !h.ext && h.first ≤ h.level && h.level < h.first + h.count

/-- A share vector header (Table 14.2). -/
structure SHdr where
  magic : Nat
  ring : Nat
  parties : Nat
  mask : Nat
  rsv1 : Nat
  modulus : Nat
  count : Nat
  rsv2 : Nat
  user : Nat
deriving DecidableEq, Repr

def shareHdr (bs : List Byte) : SHdr :=
  { magic := fieldLE bs 0 4, ring := fieldLE bs 4 1, parties := fieldLE bs 5 1, mask := fieldLE bs 6 1, rsv1 := fieldLE bs 7 1,
    modulus := fieldLE bs 8 8, count := fieldLE bs 16 4, rsv2 := fieldLE bs 20 4, user := fieldLE bs 24 8 }

def SHdr.bytes (h : SHdr) : List Byte :=
  leBytes 4 h.magic ++ leBytes 1 h.ring ++ leBytes 1 h.parties ++ leBytes 1 h.mask ++ leBytes 1 h.rsv1 ++ leBytes 8 h.modulus ++
  leBytes 4 h.count ++ leBytes 4 h.rsv2 ++ leBytes 8 h.user

def SHdr.size (h : SHdr) : Nat := cdiv (32 + 8 * h.count) 32 * 32
/-- Every party's bit is set: a value known to all. -/
def SHdr.isPublic (h : SHdr) : Bool := h.mask == 2 ^ h.parties - 1
/-- The modulus of an element. -/
def SHdr.mod (h : SHdr) : Nat := if h.ring = 0 then 2 ^ 64 else h.modulus

/-- The faults of one polynomial header by itself (R551, R552). -/
def State.polyFaults (s : State) (h : PHdr) : List Nat :=
  let x := s.chain h.chain
  (if h.magic ≠ 0xCA700001 || bits h.lvl 6 2 ≠ 0 || 15 < h.chain || h.polys < 1 || 4 < h.polys || 1 < h.form ||
      bits h.flags 1 15 ≠ 0 || h.rsv ≠ 0 then [Sc.reservedNonzero] else []) ++
  (if !x.open_ then [Sc.accessDenied]
   else
     let top := x.count - x.special
     if top ≤ h.level || h.nLog2 ≠ x.nLog2 || h.count = 0 ||
        (if h.ext then h.first < top || x.count < h.first + h.count else h.level < h.first + h.count - 1) then
       [Sc.boundViolation] else [])

/-- The faults of one share header by itself (R551, R552). -/
def shareFaults (h : SHdr) : List Nat :=
  (if h.magic ≠ 0xCA700002 || 1 < h.ring || (h.parties ≠ 2 && h.parties ≠ 3) || h.mask = 0 || 2 ^ h.parties ≤ h.mask ||
      h.rsv1 ≠ 0 || h.rsv2 ≠ 0 || (h.ring = 0 && h.modulus ≠ 0) then [Sc.reservedNonzero] else []) ++
  (if h.ring = 1 && (h.modulus % 2 = 0 || h.modulus ≤ 2 ^ 31 || 2 ^ 60 ≤ h.modulus) then [Sc.boundViolation] else [])

/-- The fault reported of several, in the order of R26. -/
def worstFault (l : List Nat) : Nat :=
  ([Sc.illegalOp, Sc.reservedNonzero, Sc.unitDisabled, Sc.boundViolation, Sc.alignment, Sc.apertureMiss, Sc.accessDenied,
    Sc.levelMismatch, Sc.levelUnderflow].find? l.contains).getD 0

/-! Operands. -/

def catStore : Nat := 0x800000

/-- Objects that follow one another, as (offset, header bytes), and whether they stay inside the store. `size` gives a
header's object size. -/
def State.objects (s : State) (u : Nat) (size : List Byte → Nat) : Nat → Nat → List (Nat × List Byte) × Bool
  | 0, _ => ([], true)
  | n + 1, off =>
    if catStore < off + 32 then ([], false) else
    let h := s.rawRead (storeBase u + off) 32
    if catStore < off + size h then ([(off, h)], false) else
    let r := s.objects u size n (off + size h)
    ((off, h) :: r.1, r.2)

/-- At most this many objects of 32 bytes fit a store. -/
def maxObjects : Nat := 262145

def State.polys (s : State) (u n off : Nat) : List (Nat × PHdr) × Bool :=
  let r := s.objects u (fun h => (polyHdr h).size) (min n maxObjects) off
  (r.1.map fun x => (x.1, polyHdr x.2), r.2)

def State.shares (s : State) (u n off : Nat) : List (Nat × SHdr) × Bool :=
  let r := s.objects u (fun h => (shareHdr h).size) (min n maxObjects) off
  (r.1.map fun x => (x.1, shareHdr x.2), r.2)

/-- Offsets of consecutive objects of given sizes. -/
def offsetsOf : Nat → List Nat → List Nat
  | _, [] => []
  | o, n :: r => o :: offsetsOf (o + n) r

/-- Two regions (offset, bytes) overlap. -/
def regionsMeet (a b : Nat × Nat) : Bool := decide (a.1 < b.1 + b.2) && decide (b.1 < a.1 + a.2)

/-! The functions (Tables 14.4 and 14.5). -/

def cxMayUseXp (f : Nat) : Bool := f == 4 || f == 8 || f == 9 || f == 0x10 || f == 0x20
def cxIsShare (f : Nat) : Bool := 0x30 ≤ f && f ≤ 0x34
/-- Reserved values of the word itself (R548, Table 14.4). -/
def cxReserved (c : Cmd) : Bool :=
  let f := cFunc c
  let imm := cImm c
  !cxDefined f || cType c ≠ 0 || cRsv c ≠ 0 || (!cxUsesXs1 f && cXs1 c ≠ 0) || (!cxUsesXs2 f && cXs2 c ≠ 0) ||
  (!cxMayUseXp f && cXp c ≠ 0) ||
  (if f = 6 then bits imm 6 2 ≠ 0 || bits imm 14 18 ≠ 0
   else if f = 0xA then bits imm 17 15 ≠ 0
   else if f = 0x10 then bits imm 16 16 ≠ 0
   else if f = 0x18 then bits imm 4 4 ≠ 0 || bits imm 14 18 ≠ 0
   else imm ≠ 0)

/-- The output header of a polynomial function (R558, R560, Table 14.5). -/
def cxOut (f imm : Nat) (a b : PHdr) : PHdr :=
  let dropTop (h : PHdr) : PHdr := { h with lvl := h.lvl - 1, count := if h.hasTop then h.count - 1 else h.count }
  if f = 1 || f = 2 then { a with polys := max a.polys b.polys }
  else if f = 3 then
    { a with polys := if a.polys = 2 && b.polys = 2 then 3 else max a.polys b.polys, scale := (a.scale + b.scale) % 2 ^ 16 }
  else if f = 6 then { a with first := bits imm 0 6, count := bits imm 8 6 }
  else if f = 8 then { a with form := 1 }
  else if f = 9 then { a with form := 0 }
  else if f = 0x10 then { dropTop a with scale := (a.scale + 2 ^ 16 - bits imm 0 16) % 2 ^ 16 }
  else if f = 0x11 then dropTop a
  else a

/-- The faults of one object's operands together (Table 14.5, R552, R558, R561, R562, R564). -/
def cxPairFaults (f imm : Nat) (a b : PHdr) : List Nat :=
  let differ := (if a.chain ≠ b.chain || a.level ≠ b.level then [Sc.levelMismatch] else [])
  let parts := (if a.first ≠ b.first || a.count ≠ b.count || a.ext ≠ b.ext || a.nLog2 ≠ b.nLog2 then [Sc.boundViolation] else [])
  if f = 1 || f = 2 then differ ++ parts ++ (if a.form ≠ b.form then [Sc.reservedNonzero] else [])
  else if f = 3 then
    differ ++ parts ++
    (if a.form ≠ 1 || b.form ≠ 1 || !(a.polys = 1 || b.polys = 1 || (a.polys = 2 && b.polys = 2)) then [Sc.reservedNonzero] else [])
  else if f = 6 then
    (if bits imm 0 6 < a.first || a.first + a.count < bits imm 0 6 + bits imm 8 6 || bits imm 8 6 = 0 then [Sc.boundViolation] else [])
  else if f = 8 then (if a.form ≠ 0 then [Sc.reservedNonzero] else [])
  else if f = 9 then (if a.form ≠ 1 then [Sc.reservedNonzero] else [])
  else if f = 0xA then (if imm % 2 = 0 || 2 * a.n ≤ imm then [Sc.boundViolation] else [])
  else if f = 0x10 then
    differ ++ (if a.level = 0 then [Sc.levelUnderflow] else []) ++ (if b.form ≠ 0 then [Sc.reservedNonzero] else []) ++
    (if a.ext || b.ext || b.first ≠ a.level || b.count ≠ 1 || a.polys ≠ b.polys || a.nLog2 ≠ b.nLog2 ||
        (cxOut f imm a b).count = 0 then [Sc.boundViolation] else [])
  else if f = 0x11 then
    (if a.level = 0 then [Sc.levelUnderflow] else []) ++ (if (cxOut f imm a b).count = 0 then [Sc.boundViolation] else [])
  else []

/-- The faults of two share vectors together (R552, R561, R565). -/
def sharePairFaults (f : Nat) (a b : SHdr) : List Nat :=
  (if a.parties ≠ b.parties then [Sc.reservedNonzero] else []) ++ (if a.count ≠ b.count then [Sc.boundViolation] else []) ++
  (if a.ring ≠ b.ring || a.modulus ≠ b.modulus then [Sc.levelMismatch] else []) ++
  (if (f = 0x30 && a.mask ≠ b.mask && Nat.land a.mask b.mask ≠ 0) || (f = 0x31 && a.mask ≠ b.mask) ||
      (f = 0x32 && !a.isPublic && !b.isPublic) || (f = 0x33 && !b.isPublic) then [Sc.reservedNonzero] else [])

/-- The mask a share function writes (R565). -/
def shareMask (f : Nat) (a b : SHdr) : Nat :=
  if f = 0x30 then Nat.lor a.mask b.mask
  else if f = 0x32 then (if a.isPublic then b.mask else a.mask)
  else a.mask

/-- Whether an operation uses a twiddle block: transforms always, RESCALE in NTT form. -/
def cxTwiddles (f : Nat) (a : PHdr) : Bool := f == 8 || f == 9 || (f == 0x10 && a.form == 1)

/-- The moduli whose tables an operation on an object uses. -/
def cxModuli (f imm : Nat) (a b : PHdr) : List Nat :=
  let h := if f = 0x10 then cxOut f imm a b else a
  (List.range h.count).map (h.first + ·)

/-- Planes of LIMB_SPLIT for an object of `len` elements, `pc` residues and n coefficients, as (offset, bytes). -/
def limbRegions (xd ps rs mode len pc n o : Nat) : List (Nat × Nat) :=
  (List.range 8).map fun b =>
    (xd + (o * 8 + b) * ps, if mode = 1 then (n - 1) * rs + pc else len)

/-- The work of one CXOP as its headers give it: sources, results and parameters as regions, and every fault. -/
structure CxPlan where
  faults : List Nat
  sources : List (Nat × Nat)
  results : List (Nat × Nat)
  params : List (Nat × Nat)
  headers : List Nat

/-- A block of tables: the pairs that a twiddle block names for moduli of an object. -/
def State.pairRegions (s : State) (u xp n : Nat) (ms : List Nat) : List (Nat × Nat) :=
  ms.map fun m => (fieldLE (s.rawRead (storeBase u + xp + 4 * m) 4) 0 4, 16 * n)

/-- Everything a CXOP is checked for before it starts (R548 to R552, R557 to R565, R568). -/
def State.cxPlan (s : State) (u : Nat) (reg : Nat → Nat) (c : Cmd) : CxPlan :=
  let f := cFunc c
  let imm := cImm c
  let xd := reg (cXd c)
  let xp := reg (cXp c)
  let outside (rs : List (Nat × Nat)) : List Nat := if rs.any (fun r => decide (catStore < r.1 + r.2)) then [Sc.boundViolation] else []
  let crossed (srcs res pars : List (Nat × Nat)) (same : List Nat) : List Nat :=
    if res.any (fun r => pars.any (regionsMeet r) || srcs.any fun x => regionsMeet r x && !(same.contains x.1)) then [Sc.boundViolation] else []
  let al (vs : List Nat) : List Nat := if vs.any (fun v => v % 32 ≠ 0) then [Sc.alignment] else []
  if f = 0x18 then
    let x := s.chain (bits imm 0 4)
    let res := [(xd, cCount c * 16 * 2 ^ x.nLog2)]
    { faults := (if !x.open_ then [Sc.accessDenied] else if x.count < bits imm 8 6 + cCount c then [Sc.boundViolation] else []) ++ outside res,
      sources := [], results := res, params := [], headers := [] }
  else if f = 0x34 then
    let d := s.shares u (cCount c) xd
    { faults := d.1.flatMap (fun x => shareFaults x.2) ++ (if d.2 then [] else [Sc.boundViolation]) ++ al [xd],
      sources := [], results := d.1.map fun x => (x.1, x.2.size), params := [], headers := d.1.map (·.1) }
  else if cxIsShare f then
    let a := s.shares u (cCount c) (reg (cXs1 c))
    let b := s.shares u (cCount c) (reg (cXs2 c))
    let srcA := a.1.map fun x => (x.1, x.2.size)
    let srcB := b.1.map fun x => (x.1, x.2.size)
    let res := (offsetsOf xd (srcA.map (·.2))).zip (srcA.map (·.2))
    let same := (if xd = reg (cXs1 c) then srcA.map (·.1) else []) ++ (if xd = reg (cXs2 c) then srcB.map (·.1) else [])
    { faults := a.1.flatMap (fun x => shareFaults x.2) ++ b.1.flatMap (fun x => shareFaults x.2) ++
        ((a.1.zip b.1).flatMap fun x => sharePairFaults f x.1.2 x.2.2) ++ (if a.2 && b.2 then [] else [Sc.boundViolation]) ++
        outside res ++ crossed (srcA ++ srcB) res [] same ++ al [xd, reg (cXs1 c), reg (cXs2 c)],
      sources := srcA ++ srcB, results := res, params := [], headers := a.1.map (·.1) ++ b.1.map (·.1) }
  else if f = 0x20 && fieldLE (s.rawRead (storeBase u + reg (cXs1 c)) 4) 0 4 = 0xCA700002 then
    let a := s.shares u (cCount c) (reg (cXs1 c))
    let blk := s.rawRead (storeBase u + xp) 16
    let mode := fieldLE blk 8 1
    let src := a.1.map fun x => (x.1, x.2.size)
    let res := a.1.zipIdx.flatMap fun x => limbRegions xd (fieldLE blk 0 4) 0 0 x.1.2.count 0 0 x.2
    { faults := a.1.flatMap (fun x => shareFaults x.2) ++ (if a.2 then [] else [Sc.boundViolation]) ++
        (if mode ≠ 0 || fieldLE blk 9 7 ≠ 0 || fieldLE blk 4 4 ≠ 0 then [Sc.reservedNonzero] else []) ++
        (if fieldLE blk 0 4 % 16 ≠ 0 then [Sc.alignment] else []) ++ outside ((xp, 16) :: res) ++ crossed src res [(xp, 16)] [] ++
        al [reg (cXs1 c), xp],
      sources := src, results := res, params := [(xp, 16)], headers := a.1.map (·.1) }
  else
    let a := s.polys u (cCount c) (reg (cXs1 c))
    let b := if cxUsesXs2 f then s.polys u (cCount c) (reg (cXs2 c)) else (a.1, true)
    let pairs := (a.1.zip b.1).map fun x => (x.1.2, x.2.2)
    let srcA := a.1.map fun x => (x.1, x.2.size)
    let srcB := if cxUsesXs2 f then b.1.map fun x => (x.1, x.2.size) else []
    let heads := a.1.map (·.1) ++ (if cxUsesXs2 f then b.1.map (·.1) else [])
    let own := a.1.flatMap (fun x => s.polyFaults x.2) ++ (if cxUsesXs2 f then b.1.flatMap fun x => s.polyFaults x.2 else []) ++
      pairs.flatMap (fun x => cxPairFaults f imm x.1 x.2) ++ (if a.2 && b.2 then [] else [Sc.boundViolation])
    if f = 0x20 then
      let blk := s.rawRead (storeBase u + xp) 16
      let mode := fieldLE blk 8 1
      let ps := fieldLE blk 0 4
      let rs := fieldLE blk 4 4
      let res := a.1.zipIdx.flatMap fun x =>
        limbRegions xd ps rs mode (x.1.2.polys * x.1.2.count * x.1.2.n) x.1.2.count x.1.2.n x.2
      { faults := own ++
          (if 1 < mode || fieldLE blk 9 7 ≠ 0 || (mode = 0 && rs ≠ 0) || (mode = 1 && a.1.any fun x => x.2.polys ≠ 1) then [Sc.reservedNonzero] else []) ++
          (if ps % 16 ≠ 0 || rs % 16 ≠ 0 then [Sc.alignment] else []) ++
          (if mode = 1 && (a.1.any fun x => decide (rs < x.2.count)) then [Sc.boundViolation] else []) ++
          outside ((xp, 16) :: res) ++ crossed srcA res [(xp, 16)] [] ++ al [reg (cXs1 c), xp],
        sources := srcA, results := res, params := [(xp, 16)], headers := heads }
    else
      let outs := pairs.map fun x => (cxOut f imm x.1 x.2).size
      let res := (offsetsOf xd outs).zip outs
      let tw := pairs.filter fun x => cxTwiddles f x.1
      let par : List (Nat × Nat) :=
        if f = 4 then [(xp, 384)]
        else if tw.isEmpty then []
        else (xp, 192) :: tw.flatMap fun x => s.pairRegions u xp x.1.n (cxModuli f imm x.1 x.2)
      let inPlace := f == 1 || f == 2 || f == 4 || f == 5 || f == 0x11 || f == 8 || f == 9 ||
        (f == 3 && pairs.all fun x => x.1.polys == 1 || x.2.polys == 1)
      let same := if inPlace then
          (if xd = reg (cXs1 c) then srcA.map (·.1) else []) ++ (if xd = reg (cXs2 c) && cxUsesXs2 f then srcB.map (·.1) else [])
        else []
      let noBlock := f == 0x10 && tw.isEmpty && cXp c ≠ 0
      { faults := own ++ (if noBlock then [Sc.reservedNonzero] else []) ++ outside (res ++ par) ++ crossed (srcA ++ srcB) res par same ++
          al ([xd, reg (cXs1 c)] ++ (if cxUsesXs2 f then [reg (cXs2 c)] else []) ++ par.map (·.1)),
        sources := srcA ++ srcB, results := res, params := par, headers := heads }

/-! Transforms (R563). -/

/-- One stage of the forward network: m blocks of 2t positions. -/
def fwdStage (q : Nat) (tab a : List Nat) (m t : Nat) : List Nat :=
  (List.range m).flatMap fun i =>
    let w := tab.getD (m + i) 0
    let u := (a.drop (2 * i * t)).take t
    let v := ((a.drop (2 * i * t + t)).take t).map fun x => mulMod q x w
    List.zipWith (fun x y => (x + y) % q) u v ++ List.zipWith (subMod q) u v

/-- One stage of the inverse network: h blocks of 2t positions. -/
def invStage (q : Nat) (tab a : List Nat) (h t : Nat) : List Nat :=
  (List.range h).flatMap fun i =>
    let w := tab.getD (h + i) 0
    let u := (a.drop (2 * i * t)).take t
    let v := (a.drop (2 * i * t + t)).take t
    List.zipWith (fun x y => (x + y) % q) u v ++ List.zipWith (fun x y => mulMod q (subMod q x y) w) u v

def nttStages (q : Nat) (tab : List Nat) (n : Nat) : Nat → List Nat → List Nat
  | 0, a => a
  | k + 1, a => nttStages q tab n k (fwdStage q tab a (2 ^ (n - (k + 1))) (2 ^ k))

def inttStages (q : Nat) (tab : List Nat) (n : Nat) : Nat → List Nat → List Nat
  | 0, a => a
  | k + 1, a => inttStages q tab n k (invStage q tab a (2 ^ k) (2 ^ (n - (k + 1))))

/-- The forward transform of a residue with table F. -/
def nttFwd (q n : Nat) (tab a : List Nat) : List Nat := nttStages q tab n n a

/-- The inverse transform with table G, scaled by N^(-1). -/
def nttInv (q n : Nat) (tab a : List Nat) : List Nat := (inttStages q tab n n a).map fun x => mulMod q x (q - (q - 1) / 2 ^ n)

/-- The automorphism x to x^g of a residue (R564). -/
def autoPoly (q n g form : Nat) (a : List Nat) : List Nat :=
  let n2 := 2 ^ (n + 1)
  if form = 0 then
    let gi := modInv n2 g
    (List.range (2 ^ n)).map fun p =>
      let c := p * gi % n2
      if c < 2 ^ n then a.getD c 0 else subMod q 0 (a.getD (c - 2 ^ n) 0)
  else (List.range (2 ^ n)).map fun j => a.getD (brv n (((2 * brv n j + 1) * g % n2 - 1) / 2)) 0

/-! Running a CXOP. -/

/-- Words of a list of bytes. -/
def words64 (bs : List Byte) : List Nat := (List.range (bs.length / 8)).map fun i => fieldLE bs (8 * i) 8

/-- The residues of an object's data, polynomial by polynomial, each taken modulo its modulus; and whether any was not below
it (R550, R555). -/
def readResidues (x : Chain) (h : PHdr) (data : List Nat) : List (List (List Nat)) × Bool :=
  let one (g r : Nat) : List Nat := (data.drop ((g * h.count + r) * h.n)).take h.n
  ((List.range h.polys).map fun g => (List.range h.count).map fun r => (one g r).map (· % x.qAt (h.first + r)),
   (List.range h.polys).any fun g => (List.range h.count).any fun r => (one g r).any fun v => decide (x.qAt (h.first + r) ≤ v))

/-- A residue of a parsed object, zeros where it holds none. -/
def resid (ps : List (List (List Nat))) (n g r : Nat) : List Nat := (ps.getD g []).getD r (List.replicate n 0)

/-- A table of a pair: F first, then G (R563). -/
def State.table (s : State) (u xp n m : Nat) (inv : Bool) : List Nat :=
  let off := fieldLE (s.rawRead (storeBase u + xp + 4 * m) 4) 0 4
  words64 (s.rawRead (storeBase u + off + (if inv then 8 * n else 0)) (8 * n))

/-- The output polynomials of a function on one object: by polynomial, by residue (R558, R562 to R564). -/
def State.polyResult (s : State) (u f imm xp : Nat) (x : Chain) (a b out : PHdr) (pa pb : List (List (List Nat))) :
    List (List (List Nat)) :=
  let n := a.n
  (List.range out.polys).map fun g => (List.range out.count).map fun r =>
    let m := out.first + r
    let q := x.qAt m
    let av := resid pa n g r
    let bv := resid pb n g r
    if f = 1 then List.zipWith (fun v w => (v + w) % q) av bv
    else if f = 2 then List.zipWith (subMod q) av bv
    else if f = 3 then
      let mul (i j : Nat) : List Nat := List.zipWith (mulMod q) (resid pa n i r) (resid pb n j r)
      if a.polys = 2 && b.polys = 2 then
        (if g = 0 then mul 0 0 else if g = 1 then List.zipWith (fun v w => (v + w) % q) (mul 0 1) (mul 1 0) else mul 1 1)
      else if a.polys = 1 then mul 0 g else mul g 0
    else if f = 4 then
      let k := fieldLE (s.rawRead (storeBase u + xp + 8 * m) 8) 0 8 % q
      av.map (mulMod q k)
    else if f = 5 then av.map (subMod q 0)
    else if f = 6 then resid pa n g (m - a.first)
    else if f = 8 then nttFwd q a.nLog2 (s.table u xp n m false) av
    else if f = 9 then nttInv q a.nLog2 (s.table u xp n m true) av
    else if f = 0xA then autoPoly q a.nLog2 imm a.form av
    else if f = 0x10 then
      let ql := x.qAt a.level
      let d := (resid pb n g 0).map fun c => if c ≤ (ql - 1) / 2 then c % q else subMod q (c % q) (ql % q)
      let d := if a.form = 1 then nttFwd q a.nLog2 (s.table u xp n m false) d else d
      let qi := modInv q ql
      List.zipWith (fun v w => mulMod q (subMod q v w) qi) av d
    else av

/-- TCLK cycles of an object (Table 14.8). -/
def State.cxCycles (s : State) (f : Nat) (a out : PHdr) : Nat :=
  let tr := if s.obj Obj.NTT_RADIX = 1 then 2 else 1
  let v := out.polys * out.count * a.n
  let net := out.polys * out.count * (tr * cdiv (a.n * a.nLog2) 512)
  if f = 3 then 20 + cdiv ((if out.polys = 3 && a.polys = 2 then 4 else out.polys) * out.count * a.n) 256
  else if f = 8 || f = 9 then 40 + net
  else if f = 0xA then 20 + cdiv v 128
  else if f = 0x10 then 40 + out.polys * out.count * cdiv a.n 128 + (if a.form = 1 then net else 0)
  else if f = 0x20 then 20 + cdiv (a.polys * a.count * a.n) 32
  else 20 + cdiv v 256

/-- Modular products of an object (R556). -/
def cxProducts (f : Nat) (a b out : PHdr) : Nat :=
  let v := out.polys * out.count * a.n
  let net := out.polys * out.count * (a.n / 2 * a.nLog2)
  if f = 3 then (if a.polys = 2 && b.polys = 2 then 4 else out.polys) * out.count * a.n
  else if f = 4 then v
  else if f = 8 then net
  else if f = 9 then net + v
  else if f = 0x10 then v + (if a.form = 1 then net else 0)
  else 0

/-- An armed injection of a tile changes its first data element (R577). -/
def State.injectCat (s : State) (n q v : Nat) : Nat × State :=
  if s.cat.inject ≠ 0 && bits (s.cat.inject - 1) 0 3 = n then ((v + 1) % q, { s with cat := { s.cat with inject := 0 } })
  else (v, s)

/-- What running a CXOP gathers beside its state. -/
structure CxRun where
  s : State
  cycles : Nat := 0
  products : Nat := 0
  residues : Nat := 0
  unreduced : Bool := false

/-- Read an object of the tile's store: its words after the header, and its mark. -/
def State.objData (s : State) (u off size : Nat) : List Nat × Nat × State :=
  let r := s.ownRead u off size
  (words64 (r.1.drop 32), r.2.1, r.2.2)

/-- Byte planes of values: as writes of (offset, bytes) (R568). -/
def limbWrites (xd ps rs mode o : Nat) (vals : List Nat) (pc n : Nat) : List (Nat × List Byte) :=
  (List.range 8).flatMap fun b =>
    let base := xd + (o * 8 + b) * ps
    let byte (v : Nat) : Byte := BitVec.ofNat 8 (v / 2 ^ (8 * b))
    if mode = 1 then
      (List.range n).map fun c => (base + c * rs, (List.range pc).map fun r => byte (vals.getD (r * n + c) 0))
    else [(base, vals.map byte)]

/-- Run one polynomial object: its output written, or its planes. -/
def State.runPoly (s : State) (u f imm xd0 xp o : Nat) (a b : Nat × PHdr) (dst : Nat) (pm : Nat) : CxRun :=
  let x := s.chain a.2.chain
  let ra := s.objData u a.1 a.2.size
  let pa := readResidues x a.2 ra.1
  let s := ra.2.2
  let rb := if cxUsesXs2 f then s.objData u b.1 b.2.size else ([], 0, s)
  let pb := if cxUsesXs2 f then readResidues x b.2 rb.1 else ([], false)
  let s := rb.2.2
  let m := firstMark pm (firstMark ra.2.1 rb.2.1)
  let un := pa.2 || pb.2
  if f = 0x20 then
    let vals := pa.1.flatMap fun p => p.flatMap id
    let i := s.injectCat (unitIndex u) (x.qAt a.2.first) (vals.getD 0 0)
    let blk := i.2.rawRead (storeBase u + xp) 16
    let ws := limbWrites xd0 (fieldLE blk 0 4) (fieldLE blk 4 4) (fieldLE blk 8 1) o (vals.set 0 i.1) a.2.count a.2.n
    { s := ws.foldl (fun s w => s.ownWrite u w.1 w.2 m) i.2, cycles := s.cxCycles f a.2 a.2, unreduced := un }
  else
    let out := cxOut f imm a.2 b.2
    let k := if f = 4 then
        (List.range out.count).any fun r => decide (x.qAt (out.first + r) ≤ fieldLE (s.rawRead (storeBase u + xp + 8 * (out.first + r)) 8) 0 8)
      else false
    let vals := (s.polyResult u f imm xp x a.2 b.2 out pa.1 pb.1).flatMap fun p => p.flatMap id
    let i := s.injectCat (unitIndex u) (x.qAt out.first) (vals.getD 0 0)
    let bytes := out.bytes ++ (vals.set 0 i.1).flatMap (leBytes 8)
    let tr := if f = 8 || f = 9 || (f = 0x10 && a.2.form = 1) then out.polys * out.count else 0
    { s := i.2.ownWrite u dst bytes m, cycles := s.cxCycles f a.2 out, products := cxProducts f a.2 b.2 out, residues := tr,
      unreduced := un || k }

/-- Run one share vector (R555, R565). -/
def State.runShare (s : State) (u f : Nat) (a b : Nat × SHdr) (dst : Nat) : CxRun :=
  let ra := s.objData u a.1 (32 + 8 * a.2.count)
  let rb := ra.2.2.objData u b.1 (32 + 8 * b.2.count)
  let q := a.2.mod
  let av := ra.1.map (· % q)
  let bv := rb.1.map (· % q)
  let out : SHdr := { a.2 with mask := shareMask f a.2 b.2 }
  let vals := if f = 0x30 then List.zipWith (fun v w => (v + w) % q) av bv
    else if f = 0x31 then List.zipWith (subMod q) av bv
    else if f = 0x32 then List.zipWith (mulMod q) av bv
    else if bit a.2.mask 0 then List.zipWith (fun v w => (v + w) % q) av bv else av
  let i := if vals.isEmpty then (0, rb.2.2) else rb.2.2.injectCat (unitIndex u) q (vals.getD 0 0)
  { s := i.2.ownWrite u dst (out.bytes ++ (vals.set 0 i.1).flatMap (leBytes 8)) (firstMark ra.2.1 rb.2.1),
    cycles := 20 + cdiv a.2.count 256 + (if a.2.ring = 1 then 64 else 0),
    products := if f = 0x32 && a.2.ring = 1 then a.2.count else 0,
    unreduced := (ra.1.any fun v => decide (q ≤ v)) || rb.1.any fun v => decide (q ≤ v) }

/-- Generate requests count toward the DRBG's reseed (R567). -/
def State.drbgUse (s : State) (n : Nat) : State := { s with drbg := { s.drbg with requests := (s.drbg.requests + n) % 2 ^ 20 } }

/-- Fill one share vector with DRBG values (R566): free words below the modulus, and a free number of rejected draws for PRIME. -/
def State.runRand (s : State) (u : Nat) (d : Nat × SHdr) : CxRun :=
  let w := s.drawN d.2.count
  let q := d.2.mod
  let vals := w.1.map fun v => v.toNat % q
  let rej := if d.2.ring = 1 then (let r := w.2.draw; (r.1.toNat, r.2)) else (0, w.2)
  let s := ((rej.2.bump64 Obj.SH_RAND_WORDS (d.2.count + rej.1)).bump64 Obj.SH_RAND_REJECTS rej.1).drbgUse d.2.count
  let i := if vals.isEmpty then (0, s) else s.injectCat (unitIndex u) q (vals.getD 0 0)
  { s := if vals.isEmpty then i.2 else i.2.ownWrite u (d.1 + 32) ((vals.set 0 i.1).flatMap (leBytes 8)) 0,
    cycles := if d.2.ring = 0 then 20 + cdiv d.2.count 16 else 84 + cdiv (d.2.count + rej.1) 16 }

/-- Run one table pair of TWGEN (R563); how many modular products it takes is not stated, so that count is free. -/
def State.runTwgen (s : State) (u imm xd i : Nat) : CxRun :=
  let x := s.chain (bits imm 0 4)
  let m := bits imm 8 6 + i
  let n := x.nLog2
  let q := x.qAt m
  let ps := powers q (x.psiAt m) (2 ^ n) 1
  let inv := powMod q (x.psiAt m) (2 ^ (n + 1) - 1) (n + 1)
  let gs := powers q inv (2 ^ n) 1
  let tab (l : List Nat) : List Nat := (List.range (2 ^ n)).map fun j => l.getD (brv n j) 0
  let f := tab ps
  let d := s.draw
  let j := d.2.injectCat (unitIndex u) q (f.getD 0 0)
  { s := j.2.ownWrite u (xd + i * 16 * 2 ^ n) (((f.set 0 j.1) ++ tab gs).flatMap (leBytes 8)) 0,
    cycles := 60 + cdiv (2 * 2 ^ n) 64, products := d.1.toNat }

/-- The next object's run continues the last one's. -/
def CxRun.next (r : CxRun) (t : CxRun) : CxRun :=
  { s := t.s, cycles := r.cycles + t.cycles, products := r.products + t.products, residues := r.residues + t.residues,
    unreduced := r.unreduced || t.unreduced }

/-- Share objects of LIMB_SPLIT. -/
def State.runShareSplit (s : State) (u xd xp o : Nat) (a : Nat × SHdr) (pm : Nat) : CxRun :=
  let ra := s.objData u a.1 (32 + 8 * a.2.count)
  let q := a.2.mod
  let vals := ra.1.map (· % q)
  let i := if vals.isEmpty then (0, ra.2.2) else ra.2.2.injectCat (unitIndex u) q (vals.getD 0 0)
  let blk := i.2.rawRead (storeBase u + xp) 16
  { s := (limbWrites xd (fieldLE blk 0 4) 0 0 o (vals.set 0 i.1) 0 0).foldl (fun s w => s.ownWrite u w.1 w.2 (firstMark pm ra.2.1)) i.2,
    cycles := 20 + cdiv a.2.count 32, unreduced := ra.1.any fun v => decide (q ≤ v) }

/-- A CXOP completes: its results, headers and counters (R555, R560, R571, R573). -/
def State.runCx (s : State) (o : UnitOp) : State :=
  let c : Cmd := { w0 := o.w0, w1 := o.w1 }
  let u := o.seq
  let f := cFunc c
  let imm := cImm c
  let p := s.cxPlan u o.reg c
  let st := worstFault p.faults
  let n := unitIndex u
  let last (s : State) (cyc : Nat) : State :=
    let x := SMap.get {} s.cat.cats n
    (s.bump64 (Obj.CAT_BUSY n) cyc).bump64 Obj.CXOPS |> fun s =>
      { s with cat := { s.cat with cats := SMap.set {} s.cat.cats n { lastWord := o.word, busyCycles := satBump 64 x.busyCycles cyc } } }
  if st ≠ 0 then (last s 0).finishOp o { late := st } else
  -- the source failed while SH_RAND ran
  if f = 0x34 && !s.drbgUp then s.finishOp o { ending := Sc.unitDisabled } else
  let xd := o.reg (cXd c)
  let xp := o.reg (cXp c)
  -- parameter blocks and tables are read with their codes checked, and their marks reach every output
  let pr := p.params.foldl (fun (r : Nat × State) x => let y := r.2.ownRead u x.1 x.2; (firstMark r.1 y.2.1, y.2.2)) (0, s)
  let s := pr.2
  let z : CxRun := { s := s }
  let run : CxRun :=
    if f = 0x18 then (List.range (cCount c)).foldl (fun r i => r.next (r.s.runTwgen u imm xd i)) z
    else if f = 0x34 then (s.shares u (cCount c) xd).1.foldl (fun r d => r.next (r.s.runRand u d)) z
    else if cxIsShare f then
      let a := (s.shares u (cCount c) (o.reg (cXs1 c))).1
      let b := (s.shares u (cCount c) (o.reg (cXs2 c))).1
      ((a.zip b).zip (p.results.map (·.1))).foldl (fun r x => r.next (r.s.runShare u f x.1.1 x.1.2 x.2)) z
    else if f = 0x20 && fieldLE (s.rawRead (storeBase u + o.reg (cXs1 c)) 4) 0 4 = 0xCA700002 then
      (s.shares u (cCount c) (o.reg (cXs1 c))).1.zipIdx.foldl (fun r x => r.next (r.s.runShareSplit u xd xp x.2 x.1 pr.1)) z
    else
      let a := (s.polys u (cCount c) (o.reg (cXs1 c))).1
      let b := if cxUsesXs2 f then (s.polys u (cCount c) (o.reg (cXs2 c))).1 else a
      let dst := if f = 0x20 then a.map fun _ => xd else p.results.map (·.1)
      ((a.zip b).zip dst).zipIdx.foldl (fun r x =>
        r.next (r.s.runPoly u f imm xd xp x.2 x.1.1.1 x.1.1.2 x.1.2 pr.1)) z
  let s := last run.s run.cycles
  let s := s.bump64 Obj.NTT_RESIDUES run.residues
  let s := s.bump64 Obj.MODMULS run.products
  let s := if run.unreduced then s.bump Obj.UNREDUCED_INPUTS else s
  let m := (p.sources ++ p.params).foldl (fun m r => firstMark m (s.regionMark u r.1 r.2)) pr.1
  s.finishOp o { mark := m }

/-! The words. -/

/-- A CXOP word of one function (R549): held until the tile's earlier CXOPs have written their headers, then checked. -/
def State.cxWord (s : State) (q k : Nat) (c : Cmd) : State :=
  let f := cFunc c
  let t := s.slot q k
  let regs := [cXd c] ++ (if cxUsesXs1 f then [cXs1 c] else []) ++ (if cxUsesXs2 f then [cXs2 c] else []) ++
    (if cxMayUseXp f && (f ≠ 0x10 || cXp c ≠ 0) then [cXp c] else [])
  if cxReserved c then s.endProgram q k Sc.reservedNonzero
  else if cCount c = 0 then s.advance q k 2
  else if !(s.seq q).queue.isEmpty || regs.any t.pendReg then s
  else if t.marks regs ≠ 0 then s.halted q k (t.marks regs)
  else if f = 0x34 && !s.drbgUp then s.endProgram q k Sc.unitDisabled
  else
    let p := s.cxPlan q t.reg c
    let s := p.headers.foldl (fun s o => s.checkLine q (storeBase q + o)) s
    let m := p.headers.foldl (fun m o => firstMark m (s.mark (storeBase q + o))) 0
    let st := worstFault p.faults
    if m ≠ 0 then s.halted q k m
    else if st = Sc.levelMismatch then (s.bump Obj.LEVEL_MISMATCHES).endProgram q k st
    else if st = Sc.levelUnderflow then (s.bump Obj.LEVEL_UNDERFLOWS).endProgram q k st
    else s.issue q k c [] (fun _ _ => st) false

def isCx (q f : Nat) (w : Nat) : Bool := isOp q 0x32 w && bits w 48 8 == f
def State.cxop (s : State) (q k f : Nat) : Res := s.atWord q k (isCx q f) fun s c => s.cxWord q k c

def execPAdd (q k : Nat) (s : State) : Res := s.cxop q k 0x01
def execPSub (q k : Nat) (s : State) : Res := s.cxop q k 0x02
def execPMul (q k : Nat) (s : State) : Res := s.cxop q k 0x03
def execPMulc (q k : Nat) (s : State) : Res := s.cxop q k 0x04
def execPNeg (q k : Nat) (s : State) : Res := s.cxop q k 0x05
def execPPart (q k : Nat) (s : State) : Res := s.cxop q k 0x06
def execNtt (q k : Nat) (s : State) : Res := s.cxop q k 0x08
def execIntt (q k : Nat) (s : State) : Res := s.cxop q k 0x09
def execAuto (q k : Nat) (s : State) : Res := s.cxop q k 0x0A
def execRescale (q k : Nat) (s : State) : Res := s.cxop q k 0x10
def execModdrop (q k : Nat) (s : State) : Res := s.cxop q k 0x11
def execTwgen (q k : Nat) (s : State) : Res := s.cxop q k 0x18
def execLimbSplit (q k : Nat) (s : State) : Res := s.cxop q k 0x20
def execShAdd (q k : Nat) (s : State) : Res := s.cxop q k 0x30
def execShSub (q k : Nat) (s : State) : Res := s.cxop q k 0x31
def execShMul (q k : Nat) (s : State) : Res := s.cxop q k 0x32
def execShAddpub (q k : Nat) (s : State) : Res := s.cxop q k 0x33
def execShRand (q k : Nat) (s : State) : Res := s.cxop q k 0x34

/-- A CXOP with a reserved FUNC halts (R557). -/
def execCxopUndefinedFunc (q k : Nat) (s : State) : Res :=
  s.atWord q k (fun w => isOp q 0x32 w && !cxDefined (bits w 48 8)) fun s _ => s.endProgram q k Sc.reservedNonzero

/-! The DRBG (R567). -/

/-- DRBG_SEED: the keeper seeds it; a failure raises DRBG_HEALTH and is tried again. -/
def execDrbgSeed (ok : Bool) (s : State) : Res :=
  if s.drbgUp || s.safety.safe || s.sup.keeperHeld then .next s
  else if ok then .next { s with drbg := { seeded := true, healthy := true, requests := 0 } }
  else .next (s.raise Es.drbgHealth)

/-- DRBG_HEALTH_FAIL: the entropy source fails a health test. -/
def execDrbgHealthFail (s : State) : Res :=
  occ (s.drbg.healthy && !s.safety.safe) s ({ s with drbg := { s.drbg with healthy := false } }.raise Es.drbgHealth)

/-- CAT_INJECT (R577): ARM set arms an injection for a tile, replacing one not yet applied. -/
def checkCatInject (v : Nat) : Nat := if bits v 3 12 ≠ 0 then Sc.reservedNonzero else Sc.ok
def State.applyCatInject (s : State) (v : Nat) : State :=
  { s with cat := { s.cat with inject := if bit v 15 then v + 1 else 0 } }

end Sys2Proof.Machine
end

