-- ==== Sys2Proof/Machine/Hash.lean ====
section
/-!
DEFINITION. SHA-256 (R110), SHA-384 (R57) and HMAC-SHA-256 of FIPS 180-4 and FIPS 198-1. Constants are computed as those
standards define them: fractional bits of the roots of the first primes.
-/
namespace Sys2Proof.Hash

/-- The first 80 primes. -/
def primes : List Nat :=
  (List.range 410).filter fun n => 2 ≤ n && (List.range 21).all fun d => d < 2 || n ≤ d || n % d ≠ 0

/-- The largest number below 2^b whose cube is at most v, bit by bit from the top. -/
def cbrtFrom : Nat → Nat → Nat → Nat
  | 0, r, _ => r
  | b + 1, r, v => cbrtFrom b (if (r + 2 ^ b) ^ 3 ≤ v then r + 2 ^ b else r) v

/-- The largest number below 2^b whose square is at most v. -/
def sqrtFrom : Nat → Nat → Nat → Nat
  | 0, r, _ => r
  | b + 1, r, v => sqrtFrom b (if (r + 2 ^ b) ^ 2 ≤ v then r + 2 ^ b else r) v

/-- Round constants of a word width: the first w fractional bits of the primes' cube roots. -/
def roundK (w n : Nat) : List (BitVec w) := (primes.take n).map fun p => BitVec.ofNat w (cbrtFrom (w + 4) 0 (p * 2 ^ (3 * w)))

/-- The first w fractional bits of the square roots of primes i to i + 7. -/
def rootIV (w i : Nat) : List (BitVec w) := ((primes.drop i).take 8).map fun p => BitVec.ofNat w (sqrtFrom (w + 4) 0 (p * 2 ^ (2 * w)))

/-- The rotation amounts of a variant: Σ0, Σ1, and σ0, σ1 with their shift last. -/
structure Rots where
  s0 : Nat × Nat × Nat
  s1 : Nat × Nat × Nat
  l0 : Nat × Nat × Nat
  l1 : Nat × Nat × Nat

def rots32 : Rots := ⟨(2, 13, 22), (6, 11, 25), (7, 18, 3), (17, 19, 10)⟩
def rots64 : Rots := ⟨(28, 34, 39), (14, 18, 41), (1, 8, 7), (19, 61, 6)⟩

def big {w : Nat} (r : Nat × Nat × Nat) (x : BitVec w) : BitVec w :=
  (x.rotateRight r.1) ^^^ (x.rotateRight r.2.1) ^^^ (x.rotateRight r.2.2)
def small {w : Nat} (r : Nat × Nat × Nat) (x : BitVec w) : BitVec w :=
  (x.rotateRight r.1) ^^^ (x.rotateRight r.2.1) ^^^ (x >>> r.2.2)

/-- The message schedule, newest word first. -/
def schedule {w : Nat} (r : Rots) : Nat → List (BitVec w) → List (BitVec w)
  | 0, ws => ws
  | n + 1, ws =>
    schedule r n ((small r.l1 (ws.getD 1 0) + ws.getD 6 0 + small r.l0 (ws.getD 14 0) + ws.getD 15 0) :: ws)

/-- One round on (a, …, h). -/
def round {w : Nat} (r : Rots) (v : List (BitVec w)) (kw : BitVec w × BitVec w) : List (BitVec w) :=
  match v with
  | [a, b, c, d, e, f, g, h] =>
    let t1 := h + big r.s1 e + ((e &&& f) ^^^ (~~~e &&& g)) + kw.1 + kw.2
    let t2 := big r.s0 a + ((a &&& b) ^^^ (a &&& c) ^^^ (b &&& c))
    [t1 + t2, a, b, c, d + t1, e, f, g]
  | _ => v

/-- The number that bytes spell, most significant first. -/
def ofBE (bs : List Byte) : Nat := bs.foldl (fun n b => n * 256 + b.toNat) 0

/-- `n` bytes of a number, most significant first. -/
def beBytes (n v : Nat) : List Byte := (leBytes n v).reverse

/-- A block of 16 words. -/
def block {w : Nat} (r : Rots) (ks : List (BitVec w)) (v : List (BitVec w)) (bs : List Byte) : List (BitVec w) :=
  let ws := (List.range 16).map fun i => BitVec.ofNat w (ofBE ((bs.drop (i * (w / 8))).take (w / 8)))
  let sched := (schedule r (ks.length - 16) ws.reverse).reverse
  List.zipWith (· + ·) v ((ks.zip sched).foldl (round r) v)

/-- All blocks of a padded message. -/
def blocks {w : Nat} (r : Rots) (ks : List (BitVec w)) : Nat → List (BitVec w) → List Byte → List (BitVec w)
  | 0, v, _ => v
  | n + 1, v, bs => blocks r ks n (block r ks v (bs.take (2 * w))) (bs.drop (2 * w))

/-- The padding of FIPS 180-4 for blocks of `blk` bytes with a length field of `len` bytes. -/
def pad (blk len : Nat) (bs : List Byte) : List Byte :=
  let z := (blk - (bs.length + 1 + len) % blk) % blk
  bs ++ [0x80] ++ zeros z ++ beBytes len (bs.length * 8)

def sha256 (bs : List Byte) : List Byte :=
  let p := pad 64 8 bs
  (blocks rots32 (roundK 32 64) (p.length / 64) (rootIV 32 0) p).flatMap fun x => beBytes 4 x.toNat

def sha384 (bs : List Byte) : List Byte :=
  let p := pad 128 16 bs
  ((blocks rots64 (roundK 64 80) (p.length / 128) (rootIV 64 8) p).take 6).flatMap fun x => beBytes 8 x.toNat

/-- HMAC-SHA-256. -/
def hmac (key msg : List Byte) : List Byte :=
  let k := padTo 64 (if 64 < key.length then sha256 key else key)
  let x (c : Byte) : List Byte := k.map (· ^^^ c)
  sha256 (x 0x5C ++ sha256 (x 0x36 ++ msg))

end Sys2Proof.Hash
end

