-- ==== Sys2Proof/Machine/Events.lean ====
section
/-!
DEFINITION. Spiking event cores (R597 to R616): the neuron model, time bins, their outputs, and SECOP.
-/
namespace Sys2Proof.Machine

/-! Writing what lies in context memory piece by piece. -/

/-- Write (global address, bytes, mark) pieces in order while tags are left: the pieces not yet written, the first status that
is not OK, and the state. -/
def State.pumpWrites (ag : Agent) (replay : Bool) (use : Use) : List (Nat × List Byte × Nat) → State → List (Nat × List Byte × Nat) × Nat × State
  | [], s => ([], 0, s)
  | (ga, bs, m) :: r, s =>
    match s.putPieces ag 2 replay [(ga, 0, bs.length)] bs m use with
    | none => ((ga, bs, m) :: r, 0, s)
    | some (st, s) =>
      let z := State.pumpWrites ag replay use r s
      (z.1, if st ≠ 0 then st else z.2.1, z.2.2)

/-- Bytes at an address, cut at 128-byte lines. -/
def lineCut (a : Nat) (bs : List Byte) : List (Nat × List Byte) :=
  (linePieces (bs.length / 128 + 2) a bs.length).map fun p => (p.1, (bs.drop (p.1 - a)).take p.2)

/-- The checks of a destination ring (R252 checks 3 and 4, R356): two regions or devices reached, and the status of a
page that is unmapped, else of one that is not writable or device space (R26). -/
def State.ringCheck (s : State) (c base n : Nat) : Bool × Nat × State :=
  let res := (grains base n).foldl (fun (acc : List (Nat × Region) × Nat × State) g =>
    let x := acc.2.2.xlate c g false true
    let last := min (base + n) ((g / 0x10000 + 1) * 0x10000) - g - 1
    let places := [x.2.placeOf x.1.ga, x.2.placeOf (x.1.ga + last)]
    let st := if x.1.status ≠ 0 then x.1.status
      else if places.any (·.2 == Region.mmio) then Sc.accessDenied else 0
    (if x.1.status ≠ 0 then acc.1 else acc.1 ++ places, (if st = Sc.apertureMiss || acc.2.1 = 0 then st else acc.2.1), x.2)) ([], 0, s)
  (!(res.1.all (· == res.1.headD (0, .reserved))), res.2.1, res.2.2)

/-- Post 1 to a semaphore of a device, from an agent that has no program (R261, R264, R265). `none` where it must wait. -/
def State.unitPost (s : State) (ag : Agent) (m dev : Nat) : Option State :=
  if dev = s.devId then some ((s.counted ag).post m 1).2
  else match s.portFor dev (m / 2) with
    | none => some s
    | some p =>
      s.send (postPacket ag (unitNode (unitOf 6 p)) dev m 1) .plain

/-! Spikes. -/

def secUnit (c : Nat) : Nat := unitOf 3 c

/-- Device time in µs, as a 32-bit timestamp. -/
def State.nowUs (s : State) : Nat := s.timeNs / 1000 % 2 ^ 32

/-- A spike word of channel co at (x, y) (R608). -/
def spikeWord (loss : Bool) (co x y t : Nat) : Nat :=
  2 ^ 63 + b2n loss * 2 ^ 62 + co / 16 % 4 * 2 ^ 60 + t % 2 ^ 32 * 2 ^ 28 + co / 2 % 8 * 2 ^ 25 + co % 2 * 2 ^ 24 + y * 4096 + x

/-- Write the spike words held as one completion entry of KIND 0x03 (R608, R610); a CQ that is full, not enabled or of another
function loses them (R621). -/
def State.writeBatch (s : State) (c : Nat) : State :=
  let x := s.sec c
  if x.batch.isEmpty then s else
  let cq := s.obj (Obj.SEC_EVT_CQ c)
  let done := s.setSec c { x with batch := [] }
  if 255 < cq then done else
  let r := s.ring cq
  let own := match x.layer with
    | some l => (s.ringFn cq).isSome && s.ringFn cq == s.ringFn l.ring
    | none => false
  if !bit r.cqCfg 63 || !own || r.cqFull then
    done.setRing cq { r with eventOverruns := satBump 32 r.eventOverruns 1 }
  else
    let bs := leBytes 8 (x.batch.getD 0 0) ++ leBytes 2 x.batchSeq ++ leBytes 1 c ++
      leBytes 1 (if x.mark = 0 then Sc.ok else Sc.okPoisoned) ++ [3] ++ leBytes 1 (4 * b2n (x.mark ≠ 0)) ++
      leBytes 2 x.batch.length ++ ((List.range 5).flatMap fun i => leBytes 8 (x.batch.getD (i + 1) 0)) ++
      leBytes 4 (x.mark - 1) ++ zeros 4
    (s.setSec c { x with batch := [], batchSeq := (x.batchSeq + 1) % 65536 }).postCpl cq bs false

/-- Send spike words to another core's queue window in order, as far as tags are free (R293, R304, R608). -/
def State.pumpSpikes (c : Nat) : Nat → State → State
  | 0, s => s
  | n + 1, s =>
    match (s.sec c).spq with
    | [] => s
    | (ga, w, m) :: r =>
      match s.putPieces (.sec c) 2 false [(ga, 0, 8)] (leBytes 8 w) m .plain with
      | some p => State.pumpSpikes c n (p.2.setSec c { p.2.sec c with spq := r })
      | none => s

/-- A spike of neuron (ox, oy, co) at a time: counted in the bin's buffer, and sent on as the layer says (R604, R608, R609). -/
def State.spike (s : State) (c : Nat) (l : Layer) (ox oy co t : Nat) : State :=
  let u := secUnit c
  let a := 0x70000 + (s.sec c).cur * 0x2000 + (oy * l.outW + ox) * l.cOut + co
  let r := s.ownRead u a 1
  let n := fieldLE r.1 0 1
  let s := r.2.2
  let s := if n = 255 then (s.bump (Obj.SEC_SAT_COUNTS c)).setSec c { s.sec c with sats := satBump 16 (s.sec c).sats 1 }
    else s.ownWrite u a (leBytes 1 (n + 1)) 0
  let x := s.sec c
  let s := (s.bump64 (Obj.SEC_SPIKES c)).setSec c { x with spikes := satBump 32 x.spikes 1, mark := firstMark x.mark r.2.1 }
  let px := l.outX0 + ox
  let py := l.outY0 + oy
  if px > 4095 || py > 4095 || !(l.toCq || l.toCore) then s else
  let x := s.sec c
  let w := spikeWord x.loss co px py t
  let s := s.setSec c { x with loss := false }
  let s := if l.toCore then
      let y := s.sec c
      let dst := s.devId * 2 ^ 56 + secBase + l.outCore * 0x80000 + 0x50000
      let q := y.spq ++ [(dst, w, x.mark)]
      State.pumpSpikes c q.length (s.setSec c { y with spq := q })
    else s
  if l.toCq then
    let x := s.sec c
    let s := s.setSec c { x with batch := x.batch ++ [w] }
    if x.batch.length = 5 then s.writeBatch c else s
  else s

/-! The neuron model (R601). -/

structure Neuron where
  v : Int
  tUpd : Nat
  ref : Nat
deriving DecidableEq, Repr

/-- What one synaptic update leaves: the neuron, and whether it was ignored, clamped or spiked. -/
structure NeuronStep where
  n : Neuron
  ignored : Bool := false
  clamped : Bool := false
  spiked : Bool := false
deriving DecidableEq, Repr

def updateNeuron (l : Layer) (co : Nat) (n : Neuron) (t : Nat) (w : Int) : NeuronStep :=
  let d0 := (t + 2 ^ 32 - n.tUpd) % 2 ^ 32
  let d := if 2 ^ 31 ≤ d0 then 0 else d0
  let r := n.ref - d
  if 0 < r then { n := { n with tUpd := t, ref := r }, ignored := true } else
  let leak : Int := (min 32767 (d * l.param co 4 2 / 2 ^ l.param co 6 1) : Nat)
  let v := if n.v > 0 then max 0 (n.v - leak) else n.v
  let v := if v < 0 then min 0 (v + leak) else v
  let v' := v + w * (2 ^ l.param co 7 1 : Nat)
  let cl := max (-32768) (min 32767 v')
  let th : Int := (l.param co 0 2 : Nat)
  if th ≤ cl then
    { n := { v := if l.param co 10 1 = 0 then sgn 16 (l.param co 2 2) else cl - th, tUpd := t, ref := l.param co 8 2 },
      clamped := cl ≠ v', spiked := true }
  else { n := { v := cl, tUpd := t, ref := 0 }, clamped := cl ≠ v' }

def Neuron.bytes (n : Neuron) : List Byte := leBytes 2 (unsgn 16 n.v) ++ leBytes 4 n.tUpd ++ leBytes 2 n.ref
def neuronOf (bs : List Byte) : Neuron := { v := sgn 16 (fieldLE bs 0 2), tUpd := fieldLE bs 2 4, ref := fieldLE bs 6 2 }

/-- The output position that a kernel tap of an event reaches, where it reaches one. -/
def tapOut (pos pad k stride side : Nat) : Option Nat :=
  if k ≤ pos + pad && (pos + pad - k) % max stride 1 = 0 && (pos + pad - k) / max stride 1 < side then
    some ((pos + pad - k) / max stride 1)
  else none

/-- One synaptic update of neuron (ox, oy, co) with the weight of a tap. -/
def State.synapse (s : State) (c : Nat) (l : Layer) (ch co ky kx ox oy t : Nat) : State :=
  let u := secUnit c
  let wr := s.ownRead u (co * 0x1000 + (ch * l.k + ky) * l.k + kx) 1
  let a := 0x40000 + ((oy * l.outW + ox) * l.cOut + co) * 8
  let nr := wr.2.2.ownRead u a 8
  let z := updateNeuron l co (neuronOf nr.1) t (sgn 8 (fieldLE wr.1 0 1))
  let s := (nr.2.2.ownWrite u a z.n.bytes 0).bump64 (Obj.SEC_UPDATES c)
  let x := s.sec c
  let s := s.setSec c { x with mark := firstMark x.mark (firstMark wr.2.1 nr.2.1) }
  let s := if z.ignored then s.bump64 (Obj.SEC_REF_DROPS c) else s
  let s := if z.clamped then s.bump (Obj.SEC_MEM_SATS c) else s
  if z.spiked then s.spike c l ox oy co t else s

/-- Every update of one event, in the order of R601. -/
def State.eventUpdates (s : State) (c : Nat) (l : Layer) (w : Nat) : State :=
  let ch := if evCore w then evCh w else l.chanBase (evPort w) + evPol w
  let xl := evX w - l.inX0
  let yl := evY w - l.inY0
  let taps := (List.range l.k).flatMap fun ky => (List.range l.k).filterMap fun kx =>
    match tapOut xl l.pad kx l.stride l.outW, tapOut yl l.pad ky l.stride l.outH with
    | some ox, some oy => some (ky, kx, ox, oy)
    | _, _ => none
  (List.range l.cOut).foldl (fun s co =>
    taps.foldl (fun s p => s.synapse c l ch co p.1 p.2.1 p.2.2.1 p.2.2.2 (evTime w)) s) s

/-! Time bins. -/

/-- Which pellet code tells of a refused write. -/
def refusalCode (st : Nat) : Nat :=
  if st = Sc.unitHooded then Pc.unitHooded else if st = Sc.linkAbsent then Pc.linkAbsent
  else if st = Sc.domainOff then Pc.domainOff else Pc.unbacked

/-- Go on writing the oldest closed bin. A refused write writes a pellet, and what follows it is poisoned (R617). -/
def State.pumpBin (s : State) (c : Nat) : State :=
  let x := s.sec c
  match x.outs with
  | [] => s
  | b :: r =>
    let z := State.pumpWrites (.sec c) b.replay (.opWrite (.sec c)) (b.todo.map fun p => (p.1, p.2, b.mark)) s
    let s := z.2.2
    let p := if z.2.1 = 0 then (b.mark, s) else
      let q := s.pellet { source := Es.accessPoison, code := refusalCode z.2.1, status := z.2.1, oClass := 3, oIndex := c,
                          cls := 3, sub := c + 1 }
      (firstMark b.mark (q.1 + 1), q.2)
    p.2.setSec c { p.2.sec c with outs := { b with todo := z.1.map fun t => (t.1, t.2.1), mark := p.1 } :: r }

/-- The bin record of Table 15.6. -/
def binRecord (x : Sec) (ts te : Nat) : List Byte :=
  leBytes 4 x.binSeq ++ leBytes 4 ts ++ leBytes 4 te ++ leBytes 4 x.eventsIn ++ leBytes 4 x.dropped ++ leBytes 4 x.spikes ++
  leBytes 2 x.sats ++ leBytes 1 (b2n x.lossy + 2 * b2n (x.mark ≠ 0) + 4 * b2n x.changed) ++ [0] ++ leBytes 4 (x.mark - 1)

/-- The time-bin end of a core: the SP_BIN trigger (R606). -/
def State.binEnd (s : State) (c : Nat) (epoch : Bool) : State := if epoch then s else s.triggerSource 4 c

/-- Close the current bin: its batch, its record and tensor where FREE allows, then the next bin (R604 to R606). Under TS a
bin without events does not exist. -/
def State.closeBin (s : State) (c : Nat) : State :=
  match (s.sec c).layer with
  | none => s
  | some l =>
    if l.binMode = 0 && !(s.sec c).binOpen then s else
    let s := (s.writeBatch c).bump (Obj.SEC_BINS c)
    let x := s.sec c
    let free := s.drawN 2
    let ts := if l.binMode = 2 then x.firstT.getD (bits (free.1.getD 0 0).toNat 0 32) else x.tStart
    let te := if l.binMode = 0 then (x.tStart + l.binUs) % 2 ^ 32 else if l.binMode = 1 then s.nowUs
      else if x.firstT.isSome then x.lastT else bits (free.1.getD 1 0).toNat 0 32
    let s := if l.binMode = 2 && x.firstT.isNone then free.2 else s
    let u := secUnit c
    let cr := s.ownRead u (0x70000 + x.cur * 0x2000) l.neurons
    let s := cr.2.2
    let x := { x with mark := firstMark x.mark cr.2.1 }
    let fresh : Sec := { x with
      cur := 1 - x.cur, binOpen := false, binSeq := (x.binSeq + 1) % 2 ^ 32, tStart := s.nowUs
      firstT := none, lastT := 0, eventsIn := 0, dropped := 0, spikes := 0, sats := 0, lossy := false, changed := false, mark := 0 }
    let s := (s.setSec c fresh).ownWrite u (0x70000 + (1 - x.cur) * 0x2000) (zeros 0x2000) 0
    let epoch := l.binMode == 2
    if !l.tensor then s.binEnd c epoch
    else
      let m := semOf l.outPair 1
      if s.sem m = 0 then (s.bump (Obj.SEC_BIN_SKIPS c)).binEnd c epoch
      else
        let s := s.setSem m (s.sem m - 1)
        let base := (l.dstBase + x.slotNo * 2 ^ l.slotLog2) % 2 ^ 64
        let rows := (List.range (l.outW * l.outH)).flatMap fun r => padTo l.tstride ((cr.1.drop (r * l.cOut)).take l.cOut)
        let parts := [(base, binRecord x ts te), (base + 64, rows)]
        let x' : List (Nat × List Byte) × Bool × State := parts.foldl (fun acc p =>
          if p.2.isEmpty then acc else
          let z := acc.2.2.xlateRange l.ctx p.1 p.2.length false true
          (acc.1 ++ z.2.1.flatMap (fun q => lineCut q.1 ((p.2.drop q.2.1).take q.2.2)), acc.2.1 && z.2.2.1, z.2.2.2)) ([], true, s)
        let s := x'.2.2
        let out : BinOut := { todo := x'.1, mark := x.mark, pair := l.outPair, dev := l.outDev, epoch := epoch, replay := x'.2.1 }
        let y := s.sec c
        let s := s.setSec c { y with outs := y.outs ++ [out], slotNo := (x.slotNo + 1) % 2 ^ l.slotsLog2 }
        if y.outs.isEmpty then s.pumpBin c else s

/-- Reset every neuron and zero the current count buffer (Table 15.8 CLEAR). -/
def State.clearCore (s : State) (c : Nat) : State :=
  let u := secUnit c
  (s.ownWrite u 0x40000 (zeros 0x10000) 0).ownWrite u (0x70000 + (s.sec c).cur * 0x2000) (zeros 0x2000) 0

/-- Apply a layer (R613). -/
def State.applyLayer (s : State) (c : Nat) (l : Layer) : State :=
  let s := (s.closeBin c).clearCore c
  let x := s.sec c
  s.setSec c { x with layer := some l, binOpen := false, binSeq := 0, tStart := s.nowUs, firstT := none, lastT := 0,
                      eventsIn := 0, dropped := 0, spikes := 0, sats := 0, lossy := false, changed := true, mark := 0, slotNo := 0 }

/-- The core may take events: it runs, its unit serves and is not held at a commit (R537, R614, R615). -/
def State.secRuns (s : State) (c : Nat) : Bool :=
  s.live && decide (c < 16) && (s.sec c).running && !(s.held (secUnit c)) &&
  (s.unitSt (secUnit c) == .ready || s.unitSt (secUnit c) == .busy) && (s.dom (secUnit c)).phase == .open_

/-- The core's clocked bins go on: its unit serves. -/
def State.secUp (s : State) (c : Nat) : Bool :=
  s.live && decide (c < 16) && (s.unitSt (secUnit c) == .ready || s.unitSt (secUnit c) == .busy)

/-- t is at or after e, compared as timestamps are (R591). -/
def atOrAfter (t e : Nat) : Bool := (t + 2 ^ 32 - e % 2 ^ 32) % 2 ^ 32 < 2 ^ 31

/-- SEC_EVENT_PROCESS: the oldest queued event (R598, R601, R604). One that the active layer no longer accepts is dropped. -/
def execSecEventProcess (c : Nat) (s : State) : Res :=
  if !s.secRuns c then .next s else
  match (s.sec c).queue with
  | [] => .next s
  | (w, m) :: rest =>
    let s := s.setSec c { s.sec c with queue := rest }
    match (s.sec c).layer with
    | none => .next (s.bump64 (Obj.SEC_FILTERED c))
    | some l =>
      if !l.accepts w then .next (s.bump64 (Obj.SEC_FILTERED c)) else
      let t := evTime w
      let x := s.sec c
      let s := if l.binMode = 0 && x.binOpen && atOrAfter t (x.tStart + l.binUs) then s.closeBin c else s
      let x := s.sec c
      let x : Sec := if l.binMode = 0 && !x.binOpen then { x with binOpen := true, tStart := t / max l.binUs 1 * l.binUs } else x
      let x : Sec := { x with coreTime := t, firstT := some (x.firstT.getD t), lastT := t, eventsIn := satBump 32 x.eventsIn 1,
                              lossy := x.lossy || evLoss w, mark := firstMark x.mark m }
      .next (((s.setSec c x).bump64 (Obj.SEC_EVENTS c)).eventUpdates c l w)

/-- SEC_BIN_IDLE_CLOSE: under TS, the queue has stayed empty for BIN_US (R604). -/
def execSecBinIdleClose (c : Nat) (s : State) : Res :=
  match (s.sec c).layer with
  | some l => occ (s.secUp c && l.binMode == 0 && (s.sec c).binOpen && (s.sec c).queue.isEmpty) s (s.closeBin c)
  | none => .next s

/-- SEC_BIN_ARRIVAL_CLOSE: under ARRIVAL, device time reaches a multiple of BIN_US (R604). -/
def execSecBinArrivalClose (c : Nat) (s : State) : Res :=
  match (s.sec c).layer with
  | some l => occ (s.secUp c && l.binMode == 1) s (s.closeBin c)
  | none => .next s

/-- SEC_BIN_FILL_POST: once every write of the oldest closed bin is visible or acknowledged, FILL is posted and the bin ends
(R605, R606). -/
def execSecBinFillPost (c : Nat) (s : State) : Res :=
  if s.safety.safe || 16 ≤ c then .next s else
  match (s.sec c).outs with
  | [] => .next s
  | b :: r =>
    if !b.todo.isEmpty then .next (s.pumpBin c)
    else if s.writing (.opWrite (.sec c)) then .next s
    else match s.unitPost (.sec c) (semOf b.pair 0) b.dev with
      | none => .next s
      | some s => .next (((s.setSec c { s.sec c with outs := r }).binEnd c b.epoch).pumpBin c)

/-- SEC_BATCH_TIMEOUT (R608). -/
def execSecBatchTimeout (c : Nat) (s : State) : Res := occ (s.secUp c) s (s.writeBatch c)

/-! SECOP (R611 to R614). -/

/-- Reserved values of a layer block and of its channels' parameter sets (R612 check 1). -/
def layerReserved (l : Layer) : Bool :=
  !(l.stride == 1 || l.stride == 2 || l.stride == 4) || bits (l.f 14 1) 3 5 ≠ 0 || decide (2 < l.binMode) || bits (l.f 34 2) 11 5 ≠ 0 ||
  ((l.bytes.drop 48).take 80).any (· ≠ 0) ||
  (List.range (min l.cOut 64)).any fun co => decide (1 < l.param co 10 1) || l.param co 11 5 ≠ 0

/-- Values outside their ranges (R612 check 2). -/
def layerBound (l : Layer) : Bool :=
  let out (v lo hi : Nat) : Bool := decide (v < lo) || decide (hi < v)
  out l.inW 1 4096 || out l.inH 1 4096 || out l.cIn 1 32 || out l.cOut 1 64 || out l.k 1 11 || decide (l.k ≤ l.pad) ||
  (if l.binMode = 2 then l.binUs ≠ 0 else out l.binUs 1 1000000) ||
  (if l.toCore then decide (15 < l.outCore) else l.outCore ≠ 0xFF) ||
  l.tstride % 16 ≠ 0 || decide (l.tstride < l.cOut) || out l.slotLog2 7 24 || decide (4 < l.slotsLog2) ||
  ((List.range l.cOut).any fun co =>
    out (l.param co 0 2) 1 32767 || decide (31 < l.param co 6 1) || decide (7 < l.param co 7 1)) ||
  decide (l.inW + 2 * l.pad < l.k) || decide (l.inH + 2 * l.pad < l.k) || decide (8192 < l.neurons) ||
  ((List.range 8).any fun p => bit l.portMask p && decide (l.cIn ≤ l.chanBase p + 1)) ||
  (l.tensor && decide (2 ^ l.slotLog2 < 64 + l.outW * l.outH * l.tstride))

/-- The first failing check of a LAYER's block (R612). -/
def State.layerCheck (s : State) (l : Layer) : Nat × State :=
  if layerReserved l then (Sc.reservedNonzero, s)
  else if layerBound l then (Sc.boundViolation, s)
  else
    let r := s.ringCheck l.ctx l.dstBase (2 ^ (l.slotLog2 + l.slotsLog2))
    (firstFail [(l.dstBase % 128 ≠ 0 || r.1, Sc.alignment), (r.2.1 ≠ 0, r.2.1)], r.2.2)

def secFunc (c : Cmd) : Nat := bits c.w0 48 8
def secImm (c : Cmd) : Nat := bits c.w1 0 32
def secXp (c : Cmd) : Nat := bits c.w1 60 4

/-- Reserved fields of a SECOP word (R611). XP names a register for LAYER alone. -/
def secReserved (c : Cmd) : Bool :=
  let f := secFunc c
  f = 0 || decide (4 < f) || bits c.w0 32 16 ≠ 0 || bits c.w1 32 28 ≠ 0 || (f ≠ 1 && secXp c ≠ 0) ||
  (if f = 1 || f = 2 then decide (1 < secImm c) else secImm c ≠ 0)

/-- A SECOP word: its fields, COUNT 0 does nothing, and its effect between events (R611, R614). -/
def State.secWord (s : State) (q k : Nat) (c : Cmd) (body : State → Slot → Nat → State) : State :=
  let t := s.slot q k
  let n := bits c.w0 0 32
  if secReserved c then s.endProgram q k Sc.reservedNonzero
  else if 1 < n then s.endProgram q k Sc.boundViolation
  else if s.leaderHolds q k false then s.waitAt q k .leader
  else if n = 0 then s.advance q k 2
  else body s t (q - 104)

def isSec (q f : Nat) (w : Nat) : Bool := isOp q 0x35 w && bits w 48 8 == f

/-- SECOP LAYER: the block in the kernel store is checked at the word; a failure halts the program and changes nothing. -/
def execSecopLayer (q k : Nat) (s : State) : Res :=
  s.atWord q k (isSec q 1) fun s c =>
    let t := s.slot q k
    let r := secXp c
    if !secReserved c && bits c.w0 0 32 = 1 && t.pendReg r then s
    else if !secReserved c && bits c.w0 0 32 = 1 && t.regMark r ≠ 0 then s.halted q k (t.regMark r)
    else
      let off := t.reg r
      let bad := off ≠ 0x74000 && off ≠ 0x74800
      if !secReserved c && bits c.w0 0 32 = 1 && bad then s.endProgram q k Sc.boundViolation
      else s.secWord q k c fun s t core =>
        let rd := s.ownRead (secUnit core) off 1152
        let l : Layer := { which := (off - 0x74000) / 0x800, bytes := rd.1, ctx := t.ctx, ring := t.ring }
        let z := rd.2.2.layerCheck l
        if rd.2.1 ≠ 0 then z.2.halted q k rd.2.1
        else if z.1 ≠ 0 then z.2.endProgram q k z.1
        else if bit (secImm c) 0 then (z.2.setSec core { z.2.sec core with staged := some l }).advance q k 2
        else (z.2.applyLayer core l).advance q k 2

/-- SECOP RUN: start or stop dequeuing (R614). A SECOP word of a reserved FUNC stands here too, and halts (R611, R623). -/
def execSecopRun (q k : Nat) (s : State) : Res :=
  s.atWord q k (fun w => isOp q 0x35 w && !(isSec q 1 w || isSec q 3 w || isSec q 4 w)) fun s c => s.secWord q k c fun s _ core =>
    (s.setSec core { s.sec core with running := bit (secImm c) 0 }).advance q k 2

/-- SECOP FLUSH: close the current bin now. -/
def execSecopFlush (q k : Nat) (s : State) : Res :=
  s.atWord q k (isSec q 3) fun s c => s.secWord q k c fun s _ core => (s.closeBin core).advance q k 2

/-- SECOP CLEAR. -/
def execSecopClear (q k : Nat) (s : State) : Res :=
  s.atWord q k (isSec q 4) fun s c => s.secWord q k c fun s _ core => (s.clearCore core).advance q k 2

end Sys2Proof.Machine
end

