-- ==== Sys2Proof/Machine/Sensors.lean ====
section
/-!
DEFINITION. Sensor ports (R580 to R596, R616 to R623): damaged packets, the field extractor, delivery to the cores, frame
capture, and items for the fabric.
-/
namespace Sys2Proof.Machine

def State.sp (s : State) (p : Nat) : Sp := SMap.get {} s.ev.sps p
def State.setSp (s : State) (p : Nat) (x : Sp) : State := { s with ev := { s.ev with sps := SMap.set {} s.ev.sps p x } }

def spUnit (p : Nat) : Nat := unitOf 4 p
def State.spMode (s : State) (p : Nat) : Nat := s.obj (Obj.SP_MODE p)

/-- A port receives only while it is READY and VIN is in FULL or REDUCED (R583). -/
def State.spReceives (s : State) (p : Nat) : Bool :=
  s.unitSt (spUnit p) == .ready && (s.dom (spUnit p)).phase == .open_ && (s.sup.band == .full || s.sup.band == .reduced)

/-- Discard with LOSS for the next event word (R586). -/
def State.spLose (s : State) (p n : Nat) : State :=
  (s.bump (Obj.SP_OVERRUN p) n).setSp p { s.sp p with loss := true }

/-- A pellet of CODE SENSOR (R584, R585). -/
def State.spPellet (s : State) (p src : Nat) : Nat × State :=
  let r := s.pellet { source := src, code := Pc.sensor, oClass := 4, oIndex := p, cls := 4, sub := p + 1 }
  (r.1 + 1, r.2)

/-- The header of an arriving packet (R581, R583, R584): whether the packet goes on. `ecc` is 0 for a clean header, 1 for a
corrected one, else uncorrectable or without start-of-transmission sync. -/
def State.spHeader (s : State) (p vc ecc : Nat) (wanted : Bool) : Bool × State :=
  if 8 ≤ p || s.safety.safe then (false, s)
  else if !s.spReceives p then (false, s.spLose p 1)
  else if s.spMode p = 0 then (false, s)
  else if 1 < ecc then
    let r := (s.bump (Obj.SP_HDR_ERRORS p)).spPellet p Es.spHeader
    (false, r.2.setSp p { r.2.sp p with pendMark := firstMark (r.2.sp p).pendMark r.1 })
  else
    let s := if ecc = 1 then s.bump (Obj.SP_ECC_CORRECTED p) else s
    if vc ≠ s.obj (Obj.SP_VC p) || !wanted then (false, s.bump (Obj.SP_VC_DISCARDS p))
    else (true, s.bump64 (Obj.SP_PACKETS p))

/-! The field extractor (R587 to R591). -/

/-- Rule 0 that NATIVE64 derives (R620). -/
def nativeRule : Nat := 2 ^ 63 + 32 * 2 ^ 50 + 28 * 2 ^ 44 + 24 * 2 ^ 38 + 12 * 2 ^ 32 + 12 * 2 ^ 24 + 12 * 2 ^ 16

/-- Word w of rule r of a port; a rule never written is as NATIVE64 derives it. -/
def State.ruleWord (s : State) (p r w : Nat) : Nat :=
  let b := s.block (Obj.SP_RULE p r)
  if b.isEmpty then (if r = 0 && w = 2 then nativeRule else 0) else fieldLE b (8 * w) 8

def State.setRule (s : State) (p r w0 w1 w2 : Nat) : State :=
  s.setBlock (Obj.SP_RULE p r) (leBytes 8 w0 ++ leBytes 8 w1 ++ leBytes 8 w2)

def State.inWidth (s : State) (p : Nat) : Nat := 16 * 2 ^ bits (s.obj (Obj.SP_EVT_WORD p)) 0 2

/-- A reserved bit or ACTION of a rule's word 2; none may be written, VALID or not (R9). -/
def ruleReserved (w2 : Nat) : Bool := Nat.land w2 0x41000030C0F0C0FF ≠ 0 || bits w2 60 2 = 3

/-- The checks of a rule with VALID 1 (R588). -/
def checkRule (inw w0 w1 w2 : Nat) : Nat :=
  let past (lo w : Nat) : Bool := decide (inw < lo + w)
  if ruleReserved w2 then Sc.reservedNonzero
  else if past (bits w2 8 6) (bits w2 16 4) || past (bits w2 24 6) (bits w2 32 4) || past (bits w2 44 6) (bits w2 50 6) ||
      decide (12 < bits w2 16 4) || decide (12 < bits w2 32 4) || decide (32 < bits w2 50 6) ||
      (!bit w2 58 && decide (inw ≤ bits w2 38 6)) || decide (2 ^ inw ≤ w0) || Nat.land w1 w0 ≠ w1 then Sc.boundViolation
  else Sc.ok

/-- A write of a whole rule, as the expert object has it: the three words together (R588, R622). -/
def State.ruleWrite (s : State) (p r w0 w1 w2 : Nat) : Nat × State :=
  let st := if bit w2 63 then checkRule (s.inWidth p) w0 w1 w2 else if ruleReserved w2 then Sc.reservedNonzero else Sc.ok
  (st, if st = 0 then s.setRule p r w0 w1 w2 else s)

/-- A write of one word of a rule register. -/
def State.ruleWordWrite (s : State) (p r w v : Nat) : Nat × State :=
  let a := s.ruleWord p r 0
  let b := s.ruleWord p r 1
  let c := s.ruleWord p r 2
  if w = 2 then s.ruleWrite p r a b v
  else if bit c 63 then (Sc.accessDenied, s)
  else (Sc.ok, if w = 0 then s.setRule p r v b c else s.setRule p r a v c)

/-- The timestamp of an event (R589). -/
def State.spTime (s : State) (p tLow arrival : Nat) : Nat :=
  let e := s.obj (Obj.SP_EVT_WORD p)
  let off := s.obj (Obj.SP_TS_OFFSET p)
  if bit e 40 then (arrival + off) % 2 ^ 32
  else (((s.sp p).tHigh * 2 ^ bits e 8 6 + tLow) * bits e 16 16 / 2 ^ bits e 32 5 + off) % 2 ^ 32

/-! Delivery (R592, R593). -/

def spCores (mask : Nat) : List Nat := (List.range 16).filter (bit mask)

/-- Send the first `n` queued events as one beat to each core of SP_EVT_CORES; nothing while no tag is free. -/
def State.sendBeat (s : State) (p n : Nat) : State :=
  let x := s.sp p
  let cs := spCores (s.obj (Obj.SP_EVT_CORES p))
  let evs := x.fifo.take n
  if evs.isEmpty || s.tagsLeft (.sensor p) 2 < cs.length then s else
  let m := evs.foldl (fun m e => firstMark m e.2) x.pendMark
  let ws := evs.zipIdx.map fun e => if e.2 = 0 && x.loss then setBits e.1.1 62 1 1 else e.1.1
  let data := ws.flatMap (leBytes 8)
  let s := s.setSp p { x with fifo := x.fifo.drop n, loss := false, pendMark := 0 }
  cs.foldl (fun s c =>
    (s.send { id := 0, kind := if m = 0 then .wr else .wrPoison, tc := 2, src := 0, dst := unitNode (secUnit c), at_ := 0,
              dev := s.devId, addr := secBase + c * 0x80000 + 0x50000, len := data.length, data := data, poison := m ≠ 0,
              pseq := m - 1, agent := .sensor p, sentNs := 0 } (.beat p evs.length)).getD s) s

/-- Send every full beat. -/
def State.sendBeats (p : Nat) : Nat → State → State
  | 0, s => s
  | n + 1, s => if (s.sp p).fifo.length < 16 then s else State.sendBeats p n (s.sendBeat p 16)

/-- Send what is queued, the partly filled beat too. -/
def State.flushBeats (s : State) (p : Nat) : State :=
  let s := State.sendBeats p 256 s
  if (s.sp p).fifo.length < 16 then s.sendBeat p 16 else s

/-- A write of a beat is answered; a refused one loses its events (R593). -/
def State.beatAck (s : State) (p n st : Nat) : State := if st = 0 then s else s.spLose p n

/-- Queue one event word for the cores. -/
def State.spEvent (s : State) (p w m : Nat) : State :=
  let s := s.bump64 (Obj.SP_EVENTS_OUT p)
  let x := s.sp p
  if 4096 ≤ x.fifo.length then s.spLose p 1
  else State.sendBeats p 1 (s.setSp p { x with fifo := x.fifo ++ [(w, m)] })

/-- One input word (R587, R589, R590). -/
def State.spWord (s : State) (p u m arrival : Nat) : State :=
  let hits := (List.range 16).filter fun r =>
    bit (s.ruleWord p r 2) 63 && Nat.land u (s.ruleWord p r 0) == s.ruleWord p r 1
  match hits with
  | [] => s.bump (Obj.SP_NOMATCH p)
  | r :: more =>
    let s := if more.isEmpty then s else s.bump (Obj.SP_RULE_MULTIHIT p)
    let c := s.ruleWord p r 2
    let t := bits u (bits c 44 6) (bits c 50 6)
    match bits c 60 2 with
    | 1 => s.setSp p { s.sp p with tHigh := t }
    | 0 =>
      let x := bits u (bits c 8 6) (bits c 16 4)
      let y := bits u (bits c 24 6) (bits c 32 4)
      let pol := if bit c 58 then bits c 57 1 else bits u (bits c 38 6) 1
      let g := s.obj (Obj.SP_GEOMETRY p)
      if bits g 0 13 ≤ x || bits g 16 13 ≤ y then s.bump (Obj.SP_OUT_OF_FRAME p)
      else s.spEvent p (bits c 59 1 * 2 ^ 60 + s.spTime p t arrival * 2 ^ 28 + p * 2 ^ 25 + pol * 2 ^ 24 + y * 4096 + x) m
    | _ => s

/-! Frame capture (R594, R595). -/

def frStride (c : Nat) : Nat := bits c 32 16 * 16
def frLines (c : Nat) : Nat := bits c 16 16
def frSlots (c : Nat) : Nat := 2 ^ bits c 8 3
def frPair (c : Nat) : Nat := bits c 48 11
def frCtx (c : Nat) : Nat := bits c 0 6

/-- A captured frame is broken: nothing more of it is written, its FREE goes back, and it is counted (R595). -/
def State.breakFrame (s : State) (p f : Nat) : State :=
  let x := s.sp p
  if (x.inFrame && x.frame == f) || x.ended.contains f then
    let s := s.setSp p { x with
      inFrame := x.inFrame && x.frame != f, ended := x.ended.filter (· ≠ f), todo := x.todo.filter (·.1 ≠ f) }
    (s.post (semOf (frPair x.frCfg) 1) 1).2.bump (Obj.SP_FRAME_DROPS p)
  else s

/-- A line write was refused: its status is kept, with an offset the spec does not state (free), and the frame is broken. -/
def State.lineRefused (s : State) (p f st : Nat) : State :=
  let d := s.draw
  (d.2.setSp p { d.2.sp p with regStatus := st + bits d.1.toNat 0 12 * 256 }).breakFrame p f

def State.lineAck (s : State) (p f st : Nat) : State := if st = 0 then s else s.lineRefused p f st

/-- Write what is queued of a port's lines, as far as tags go. -/
def State.pumpLines (p : Nat) : Nat → State → State
  | 0, s => s
  | n + 1, s =>
    match (s.sp p).todo with
    | [] => s
    | (f, ga, bs, m, rp) :: r =>
      match s.putPieces (.sensor p) 2 rp [(ga, 0, bs.length)] bs m (.line p f) with
      | none => s
      | some (st, s) =>
        let s := s.setSp p { s.sp p with todo := r }
        State.pumpLines p n (s.lineAck p f st)

/-- Take up one line of the frame being captured. -/
def State.spLine (s : State) (p m : Nat) (bs : List Byte) : State :=
  let x := s.sp p
  let c := x.frCfg
  if !x.inFrame then s
  else if frStride c < bs.length || frLines c ≤ x.line then s.breakFrame p x.frame
  else
    let a := (x.frBase + x.slot * frLines c * frStride c + x.line * frStride c) % 2 ^ 64
    let s := s.setSp p { x with line := x.line + 1, pendMark := if bs.isEmpty then x.pendMark else 0 }
    if bs.isEmpty then s else
    let t := s.xlateRange (frCtx c) a bs.length false true
    if t.1 ≠ 0 then t.2.2.2.lineRefused p x.frame t.1
    else
      let cut := t.2.1.flatMap fun q => lineCut q.1 ((bs.drop q.2.1).take q.2.2)
      let items := cut.zipIdx.map fun q => (x.frame, q.1.1, q.1.2, if q.2 = 0 then firstMark m x.pendMark else m, t.2.2.1)
      let s := t.2.2.2
      let y := s.sp p
      State.pumpLines p (y.todo.length + items.length) (s.setSp p { y with todo := y.todo ++ items })

/-- A frame start under FRAME_TILE: an unfinished frame is broken, then FREE decides (R594, R595, R619). -/
def State.captureStart (s : State) (p : Nat) : State :=
  let s := if (s.sp p).inFrame then s.breakFrame p (s.sp p).frame else s
  let x := s.sp p
  let free := semOf (frPair x.frCfg) 1
  if !bit x.frCfg 63 || s.sem free = 0 then s.bump (Obj.SP_FRAME_DROPS p)
  else (s.setSem free (s.sem free - 1)).setSp p { x with inFrame := true, line := 0, frame := x.frame + 1 }

/-! Items for the fabric (R596, R652). -/

def State.region (s : State) (r : Nat) : Region_ := SMap.get {} s.fab.regions r

/-- The fabric port that takes a sensor port's items now. -/
def State.sensorRx (s : State) (p : Nat) : Option Nat :=
  let n := s.obj (Obj.SP_FABRIC_PORT p)
  let st := s.unitSt (unitOf 9 n)
  if n < 16 && (s.region n).st = 2 && bit (s.region n).flags 2 && (st == .ready || st == .busy) && (s.dom (unitOf 9 n)).phase == .open_
  then some n else none

/-- Pass a packet's items to the fabric: marks FS, FE, LS and LE alone, payload in pieces of up to 128 bytes. -/
def State.spItems (s : State) (p mark vc dt m : Nat) (bs : List Byte) : State :=
  let parts : List (List Byte) := if mark ≠ 0 then [[]] else (List.range (cdiv bs.length 128)).map fun i => (bs.drop (128 * i)).take 128
  match s.sensorRx p with
  | some n =>
    let pend := (s.sp p).pendMark
    let s := if parts.isEmpty then s else s.setSp p { s.sp p with pendMark := 0 }
    parts.zipIdx.foldl (fun s d =>
      let k := if d.2 = 0 then firstMark m pend else m
      s.emit (.fportItem n mark p vc dt d.1 (k ≠ 0) (k - 1))) s
  | none =>
    let n := s.obj (Obj.SP_FABRIC_PORT p)
    let s := s.spLose p 1
    if n < 16 then s.bump (Obj.FP_SENSOR_DROPS n) parts.length else s

/-! The commands. -/

/-- SP_FRAME_START: a frame start of the port (R582), its trigger, and the capture. -/
def execSpFrameStart (p vc ecc : Nat) (s : State) : Res :=
  let h := s.spHeader p vc ecc true
  if !h.1 then .next h.2 else
  let s := h.2.triggerSource 3 p
  .next (match s.spMode p with
    | 2 => s.spItems p 1 vc 0 0 []
    | 3 => s.captureStart p
    | _ => s)

/-- SP_FRAME_END (R592, R594, R596). -/
def execSpFrameEnd (p vc ecc : Nat) (s : State) : Res :=
  let h := s.spHeader p vc ecc true
  if !h.1 then .next h.2 else
  let s := h.2
  .next (match s.spMode p with
    | 1 => s.flushBeats p
    | 2 => s.spItems p 2 vc 1 0 []
    | 3 =>
      let x := s.sp p
      if x.inFrame then
        s.setSp p { x with inFrame := false, ended := x.ended ++ [x.frame], slot := (x.slot + 1) % frSlots x.frCfg }
      else s
    | _ => s)

/-- SP_LONG_PACKET: a long packet by mode, its payload marked where its CRC fails or an injection is armed (R585, R587, R594,
R596, R622). Data types 0x02 and 0x03 are line start and line end (R581). -/
def execSpLongPacket (p vc dt ecc : Nat) (payload : List Byte) (crcOk : Bool) (s : State) : Res :=
  let short := dt = 2 || dt = 3
  let h := s.spHeader p vc ecc (short || dt = s.obj (Obj.SP_DATA_TYPE p))
  if !h.1 then .next h.2 else
  let s := h.2
  let arrival := s.nowUs
  if short then .next (if s.spMode p = 2 then s.spItems p (dt + 1) vc dt 0 [] else s) else
  let bad := !crcOk || (s.sp p).armed
  let r := if bad then ((s.bump (Obj.SP_CRC_ERRORS p)).setSp p { s.sp p with armed := false }).spPellet p Es.spCrc else (0, s)
  let m := r.1
  let s := r.2
  .next (match s.spMode p with
    | 1 =>
      let b := s.inWidth p / 8
      let s := (List.range (payload.length / b)).foldl (fun s i => s.spWord p (fieldLE payload (i * b) b) m arrival) s
      if payload.length % b = 0 then s else s.bump (Obj.SP_NOMATCH p) (payload.length % b)
    | 2 => s.spItems p 0 vc dt m payload
    | 3 => s.spLine p m payload
    | _ => s)

/-- SP_BEAT_FLUSH: SP_EVT_FLUSH_US after its first event, a partly filled beat is sent (R592). -/
def execSpBeatFlush (p : Nat) (s : State) : Res := occ (decide (p < 8) && !s.safety.safe) s (s.flushBeats p)

/-- SP_FRAME_FILL_POST: every line write of the oldest ended frame is visible (R594). -/
def execSpFrameFillPost (p : Nat) (s : State) : Res :=
  if 8 ≤ p || s.safety.safe then .next s else
  let s := State.pumpLines p (s.sp p).todo.length s
  let x := s.sp p
  match x.ended with
  | [] => .next s
  | f :: r =>
    if x.todo.any (·.1 == f) || s.writing (.line p f) then .next s
    else .next (((s.setSp p { x with ended := r }).post (semOf (frPair x.frCfg) 0) 1).2.bump (Obj.SP_FRAMES p))

/-- A new SP_MODE at C2: a capture in progress is discarded (R583). -/
def State.applySpMode (s : State) (p v : Nat) : State :=
  let s := if (s.sp p).inFrame && v ≠ s.spMode p then s.breakFrame p (s.sp p).frame else s
  s.setObj (Obj.SP_MODE p) v

/-- A write of FR_BASE (offset 0x10) or FR_CFG (0x18) (R619). -/
def State.frWrite (s : State) (p off v : Nat) : Nat × State :=
  let x := s.sp p
  let reject (st : Nat) (s : State) : Nat × State := (st, s.setSp p { s.sp p with regStatus := st + off * 256 })
  if bit x.frCfg 63 && s.spMode p = 3 && !(off = 0x18 && !bit v 63) then reject Sc.accessDenied s
  else if off = 0x10 then (Sc.ok, s.setSp p { x with frBase := v })
  else if Nat.land v 0x780000000000F8C0 ≠ 0 then reject Sc.reservedNonzero s
  else if !bit v 63 then
    let s := if x.inFrame then s.breakFrame p x.frame else s
    (Sc.ok, s.setSp p { s.sp p with frCfg := v })
  else if frLines v = 0 || 4 < bits v 8 3 then reject Sc.boundViolation s
  else
    let n := frSlots v * frLines v * frStride v
    let r := if n = 0 then (false, 0, s) else s.ringCheck (frCtx v) x.frBase n
    let mm := n ≠ 0 && (grains x.frBase n).any fun g =>
      let z := s.xlate (frCtx v) g false true
      z.1.status = 0 && (s.placeOf z.1.ga).2 == some Region.mmio
    let st := firstFail [(x.frBase % 128 ≠ 0 || r.1 || mm, Sc.alignment), (r.2.1 ≠ 0, r.2.1)]
    if st ≠ 0 then reject st r.2.2 else (Sc.ok, r.2.2.setSp p { r.2.2.sp p with frCfg := v })

def execFrCfgWrite (p offset value : Nat) (s : State) : Res :=
  occ (decide (p < 8) && (offset == 0x10 || offset == 0x18) && decide (value < 2 ^ 64)) s (s.frWrite p offset value).2

/-- SP_INJECT (R622). -/
def checkSpInject (v : Nat) : Nat := if bits v 3 12 ≠ 0 then Sc.reservedNonzero else Sc.ok
def State.applySpInject (s : State) (v : Nat) : State :=
  let p := bits v 0 3
  if bit v 15 then s.setSp p { s.sp p with armed := true } else s

end Sys2Proof.Machine
end

