-- ==== Sys2Proof/Machine/Fabric.lean ====
section
/-!
DEFINITION. The logic fabric (R625 to R656): loading an image, scrubbing configuration memory, and the fabric ports.
-/
namespace Sys2Proof.Machine

def State.setFab (s : State) (f : Fabric) : State := { s with fab := f }
def State.setRegion (s : State) (r : Nat) (x : Region_) : State :=
  { s with fab := { s.fab with regions := SMap.set {} s.fab.regions r x } }
def State.fport (s : State) (n : Nat) : Fport := SMap.get {} s.fab.ports n
def State.setFport (s : State) (n : Nat) (x : Fport) : State :=
  { s with fab := { s.fab with ports := SMap.set {} s.fab.ports n x } }
def State.setLoad (s : State) (l : Load) : State := { s with fab := { s.fab with load := l } }

/-- REGION_STATE: two bits a region (Table 16.6). -/
def State.regionStates (s : State) : Nat := ((List.range 24).map fun r => (s.region r).st * 4 ^ r).sum

/-! The image header (Table 16.3). -/

def hdrMask (h : List Byte) : Nat := fieldLE h 12 4
def hdrFull (h : List Byte) : Bool := fieldLE h 5 1 == 0
def hdrBody (h : List Byte) : Nat := fieldLE h 16 4
def hdrClk (h : List Byte) (r : Nat) : Nat := fieldLE h (24 + 2 * r) 2
def hdrVio (h : List Byte) (b : Nat) : Nat := fieldLE h (72 + b) 1
def hdrWin (h : List Byte) (n : Nat) : Nat := fieldLE h (80 + n) 1
def hdrFlags (h : List Byte) (n : Nat) : Nat := fieldLE h (96 + n) 1

/-- Bytes of configuration frames of one region. -/
def regionBytes : Nat := 5242880

/-- The regions of a header's mask, rising. -/
def hdrRegions (h : List Byte) : List Nat := (List.range 24).filter (bit (hdrMask h))

/-- Reserved values of a header (R634 check 1, R630). -/
def hdrReserved (h : List Byte) : Bool :=
  let off (r : Nat) : Bool := !bit (hdrMask h) r
  fieldLE h 0 4 ≠ 0xFAB10001 || fieldLE h 4 1 ≠ 1 || decide (1 < fieldLE h 5 1) || fieldLE h 6 2 ≠ 0 || bits (hdrMask h) 24 8 ≠ 0 ||
  fieldLE h 78 2 ≠ 0 || ((h.drop 112).take 208).any (· ≠ 0) ||
  (List.range 6).any (fun b => decide (3 < hdrVio h b) || (off (16 + b) && hdrVio h b ≠ 0)) ||
  (List.range 24).any (fun r => off r && hdrClk h r ≠ 0) ||
  (List.range 16).any fun n =>
    let w := hdrWin h n
    (decide (1 ≤ w) && decide (w ≤ 11)) || decide (35 ≤ w) || decide (7 < hdrFlags h n) || (off n && (w ≠ 0 || hdrFlags h n ≠ 0))

/-- Sizes and ranges of a header (R634 check 2). -/
def hdrBound (h : List Byte) : Bool :=
  hdrMask h = 0 || hdrBody h ≠ regionBytes * (hdrRegions h).length ||
  (List.range 24).any (fun r => hdrClk h r ≠ 0 && (decide (hdrClk h r < 10) || decide (500 < hdrClk h r))) ||
  (List.range 16).any fun n => hdrClk h n = 0 && (hdrWin h n ≠ 0 || hdrFlags h n ≠ 0)

/-- The key and version checks of R57 that stand on the header. -/
def hdrTrusted (h : List Byte) : Bool :=
  Hash.sha384 ((h.drop 320).take 96) == Config.ownerKeyDigest && decide (Config.minSecVersion ≤ fieldLE h 8 4)

/-! Loading (R631 to R639). -/

/-- HOLD and OVER pause loads and scrubbing (R639, R640). -/
def State.fabPaused (s : State) : Bool := s.sup.band == .hold || s.sup.band == .over || s.safety.safe

/-- Regions a load touches: every region under FULL (R631). -/
def loadRegions (l : Load) : List Nat := if hdrFull l.header then List.range 24 else hdrRegions l.header

/-- Leave a region unconfigured, its window undeclared. -/
def State.clearRegion (s : State) (r : Nat) : State :=
  let s := s.setRegion r {}
  if r < 16 then { s with mem := { s.mem with fabricWin := s.mem.fabricWin.set r 0 } } else s

/-- A load fails: after L1 its regions are cleared and left UNCONFIGURED (R58, R634, R635). `src` is the error source it
raises, none where none is raised. -/
def State.failLoad (s : State) (st : Nat) (src : Option Nat) : State :=
  let l := s.fab.load
  let s := if 2 ≤ l.step then (loadRegions l).foldl (fun s r => s.clearRegion r) s else s
  let s := (s.setObj Obj.CFG_LAST_STATUS st).bump Obj.CFG_LOAD_FAILS
  let wait := s.fab.waitHost || (l.boot && s.sup.bootPins % 8 = 3)
  let s := s.setFab { s.fab with load := {}, waitHost := wait }
  match src with | some e => s.raise e { status := st } | none => s

/-- Start a load from a source. -/
def State.startLoad (s : State) (src addr len : Nat) (boot : Bool) : State :=
  s.setLoad { step := 1, source := src, addr := addr, len := len, boot := boot }

/-- Refuse a configuration write (CFG_REG_STATUS). -/
def State.cfgReject (s : State) (off st : Nat) : Nat × State := (st, s.setFab { s.fab with regStatus := st + off * 256 })

/-- A write of CFG_CTRL (R634, R636). -/
def State.cfgCtrl (s : State) (v : Nat) : Nat × State :=
  let running := s.fab.load.step ≠ 0
  if Nat.land v 0xFFFFFFFFFFFFFECE ≠ 0 || bits v 4 2 = 3 then
    s.cfgReject 0x800000 Sc.reservedNonzero |> fun r => if bit v 0 then (r.1, r.2.setObj Obj.CFG_LAST_STATUS r.1) else r
  else
    let s := if bit v 8 && running then s.failLoad Sc.stateConflict (some Es.fabricLoad) else s
    if bit v 0 then
      if s.fab.load.step ≠ 0 then s.cfgReject 0x800000 Sc.stateConflict
      else (Sc.ok, (s.startLoad (bits v 4 2) s.fab.cfgAddr s.fab.cfgLen false).setFab
        { (s.startLoad (bits v 4 2) s.fab.cfgAddr s.fab.cfgLen false).fab with waitHost := false })
    else (Sc.ok, s)

def execCfgGo (value : Nat) (s : State) : Res := occ (bit value 0 && decide (value < 2 ^ 64) && !s.safety.safe) s (s.cfgCtrl value).2
def execCfgAbort (value : Nat) (s : State) : Res :=
  occ (bit value 8 && !bit value 0 && decide (value < 2 ^ 64) && !s.safety.safe) s (s.cfgCtrl value).2

/-- A write to the CFG_DATA window (R637): `n` bytes of value v at an offset of the class block. -/
def State.cfgData (s : State) (off n v : Nat) : Nat × State :=
  let l := s.fab.load
  if n ≠ 8 then s.cfgReject off Sc.alignment
  else if !(l.source = 0 && (l.step = 1 || l.step = 2)) then s.cfgReject off Sc.accessDenied
  else if 512 ≤ l.got && 512 + hdrBody l.header < l.got + 8 then s.cfgReject off Sc.boundViolation
  else
    let b := leBytes 8 v
    (Sc.ok, s.setLoad (if l.got < 512 then { l with header := l.header ++ b, got := l.got + 8 }
                       else { l with body := l.body ++ b, got := l.got + 8 }))

/-- The writes held during a pause are made, in order (R639). -/
def State.takeHeldData (s : State) : State :=
  if s.fabPaused then s else
  s.fab.heldData.foldl (fun s v => (s.cfgData 0x900000 8 v).2) (s.setFab { s.fab with heldData := [] })

def execCfgDataWrite (value : Nat) (s : State) : Res :=
  occ (decide (value < 2 ^ 64)) s (s.setFab { s.fab with heldData := s.fab.heldData ++ [value] }).takeHeldData

/-- A range of local memory is backed page by page. -/
def State.imageBacked (s : State) (a n : Nat) : Bool :=
  decide (a + n ≤ 2 ^ 56) && (List.range ((a + n - 1) / 4096 - a / 4096 + 1)).all fun i =>
    (s.holder (max a ((a / 4096 + i) * 4096))).isSome

/-- Begin to hood a unit that is not asked to by a request: it drains once its programs are done. -/
def State.hoodUnit (s : State) (u : Nat) : State :=
  let b := s.ucb u
  match b.st with
  | .ready => s.startDrain u .hooded
  | .busy => s.setUcb u { b with st := .quiescing, target := some .hooded, targetMgmt := false }
  | _ => s

/-- Write image words into a region's frames. -/
def frameWords (bs : List Byte) : SMap Nat :=
  (List.range (regionBytes / 8)).filterMap fun i => let w := fieldLE bs (8 * i) 8; if w = 0 then none else some (i, w)

/-- LOAD_HEADER_CHECK: L1, and L2 where it passes (R634, R635). For XSPI, `flash` is what the flash answered from CFG_ADDR on
and `flashBytes` its size. -/
def execLoadHeaderCheck (flash : List Byte) (flashBytes : Nat) (s : State) : Res :=
  let l := s.fab.load
  if l.step ≠ 1 || s.fabPaused || (l.source = 0 && l.got < 512) then .next s else
  let a := l.addr % 2 ^ 56
  let unread := l.source = 1 && !(s.imageBacked a 512)
  let rd := if l.source = 1 && !unread then s.readRange false a 512 else ({}, s)
  let h := if l.source = 0 then l.header else if l.source = 1 then rd.1.bytes else padTo 512 flash
  let s := rd.2.setLoad { l with header := h }
  if rd.1.mark ≠ 0 then .next (s.failLoad Sc.accessDenied (some Es.fabricLoad)) else
  let len := 512 + hdrBody h
  let range := if l.source = 1 then l.len ≠ len || unread || !(s.imageBacked a len)
    else if l.source = 2 then (!l.boot && l.len ≠ len) || decide (flashBytes < l.addr + len) else false
  let st := firstFail [(!unread && hdrReserved h, Sc.reservedNonzero), (hdrBound h || range, Sc.boundViolation),
    (l.source ≠ 0 && l.addr % 4096 ≠ 0, Sc.alignment), (!hdrTrusted h, Sc.accessDenied)]
  if st ≠ 0 then .next (s.failLoad st (some (if st = Sc.accessDenied then Es.fabricAuth else Es.fabricLoad))) else
  let l := { s.fab.load with step := 2 }
  let s := s.setFab { s.fab with load := l, lastMask := hdrMask h }
  .next ((loadRegions l).foldl (fun s r =>
    let s := s.setRegion r { st := 1 }
    if r < 16 then s.hoodUnit (unitOf 9 r) else s) s)

/-- LOAD_BODY_COMPLETE: L3. The frames are written in body order; a poisoned beat of device memory ends the load (R636). -/
def execLoadBodyComplete (flash : List Byte) (s : State) : Res :=
  let l := s.fab.load
  let n := hdrBody l.header
  if l.step ≠ 2 || s.fabPaused || (l.source = 0 && l.got ≠ 512 + n) then .next s else
  let rd := if l.source = 1 then s.readRange false (l.addr % 2 ^ 56 + 512) n else ({}, s)
  let body := if l.source = 0 then l.body else if l.source = 1 then rd.1.bytes else padTo n flash
  let s := rd.2
  if rd.1.mark ≠ 0 then .next (s.failLoad Sc.accessDenied (some Es.fabricLoad)) else
  let s := (hdrRegions l.header).zipIdx.foldl (fun s r =>
    s.setRegion r.1 { s.region r.1 with frames := frameWords ((body.drop (r.2 * regionBytes)).take regionBytes) }) s
  .next (s.setLoad { l with step := 3, body := body, got := 512 + n })

/-- LOAD_SIGNATURE_VERIFY: L4 (R57). -/
def execLoadSignatureVerify (s : State) : Res :=
  let l := s.fab.load
  if l.step ≠ 3 || s.fabPaused then .next s else
  let ok := Config.signatureOk ((l.header.drop 320).take 96) (Hash.sha384 (l.header.take 416 ++ l.body)) ((l.header.drop 416).take 96)
  .next (s.setLoad { l with step := 4, fail := if ok then none else some Sc.accessDenied })

/-- LOAD_RELEASE: L5 (R635). -/
def execLoadRelease (s : State) : Res :=
  let l := s.fab.load
  if l.step ≠ 4 || s.fabPaused then .next s else
  match l.fail with
  | some st => .next (s.failLoad st (some Es.fabricAuth))
  | none =>
    let h := l.header
    let s := (loadRegions l).foldl (fun s r =>
      if !bit (hdrMask h) r then s.clearRegion r else
      let s := s.setRegion r { s.region r with
        st := 2, fclkMhz := hdrClk h r, vio := if 16 ≤ r && r < 22 then hdrVio h (r - 16) else 0
        flags := if r < 16 then hdrFlags h r else 0, winLog2 := if r < 16 then hdrWin h r else 0
        esig := if r < 16 then bits (fieldLE h 20 4) (2 * r) 2 else 0 }
      if r < 16 then
        let w := hdrWin h r
        let s := { s with mem := { s.mem with fabricWin := s.mem.fabricWin.set r (if w = 0 then 0 else 2 ^ w) } }
        let u := unitOf 9 r
        if !s.available u || (s.ucb u).mgmtStop || s.unitSt u == .faulted || s.unitSt u == .test then s else s.moveUnit u .ready
      else s) s
    .next (((s.setObj Obj.CFG_LAST_STATUS 0).bump Obj.CFG_LOADS).setLoad {})

/-- CFG_STREAM_TIMEOUT (R636). -/
def execCfgStreamTimeout (s : State) : Res :=
  let l := s.fab.load
  occ (!s.fabPaused && l.source == 0 && (l.step == 1 || l.step == 2)) s (s.failLoad Sc.timeout (some Es.fabricLoad))

/-- XSPI_TIMEOUT: as an authentication failure, with XSPI_ABSENT (R636, Table 2.14). -/
def execXspiTimeout (s : State) : Res :=
  let l := s.fab.load
  occ (!s.fabPaused && l.source == 2 && (l.step == 1 || l.step == 2)) s (s.failLoad Sc.accessDenied (some Es.xspiAbsent))

/-! Scrubbing (R640 to R642). -/

/-- A double-bit error in a frame of region r (R641). -/
def State.cfgUe (s : State) (r : Nat) : State :=
  let s := s.bump Obj.CFG_UE
  if s.obj Obj.FABRIC_UE_ACTION = 1 then s.raise Es.fabricCfgUeFatal { info := r }
  else
    let s := s.setRegion r { s.region r with st := 3 }
    let s := if r < 16 then s.setUcb (unitOf 9 r) { s.ucb (unitOf 9 r) with st := .faulted, target := none } else s
    s.raise Es.fabricCfgUe { info := r }

/-- Bits set in a number below 2^72. -/
def ones72 (v : Nat) : Nat := ((List.range 72).filter (bit v)).length

/-- The frame that the scrubber reads next: the position where its region runs, else the first frame of the next running
region; and whether a pass ends before it. -/
def State.scrubNext (s : State) : Option (Nat × Nat × Bool) :=
  let pos := s.fab.scrubPos
  let runs := (List.range 24).filter fun r => (s.region r).st = 2
  if runs.contains (pos / 1280) then some (pos / 1280, pos % 1280, false)
  else match runs.find? (fun r => decide (pos / 1280 < r)), runs.head? with
    | some r, _ => some (r, 0, false)
    | none, some r => some (r, 0, decide (0 < pos))
    | none, none => none

/-- CFG_SCRUB_FRAME: the next frame is read. `found` is what the scrubber finds beside the upsets the state holds: 1 a
single-bit, 2 a double-bit error. -/
def execCfgScrubFrame (found : Nat) (s : State) : Res :=
  if s.obj Obj.CFG_SCRUB_PERIOD_MS = 0 || s.fabPaused then .next s else
  match s.scrubNext with
  | none => .next s
  | some (r, f, wrapped) =>
    let x := s.region r
    let here := x.upset.filter fun e => e.1 / 512 == f
    let bad := here.any (fun e => 1 < ones72 e.2) || found = 2
    let fixed := (here.filter fun e => ones72 e.2 = 1).length + b2n (found = 1)
    let s := s.setRegion r { x with upset := x.upset.filter fun e => !(e.1 / 512 == f && ones72 e.2 == 1) }
    let s := (List.range fixed).foldl (fun s _ => (s.bump Obj.CFG_CE).raise Es.fabricCfgCe { info := r }) s
    let s := if wrapped then s.bump Obj.CFG_SCRUB_PASSES else s
    let pos := r * 1280 + f + 1
    let s := s.setFab { s.fab with scrubPos := pos % (24 * 1280) }
    let s := if pos = 24 * 1280 then s.bump Obj.CFG_SCRUB_PASSES else s
    .next (if bad then s.cfgUe r else s)

/-- CFG_INJECT (Table 16.8). -/
def checkCfgInject (v : Nat) : Nat :=
  if bits v 32 30 ≠ 0 || bits v 62 2 = 3 then Sc.reservedNonzero
  else if 23 < bits v 0 5 || 1279 < bits v 5 11 || 511 < bits v 16 9 || 71 < bits v 25 7 then Sc.boundViolation else Sc.ok

def State.applyCfgInject (s : State) (v : Nat) : State :=
  let r := bits v 0 5
  let b := bits v 25 7
  let m := match bits v 62 2 with
    | 1 => 2 ^ b
    | 2 => 2 ^ b + 2 ^ ((b + 1) % 72)
    | _ => 0
  let x := s.region r
  let k := bits v 5 11 * 512 + bits v 16 9
  s.setRegion r { x with upset := SMap.set 0 x.upset k (Nat.xor (SMap.get 0 x.upset k) m) }

/-- FABRIC_RAM_ERROR (R628). -/
def execFabricRamError (double : Bool) (s : State) : Res :=
  .next (if s.safety.safe then s
    else if double then (s.bump Obj.FAB_RAM_UE).raise Es.fabricRamUe else s.bump Obj.FAB_RAM_CE)

/-! Fabric ports: the master side (R643 to R647). -/

/-- Return the answers that stand first of their ordering ID, in request order (R646). -/
def releaseAnswers : List MReq → List Nat → List MReq × List (Nat × Nat × Nat × List Byte)
  | [], _ => ([], [])
  | m :: r, held =>
    match m.ans with
    | some a =>
      if held.contains m.oid then
        let z := releaseAnswers r held
        (m :: z.1, z.2)
      else
        let z := releaseAnswers r held
        (z.1, (m.oid, a.1, a.2.1, a.2.2) :: z.2)
    | none =>
      let z := releaseAnswers r (m.oid :: held)
      (m :: z.1, z.2)

/-- The answer of a master request: status, mark, data; what its ordering ID lets go is returned. -/
def State.masterDone (s : State) (n tag st m : Nat) (data : List Byte) : State :=
  let x := s.fport n
  let ms := x.masters.map fun r => if r.tag == tag && r.ans.isNone then { r with ans := some (st, m, data) } else r
  let z := releaseAnswers ms []
  z.2.foldl (fun s a => s.emit (.fportAnswer n a.1 a.2.1 (a.2.2.1 - 1) (a.2.2.1 ≠ 0) a.2.2.2)) (s.setFport n { x with masters := z.1 })

/-- A request answered without an effect; `data` is what a read of undefined data returns. -/
def State.masterRefuse (s : State) (n oid st m : Nat) (data : List Byte := []) : State :=
  let x := s.fport n
  (s.setFport n { x with masters := x.masters ++ [{ oid := oid, tag := x.nextTag, mmio := false }], nextTag := x.nextTag + 1 }).masterDone
    n x.nextTag st m data

/-- Take one master request: CMD 0 READ, 1 WRITE, 2 AMO; `none` where it waits in the FPORT (R304, R393, R646). The checks stand
in the order of R26; one toward a device that no port reaches is answered LINK_ABSENT, a read or an atomic with poisoned data
and a pellet (R20). -/
def State.masterTake (s : State) (n : Nat) (q : FpReq) : Option State :=
  let cmd := q.cmd
  let addr := q.addr
  let len := q.len
  let oid := q.oid
  let op := q.op
  let u := unitOf 9 n
  let x := s.fport n
  if s.obj (Obj.FP_MAX_OUTSTANDING n) ≤ x.masters.length then none else
  let amo := cmd = 2
  if decide (2 < cmd) || (amo && op ≠ 0x10 && op ≠ 0x11 && decide (9 < op)) then some (s.masterRefuse n oid Sc.reservedNonzero 0) else
  let closed := !(s.unitSt u == .ready || s.unitSt u == .busy || s.unitSt u == .quiescing) || (s.dom u).phase != .open_
  if closed then
    let st := if s.unitSt u == .faulted then Sc.unitDisabled else Sc.unitHooded
    let r := if cmd = 0 then s.pellet { source := Es.accessPoison, code := Pc.unitHooded, status := st, oClass := 9, oIndex := n }
      else (0, s)
    some (r.2.masterRefuse n oid st (if cmd = 0 then r.1 + 1 else 0)) else
  let st0 := firstFail [
    (decide (len < 1) || decide (128 < len) || (amo && len ≠ 4 && len ≠ 8), Sc.boundViolation),
    (decide (128 < addr % 128 + len) || (amo && addr % max len 1 ≠ 0), Sc.alignment)]
  if st0 ≠ 0 then some (s.masterRefuse n oid st0 0) else
  let t := s.xlateRange (s.obj (Obj.FP_CTX n)) addr len (cmd = 0 || (amo && op ≠ 0x11)) (cmd = 1 || (amo && op ≠ 0x10))
  let s := t.2.2.2
  let ga := (t.2.1.headD (0, 0, 0)).1
  let mmio := ga / 2 ^ 56 = s.devId && regionOf (ga % 2 ^ 56) == .mmio
  let st1 := firstFail [
    (t.1 = Sc.alignment || (t.1 = 0 && mmio && !((len = 4 || len = 8) && addr % len = 0)), Sc.alignment),
    (t.1 = Sc.apertureMiss, Sc.apertureMiss),
    (t.1 ≠ 0 || !bit (s.region n).flags 1 || (mmio && amo), Sc.accessDenied)]
  if st1 ≠ 0 then some (s.masterRefuse n oid st1 0) else
  -- a write to MMIO waits for the earlier requests of its ordering ID (R393)
  if mmio && cmd = 1 && x.masters.any (fun m => m.oid == oid && m.ans.isNone) then none else
  match s.destNode (ga / 2 ^ 56) (ga % 2 ^ 56) with
  | none =>
    if ga / 2 ^ 56 = s.devId then some ((s.unbackedHit (ga % 2 ^ 56)).masterRefuse n oid Sc.accessDenied 0)
    else if cmd = 1 then some (s.masterRefuse n oid Sc.linkAbsent 0)
    else
      let r := s.linkAbsentData ga len 9 n
      some (r.2.masterRefuse n oid Sc.linkAbsent r.1.mark r.1.bytes)
  | some d =>
    let pr := if q.poison && cmd = 1 then
        (s.bump (Obj.FP_POISON_MARKED n)).pellet { source := Es.fabricPoison, code := Pc.fabric, oClass := 9, oIndex := n, cls := 9, sub := n + 1 }
      else (0, s)
    let bad := q.poison && cmd = 1
    let kind : PKind := if cmd = 0 then .rdReq else if amo then .amoReq else if bad then .wrPoison else .wr
    let pk : Packet := {
      id := 0, kind := kind, tc := if amo then 0 else if q.tc = 0 then 1 else 2, src := 0, dst := d, at_ := 0
      dev := ga / 2 ^ 56, addr := ga % 2 ^ 56, len := len
      data := if cmd = 0 then [] else padTo (if amo then 16 else len) q.data,
      poison := bad, pseq := pr.1, op := op, sz := if len = 8 then 1 else 0, agent := .fabric n oid, sentNs := 0 }
    let s1 := pr.2.setFport n { x with masters := x.masters ++ [{ oid := oid, tag := x.nextTag, mmio := mmio }], nextTag := x.nextTag + 1 }
    match s1.send pk (.fabric n x.nextTag) with
    | some s => some (s.bump64 (Obj.FP_MASTER_REQS n))
    | none => none

/-- The requests that wait in the FPORT are taken in order, as far as they can be. -/
def State.masterPump (n : Nat) : Nat → State → State
  | 0, s => s
  | k + 1, s =>
    match (s.fport n).waiting with
    | [] => s
    | q :: r =>
      match (s.setFport n { s.fport n with waiting := r }).masterTake n q with
      | some s => State.masterPump n k s
      | none => s

/-- An answer reaches a fabric master, and what waits in the FPORT goes on. -/
def State.masterAnswer (s : State) (n tag st m : Nat) (data : List Byte) : State :=
  let s := s.masterDone n tag st m data
  State.masterPump n (s.fport n).waiting.length s

/-- FP_MASTER_REQUEST: the request joins those that wait in the FPORT (R643 to R647). -/
def execFpMasterRequest (n cmd addr len oid tc : Nat) (poison : Bool) (op : Nat) (data : List Byte) (s : State) : Res :=
  if 16 ≤ n || (s.region n).st ≠ 2 || s.safety.safe then .next s else
  let x := s.fport n
  let q : FpReq := { cmd := cmd, addr := addr, len := len, oid := oid, tc := tc, poison := poison, op := op, data := data }
  .next (State.masterPump n (x.waiting.length + 1) (s.setFport n { x with waiting := x.waiting ++ [q] }))

/-! The target side (R648 to R650). -/

/-- Pass a window request to the fabric; `none` while the port holds 1,024 (R648). -/
def State.fabricTarget (s : State) (n : Nat) (p : Packet) : Option State :=
  let x := s.fport n
  if 1024 ≤ x.targets.length then none else
  let tag := ((List.range 1024).find? fun t => !(x.targets.any (·.1 == t))).getD 0
  let cmd := match p.kind with | .rdReq => 0 | .amoReq => 2 | _ => 1
  some ((((s.setFport n { x with targets := x.targets ++ [(tag, p)] }).bump64 (Obj.FP_TARGET_REQS n)).emit
    (.fportTarget n tag cmd ((p.addr - fabricBase) % (16 * gib)) p.len p.op p.data p.poison p.pseq)))

/-- FP_TARGET_ANSWER (R649). -/
def execFpTargetAnswer (n tag status : Nat) (poison : Bool) (data : List Byte) (s : State) : Res :=
  if 16 ≤ n || s.safety.safe then .next s else
  let x := s.fport n
  match x.targets.find? (·.1 == tag) with
  | none => .next s
  | some (_, p) =>
    let s := s.setFport n { x with targets := x.targets.filter (·.1 ≠ tag) }
    let s := if 1 < status then s.bump (Obj.FP_TARGET_ERRORS n) else s
    let info : PelletInfo := {
      source := Es.fabricPoison, code := Pc.fabric, addr := some (s.devId * 2 ^ 56 + p.addr / 128 * 128),
      status := if status = 0 then 0 else Sc.accessDenied, oClass := 9, oIndex := n, cls := 9, sub := n + 1 }
    let st := if status = 0 then Sc.ok else Sc.accessDenied
    match p.kind with
    | .wr | .wrPoison => .next (s.respond p .wrAck st [] 0 0)
    | k =>
      let bad := status ≠ 0 || poison
      let r := if bad then s.pellet info else (0, s)
      let s := if poison && status = 0 then r.2.bump (Obj.FP_POISON_MARKED n) else r.2
      .next (s.respond p (if k == .amoReq then .amoRsp else .rdRsp) st (padTo p.len data) (if bad then r.1 + 1 else 0) 0)

/-- FABRIC_EPOCH_EDGE: a rising edge of fabric epoch signal e (R653). -/
def execFabricEpochEdge (e : Nat) (s : State) : Res :=
  occ (decide (e < 32) && (s.region (e / 2)).st == 2 && bit (s.region (e / 2)).esig (e % 2) && !s.safety.safe) s (s.triggerSource 7 e)

/-- FP_CTX (R659): only a context bound to the physical function. -/
def State.checkFpCtx (s : State) (v : Nat) : Nat :=
  if 63 < v then Sc.boundViolation
  else
    let w := SMap.get 0 s.host.ctxBind v
    if bit w 63 && bits w 0 6 = 0 then Sc.ok else Sc.accessDenied

end Sys2Proof.Machine
end

