-- ==== Sys2Proof/Machine/LinkCode.lean ====
section
/-!
DEFINITION. What a Phidun lane and link carry on the wire (R664, R668, R695, R697, R705 to R707): line levels, training frames,
patterns and injected errors, codewords, their check symbols and their stripes.
-/
namespace Sys2Proof.Machine

/-- CRC-32 of a number of bits, bit 0 first: reflected register, initial value all ones, final complement (R668, R706). -/
def crc32Reg : Nat → Nat → Nat → Nat
  | 0, _, c => c
  | k + 1, v, c => crc32Reg k (v / 2) (if (c + v) % 2 = 1 then Nat.xor (c / 2) 0xEDB88320 else c / 2)

def crc32 (nbits v : Nat) : Nat := 2 ^ 32 - 1 - crc32Reg nbits v (2 ^ 32 - 1)

/-! Line codes (R664). -/

/-- The PAM4 level of a pair of bits, the first sent the more significant. -/
def pam4Level (first second : Bool) : Int :=
  match first, second with
  | false, false => -3
  | false, true => -1
  | true, true => 1
  | true, false => 3

/-- The levels in which a lane sends bits: pairs at the PAM4 rates, the lowest and the highest level at 28 Gb/s. -/
def lineLevels (rate : Nat) : List Bool → List Int
  | [] => []
  | a :: r =>
    if rate = 0 then (if a then 3 else -3) :: lineLevels rate r
    else match r with
      | b :: t => pam4Level a b :: lineLevels rate t
      | [] => []

/-- The symbols of a training frame: 128 of header, one bit each at the outer levels, then 3,968 of pattern (R668). -/
def trainingFrame (header : Nat) (pattern : List Int) : List Int :=
  ((List.range 128).map fun i => if bit header i then 3 else -3) ++ pattern.take 3968

/-- Bits of a PRBS: each the sum of two earlier ones (Table 17.6). The register starts with ones (DESIGN CHOICE, log 34). -/
def prbsBits (a b : Nat) : Nat → Nat → List Bool
  | 0, _ => []
  | n + 1, reg =>
    let x := bit reg (a - 1) != bit reg (b - 1)
    x :: prbsBits a b n ((reg * 2 + b2n x) % 2 ^ a)

/-- The polynomial of a PRBS code (Table 17.6): its two exponents. PRBS13Q is the PAM4 pattern of IEEE 802.3 Clause 120 and is not
made here. -/
def prbsTaps (code : Nat) : Option (Nat × Nat) :=
  match code with
  | 1 => some (7, 6) | 2 => some (9, 5) | 4 => some (15, 14) | 5 => some (23, 18) | 6 => some (31, 28)
  | _ => none

/-- `n` bits of a pattern generator: a PRBS, or the 80 bits of PATTERN_USER repeated, bit 0 first. -/
def patternBits (code user n : Nat) : List Bool :=
  match prbsTaps code with
  | some (a, b) => prbsBits a b n (2 ^ a - 1)
  | none => if code = 7 then (List.range n).map fun i => bit user (i % 80) else []

/-- Bits that an injection inverts (R697): one for BIT, BURST_LEN for BURST, and for SYMBOL the pair, or one bit at 28 Gb/s. -/
def injectLen (kind burst rate : Nat) : Nat :=
  match kind with
  | 1 => 1
  | 2 => burst
  | 3 => if rate = 0 then 1 else 2
  | _ => 0

/-- A bit stream with an injection at a place; SYMBOL begins at the pair's first bit. -/
def injectAt (kind burst rate at_ : Nat) (bs : List Bool) : List Bool :=
  let lo := if kind = 3 && rate ≠ 0 then at_ / 2 * 2 else at_
  bs.zipIdx.map fun b => if lo ≤ b.2 && b.2 < lo + injectLen kind burst rate then !b.1 else b.1

/-! Codewords (R705 to R707). -/

/-- The 1,152 bits of a link flit in transmit order, the first in bit 0 (R707). -/
def LinkFlit.bits (f : LinkFlit) : Nat := f.hdr % 2 ^ 128 + ofLE (padTo 128 f.payload) * 2 ^ 128

/-- The flit that 1,152 bits spell. -/
def flitOf (v : Nat) : LinkFlit := { hdr := v % 2 ^ 128, payload := leBytes 128 (v / 2 ^ 128) }

/-- The 5,140 data bits of a codeword (R706, Table 18.1). -/
def codewordData (flits first seq : Nat) : Nat :=
  let v := flits % 2 ^ 5088 + first % 2 ^ 11 * 2 ^ 5088 + seq % 512 * 2 ^ 5099
  v + crc32 5108 v * 2 ^ 5108

/-- GF(2^10) as Clause 91 of IEEE 802.3 has it, with x^10 + x^3 + 1 (PRESUMED, log 53). -/
def gfkMul (a b : Nat) : Nat :=
  (List.range 10).foldl (fun r i =>
    let d := if r < 512 then 2 * r else Nat.xor (2 * r) 0x409
    if bit b (9 - i) then Nat.xor d a else d) 0

/-- The generator polynomial of RS(544,514): roots 1 to α^29, the constant term first (PRESUMED, log 53). -/
def fecGenerator : List Nat :=
  ((List.range 30).foldl (fun (g : List Nat × Nat) _ =>
    ((0 :: g.1).zipWith Nat.xor (g.1.map (gfkMul g.2) ++ [0]), gfkMul g.2 2)) ([1], 1)).1

/-- The 30 check symbols that follow 514 data symbols, the first data symbol the highest power (PRESUMED, log 53). -/
def fecCheck (data : List Nat) : List Nat :=
  (data.foldl (fun r m =>
    let f := Nat.xor m (r.getD 29 0)
    (0 :: r.take 29).zipWith Nat.xor ((fecGenerator.take 30).map (gfkMul f))) (List.replicate 30 0)).reverse

/-- The 544 symbols of a codeword: data symbols, the first bit of each in its bit 0, then check symbols (R705). -/
def codewordSymbols (data : Nat) : List Nat :=
  let d := (List.range 514).map fun i => Sys2Proof.bits data (10 * i) 10
  d ++ fecCheck d

/-- Symbol s of a codeword goes to lane s mod L of the running set (R705). -/
def stripe (lanes : Nat) (syms : List Nat) : List (List Nat) :=
  (List.range lanes).map fun l => (syms.zipIdx.filter fun s => s.2 % lanes == l).map (·.1)

/-- The symbols of a codeword from the lanes of the running set, in ascending order. -/
def unstripe (lanes : List (List Nat)) : List Nat :=
  (List.range 544).map fun s => (lanes.getD (s % lanes.length) []).getD (s / lanes.length) 0 % 1024

/-- The bits in which a lane sends its symbols, each from bit 0 upward (R705). -/
def laneBits (syms : List Nat) : List Bool := syms.flatMap fun s => (List.range 10).map fun i => bit s i

/-- Codeword k of a port's flit stream, which begins with bit 0 of codeword 0 at the frame boundary at which framing starts: its
data bits. Each flit comes with the number of the first transaction flit from it on (R705 to R707, R711). -/
def streamCodeword (flits : List (LinkFlit × Nat)) (k : Nat) : Nat :=
  let stream := flits.foldr (fun f v => f.1.bits + v * 2 ^ 1152) 0
  let i := cdiv (5088 * k) 1152
  codewordData (Sys2Proof.bits stream (5088 * k) 5088) (1152 * i - 5088 * k) ((flits.getD i (⟨0, []⟩, 0)).2)

/-- What a receiver reads of a codeword: FLITS, FIRST, SEQ_FIRST and whether the CRC holds (Table 18.1). -/
structure Codeword where
  flits : Nat
  first : Nat
  seq : Nat
  crcOk : Bool
deriving DecidableEq, Repr

/-- The codeword whose corrected symbols the lanes of the running set brought. -/
def readCodeword (lanes : List (List Nat)) : Codeword :=
  let v := ((unstripe lanes).take 514).foldr (fun s v => s + 1024 * v) 0
  { flits := Sys2Proof.bits v 0 5088, first := Sys2Proof.bits v 5088 11, seq := Sys2Proof.bits v 5099 9,
    crcOk := Sys2Proof.bits v 5108 32 == crc32 5108 (v % 2 ^ 5108) }

/-- The flit that ends at FIRST, with the bits that earlier codewords brought of it; none where they are lost. -/
def Codeword.straddling (c : Codeword) (part : Option (Nat × Nat)) : Option LinkFlit :=
  match part with
  | some (k, v) => if 0 < k && k + c.first = 1152 then some (flitOf (v + c.flits % 2 ^ c.first * 2 ^ k)) else none
  | none => none

/-- The flits that start and end in a codeword. -/
def Codeword.whole (c : Codeword) : List LinkFlit :=
  (List.range ((5088 - c.first) / 1152)).map fun i => flitOf (Sys2Proof.bits c.flits (c.first + 1152 * i) 1152)

/-- The bits of the flit that starts in a codeword and ends in the next: how many, and what they hold. -/
def Codeword.rest (c : Codeword) : Nat × Nat :=
  let k := (5088 - c.first) % 1152
  (k, Sys2Proof.bits c.flits (5088 - k) k)

end Sys2Proof.Machine
end

