-- ==== Sys2Proof/Machine/Lanes.lean ====
section
/-!
DEFINITION. Phidun lanes (chapter 17): training frames, the creance, transmit and receive equalisers, detectors, lane power
states, recalibration, patterns and injection.
-/
namespace Sys2Proof.Machine

def State.lane (s : State) (n l : Nat) : Lane := SMap.get {} s.link.lanes (8 * n + l)

def State.setLane (s : State) (n l : Nat) (x : Lane) : State :=
  { s with link := { s.link with lanes := SMap.set {} s.link.lanes (8 * n + l) x } }

/-- The lanes of a mask, ascending. -/
def lanesOf (mask : Nat) : List Nat := (List.range 8).filter fun l => bit mask l

/-- Change the lanes of a mask. -/
def State.mapLanes (s : State) (n mask : Nat) (f : Nat → Lane → Lane) : State :=
  (lanesOf mask).foldl (fun s l => s.setLane n l (f l (s.lane n l))) s

/-! Training-frame headers (Tables 17.2 and 17.3). -/

namespace Th
abbrev step (h : Nat) : Nat := bits h 32 3
abbrev rates (h : Nat) : Nat := bits h 35 4
abbrev rateSel (h : Nat) : Nat := bits h 39 2
abbrev port (h : Nat) : Nat := bits h 41 5
abbrev lane (h : Nat) : Nat := bits h 46 3
abbrev device (h : Nat) : Nat := bits h 49 8
abbrev reqPre (h : Nat) : Nat := bits h 57 2
abbrev reqMain (h : Nat) : Nat := bits h 59 2
abbrev reqPost (h : Nat) : Nat := bits h 61 2
abbrev reqPreset (h : Nat) : Nat := bits h 63 4
abbrev ready (h : Nat) : Bool := bit h 73
abbrev heard (h : Nat) : Bool := bit h 74
end Th

/-- The header checks of R669. -/
def trainingValid (h : Nat) : Bool :=
  bits h 0 32 == 0xE81B3C96 && bits h 96 32 == crc32 96 (h % 2 ^ 96) && Th.step h != 0 && Th.step h != 7 && decide (Th.port h < 20) &&
  Th.reqPre h != 3 && Th.reqMain h != 3 && Th.reqPost h != 3 && decide (Th.reqPreset h ≤ 8) &&
  bits h 67 2 != 3 && bits h 69 2 != 3 && bits h 71 2 != 3 && bits h 75 21 == 0

/-- The creance step of a header, coded as in Table 17.4. -/
def headerStep (h : Nat) : Nat := if Th.step h = 1 then 1 else Th.step h + 1

/-- The FFE presets (Table 17.2). -/
def ffePreset (k : Nat) : Int × Int × Int :=
  [(0, 64, 0), (0, 56, -8), (0, 48, -16), (-4, 52, -8), (-4, 44, -16), (-8, 48, -8), (-8, 40, -16), (-4, 40, -20)].getD k (0, 64, 0)

/-- The legal coefficients (R665). -/
def ffeLegal (pre main post : Int) : Bool :=
  decide (-16 ≤ pre) && decide (pre ≤ 0) && decide (24 ≤ main) && decide (main ≤ 64) && decide (-24 ≤ post) && decide (post ≤ 0) &&
  decide (main - pre - post ≤ 64)

/-- The coefficients a lane starts with: held ones with FIXED, else the START preset (R677, Table 17.11). -/
def ffeStart (v : Nat) : Int × Int × Int :=
  if bit v 31 then (sgn 8 (bits v 0 8), sgn 8 (bits v 8 8), sgn 8 (bits v 16 8)) else ffePreset (bits v 0 3)

/-- The header that a lane sends (R668, R671, R676, R677): what it holds of the port and lane, with the requests that its receiver
chooses (REQ_PRE, REQ_MAIN, REQ_POST, REQ_PRESET) and whether it has finished its step. -/
def State.ownHeader (s : State) (n l : Nat) (req : Nat × Nat × Nat × Nat) (ready : Bool) : Nat :=
  let x : Phy := s.phy n
  let y : Lane := SMap.get {} s.link.lanes (8 * n + l)
  let rates := ((List.range (x.maxRate + 1)).map fun k => if bit x.exclRates k then 0 else 2 ^ k).sum
  let step := if y.step ≤ 1 then 1 else y.step - 1
  let h := 0xE81B3C96 + step * 2 ^ 32 + rates * 2 ^ 35 + (if step = 1 then 0 else x.rateSel.getD 0) * 2 ^ 39 + n * 2 ^ 41 + l * 2 ^ 46 +
    s.devId * 2 ^ 49 + req.1 * 2 ^ 57 + req.2.1 * 2 ^ 59 + req.2.2.1 * 2 ^ 61 + req.2.2.2 * 2 ^ 63 + y.stsPre * 2 ^ 67 +
    y.stsMain * 2 ^ 69 + y.stsPost * 2 ^ 71 + b2n ready * 2 ^ 73 + b2n (decide (8 ≤ y.good)) * 2 ^ 74
  h + crc32 96 h * 2 ^ 96

/-! Where lanes go. -/

/-- Lanes into LOFF: off, taps lost. -/
def laneOffAs (excluded : Bool) (x : Lane) : Lane :=
  { x with
    step := 0, tx := 3, rx := 3, good := 0, heard := 0, sel := 0, sawRate := false, partnerReady := false, excluded := excluded
    taps := List.replicate 12 0, locked := false }

/-- A lane that lures: PRESENCE at 28 Gb/s, with the coefficients it starts from. -/
def lanePresence (ffe : Nat) (x : Lane) : Lane :=
  let c := ffeStart ffe
  { x with
    step := 1, tx := 0, rx := 0, good := 0, heard := 0, sel := 0, sawRate := false, partnerReady := false, excluded := false
    miscabled := false, pre := c.1, main := c.2.1, post := c.2.2, stsPre := 0, stsMain := 0, stsPost := 0 }

/-- A port enters PRESENCE: PH_MAX_RATE and PH_LANE_MASK take effect, and the masked lanes lure (R670, R700). -/
def State.enterPresence (s : State) (n : Nat) : State :=
  let m := s.obj (Obj.PH_LANE_MASK n)
  let s := s.setPhy n { s.phy n with
    step := 1, framing := false, set := 0, running := 0, rate := 0, rateSel := none, switched := false, partner := none
    conflict := false, laneReq := none, window := none, maxRate := s.obj (Obj.PH_MAX_RATE n), laneMask := m }
  let s := s.mapLanes n (255 - m) fun _ x => laneOffAs false x
  s.mapLanes n m fun l x => lanePresence (s.obj (Obj.TX_FFE (8 * n + l))) x

/-- A port enters WAIT: transmitters off, and every excluded rate returns (R672, R681). -/
def State.enterWait (s : State) (n : Nat) : State :=
  let s := s.setPhy n { s.phy n with step := 2, exclRates := 0, fails := 0, failSel := none }
  s.mapLanes n (s.phy n).laneMask fun _ x => { laneOffAs false x with step := 2 }

/-- A port off: every lane in LOFF, with the step it then reports. -/
def State.portOff (s : State) (n step : Nat) : State :=
  let s := s.setPhy n { s.phy n with
    step := step, framing := false, set := 0, running := 0, rateSel := none, switched := false, conflict := false
    laneReq := none, window := none }
  s.mapLanes n 255 fun _ x => laneOffAs false x

/-- The reference clock of a port is used and present (R683, R692). -/
def State.laneClock (s : State) (n : Nat) : Bool := bit (s.obj Obj.LANE_REFCLK_USED) (n / 4) && bit s.sup.refLane (n / 4)

/-- Start the creance of a port, or hold it where R683 and R684 say so. -/
def State.creanceStart (s : State) (n : Nat) : State :=
  if s.phPorts ≤ n then s
  else if s.stage < 4 || !s.laneClock n then s.portOff n 0
  else if s.obj (Obj.PH_LINK_ENABLE n) = 0 || s.unitSt (phUnit n) == .off then s.portOff n 8
  else s.enterPresence n

/-- The highest rate code that both sides offer (R676). -/
def commonRate (own partner : Nat) : Option Nat := [3, 2, 1, 0].find? fun k => bit own k && bit partner k

/-- The rate codes a port offers. -/
def Phy.rates (x : Phy) : Nat := ((List.range (x.maxRate + 1)).map fun k => if bit x.exclRates k then 0 else 2 ^ k).sum

/-- A return to PRESENCE from RATE to UP, with the exclusion of a rate after three failures in a row (R681). -/
def State.trainFail (s : State) (n : Nat) (timeout : Bool) : State :=
  let s := s.bump (Obj.CREANCE_RESTARTS n)
  let s := if timeout then s.bump (Obj.TRAIN_TIMEOUTS n) else s
  let x := s.phy n
  let fails := if x.rateSel.isNone then 0 else if x.failSel == x.rateSel then x.fails + 1 else 1
  match x.rateSel with
  | some r =>
    if fails < 3 then (s.setPhy n { x with fails := fails, failSel := x.rateSel }).creanceStart n
    else
      let s := (s.bump (Obj.RATE_FALLBACKS n)).setPhy n { x with fails := 0, failSel := none, exclRates := x.exclRates + 2 ^ r }
      if r = 0 then s.enterWait n else s.creanceStart n
  | none => (s.setPhy n { x with fails := 0, failSel := none }).creanceStart n

/-- A port leaves UP: its link drops, and the creance begins again where it may (R681, R684, R733). -/
def State.portDrop (s : State) (n : Nat) : State :=
  (((s.linkDrop n).bump (Obj.CREANCE_RESTARTS n)).setPhy n { (s.linkDrop n).phy n with graceSaid := false }).creanceStart n

/-- The lanes of an up port that retrain alone (R687). -/
def State.retraining (s : State) (n : Nat) : List Nat :=
  if (s.phy n).framing then (lanesOf (s.phy n).set).filter fun l => decide (1 ≤ (s.lane n l).step) && decide ((s.lane n l).step ≤ 6) else []

/-! PRESENCE and WAIT. -/

/-- PRESENCE ends after 100 ms with LINK_ABSENT (R670); a port in the condition of R675 stays and lures. -/
def execPresenceTimeout (n : Nat) (s : State) : Res :=
  let alone := (s.retraining n).filter fun l => (s.lane n l).step == 1
  occ ((s.phy n).step == 1 && !(s.phy n).conflict || !alone.isEmpty) s <|
    let s := s.bump (Obj.PH_ABSENT_COUNT n)
    if (s.phy n).step = 1 then s.enterWait n
    else alone.foldl (fun s l => s.setLane n l { laneOffAs false (s.lane n l) with step := 2 }) s

/-- PH_RETRY_MS expires in WAIT: the lanes lure again (R672). -/
def execPhRetryExpiry (n : Nat) (s : State) : Res :=
  let alone := if (s.phy n).framing then (lanesOf (s.phy n).set).filter fun l => (s.lane n l).step == 2 else []
  occ ((s.phy n).step == 2 || !alone.isEmpty) s <|
    let s := s.bump (Obj.PH_ABSENT_COUNT n)
    if (s.phy n).step = 2 then s.enterPresence n
    else alone.foldl (fun s l => s.setLane n l (lanePresence (s.obj (Obj.TX_FFE (8 * n + l))) (s.lane n l))) s

/-- The detector of a lane in WAIT reports signal: the lane enters PRESENCE at once, and its port is then in PRESENCE
(R672). -/
def execLureDetected (n l : Nat) (s : State) : Res :=
  occ (decide (l < 8) && (s.lane n l).step == 2) s <|
    let x := s.phy n
    let m := s.obj (Obj.PH_LANE_MASK n)
    let s := if x.step = 2 then
        let s := s.setPhy n { x with step := 1, maxRate := s.obj (Obj.PH_MAX_RATE n), laneMask := m, rateSel := none, switched := false }
        let s := s.mapLanes n (255 - m) fun _ y => laneOffAs false y
        s.mapLanes n m fun _ y => if y.step = 0 then { y with step := 2 } else y
      else s
    if x.step = 2 && !bit m l then s else
    s.setLane n l { lanePresence (s.obj (Obj.TX_FFE (8 * n + l))) (s.lane n l) with los := false, lol := false }

/-- The lanes of a port that hold 8 consecutive valid headers with STEP 1 and HEARD (R671). -/
def State.withPresence (s : State) (n : Nat) : List Nat :=
  (lanesOf (s.phy n).laneMask).filter fun l => (s.lane n l).step == 1 && decide (8 ≤ (s.lane n l).heard)

/-- The condition of R675: lanes with presence carry this device's own DEVICE_ID. -/
def State.idConflict (s : State) (n : Nat) : Bool :=
  (s.withPresence n).any fun l => Th.device (s.lane n l).hdr == s.devId

/-- Enter or leave the condition of R675. -/
def State.noteConflict (s : State) (n : Nat) : State :=
  let x := s.phy n
  if x.step ≠ 1 || x.framing then s else
  let c := s.idConflict n
  let s := if c && !x.conflict then s.bump (Obj.ID_CONFLICTS n) else s
  if c == x.conflict then s else s.setPhy n { x with conflict := c }

/-- A header in step RATE gives the partner's RATES: RATE_SEL is the highest common code; none fails the training (R676). -/
def State.noteRates (s : State) (n h : Nat) : State :=
  let x := s.phy n
  if x.step = 3 && !x.framing && x.rateSel.isNone && Th.step h = 2 then
    match commonRate x.rates (Th.rates h) with
    | some r => s.setPhy n { x with rateSel := some r }
    | none => s.trainFail n true
  else s

/-- A training-frame header arrives: checked, counted, its requests, status and READY taken (R669, R671, R676). -/
def execTrainingFrameRx (n l hdr : Nat) (s : State) : Res :=
  let x := s.lane n l
  occ (decide (l < 8) && x.rx == 0 && x.step != 0 && x.step != 2 && !(s.phy n).framing || decide (l < 8) && (s.retraining n).contains l) s <|
    if !trainingValid hdr then (s.bump (Obj.TF_REJECTS (8 * n + l))).setLane n l { x with good := 0, heard := 0, sel := 0 }
    else
      let own := (s.phy n).rateSel
      let inTime := (s.phy n).framing || decide (s.timeNs ≤ (s.phy n).rateNs + 1000000)
      let up (c : Bool) (v : Nat) : Nat := if c then min 8 (v + 1) else 0
      let x := { x with
        hdr := hdr % 2 ^ 128, good := up true x.good, heard := up (Th.step hdr == 1 && Th.heard hdr) x.heard
        sel := up (own == some (Th.rateSel hdr)) x.sel, sawRate := x.sawRate || (x.step == 3 && Th.step hdr == 2 && inTime)
        partnerReady := x.partnerReady || (Th.ready hdr && headerStep hdr == x.step), los := false, lol := false }
      ((s.setLane n l x).noteConflict n).noteRates n hdr

/-- Every masked lane has presence, or 10 ms passed after the first: miscabled lanes are excluded, the partner is recorded
and the port enters RATE (R673 to R675). A lane that retrains alone goes on by itself (R687). -/
def execPresenceComplete (n : Nat) (s : State) : Res :=
  let lanes := s.withPresence n
  let alone := (s.retraining n).filter fun l => (s.lane n l).step == 1 && decide (8 ≤ (s.lane n l).heard)
  let x := s.phy n
  if !alone.isEmpty then
    .next (alone.foldl (fun s l => s.setLane n l { s.lane n l with step := 3, good := 0, sel := 0, partnerReady := false }) s)
  else
  occ (x.step == 1 && !lanes.isEmpty && !(s.idConflict n)) s <|
    let first := (s.lane n (lanes.headD 0)).hdr
    let bad := lanes.filter fun l =>
      let h := (s.lane n l).hdr
      Th.device h != Th.device first || Th.port h != Th.port first ||
        lanes.any fun k => decide (k < l) && Th.lane (s.lane n k).hdr == Th.lane h
    let good := lanes.filter fun l => !bad.contains l
    let s := if bad.isEmpty then s else s.bump (Obj.MISCABLE_EVENTS n) bad.length
    let s := bad.foldl (fun s l => s.setLane n l { laneOffAs true (s.lane n l) with miscabled := true }) s
    let s := good.foldl (fun s l => s.setLane n l { s.lane n l with
      step := 3, good := 0, sel := 0, sawRate := false, partnerReady := false }) s
    s.setPhy n { x with
      step := 3, rate := 0, rateSel := none, switched := false, rateNs := s.timeNs, set := (good.map fun l => 2 ^ l).sum
      partner := some (Th.device first, Th.port first) }

/-- An acceptable lane set (R727). -/
def setAcceptable (set : Nat) : Bool := set % 16 == 15 || set / 16 == 15

/-- The lanes that lure while their port trains: the masked ones outside its set. -/
def State.luring (s : State) (n : Nat) : List Nat :=
  (lanesOf (s.phy n).laneMask).filter fun l => !bit (s.phy n).set l && !(s.lane n l).miscabled

/-- READY is exchanged: every lane of the set switches to RATE_SEL. Lanes that sent no STEP 2 in time leave the set first; a set
the link does not accept returns the port to PRESENCE (R673, R676). -/
def execRateSwitch (n : Nat) (s : State) : Res :=
  let x := s.phy n
  let keep := (lanesOf x.set).filter fun l => (s.lane n l).sawRate
  let set := (keep.map fun l => 2 ^ l).sum
  occ (x.step == 3 && !x.framing && !x.switched) s <|
    if !setAcceptable set then (s.setPhy n { x with set := set }).trainFail n false
    else match x.rateSel with
      | none => s
      | some r =>
        if keep.all fun l => decide (8 ≤ (s.lane n l).sel) && (s.lane n l).partnerReady then
          let s := s.setPhy n { x with set := set, rate := r, switched := true, switchNs := s.timeNs }
          keep.foldl (fun s l => s.setLane n l { s.lane n l with good := 0, heard := 0, sel := 0, partnerReady := false }) s
        else s

/-! FFE and the later steps. -/

/-- One tap request: the change it makes and its answer; nothing while the last answer stands or without a request. -/
def tapRequest (req sts : Nat) (v : Int) (legal : Int → Bool) : Int × Nat :=
  if req = 0 then (v, 0)
  else if sts ≠ 0 then (v, sts)
  else
    let w := if req = 1 then v + 1 else v - 1
    if legal w then (w, 1) else (v, 2)

/-- A transmitter applies a received coefficient or preset request (R677). -/
def execFfeRequestApply (n l : Nat) (s : State) : Res :=
  let x := s.lane n l
  occ (decide (l < 8) && x.step == 4 && Th.step x.hdr == 3) s <|
    if bit x.ffeAt 31 then s.setLane n l { x with stsPre := 0, stsMain := 0, stsPost := 0 }
    else if Th.reqPreset x.hdr ≠ 0 then
      if x.stsPre = 0 && x.stsMain = 0 && x.stsPost = 0 then
        let c := ffePreset (Th.reqPreset x.hdr - 1)
        s.setLane n l { x with pre := c.1, main := c.2.1, post := c.2.2, stsPre := 1, stsMain := 1, stsPost := 1 }
      else s
    else
      let a := tapRequest (Th.reqPre x.hdr) x.stsPre x.pre fun v => ffeLegal v x.main x.post
      let b := tapRequest (Th.reqMain x.hdr) x.stsMain x.main fun v => ffeLegal a.1 v x.post
      let c := tapRequest (Th.reqPost x.hdr) x.stsPost x.post fun v => ffeLegal a.1 b.1 v
      s.setLane n l { x with pre := a.1, main := b.1, post := c.1, stsPre := a.2, stsMain := b.2, stsPost := c.2 }

/-- RX_CTLE and RX_DFE_CTRL as a lane takes them now: a value written while the creance used it waits for the next PRESENCE
(R701). -/
def State.ctleCtl (s : State) (n l : Nat) : Nat :=
  let v := s.obj (Obj.RX_CTLE (8 * n + l))
  if v = (s.lane n l).ctleEnd then (s.lane n l).ctleAt else v
def State.dfeCtl (s : State) (n l : Nat) : Nat :=
  let v := s.obj (Obj.RX_DFE_CTRL (8 * n + l))
  if v = (s.lane n l).dfeEnd then (s.lane n l).dfeAt else v

/-- The receiver's choice of a CTLE code: the held one with FIXED, else a free one of those allowed (R666). -/
def State.chooseCtle (s : State) (n l : Nat) : State :=
  let v := s.ctleCtl n l
  if bit v 15 then s.setLane n l { s.lane n l with ctle := bits v 0 4 }
  else
    let r := s.draw
    r.2.setLane n l { s.lane n l with ctle := r.1.toNat % (bits v 0 4 + 1) }

/-- The DFE's adaptation: free taps where enabled, 0 where not, and each tap at its range end counted (R667). -/
def State.adaptDfe (s : State) (n l : Nat) : State :=
  let v := s.dfeCtl n l
  if bit v 31 then s else
  let r := s.drawN 12
  let taps := r.1.zipIdx.map fun t => if bit v t.2 then sgn 8 t.1.toNat else 0
  let ends := (taps.filter fun t => t == -128 || t == 127).length
  let s := r.2.setLane n l { s.lane n l with taps := taps }
  if ends = 0 then s else s.bump (Obj.DFE_TAP_LIMITS (8 * n + l)) ends

/-- What the equaliser objects hold as a step begins that uses them, or ends (R701). -/
def State.laneUses (s : State) (n l : Nat) (x : Lane) : Lane :=
  let i := 8 * n + l
  match x.step with
  | 3 => { x with ffeAt := s.obj (Obj.TX_FFE i) }
  | 4 => { x with
      ctleAt := s.obj (Obj.RX_CTLE i), ctleEnd := s.obj (Obj.RX_CTLE i)
      dfeAt := s.obj (Obj.RX_DFE_CTRL i), dfeEnd := s.obj (Obj.RX_DFE_CTRL i) }
  | 5 => { x with ctleEnd := s.obj (Obj.RX_CTLE i) }
  | _ => x

/-- The step after one for a lane: equalisers chosen where step DFE begins. -/
def State.laneNext (s : State) (n l : Nat) : State :=
  let x := s.laneUses n l (s.lane n l)
  let s := s.setLane n l { x with step := x.step + 1, good := 0, sel := 0, partnerReady := false }
  if x.step = 4 then (s.chooseCtle n l).adaptDfe n l else s

/-- A lost lane has completed DESKEW: it waits in LQ and the sides exchange LANE_UP (R729). -/
def State.laneBack (s : State) (n l : Nat) : State :=
  let s := s.setLane n l { s.lane n l with
    step := 7, tx := 1, rx := 1, los := false, lol := false, dfeEnd := s.obj (Obj.RX_DFE_CTRL (8 * n + l)) }
  let x := s.phy n
  if x.set = 0xFF && (List.range 8).all fun k => (s.lane n k).step == 7 then
    (s.setPhy n { x with laneReq := some 0xFF }).sendCtl n 5 0xFF
  else s

/-- Both sides are READY and the port enters the next step (R670, R676 to R679); a skew above 1,024 symbols fails the
training. Lanes that retrain alone advance in the same way. -/
def execCreanceStepComplete (n skew : Nat) (s : State) : Res :=
  let x := s.phy n
  let ready (l : Nat) : Bool :=
    let y := s.lane n l
    if y.step = 3 then decide (8 ≤ y.good) && (x.switched || x.framing) else y.partnerReady
  if x.framing then
    let go := (s.retraining n).filter fun l => decide (3 ≤ (s.lane n l).step) && ready l
    occ (!go.isEmpty) s <| go.foldl (fun s l =>
      if (s.lane n l).step = 6 then
        if 1024 < skew then (s.bump (Obj.TRAIN_TIMEOUTS n)).setLane n l (lanePresence (s.obj (Obj.TX_FFE (8 * n + l))) (s.lane n l))
        else s.laneBack n l
      else s.laneNext n l) s
  else
    occ (decide (3 ≤ x.step) && decide (x.step ≤ 6) && (lanesOf x.set).all ready) s <|
      if x.step = 6 && 1024 < skew then s.trainFail n true
      else
        -- a port that leaves RATE excludes the lanes that still lure (R673)
        let s := if x.step = 3 then (s.luring n).foldl (fun s l => s.setLane n l (laneOffAs true (s.lane n l))) s else s
        (lanesOf x.set).foldl (fun s l => s.laneNext n l) (s.setPhy n { x with step := x.step + 1 })

/-- A step reaches its timeout: a training failure (R670, R681). -/
def execCreanceStepTimeout (n : Nat) (s : State) : Res :=
  let x := s.phy n
  let alone := (s.retraining n).filter fun l => decide (3 ≤ (s.lane n l).step)
  occ (decide (3 ≤ x.step) && decide (x.step ≤ 7) && !x.framing || !alone.isEmpty) s <|
    if x.framing then
      alone.foldl (fun s l => s.setLane n l (lanePresence (s.obj (Obj.TX_FFE (8 * n + l))) (s.lane n l))) (s.bump (Obj.TRAIN_TIMEOUTS n))
    else s.trainFail n true

/-- The lanes a set runs on (R727). -/
def runningOf (set : Nat) : Nat := if set = 0xFF then 0xFF else if set % 16 = 15 then 0x0F else 0xF0

/-- READY in step UP from every lane of the set: link framing starts and the running lanes are in L0 (R680, R727). -/
def execLinkFramingStart (n : Nat) (s : State) : Res :=
  let x := s.phy n
  occ (x.step == 7 && !x.framing && (lanesOf x.set).all fun l => (s.lane n l).partnerReady) s <|
    let run := runningOf x.set
    let s := (lanesOf x.set).foldl (fun s l =>
      if bit run l then s.setLane n l { s.lane n l with step := 7, tx := 0, rx := 0, dfeEnd := s.obj (Obj.RX_DFE_CTRL (8 * n + l)) }
      else s.setLane n l (laneOffAs true (s.lane n l))) s
    s.setPhy n { x.linkUp with running := run, fails := 0, failSel := none, graceSaid := false }

/-! Detectors. -/

/-- A half of the lanes is healthy: all of it in the set and trained. -/
def State.halfOk (s : State) (n half : Nat) : Bool :=
  (lanesOf half).all fun l => bit (s.phy n).set l && (s.lane n l).step == 7 && !(s.lane n l).los && !(s.lane n l).lol

/-- A lane of an up port leaves L0: it retrains alone, and the port degrades to the other half or drops (R687, R728, R733). -/
def State.laneLost (s : State) (n l : Nat) : State :=
  let x := s.phy n
  let other := if l < 4 then 0xF0 else 0x0F
  let y := s.lane n l
  let s := s.setLane n l { lanePresence (s.obj (Obj.TX_FFE (8 * n + l))) y with los := y.los, lol := y.lol }
  if !bit x.running l then s
  else if x.running = 0xFF && s.flag Obj.DEGRADE_ENABLE && s.halfOk n other && x.laneReq != some (0xFF - other) then
    if x.laneReq == some other then s else (s.setPhy n { x with laneReq := some other }).sendCtl n 4 other
  else s.portDrop n

/-- What a report of either detector does beyond its counter (R681, R687). -/
def State.detectorReport (s : State) (n l : Nat) : State :=
  let x := s.phy n
  let y := s.lane n l
  if x.framing && y.step = 7 then s.laneLost n l
  else if x.framing then s.setLane n l { lanePresence (s.obj (Obj.TX_FFE (8 * n + l))) y with los := y.los, lol := y.lol }
  else if 3 ≤ x.step && x.step ≤ 7 && bit x.set l then s.trainFail n false
  else s.setLane n l { y with good := 0, heard := 0, sel := 0 }

/-- The loss-of-signal detector reports LOS (R685); masked in LQ, LS and LOFF, and for 2 µs after a rate switch. -/
def execLosDetected (n l : Nat) (s : State) : Res :=
  let y := s.lane n l
  let masked := (s.phy n).switched && !(s.phy n).framing && decide (s.timeNs < (s.phy n).switchNs + 2000)
  occ (decide (n < 20) && decide (l < 8) && y.rx == 0 && y.step != 0 && !y.los && !masked) s <|
    ((s.bump (Obj.LOS_EVENTS (8 * n + l))).setLane n l { y with los := true }).detectorReport n l

/-- The loss-of-lock detector reports LOL (R686): from lock in RATE to UP and in L0. -/
def execLolDetected (n l : Nat) (s : State) : Res :=
  let y := s.lane n l
  occ (decide (n < 20) && decide (l < 8) && y.rx == 0 && decide (3 ≤ y.step) && !y.lol) s <|
    ((s.bump (Obj.LOL_EVENTS (8 * n + l))).setLane n l { y with lol := true }).detectorReport n l

/-- A required port stays out of UP for the grace time after S5 (R682): raised once for each such time. -/
def execPhRequiredGrace (n : Nat) (s : State) : Res :=
  let x := s.phy n
  occ (decide (n < s.phPorts) && decide (5 ≤ s.stage) && s.flag (Obj.PH_REQUIRED n) && !x.framing && !x.graceSaid) s <|
    (s.setPhy n { x with graceSaid := true }).raise Es.phRequiredDown { oClass := 6, oIndex := n, cls := 6, sub := n + 1 }

/-! Enable and hood (R684, R732). -/

/-- A port that must carry nothing sends HOOD once everything is answered and drained. -/
def State.tryHood (s : State) (n : Nat) : State :=
  let x := s.phy n
  let wanted := s.obj (Obj.PH_LINK_ENABLE n) == 0 || x.hoodRx || s.unitSt (phUnit n) != .ready || (s.dom (phUnit n)).phase != .open_
  if x.framing && wanted && !x.hoodTx && x.sent.isEmpty && x.rcvd.isEmpty && x.txq.isEmpty && x.rx.isEmpty then
    (s.setPhy n { x with hoodTx := true, openTx := false }).sendCtl n 6 0
  else s

/-- Membership returns once both sides have sent OPEN. -/
def State.settleOpen (s : State) (n : Nat) : State :=
  let x := s.phy n
  if x.openTx && x.openRx then
    (s.setPhy n { x with hoodTx := false, hoodRx := false, openTx := false, openRx := false }).linkPump n
  else s

/-- This side wants its port back: OPEN is sent. -/
def State.sendOpen (s : State) (n : Nat) : State :=
  let x := s.phy n
  if x.framing && x.hoodTx && !x.openTx && s.obj (Obj.PH_LINK_ENABLE n) == 1 then
    ((s.setPhy n { x with openTx := true }).sendCtl n 7 0).settleOpen n
  else s

/-- A write of PH_LINK_ENABLE: it starts the creance of a disabled port, hoods an up port and stops a port that trains. -/
def State.applyPhLinkEnable (s : State) (n v : Nat) : State :=
  let s := s.setObj (Obj.PH_LINK_ENABLE n) v
  let x := s.phy n
  if v = 1 then
    if x.step = 8 then s.creanceStart n
    else if s.unitSt (phUnit n) == .ready then s.sendOpen n else s
  else if x.framing then s.tryHood n
  else if x.step = 0 then s else s.portOff n 8

/-- A write of PH_MAX_RATE returns the excluded rates (R681). -/
def State.applyPhMaxRate (s : State) (n v : Nat) : State :=
  let s := s.setObj (Obj.PH_MAX_RATE n) v
  s.setPhy n { s.phy n with exclRates := 0 }

/-! Recalibration (R693). -/

def execRecalDue (n l : Nat) (s : State) : Res :=
  let y := s.lane n l
  occ (decide (l < 8) && y.step == 7 && !y.recalDue) s <| s.setLane n l { y with recalDue := true, recalLate := false }

/-- Ask the partner for a window of 150 ns on a lane (R731). -/
def State.askWindow (s : State) (n l : Nat) : State := s.sendCtl n 3 (15 + 16 * l)

/-- One piece inside an LQ window of the lane's receiver; the last piece completes the recalibration. -/
def execRecalPiece (n l : Nat) (done : Bool) (s : State) : Res :=
  let y := s.lane n l
  occ (decide (l < 8) && y.recalDue && (y.rx == 1 || y.recalLate)) s <|
    if done then
      (((s.bump (Obj.RECAL_DONE (8 * n + l))).setLane n l { y with recalDue := false, recalLate := false }).chooseCtle n l).adaptDfe n l
    else if y.recalLate then s.askWindow n l else s

/-- A recalibration still incomplete one interval after it became due asks for windows. -/
def execRecalDeferred (n l : Nat) (s : State) : Res :=
  let y := s.lane n l
  occ (decide (l < 8) && (s.phy n).framing && y.recalDue && !y.recalLate) s <|
    ((s.bump (Obj.RECAL_DEFERRED (8 * n + l))).setLane n l { y with recalLate := true }).askWindow n l

/-! Patterns and injection (R694 to R697, R702). -/

def State.checkTxFfe (v : Nat) : Nat :=
  if bits v 4 4 ≠ 0 && !bit v 31 || bits v 24 7 ≠ 0 || !bit v 31 && bits v 8 16 ≠ 0 || !bit v 31 && bit v 3 then Sc.reservedNonzero
  else if bit v 31 && !ffeLegal (sgn 8 (bits v 0 8)) (sgn 8 (bits v 8 8)) (sgn 8 (bits v 16 8)) then Sc.boundViolation
  else Sc.ok

def State.checkPatternCtrl (s : State) (i v : Nat) : Nat :=
  let n := i / 8
  let gen := bits v 0 3
  let chk := bits v 4 3
  if bit v 3 || bits v 7 5 ≠ 0 || v / 2 ^ 13 ≠ 0 then Sc.reservedNonzero
  else if (gen = 3 || chk = 3) && (s.phy n).rate = 0 then Sc.reservedNonzero
  else if (gen ≠ 0 || chk ≠ 0) && s.unitSt (phUnit n) != .hooded then Sc.accessDenied
  else Sc.ok

/-- Bits that a lane carries in a time at its port's rate (Table 17.1). -/
def State.laneBitsIn (s : State) (i ns : Nat) : Nat := ns * 28 * 2 ^ (s.phy (i / 8)).rate

/-- Bits that a locked checker has checked since it was last counted (R696). -/
def State.bitsChecked (s : State) (i : Nat) : Nat :=
  let y := s.lane (i / 8) (i % 8)
  if y.locked && s.unitSt (phUnit (i / 8)) == .hooded then s.laneBitsIn i (s.timeNs - y.lockNs) else 0

/-- PATTERN_BITS, and PATTERN_ERRORS, of whose bits as many are in error as the line made so: a free number that does not end the
lock (R696, log 3). -/
def State.patternBits (s : State) (i : Nat) : Nat := satBump 48 (s.obj (Obj.PATTERN_BITS i)) (s.bitsChecked i)
def State.patternErrors (s : State) (i : Nat) : Nat :=
  satBump 48 (s.obj (Obj.PATTERN_ERRORS i)) (s.draw.1.toNat % (s.bitsChecked i / 4 + 1))

/-- What a locked checker has counted is added to its counters. -/
def State.countPattern (s : State) (i : Nat) : State :=
  if s.bitsChecked i = 0 then s else
  let e := s.patternErrors i
  let b := s.patternBits i
  let y := s.lane (i / 8) (i % 8)
  ((s.draw.2.setObj (Obj.PATTERN_ERRORS i) e).setObj (Obj.PATTERN_BITS i) b).setLane (i / 8) (i % 8) { y with lockNs := s.timeNs }

/-- INJECTED: an injector armed with RATE_LOG2 k alters every 2^k-th bit that its transmitter sends (R697). -/
def State.injected (s : State) (i : Nat) : Nat :=
  let y := s.lane (i / 8) (i % 8)
  let k := bits y.inject 8 6
  satBump 32 (s.obj (Obj.INJECTED i)) (if y.inject ≠ 0 && k ≠ 0 && y.tx = 0 then s.laneBitsIn i (s.timeNs - y.injectNs) / 2 ^ k else 0)

def State.applyPatternCtrl (s : State) (i v : Nat) : State :=
  let s := s.countPattern i
  let s := if bit v 12 then (s.setObj (Obj.PATTERN_ERRORS i) 0).setObj (Obj.PATTERN_BITS i) 0 else s
  let old := s.obj (Obj.PATTERN_CTRL i)
  let s := s.setObj (Obj.PATTERN_CTRL i) (setBits v 12 1 0)
  let y := s.lane (i / 8) (i % 8)
  if bits old 4 3 = bits v 4 3 then s else s.setLane (i / 8) (i % 8) { y with locked := false, relock := false }

def checkInject (v : Nat) : Nat :=
  let kind := bits v 0 2
  let len := bits v 2 6
  let r := bits v 8 6
  if bits v 14 17 ≠ 0 || (kind ≠ 2 && len ≠ 0) then Sc.reservedNonzero
  else if kind = 2 && (len < 2) then Sc.boundViolation
  else if (1 ≤ r && r ≤ 9) || 41 ≤ r then Sc.boundViolation
  else Sc.ok

/-- Arming: RATE_LOG2 0 injects once into a sending transmitter and disarms; another rate stays armed (R697). -/
def State.applyLaneInject (s : State) (i v : Nat) : State :=
  let y := s.lane (i / 8) (i % 8)
  let s := s.setObj (Obj.INJECTED i) (s.injected i)
  if bit v 31 && bits v 0 2 ≠ 0 then
    if bits v 8 6 = 0 && y.tx = 0 then (s.bump (Obj.INJECTED i)).setLane (i / 8) (i % 8) { y with inject := 0 }
    else s.setLane (i / 8) (i % 8) { y with inject := v, injectNs := s.timeNs }
  else s.setLane (i / 8) (i % 8) { y with inject := 0 }

/-- A checker sees 64 consecutive error-free bits and locks; a relock counts (R696). -/
def execPatternCheckerLock (n l : Nat) (s : State) : Res :=
  let y := s.lane n l
  occ (decide (l < 8) && s.unitSt (phUnit n) == .hooded && bits (s.obj (Obj.PATTERN_CTRL (8 * n + l))) 4 3 != 0 && !y.locked) s <|
    let s := if y.relock then s.bump (Obj.CHK_RELOCKS (8 * n + l)) else s
    s.setLane n l { y with locked := true, relock := true, lockNs := s.timeNs }

/-- A locked checker sees more than 64 errors in 256 bits and loses lock; the bits and errors it counted since it
locked, or since a write of PATTERN_CTRL, are those the command reports (R696). -/
def execPatternCheckerLockLoss (n l counted errors : Nat) (s : State) : Res :=
  let y := s.lane n l
  let add (o v : Nat) (s : State) : State := s.setObj o (satBump 48 (s.obj o) v)
  occ (decide (l < 8) && y.locked && decide (256 ≤ counted) && decide (64 < errors) && decide (errors ≤ counted)) s <|
    (add (Obj.PATTERN_BITS (8 * n + l)) counted (add (Obj.PATTERN_ERRORS (8 * n + l)) errors s)).setLane n l { y with locked := false }

/-! Views (Tables 17.8 and 17.13). -/

/-- LANE_STATUS. -/
def Lane.status (x : Lane) : Nat :=
  x.step + 16 * x.tx + 64 * x.rx + 256 * b2n x.los + 512 * b2n x.lol + 1024 * b2n x.excluded + 2048 * b2n x.miscabled +
    4096 * b2n x.locked

/-- LANE_STATUS: a lane that idles for the partner's recalibration shows LQ (R731). -/
def State.laneStatus (s : State) (n l : Nat) : Nat :=
  let y := s.lane n l
  match (s.phy n).window with
  | some (k, t) => ({ y with tx := if k = l && s.timeNs < t && y.tx = 0 then 1 else y.tx } : Lane).status
  | none => y.status

/-- Lanes now excluded. -/
def State.excludedLanes (s : State) (n : Nat) : Nat := ((List.range 8).map fun l => if (s.lane n l).excluded then 2 ^ l else 0).sum

/-- PH_STATUS. -/
def State.phStatus (s : State) (n : Nat) : Nat :=
  let x := s.phy n
  let p := x.partner.getD (0, 0)
  (s.unitSt (phUnit n)).code + x.step * 2 ^ 4 + x.rate * 2 ^ 12 + x.set * 2 ^ 16 + s.excludedLanes n * 2 ^ 24 + p.1 * 2 ^ 32 + p.2 * 2 ^ 40

/-- PH_RATE and PH_PARTNER. -/
def State.phRate (s : State) (n : Nat) : Nat := if (s.phy n).step < 3 || (s.phy n).step = 8 then 0xFF else (s.phy n).rate
def State.phPartner (s : State) (n : Nat) : Nat :=
  match (s.phy n).partner with
  | some p => p.1 + p.2 * 256 + 0x8000
  | none => 0

/-- The reset of the lanes: every lane in LOFF, its counters cleared (R704, R742, Table 2.8). -/
def laneCounters : List (Nat → Nat) :=
  [Obj.LOS_EVENTS, Obj.LOL_EVENTS, Obj.PATTERN_ERRORS, Obj.PATTERN_BITS, Obj.CHK_RELOCKS, Obj.RECAL_DONE, Obj.RECAL_DEFERRED,
   Obj.TF_REJECTS, Obj.DFE_TAP_LIMITS, Obj.INJECTED]
def portCounters : List (Nat → Nat) :=
  [Obj.PH_ABSENT_COUNT, Obj.CREANCE_RESTARTS, Obj.TRAIN_TIMEOUTS, Obj.RATE_FALLBACKS, Obj.MISCABLE_EVENTS, Obj.ID_CONFLICTS,
   Obj.FEC_CODEWORDS, Obj.FEC_CORRECTED, Obj.FEC_SYMBOLS, Obj.FEC_UNCORRECTABLE, Obj.CRC_FAILS, Obj.REPLAYS, Obj.REPLAY_FULL_CYCLES,
   Obj.DEGRADES, Obj.DROPS]

end Sys2Proof.Machine
end

