-- ==== Sys2Proof/Machine/Link.lean ====
section
/-!
DEFINITION. Receiving on a Phidun link (chapter 18): codewords, transactions, forwarding, link control, replay, degrade and
power-state announcements.
-/
namespace Sys2Proof.Machine

/-! Codewords. -/

/-- The kind of a transaction flit (R708, Table 7.2). -/
def linkKind (h : Nat) : Option PKind :=
  match bits h 124 4 with
  | 1 => some .rdReq | 2 => some .wr | 3 => some .wrPoison | 4 => some .amoReq | 5 => some .jessPost | 7 => some .epochMark
  | 8 => some .gatherReq | 9 => some .rdRsp | 0xA => some .wrAck | 0xB => some .amoRsp | 0xD => some .gatherRsp
  | _ => none

/-- A flit that makes its codeword fail: a reserved kind or a nonzero RSV bit (R709). -/
def flitBad (h : Nat) : Bool :=
  if bits h 124 4 = 0xE then bits h 76 34 ≠ 0 else (linkKind h).isNone || bits h 96 13 ≠ 0

/-- The receiver discards a flit: NAK in its next LCTRL, once until it accepts again (R712). -/
def Phy.discard (x : Phy) : Phy := if x.nakGiven then x else { x with nak := true, nakGiven := true }

/-- Take the flits of a sound codeword: link control is kept, a transaction flit is accepted at the next expected number. -/
def Phy.takeFlits (num : Nat) : List LinkFlit → Phy → Phy
  | [], x => x
  | f :: r, x =>
    if bits f.hdr 124 4 = 0xE then Phy.takeFlits num r { x with ctl := x.ctl ++ [f.hdr] }
    else if num = x.rxSeq then
      Phy.takeFlits ((num + 1) % 512) r
        { x with rx := x.rx ++ [f], rxSeq := (x.rxSeq + 1) % 512, nakGiven := false, accepted := x.accepted + 1 }
    else Phy.takeFlits ((num + 1) % 512) r x.discard

/-- A codeword arrives with its data bits (R706, R709, R711 to R713): a flit with a bit in a failed codeword is discarded, the
others are taken by their numbers, and what straddles into the next is kept. -/
def State.takeCodeword (s : State) (n corrected : Nat) (uncorrectable : Bool) (c : Codeword) : State :=
  let x := s.phy n
  let s := s.bump64 (Obj.FEC_CODEWORDS n)
  let head := c.straddling x.part
  let fs := head.toList ++ c.whole
  let bad := uncorrectable || !c.crcOk || decide (1151 < c.first) || fs.any fun f => flitBad f.hdr
  let s := if uncorrectable then s.bump (Obj.FEC_UNCORRECTABLE n)
    else
      let s := if corrected = 0 then s else (s.bump64 (Obj.FEC_CORRECTED n)).bump64 (Obj.FEC_SYMBOLS n) corrected
      if bad then s.bump (Obj.CRC_FAILS n) else s
  if bad then
    let s := s.setPhy n { x.discard with part := none, badCodewords := x.badCodewords + 1 }
    if 8 ≤ x.badCodewords + 1 then s.portDrop n else s
  else
    -- a partner that sends again has left LQ or LS
    let s := s.mapLanes n x.running fun _ y => { y with rx := if y.rx = 3 then 3 else 0 }
    let transaction (f : LinkFlit) : Bool := bits f.hdr 124 4 != 0xE
    let num := if head.toList.any transaction then (c.seq + 511) % 512 else c.seq
    let x := if head.isNone && 0 < c.first then x.discard else x
    let s := s.setPhy n (Phy.takeFlits num fs { x with part := some c.rest, badCodewords := 0 })
    if s.obj Obj.ACK_INTERVAL ≤ (s.phy n).accepted then s.sendCtl n 0 0 else s

/-- CODEWORD_RX (R705): a codeword's symbols as the lanes of the running set bring them, in ascending lane order, four lanes and
where eight run the `upper` four, with what FEC did: the symbols it corrected in them, or that it could not. -/
def execCodewordRx (n corrected : Nat) (uncorrectable : Bool) (l0 l1 l2 l3 : List Nat) (upper : List (List Nat)) (s : State) : Res :=
  occ (decide (n < 20) && (s.phy n).framing && !s.safety.safe && !s.sup.inMews) s
    (s.takeCodeword n corrected uncorrectable (readCodeword (l0 :: l1 :: l2 :: l3 :: upper)))

/-- ACK_TIMER (R713): 1 µs after the oldest acceptance that no LCTRL has acknowledged. -/
def execAckTimer (n : Nat) (s : State) : Res := occ ((s.phy n).framing && decide (0 < (s.phy n).accepted)) s (s.sendCtl n 0 0)

/-! Transactions. -/

/-- A place of a receive queue is free again; eight of them are reported at once (R713, R715). -/
def State.freePlace (s : State) (n q : Nat) : State :=
  let x := s.phy n
  let since := x.freedSince.set q (x.freedSince.getD q 0 + 1)
  let s := s.setPhy n { x with freed := x.freed.set q ((x.freed.getD q 0 + 1) % 256), freedSince := since }
  if 8 ≤ since.getD q 0 then s.sendCtl n 0 0 else s

/-- The local pellet of a poisoned beat that a link brings (R716, Table 6.10). -/
def State.remotePellet (s : State) (n : Nat) (pl : List Byte) : Nat × State :=
  s.pellet {
    source := Es.linkPoison, code := Pc.remote, status := fieldLE pl 7 1
    addr := if bit (fieldLE pl 28 1) 1 then some (fieldLE pl 8 8) else none
    oClass := fieldLE pl 25 1, oIndex := fieldLE pl 26 2, oDev := some (fieldLE pl 24 1), forwarded := true, cls := 6, sub := n + 1 }

/-- Answer a request that came over a port, through that port (R722). A port that has dropped since knows it no more. -/
def State.linkAnswer (s : State) (n id : Nat) (kind : PKind) (status : Nat) (data : List Byte) (mark seg : Nat) (last : Bool) : State :=
  let x := s.phy n
  match x.rcvd.find? (·.id == id) with
  | none => s
  | some r =>
    let p : Packet := {
      id := 0, kind := kind, tc := r.tc, src := phNode n, dst := phNode n, at_ := phNode n, tag := r.tag, addr := r.addr
      len := data.length, data := data, poison := mark ≠ 0, pseq := mark - 1, status := status, seg := seg
      orig := some (r.src, r.tag), agent := .remote 0 (phNode n * 65536), sentNs := s.timeNs }
    let rest := if last then x.rcvd.filter fun o => o.id != id else x.rcvd
    (((s.setPhy n { x with txq := x.txq ++ [p], rcvd := rest }).linkPump n).tryHood n)

/-- The requests whose answer carries data. -/
def PKind.asksData (k : PKind) : Bool := k == .rdReq || k == .amoReq || k == .gatherReq

/-- A request of a link that no rule lets in is answered at once; a read, atomic or gather with poisoned data where `code`
names a pellet. -/
def State.linkRefuse (s : State) (n id : Nat) (kind : PKind) (len status : Nat) (code : Option Nat) : State :=
  match code with
  | some c =>
    if kind.asksData then
      let r := s.pellet { source := Es.linkPoison, code := c, status := status, oClass := 6, oIndex := n, cls := 6, sub := n + 1 }
      let d := r.2.drawBytes len
      d.2.linkAnswer n id kind.answer status d.1 (r.1 + 1) 0 true
    else s.linkAnswer n id kind.answer status [] 0 0 true
  | none => s.linkAnswer n id kind.answer status (if kind.asksData then zeros len else []) 0 0 true

/-- Address, length and data of a request flit (R708, Table 7.2). -/
def flitAddr (kind : PKind) (h : Nat) : Nat :=
  match kind with
  | .wrPoison => bits h 32 36 * 128
  | .rdReq | .wr | .amoReq => bits h 25 43
  | _ => 0

def flitLen (kind : PKind) (h : Nat) : Nat :=
  match kind with
  | .rdReq | .wr => bits h 17 8
  | .wrPoison => 128
  | .gatherReq => bits h 50 5
  | .amoReq => 8
  | _ => 0

def flitData (kind : PKind) (h : Nat) (bad : Bool) (pl : List Byte) : List Byte :=
  match kind with
  | .wr => if bad then pl.take (flitLen kind h) else (pl.drop (flitAddr kind h % 128)).take (flitLen kind h)
  | .wrPoison | .gatherReq => pl
  | .amoReq => pl.take 16
  | _ => []

/-- The packet that a request flit spells, with the payload it carries; a poisoned beat's data is undefined (R290, R716). -/
def State.flitPacket (s : State) (n : Nat) (f : LinkFlit) (kind : PKind) : Packet × State :=
  let h := f.hdr
  let bad := bit h 121 || kind == .wrPoison
  let r := if bad then s.remotePellet n f.payload else (0, s)
  let d := if bad then r.2.drawBytes 128 else (f.payload, r.2)
  ({ id := 0, kind := if kind == .wr && bad then .wrPoison else kind, tc := bits h 122 2, src := 0, dst := 0, at_ := 0
     dev := bits h 68 8, addr := flitAddr kind h, len := flitLen kind h, data := flitData kind h bad d.1, poison := bad
     pseq := r.1, hops := bits h 117 4
     op := bits h 20 5, sz := bits h 18 2, which := bits h 67 1, pair := bits h 56 11, count := bits h 40 16, ed := bits h 63 5
     table := bits h 58 10, pool := bits h 55 3, orig := some (bits h 88 8, bits h 76 12)
     agent := .remote (bits h 109 8) (phNode n * 65536 + n % 2 * 32768 + bits h 88 8), sentNs := s.timeNs }, d.2)

/-- The node that performs a request for this device (Table 18.6); none where its address is refused or not backed. -/
def State.linkTarget (s : State) (p : Packet) : Option Nat × State :=
  let dev : Nat := match p.agent with | .remote d _ => d | _ => 0
  let go (r w : Bool) : Option Nat × State :=
    let a := s.inbound dev p.addr r w
    if !a.1 then (none, a.2)
    else match s.destNode s.devId p.addr with
      | some d => (some d, a.2)
      | none => (none, s.bump Obj.INBOUND_REFUSED)
  match p.kind with
  | .rdReq => go true false
  | .wr | .wrPoison => go false true
  | .amoReq => go (p.op != 0x11) (p.op != 0x10)
  | .gatherReq => (some (unitNode (unitOf 5 (p.table % 16))), s)
  | _ => (some hostNode, s)

/-- A request flit: performed here, forwarded, or answered LINK_ABSENT (R717, R723). `none` where no tag of its port is free. -/
def State.linkRequest (s : State) (n : Nat) (f : LinkFlit) (kind : PKind) : Option State :=
  let x := s.phy n
  let r := s.flitPacket n f kind
  let p := r.1
  let id := x.nextReq
  let o := p.orig.getD (0, 0)
  let note (s : State) : State := s.setPhy n { s.phy n with
    nextReq := id + 1, rcvd := (s.phy n).rcvd ++ [{ id := id, src := o.1, tag := o.2, tc := p.tc, kind := kind, addr := p.addr }] }
  let size := if kind == .gatherReq then 128 else p.len
  if p.dev ≠ s.devId then
    let out := s.portFor p.dev p.sel
    if p.hops = s.obj Obj.MAX_HOPS || out.isNone || !s.flag Obj.FORWARD_ENABLE then
      some ((((note r.2).bump Obj.HOP_DISCARDS).linkRefuse n id kind size Sc.linkAbsent (some Pc.linkAbsent)))
    else ((note r.2).send { p with hops := p.hops + 1, dst := phNode (out.getD 0) } (.relay n id)).map
      fun s => (s.bump64 Obj.FORWARDED).serveNode (phNode n)
  else
    let t := r.2.linkTarget p
    match t.1 with
    | none => some ((note t.2).linkRefuse n id kind size Sc.accessDenied none)
    | some d => (note t.2).send { p with dst := d } (.relay n id)

/-- A response flit: it answers the oldest request of its SRC, TAG, class and kind that this port sent; any other is late
(R722, R734). -/
def State.linkResponse (s : State) (n : Nat) (f : LinkFlit) (kind : PKind) : State :=
  let x := s.phy n
  let h := f.hdr
  let key := (bits h 88 8, bits h 76 12)
  let same (p : Packet) : Bool := p.origin == key && p.tc == bits h 122 2 && p.kind.answer == kind
  match x.sent.find? same with
  | none => (s.bump Obj.LATE_ANSWERS).setPhy n { x with noticed := x.noticed.erase (key.1, key.2, bits h 122 2) }
  | some p =>
    let r := if bit h 121 then s.remotePellet n f.payload else (0, s)
    let m := if bit h 121 then r.1 + 1 else 0
    let len := match kind with | .rdRsp => p.len | .gatherRsp => bits h 60 8 | .amoRsp => 8 | _ => 0
    let d := if m ≠ 0 then r.2.drawBytes len else
      ((f.payload.drop (if kind == .rdRsp then p.addr % 128 else 0)).take len, r.2)
    let s := d.2
    -- a gather is answered when its last flit has come; its entry stays until then
    let sent := if kind == .gatherRsp then x.sent else (s.phy n).sent.erase p
    let s := s.setPhy n { s.phy n with sent := sent }
    ((s.respond { p with dst := phNode n } kind (bits h 68 8) d.1 m (bits h 57 3)).serveNode (phNode n)).tryHood n

/-- LINK_TRANSACTION_RX: the oldest accepted transaction flit of a port is taken. -/
def execLinkTransactionRx (n : Nat) (s : State) : Res :=
  let x := s.phy n
  match x.rx with
  | [] => .next s
  | f :: rest =>
    if s.safety.safe then .next s else
    match linkKind f.hdr with
    | none => .next (s.setPhy n { x with rx := rest })
    | some k =>
      let q := (if k.response then 4 else 0) + bits f.hdr 122 2
      let s0 := s.setPhy n { x with rx := rest }
      if k.response then .next (((s0.linkResponse n f k).freePlace n q).tryHood n)
      else match s0.linkRequest n f k with
        | none => .next s
        | some t => .next ((t.freePlace n q).tryHood n)

/-! Link control. -/

/-- Resend every unacknowledged flit (R714); the replay after the last one allowed drops the port (Table 18.8). -/
def State.replay (s : State) (n : Nat) : State :=
  let x := s.phy n
  if x.unacked.isEmpty then s
  else if s.obj Obj.REPLAY_LIMIT < x.replays + 1 then s.portDrop n
  else
    let s := (s.bump (Obj.REPLAYS n)).setPhy n { x with replays := x.replays + 1 }
    x.unacked.foldl (fun s f => s.emit (.link n f.2.hdr f.2.payload)) s

/-- The ACK, NAK and CRED values of an LCTRL (R713 to R715). -/
def State.takeCtl (s : State) (n h : Nat) : State :=
  let x := s.phy n
  let ack := bits h 111 9
  let covered := x.unacked.findIdx? fun u => u.1 == ack
  let left := match covered with | some i => x.unacked.drop (i + 1) | none => x.unacked
  let cred (q : Nat) : Nat := bits h (8 * q) 8
  let gain (q : Nat) : Nat := (cred q + 256 - x.creditSeen.getD q 0) % 256
  let s := s.setPhy n { x with
    unacked := left, replays := if covered.isSome then 0 else x.replays
    credits := x.credits.zipIdx.map fun c => c.1 + gain c.2, creditSeen := (List.range 8).map cred }
  let s := if left.length < 256 then s.endFull n else s
  let s := if bit h 110 then s.replay n else s
  s.linkPump n

/-- The oldest link-control flit of a port, where it has this OP: its header, and the state without it and with its
cumulative values taken. -/
def State.ctlHead (s : State) (n : Nat) (ops : List Nat) : Option (Nat × State) :=
  match (s.phy n).ctl with
  | [] => none
  | h :: rest =>
    if ops.contains (bits h 120 4) && !s.safety.safe then some (bits h 64 12, (s.setPhy n { s.phy n with ctl := rest }).takeCtl n h)
    else none

/-- IDLE; a reserved OP carries the same cumulative values and nothing else. -/
def execLctrlIdle (n : Nat) (s : State) : Res :=
  match s.ctlHead n [0, 8, 9, 10, 11, 12, 13, 14, 15] with
  | none => .next s
  | some (_, s) => .next s

/-- PM_REQ (R730): the receiver follows the announced state, and PM_ACK answers. -/
def execPmReq (n : Nat) (s : State) : Res :=
  match s.ctlHead n [1] with
  | none => .next s
  | some (arg, s) =>
    if arg ≠ 1 && arg ≠ 2 || !(s.phy n).framing then .next s
    else .next ((s.mapLanes n (s.phy n).running fun _ y => { y with rx := arg }).sendCtl n 2 arg)

/-- PM_ACK (R730): the transmitter enters the state it announced. -/
def execPmAck (n : Nat) (s : State) : Res :=
  match s.ctlHead n [2] with
  | none => .next s
  | some (arg, s) =>
    if (s.phy n).pmWait == some arg then
      .next ((s.mapLanes n (s.phy n).running fun _ y => { y with tx := arg }).setPhy n { s.phy n with pmWait := none })
    else .next s

/-- RECAL_WIN (R731): the transmitter idles one lane for the window plus 200 ns. -/
def execRecalWin (n : Nat) (s : State) : Res :=
  match s.ctlHead n [3] with
  | none => .next s
  | some (arg, s) =>
    if bits arg 0 4 = 0 || arg / 128 ≠ 0 then .next s
    else .next (s.setPhy n { s.phy n with window := some (bits arg 4 3, s.timeNs + bits arg 0 4 * 10 + 200) })

/-- LANE_DOWN (R728): the partner has lost a lane of the other half. -/
def execLaneDown (n : Nat) (s : State) : Res :=
  match s.ctlHead n [4] with
  | none => .next s
  | some (arg, s) =>
    let x := s.phy n
    if !x.framing || x.running ≠ 0xFF || (arg ≠ 0x0F && arg ≠ 0xF0) then .next s
    else match x.laneReq with
      | some k => if k = arg || k = 0xFF then .next (s.setPhy n { x with laneReq := some arg }) else .next (s.portDrop n)
      | none => .next (s.setPhy n { x with laneReq := some arg })

/-- LANE_UP (R729): this side joins once its own lanes are trained. -/
def execLaneUp (n : Nat) (s : State) : Res :=
  match s.ctlHead n [5] with
  | none => .next s
  | some (arg, s) =>
    let x := s.phy n
    if !x.framing || arg ≠ 0xFF || x.running = 0xFF || x.laneReq.isSome || !(s.halfOk n 0xFF) then .next s
    else .next ((s.setPhy n { x with laneReq := some 0xFF }).sendCtl n 5 0xFF)

/-- HOOD (R732): the port leaves its bundle, drains, and answers with its own HOOD. -/
def execHood (n : Nat) (s : State) : Res :=
  match s.ctlHead n [6] with
  | none => .next s
  | some (_, s) => .next ((s.setPhy n { s.phy n with hoodRx := true, openRx := false }).tryHood n)

/-- OPEN (R732): a side that wants its port answers with its own OPEN. -/
def execOpen (n : Nat) (s : State) : Res :=
  match s.ctlHead n [7] with
  | none => .next s
  | some (_, s) =>
    let x := s.phy n
    let s := s.setPhy n { x with openRx := true }
    let wants := s.obj (Obj.PH_LINK_ENABLE n) == 1 && s.unitSt (phUnit n) == .ready
    if !wants then .next s
    else
      let s := if x.openTx then s else (s.setPhy n { s.phy n with openTx := true }).sendCtl n 7 0
      .next (s.settleOpen n)

/-- REPLAY_TIMEOUT (R714): no ACK has advanced while flits are unacknowledged. -/
def execReplayTimeout (n : Nat) (s : State) : Res := occ ((s.phy n).framing && !s.safety.safe) s (s.replay n)

/-- LANE_DEGRADE_SWITCH (R728, R729): at the agreed codeword boundary the port runs on the agreed lanes; the healthy lanes of
an idle half wait in LQ. -/
def execLaneDegradeSwitch (n : Nat) (s : State) : Res :=
  let x := s.phy n
  match x.laneReq with
  | none => .next s
  | some k =>
    if !x.framing then .next s else
    let s := s.mapLanes n x.set fun l y => if y.step ≠ 7 then y else { y with
      tx := if bit k l then 0 else 1, rx := if bit k l then 0 else 1 }
    let s := s.setPhy n { x with running := k, laneReq := none }
    .next (if k = 0xFF then s else s.bump (Obj.DEGRADES n))

/-- LINK_IDLE_TIMER (R730): a transmitter without transaction flits announces LQ, and from LQ announces LS. -/
def execLinkIdleTimer (n : Nat) (s : State) : Res :=
  let x := s.phy n
  let tx := (s.lane n ((lanesOf x.running).headD 0)).tx
  let t := s.obj (Obj.IDLE_TIMERS n)
  let next := if tx = 0 && bits t 0 16 ≠ 0 then 1 else if tx ≤ 1 && bits t 16 16 ≠ 0 then 2 else 0
  occ (x.framing && x.txq.isEmpty && x.pmWait.isNone && next != 0 && !s.safety.safe) s <|
    (s.setPhy n { x with pmWait := some next }).sendCtl n 1 next

/-- PM_REQ_TIMEOUT (R730): 1 µs without PM_ACK; the request is dropped. -/
def execPmReqTimeout (n : Nat) (s : State) : Res :=
  occ (s.phy n).pmWait.isSome s (s.setPhy n { s.phy n with pmWait := none })

/-- A DEV_ROUTE write whose NEXT is this device (R739). -/
def State.checkDevRoute (s : State) (v : Nat) : Nat := if bits v 0 8 = s.devId then Sc.boundViolation else Sc.ok

/-- What a port shows: PORT_LANES and OUTSTANDING. -/
def State.outstandingOf (s : State) (n : Nat) : Nat := (s.phy n).sent.length

end Sys2Proof.Machine
end

