-- ==== Sys2Proof/Machine/Mmio.lean ====
section
/-!
DEFINITION. Device space (R362, R363, Table 8.4): what every register of it reads as, and what a write does. The registers of
a unit stand behind the edge of its domain (R311, R312; State.closedBlock).
-/
namespace Sys2Proof.Machine

/-- A register: its offset in device space, its bytes and what it reads as. -/
abbrev Reg := Nat × Nat × Nat

/-! The tile network's registers (Tables 7.5, 7.6 and 7.9). -/

/-- Agent numbers that a node holds (Table 7.6). -/
def agentsAt (node : Nat) : List Nat :=
  let at_ (lo n : Nat) : Bool := (List.range n).any fun i => unitNode (lo + i) == node
  if at_ 0 104 then [0, 4, 5, 6, 7]
  else if at_ 104 16 || at_ 176 16 then [0, 1, 4]
  else if at_ 128 16 || at_ 144 20 || at_ 120 8 || node == hostNode then [0, 1]
  else if node == unitNode 200 then [0]
  else []

/-- A domain's ingress: 0 OPEN, 1 DRAINING, 2 CLOSED, 3 PARKING, 4 POWERING_UP. -/
def State.ingress (s : State) (u : Nat) : Nat :=
  match (s.dom u).phase with
  | .draining => 1
  | .up => 4
  | _ => match s.reply u with | .deliver => 0 | .park => 3 | _ => 2

/-- The units of a node, lowest number first. -/
def State.unitsAt (s : State) (node : Nat) : List Nat := (List.range 201).filter fun u => unitNode u == node && s.present u

def State.niStatus (s : State) (node : Nat) : Nat :=
  let one (u : Option Nat) : Nat := match u with | some u => s.ingress u + (s.dom u).parked.length * 8 | none => 0
  one ((s.unitsAt node)[0]?) + one ((s.unitsAt node)[1]?) * 256

def State.niReg (s : State) (node o : Nat) : Option Reg :=
  let x := s.ni node
  let base := node * 0x1000
  let r (off n v : Nat) : Option Reg := some (base + off, n, v)
  if o < 8 then r 0 8 x.cfg
  else if o < 0x10 then r 8 8 (s.niStatus node)
  else if o < 0x14 then r 0x10 4 x.routeMultihit
  else if o < 0x18 then r 0x14 4 x.routeFallbacks
  else if o < 0x1C then r 0x18 4 x.routeRejects
  else if o < 0x20 then r 0x1C 4 x.regStatus
  else if 0x40 ≤ o && o < 0x80 then
    (let a := (o - 0x40) / 4
     r (0x40 + 4 * a) 4 (if (agentsAt node).contains a then SMap.get node x.statId a else 0))
  else if 0x100 ≤ o && o < 0x500 then
    (let e := (o - 0x100) / 16
     if o % 16 < 8 then r (0x100 + 16 * e) 8 (SMap.get 0 x.moves e) else r (0x108 + 16 * e) 8 (SMap.get 0 x.ctrl e))
  else none

def State.snapReg (s : State) (o : Nat) : Option Reg :=
  let i := (o - 0xC0000) / 128
  let x : Stat := SMap.get {} s.net.snap i
  let base := 0xC0000 + i * 128
  let b := (o - 0xC0000) % 128
  if b < 8 then some (base, 8, x.packets)
  else if b < 16 then some (base + 8, 8, x.bytes)
  else if b < 0x14 then some (base + 0x10, 4, x.maxLat)
  else if 0x18 ≤ b && b < 0x20 then some (base + 0x18, 8, s.net.snapTimeNs)
  else if 0x40 ≤ b then some (base + b / 4 * 4, 4, x.hist.getD ((b - 0x40) / 4) 0)
  else none

/-! Jess table, engines, apertures, the aggregator (Tables 6.4, 6.14, 8.5 and 19.6). -/

def State.engReg (s : State) (o : Nat) : Option Reg :=
  let e := (o - 0x110000) / 0x100
  let x := s.engine e
  let base := 0x110000 + e * 0x100
  let b := (o - 0x110000) % 0x100
  let r (off n v : Nat) : Option Reg := some (base + off, n, v)
  if 440 ≤ e then none
  else if b < 8 then r 0 8 (s.engStatus e)
  else if b < 0x10 then r 8 8 x.descAddr
  else if b < 0x14 then r 0x10 4 x.outstanding
  else if 0x18 ≤ b && b < 0x1C then r 0x18 4 0
  else if 0x20 ≤ b && b < 0x60 then r (b / 8 * 8) 8 (x.snap.cause.getD ((b - 0x20) / 8) 0)
  else if 0x60 ≤ b && b < 0x88 then
    r (b / 8 * 8) 8 (match b / 8 with | 12 => x.snap.drain | 13 => x.snap.active | 14 => x.snap.rd | 15 => x.snap.wr | _ => x.snap.timeNs)
  else none

def State.aptReg (s : State) (o : Nat) : Option Reg :=
  let c := (o - 0x200000) / 0x100
  let x := s.aptCtl c
  let base := 0x200000 + c * 0x100
  let b := (o - 0x200000) % 0x100
  if b < 8 then some (base, 8, x.status)
  else if b < 0xC then some (base + 8, 4, x.multihit)
  else if b < 0x10 then some (base + 0xC, 4, x.misses)
  else if b < 0x18 then some (base + 0x10, 8, x.lastMiss)
  else if b < 0x1C then some (base + 0x18, 4, s.aptValidCount c)
  else none

/-- The 32 bytes of a source's record (Table 19.6). -/
def State.srcRecBytes (s : State) (src : Nat) : List Byte :=
  let r : SrcRec := SMap.get {} s.agg.src src
  leBytes 4 r.count ++ leBytes 1 (if r.count = 0 then 0 else (sourceClass src).code) ++ leBytes 1 r.oClass ++ leBytes 2 r.oIndex ++
  leBytes 8 r.firstNs ++ leBytes 8 r.lastNs ++ leBytes 8 r.lastInfo

/-- The 32 bytes of an error record (Table 19.5). -/
def ErrRec.bytes (r : ErrRec) : List Byte :=
  leBytes 2 r.source ++ leBytes 1 r.cls ++ leBytes 1 r.oClass ++ leBytes 2 r.oIndex ++ leBytes 1 r.status ++ leBytes 1 (b2n r.test) ++
  leBytes 8 r.time ++ leBytes 8 r.info ++ leBytes 4 r.seq ++ zeros 4

def State.aggReg (s : State) (o : Nat) : Option Reg :=
  let b := o - 0x300000
  let part (bs : List Byte) : Option Reg := some (o / 8 * 8, 8, fieldLE bs (b % 32 / 8 * 8) 8)
  if b < 0x4000 then part (s.srcRecBytes (b / 32))
  else if 0x10000 ≤ b && b < 0x18000 then
    part (SMap.get {} s.agg.log ((b - 0x10000) / 32) : ErrRec).bytes
  else if 0x20000 ≤ b && b < 0x20004 then some (0x320000, 4, s.agg.logNext % 2 ^ 32)
  else if 0x20004 ≤ b && b < 0x20008 then some (0x320004, 4, s.agg.logRead)
  else if 0x20008 ≤ b && b < 0x2000C then some (0x320008, 4, s.agg.logLost)
  else if 0x30000 ≤ b && b < 0x30020 then part (match s.agg.safeRec with | some r => r.bytes | none => zeros 32)
  else none

/-! Unit blocks. -/

/-- CAT_STATUS (Table 14.9). -/
def State.catStatus (s : State) (n : Nat) : Nat :=
  let u := unitOf 2 n
  (s.unitSt u).code + (match s.headOp u with | some o => 8 + bits o.w0 48 8 * 256 | none => 0)

/-- GE_STATUS (Table 13.7). -/
def State.geStatus (s : State) (n : Nat) : Nat :=
  (s.unitSt (unitOf 5 n)).code + b2n (s.gxHead n).isSome * 8 + s.inflight n % 2 ^ 13 * 2 ^ 16

/-- SEC_STATUS and SP_STATUS (Table 15.9). -/
def State.secStatus (s : State) (n : Nat) : Nat :=
  let x := s.sec n
  (s.unitSt (unitOf 3 n)).code + b2n x.running * 8 + b2n x.layer.isSome * 16 +
  (match x.layer with | some l => l.which | none => 0) * 32 + b2n x.staged.isSome * 64 + x.queue.length % 2 ^ 16 * 2 ^ 16 +
  x.binSeq % 2 ^ 32 * 2 ^ 32

def State.spStatus (s : State) (n : Nat) : Nat :=
  let x := s.sp n
  (s.unitSt (unitOf 4 n)).code + b2n x.inFrame * 8 + x.slot % 256 * 2 ^ 8 + x.line % 2 ^ 16 * 2 ^ 16 + x.tHigh % 2 ^ 32 * 2 ^ 32

/-- FP_STATUS and CFG_STATUS (Table 16.6). -/
def State.fpStatus (s : State) (n : Nat) : Nat :=
  let r := s.region n
  (s.unitSt (unitOf 9 n)).code + b2n (decide (0 < s.mem.fabricWin.getD n 0)) * 8 + bits r.flags 0 3 * 16 + r.winLog2 % 64 * 2 ^ 8 +
  (s.fport n).masters.length % 2 ^ 16 * 2 ^ 16

def State.cfgStatus (s : State) : Nat := s.fab.load.step + s.obj Obj.CFG_LAST_STATUS % 256 * 2 ^ 8 + s.fab.lastMask % 2 ^ 24 * 2 ^ 16

/-- A modulus register of a chain (Table 14.3); the read-only ones were computed when the chain was last made valid. -/
def Chain.regAt (x : Chain) (r w : Nat) : Option Nat :=
  let q := SMap.get 0 x.loadedQ r
  let k := Nat.log2 q + 1
  if w < 2 then some (if w = 0 then x.qAt r else x.psiAt r)
  else if 5 < w then none
  else if q = 0 then some 0
  else match w with
    | 2 => some (2 ^ (2 * k) / q)
    | 3 => some (modInv q (SMap.get 0 x.loadedPsi r))
    | 4 => some (modInv q (2 ^ x.loadedN))
    | _ => some k

/-- A register of a unit block: `cls` and the offset in the class block. -/
def State.unitReg (s : State) (cls o : Nat) : Option Reg :=
  let base := 0x10000000 + cls * 0x1000000
  let n := o / 0x10000
  let b := o % 0x10000
  let r (size v : Nat) : Option Reg := some (base + o / size * size, size, v)
  match cls with
  | 0 =>
    let t := s.tile n
    if 64 ≤ n then none
    else if b < 8 then r 8 (s.mxtStatus n)
    else if 0x10 ≤ b && b < 0x30 then r 8 (((List.range 4).map fun i => t.repairMap ((b - 0x10) / 8 * 4 + i) * 2 ^ (16 * i)).sum)
    else if 0x30 ≤ b && b < 0x34 then r 4 t.mismatch
    else none
  | 1 =>
    let x : VTile := SMap.get {} s.tiles.vxt n
    if 32 ≤ n then none
    else if b < 8 then r 8 (s.vxtStatus n)
    else if 8 ≤ b && b < 0xC then r 4 x.lastWord
    else if 0x10 ≤ b && b < 0x18 then r 8 x.busyCycles
    else none
  | 2 =>
    let x : Cat := SMap.get {} s.cat.cats n
    if 0x810000 ≤ o && o < 0x810004 then r 4 s.cat.status
    else if 0x800000 ≤ o && o < 0x810000 then
      (let c := s.chain ((o - 0x800000) / 0x1000)
       let w := o % 0x1000
       if w < 8 then r 8 c.ctrl
       else if 0x40 ≤ w && w < 0x40 + 48 * 0x40 then
         (match c.regAt ((w - 0x40) / 0x40) ((w - 0x40) % 0x40 / 8) with | some v => r 8 v | none => none)
       else none)
    else if 8 ≤ n then none
    else if b < 8 then r 8 (s.catStatus n)
    else if 8 ≤ b && b < 0xC then r 4 x.lastWord
    else if 0x10 ≤ b && b < 0x18 then r 8 x.busyCycles
    else none
  | 3 =>
    if 16 ≤ n then none
    else if b < 8 then r 8 (s.secStatus n)
    else if 8 ≤ b && b < 0xC then r 4 (s.sec n).coreTime
    else none
  | 4 =>
    let x := s.sp n
    if 8 ≤ n then none
    else if b < 8 then r 8 (s.spStatus n)
    else if 0x10 ≤ b && b < 0x18 then r 8 x.frBase
    else if 0x18 ≤ b && b < 0x20 then r 8 x.frCfg
    else if 0x20 ≤ b && b < 0x24 then r 4 x.regStatus
    else if 0x100 ≤ b && b < 0x300 && b % 0x20 < 24 then r 8 (s.ruleWord n ((b - 0x100) / 0x20) (b % 0x20 / 8))
    else none
  | 5 =>
    if 0x700000 ≤ o && o < 0x700004 then r 4 s.tab.regStatus
    else if 0x800000 ≤ o && o < 0x810000 then r 8 (s.descWord ((o - 0x800000) / 64) (o % 64 / 8))
    else if 0x900000 ≤ o && o < 0x920000 then r 8 (s.hotTag ((o - 0x900000) / 8))
    else if 16 ≤ n then none
    else if b < 8 then r 8 (s.geStatus n)
    else if 8 ≤ b && b < 0xC then r 4 (s.ge n).serve.length
    else none
  | 6 =>
    if 20 ≤ n || !(s.present (phUnit n)) then none
    else if b < 8 then r 8 (s.phStatus n)
    else if 0x100 ≤ b && b < 0x300 then
      (let l := (b - 0x100) / 0x40
       let x := s.lane n l
       let w := b % 0x40
       if w < 4 then r 4 (s.laneStatus n l)
       else if w < 8 then r 4 (unsgn 8 x.pre + unsgn 8 x.main * 2 ^ 8 + unsgn 8 x.post * 2 ^ 16)
       else if w < 0xC then r 4 x.ctle
       else if 0x10 ≤ w && w < 0x20 then
         r 8 (((List.range 8).map fun i => unsgn 8 (x.taps.getD ((w - 0x10) / 8 * 8 + i) 0) * 2 ^ (8 * i)).sum)
       else if 0x20 ≤ w && w < 0x28 then r 8 (s.patternErrors (8 * n + l))
       else if 0x28 ≤ w && w < 0x30 then r 8 (s.patternBits (8 * n + l))
       else none)
    else none
  | 9 =>
    if 0x900000 ≤ o && o < 0xA00000 then r 8 0
    else if 0x800000 ≤ o && o < 0x800038 then
      (match (o - 0x800000) / 8 with
       | 0 => r 8 0
       | 1 => r 8 s.fab.cfgAddr
       | 2 => if o < 0x800014 then r 4 s.fab.cfgLen else none
       | 3 => r 8 s.cfgStatus
       | 4 => r 8 s.fab.load.got
       | 5 => if o < 0x80002C then r 4 s.fab.regStatus else none
       | _ => r 8 s.regionStates)
    else if 16 ≤ n then none
    else if b < 8 then r 8 (s.fpStatus n)
    else none
  | 11 =>
    if o < 8 then r 8 ((s.unitSt 200).code + b2n s.coll.op.isSome * 8 + b2n s.moulting * 16)
    else if o < 0xC then r 4 s.coll.current
    else if 0x100 ≤ o && o < 0x180 then r 8 (s.phaseMap ((o - 0x100) / 8))
    else none
  | _ => none

/-- The register that holds an offset of device space, if any does. -/
def State.mmioReg (s : State) (o : Nat) : Option Reg :=
  if o < 0xC0000 then s.niReg (o / 0x1000) (o % 0x1000)
  else if o < 0xC8000 then s.snapReg o
  else if 0x100000 ≤ o && o < 0x108000 then
    (let p := (o - 0x100000) / 16
     let j := s.jess p
     some (if o % 16 < 8 then (o / 16 * 16, 8, j.fill + j.free * 2 ^ 16) else (o / 16 * 16 + 8, 8, 0)))
  else if 0x110000 ≤ o && o < 0x130000 then s.engReg o
  else if 0x200000 ≤ o && o < 0x204000 then s.aptReg o
  else if 0x300000 ≤ o && o < 0x400000 then s.aggReg o
  else if 0x400000 ≤ o && o < 0x800000 then
    (let c := (o - 0x400000) / 0x10000
     let e := s.aptEntry c ((o - 0x400000) % 0x10000 / 16)
     some (o / 8 * 8, 8, if o % 16 < 8 then e.w0 else e.w1))
  else if 0x10000000 ≤ o && o < 0x1C000000 then s.unitReg ((o - 0x10000000) / 0x1000000) (o % 0x1000000)
  else none

/-- The halves that an access covers are all registers. -/
def State.mmioHolds (s : State) (o n : Nat) : Bool := (s.mmioReg o).isSome && (n != 8 || (s.mmioReg (o + 4)).isSome)

/-- Four bytes of device space. -/
def State.mmioWord (s : State) (o : Nat) : Nat :=
  match s.mmioReg o with
  | some r => bits r.2.2 (8 * (o - r.1)) 32
  | none => 0

/-- The widths and alignment of R363; the jess table's registers take 8 bytes only (R267). -/
def mmioForm (o n : Nat) : Bool :=
  (n == 4 || n == 8) && o % n == 0 && !(n == 4 && decide (0x100000 ≤ o) && decide (o < 0x108000))

/-- A read of device space. -/
def State.mmioRead (s : State) (o n : Nat) : Ans :=
  if !mmioForm o n then { status := Sc.alignment, bytes := zeros n }
  else if !s.mmioHolds o n then { status := Sc.accessDenied, bytes := zeros n }
  else { bytes := leBytes 4 (s.mmioWord o) ++ (if n = 8 then leBytes 4 (s.mmioWord (o + 4)) else []) }

/-! Writes. -/

/-- A write of LOG_READ (R750). -/
def State.logReadWrite (s : State) (v : Nat) : Nat × State :=
  if s.agg.logNext % 2 ^ 32 < v then (Sc.boundViolation, s) else (Sc.ok, { s with agg := { s.agg with logRead := v } })

/-- A write of a register of the NI block. -/
def State.niPut (s : State) (node b v : Nat) : Nat × State :=
  let x := s.ni node
  let reject (st : Nat) : Nat × State := (st, s.niReject node b st)
  if b = 0 then (if 16 ≤ v then reject Sc.reservedNonzero else (Sc.ok, s.setNi node { x with cfg := v }))
  else if 0x40 ≤ b && b < 0x80 then
    -- STAT_ID of an agent that the node lacks is a reserved field (Table 7.12)
    (if 256 ≤ v || (v ≠ 0 && !(agentsAt node).contains ((b - 0x40) / 4)) then reject Sc.reservedNonzero
     else if !(agentsAt node).contains ((b - 0x40) / 4) then (Sc.ok, s)
     else (Sc.ok, s.setNi node { x with statId := SMap.set node x.statId ((b - 0x40) / 4) v }))
  else if 0x100 ≤ b && b < 0x500 then
    (if b % 16 = 0 then s.routeMovesWrite node ((b - 0x100) / 16) v else s.routeCtrlWrite node ((b - 0x100) / 16) v)
  else (Sc.ok, s)

/-- A write of a whole register of device space, at its offset: a status and the state; none where the answer comes later. What is
written to a read-only register is ignored (R9). -/
def State.mmioPut (s : State) (ag : Agent) (req : Option Packet) (o v : Nat) : Option Nat × State :=
  let now (r : Nat × State) : Option Nat × State := (some r.1, r.2)
  let cls := (o - 0x10000000) / 0x1000000
  let u := o % 0x1000000
  let host : Bool := match ag with | .host _ => true | _ => false
  if o < 0xC0000 then now (s.niPut (o / 0x1000) (o % 0x1000) v)
  else if 0x100000 ≤ o && o < 0x108000 then
    (let p := (o - 0x100000) / 16
     if o % 16 = 0 then
       (if bits v 32 32 ≠ 0 then (some Sc.reservedNonzero, s)
        else (some Sc.ok, s.setJess p { fill := bits v 0 16, free := bits v 16 16 }))
     else if bits v 17 47 ≠ 0 then (some Sc.reservedNonzero, s)
     else (some Sc.ok, (s.post (semOf p (bits v 16 1)) (bits v 0 16)).2))
  else if 0x110000 ≤ o && o < 0x130000 then
    (let e := (o - 0x110000) / 0x100
     if o % 0x100 ≠ 0x18 then (some Sc.ok, s)
     else if 4 ≤ v then (some Sc.reservedNonzero, s)
     else
       let s := if bit v 0 then s.engSnap e else s
       (some Sc.ok, if bit v 1 then s.setEngine e { s.engine e with live := {} } else s))
  else if o = 0x320004 then now (s.logReadWrite v)
  else if 0x400000 ≤ o && o < 0x800000 then
    (let c := (o - 0x400000) / 0x10000
     let e := (o - 0x400000) % 0x10000 / 16
     now (if o % 16 = 0 then s.aptWord0 c e v else s.aptWord1 c e v))
  else if o < 0x10000000 then (some Sc.ok, s)
  else match cls with
    | 2 =>
      let c := (u - 0x800000) / 0x1000
      let w := u % 0x1000
      if u < 0x800000 || 0x810000 ≤ u then (some Sc.ok, s)
      else if w = 0 then now (s.chainCtrl c v)
      else if (w - 0x40) % 0x40 < 16 then now (s.chainModulus c ((w - 0x40) / 0x40) ((w - 0x40) % 0x40 == 8) v)
      else (some Sc.ok, s)
    | 4 =>
      let p := u / 0x10000
      let b := u % 0x10000
      let reject (st : Nat) (s : State) : Option Nat × State := (some st, s.setSp p { s.sp p with regStatus := st + b % 4096 * 256 })
      if b = 0x10 || b = 0x18 then now (s.frWrite p b v)
      else if 0x100 ≤ b && b < 0x300 then
        (let r := s.ruleWordWrite p ((b - 0x100) / 0x20) (b % 0x20 / 8) v
         if r.1 = 0 then now r else reject r.1 r.2)
      else (some Sc.ok, s)
    | 5 =>
      if 0x800000 ≤ u && u < 0x810000 then
        (let t := (u - 0x800000) / 64
         now (if u % 64 = 0 then s.descWord0 t v else s.descWordN t (u % 64 / 8) v))
      else if 0x900000 ≤ u && u < 0x920000 then s.hotTagWrite ((u - 0x900000) / 8) v req
      else (some Sc.ok, s)
    | 9 =>
      if u < 0x800000 then (some Sc.ok, s)
      else if !host then now (s.cfgReject u Sc.accessDenied)
      else if u = 0x800000 then now (s.cfgCtrl v)
      else if u = 0x800008 then (some Sc.ok, s.setFab { s.fab with cfgAddr := v })
      else if u = 0x800010 then (some Sc.ok, s.setFab { s.fab with cfgLen := v })
      else (some Sc.ok, s)
    | 11 =>
      if u = 8 then now (s.currentPhaseWrite v)
      else if 0x100 ≤ u && u < 0x180 then now (s.phaseMapWrite ((u - 0x100) / 8) v)
      else (some Sc.ok, s)
    | _ => (some Sc.ok, s)

/-- The value of a register with the bytes of an access laid over it. -/
def Reg.over (r : Reg) (o : Nat) (bs : List Byte) : Nat :=
  let lo := max o r.1
  let hi := min (o + bs.length) (r.1 + r.2.1)
  ofLE (splice (leBytes r.2.1 r.2.2) (lo - r.1) ((bs.drop (lo - o)).take (hi - lo)))

/-- A write of device space (R362, R363). A half of an 8-byte register leaves the other half; two 4-byte registers are written
in turn, and the first failure is the answer. -/
def State.mmioWrite (s : State) (ag : Agent) (req : Option Packet) (o : Nat) (bs : List Byte) : Option Nat × State :=
  let n := bs.length
  if !mmioForm o n then (some Sc.alignment, s)
  else if 0x19900000 ≤ o && o < 0x19A00000 then
    (let r := match ag with
       | .host _ => s.cfgData (o - 0x19000000) n (ofLE bs)
       | _ => s.cfgReject (o - 0x19000000) Sc.accessDenied
     (some r.1, r.2))
  else match s.mmioReg o with
    | none => (if 0x16000000 ≤ o && o < 0x17000000 then some Sc.reservedNonzero else some Sc.accessDenied, s)
    | some r =>
      if !s.mmioHolds o n then (some Sc.accessDenied, s)
      else
        let a := s.mmioPut ag req r.1 (r.over o bs)
        if n = 8 && r.2.1 = 4 then
          (match a.2.mmioReg (o + 4) with
           | some r2 =>
             let b := a.2.mmioPut ag req r2.1 (r2.over o bs)
             (if a.1 = some 0 then b.1 else a.1, b.2)
           | none => a)
        else a

end Sys2Proof.Machine
end

