-- ==== Sys2Proof/Machine/Packets.lean ====
section
/-!
DEFINITION. Packets at the place they are for: requests at their home (R209, R290, R310 to R317, R371, R374, R395 to R397, R514,
R535), answers at the NI that asked (R305 to R307, R255, R718), and drop notices (R735, R737).
-/
namespace Sys2Proof.Machine

/-! The edge of a domain. -/

/-- A copy of R460 or R461 holds accesses to a tile's store: the tile's own, or one it carries. -/
def State.copyHolds (s : State) (t : Nat) : Bool :=
  (List.range 64).any fun x =>
    match s.handOf x with
    | .waking v => (x == t || v == t) && s.unitSt v == .ready && s.unitSt x == .hooded
    | .releasing v => (x == t || v == t) && !s.runningOn v
    | _ => false

/-- The unit whose own registers hold an offset of device space (Table 8.4): its block, and those of its stream engines. The tables
that stand beside the blocks of a class, and the configuration port, belong to no one unit. -/
def mmioUnit (o : Nat) : Option Nat :=
  if 0x110000 ≤ o && o < 0x130000 && (o - 0x110000) / 0x100 < 440 then some (engUnit ((o - 0x110000) / 0x100))
  else if 0x10000000 ≤ o && o < 0x1C000000 then
    (let cls := (o - 0x10000000) / 0x1000000
     let n := o % 0x1000000 / 0x10000
     if n < (classCount cls) then some (unitOf cls n) else none)
  else none

/-- The unit whose domain a request for this device enters; none where nothing holds its address. -/
def State.packetUnit (s : State) (p : Packet) : Option Nat :=
  match p.kind with
  | .gatherReq => some (unitOf 5 (p.table % 16))
  | .rdReq | .wr | .wrPoison | .amoReq => if regionOf p.addr == .mmio then mmioUnit (p.addr - mmioBase) else s.holder p.addr
  | _ => none

/-- What the edge NI does with a request before it is performed (R310 to R317): whether it is performed or answered now. One that
wakes a domain is parked, one that finds 16 parked waits, and so do one behind parked packets and one for a store being copied. -/
def State.edge (s : State) (k : Packet) : Bool × State :=
  match s.packetUnit k with
  | none => (true, s)
  | some u =>
    if u < 64 && s.copyHolds u then (false, s)
    else if !k.parked && s.net.packets.any (fun o => o.parked && s.packetUnit o == some u) then (false, s)
    else if s.regionLate k.addr || (decide (u < 64) && SMap.get 0 s.mem.redirect u != 0) || s.reply u != .park then (true, s)
    else
      let t := s.wake u
      if t.reply u != .park then (true, t)
      else if 16 ≤ (t.dom u).parked.length then
        -- it stands in its input buffer until a place frees (R314)
        (false, if (t.dom u).fullNs = 0 then t.setDom u { t.dom u with fullNs := t.timeNs + 1 } else t)
      else (false, (t.dropPacket k.id).setDom u { t.dom u with parked := (t.dom u).parked ++ [k] })

/-- A request to the registers of a unit whose domain is closed or hooded, with the unit (R311, R312). -/
def State.closedBlock (s : State) (k : Packet) : Option Nat :=
  if regionOf k.addr != .mmio then none else
  match mmioUnit (k.addr - mmioBase) with
  | some u => if s.present u && (s.reply u == .off || s.reply u == .hooded) then some u else none
  | none => none

/-- The answer to a read of such a register. -/
def State.closedReg (s : State) (u : Nat) (k : Packet) : Ans × State :=
  if s.reply u == .hooded then s.closedRead u k.addr k.len Pc.unitHooded Sc.unitHooded Obj.HOODED_REPLIES
  else s.closedRead u k.addr k.len Pc.domainOff Sc.domainOff Obj.DOMAIN_OFF_REPLIES

/-- The answer to a write of such a register: its status. -/
def State.closedRegWrite (s : State) (u : Nat) : Nat × State :=
  if s.reply u == .hooded then (Sc.unitHooded, s.bump Obj.HOODED_REPLIES) else (Sc.domainOff, s.bump Obj.DOMAIN_OFF_REPLIES)

/-- The fabric port whose window a request enters, where it serves. -/
def State.windowPort (s : State) (k : Packet) : Option Nat :=
  if regionOf k.addr != .fabric then none else
  match s.holder k.addr with
  | some u => if s.reply u == .deliver then some (unitIndex u) else none
  | none => none

def isGather : Agent → Bool
  | .gather _ => true
  | _ => false

/-! Requests. -/

/-- RD_REQ: `found` is what errors the line shows beyond what was injected (R344, R345). -/
def execRdReq (p : Nat) (found : List (Nat × Nat)) (s : State) : Res :=
  match s.arrived p .rdReq with
  | none => .next s
  | some k =>
    let e := s.edge k
    if !e.1 then .next e.2 else
    let s := e.2
    if regionOf k.addr == .mmio then
      match s.closedBlock k with
      | some u =>
        let r := s.closedReg u k
        .next ((r.2.dropPacket p).respond k .rdRsp r.1.status r.1.bytes r.1.mark 0)
      | none =>
        let a := s.mmioRead (k.addr - mmioBase) k.len
        .next ((s.dropPacket p).respond k .rdRsp a.status a.bytes 0 0)
    else
      match s.windowPort k with
      | some n => (match s.fabricTarget n k with | some t => .next (t.dropPacket p) | none => .next s)
      | none =>
        let open_ := match s.holder k.addr with | some u => s.redirected k.addr != k.addr || s.reply u == .deliver | none => false
        let s := if open_ && s.mark (s.redirected k.addr) = 0 then s.finds (s.redirected k.addr) found else s
        let r := s.homeRead (isGather k.agent) k.addr k.len
        .next ((r.2.dropPacket p).respond k .rdRsp r.1.status (padTo k.len r.1.bytes) r.1.mark 0)

/-- A write that its domain accepted before it closed goes on (Table 7.7, E2). -/
def State.acceptedWrite (s : State) (k : Packet) (a : Nat) (bs : List Byte) : Nat × State :=
  if k.pieces.isEmpty then s.homeWrite k.agent (isGather k.agent) a bs 0
  else match s.holder a with
    | some u => (Sc.ok, (s.loseReservations k.agent a).storeLine u (s.redirected a) bs 0)
    | none => (Sc.ok, s)

/-- One piece of a write (R374): the part within an 8-byte word. The pieces of a whole line become visible one by one and clear
its poison with the last. The answer is the status and whether every piece is written. -/
def State.writePiece (s : State) (k : Packet) (i : Nat) : Nat × Bool × State :=
  let w := k.addr / 8 + i
  let lo := max k.addr (8 * w)
  let hi := min (k.addr + k.len) (8 * w + 8)
  let bs := (k.data.drop (lo - k.addr)).take (hi - lo)
  let n := (k.addr + k.len - 1) / 8 - k.addr / 8 + 1
  let last := k.pieces.length + 1 = n
  if n ≤ i || k.pieces.contains i then (Sc.ok, false, s)
  else if k.len = 128 then
    let b := s.redirected k.addr
    let r := s.acceptedWrite k k.addr (splice (s.rawRead b 128) (8 * i) bs)
    if r.1 ≠ 0 then (r.1, true, r.2)
    else if last then (Sc.ok, true, r.2)
    else (Sc.ok, false, ((s.loseReservations k.agent k.addr).dropHeld b 128).rawWrite (b + 8 * i) bs)
  else
    let r := s.acceptedWrite k lo bs
    (r.1, decide last || decide (r.1 ≠ 0), r.2)

/-- A write in one piece: to device space, a fabric window, an event queue window, or a pair that R374 keeps whole. -/
def oneGo (k : Packet) : Bool := k.whole || (regionOf k.addr == .sec && inQueueWindow ((k.addr - secBase) % 0x80000))

def execWr (p piece : Nat) (s : State) : Res :=
  match s.arrived p .wr with
  | none => .next s
  | some k =>
    let e := if k.pieces.isEmpty then s.edge k else (true, s)
    if !e.1 then .next e.2 else
    let s := e.2
    if regionOf k.addr == .mmio then
      -- STREAM writes are held while a load pauses (R639)
      if s.fabPaused && decide (mmioBase + 0x19900000 ≤ k.addr) && decide (k.addr < mmioBase + 0x19A00000) then .next s
      else match s.closedBlock k with
        | some u =>
          let r := s.closedRegWrite u
          .next ((r.2.dropPacket p).respond k .wrAck r.1 [] 0 0)
        | none =>
          let r := s.mmioWrite k.agent (some k) (k.addr - mmioBase) k.data
          .next (match r.1 with
            | some st => (r.2.dropPacket p).respond k .wrAck st [] 0 0
            | none => r.2.dropPacket p)
    else
      match s.windowPort k with
      | some n => (match s.fabricTarget n k with | some t => .next (t.dropPacket p) | none => .next s)
      | none =>
        if oneGo k || k.len = 0 then
          let r := s.homeWrite k.agent (isGather k.agent) k.addr k.data 0
          .next ((r.2.dropPacket p).respond k .wrAck r.1 [] 0 0)
        else
          let r := s.writePiece k piece
          if r.2.1 then .next ((r.2.2.dropPacket p).respond k .wrAck r.1 [] 0 0)
          else if decide (k.pieces.contains piece) || (k.addr + k.len - 1) / 8 - k.addr / 8 < piece then .next s
          else .next (r.2.2.setPacket { k with pieces := k.pieces ++ [piece] })

def execWrPoison (p : Nat) (s : State) : Res :=
  match s.arrived p .wrPoison with
  | none => .next s
  | some k =>
    let e := s.edge k
    if !e.1 then .next e.2 else
    let s := e.2
    if regionOf k.addr == .mmio then
      match s.closedBlock k with
      | some u =>
        let r := s.closedRegWrite u
        .next ((r.2.dropPacket p).respond k .wrAck r.1 [] 0 0)
      | none => .next ((s.dropPacket p).respond k .wrAck Sc.accessDenied [] 0 0)
    else
      match s.windowPort k with
      | some n => (match s.fabricTarget n k with | some t => .next (t.dropPacket p) | none => .next s)
      | none =>
        let r := s.homeWrite k.agent (isGather k.agent) k.addr k.data (k.pseq + 1)
        .next ((r.2.dropPacket p).respond k .wrAck r.1 [] 0 0)

/-! Atomics (R209, Table 5.5 AOP). -/

/-- The new value of an atomic on `n` bytes: none where it stores nothing. -/
def amoNew (op n old x cmp : Nat) : Option Nat :=
  let w := 8 * n
  let x := x % 2 ^ w
  match op with
  | 0 => some x
  | 1 => some ((old + x) % 2 ^ w)
  | 2 => some (Nat.land old x)
  | 3 => some (Nat.lor old x)
  | 4 => some (Nat.xor old x)
  | 5 => some (if sgn w old ≤ sgn w x then old else x)
  | 6 => some (if sgn w old ≤ sgn w x then x else old)
  | 7 => some (min old x)
  | 8 => some (max old x)
  | _ => if old = cmp then some x else none

/-- An LR sets its agent's reservation (R395, R397). -/
def State.setReservation (s : State) (ag : Agent) (a : Nat) : State :=
  let keep (dev req : Nat) (limit : Bool) : State :=
    let rs := s.mem.remoteRsv.filter fun r => !(r.dev == dev && r.req == req)
    let far := rs.filter fun r => r.dev != s.devId
    let full := limit && decide (s.obj Obj.REMOTE_RSV_LIMIT ≤ far.length)
    let rs := if full then (match far with | r :: _ => rs.erase r | [] => rs) else rs
    let t := { s with mem := { s.mem with remoteRsv := rs ++ [{ dev := dev, req := req, line := a / 128 }] } }
    if full then t.bump Obj.REMOTE_RSV_EVICTIONS else t
  match ag with
  | .slot q k => s.setSlot q k { s.slot q k with resv := some (s.devId * 2 ^ 49 + a / 128) }
  | .remote dev req => keep dev req true
  | .fabric p _ => keep s.devId p false
  | _ => s

/-- An SC finds its agent's reservation, and clears it (R395). -/
def State.takeReservation (s : State) (ag : Agent) (a : Nat) : Bool × State :=
  match ag with
  | .slot q k =>
    let t := s.slot q k
    (t.resv == some (s.devId * 2 ^ 49 + a / 128), s.setSlot q k { t with resv := none })
  | _ =>
    let mine (r : RemoteRsv) : Bool := r.owner s.devId ag
    (s.mem.remoteRsv.any fun r => mine r && r.holds s.devId (a / 128),
     { s with mem := { s.mem with remoteRsv := s.mem.remoteRsv.filter fun r => !mine r } })

/-- An atomic is performed at its home: status, the value it returns, its mark. -/
def State.performAmo (s : State) (k : Packet) : Nat × Nat × Nat × State :=
  let n := if k.sz = 0 then 4 else 8
  let st := firstFail [(decide (1 < k.sz) || (decide (9 < k.op) && k.op != 0x10 && k.op != 0x11), Sc.reservedNonzero),
                       (k.addr % n ≠ 0, Sc.alignment)]
  if st ≠ 0 then (st, 0, 0, s) else
  let r := s.homeRead false k.addr n
  let old := ofLE r.1.bytes
  let local_ : Bool := match k.agent with | .slot _ _ => true | _ => false
  let count (s : State) (ok : Bool) : State := if local_ then s.bump (if ok then Obj.SC_SUCCESS else Obj.SC_FAIL) else s
  -- an SC whose home is closed stores nothing (R208, R395)
  if r.1.status ≠ 0 && k.op = 0x11 then (r.1.status, 1, r.1.mark, count (r.2.takeReservation k.agent k.addr).2 false)
  else if r.1.status ≠ 0 then (r.1.status, old, r.1.mark, r.2)
  else if k.op = 0x10 then (Sc.ok, old, r.1.mark, r.2.setReservation k.agent k.addr)
  else if k.op = 0x11 then
    let t := r.2.takeReservation k.agent k.addr
    if t.1 then
      let w := t.2.homeWrite k.agent false k.addr (k.data.take n) 0
      if w.1 = 0 then (Sc.ok, 0, 0, count w.2 true) else (w.1, 1, 0, count w.2 false)
    else (Sc.ok, 1, 0, count t.2 false)
  else
    match amoNew k.op n old (fieldLE k.data 0 8) (fieldLE k.data 8 8) with
    | none => (Sc.ok, old, r.1.mark, r.2)
    | some v =>
      let w := r.2.homeWrite k.agent false k.addr (leBytes n v) 0
      (w.1, old, r.1.mark, w.2)

def execAmoReq (p : Nat) (s : State) : Res :=
  match s.arrived p .amoReq with
  | none => .next s
  | some k =>
    let deny (s : State) : State := (s.dropPacket p).respond k .amoRsp Sc.accessDenied (zeros 8) 0 0
    let e := s.edge k
    if !e.1 then .next e.2 else
    let s := e.2
    if regionOf k.addr == .mmio then
      match s.closedBlock k with
      | some u =>
        let r := s.closedReg u { k with len := 8 }
        .next ((r.2.dropPacket p).respond k .amoRsp r.1.status r.1.bytes r.1.mark 0)
      | none => .next (deny s)
    else
    match s.windowPort k with
    | some n =>
      if !bit (s.region n).flags 0 then .next (deny s)
      else (match s.fabricTarget n k with | some t => .next (t.dropPacket p) | none => .next s)
    | none =>
      let r := s.performAmo k
      .next ((r.2.2.2.dropPacket p).respond k .amoRsp r.1 (leBytes 8 r.2.1) r.2.2.1 0)

/-! Marks and gathers of other devices. -/

/-- EPOCH_MARK (R535, R536): from another device it triggers a domain whose source names that device. -/
def execEpochMark (p : Nat) (s : State) : Res :=
  match s.arrived p .epochMark with
  | none => .next s
  | some k =>
    let s := s.dropPacket p
    match k.agent with
    | .remote dev _ =>
      if s.edSource k.ed = 6 && s.edArg k.ed = dev then .next ((s.trigger k.ed).respond k .wrAck Sc.ok [] 0 0)
      else .next ((s.bump (Obj.ED_REJECTED_MARKS k.ed)).respond k .wrAck Sc.accessDenied [] 0 0)
    | _ => .next (if s.edSource k.ed = 1 then s.trigger k.ed else s)

/-- A gather request to a closed or hooded engine is answered in full with poisoned data (R311, R312). -/
def State.closedGather (s : State) (u : Nat) (k : Packet) : State :=
  let hooded := s.reply u == .hooded
  let st := if hooded then Sc.unitHooded else Sc.domainOff
  let s := s.bump (if hooded then Obj.HOODED_REPLIES else Obj.DOMAIN_OFF_REPLIES)
  let r := s.pellet { source := Es.accessPoison, code := if hooded then Pc.unitHooded else Pc.domainOff, status := st, oClass := 0x0D,
                      oIndex := unitNode u }
  let d := r.2.drawBytes (max 1 ((r.2.desc k.table).streamBytes k.pool (gatherEntry k 0).2.1))
  d.2.answerGather k st d.1 (r.1 + 1)

def execGatherReq (p : Nat) (s : State) : Res :=
  match s.arrived p .gatherReq with
  | none => .next s
  | some k =>
    let g := k.table % 16
    let u := unitOf 5 g
    let e := s.edge k
    if !e.1 then .next e.2 else
    let s := e.2
    if s.reply u != .deliver then .next ((s.dropPacket p).closedGather u k)
    else match s.takeGather g k with
      | some t => .next (t.dropPacket p)
      | none => .next s

/-! Answers. -/

/-- The pellet that an NI writes for a request it completes, and the device and address it names. -/
def Outst.pelletAddr (o : Outst) : Option Nat :=
  match o.pkt, o.kind with
  | some k, .rdReq | some k, .wr | some k, .wrPoison | some k, .amoReq => some (k.dev * 2 ^ 56 + k.addr / 128 * 128)
  | _, _ => none

/-- A failure of another device is recorded as REMOTE_FAULT, with a pellet that carries the remote status where none came with
it (R255, R718, Table 1.8). Statuses of the link stand as they are. -/
def State.remoteStatus (s : State) (o : Outst) (st mark : Nat) : Nat × Nat × State :=
  let link := st == Sc.linkLost || st == Sc.linkAbsent || st == Sc.indeterminate || st == Sc.timeout
  if o.pkt.isNone || st = 0 || link then (st, mark, s)
  else if (match o.use with | .relay _ _ => true | _ => false) then (st, mark, s)
  else if mark ≠ 0 then (Sc.remoteFault, mark, s)
  else
    let w := agentOrigin o.agent
    let r := s.pellet { source := Es.linkPoison, code := Pc.remote, status := st, addr := o.pelletAddr, oClass := w.1, oIndex := w.2 }
    (Sc.remoteFault, r.1 + 1, r.2)

/-- A load, LR, SC, AMO or MMIO access of a slot is answered (R24, R207, R275, R371, R395). -/
def State.loadAnswered (s : State) (q k : Nat) (l : PendLoad) (o : Outst) (st : Nat) (bs : List Byte) (mark off : Nat) : State :=
  let t := s.slot q k
  let rest := t.loads.filter fun x => x.tag != l.tag
  let l : PendLoad := { l with
    left := l.left - 1, buf := splice l.buf off (bs.take l.n), mark := firstMark l.mark mark, status := if l.status ≠ 0 then l.status else st }
  if l.left ≠ 0 then s.setSlot q k { t with loads := t.loads.map fun x => if x.tag = l.tag then l else x }
  else if endsProgram l.status then
    -- the program stops at the word that made the access
    if t.ending ≠ 0 then s.setSlot q k { t with loads := rest }
    else (s.setSlot q k { t with loads := rest, wi := l.word }).endWith q k l.status l.mark
  else
    let away := o.kind == .amoReq && (o.pkt.isSome || !(s.isDirect (l.line * 128)))
    let t : Slot := { ((t.loaded l l.buf l.mark).withPellet l.mark).stick l.status with loads := rest }
    let t := if away && l.kind = 0x14 && l.status = 0 && t.ending = 0 then { t with resv := some l.line } else t
    let s := s.setSlot q k t
    if away && l.kind = 0x15 then s.bump (if ofLE l.buf = 0 && l.status = 0 then Obj.SC_SUCCESS else Obj.SC_FAIL) else s

/-- A line fetched from elsewhere is here (R195, R196). -/
def State.fetchAnswered (s : State) (q k line st : Nat) (bs : List Byte) (mark : Nat) : State :=
  let t := s.slot q k
  if t.fetching != some line then s else
  let s := s.setSlot q k { t with fetching := none }
  if t.ending ≠ 0 || t.role == .empty then s
  else if isEndingStatus st || (isFaultStatus st && mark = 0) then s.endWith q k st mark
  else s.setSlot q k ((s.slot q k).keepLine { line := line, bytes := padTo 128 bs, poison := mark })

/-- A buffered store is acknowledged (R376, R379, R238). -/
def State.storeAnswered (s : State) (q tag st mark : Nat) : State :=
  let x := s.seq q
  match x.sb.find? (·.tag == tag) with
  | none => s
  | some e =>
    let s := s.setSeq q { x with sb := x.sb.filter fun b => b.tag != tag }
    let s := if isFaultStatus st then s.bump Obj.STORE_FAULTS else s
    let t := s.slot q e.slot
    if t.role == .empty then s
    else if endsProgram st then s.endWith q e.slot st mark
    else s.setSlot q e.slot ((if st = 0 then t else t.withPellet mark).stick st)

/-- A beat or descriptor line that an engine read is here (R248, R251, R256, R259). -/
def State.engAnswered (s : State) (e slot : Nat) (dst : List (Nat × Nat × Nat)) (st : Nat) (bs : List Byte) (mark ga : Nat) : State :=
  let x := s.engine e
  if dst.isEmpty then
    if x.st != .running || x.descSt ≠ 1 then s.engSettle e
    else if mark ≠ 0 then ((s.noteBeat e st mark).stopChain e (if endsProgram st then st else Sc.accessDenied)).engSettle e
    else if st ≠ 0 then (s.stopChain e st).engSettle e
    else s.setEngine e { x with descSt := 2, desc := padTo 128 bs }
  else if endsProgram st && x.st == .running then
    let s := s.engRead e slot dst 0 bs mark ga
    if (s.engine e).st == .running then s.stopChain e st else s
  else s.engRead e slot dst st bs mark ga

/-- A write or post of an engine is acknowledged (R255, R259, R265); what waited for its tag goes on. -/
def State.engAcked (s : State) (e st mark : Nat) : State :=
  let s := if st = 0 then s else s.noteBeat e st mark
  let s := if endsProgram st && (s.engine e).st == .running then s.stopChain e st else s
  (State.pumpEng e (s.engine e).wq.length s).engSettle e

/-- A wait of an engine for a pair is answered: taken, or at its limit (R263, R264). -/
def State.engWaited (s : State) (e m st : Nat) : State :=
  let x := s.engine e
  if x.st != .running || !x.descRunning then s
  else if st ≠ 0 then (s.stopChain e st).engSettle e
  else if dIn x.desc && m = semOf (dInPair x.desc) 0 && !x.tookIn then s.setEngine e { x with tookIn := true }
  else s.setEngine e { x with tookOut := true }

/-- A wait of a schedule step is answered: taken, or at its limit (R529, R532). -/
def State.stepWaited (s : State) (i st : Nat) : State :=
  if !(s.coll.flying.any fun r => r.idx == i && r.waiting) then s
  else if st ≠ 0 then
    let s := s.stepFail i st
    (match s.collOp with | some o => s.settleColl o | none => s)
  else s.setColl { s.coll with flying := s.coll.flying.map fun r => if r.idx = i then { r with waiting := false } else r }

/-- Whether a schedule step still waits for its pair. -/
def State.stepWaits (s : State) (i : Nat) : Bool := s.coll.flying.any fun r => r.idx == i && r.waiting

/-- Whether an engine's descriptor still waits for a pair. -/
def State.engWaits (s : State) (e m : Nat) : Bool :=
  (s.engine e).st == .running && (s.engine e).descRunning && s.engWaitsOn e == some m

/-- A word's post, mark or line write to another device is answered (R216, R227, R237, R238, R718). -/
def State.wordAnswered (s : State) (q k st mark : Nat) : State :=
  let t := s.slot q k
  if st = 0 || t.role == .empty then s
  else if endsProgram st then s.endWith q k st mark
  else s.setSlot q k ((t.withPellet mark).stick st)

/-- A piece of a bag: one flit, and whether the answer is whole. -/
def State.bagFlit (s : State) (g bag part seg st : Nat) (bs : List Byte) (mark : Nat) : Bool × State :=
  s.gatherArrives g bag part seg st bs mark

/-- Complete a partial that will not come: every flit of it, poisoned. -/
def State.fillPart (g bag part st mark : Nat) : Nat → Nat → State → State
  | 0, _, s => s
  | f + 1, seg, s =>
    let d := s.drawBytes 128
    let r := d.2.bagFlit g bag part seg st d.1 mark
    if r.1 then r.2 else State.fillPart g bag part st mark f (seg + 1) r.2

/-- An answer reaches what it completes, a gather's partial apart. -/
def State.complete (s : State) (o : Outst) (kind : PKind) (st : Nat) (bs : List Byte) (mark seg ga : Nat) (last : Bool) : State :=
  match o.use with
  | .load q k tag off =>
    (match (s.slot q k).loads.find? (·.tag == tag) with
     | some l => s.loadAnswered q k l o st bs mark off
     | none => s)
  | .fetch q k line => s.fetchAnswered q k line st bs mark
  | .sbStore q tag => s.storeAnswered q tag st mark
  | .engRead e slot dst => s.engAnswered e slot dst st bs mark ga
  | .engWrite e _ => s.engAcked e st mark
  | .engPost e => s.engAcked e st mark
  | .post q k => s.wordAnswered q k st mark
  | .epoch q k => s.wordAnswered q k st mark
  | .gather g bag part => State.fillPart g bag part st mark 64 0 s
  | .opWrite (.slot q k) => s.wordAnswered q k st mark
  | .opWrite (.gather g) =>
    if endsProgram st then s.gxStop g st
    else if st = 0 then s
    else let t := s.gxNote g st; let x := t.ge g; t.setGe g { x with mark := firstMark x.mark mark }
  | .opWrite _ => s
  | .buf ag job a n =>
    { s with net := { s.net with buf := s.net.buf ++ [{ ag := ag, job := job, ga := a, n := n, status := st, bytes := bs, mark := mark }] } }
  | .hot slot => if st = 0 then s else s.endCopy slot st
  | .engWait e m => s.engWaited e m st
  | .collWait i _ => s.stepWaited i st
  | .step i => s.stepAcked i st mark
  | .fabric port tag => s.masterAnswer port tag st mark bs
  | .bar2 id off =>
    if id = 0 then (if st = Sc.accessDenied then s.bump Obj.BAR2_ABORTS else s) else s.bar2Piece id off st bs mark
  | .relay port id => s.linkAnswer port id kind st bs mark seg last
  | .beat p n => s.beatAck p n st
  | .line p f => s.lineAck p f st
  | .plain => s

/-- A response at the NI that asked (R305, R307): a late one is discarded. A response LINK_LOST to a request for another device
is a drop notice and waits for DROP_NOTICE_RX. -/
def State.respondTo (s : State) (p : Nat) (kind : PKind) : State :=
  match s.arrived p kind with
  | none => s
  | some k =>
    match s.outst k.dst k.tc k.tag with
    | none => s.dropPacket p
    | some o =>
      if o.timedOut then (let t := s.dropPacket p; if k.kind == .gatherRsp && k.seg ≠ 0 then t else t.bump Obj.LATE_RESPONSES)
      else if k.status = Sc.linkLost && o.pkt.isSome then s
      else if o.kind.answer != kind then s.dropPacket p
      else
        let m := if k.poison then k.pseq + 1 else 0
        let s := s.dropPacket p
        let s := match kind with | .rdRsp | .gatherRsp => s.countBytes o.agent k.data.length | _ => s
        let r := s.remoteStatus o k.status m
        let s := r.2.2
        match o.use with
        | .gather g bag part =>
          let w := s.bagFlit g bag part k.seg r.1 k.data r.2.1
          if w.1 then (w.2.freeOutst k.dst k.tc k.tag).countLat o.agent o.sentNs else w.2
        | _ =>
          -- a forwarded gather request is done with its last flit
          let last := kind != .gatherRsp || decide (k.data.length < 128) || k.seg == 7
          let s := if last then (s.freeOutst k.dst k.tc k.tag).countLat o.agent o.sentNs else s
          s.complete o kind r.1 k.data r.2.1 k.seg (k.dev * 2 ^ 56 + k.addr) last

/-- A gather answer's request leaves the port it went out by when its last flit has come (R722, R732). -/
def State.gatherSettled (s : State) (k : Packet) : State :=
  if (s.outst k.dst k.tc k.tag).isSome then s else
  (List.range 20).foldl (fun s n =>
    let x := s.phy n
    match x.sent.find? fun o => o.kind == .gatherReq && o.origin == k.origin && o.tc == k.tc && o.src == k.dst with
    | some o => (s.setPhy n { x with sent := x.sent.erase o }).tryHood n
    | none => s) s

/-- Whether the agent of a jess wait still waits for it: a slot at its SEMWAIT, an engine, a step. -/
def State.stillWaits (s : State) (o : Outst) : Bool :=
  match o.use with
  | .post q k => (s.slot q k).ending = 0 && (match (s.slot q k).semWait with | some _ => true | none => false)
  | .engWait e m => s.engWaits e m
  | .collWait i _ => s.stepWaits i
  | _ => false

/-- A slot's SEMWAIT is answered (R213, R216). -/
def State.slotWaited (s : State) (q k st : Nat) : State :=
  let s := s.setSlot q k { s.slot q k with semWait := none }
  if st = 0 then s.advance q k 1 else s.endProgram q k st

/-- JESS_GRANT (R292): the wait is over. A grant that crossed the cancel of its wait posts COUNT back. -/
def execJessGrant (p : Nat) (s : State) : Res :=
  match s.arrived p .jessGrant with
  | none => .next s
  | some g =>
    match s.outst g.dst 0 g.tag with
    | none => .next (s.dropPacket p)
    | some o =>
      let done := ((s.dropPacket p).freeOutst g.dst 0 g.tag).countLat o.agent o.sentNs
      if g.status = Sc.okEmpty then .next done
      else if !s.stillWaits o then
        .next (if g.status = Sc.ok then (done.post (semOf g.pair g.which) g.count).2.bump Obj.JESS_RETURNS else done)
      else match o.use with
        | .post q k => .next (if s.canRun q k then done.slotWaited q k g.status else s)
        | _ => .next (done.complete o .jessGrant g.status [] 0 0 0 true)

def execAmoRsp (p : Nat) (s : State) : Res := .next (s.respondTo p .amoRsp)
def execGatherRsp (p : Nat) (s : State) : Res :=
  match s.packet p with
  | some k => .next ((s.respondTo p .gatherRsp).gatherSettled k)
  | none => .next s

/-- Whether a request kind returns data. -/
def PKind.reads : PKind → Bool
  | .rdReq | .amoReq | .gatherReq => true
  | _ => false

/-- Bytes that an answer to a request carries. -/
def Outst.dataBytes (o : Outst) : Nat := match o.kind with | .amoReq => 8 | .gatherReq => 128 | .rdReq => o.len | _ => 0

/-- A request has no response within NI_TIMEOUT_US: its NI completes it (R306, R307). -/
def State.requestTimeout (s : State) (node tc tag : Nat) : State :=
  match s.outst node tc tag with
  | none => s
  | some o =>
    if o.timedOut || o.kind == .jessWait || s.safety.safe || !s.passed o.sentNs (s.obj Obj.NI_TIMEOUT_US * 1000) then s else
    let rest : State := { s with net := { s.net with
      outst := s.net.outst.map fun x => if x == o then { x with timedOut := true, use := .plain, sentNs := s.timeNs } else x } }
    let s := rest.bump Obj.REQ_TIMEOUTS
    let r := if o.kind.reads then
        s.pellet { source := Es.nocPoison, code := Pc.nocIntegrity, status := Sc.timeout, addr := o.pelletAddr, oClass := 0x0D, oIndex := node }
      else (0, s)
    let d := r.2.drawBytes o.dataBytes
    let m := if o.kind.reads then r.1 + 1 else 0
    let ga := match o.pkt with | some k => k.dev * 2 ^ 56 + k.addr | none => 0
    (d.2.complete o o.kind.answer Sc.timeout d.1 m 0 ga true)

/-! Drop notices. -/

/-- A request may be sent again after a drop (Table 18.9). -/
def Packet.repeats (k : Packet) : Bool :=
  match k.kind with
  | .rdReq | .gatherReq => true
  | .amoReq => k.op == 0x10
  | .wr | .wrPoison => k.replay
  | _ => false

/-- Send a request again with its tag through the member that is selected now (R735). -/
def State.reissue (s : State) (o : Outst) (k : Packet) (port : Nat) : State :=
  let s := s.bump Obj.REISSUES
  let s := if k.kind == .gatherReq then s.bump Obj.GATHER_REISSUES else s
  let s := match o.use with
    | .gather g bag part =>
      let x : Gather := s.ge g
      (match x.bags.find? fun (b : Bag) => b.no == bag with
       | some b => (match b.parts[part]? with
         | some q => s.setGe g (x.setBag { b with parts := b.parts.set part { q with segs := 0, buf := [], mark := 0 } })
         | none => s)
       | none => s)
    | _ => s
  let c : Option (Nat × List (Nat × Nat)) × State := s.chooseRoute o.node (phNode port) k.tc
  let id := c.2.net.nextId
  let q : Packet := { k with
    id := id, src := o.node, at_ := o.node, dst := phNode port, tag := o.tag, segs := c.1.map fun x => x.2, route := c.1.map fun x => x.1, sentNs := s.timeNs }
  let again (x : Outst) : Outst := if x == o then { x with reissues := x.reissues + 1, pkt := some q } else x
  { c.2 with net := { c.2.net with outst := c.2.net.outst.map again, packets := c.2.net.packets ++ [q], nextId := id + 1 } }

/-- A drop notice reaches its requester (R735 to R737, R517): the issuing NI sends the request again or completes it; a
forwarding device passes the notice upstream. -/
def State.noticeArrived (s : State) (p : Nat) : State :=
  match s.packet p with
  | none => s
  | some k =>
    if !(k.kind.response) || k.status ≠ Sc.linkLost || (s.arrived p k.kind).isNone then s else
    match s.outst k.dst k.tc k.tag with
    | none => s.dropPacket p
    | some o =>
      match o.pkt with
      | none => s
      | some q =>
        let s := s.dropPacket p
        if o.timedOut then s.bump Obj.LATE_RESPONSES else
        let gone := s.freeOutst k.dst k.tc k.tag
        match o.use with
        | .relay port id => gone.linkAnswer port id o.kind.answer Sc.linkLost (zeros o.dataBytes) 0 0 true
        | _ =>
          let again := q.repeats && decide (o.reissues < s.obj Obj.REISSUE_LIMIT)
          match (if again then s.portFor q.dev q.sel else none) with
          | some port => (s.reissue o q port).serveNode o.node
          | none =>
            let lost := q.repeats
            let st := if lost then Sc.linkLost else Sc.indeterminate
            let t := gone.bump (if lost then Obj.LINK_LOST_DONE else Obj.INDETERMINATE_DONE)
            let r := t.pellet {
              source := Es.linkPoison, code := if lost then Pc.linkLost else Pc.indeterminate, status := st, addr := o.pelletAddr
              oClass := 6, oIndex := k.table, cls := 6, sub := k.table + 1 }
            let d := r.2.drawBytes o.dataBytes
            d.2.complete o o.kind.answer st d.1 (r.1 + 1) 0 (q.dev * 2 ^ 56 + q.addr) true

end Sys2Proof.Machine
end

