-- ==== Sys2Proof/Machine/Complete.lean ====
section
/-!
DEFINITION. The end of a queued unit operation (R218, R219, R743) and the boundary commit (R118, R229, R536 to R541, R583,
R604, R613).
-/
namespace Sys2Proof.Machine

/-- UNIT_OP_COMPLETE: the operation at the head of a unit's queue ends; matrix passes end by their own row. -/
def execUnitOpComplete (q : Nat) (residueOk : Bool) (s : State) : Res :=
  match s.headOp q with
  | none => .next s
  | some o =>
    if !s.live || 153 ≤ q || o.opcode == 0x30 then .next s
    else if !residueOk then .next (s.checkerFault (seqUnit q))
    else .next (match o.opcode with
      | 0x31 => s.runVx o
      | 0x32 => s.runCx o
      | 0x33 => s.gxComplete (q - 120) o
      | 0x36 => if s.coll.op == some o.id then s.settleColl o else s
      | 0x37 => if s.coll.op == some o.id then s.settleColl o else s
      | _ => s)

/-! Boundary commits. -/

/-- Pending dictionary values of a domain's units: keys and values. -/
def State.stagedOf (s : State) (d : Nat) : List (Nat × Nat) :=
  (s.oap.staged.filter fun e => match keyHome e.1 with | some u => s.domainOf u == d | none => false).map fun e => (e.1, e.2 - 1)

/-- Pending CFGW values of a domain's units. -/
def State.cfgwOf (s : State) (d : Nat) : List (Nat × Nat × Nat) := s.ep.cfgw.filter fun e => s.domainOf e.1 == d

/-- Apply one pending dictionary value. -/
def State.applyStaged (s : State) (key v : Nat) : State :=
  let s := { s with oap := { s.oap with staged := SMap.set 0 s.oap.staged key 0 } }
  if key / 256 = 0x2700 then s.applySpMode (key % 256 - 1) v else s.setObj key v

/-- A core at C2: a staged layer is applied, which closes its bin; otherwise an EPOCH bin closes (R604, R613). -/
def State.commitCore (s : State) (c : Nat) : State :=
  let x := s.sec c
  match x.staged, x.layer with
  | some l, _ => (s.setSec c { x with staged := none }).applyLayer c l
  | none, some l => if l.binMode = 2 then s.closeBin c else s
  | none, none => s

/-- EPOCH_COMMIT_APPLY: C2, once no bank drains whose CUR_BANK is pending (R463). -/
def execEpochCommitApply (d : Nat) (s : State) : Res :=
  let x := s.epoch d
  let cs := s.cfgwOf d
  let waits := cs.any fun c => c.2.1 == 1 && s.draining c.1
  if 32 ≤ d || x.commit != .holding || s.safety.safe || waits then .next s else
  let vs := s.stagedOf d
  let s := vs.foldl (fun s v => s.applyStaged v.1 v.2) s
  let s := cs.foldl (fun s c => s.cfgWrite c.1 c.2.1 c.2.2) s
  let s := { s with ep := { s.ep with cfgw := s.ep.cfgw.filter fun e => !(cs.contains e) } }
  let s := (List.range 16).foldl (fun s c => if s.domainOf (secUnit c) = d then s.commitCore c else s) s
  .next (s.setEpoch d { s.epoch d with commit := .applied, applied := vs.length + cs.length })

/-- EPOCH_COMMIT_RELEASE: C3. A latched trigger starts the next commit. -/
def execEpochCommitRelease (d : Nat) (s : State) : Res :=
  let x := s.epoch d
  if 32 ≤ d || x.commit != .applied || s.safety.safe then .next s else
  let due (m : Nat × Nat) : Bool := s.domainOf m.1 == d || m.2 == d
  let ms := s.ep.moves.filter due
  let s := { s with ep := { s.ep with moves := s.ep.moves.filter fun m => !(ms.contains m) } }
  let s := ms.foldl (fun s m => s.setObj (Obj.UNIT_DOMAIN (unitClass m.1) (unitIndex m.1)) m.2) s
  let s := (s.bump (Obj.ED_EPOCH d)).setObj (Obj.ED_LAST_COMMIT_NS d) s.timeNs
  let s := s.setEpoch d { x with commit := if x.again then .holding else .idle, again := false, commits := x.commits + 1, applied := 0 }
  .next ((s.pulseOut d).sendEvent 6 0xFF 0 (d + x.applied % 65536 * 65536) 0 0 0)

end Sys2Proof.Machine
end

