-- ==== Sys2Proof/Machine/Power.lean ====
section
/-!
DEFINITION. The power sequences of a domain (R309 to R318, Tables 7.7 and 7.8), with what its unit does on the way: a core
closes its bin (R615), a port sends HOOD and OPEN and moves its lanes (R690, R732), a waiting test begins (R460, R760).
-/
namespace Sys2Proof.Machine

/-- The unit an agent belongs to, where it has one. -/
def agentUnit : Agent → Option Nat
  | .slot q _ => some (seqUnit q)
  | .op q => some (seqUnit q)
  | .engine e => some (engUnit e)
  | .gather g => some (unitOf 5 g)
  | .coll => some 200
  | .sensor p => some (spUnit p)
  | .sec c => some (secUnit c)
  | .fabric p _ => some (unitOf 9 p)
  | _ => none

/-- A unit's own request is still out. -/
def State.ownOut (s : State) (u : Nat) : Bool := s.net.outst.any fun o => !o.timedOut && agentUnit o.agent == some u

/-- Requests the unit accepted and has not completed (Table 7.7, E2). -/
def State.accepted (s : State) (u : Nat) : Bool :=
  (s.net.packets.any fun p => !p.pieces.isEmpty && s.packetUnit p == some u) ||
  (match unitClass u with
   | 5 => !(s.ge (unitIndex u)).serve.isEmpty
   | 9 => !(s.fport (unitIndex u)).targets.isEmpty || !(s.fport (unitIndex u)).masters.isEmpty
   | 3 => !(s.sec (unitIndex u)).outs.isEmpty
   | 4 => !(s.sp (unitIndex u)).todo.isEmpty
   | 11 => s.coll.op.isSome
   | _ => false)

/-- td of Table 7.7: the domain has completed what it accepted and has its own answers, and its engines have stopped. -/
def State.domainDrained (s : State) (u : Nat) : Bool :=
  !(s.ownOut u) && !(s.accepted u) &&
  (unitEngines u).all fun e => (s.engine e).st == .idle || (s.engine e).seq != (unitSeq u).getD 0

/-- A core closes its current bin before it stops, once (R615). -/
def State.closeForStop (s : State) (u : Nat) : State :=
  if unitClass u = 3 && !(s.dom u).binDone then
    (s.setDom u { s.dom u with binDone := true }).closeBin (unitIndex u)
  else s

/-- A port whose drain is done sends HOOD; it is hooded when that is sent (R732). -/
def State.hoodPort (s : State) (u : Nat) : State := if unitClass u = 6 then s.tryHood (unitIndex u) else s
def State.portHooded (s : State) (u : Nat) : Bool :=
  unitClass u != 6 || !(s.phy (unitIndex u)).framing || (s.phy (unitIndex u)).hoodTx

/-- A unit that is READY again tells its link partner (R732). -/
def State.openPort (s : State) (u : Nat) : State :=
  if unitClass u = 6 && s.unitSt u == .ready && (s.dom u).phase == .open_ then s.sendOpen (unitIndex u) else s

/-- The drain is over: a hood ends the sequence, a move to OFF or MEWS goes on (E4 to E6). -/
def State.endDrain (s : State) (u : Nat) : State :=
  let d := s.dom u
  let hooded (s : State) : State := (s.setDom u { d with phase := .open_ }).setUcb u { s.ucb u with st := .hooded, target := none }
  match d.target with
  | .hooded =>
    let s := hooded s
    if (s.ucb u).beforeTest.isSome then s.testHooded u else s
  | .ready => ((hooded s).unhood u).openPort u
  | _ => s.setDom u { d with phase := .down, sinceNs := s.timeNs }

/-- DOMAIN_DRAIN_COMPLETE (E2, E4). -/
def execDomainDrainComplete (unit : Nat) (s : State) : Res :=
  if 201 ≤ unit || (s.dom unit).phase != .draining || s.safety.safe then .next s else
  let s := (s.closeForStop unit).hoodPort unit
  if s.domainDrained unit && s.portHooded unit then .next (s.endDrain unit) else .next s

/-- Requests still held complete with DOMAIN_OFF, and the unit's own are abandoned: what they would complete is given up, and
their tags stay taken until an answer comes (E3). -/
def State.abandon (s : State) (u : Nat) : State :=
  let s : State := { s with net := { s.net with
    outst := s.net.outst.map fun (o : Outst) => if agentUnit o.agent = some u then { o with use := .plain } else o } }
  let held := s.net.packets.filter fun (p : Packet) => !p.pieces.isEmpty && s.packetUnit p == some u
  let s := held.foldl (fun (s : State) (p : Packet) => (((s.dropPacket p.id).bump Obj.DOMAIN_OFF_REPLIES).respond p .wrAck Sc.domainOff [] 0 0)) s
  let s := (unitEngines u).foldl (fun (s : State) (e : Nat) => if (s.engine e).seq = (unitSeq u).getD 0 then s.endChain e Sc.domainOff else s) s
  let n := unitIndex u
  match unitClass u with
  | 5 =>
    let ps := (s.ge n).serve
    ps.foldl (fun (s : State) (p : Packet) => s.closedGather u p) (s.setGe n { s.ge n with serve := [] })
  | 9 =>
    let x := s.fport n
    let ts := x.targets
    let s := ts.foldl (fun (s : State) (t : Nat × Packet) =>
      match t.2.kind with
      | .wr | .wrPoison => (s.bump Obj.DOMAIN_OFF_REPLIES).respond t.2 .wrAck Sc.domainOff [] 0 0
      | k =>
        let r := s.closedRead u t.2.addr t.2.len Pc.domainOff Sc.domainOff Obj.DOMAIN_OFF_REPLIES
        r.2.respond t.2 k.answer Sc.domainOff r.1.bytes r.1.mark 0) (s.setFport n { x with targets := [] })
    let ms := (s.fport n).masters.filter fun m => m.ans.isNone
    ms.foldl (fun (s : State) (m : MReq) => s.masterAnswer n m.tag Sc.domainOff 0 []) s
  | 3 => s.setSec n { s.sec n with outs := [] }
  | 4 => s.setSp n { s.sp n with todo := [] }
  | _ => s

/-- DOMAIN_DRAIN_TIMEOUT (E3): 20 µs have passed and the domain is not drained. -/
def execDomainDrainTimeout (unit : Nat) (s : State) : Res :=
  if 201 ≤ unit || (s.dom unit).phase != .draining || s.safety.safe || s.domainDrained unit || !s.passed (s.dom unit).sinceNs 20000 then .next s
  else
    let s := (((s.closeForStop unit).bump Obj.DRAIN_TIMEOUTS).abandon unit).hoodPort unit
    .next (s.endDrain unit)

/-- A stop that waited for the end of a power sequence is applied (R129, Table 7.12). -/
def State.nextMove (s : State) (u : Nat) (t : UState) : State :=
  ((s.setUcb u { s.ucb u with target := some t }).moveUnit u t).reached u t

/-- POWER_DOWN_COMPLETE (E7, E8): the unit is OFF or in MEWS; a request that came past the point of no return powers it up again
(R313), but not from MEWS while VIN is in HOLD or OVER (R317). -/
def execPowerDownComplete (unit : Nat) (s : State) : Res :=
  let d := s.dom unit
  if 201 ≤ unit || d.phase != .down || s.safety.safe then .next s else
  let s := (s.setDom unit { d with phase := .open_, wakeAfter := false, next := none }).setUcb unit { s.ucb unit with st := d.target, target := none }
  let n := unitIndex unit
  let s := if unitClass unit ≠ 6 then s
    else if d.target == .off then s.portOff n 8
    else if (s.phy n).framing then (s.setPhy n { s.phy n with pmWait := some 2 }).sendCtl n 1 2
    else s
  let stay := s.sup.band == .hold || s.sup.band == .over
  .next (match d.next with
    | some t => s.nextMove unit t
    | none =>
      if (d.wakeAfter || !d.parked.isEmpty) && !stay then
        (let t := s.powerUp unit; if d.wakeAfter then t else t.bump Obj.WAKES)
      else s)

/-- What a unit that was OFF comes back with: its store zero (R318), and the tile's, core's or engine's own state as after
reset; spares, chains and registers of the class blocks stand. -/
def State.resetUnit (s : State) (u : Nat) : State :=
  let lo := storeBase u
  let hi := lo + storeBytes u
  let out (k : Nat) : Bool := decide (k < lo) || decide (hi ≤ k)
  let m := s.mem
  let s : State := if storeBytes u = 0 then s else
    { s with mem := { m with
      cells := m.cells.filter fun c => out c.1, poison := m.poison.filter fun e => out (e.1 * 128), ecc := m.ecc.filter fun e => out (e.1 * 128) } }
  let n := unitIndex u
  match unitClass u with
  | 0 => s.setTile n { s.tile n with cur := 0, b0 := {}, b1 := {}, held := none, mismatch := 0 }
  | 1 => { s with tiles := { s.tiles with vxt := SMap.set {} s.tiles.vxt n {} } }
  | 2 => { s with cat := { s.cat with cats := SMap.set {} s.cat.cats n {} } }
  | 3 => s.setSec n {}
  | 4 => s.setSp n { ({} : Sp) with frBase := (s.sp n).frBase, frCfg := (s.sp n).frCfg, armed := (s.sp n).armed }
  | 5 => s.setGe n {}
  | _ => s

/-- Parked packets go back to their domain's edge, ahead of every later one (P4); a request that waited for the full buffer has
its place (R314). -/
def State.unpark (s : State) (u : Nat) : State :=
  let d := s.dom u
  let s := if d.fullNs = 0 then s else s.bump64 Obj.WAKE_FULL_CYCLES (s.nclk (s.timeNs - (d.fullNs - 1)))
  let s := s.setDom u { d with parked := [], fullNs := 0 }
  { s with net := { s.net with packets := (d.parked.map fun (p : Packet) => { p with parked := true }) ++ s.net.packets } }

/-- POWER_UP_COMPLETE (P1 to P4): the unit reaches its target, and parked packets are delivered. A unit woken for a test drains
again for it (R760). -/
def execPowerUpComplete (unit : Nat) (s : State) : Res :=
  let d := s.dom unit
  if 201 ≤ unit || d.phase != .up || s.safety.safe then .next s else
  let was := s.unitSt unit
  let n := unitIndex unit
  let s := (if was == .off then s.resetUnit unit else s).setDom unit { s.dom unit with next := none }
  let role := unit < 64 && SMap.get 0 s.oap.shadow (Obj.MXT_ROLE n) ≠ 0
  match d.target with
  | .ready =>
    let s := (s.enterReady unit).unpark unit
    let s := if unitClass unit ≠ 6 then s
      else if was == .off then s.creanceStart n
      else ((if (s.phy n).framing then s.txWake n else s).applyPhLinkEnable n (s.obj (Obj.PH_LINK_ENABLE n))).openPort unit
    -- a role written while the tile slept takes effect now (R80, R452)
    let s := if role then s.restSpare n else s
    if (s.ucb unit).beforeTest.isSome then .next (s.startDrain unit .hooded)
    else .next (match d.next with | some t => s.nextMove unit t | none => s)
  | t =>
    let s := (s.setDom unit { d with phase := .open_, wakeAfter := false }).setUcb unit { s.ucb unit with st := t, target := none }
    .next (match d.next with | some t => (s.unpark unit).nextMove unit t | none => s.unpark unit)

end Sys2Proof.Machine
end

