-- ==== Sys2Proof/Machine/Reset.lean ====
section
/-!
DEFINITION. The supply and the resets (R36 to R42, R50 to R57, R73, R142; Tables 2.1, 2.7, 2.8 and 2.17).
-/
namespace Sys2Proof.Machine

/-! What each reset leaves (R53, Table 2.8). -/

/-- The band of a level, with no filter: what a cold reset starts in. -/
def levelBand (mv : Nat) : VinBand :=
  if 16500 ≤ mv then .over else if 10500 ≤ mv then .full else if 8000 ≤ mv then .reduced else .hold

/-- Keeper-homed objects: the ranges that chapter 2 names, the objects of chapters 1, 2 and 20, and the dictionary's own
objects, which name no unit. The exception counters of R430 follow their tiles. -/
def keeperKey (key : Nat) : Bool :=
  let i := key / 256
  (0x1000 ≤ i && i < 0x2000) || i == 0x2000 || (0x2100 ≤ i && i < 0x2300) || i / 256 == 0x2F || (0x4000 ≤ i && i < 0x4300) ||
  i / 256 == 0x4F || (0x6000 ≤ i && i < 0x6200 && i != 0x6004) || i / 256 == 0x6F || (0x7000 ≤ i && i < 0x9000)

/-- Objects a warm reset keeps: keeper-homed ones, and the memory-map settings, which take effect at the next bring-up
(R332, R365). -/
def warmKeeps (key : Nat) : Bool :=
  keeperKey key || key / 256 == 0x2C01 || key / 256 == 0x2C02 || key == Obj.LP_RATE_MTS

/-- Counters that a keeper reset clears (R35, R139, R774, R798, Table 2.8). -/
def keeperCounter (key : Nat) : Bool :=
  let i := key / 256
  let n := key % 256
  (0x6001 ≤ i && i ≤ 0x6003) || i == 0x6010 || key == Obj.EYAS_HOLDS || (i == 0x6100 && (n == 2 || (4 ≤ n && n ≤ 6))) ||
  key == Obj.REFCLK_LOSS_COUNT || i == 0x7201 || i == 0x7210 || (i == 0x7220 && n != 1) || i == 0x7222 ||
  (i == 0x6F00 && 4 ≤ n) || key == Obj.WATCH_EXPIRIES || key == Obj.JTAG_REFUSED

/-- Inlet writes are forgotten: with a watch set, the fallback inlet is in use until the next write (R792). -/
def State.forgetInlet (s : State) : State :=
  if s.obj Obj.COOLANT_WATCH_S = 0 then s
  else { s with cool := { s.cool with inletInUse := sgn 32 (s.obj Obj.COOLANT_FALLBACK_DC), fallback := true } }

/-- The defaults that BOOT_MODE 0b101 changes: every port waits for its link enable (Table 2.9, R684). -/
def State.bootDefaults (s : State) : State :=
  if s.sup.bootPins % 8 = 5 then (List.range 20).foldl (fun s n => s.setObj (Obj.PH_LINK_ENABLE n) 0) s else s

/-- A tile keeps only its repairs: fuses and antifuses (R470). -/
def keptTiles (m : SMap Tile) : SMap Tile :=
  m.filterMap fun e => if ({ ({} : Tile) with spares := e.2.spares } : Tile) = {} then none
    else some (e.1, { ({} : Tile) with spares := e.2.spares })

/-- A cold reset: everything as after power-on but for fuses, the level of the pins and of VIN, and the cause. It is held
until COLD_RESET_RELEASE. -/
def State.coldReset (s : State) (cause : Nat) : State :=
  let t : State := { State.reset with
    pending := s.pending, out := s.out, freeCtr := s.freeCtr, variant := s.variant, fusesOk := s.fusesOk
    blocks := s.blocks.filter fun e => e.1 == Obj.SERIAL
    dict := s.dict.filter fun e => e.1 == Obj.MAC_ADDRESS
    sup := { s.sup with
      band := levelBand s.sup.vinMv, entryRunning := false, exitRunning := false, inMews := false, coldReset := true
      warmBoot := false, resetWaits := none, selfRefresh := false, thermDrop := 0, capDrop := 0
      refSaid := 0, stageHold := 5 }
    oap := { State.reset.oap with key := s.oap.key, programs := s.oap.programs }
    safety := { State.reset.safety with hourBits := s.safety.hourBits, liveNs := s.safety.liveNs + s.timeNs }
    cool := { State.reset.cool with sensors := s.cool.sensors, excluded := s.cool.excluded }
    tiles := { State.reset.tiles with mxt := keptTiles s.tiles.mxt } }
  (t.setObj Obj.RESET_CAUSE cause).forgetInlet

/-- What a warm reset keeps of the memories: HBM and LPDDR with their poison, through self-refresh, except where a map or
inline ECC takes effect that was not in effect before: then the contents are undefined (R52, R347, R365). -/
def State.warmMemory (s : State) : Memory :=
  let linear := s.obj Obj.HBM_MAP == 1
  let lp := s.obj Obj.LP_MAP == 1
  let ecc := s.obj Obj.LP_INLINE_ECC == 1
  let lpSame := lp == (s.mem.lpLinear && !s.mem.lpFallback) && ecc == s.mem.inlineEcc
  let kept (a : Nat) : Bool := match regionOf a with
    | .hbm => linear == s.mem.hbmLinear
    | .lpddr => lpSame
    | _ => false
  let marked (l : Nat) : Bool := kept (128 * l) && !(regionOf (128 * l) matches .lpddr && !s.mem.inlineEcc)
  { ({} : Memory) with
    cells := s.mem.cells.filter fun c => kept c.1
    poison := s.mem.poison.filter fun e => marked e.1
    ecc := s.mem.ecc.filter fun e => kept (128 * e.1)
    hbmLinear := linear, lpLinear := lp, inlineEcc := ecc, lpRateMts := s.obj Obj.LP_RATE_MTS }

/-- A bring-up begins again at S1: the stage's event, the times of the stages not yet reached again cleared (Table 2.15), and the
STAGE_HOLD written meanwhile in effect (R67). STAGE_FAULTS is keeper-homed and stands (Table 2.8); S3 and S4 write the fields
of what they train anew (DEDUCED, log 30). -/
def State.dropToS1 (s : State) : State :=
  let s := [2, 3, 4, 5].foldl (fun s k => s.setObj (Obj.STAGE_TIME k) 0) s
  if s.stage ≤ 1 then s else (s.setObj Obj.BRINGUP_STAGE 1).sendEvent 3 0xFF 0 1 0 0 0

/-- A warm reset (R52, Table 2.8): units, network, tables, engines, rings and stores as after power-on; the keeper, its
objects and the memories' contents stand. It ends the safe state (R757). -/
def State.warmReset (s : State) (cause : Nat) : State :=
  let t : State := { State.reset with
    pending := s.pending, out := s.out, freeCtr := s.freeCtr, timeNs := s.timeNs, variant := s.variant, fusesOk := s.fusesOk
    dict := s.dict.filter fun e => warmKeeps e.1
    blocks := s.blocks.filter fun e => warmKeeps e.1
    sup := { s.sup with
      entryRunning := false, exitRunning := false, inMews := false, warmBoot := true, resetWaits := none, selfRefresh := true
      stageHold := s.obj Obj.STAGE_HOLD }
    oap := { s.oap with
      waiting := [], staged := [], shadow := [], overridden := s.oap.overridden.filter keeperKey, mirrorDiff := [], mirror := [] }
    -- when each unit last passed a test is the keeper's own record (R763)
    ucbs := s.ucbs.filterMap fun e => if e.2.lastPassNs = 0 then none else some (e.1, { ({} : Ucb) with lastPassNs := e.2.lastPassNs })
    agg := s.agg
    safety := { s.safety with safe := false, logFrozen := false, schedNext := s.safety.schedNext }
    cool := s.cool
    mem := s.warmMemory
    tiles := { State.reset.tiles with mxt := keptTiles s.tiles.mxt } }
  (t.bootDefaults.setObj Obj.RESET_CAUSE cause).dropToS1

/-- A keeper reset ends a running load of the fabric; nothing is reported (chapter 16). -/
def State.dropLoad (s : State) : State :=
  let l := s.fab.load
  let s := if 2 ≤ l.step then (loadRegions l).foldl (fun s r => s.clearRegion r) s else s
  s.setLoad {}

/-- A keeper reset (Table 2.8): transports, sessions and the monitor's state; the compute units run on. In the safe state it
acts as a warm reset (R757). -/
def State.keeperReset (s : State) (cause : Nat) : State :=
  if s.safety.safe then s.warmReset cause else
  let tiles := s.tiles.mxt.map fun e => (e.1, { e.2 with repair := none, auto := [] })
  let t : State := { s with
    dict := s.dict.filter fun e => !keeperCounter e.1
    blocks := s.blocks.filter fun e => !keeperCounter e.1
    sup := { s.sup with resetWaits := none }
    oap := { s.oap with
      can := {}, t1s := {}, mbx := {}, turn := 0, mbxReq := [], mbxRsp := [], mbxBusy := false, mbxRspValid := false, evtQ := []
      inEffect := s.dict.filter (fun e => decide (0x110000 ≤ e.1) && decide (e.1 < 0x120000)), waiting := [] }
    agg := { s.agg with logLost := 0 }
    safety := { s.safety with errN := false, drift := [], driftOver := [], schedNext := [], tjHist := [0, 0, 0, 0, 0] }
    tiles := { s.tiles with mxt := tiles } }
  (t.dropLoad.stopTests.setObj Obj.RESET_CAUSE cause).forgetInlet

/-! The supply bands (R36 to R42). -/

/-- The partner of every up port is told that its lanes go to LS (R691). -/
def State.lanesSleep (s : State) : State :=
  (List.range s.phPorts).foldl (fun s n =>
    if (s.phy n).framing then (s.setPhy n { s.phy n with pmWait := some 2 }).sendCtl n 1 2 else s) s

/-- The MEWS entry of R38 starts: sequencers and engines stop, running tests are aborted (R766). -/
def State.startEntry (s : State) : State :=
  ({ s.stopTests with sup := { s.sup with entryRunning := true } }).lanesSleep

/-- The sequence that the band in effect asks for, where none runs (R41). -/
def State.followBand (s : State) : State :=
  let want := s.sup.band == .hold || s.sup.band == .over
  if s.sup.entryRunning || s.sup.exitRunning || s.stage < 2 || s.safety.safe || s.sup.inMews == want then s
  else if want then s.startEntry
  else { s with sup := { s.sup with exitRunning := true } }

/-- A threshold of Table 2.1 crossed: which band is entered from which. -/
def bandCrossed (old new : VinBand) (mv : Nat) : Bool :=
  match new with
  | .full => old != .full && (if old == .over then decide (mv ≤ 16200) else decide (10500 ≤ mv))
  | .reduced => (old != .reduced && old != .hold && decide (mv ≤ 10300)) || (old == .hold && decide (8000 ≤ mv))
  | .hold => old != .hold && decide (mv ≤ 7800)
  | .over => old != .over && decide (16500 ≤ mv)

/-- A new VIN level; VIN_MIN_MV keeps the lowest (Table 2.15). -/
def State.setVin (s : State) (mv : Nat) : State :=
  let low := s.obj Obj.VIN_MIN_MV
  let least := min mv (if low = 0 then s.sup.vinMv else low)
  { s.setObj Obj.VIN_MIN_MV least with sup := { s.sup with vinMv := mv } }

/-- VIN_BAND_ENTRY: VIN_MIN_MV keeps the lowest sample since the row before too (Table 2.15); the band is entered and
counted; OVER is reported; domains stop for HOLD and OVER, or return from them. -/
def execVinBandEntry (band : VinBand) (vin : VinLevel) (s : State) : Res :=
  occ (!s.sup.coldReset && bandCrossed s.sup.band band vin.now) s <|
    let s := (s.setVin (min vin.low vin.now)).setVin vin.now
    let s := { s with sup := { s.sup with band := band } }
    let s := match band with
      | .full => s
      | .reduced => s.bump Obj.REDUCED_ENTRIES
      | .hold => s.bump Obj.HOLD_ENTRIES
      | .over => (s.bump Obj.OVER_ENTRIES).raise Es.vinOv
    s.followBand.takeHeldData

/-- What a unit returns to when the band is left: a sequence under way when its domain enters MEWS counts as done. -/
def State.bandReturn (s : State) (u : Nat) : Option UState :=
  let b := s.ucb u
  let d := s.dom u
  if d.next.isSome then d.next else
  match d.phase with
  | .up | .draining => some d.target
  | .down => if d.wakeAfter then some .ready else none
  | .open_ => match b.st with | .off | .mews | .faulted => none | st => some st

/-- One domain enters MEWS, its state and store kept (R38). A domain that is OFF stays so. -/
def State.bandMews (s : State) (u : Nat) : State :=
  let b := s.ucb u
  let d := s.dom u
  let back := s.bandReturn u
  let st : UState := if b.st == .faulted then .faulted else if back.isSome then .mews else if d.phase == .down then d.target else b.st
  let s := if d.phase == .up && b.st == .off then s.resetUnit u else s
  (s.setDom u { d with phase := .open_, wakeAfter := false, next := none }).setUcb u { b with st := st, beforeBand := back }

/-- The lanes of every up port in a power state with transmitter and receiver (R691); a port in MEWS stays in LS. -/
def State.lanesTo (s : State) (st : Nat) : State :=
  (List.range s.phPorts).foldl (fun s n =>
    let x := s.phy n
    if !x.framing || (st = 0 && s.unitSt (phUnit n) == .mews) then s
    else
      let s := (s.mapLanes n x.running fun _ y => { y with tx := st, rx := if y.rx = 3 then 3 else st }).setPhy n { x with pmWait := none }
      if st = 0 then s.sendCtl n 0 0 else s) s

/-- MEWS_ENTRY_COMPLETE: every domain is in MEWS, every lane in LS, and the memories refresh themselves; then the band in effect
decides (R41). -/
def execMewsEntryComplete (s : State) : Res :=
  occ s.sup.entryRunning s <|
    let us := (List.range 201).filter fun u => s.available u
    let s := us.foldl (fun s u => s.bandMews u) s
    ({ s with sup := { s.sup with entryRunning := false, inMews := true, selfRefresh := true } }).lanesTo 2 |>.followBand

/-- One domain returns to the state it held, or to the one that a request has named since (R39). -/
def State.bandWake (s : State) (u : Nat) : State :=
  let b := s.ucb u
  match b.beforeBand with
  | none =>
    if (b.st == .mews || b.st == .off) && !(s.dom u).parked.isEmpty then (s.powerUp u).bump Obj.WAKES else s
  | some t =>
    let runs := s.runningOn u
    let tgt := b.target
    let s := s.setUcb u { b with beforeBand := none }
    match t with
    | .busy | .quiescing => (s.enterReady u).setUcb u { (s.enterReady u).ucb u with st := t, target := tgt } |>.unpark u
    | .ready =>
      let s := (s.enterReady u).unpark u
      if runs then s.setUnitSt u .busy else s.openPort u
    | .hooded | .off | .mews =>
      if runs then ((s.enterReady u).setUcb u { (s.enterReady u).ucb u with st := .quiescing, target := some t }).unpark u
      else if t == .mews then s.setUcb u { s.ucb u with target := none }
      else if t == .off then (s.setUcb u { s.ucb u with st := .hooded, target := none }).moveUnit u .off
      else (s.setUcb u { s.ucb u with st := .hooded, target := none }).unpark u
    | _ => s

/-- MEWS_EXIT_COMPLETE: domains and lanes are back and stopped work goes on; then the band in effect decides (R39, R41). -/
def execMewsExitComplete (s : State) : Res :=
  occ s.sup.exitRunning s <|
    let s := { s with sup := { s.sup with exitRunning := false, inMews := false, selfRefresh := false } }
    let us := (List.range 201).filter fun u => s.available u
    let s := us.foldl (fun s u => s.bandWake u) s
    (s.lanesTo 0).followBand

/-! Resets. -/

/-- POWER_ON: VIN rises through 6.5 V from below 4.5 V. -/
def execPowerOn (mv : Nat) (s : State) : Res :=
  occ (decide (s.sup.vinMv < 4500) && decide (6500 ≤ mv)) s
    (({ s with sup := { s.sup with vinMv := mv } } : State).coldReset 0)

/-- VIN_LOSS (R37): below 6.0 V for more than 5 ms, or below 4.5 V for more than 10 µs. In a cold reset only the level moves. -/
def execVinLoss (collapse : Bool) (mv : Nat) (s : State) : Res :=
  occ (decide (mv < (if collapse then 4500 else 6000))) s <|
    let s : State := { s with sup := { s.sup with vinMv := mv } }
    if s.sup.coldReset then s else s.coldReset (if collapse then 3 else 2)

/-- The device stands in HOLD or OVER with no MEWS sequence running: a dip does not reset it (R40). -/
def State.bandSettled (s : State) : Bool :=
  (s.sup.band == .hold || s.sup.band == .over) && !s.sup.entryRunning && !s.sup.exitRunning

/-- VIN_FAST_DROP (R40): below 6.0 V before the MEWS entry completes. Once the band has settled in HOLD or OVER such a dip resets
nothing, and VIN_MIN_MV records its minimum (R37, Table 2.14). -/
def execVinFastDrop (mv : Nat) (s : State) : Res :=
  occ (decide (mv < 6000) && !s.sup.coldReset) s <|
    if s.bandSettled then s.setVin mv else ({ s with sup := { s.sup with vinMv := mv } } : State).coldReset 4

/-- PORST_N (R50, R53): the broadest reset, whatever else is asserted (R51). -/
def execPorstN (s : State) : Res := .next (s.coldReset 1)

/-- COLD_RESET_RELEASE: BOOT_MODE is sampled, and bring-up starts from S0 (R56, R782). VIN is back at 6.0 V at least. -/
def execColdResetRelease (bootPins : Nat) (s : State) : Res :=
  occ (s.sup.coldReset && decide (4500 ≤ s.sup.vinMv)) s <|
    let v := max s.sup.vinMv 6000
    let t : State := { s with sup := { s.sup with vinMv := v, band := levelBand v, coldReset := false, bootPins := bootPins % 8 } }
    (t.setObj Obj.BOOT_MODE_SAMPLED (bootPins % 8)).bootDefaults

/-- WRST_N. -/
def execWrstN (s : State) : Res := occ (!s.sup.coldReset) s (s.warmReset 5)

/-- KRST_N, an edge of the pin: its assertion resets the keeper, which stays held until the next edge, the release; ERR_HB stands
still and the keeper's outputs float meanwhile (R50, Table 2.8). A cold reset has nothing left to reset (DESIGN CHOICE, log 10). -/
def execKrstN (s : State) : Res :=
  let pin (low : Bool) (s : State) : State := { s with sup := { s.sup with keeperHeld := low } }
  .next (if s.sup.keeperHeld then pin false s else pin true (if s.sup.coldReset then s else s.keeperReset 7))

/-- RESET_REQUEST_APPLY: 1 ms after the write (R73). -/
def execResetRequestApply (s : State) : Res :=
  match s.sup.resetWaits with
  | some v => .next (if s.sup.coldReset then s else if v = 1 then s.warmReset 6 else s.keeperReset 8)
  | none => .next s

/-- Objects of the sequencers, which PCIE_PERST_N does not reach (Tables 2.8 and 5.14). -/
def seqKey (key : Nat) : Bool := decide (0x6920 ≤ key / 256) && decide (key / 256 ≤ 0x6923)

/-- The endpoint's own registers as after reset, rings and the dispatcher's round apart (R53, R187). -/
def State.resetEndpoint (s : State) : State :=
  let h := s.host
  { s with
    dict := s.dict.filter fun e => e.1 / 65536 != 0x69 || seqKey e.1
    host := { ({} : HostLink) with
      totalVfs := h.totalVfs, vfMsix := h.vfMsix, vfBar2Log2 := h.vfBar2Log2, rings := h.rings, reads := h.reads, nextTag := h.nextTag
      nextBar2 := h.nextBar2, lastServed := h.lastServed, used := h.used } }

/-- The session of the mailbox closes with its transport (R116, Table 3.11). -/
def State.closeMbx (s : State) : State :=
  if s.oap.mbx.sess.isOpen then s.sendEvent 7 0xFF 0 3 0 0 0 else s

/-- PCIE_PERST_N (R54): no ring takes entries, programs finish with their completions discarded, and every ring is then reset
by RING_RESET_DONE; units stay READY, and the mailbox transport is reset. -/
def execPciePerstN (s : State) : Res :=
  occ (!s.sup.coldReset && !s.sup.pciePerst) s <|
    let s := (s.closeMbx).resetEndpoint
    let rings := s.host.rings.map fun e => (e.1, { e.2 with
      st := if e.2.st == .disabled then .disabled else .resetting, fetched := [], resetCqAfter := true, perst := true
      dispatched := 0, cqWritten := 0, cqFullEvents := 0, eventOverruns := 0 })
    { s with
      sup := { s.sup with pciePerst := true }
      host := { s.host with rings := rings, reads := s.host.reads.filter fun x => match x.2 with | .entry _ _ => false | _ => true }
      oap := { s.oap with mbx := {}, mbxReq := [], mbxRsp := [], mbxBusy := false, mbxRspValid := false, evtQ := [] } }

/-- PCIE_PERST_RELEASE: configuration space takes the three objects (R142). -/
def execPciePerstRelease (s : State) : Res :=
  occ s.sup.pciePerst s
    { s with
      sup := { s.sup with pciePerst := false }
      host := { s.host with
        totalVfs := s.obj Obj.TOTAL_VFS, vfMsix := s.obj Obj.VF_MSIX_VECTORS, vfBar2Log2 := s.obj Obj.VF_BAR2_LOG2 } }

end Sys2Proof.Machine
end

