-- ==== Sys2Proof/Machine/Bringup.lean ====
section
/-!
DEFINITION. Bring-up stages, reference clocks, SAFE_IN_N, and the control of power and temperature (R43, R47, R49, R59 to R70,
R74, R330 to R334, R654, R682, R683, R692, R754, R790 to R794; Tables 2.9 to 2.11 and 2.14).
-/
namespace Sys2Proof.Machine

/-- Whether bring-up may not enter stage k: STAGE_HOLD, the safe state, and at S1 the straps, fuses, SAFE_IN_N and REFCLK_SYS
(R66, R67, Tables 0.9, 2.9 and 2.14). -/
def State.stageHeld (s : State) (k : Nat) : Bool :=
  decide (s.sup.stageHold < k) || s.safety.safe || s.sup.keeperHeld ||
  (k == 2 && (s.sup.safeIn || [4, 6, 7].contains (s.sup.bootPins % 8) || !s.fusesOk || !s.sup.refSys))

/-- Where the fabric image comes from: 0 none, 1 xSPI, 2 the host, 3 xSPI and after a failure the host (Table 2.9, R56). -/
def State.fabricSource (s : State) : Nat :=
  match (if s.sup.warmBoot then s.obj Obj.FABRIC_BOOT else 0) with
  | 1 => 1
  | 2 => 2
  | 3 => 0
  | _ => match s.sup.bootPins % 8 with | 0 => 1 | 1 => 2 | 3 => 3 | 5 => 1 | _ => 0

/-- A port whose creance has ended, that has reported LINK_ABSENT, or that an ID conflict keeps from training (R59, R675, R682). -/
def State.portSettled (s : State) (n : Nat) : Bool :=
  let x := s.phy n
  x.framing || x.step == 0 || x.step == 2 || x.step == 8 || x.conflict || s.obj (Obj.PH_ABSENT_COUNT n) != 0

/-- The next stage may be reached now: not held, no stage entered in HOLD or OVER beyond S1 (R38), and S5 not while the fabric
loads or waits for the host, or a port trains. -/
def State.stageOpen (s : State) : Bool :=
  let k := s.stage + 1
  decide (k ≤ 5) && !s.sup.coldReset && !s.stageHeld k &&
  (k == 1 || (!s.sup.entryRunning && !s.sup.exitRunning && !s.sup.inMews && s.sup.band != .hold && s.sup.band != .over)) &&
  (k != 5 || (s.fab.load.step == 0 && !s.fab.waitHost && (List.range s.phPorts).all fun n => s.portSettled n))

/-- A unit becomes available: READY, what a management stop asked of it, or FAULTED. -/
def State.unitUp (s : State) (fail : Bool) (u : Nat) : State :=
  if !s.present u then s
  else if fail then s.setUcb u { s.ucb u with st := .faulted, target := none }
  else
    let b := s.ucb u
    if b.mgmtStop then
      s.setUcb u { b with
        st := (match s.obj ((0x2300 + unitClass u) * 256 + unitIndex u + 1) with | 0 => .off | 1 => .mews | _ => .hooded)
        target := none }
    else s.enterReady u

/-- The lost clock i is reported: counted, and raised as its source (R49, Table 2.14). -/
def State.clockSaid (s : State) (i src : Nat) : State :=
  (({ s with sup := { s.sup with refSaid := setBits s.sup.refSaid i 1 1 } } : State).bump Obj.REFCLK_LOSS_COUNT).raise src

/-- A clock that is absent when the stage that requires it begins is reported, once (Tables 2.4 and 2.14). -/
def State.clockNeeded (s : State) (i src : Nat) (present : Bool) : State :=
  if present || bit s.sup.refSaid i then s else s.clockSaid i src

/-- A field of STAGE_FAULTS that a stage's training writes. -/
def State.stageField (s : State) (lo w v : Nat) : State :=
  s.setObj Obj.STAGE_FAULTS (setBits (s.obj Obj.STAGE_FAULTS) lo w v)

/-- Set bits of STAGE_FAULTS (Table 2.16). -/
def State.stageFault (s : State) (bits_ : Nat) : State := s.setObj Obj.STAGE_FAULTS (Nat.lor (s.obj Obj.STAGE_FAULTS) bits_)

/-- S1: what the keeper reports of straps, fuses and REFCLK_SYS. -/
def State.reachS1 (s : State) : State :=
  let errN (s : State) : State := { s with safety := { s.safety with errN := true } }
  let s := if s.fusesOk then s else errN (s.raise Es.profileFuse)
  let s := if 6 ≤ s.sup.bootPins % 8 then errN (s.raise Es.bootModeRsv) else s
  s.clockNeeded 0 Es.refclkSysLossContained s.sup.refSys

/-- S2: eyas service (Table 2.11), and the fabric's image. -/
def State.reachS2 (s : State) (fail : List Nat) : State :=
  let s := s.clockNeeded 1 Es.refclkPcieLoss s.sup.refPcie
  let s := ((List.range 201).filter eyasUnit).foldl (fun s u => s.unitUp (fail.contains u) u) s
  match s.fabricSource with
  | 0 => s
  | 2 => s.setFab { s.fab with waitHost := true }
  | _ => s.startLoad 2 0 0 true

/-- What the mode registers of an LP port's channels make of it (R331): none where it is not installed, else its installed
capacity in MiB, 0 where it fails. -/
def lpCapacity (cs : List LpChannel) : Option Nat :=
  match cs.headD .silent with
  | .silent => none
  | .answers d k =>
    let sum := 4 * (d * k)
    some (if cs.take 4 == List.replicate 4 (.answers d k) && (List.range 5).any (fun i => sum == 4096 * 2 ^ i) then sum else 0)

/-- The rate at which an LP port trains: the highest of Table 8.7's, from the one asked for down, that it reaches (R332). -/
def lpTrainedRate (asked : Nat) (reaches : List Nat) : Nat :=
  (([8533, 7500, 6400].filter (· ≤ asked)).find? fun r => reaches.contains r).getD 0

/-- S3: the LP ports (R331 to R334). -/
def State.reachS3 (s : State) (r : StageReport) : State :=
  let caps := (List.range 8).map fun n => lpCapacity (r.lpChannels.getD n [])
  let mib := caps.map (·.getD 0)
  let rate := (List.range 8).map fun n => if mib.getD n 0 = 0 then 0 else lpTrainedRate s.mem.lpRateMts (r.lpTrains.getD n [])
  let fails := (List.range 8).filter fun n => (caps.getD n none).isSome && rate.getD n 0 == 0
  let lpFail := (fails.map (2 ^ ·)).sum
  let inst := mib.filter (0 < ·)
  let even := [1, 2, 4, 8].contains inst.length && inst.all (· == inst.headD 0)
  let linear := s.mem.lpLinear
  let s := { s with mem := { s.mem with
    lpMib := mib, lpRate := rate, lpFail := lpFail, lpLinear := linear || !even, lpFallback := !linear && !even } }
  (List.range 8).foldl (fun s n => s.unitUp (fails.contains n || r.unitFail.contains (unitOf 7 n)) (unitOf 7 n)) (s.stageField 0 8 lpFail)

/-- S4: full service; HBM trains, PCIe retrains, spare tiles rest, and the creance starts (R65, R330, R452, R683). -/
def State.reachS4 (s : State) (r : StageReport) : State :=
  let s := { s with mem := { s.mem with hbFail := r.hbFail % 16, hbRepairs := (List.range 4).map fun n => r.hbRepairs.getD n 0 } }
  let s := (List.range 5).foldl (fun s g =>
    s.clockNeeded (2 + g) Es.refclkLaneLoss (bit s.sup.refLane g || !bit (s.obj Obj.LANE_REFCLK_USED) g)) s
  let s := s.stageField 8 4 r.hbFail
  let late := (List.range 201).filter fun u => !eyasUnit u && unitClass u != 7 && unitClass u != 9
  let s := late.foldl (fun s u =>
    s.unitUp ((unitClass u == 8 && bit r.hbFail (unitIndex u)) || r.unitFail.contains u) u) s
  let s := (List.range 64).foldl (fun s n => s.restSpare n) s
  let s := { s with sup := { s.sup with selfRefresh := false } }
  let s := if s.host.linkUp && 1 ≤ r.pcieRate && r.pcieRate ≤ s.obj Obj.PCIE_MAX_RATE && r.pcieWidth ≤ s.obj Obj.PCIE_MAX_WIDTH &&
      [1, 2, 4, 8, 16].contains r.pcieWidth then (s.linkReturns r.pcieRate r.pcieWidth).pcieReduced r.pcieCommon else s
  (List.range s.phPorts).foldl (fun s n => s.creanceStart n) s

/-- S5: the fabric ports, and what is missing (R654, R682, Table 2.14). -/
def State.reachS5 (s : State) (fail : List Nat) : State :=
  let s := (List.range 16).foldl (fun s n =>
    let u := unitOf 9 n
    let s := s.unitUp (fail.contains u) u
    if s.unitSt u == .ready && (s.region n).st != 2 then s.setUnitSt u .hooded else s) s
  let s := if s.fabricSource != 0 && (List.range 24).all (fun r => (s.region r).st != 2) then s.stageFault 8192 else s
  let down := (List.range s.phPorts).filter fun n => s.flag (Obj.PH_REQUIRED n) && !(s.phy n).framing
  down.foldl (fun s n => ((s.setPhy n { s.phy n with graceSaid := true }).stageFault 16384).raise Es.phRequiredDown
    { oClass := 6, oIndex := n, cls := 6, sub := n + 1 }) s

/-- STAGE_REACHED: the next stage, with what training found, its time and its event (R59, R133). -/
def execStageReached (r : StageReport) (s : State) : Res :=
  let k := s.stage + 1
  occ s.stageOpen s <|
    let s := (s.setObj Obj.BRINGUP_STAGE k).setObj (Obj.STAGE_TIME k) r.timeUs
    let s := match k with
      | 1 => s.reachS1
      | 2 => s.reachS2 r.unitFail
      | 3 => s.reachS3 r
      | 4 => s.reachS4 r
      | _ => s.reachS5 r.unitFail
    s.sendEvent 3 0xFF 0 k 0 0 0

/-- BRINGUP_LATE: a stage that is not held on purpose has passed its maximum time (R59). -/
def execBringupLate (s : State) : Res :=
  occ (decide (s.stage < 5) && !s.sup.coldReset && !s.stageHeld (s.stage + 1)) s ((s.stageFault 32768).raise Es.bringupLate)

/-- SAFE_IN_N past its filter: FATAL from S2, and before it bring-up holds at S1 (R66, R754). -/
def execSafeInNAssert (s : State) : Res :=
  occ (!s.sup.safeIn) s <|
    let t := { s with sup := { s.sup with safeIn := true } }
    if 2 ≤ s.stage then t.raise Es.safeIn else t

/-- SAFE_IN_N released: a held bring-up may go on; in the safe state it has no effect of its own. -/
def execSafeInNRelease (s : State) : Res := .next { s with sup := { s.sup with safeIn := false } }

/-! Reference clocks (R49, R692, Table 2.14). -/

/-- The ports that a lane reference clock serves. -/
def State.lanePorts (s : State) (g : Nat) : List Nat := (List.range s.phPorts).filter fun n => n / 4 == g

/-- REFCLK_LOSS: a clock, or KCLK against REFCLK_SYS, more than 5 % off for 100 µs. The loss is reported when it is found, at
whatever stage; in a cold reset nothing is measured, and a clock still absent at the stage that requires it is reported there.
REFCLK_SYS absent before S1 is reported at S1 (Table 2.14). -/
def execRefclkLoss (c : Refclk) (s : State) : Res :=
  let on := !s.sup.coldReset
  match c with
  | .sys =>
    occ (s.sup.refSys || (on && decide (1 ≤ s.stage) && !bit s.sup.refSaid 0)) s <|
      let t := { s with sup := { s.sup with refSys := false } }
      if on && 1 ≤ s.stage then t.clockSaid 0 Es.refclkSysLossFatal else t
  | .pcie =>
    occ (s.sup.refPcie || (on && !bit s.sup.refSaid 1)) s <|
      let t := { s with sup := { s.sup with refPcie := false }, host := { s.host with linkUp := false, rate := 0, width := 0 } }
      if on then t.clockSaid 1 Es.refclkPcieLoss else t
  | .lane g =>
    let used := bit (s.obj Obj.LANE_REFCLK_USED) g
    occ (decide (g < 5) && (bit s.sup.refLane g || (on && used && !bit s.sup.refSaid (2 + g)))) s <|
      let t : State := { s with sup := { s.sup with refLane := setBits s.sup.refLane g 1 0 } }
      if !used then t else
      let t := (s.lanePorts g).foldl (fun s n => if (s.phy n).framing then s.portDrop n else s.creanceStart n) t
      if on then t.clockSaid (2 + g) Es.refclkLaneLoss else t
  | .kclk =>
    occ s.sup.kclkOk s <|
      let t := { s with sup := { s.sup with kclkOk := false } }
      if on then t.raise Es.kclkFreq else t

/-- A lane reference clock is present again: its ports start from PRESENCE (R692). -/
def State.laneClockBack (s : State) (g : Nat) : State :=
  (s.lanePorts g).foldl (fun s n => if (s.phy n).step = 0 && !s.safety.safe then s.creanceStart n else s)
    { s with sup := { s.sup with refLane := setBits s.sup.refLane g 1 1, refSaid := setBits s.sup.refSaid (2 + g) 1 0 } }

def execRefclkLaneReturn (g : Nat) (s : State) : Res := occ (decide (g < 5) && !bit s.sup.refLane g) s (s.laneClockBack g)

/-- REFCLK_RETURN: bring-up or link training that the clock held may proceed. -/
def execRefclkReturn (c : Refclk) (s : State) : Res :=
  match c with
  | .sys => .next { s with sup := { s.sup with refSys := true, refSaid := setBits s.sup.refSaid 0 1 0 } }
  | .pcie => .next { s with sup := { s.sup with refPcie := true, refSaid := setBits s.sup.refSaid 1 1 0 } }
  | .kclk => .next { s with sup := { s.sup with kclkOk := true } }
  | .lane g => occ (decide (g < 5) && !bit s.sup.refLane g) s (s.laneClockBack g)

/-! Power cap and temperature. -/

/-- The coolant derating limit P_cool in W (R793). -/
def State.coolantLimit (s : State) : Nat :=
  let head : Int := 10 * s.tjLimit - 10 * s.obj Obj.TJ_MARGIN_C - s.cool.inletInUse
  let p := (100 * head / (30 + s.obj Obj.THETA_LI_MCW : Int)).toNat
  min (max p 100) s.pcapMaxW

/-- The effective power cap in W (R70). -/
def State.capEffective (s : State) : Nat :=
  let c := min (s.obj Obj.POWER_CAP) s.coolantLimit
  if s.sup.band == .reduced then min c (s.obj Obj.REDUCED_CAP_W) else c

/-- INPUT_POWER_CAP_CONTROL: TCLK goes down a step while the averaged input power is above the cap, and up a step of what the
cap holds while it is below (R43, R47, R794). -/
def execInputPowerCapControl (watts : Nat) (s : State) : Res :=
  occ (!s.sup.coldReset) s <|
    let s := s.setObj Obj.INPUT_POWER_W (min watts 65535)
    if s.capEffective < watts then
      if s.tclk ≤ 25 then s else { s with sup := { s.sup with capDrop := s.sup.capDrop + 25 } }
    else if watts < s.capEffective then { s with sup := { s.sup with capDrop := s.sup.capDrop - 25 } }
    else s

/-- The hottest of the valid readings and its sensor; the lowest-numbered of equal ones. -/
def hottest (rs : List Int) : Option (Int × Nat) :=
  rs.zipIdx.foldl (fun m r =>
    if r.1 < -550 || 1500 < r.1 then m else match m with | none => some r | some b => if b.1 < r.1 then some r else some b) none

/-- A signed value as an I32 object holds it. -/
def State.setObjInt (s : State) (key : Nat) (v : Int) : State := s.setObj key (unsgn 32 v)

/-- One comparison more in the junction's band of Table 19.11. -/
def State.countBand (s : State) (t : Int) : State :=
  let b := if t < 0 then 0 else if t < 500 then 1 else if t < 850 then 2 else if t < 1050 then 3 else 4
  { s with safety := { s.safety with tjHist := s.safety.tjHist.set b (s.safety.tjHist.getD b 0 + 1) } }

/-- THERMAL_COMPARE: 64 readings in 0.1 °C, every 100 µs (R790, R791). -/
def execThermalCompare (readings : List Int) (s : State) : Res :=
  occ (!s.sup.coldReset) s <|
    let rs := (List.range 64).map fun i => readings.getD i (s.cool.sensors.getD i 0)
    let out := (rs.zipIdx.filter fun r => decide (r.1 < -550) || decide (1500 < r.1)).map (·.2)
    let s : State := { s with cool := { s.cool with sensors := rs, excluded := out } }
    let s := if 0 < s.sup.thermDrop then s.bump64 Obj.THERM_THROTTLE_US 100 else s
    match hottest rs with
    | none => s.raise Es.thermTrip
    | some (t, i) =>
      let peak := sgn 32 (s.obj Obj.TJ_PEAK_DC)
      let s := (s.setObjInt Obj.TJ_MAX_DC t).setObj Obj.TJ_MAX_SENSOR i
      let s := if peak < t || s.obj Obj.TJ_PEAK_DC = 0 then s.setObjInt Obj.TJ_PEAK_DC t else s
      let s := s.countBand t
      let lim : Int := 10 * s.tjLimit
      let n := if t < lim - 30 then s.cool.cool + 1 else 0
      let s : State := { s with cool := { s.cool with cool := min n 11 } }
      if lim ≤ t then
        if s.tclk ≤ 25 then s else { s with sup := { s.sup with thermDrop := s.sup.thermDrop + 25 } }
      else if 11 ≤ n then { s with sup := { s.sup with thermDrop := s.sup.thermDrop - 25 } }
      else s

/-- THERM_TRIP: a sensor at TJ_LIMIT + 5 °C for 100 µs (R791, D14). -/
def execThermTrip (sensor : Nat) (s : State) : Res :=
  occ (decide (sensor < 64) && !s.sup.coldReset) s (s.raise Es.thermTrip)

end Sys2Proof.Machine
end

