-- ==== Sys2Proof/Machine/Care.lean ====
section
/-!
DEFINITION. The safety monitor's tests, the test schedule, aging, the coolant watch and boundary scan (R743, R750, R755, R762,
R763, R767 to R769, R786, R787, R792).
-/
namespace Sys2Proof.Machine

/-- LOG_READ_WRITE: a write of LOG_READ by MMIO (R750). -/
def execLogReadWrite (value : Nat) (s : State) : Res :=
  occ (decide (2 ≤ s.stage) && !s.safety.safe && decide (value < 2 ^ 32)) s (s.logReadWrite value).2

/-- PATH_TEST (D16): the test records came back within 10 µs, or the error path has failed. -/
def execPathTest (returned : Bool) (s : State) : Res :=
  occ (decide (1 ≤ s.stage)) s (if returned then s.bump Obj.PATH_TESTS else s.raise Es.aggregatorFault)

/-- MONITOR_COMPARE_FAIL (D15): the copies disagree, so ERR_HB stops and the safe state is entered (R753, R755). -/
def execMonitorCompareFail (s : State) : Res :=
  occ (decide (1 ≤ s.stage)) s
    (({ s with safety := { s.safety with monitorOk := false } } : State).raise Es.monitorFault)

/-- The units of a class that the schedule tests: present, up, not FAULTED (R762). -/
def State.scheduled (s : State) (cls : Nat) : List Nat :=
  ((List.range (classCount cls)).map fun n => unitOf cls n).filter fun u => s.available u && s.unitSt u != .faulted

/-- SELFTEST_SCHEDULE_TICK: the next unit of the class, in ascending order and wrapping (R762). -/
def execSelftestScheduleTick (cls : Nat) (s : State) : Res :=
  let us := s.scheduled cls
  let at_ := SMap.get 0 s.safety.schedNext cls
  match (us.find? fun u => at_ ≤ unitIndex u) <|> us.head? with
  | some u =>
    occ (s.live && hasTest cls && s.obj (Obj.TEST_INTERVAL_S cls) != 0) s
      (({ s with safety := { s.safety with schedNext := SMap.set 0 s.safety.schedNext cls (unitIndex u + 1) } } : State).requestTest u false).2
  | none => .next s

/-- Units that have not passed a test for twice their interval (R763). -/
def State.overdue (s : State) : Nat :=
  ((List.range 201).filter fun u =>
    hasTest (unitClass u) && s.present u &&
    (let t := s.obj (Obj.TEST_INTERVAL_S (unitClass u))
     t != 0 && decide ((s.ucb u).lastPassNs + 2 * t * 1000000000 < s.timeNs))).length

/-- The unit that a power domain powers: `domain` names it as TEST_REQUEST does; other codes power no unit of Table 3.9. -/
def domainUnit (domain : Nat) : Option Nat :=
  let cls := domain / 256
  if cls ≤ 11 && domain % 256 < classCount cls then some (unitOf cls (domain % 256)) else none

/-- One domain's drift; a domain whose guardband would take VCORE past 0.85 V faults what it powers, once (R767). -/
def State.ageDomain (s : State) (r : AgeReading) : State :=
  let s : State := { s with safety := { s.safety with drift := SMap.set 0 s.safety.drift r.domain r.driftMv } }
  let past := s.safety.driftOver
  if !r.overLimit then { s with safety := { s.safety with driftOver := past.filter (· != r.domain) } }
  else if past.contains r.domain then s
  else
    let s : State := { s with safety := { s.safety with driftOver := past ++ [r.domain] } }
    match domainUnit r.domain with
    | some u => if s.present u then s.unitFault u 4 else s
    | none => s.raise Es.railFault

/-- AGING_SAMPLE: drift of every domain read, its largest and its warnings (R767, R768). -/
def execAgingSample (rs : List AgeReading) (s : State) : Res :=
  occ (decide (1 ≤ s.stage)) s <|
    let s := rs.foldl (fun s r => s.ageDomain r) s
    let top := s.safety.drift.foldl (fun (m : Nat × Nat) (e : Nat × Nat) => if m.2 < e.2 then e else m) (0, 0)
    let warn := (s.safety.drift.filter fun e => decide (s.obj Obj.AGING_WARN_MV ≤ e.2)).length
    ((s.setObj Obj.AGING_MAX_MV (min top.2 65535)).setObj Obj.AGING_MAX_DOMAIN (min top.1 65535)).setObj Obj.AGING_WARN_COUNT warn

/-- AGE_HOUR_BURN: one bit more, up to 2,048; a full bank leaves the live hours counting (R769). -/
def execAgeHourBurn (s : State) : Res :=
  occ (!s.sup.coldReset && decide (s.safety.hourBits < 2048)) s
    { s with safety := { s.safety with hourBits := s.safety.hourBits + 1, liveNs := -(s.timeNs : Int) } }

/-- AGE_HOURS (R769). -/
def State.ageHours (s : State) : Nat := s.safety.hourBits * 64 + ((s.safety.liveNs + s.timeNs) / 3600000000000).toNat

/-- COOLANT_WATCH_EXPIRY (R792). -/
def execCoolantWatchExpiry (s : State) : Res :=
  occ (!s.sup.coldReset && s.obj Obj.COOLANT_WATCH_S != 0 && !s.cool.fallback) s
    (s.forgetInlet.bump Obj.WATCH_EXPIRIES)

/-! Boundary scan (R786, R787). -/

/-- An instruction of Table 20.8 selected, from S1. -/
def State.select (s : State) (i : JInstr) : State := { s with cool := { s.cool with jtag := i } }

/-- An instruction that acts only under BOOT_MODE 0b100; else it selects the bypass register and is counted. -/
def State.selectTest (s : State) (i : JInstr) : State :=
  if s.obj Obj.BOOT_MODE_SAMPLED = 4 then s.select i else (s.select .bypass).bump Obj.JTAG_REFUSED

def execExtest (s : State) : Res := occ (decide (1 ≤ s.stage)) s (s.selectTest .extest)
def execExtestPulse (s : State) : Res := occ (decide (1 ≤ s.stage)) s (s.selectTest .extestPulse)
def execExtestTrain (s : State) : Res := occ (decide (1 ≤ s.stage)) s (s.selectTest .extestTrain)
def execHighz (s : State) : Res := occ (decide (1 ≤ s.stage)) s (s.selectTest .highz)
def execClamp (s : State) : Res := occ (decide (1 ≤ s.stage)) s (s.selectTest .clamp)
def execIdcode (s : State) : Res := occ (decide (1 ≤ s.stage)) s (s.select .idcode)
def execBypass (s : State) : Res := occ (decide (1 ≤ s.stage)) s (s.select .bypass)

/-- SAMPLE/PRELOAD: the boundary register captures the balls and takes the shifted-in value. -/
def execSamplePreload (sample preload : List Bool) (s : State) : Res :=
  occ (decide (1 ≤ s.stage)) s
    { s with cool := { s.cool with jtag := .samplePreload, sampled := sample, boundary := preload } }

/-- The register that the selected instruction puts between TDI and TDO: 32-bit identification, the boundary register, or one
bypass bit (Table 20.8). -/
def State.idRegister (s : State) : Nat := match s.variant with | .v => 0x150643E7 | .d => 0x150653E7

end Sys2Proof.Machine
end

