-- ==== Sys2Proof/Machine/Pins.lean ====
section
/-!
DEFINITION. The balls of the package: what each carries, from when it is driven, its level while it is not, and which of them
boundary scan reaches (R655, R656, R775 to R780, R786, R787, R755; Tables 20.1 to 20.4 and 20.8).
-/
namespace Sys2Proof.Machine

/-- What a ball carries (Table 20.2). `neg` is the N ball of a pair; pair 0 of a sensor port is its clock, 1 to 4 its data lanes. -/
inductive Ball where
  | vin | vss
  | porstN | wrstN | krstN | pciePerstN | safeInN | bootMode (i : Nat) | refclkSys | errN | errHb | canTxd | canRxd
  | t1s (neg : Bool) | tck | tms | tdi | trstN | tdo | epochIn (i : Nat) | epochOut (i : Nat)
  | xspiClk | xspiCsN | xspiResetN | xspiDq (i : Nat) | xspiDqs
  | sp (n pair : Nat) (neg : Bool)
  | ph (n lane : Nat) (rx neg : Bool) | refclkLane (g : Nat) (neg : Bool)
  | pcie (rx : Bool) (lane : Nat) (neg : Bool) | refclkPcie (neg : Bool)
  | lpData (n channel k : Nat) | lpCommand (n channel k : Nat) | lpResetN (n : Nat) | lpRail (n k : Nat)
  | gio (bank k : Nat)
deriving DecidableEq, Repr

/-- Both balls of a pair, P first (R777). -/
def pair (f : Bool → Ball) : List Ball := [f false, f true]

/-- The lanes of one Phidun port: TXP, TXN, RXP, RXN of each (R777). -/
def portBalls (n : Nat) : List Ball :=
  (List.range 8).flatMap fun l => pair (fun neg => .ph n l false neg) ++ pair (fun neg => .ph n l true neg)

/-- Signal balls of the group PH-W, in the order of Table 20.2. -/
def ballsPhW : List Ball :=
  ([0, 1, 2, 3, 4, 5, 6, 7, 16, 17, 18, 19].flatMap portBalls) ++ ([0, 1, 4].flatMap fun g => pair (.refclkLane g))

/-- Signal balls of the group PH-E. -/
def ballsPhE : List Ball :=
  ((List.range 8).flatMap fun i => portBalls (8 + i)) ++ ([2, 3].flatMap fun g => pair (.refclkLane g)) ++
  ((List.range 16).flatMap fun l => pair (.pcie false l)) ++ ((List.range 16).flatMap fun l => pair (.pcie true l)) ++
  pair .refclkPcie

/-- Signal balls of the group CTRL. -/
def ballsCtrl : List Ball :=
  [.porstN, .wrstN, .krstN, .pciePerstN, .safeInN] ++ (List.range 3).map .bootMode ++
  [.refclkSys, .errN, .errHb, .canTxd, .canRxd] ++ pair .t1s ++ [.tck, .tms, .tdi, .trstN, .tdo] ++
  (List.range 4).map .epochIn ++ (List.range 4).map .epochOut ++ [.xspiClk, .xspiCsN, .xspiResetN] ++
  (List.range 8).map .xspiDq ++ [.xspiDqs] ++
  (List.range 8).flatMap fun n => (List.range 5).flatMap fun p => pair (.sp n p)

/-- Every channel of every LP port, with `k` balls of a kind each. -/
def lpBalls (k : Nat) (f : Nat → Nat → Nat → Ball) : List Ball :=
  (List.range 8).flatMap fun n => (List.range 4).flatMap fun c => (List.range k).map (f n c)

/-- Signal balls of the group LP. -/
def ballsLp : List Ball :=
  lpBalls 22 .lpData ++ lpBalls 15 .lpCommand ++ (List.range 8).map .lpResetN ++
  (List.range 8).flatMap fun n => (List.range 14).map (.lpRail n)

/-- Signal balls of the group GIO. -/
def ballsGio : List Ball := (List.range 6).flatMap fun b => (List.range 48).map (.gio b)

/-- The signal of ball (r, c), each from 1 to 85 (R775 to R777): row by row in the groups along the north edge, column by column
in LP and, from column 85 downward, in GIO; VIN in the middle of CORE; VSS wherever the order fills nothing. -/
def ballAt (r c : Nat) : Ball :=
  if r ≤ 16 then
    if c ≤ 34 then ballsPhW.getD ((r - 1) * 34 + (c - 1)) .vss
    else if c ≤ 51 then ballsCtrl.getD ((r - 1) * 17 + (c - 35)) .vss
    else ballsPhE.getD ((r - 1) * 34 + (c - 52)) .vss
  else if c ≤ 22 then ballsLp.getD ((c - 1) * 69 + (r - 17)) .vss
  else if 76 ≤ c then ballsGio.getD ((85 - c) * 69 + (r - 17)) .vss
  else if 41 ≤ r && r ≤ 64 && 39 ≤ c && c ≤ 58 then .vin
  else .vss

/-- Electrical class of a ball (Table 20.2). -/
inductive BallClass where
  | power | k18 | s18 | od | t1s | dphy | lane | refclk | pcie | hcsl | lpddr | rail | gio
deriving DecidableEq, Repr

def Ball.cls : Ball → BallClass
  | .vin => .power
  | .vss => .power
  | .porstN | .wrstN | .krstN | .pciePerstN | .safeInN | .bootMode _ | .refclkSys | .errHb | .canTxd | .canRxd => .k18
  | .tck | .tms | .tdi | .trstN | .tdo => .k18
  | .errN => .od
  | .t1s _ => .t1s
  | .epochIn _ | .epochOut _ | .xspiClk | .xspiCsN | .xspiResetN | .xspiDq _ | .xspiDqs => .s18
  | .sp _ _ _ => .dphy
  | .ph _ _ _ _ => .lane
  | .refclkLane _ _ => .refclk
  | .pcie _ _ _ => .pcie
  | .refclkPcie _ => .hcsl
  | .lpData _ _ _ | .lpCommand _ _ _ | .lpResetN _ => .lpddr
  | .lpRail _ _ => .rail
  | .gio _ _ => .gio

/-- Balls that the device can drive: outputs, bidirectional ones and rails (Table 20.2). -/
def Ball.isOutput : Ball → Bool
  | .errN | .errHb | .canTxd | .t1s _ | .tdo | .epochOut _ | .xspiClk | .xspiCsN | .xspiResetN | .xspiDq _ => true
  | .ph _ _ rx _ => !rx
  | .pcie rx _ _ => !rx
  | .lpData _ _ _ | .lpCommand _ _ _ | .lpResetN _ | .lpRail _ _ | .gio _ _ => true
  | _ => false

/-- How boundary scan reaches a ball (R786). -/
inductive ScanReach where
  | none | observe | full | ieee1149_6
deriving DecidableEq, Repr

def Ball.scan (b : Ball) : ScanReach :=
  match b with
  | .tck | .tms | .tdi | .trstN | .tdo => .none
  | _ => match b.cls with
    | .k18 | .s18 | .od | .lpddr => .full
    | .dphy | .t1s => .observe
    | .pcie | .lane | .refclk => .ieee1149_6
    | _ => .none

/-- The register that an instruction code selects (Table 20.8): a code that the table does not assign selects bypass. -/
def jtagOf (code : Nat) : JInstr :=
  match code with
  | 0 => .extest | 1 => .idcode | 2 => .samplePreload | 3 => .extestPulse | 4 => .extestTrain | 5 => .highz | 6 => .clamp
  | _ => .bypass

/-! What drives a ball. -/

/-- The sources of a ball's level: nothing, the device, the fabric image, or the boundary register. -/
inductive Driver where
  | highZ | device | image | boundary
deriving DecidableEq, Repr

/-- ERR_HB runs from S1, while both copies of the monitor agree, out of the safe state and out of a keeper reset (R753). -/
def State.heartbeat (s : State) : Bool :=
  decide (1 ≤ s.stage) && s.safety.monitorOk && !s.safety.safe && !s.sup.keeperHeld

/-- A pin of a general I/O bank is the image's once its region runs, from S5, out of the safe state, with the bank's rail up
(R655, R656); in BOOT_MODE 0b100 the banks stay off (R787). -/
def State.bankDriven (s : State) (bank : Nat) : Bool :=
  (s.region (16 + bank)).st == 2 && decide (5 ≤ s.stage) && !s.safety.safe && (s.region (16 + bank)).vio != 0 &&
  s.obj Obj.BOOT_MODE_SAMPLED != 4

/-- An output driven by the device itself: from the stage of Table 20.2, only while its domain is powered and not held by a
reset, and in the safe state only ERR_N and, under SAFE_MGMT KEEP, the management transmit balls (R755, R778, R779). -/
def State.ownDriven (s : State) (b : Ball) : Bool :=
  let from_ (k : Nat) : Bool := decide (k ≤ s.stage) && !s.safety.safe
  let up (u : Nat) : Bool := s.present u && s.unitSt u != .off
  match b with
  | .errN => decide (1 ≤ s.stage) && !s.sup.keeperHeld && s.safety.errN
  | .errHb => s.heartbeat
  | .canTxd | .t1s _ => s.mgmtDriven
  | .tdo => from_ 1
  | .epochOut _ | .xspiClk | .xspiCsN | .xspiResetN | .xspiDq _ => from_ 2
  | .ph n _ rx _ => !rx && from_ 4 && up (unitOf 6 n)
  | .pcie rx _ _ => !rx && from_ 2 && !s.sup.pciePerst
  | .lpData n _ _ | .lpCommand n _ _ | .lpResetN n | .lpRail n _ => from_ 2 && up (unitOf 7 n)
  | _ => false

/-- What drives a ball. The test instructions act in BOOT_MODE 0b100 alone, where `select` left them (R787): HIGHZ floats every
boundary output, EXTEST, its two IEEE 1149.6 forms and CLAMP drive them from the boundary register. -/
def State.driver (s : State) (b : Ball) : Driver :=
  let reached := b.isOutput && (b.scan == .full || b.scan == .ieee1149_6)
  match s.cool.jtag with
  | .highz => if reached then .highZ else if s.ownDriven b then .device else .highZ
  | .extest | .extestPulse | .extestTrain | .clamp => if reached then .boundary else if s.ownDriven b then .device else .highZ
  | _ => match b with
    | .gio bank _ => if s.bankDriven bank then .image else .highZ
    | _ => if s.ownDriven b then .device else .highZ

/-- The level that the recommended resistor gives an undriven output, none where none sets one (Table 20.3). -/
def Ball.restLevel : Ball → Option Bool
  | .errN | .tdo | .canTxd | .xspiCsN => some true
  | .errHb | .epochOut _ | .xspiClk | .xspiResetN | .xspiDq _ | .lpResetN _ | .lpRail _ _ => some false
  | _ => none

/-- The tie of an unused input, none where the ball stays open or must be connected (Table 20.4). -/
def Ball.unusedTie : Ball → Option Bool
  | .wrstN | .krstN | .safeInN | .tms | .tdi | .canRxd | .porstN => some true
  | .tck | .trstN | .epochIn _ | .xspiDqs => some false
  | _ => none

/-- EPOCH_OUT[n] as the ball shows it: a pulse while the device drives it, else the level of its resistor. -/
def State.epochOutLevel (s : State) (n : Nat) : Bool :=
  s.ownDriven (.epochOut n) && SMap.get 0 s.ep.outLow n ≠ 0

/-- ERR_N as the ball shows it: low while driven, else high by the board's pull-up. -/
def State.errNLevel (s : State) : Bool := !(s.ownDriven .errN)

end Sys2Proof.Machine
end

