-- ==== Sys2Proof/Machine/Objects.lean ====
section
/-!
DEFINITION. Reading the dictionary: which objects exist, which unit an object belongs to, what status objects show, and
what DESCRIBE says of an object (R76 to R81, R84, R85, R105, R139 and the status tables of every chapter).
-/
namespace Sys2Proof

/-- Bytes of a fixed-size type; 0 for STR and BLOCK (Table 3.1). -/
def OTy.size : OTy → Nat
  | .bool => 1 | .u8 => 1 | .u16 => 2 | .u32 => 4 | .u64 => 8 | .i32 => 4 | .f32 => 4 | .str => 0 | .block => 0

def OTy.code : OTy → Nat
  | .bool => 1 | .u8 => 2 | .u16 => 3 | .u32 => 4 | .u64 => 5 | .i32 => 6 | .f32 => 7 | .str => 8 | .block => 9

def OTy.varSize : OTy → Bool
  | .str => true | .block => true | _ => false

def OAcc.code : OAcc → Nat
  | .ro => 0 | .rw => 1 | .wo => 2 | .rws => 3 | .const => 4

/-- The largest value of an object, in bytes. -/
def ORow.maxBytes (r : ORow) : Nat :=
  match r.ty, r.rng with
  | .str, _ => 16
  | .block, .fixed n => n
  | .block, .upTo n => n
  | t, _ => t.size

/-- A BLOCK of exactly one size. -/
def ORow.isFixed (r : ORow) : Bool := match r.rng with | .fixed _ => true | _ => false

/-- Expert objects: the expert blocks of Table 3.2, and those of Table 19.14. -/
def isExpert (key : Nat) : Bool := (0x400000 ≤ key && key < 0x500000) || (0x710000 ≤ key && key < 0x720000)

/-- Basic objects: what a basic block, a transport or a profile set holds and can be written. -/
def ORow.isBasic (r : ORow) (key : Nat) : Bool := !isExpert key && r.acc != .ro && r.acc != .const

/-- The largest unsigned value of a type. -/
def OTy.top : OTy → Nat
  | .bool => 1 | t => 2 ^ (8 * t.size) - 1

end Sys2Proof

namespace Sys2Proof.Machine

/-- The highest sub-index in use at an index, where it holds objects. -/
def topSub (i : Nat) : Option Nat :=
  match objRows.filter fun r => r.iLo ≤ i && i ≤ r.iHi with
  | [] => none
  | rs => some (rs.foldl (fun m r => max m r.sHi) 0)

/-- The object at a key. Sub-index 0 of an index that holds objects is the constant of R76. -/
def objAt (key : Nat) : Option ORow :=
  if key % 256 = 0 then (topSub (key / 256)).map fun n => ⟨key / 256, key / 256, 0, 0, .u8, .const, n, n, .any⟩
  else objRow key

/-- Check 3 of R85: the object's unit is absent or FAULTED. UNIT_STATE itself shows FAULTED (Table 3.10), and a FAULTED tile
can be made SPARE (R450, R452). -/
def State.unitCheck (s : State) (key : Nat) : Nat :=
  match objUnit key with
  | none => Sc.ok
  | some u => if !s.present u || (s.unitSt u == .faulted && key / 65536 != 0x63 && key / 256 != 0x2401) then Sc.unitDisabled else Sc.ok

/-- A unit whose objects are written to and read from the keeper's shadow (R80, R81). -/
def State.sleeps (s : State) (u : Nat) : Bool := (s.unitSt u).sleeps

/-- The state with a unit's records as the keeper captured them (R81). -/
def State.asCaptured (s : State) (u : Nat) : State :=
  match SMap.get none s.captured u with
  | none => s
  | some c =>
    let n := unitIndex u
    let mine (k : Nat) : Bool := decide (0x600000 ≤ k) && objUnit k == some u
    let s : State := { s with dict := s.dict.filter (fun e => !mine e.1) ++ c.dict }
    match unitClass u with
    | 0 => { s with tiles := { s.tiles with mxt := SMap.set {} s.tiles.mxt n c.tile } }
    | 1 => { s with tiles := { s.tiles with vxt := SMap.set {} s.tiles.vxt n c.vxt } }
    | 2 => { s with cat := { s.cat with cats := SMap.set {} s.cat.cats n c.cat } }
    | 6 => { s with link := { s.link with
        ports := SMap.set {} s.link.ports n c.phy, lanes := s.link.lanes.filter (fun e => e.1 / 8 != n) ++ c.lanes } }
    | 7 => { s with mem := { s.mem with lpMib := s.mem.lpMib.set n c.lpMib, lpRate := s.mem.lpRate.set n c.lpRate } }
    | 8 => { s with mem := { s.mem with hbRepairs := s.mem.hbRepairs.set n c.hbRepairs } }
    | _ => s

/-- The state that a status object is read from: of a unit in OFF, MEWS or TEST what was captured, but for its own state (R81). -/
def State.shown (s : State) (key : Nat) : State :=
  match objUnit key with
  | some u => if decide (0x600000 ≤ key) && key / 65536 != 0x63 && s.sleeps u then s.asCaptured u else s
  | none => s

/-! Status objects that show state held elsewhere. -/

/-- The leader's slot of a sequencer, and the other (R232). -/
def Sequencer.leader (q : Sequencer) : Slot := if q.s1.role == .leader || (q.s1.role == .halted && q.s0.role != .leader) then q.s1 else q.s0
def Sequencer.follower (q : Sequencer) : Slot := if q.s1.role == .follower then q.s1 else q.s0

def Role.code : Role → Nat
  | .empty => 0 | .leader => 1 | .follower => 2 | .halted => 3

/-- The encoding of 0x6922 SEQ_WAIT. -/
def WaitKind.code : WaitKind → Nat
  | .nothing => 0 | .semwait => 1 | .epoch => 2 | .bringup => 3 | .issueQueue => 4 | .busyEngine => 5 | .fence => 6
  | .ended => 7 | .hold => 8 | .leader => 9

/-- What a program waits on: HOLD while the supply holds the device's work (R38), else what its word waits on; in a cast's member
tile, what the cast's program waits on. -/
def State.slotWait (s : State) (q k : Nat) : Nat :=
  if s.sup.inMews || s.sup.entryRunning then WaitKind.hold.code else (s.programOf q k).wait.code

/-- 0x6922 SEQ_WAIT (Table 5.14). -/
def State.seqWait (s : State) (q : Nat) : Nat :=
  let x := s.seq q
  let of (r : Role) : Nat := if x.s0.role == r then s.slotWait q 0 else if x.s1.role == r then s.slotWait q 1 else 0
  of .leader + b2n (x.leader.hang || x.follower.hang) * 128 + of .follower * 256

/-- The supply and clocks as Table 2.15 shows them. -/
def State.bandCode (s : State) : Nat := match s.sup.band with | .full => 0 | .reduced => 1 | .hold => 2 | .over => 3

def State.coolantState (s : State) : Nat :=
  let t := s.cool.inletInUse
  if s.cool.fallback then 4 else if t < 100 then 3 else if t ≤ 500 then 0 else if t ≤ 650 then 1 else 2

/-- MAP_STATUS (Table 8.9). -/
def State.mapStatus (s : State) : Nat :=
  b2n s.mem.hbmLinear + b2n (s.mem.lpLinear && !s.mem.lpFallback) * 2 + b2n s.mem.lpFallback * 4 + b2n s.mem.inlineEcc * 8 +
    s.backedIn false / 2 ^ 30 % 4096 * 256

/-- The statistics of the ID in STATS_SELECT, as last snapped (Table 7.9). -/
def State.selStat (s : State) : Stat := SMap.get {} s.net.snap (s.obj Obj.STATS_SELECT)

/-- PIN_LEVELS without the inputs and the heartbeat whose levels the model does not hold. An undriven output reads as the resistor
of Table 20.3 sets it. -/
def State.pinLevels (s : State) : Nat :=
  let outs := ((List.range 4).map fun n => if s.epochOutLevel n then 2 ^ n else 0).sum
  3 + b2n (!s.sup.keeperHeld) * 4 + b2n (!s.sup.pciePerst) * 8 + b2n (!s.sup.safeIn) * 16 + s.sup.bootPins % 8 * 32 + outs * 2 ^ 12 + b2n s.errNLevel * 2 ^ 16

/-- Status objects of chapters 1 to 4, 19 and 20. With blank or double fuses R13 gives VARIANT alone; CAPABILITY, TJ_LIMIT and the
device ID stay those of the variant field (DESIGN CHOICE, log 49; unsafe). -/
def State.viewKeeper (s : State) (key : Nat) : Option Nat :=
  if key = Obj.VARIANT then (if s.fusesOk then none else some 0)
  else if key = Obj.KEY_PROGRAMS_LEFT then some (8 - s.oap.programs)
  else if key = Obj.SESSION_STATE then
    some (b2n s.oap.can.sess.isOpen + b2n s.oap.t1s.sess.isOpen * 2 + b2n s.oap.mbx.sess.isOpen * 4)
  else if key = Obj.OVERRIDDEN_COUNT then some s.oap.overridden.length
  else if key = Obj.PENDING_COUNT then some s.oap.staged.length
  else if key = Obj.VIN_MV then some s.sup.vinMv
  else if key = Obj.VIN_MIN_MV then (if s.obj key = 0 then some s.sup.vinMv else none)
  else if key = Obj.VIN_BAND then some s.bandCode
  else if key = Obj.CAP_EFFECTIVE_W then some s.capEffective
  else if key = Obj.VCORE_MV then (if s.obj Obj.AVS_ENABLE = 0 then some 850 else none)
  else if key = Obj.REFCLK_STATUS then some (b2n s.sup.refSys + b2n s.sup.refPcie * 2 + s.sup.refLane % 32 * 4)
  else if key = Obj.SENSORS_EXCLUDED then some s.cool.excluded.length
  else if key = Obj.COOLANT_IN_USE_DC then some (unsgn 32 s.cool.inletInUse)
  else if key = Obj.COOLANT_LIMIT_W then some s.coolantLimit
  else if key = Obj.COOLANT_STATE then some s.coolantState
  else if key = Obj.PIN_LEVELS then some s.pinLevels
  else if key = Obj.SAFE_STATE then some (b2n s.safety.safe)
  else if key = Obj.ERR_N_LATCHED then some (b2n s.safety.errN)
  else if key = Obj.HB_RUNNING then some (b2n s.heartbeat)
  else if key = Obj.LOG_LOST then some s.agg.logLost
  else if key = Obj.OVERDUE_UNITS then some s.overdue
  else if key = Obj.AGE_HOURS then some s.ageHours
  else if key = Obj.PCIE_RATE then some (if s.host.linkUp then s.host.rate else 0)
  else if key = Obj.PCIE_WIDTH then some (if s.host.linkUp then s.host.width else 0)
  else if key = Obj.RINGS_FAULTED then some (s.host.rings.filter fun e => e.2.st == .faulted).length
  else if key = Obj.DEVICE_TIME_NS then some s.timeNs
  else if key = Obj.NUM_VFS then some s.host.numVfs
  else none

/-- Status objects of the device's other units. -/
def State.viewUnits (s : State) (key : Nat) : Option Nat :=
  let i := key / 256
  let n := key % 256 - 1
  if i / 256 = 0x63 then
    let b := s.ucb (unitOf (i % 256) n)
    some (b.st.code + b2n b.mgmtStop * 8)
  else if key = Obj.SCRUB_LINES_PER_S then some s.scrubRate
  else if key = Obj.ACTIVE_TILES then some s.activeTiles
  else if i = 0x6401 then some (s.tile n).spareMap
  else if i = 0x6402 then some (s.tile n).mismatch
  else if i = 0x6403 then some ((s.tile n).carrying.getD 0xFF)
  else if i = 0x6501 then some (SMap.get ({} : VTile) s.tiles.vxt n).busyCycles
  else if i = 0x6601 then some (SMap.get ({} : Cat) s.cat.cats n).busyCycles
  else if i = 0x6921 then some ((s.seq n).s0.role.code + (s.seq n).s1.role.code * 4)
  else if i = 0x6922 then some (s.seqWait n)
  else if i = 0x6923 then some (if (s.seq n).leader.role == .leader then (s.seq n).leader.wi else 0)
  else if key = Obj.PELLET_NEXT_SEQ then some s.str.pelletNext
  else if i = 0x6A10 then
    let x := s.str.stallSnap
    some (if n < 8 then x.cause.getD n 0 else if n = 8 then x.drain else if n = 9 then x.active else if n = 10 then x.rd
      else if n = 11 then x.wr else x.timeNs)
  else if key = Obj.SEL_PACKETS then some (s.selStat.packets % 2 ^ 48)
  else if key = Obj.SEL_BYTES then some (s.selStat.bytes % 2 ^ 48)
  else if key = Obj.SEL_MAX_LAT then some s.selStat.maxLat
  else if key = Obj.SEL_TIME_NS then some s.net.snapTimeNs
  else if i = 0x6C10 then some (s.mem.lpMib.getD n 0)
  else if i = 0x6C11 then some (s.mem.lpRate.getD n 0)
  else if i = 0x6C12 then some (s.mem.hbRepairs.getD n 0)
  else if key = Obj.MAP_STATUS then some s.mapStatus
  else if key = Obj.REGION_STATE then some s.regionStates
  else if i = 0x6E00 then some (s.phy n).step
  else if i = 0x6E01 then some (s.phRate n)
  else if i = 0x6E02 then some (s.phPartner n)
  else if i = 0x6E03 then some (s.phy n).set
  else if i = 0x6E10 then some (s.laneStatus (n / 8) (n % 8) % 2 ^ 16)
  else if i = 0x6E13 then some (s.patternErrors n)
  else if i = 0x6E14 then some (s.patternBits n)
  else if i = 0x6E1A then some (s.injected n)
  else if i = 0x6E86 then some (satBump 64 (s.obj key) (s.fullCycles n))
  else if i = 0x6E89 then some (s.phy n).running
  else if i = 0x6E8A then some (s.outstandingOf n)
  else none

/-- Status BLOCKs. -/
def State.viewBlock (s : State) (key : Nat) : Option (List Byte) :=
  if key = Obj.SEL_HIST then some ((List.range 16).flatMap fun b => leBytes 4 (s.selStat.hist.getD b 0))
  else if key = Obj.TJ_SENSORS then
    some ((List.range 64).flatMap fun i =>
      leBytes 2 (if s.cool.excluded.contains i then 0x8000 else unsgn 16 (s.cool.sensors.getD i 0)))
  else if key = Obj.SAFE_RECORD then some (match s.agg.safeRec with | some r => r.bytes | none => zeros 32)
  else if key = Obj.ERR_LOG_TAIL then
    some ((List.range 32).flatMap fun k =>
      if k < s.agg.logNext then (SMap.get ({} : ErrRec) s.agg.log ((s.agg.logNext - 1 - k) % 1024)).bytes else zeros 32)
  else if key = Obj.TJ_HIST then some ((List.range 5).flatMap fun b => leBytes 4 (s.safety.tjHist.getD b 0 / 36000000))
  else none

/-- The bytes of an event-extractor rule (Table 15.1). -/
def State.ruleBytes (s : State) (p r : Nat) : List Byte :=
  leBytes 8 (s.ruleWord p r 0) ++ leBytes 8 (s.ruleWord p r 1) ++ leBytes 8 (s.ruleWord p r 2)

/-- The value in effect, as bytes; the adaptive VCORE, free from 0.55 to 0.85 V
(R45, Table 2.3), and pin levels the model does not hold are free. A WO object reads
0 (Table 0.4), and an object of a sleeping unit reads its shadow (R81). -/
def State.readObj (s : State) (key : Nat) (r : ORow) : List Byte × State :=
  let n := r.ty.size
  if key % 256 = 0 then ([BitVec.ofNat 8 r.dD], s)
  else if r.acc == .wo then (zeros r.maxBytes, s)
  else
    let shadow := match keyHome key with | some u => if s.sleeps u then SMap.get 0 s.oap.shadow key else 0 | none => 0
    if r.ty.varSize then
      (match s.viewBlock key with
       | some b => b
       | none =>
         let b := if shadow ≠ 0 then leBytes r.maxBytes (shadow - 1)
           else if 0x4710 ≤ key / 256 && key / 256 ≤ 0x4717 then s.ruleBytes (key / 256 - 0x4710) (key % 256 - 1) else s.block key
         if r.isFixed then padTo r.maxBytes b else b, s)
    else if key = Obj.VCORE_MV && s.obj Obj.AVS_ENABLE = 1 then (leBytes n (550 + s.draw.1.toNat % 301), s.draw.2)
    else if key = Obj.PIN_LEVELS then
      let f := s.draw.1.toNat
      (leBytes n (s.pinLevels + bits f 0 4 * 2 ^ 8 + b2n s.heartbeat * bits f 4 1 * 2 ^ 17), s.draw.2)
    else (leBytes n (if shadow ≠ 0 then shadow - 1
      else ((s.viewKeeper key) <|> ((s.shown key).viewUnits key)).getD ((s.shown key).obj key)), s)

/-! DESCRIBE (Table 3.5). -/

/-- MIN and MAX of the objects whose checks are their own. -/
def State.customRange (s : State) (key : Nat) (t : OTy) : Nat × Nat :=
  let i := key / 256
  if key = Obj.POWER_CAP then (100, s.pcapMaxW)
  else if key = Obj.EYAS_TCLK_MHZ then (250, 500)
  else if key = Obj.MXT_CLK_LIMIT then (250, s.tclkMaxMhz)
  else if i = 0x2700 then (0, 3)
  else if i = 0x2706 then (0x10001, 0x10001000)
  else if key = Obj.HOT_CACHE_KIB then (0, 32768)
  else (0, t.top)

/-- MIN and MAX as eight bytes each hold them. -/
def State.rangeOf (s : State) (key : Nat) (r : ORow) : Nat × Nat :=
  match r.rng with
  | .any => if r.ty == .i32 then (2 ^ 64 - 2 ^ 31, 2 ^ 31 - 1) else (0, r.ty.top)
  | .rng lo hi => (lo, hi)
  | .srng lo hi => (unsgn 64 lo, unsgn 64 hi)
  | .zeroOr _ hi => (0, hi)
  -- UNIT_REQ of a memory unit has no OFF (R339)
  | .enum lo hi => (if 0x2307 ≤ key / 256 && key / 256 ≤ 0x230A && key / 256 ≠ 0x2309 then 1 else lo, hi)
  | .enumOf l => (l.foldl min (l.headD 0), l.foldl max 0)
  | .oneOf l => (l.foldl min (l.headD 0), l.foldl max 0)
  | .mask m => (0, m)
  | .fixed _ => (0, 0)
  | .upTo _ => (0, 0)
  | .custom => s.customRange key r.ty

/-- Whether an RWS object has a pending value. -/
def State.isPending (s : State) (key : Nat) : Bool := SMap.get 0 s.oap.staged key ≠ 0

/-- The 32 bytes of Table 3.5. -/
def State.describe (s : State) (key : Nat) (r : ORow) : List Byte :=
  let flags := b2n (r.isBasic key) + b2n (isExpert key) * 2 + b2n (objUnit key).isSome * 4 + b2n (s.oap.overridden.contains key) * 8 +
    b2n (s.isPending key) * 16 + b2n (r.ty.varSize && r.isFixed) * 32
  let dom := match r.acc, objUnit key with
    | .rws, some u => s.domainOf u
    | _, _ => 0xFF
  let d := if key % 256 = 0 then r.dD else if key = Obj.SCRUB_LINES_PER_S then s.scrubDefault else objDefault s.variant key
  let m := if r.ty.varSize then (0, 0) else s.rangeOf key r
  let d := if r.ty.varSize then 0 else if r.ty == .i32 then unsgn 64 (sgn 32 d) else d
  leBytes 1 r.ty.code ++ leBytes 1 r.acc.code ++ leBytes 1 flags ++ leBytes 1 dom ++ leBytes 2 r.maxBytes ++ zeros 2 ++
    leBytes 8 m.1 ++ leBytes 8 m.2 ++ leBytes 8 d

end Sys2Proof.Machine
end

