-- ==== Sys2Proof/Machine/Dict.lean ====
section
/-!
DEFINITION. Writing the dictionary: what a value must be, what a write does, what basic objects derive, staged values and
profile sets (R7, R25, R31 to R33, R69, R71, R80, R82, R85, R104 to R108, R117 to R123 and the control tables of every chapter).
-/
namespace Sys2Proof.Machine

/-- Where a status stands in the order of R26 and R85. -/
def failRank (st : Nat) : Nat :=
  if st = Sc.illegalOp then 0 else if st = Sc.reservedNonzero then 1 else if st = Sc.unitDisabled then 2
  else if st = Sc.boundViolation then 3 else if st = Sc.alignment then 4 else if st = Sc.accessDenied then 5 else 6

/-- The first failure of several, in the order of R85; OK where none fails. -/
def firstOf (l : List Nat) : Nat :=
  l.foldl (fun b st => if st < 0x10 then b else if b = 0 || failRank st < failRank b then st else b) 0

/-! What a value must be. -/

/-- A status where a condition fails. -/
def need (c : Bool) (st : Nat) : Nat := if c then Sc.ok else st

/-- Objects whose tables give more than a range or an enumeration. -/
def State.customCheck (s : State) (key v : Nat) : Nat :=
  let i := key / 256
  let n := key % 256 - 1
  if key = Obj.POWER_CAP then need (decide (100 ≤ v) && decide (v ≤ s.pcapMaxW)) Sc.boundViolation
  else if key = Obj.EYAS_TCLK_MHZ then need (decide (250 ≤ v) && decide (v ≤ 500) && v % 25 == 0) Sc.boundViolation
  else if key = Obj.MXT_CLK_LIMIT then need (decide (250 ≤ v) && decide (v ≤ s.tclkMaxMhz) && v % 25 == 0) Sc.boundViolation
  else if i = 0x2402 then s.checkUnderstudy n v
  else if i = 0x4410 then firstOf [need (Nat.land v 0x11FF == v) Sc.reservedNonzero, s.repairStatus n v]
  else if key = Obj.POISON_INJECT then need (bits v 9 6 == 0 && decide (bits v 0 9 < 440)) Sc.reservedNonzero
  else if i = 0x2700 then need (decide (v ≤ 3)) Sc.reservedNonzero
  else if i = 0x2706 then
    firstOf [need (Nat.land v 0x1FFF1FFF == v) Sc.reservedNonzero,
      need (decide (1 ≤ bits v 0 13) && decide (bits v 0 13 ≤ 4096) && decide (1 ≤ bits v 16 13) && decide (bits v 16 13 ≤ 4096)) Sc.boundViolation]
  else if i = 0x2721 then need (decide (v < 256) || v == 0xFFFF) Sc.boundViolation
  else if i = 0x4700 then
    firstOf [need (Nat.land v 0x11FFFFF3F03 == v && bits v 0 2 != 3) Sc.reservedNonzero,
      need (decide (bits v 8 6 ≤ 32) && decide (1 ≤ bits v 16 16)) Sc.boundViolation]
  else if i = 0x2D02 then need (decide (v < 16) || v == 0xFF) Sc.boundViolation
  else if key = Obj.HOT_CACHE_KIB then firstOf [need (decide (v ≤ 32768) && v % 64 == 0) Sc.boundViolation, s.checkHotSize (some v)]
  else if i = 0x2813 then need (decide (v < 32) || v == 0xFF) Sc.boundViolation
  else if key = Obj.ECC_INJECT then s.checkEccInject v
  else if i = 0x4C30 then checkWinRange v
  else if key = Obj.CFG_INJECT then checkCfgInject v
  else if i = 0x4E00 then checkTxFfe v
  else if i = 0x4E07 then s.checkPatternCtrl n v
  else if i = 0x4E09 then checkInject v
  else Sc.ok

/-- Checks of a value that its table's range does not hold: the unit states, roles and other settings a rule names. -/
def State.ruleCheck (s : State) (key v : Nat) (bs : List Byte) : Nat :=
  let i := key / 256
  let n := key % 256 - 1
  if i = 0x2401 then s.checkRole n v
  else if key = Obj.HOT_SLOT_BYTES then s.checkHotSize none
  else if i = 0x2810 then s.checkEdSource n v
  else if i = 0x2811 then s.checkEdArg n v
  else if key = Obj.EPOCH_MARK_MGMT then s.checkEpochMark v
  else if key = Obj.PELLET_LOG_ENTRIES then s.checkLogEntries
  else if key = Obj.PELLET_READ_SEQ then s.checkReadSeq v
  else if i = 0x2D01 then s.checkFpCtx v
  else if i = 0x2E81 || i = 0x2E82 then s.checkDevRoute v
  else if i = 0x4E02 then need (bits v 16 3 != 7) Sc.reservedNonzero
  else if key = Obj.SP_INJECT then checkSpInject v
  else if key = Obj.CAT_INJECT then checkCatInject v
  else if 0x4710 ≤ i && i ≤ 0x4717 then (s.ruleWrite (i - 0x4710) n (fieldLE bs 0 8) (fieldLE bs 8 8) (fieldLE bs 16 8)).1
  else if key = Obj.LANE_REFCLK_USED then need (s.variant == .d || Nat.land v 0x1E == 0) Sc.unitDisabled
  else if key = Obj.DEVICE_ID then
    need (s.obj Obj.DEVICE_ID_LOCK == 0 && (List.range 20).all fun p => !(s.phy p).framing) Sc.accessDenied
  else if key = Obj.DEVICE_ID_LOCK then need (v == 1 || s.obj Obj.DEVICE_ID_LOCK == 0) Sc.accessDenied
  else if key = Obj.ERR_N_CLEAR then need (v == 0 || !s.safety.safe) Sc.accessDenied
  else if key = Obj.EXPERT_KEY then need (decide (s.oap.programs < 8)) Sc.accessDenied
  else Sc.ok

/-- Checks 2 and 4 of R85 on a whole value, and the object's own. -/
def State.valueCheck (s : State) (key : Nat) (r : ORow) (bs : List Byte) : Nat :=
  let v := ofLE bs
  let range := match r.rng with
    | .any => Sc.ok
    | .rng lo hi => need (decide (lo ≤ v) && decide (v ≤ hi)) Sc.boundViolation
    | .srng lo hi => need (decide (lo ≤ sgn 32 v) && decide (sgn 32 v ≤ hi)) Sc.boundViolation
    | .zeroOr lo hi => need (v == 0 || (decide (lo ≤ v) && decide (v ≤ hi))) Sc.boundViolation
    | .enum lo hi => need (decide (lo ≤ v) && decide (v ≤ hi)) Sc.reservedNonzero
    | .enumOf l => need (l.contains v) Sc.reservedNonzero
    | .oneOf l => need (l.contains v) Sc.boundViolation
    | .mask m => need (Nat.land v m == v) Sc.reservedNonzero
    | .fixed n => need (bs.length == n) Sc.boundViolation
    | .upTo n => need (decide (bs.length ≤ n)) Sc.boundViolation
    | .custom => s.customCheck key v
  let typed := match r.ty with
    | .str => need (bs.all fun b => decide (0x20 ≤ b.toNat) && decide (b.toNat ≤ 0x7E)) Sc.boundViolation
    | .f32 => need (bits v 23 8 != 255) Sc.boundViolation
    | _ => Sc.ok
  firstOf [range, typed, if range < 0x10 then s.ruleCheck key v bs else Sc.ok]

/-- Check 5 of R85 for a write: the access right, and who may write an expert object (R107, R108, R117). -/
def State.writeRight (s : State) (key : Nat) (r : ORow) (auth : Bool) : Nat :=
  let held := isExpert key || key == Obj.SESSION_IDLE_S || (key == Obj.EXPERT_KEY && !s.oap.key.isEmpty)
  need (r.acc != .ro && r.acc != .const && (auth || !held)) Sc.accessDenied

/-! What basic objects derive (R104). -/

/-- The expert values that a written basic object derives. -/
def derived (key v : Nat) : List (Nat × Nat) :=
  let i := key / 256
  let n := key % 256 - 1
  let three (a b c : List Nat) : List Nat := match v with | 0 => a | 1 => b | _ => c
  if key = Obj.ERR_REPORTING then
    [Obj.ERRN_CORRECTED, Obj.ERRN_DEFERRED, Obj.ERRN_CONTAINED].zip (three [0, 0, 1] [0, 1, 1] [1, 1, 1])
  else if key = Obj.POWER_CAP then [(Obj.REDUCED_CAP_W, min v 250), (Obj.CAP_WINDOW_US, 1000)]
  else if key = Obj.CAN_DATA_RATE then [(Obj.CAN_DATA_SP, if v ≤ 2 then 750 else 700), (Obj.CAN_TDC_ENABLE, if v = 0 then 0 else 1)]
  else if key = Obj.PCIE_MAX_RATE then [(Obj.PCIE_TX_PRESET, if v = 6 then 7 else 5)]
  else if key = Obj.OVERLAP_MODE then [Obj.SLOTS, Obj.ISSUE_DEPTH].zip (three [2, 16] [1, 16] [1, 1])
  else if key = Obj.STREAM_PACING then [Obj.MAX_OUTSTANDING].zip (three [1024] [512] [128])
  else if key = Obj.ROUTING then [(Obj.SRC_ROUTE_GLOBAL, v)]
  else if key = Obj.TC_BALANCE then [Obj.VC_WEIGHT_TC 1, Obj.VC_WEIGHT_TC 2, Obj.VC_WEIGHT_TC 3].zip (three [4, 8, 4] [2, 12, 2] [8, 4, 4])
  else if key = Obj.STORE_ORDER_MODE then [Obj.SB_DEPTH, Obj.SB_FORWARD, Obj.SB_SYNC].zip (three [32, 1, 0] [1, 0, 1] [])
  else if key = Obj.GATHER_PACING then [Obj.GE_MAX_INFLIGHT].zip (three [4096] [2048] [512])
  else if key = Obj.CFG_SCRUB then [Obj.CFG_SCRUB_PERIOD_MS].zip (three [0] [10] [100])
  else if key = Obj.LINK_PROFILE then
    [Obj.REPLAY_TIMEOUT_US, Obj.REPLAY_LIMIT, Obj.ACK_INTERVAL].zip (three [10, 4, 32] [5, 4, 8] [20, 8, 32])
  else if key = Obj.SAFETY_PROFILE then
    let t := match v with | 0 => 600 | 1 => 3600 | _ => 0
    ([0, 1, 3, 5, 11].map fun c => (Obj.TEST_INTERVAL_S c, t)) ++
      [(Obj.TEST_INTERVAL_S 2, if v ≤ 1 then 3600 else 0), (Obj.AUTO_REPAIR, if v ≤ 1 then 1 else 0)]
  else if key = Obj.COOLING_PROFILE then
    [(Obj.THETA_LI_MCW, if v = 0 then 110 else 30), (Obj.TJ_MARGIN_C, 5), (Obj.COOLANT_FALLBACK_DC, 650)]
  else if i = 0x2E01 then
    (List.range 8).flatMap fun l =>
      [Obj.TX_FFE (8 * n + l), Obj.RX_CTLE (8 * n + l), Obj.RX_DFE_CTRL (8 * n + l), Obj.LOS_THRESH_MV (8 * n + l),
       Obj.LOS_FILTER_NS (8 * n + l)].zip (three [5, 15, 0xFFF, 60, 1000] [1, 8, 0x3F, 80, 1000] [6, 15, 0xFFF, 40, 1000])
  else if i = 0x2E05 then [Obj.IDLE_TIMERS n].zip (three [0] [10] [10 + 100 * 65536])
  else if i = 0x2705 && v = 0 then [(Obj.SP_EVT_WORD n, 0x12002), (Obj.SP_TS_OFFSET n, 0)]
  else []

/-- The basic object that derives an expert object (R104). -/
def derivedBy (key : Nat) : Option Nat :=
  let i := key / 256
  let k := key % 256
  if i = 0x4001 && k ≤ 3 then some Obj.ERR_REPORTING
  else if i = 0x4100 && k ≤ 2 then some Obj.POWER_CAP
  else if i = 0x4210 && 2 ≤ k then some Obj.CAN_DATA_RATE
  else if key = Obj.PCIE_TX_PRESET then some Obj.PCIE_MAX_RATE
  else if i = 0x4920 then some Obj.OVERLAP_MODE
  else if key = Obj.MAX_OUTSTANDING then some Obj.STREAM_PACING
  else if key = Obj.SRC_ROUTE_GLOBAL then some Obj.ROUTING
  else if i = 0x4B00 then some Obj.TC_BALANCE
  else if key = Obj.SCRUB_LINES_PER_S then some Obj.SCRUB_PERIOD_H
  else if i = 0x4C40 && k ≤ 3 then some Obj.STORE_ORDER_MODE
  else if key = Obj.GE_MAX_INFLIGHT then some Obj.GATHER_PACING
  else if i = 0x4700 || i = 0x4701 then some (Obj.SP_EVENT_FORMAT (k - 1))
  else if 0x4710 ≤ i && i ≤ 0x4717 then some (Obj.SP_EVENT_FORMAT (i - 0x4710))
  else if key = Obj.CFG_SCRUB_PERIOD_MS then some Obj.CFG_SCRUB
  else if 0x4E00 ≤ i && i ≤ 0x4E04 then some (Obj.PH_EQ_PROFILE ((k - 1) / 8))
  else if i = 0x4E11 then some (Obj.PH_IDLE_POLICY (k - 1))
  else if i = 0x4E80 then some Obj.LINK_PROFILE
  else if i = 0x7100 || key = Obj.AUTO_REPAIR then some Obj.SAFETY_PROFILE
  else if i = 0x4F00 then some Obj.COOLING_PROFILE
  else none

/-- Whether a basic object derives anything. -/
def derives (key : Nat) : Bool :=
  let i := key / 256
  !(derived key 0).isEmpty || key == Obj.SCRUB_PERIOD_H || i == 0x2705

/-- A write replaces the derived values and clears OVERRIDDEN (R104); one of an expert object sets it (R105). -/
def State.settleOverride (s : State) (key v : Nat) : State :=
  let replaced (k : Nat) : Bool := ((derived key v).any fun d => d.1 == k) ||
    (key / 256 == 0x2705 && v == 0 && k / 256 == 0x4710 + (key % 256 - 1))
  let s : State := { s with oap := { s.oap with shadow := s.oap.shadow.filter fun e => !replaced e.1 } }
  let s := (derived key v).foldl (fun s e => s.setObj e.1 e.2) s
  let s := if key / 256 = 0x2705 && v = 0 then
      (List.range 16).foldl (fun s r => s.setBlock (Obj.SP_RULE (key % 256 - 1) r) []) s else s
  let s := if derives key && s.oap.overridden.contains key then
      ({ s with oap := { s.oap with overridden := s.oap.overridden.filter (· != key) } } : State).sendEvent 5 0xFF 0 0 0 0 0
    else s
  match derivedBy key with
  | none => s
  | some b =>
    let o := s.oap.overridden
    ({ s with oap := { s.oap with overridden := if o.contains b then o else o ++ [b] } } : State).sendEvent 4 0xFF 0 key (key / 256) (key % 256) 0

/-! Writes that do more than store a value. -/

/-- UNIT_REQ (R124 to R132, R338, R339, R616, R654): its status. -/
def State.unitReqCheck (s : State) (u v : Nat) : Nat :=
  let cls := unitClass u
  let n := unitIndex u
  let hot := decide (0 < s.obj Obj.HOT_CACHE_KIB) && decide (s.hotBase < midBase + (n + 1) * 0x800000) &&
    decide (midBase + n * 0x800000 < 0x10003E00000)
  firstOf [need (decide (v < 4)) Sc.reservedNonzero,
    need (s.present u && s.unitSt u != .faulted) Sc.unitDisabled,
    need (!((cls == 7 || cls == 8 || cls == 10) && v == 0) && !(cls == 4 && v == 1) && !(cls == 9 && v < 2)) Sc.boundViolation,
    need (!(cls == 10 && v != 3 && (n == 7 || hot)) && !(cls == 9 && v == 3 && (s.region n).st != 2)) Sc.accessDenied]

/-- The target state a UNIT_REQ names. -/
def reqTarget (v : Nat) : UState := match v with | 0 => .off | 1 => .mews | 2 => .hooded | _ => .ready

/-- UNIT_REQ reaches the UCB; a unit that bring-up has not reached yet only keeps the stop (R60, R125). -/
def State.applyUnitReq (s : State) (u v : Nat) : State :=
  let s := s.setObj (Obj.UNIT_REQ (unitClass u) (unitIndex u)) v
  if s.available u then (s.ucbRequest u (reqTarget v) true).openPort u
  else s.setUcb u { s.ucb u with mgmtStop := v != 3 }

/-- FAULT_CLEAR (R758, Table 19.8): the answer's status, and the action. -/
def State.faultClear (s : State) (u : Nat) : Nat × State :=
  let ready (s : State) : State := s.enterReady u
  if !s.present u then (Sc.unitDisabled, s)
  else
    let cls := unitClass u
    if cls == 7 || cls == 8 || cls == 10 then (Sc.accessDenied, s)
    else if s.unitSt u != .faulted then (Sc.stateConflict, s)
    else if cls == 4 then (Sc.ok, ready s)
    else if cls == 9 then (if (s.region (unitIndex u)).st == 2 then (Sc.ok, ready s) else (Sc.accessDenied, s))
    else if cls == 6 then (Sc.ok, ((ready s).portOff (unitIndex u) 0).creanceStart (unitIndex u))
    else (Sc.ok, s.startTest u)

/-- The unit that TEST_REQUEST, TEST_FORCE and FAULT_CLEAR name; 201 where there is none. -/
def testUnit (v : Nat) : Nat :=
  if v / 256 < 12 && v % 256 < classCount (v / 256) then unitOf (v / 256) (v % 256) else 201

/-- ERR_INJECT (R772). -/
def State.applyErrInject (s : State) (v : Nat) : State :=
  if bit v 15 then s.raise (bits v 0 9) { test := true } else s

/-- COOLANT_INLET_DC is in use from the write on (R792, R794). -/
def State.applyInlet (s : State) (v : Nat) : State :=
  { s.setObj Obj.COOLANT_INLET_DC v with cool := { s.cool with inletInUse := sgn 32 v, fallback := false } }

/-- STAGE_HOLD: a stage lower than the current one takes effect at the next bring-up (R67). -/
def State.applyStageHold (s : State) (v : Nat) : State :=
  let s := s.setObj Obj.STAGE_HOLD v
  if v < s.stage then s else { s with sup := { s.sup with stageHold := v } }

/-- The effect of a checked write on what the object's chapter holds, and the answer's status: 0 where it is applied (R25). -/
def State.effect (s : State) (key v : Nat) (bs : List Byte) : Nat × State :=
  let i := key / 256
  let n := key % 256 - 1
  if i / 256 = 0x23 then (Sc.ok, s.applyUnitReq (unitOf (i % 256) n) v)
  else if i = 0x2401 then (Sc.ok, s.applyRole n v)
  else if key = Obj.SPARE_STATE then (Sc.ok, s.applySpareState v)
  else if key = Obj.EPOCH_MARK_MGMT then (Sc.ok, s.trigger v)
  else if i / 256 = 0x28 && 0x2820 ≤ i then (Sc.ok, s.applyUnitDomain (unitOf (i - 0x2820) n) v)
  else if key = Obj.STALL_SELECT then (Sc.ok, s.applyStallSelect v)
  else if key = Obj.STATS_SNAPSHOT then (Sc.ok, s.applyStatsSnapshot v)
  else if i = 0x2E00 then (Sc.ok, s.applyPhMaxRate n v)
  else if i = 0x2E80 then (Sc.ok, s.applyPhLinkEnable n v)
  else if key = Obj.COOLANT_INLET_DC then (Sc.ok, s.applyInlet v)
  else if key = Obj.STAGE_HOLD then (Sc.ok, s.applyStageHold v)
  else if key = Obj.RESET_REQUEST then (Sc.ok, if v = 0 then s else { s with sup := { s.sup with resetWaits := some v } })
  else if key = Obj.FAULT_INJECT then (Sc.ok, s.applyFaultInject v)
  else if key = Obj.VXT_EXC_INJECT then (Sc.ok, s.applyExcInject v)
  else if key = Obj.CAT_INJECT then (Sc.ok, s.applyCatInject v)
  else if 0x4710 ≤ i && i ≤ 0x4717 then s.ruleWrite (i - 0x4710) n (fieldLE bs 0 8) (fieldLE bs 8 8) (fieldLE bs 16 8)
  else if key = Obj.SP_INJECT then (Sc.ok, s.applySpInject v)
  else if key = Obj.POISON_INJECT then (Sc.ok, s.applyPoisonInject v)
  else if key = Obj.ECC_INJECT then (Sc.ok, s.applyEccInject v)
  else if key = Obj.CFG_INJECT then (Sc.ok, s.applyCfgInject v)
  else if i = 0x4E07 then (Sc.ok, s.applyPatternCtrl n v)
  else if i = 0x4E08 then (Sc.ok, s.setBlock key bs)
  else if i = 0x4E09 then (Sc.ok, s.applyLaneInject n v)
  else if key = Obj.ERR_N_CLEAR then (Sc.ok, if v = 1 then { s with safety := { s.safety with errN := false } } else s)
  else if key = Obj.TEST_REQUEST then s.requestTest (testUnit v) false
  else if key = Obj.TEST_FORCE then s.requestTest (testUnit v) true
  else if key = Obj.FAULT_CLEAR then s.faultClear (testUnit v)
  else if key = Obj.ERR_INJECT then (Sc.ok, s.applyErrInject v)
  else if key = Obj.EXPERT_KEY then (Sc.ok, { s with oap := { s.oap with key := bs, programs := s.oap.programs + 1 } })
  else if i / 16 = 0x800 then (Sc.ok, s.setBlock key bs)
  else (Sc.ok, s.setObj key v)

/-- A write takes effect: the object, what it derives and OVERRIDDEN. An older value in the shadow is gone. -/
def State.applyObj (s : State) (key : Nat) (bs : List Byte) : Nat × State :=
  let s : State := { s with oap := { s.oap with shadow := SMap.set 0 s.oap.shadow key 0 } }
  let r := s.effect key (ofLE bs) bs
  if r.1 < 0x10 then (r.1, r.2.settleOverride key (ofLE bs)) else r

/-! Staged values and profile sets. -/

/-- A value becomes pending, in place of an earlier one (R118, Table 0.9). -/
def State.stageValue (s : State) (key v : Nat) : State :=
  { s with oap := { s.oap with staged := SMap.set 0 s.oap.staged key (v + 1) } }

/-- The entries of a profile set: key, value bytes, padding, and whether it is whole (R122). -/
def profileEntries : Nat → List Byte → List (Nat × List Byte × List Byte × Bool)
  | 0, _ => []
  | fuel + 1, bs =>
    if bs.isEmpty then [] else
    let len := fieldLE bs 3 1
    let all := 4 * cdiv (4 + len) 4
    if bs.length < all then [(fieldLE bs 0 2 * 256 + fieldLE bs 2 1, [], [], false)]
    else (fieldLE bs 0 2 * 256 + fieldLE bs 2 1, (bs.drop 4).take len, (bs.take all).drop (4 + len), true) ::
      profileEntries fuel (bs.drop all)

/-- ENTRIES as a value holds them. -/
def entriesOf (bs : List Byte) : List (Nat × List Byte × List Byte × Bool) := profileEntries (bs.length + 1) bs

/-- The check of one entry (R122). -/
def State.entryCheck (s : State) (auth : Bool) (e : Nat × List Byte × List Byte × Bool) : Nat :=
  let pad := need (e.2.2.1.all (· == 0)) Sc.reservedNonzero
  if !e.2.2.2 then Sc.boundViolation
  else if e.2.1.isEmpty then pad
  else match objAt e.1 with
    | none => firstOf [pad, Sc.accessDenied]
    | some r => firstOf [pad, s.unitCheck e.1, need (e.2.1.length == r.ty.size) Sc.boundViolation, s.valueCheck e.1 r e.2.1,
        need (r.acc == .rws && (auth || !isExpert e.1)) Sc.accessDenied]

/-- PROFILE_APPLY (R123): the answer's status; LAST_APPLY records it. -/
def State.profileApply (s : State) (n : Nat) : Nat × State :=
  let es := (entriesOf (s.block (Obj.PROFILE_ENTRIES n))).filter fun e => !e.2.1.isEmpty
  let st := firstOf (es.map fun e => s.unitCheck e.1)
  let s := if st = 0 then es.foldl (fun s e => s.stageValue e.1 (ofLE e.2.1)) s else s
  (st, s.setObj (Obj.LAST_APPLY n) st)

/-! A whole value. -/

/-- Whether a write goes straight to its object although its unit sleeps: the keeper's shadow holds RW and RWS objects alone
(R80), and a WO object is an action and not a setting. -/
def actsAsleep (r : ORow) : Bool := r.acc == .wo

/-- The failures of a write of a whole value, without those of its framing. -/
def State.writeChecks (s : State) (t : Transport) (auth : Bool) (key : Nat) (r : ORow) (bs : List Byte) : List Nat :=
  let own := match t with | .can => Obj.CAN_ENABLE | .t1s => Obj.T1S_ENABLE | .mbx => Obj.MBX_ENABLE
  let size := need (r.ty.varSize || bs.length == r.ty.size) Sc.boundViolation
  [size, s.unitCheck key, if size = 0 then s.valueCheck key r bs else Sc.ok, s.writeRight key r auth,
   need (!(key == own && ofLE bs == 0)) Sc.accessDenied,
   if key / 256 / 256 = 0x23 then s.unitReqCheck (unitOf (key / 256 % 256) (key % 256 - 1)) (ofLE bs) else Sc.ok,
   if key / 4096 = 0x800 && key % 256 = 1 then firstOf ((entriesOf bs).map (s.entryCheck auth)) else Sc.ok]

/-- A checked write is carried out (R80, R82, R118): staged, kept in the shadow, left for the unit's next command-word boundary,
or applied and answered. A REPAIR_REQUEST is answered when it is programmed (R453). -/
def State.carryOut (s : State) (who : Asker) (key : Nat) (r : ORow) (bs : List Byte) : State :=
  let v := ofLE bs
  let now (s : State) : State := let x := s.applyObj key bs; x.2.answer who x.1
  if key = Obj.PROFILE_APPLY then let x := s.profileApply v; x.2.answer who x.1
  else if key / 256 = 0x4410 then s.startRepair (key % 256 - 1) v (some who)
  else match keyHome key with
    | none => if r.acc == .rws then (s.stageValue key v).answer who Sc.ok else now s
    | some u =>
      if actsAsleep r then now s
      else if s.sleeps u then
        (({ s with oap := { s.oap with shadow := SMap.set 0 s.oap.shadow key (v + 1) } } : State).settleOverride key v).answer who Sc.ok
      else if r.acc == .rws then (s.stageValue key v).answer who Sc.ok
      else { s with oap := { s.oap with waiting := s.oap.waiting ++
          [{ t := who.1, src := who.2.1, unit := u, key := key, value := BitVec.ofNat 64 v, bytes := bs, header := who.2.2 }] } }

end Sys2Proof.Machine
end

