-- ==== Sys2Proof/Machine/Transport.lean ====
section
/-!
DEFINITION. The object access protocol (R83 to R123, R133 to R138): requests arrive and wait, the keeper executes one at a
time, and expert sessions.
-/
namespace Sys2Proof.Machine

/-! Requests. -/

/-- A request PDU (Table 3.3). `short` says that the frame lacks bytes its fields name (R97). -/
structure Req where
  svc : Nat
  key : Nat
  flags : Nat
  off : Nat
  len : Nat
  total : Nat
  hdr : List Byte
  value : List Byte
  tag : List Byte
  short : Bool
deriving DecidableEq, Repr

/-- Services that carry a request value (Table 3.4). -/
def svcCarries (svc : Nat) : Bool := svc == 2 || svc == 6 || svc == 7

/-- A request's fields (Table 3.3). LENGTH of a service without a value is the bytes wanted, and counts neither in the frame nor in
the tag's place (R97; DEDUCED, log 49). -/
def parseReq (bs : List Byte) : Req :=
  let svc := fieldLE bs 0 1
  let flags := fieldLE bs 5 1
  let len := fieldLE bs 8 2
  let n := if svcCarries svc then len else 0
  { svc := svc, key := fieldLE bs 2 2 * 256 + fieldLE bs 4 1, flags := flags, off := fieldLE bs 6 2, len := len
    total := fieldLE bs 10 2, hdr := padTo 12 bs, value := padTo n (bs.drop 12), tag := padTo 8 (bs.drop (12 + n))
    short := decide (bs.length < 12 + n + (if bit flags 0 then 8 else 0)) }

def Req.auth (r : Req) : Bool := bit r.flags 0

/-- The largest value one PDU carries (Table 3.6, R98, R102). -/
def maxValue (t : Transport) (auth : Bool) : Nat :=
  match t with
  | .can => if auth then 44 else 52
  | .t1s => 1024
  | .mbx => if auth then 2028 else 2036

/-- Failures of the frame itself: checks 2 and 4 of R85 that need no object. -/
def Req.frameChecks (r : Req) (t : Transport) : List Nat :=
  [need (r.flags < 2) Sc.reservedNonzero,
   need (!r.short && decide (r.len ≤ maxValue t r.auth) && (r.total == 0 || r.svc == 2)) Sc.boundViolation]

/-! The rows that execute a write of their own object. -/

inductive Own where
  | resetRequest | expertKey | profileApply | unitReq | deviceId | deviceIdLock | powerCap | stallSelect | poisonInject
  | logEntries | readSeq | snapshot | snapshotClear | eccInject | mxtRole | understudy | repair | faultInject | mxtClk
  | excInject | hotCache | epochMark | edSource | unitDomain | catInject | spRule | spInject | cfgInject | fpCtx
  | linkEnable | pattern | laneInject | devRoute | errNClear | errInject | testRequest | testForce | faultClear | coolant
deriving DecidableEq, Repr

/-- The row of an object's writes, where it has one of its own. -/
def ownOf (key : Nat) (value : List Byte) : Option Own :=
  let i := key / 256
  if key % 256 = 0 then none
  else if key = Obj.RESET_REQUEST then some .resetRequest
  else if key = Obj.EXPERT_KEY then some .expertKey
  else if key = Obj.PROFILE_APPLY then some .profileApply
  else if 0x2300 ≤ i && i ≤ 0x230B then some .unitReq
  else if key = Obj.DEVICE_ID then some .deviceId
  else if key = Obj.DEVICE_ID_LOCK then some .deviceIdLock
  else if key = Obj.POWER_CAP then some .powerCap
  else if key = Obj.STALL_SELECT then some .stallSelect
  else if key = Obj.POISON_INJECT then some .poisonInject
  else if key = Obj.PELLET_LOG_ENTRIES then some .logEntries
  else if key = Obj.PELLET_READ_SEQ then some .readSeq
  else if key = Obj.STATS_SNAPSHOT then some (if ofLE value = 2 then .snapshotClear else .snapshot)
  else if key = Obj.ECC_INJECT then some .eccInject
  else if i = 0x2401 then some .mxtRole
  else if i = 0x2402 then some .understudy
  else if i = 0x4410 then some .repair
  else if key = Obj.FAULT_INJECT then some .faultInject
  else if key = Obj.MXT_CLK_LIMIT then some .mxtClk
  else if key = Obj.VXT_EXC_INJECT then some .excInject
  else if i = 0x2801 then some .hotCache
  else if key = Obj.EPOCH_MARK_MGMT then some .epochMark
  else if i = 0x2810 || i = 0x2811 then some .edSource
  else if 0x2820 ≤ i && i ≤ 0x282B then some .unitDomain
  else if key = Obj.CAT_INJECT then some .catInject
  else if 0x4710 ≤ i && i ≤ 0x4717 then some .spRule
  else if key = Obj.SP_INJECT then some .spInject
  else if key = Obj.CFG_INJECT then some .cfgInject
  else if i = 0x2D01 then some .fpCtx
  else if i = 0x2E80 then some .linkEnable
  else if i = 0x4E07 then some .pattern
  else if i = 0x4E09 then some .laneInject
  else if i = 0x2E81 || i = 0x2E82 then some .devRoute
  else if key = Obj.ERR_N_CLEAR then some .errNClear
  else if key = Obj.ERR_INJECT then some .errInject
  else if key = Obj.TEST_REQUEST then some .testRequest
  else if key = Obj.TEST_FORCE then some .testForce
  else if key = Obj.FAULT_CLEAR then some .faultClear
  else if key = Obj.COOLANT_INLET_DC then some .coolant
  else none

/-- The kinds of request the keeper executes (Table 3.4). -/
inductive OapKind where
  | read | write | readPending | discardPending | describe | sessionOpen | sessionProve | sessionClose | undefined
  | own (o : Own)
deriving DecidableEq, Repr

def Req.kind (r : Req) : OapKind :=
  match r.svc with
  | 1 => .read
  | 2 => (match ownOf r.key r.value with | some o => .own o | none => .write)
  | 3 => .readPending
  | 4 => .discardPending
  | 5 => .describe
  | 6 => .sessionOpen
  | 7 => .sessionProve
  | 8 => .sessionClose
  | _ => .undefined

/-! Sessions (R109 to R116). -/

/-- The transport byte T. -/
def transportByte : Transport → Nat
  | .can => 1 | .t1s => 2 | .mbx => 3

def State.setSess (s : State) (t : Transport) (x : Session) : State := s.setPort t { s.port t with sess := x }

/-- An open session closes, with its event (R116, Table 3.11). -/
def State.closeSession (s : State) (t : Transport) : State :=
  let x := (s.port t).sess
  if x.isOpen then (s.setSess t { x with isOpen := false, ks := [], ctr := 0 }).sendEvent 7 0xFF 0 (transportByte t) 0 0 0 else s

/-- Whether the tag of a request verifies (R114). -/
def State.tagOk (s : State) (t : Transport) (r : Req) : Bool :=
  let x := (s.port t).sess
  r.auth && x.isOpen && (Hash.hmac x.ks (leBytes 4 x.ctr ++ r.hdr ++ r.value)).take 8 == r.tag

/-- What the tag of a request leaves, once checks 1 to 4 of R85 have given `st`: a verified one advances the counter, a
mismatch closes the session (R114, R115). A request that fails an earlier check never comes to its tag. -/
def State.settleTag (s : State) (t : Transport) (r : Req) (ok : Bool) (st : Nat) : State :=
  let x := (s.port t).sess
  if !r.auth || (st != 0 && failRank st < 5) || !x.isOpen then s
  else if ok then s.setSess t { x with ctr := (x.ctr + 1) % 2 ^ 32 }
  else (s.bump Obj.AUTH_FAILS).closeSession t

/-- The tag is settled and the request answered. -/
def State.finish (s : State) (t : Transport) (who : Asker) (r : Req) (ok : Bool) (st : Nat) (value : List Byte := [])
    (total : Nat := 0) : State :=
  (s.settleTag t r ok st).answer who st value total

/-- Check 5 for an authenticated request whose tag fails. -/
def Req.tagCheck (r : Req) (ok : Bool) : Nat := need (!r.auth || ok) Sc.accessDenied

/-- No challenge is outstanding any more. -/
def State.dropChallenge (s : State) (t : Transport) : State := s.setSess t { (s.port t).sess with challenge := none }

/-- SESSION_OPEN (R109, R111 to R113, R115). A refused one leaves no challenge. One that passes the checks before the access right
closes an open session first, whatever the answer (R113); a generator that is not ready refuses it before that (R112). The
rules do not say which INDEX and SUBINDEX the session services carry, and the model reads neither (DESIGN CHOICE, log 43). -/
def State.sessionOpen (s : State) (t : Transport) (who : Asker) (r : Req) : State :=
  let ok := s.tagOk t r
  let early := firstOf (r.frameChecks t ++ [need s.drbgUp Sc.unitDisabled, need (r.len == 16 && r.off == 0) Sc.boundViolation])
  if early ≠ 0 then (s.dropChallenge t).answer who early
  else
    let s := s.settleTag t r ok 0
    if r.auth && !ok then (s.dropChallenge t).answer who Sc.accessDenied else
    let s := s.closeSession t
    if s.oap.key.isEmpty || (s.port t).sess.locked then (s.dropChallenge t).answer who Sc.accessDenied else
    let d := s.drawBytes 16
    let s := d.2.drbgUse 1
    let y := (s.port t).sess
    (s.setSess t { y with challenge := some (d.1, r.value), challengeNs := s.timeNs }).answer who Sc.ok d.1

/-- SESSION_PROVE (R109 to R111, R115). One whose own tag does not verify is answered as R115 says and its challenge stays. -/
def State.sessionProve (s : State) (t : Transport) (who : Asker) (r : Req) : State :=
  let x := (s.port t).sess
  let early := firstOf (r.frameChecks t ++ [need (r.len == 32 && r.off == 0) Sc.boundViolation])
  let byte := leBytes 1 (transportByte t)
  let ok := s.tagOk t r
  if early ≠ 0 then s.answer who early
  else if r.auth && !ok then (s.settleTag t r ok 0).answer who Sc.accessDenied
  else match x.challenge with
    | some (nd, nc) =>
      if decide (s.timeNs ≤ x.challengeNs + 1000000000) && Hash.hmac s.oap.key (ascii "OAPC" ++ byte ++ nd ++ nc) == r.value then
        let y : Session := { x with
          isOpen := true, ks := Hash.hmac s.oap.key (ascii "OAPS" ++ nd ++ nc), ctr := 1, challenge := none, fails := 0 }
        ((s.setSess t y).bump Obj.SESSIONS_OPENED).answer who Sc.ok (Hash.hmac s.oap.key (ascii "OAPD" ++ byte ++ nc ++ nd))
      else failed s x
    | none => failed s x
where
  /-- A failed proof; after PROVE_LIMIT of them in a row SESSION_OPEN is locked out. -/
  failed (s : State) (x : Session) : State :=
    let n := x.fails + 1
    let lock := decide (s.obj Obj.PROVE_LIMIT ≤ n)
    ((s.setSess t { x with challenge := none, fails := if lock then 0 else n, locked := x.locked || lock }).bump Obj.AUTH_FAILS).answer
      who Sc.accessDenied

/-! Services on objects. -/

/-- READ (R86, R87, R91, R92). At the end of the snapshot no bytes are left, and that is OK (DESIGN CHOICE, log 49). -/
def State.serveRead (s : State) (t : Transport) (who : Asker) (r : Req) (pre : List Nat) (ok : Bool) : State :=
  let p := s.port t
  match objAt r.key with
  | none => s.finish t who r ok (firstOf (pre ++ [Sc.accessDenied]))
  | some o =>
    let pre := pre ++ [s.unitCheck r.key]
    let st := firstOf pre
    if r.len = 0 then s.finish t who r ok (if st = 0 then Sc.okEmpty else st) [] (if st = 0 then (s.readObj r.key o).1.length else 0)
    else if !o.ty.varSize then
      let st := firstOf (pre ++ [need (r.off == 0 && decide (o.ty.size ≤ r.len)) Sc.boundViolation])
      if st ≠ 0 then s.finish t who r ok st
      else
        let v := s.readObj r.key o
        (v.2.setPort t { p with snap := none }).finish t who r ok Sc.ok v.1 v.1.length
    else if r.off = 0 then
      if st ≠ 0 then s.finish t who r ok st
      else
        let v := s.readObj r.key o
        (v.2.setPort t { p with snap := some (r.key, v.1) }).finish t who r ok Sc.ok (v.1.take r.len) v.1.length
    else
      match p.snap with
      | some (k, b) =>
        let st := firstOf (pre ++ [need (k == r.key && decide (r.off ≤ b.length)) Sc.boundViolation])
        if st ≠ 0 then s.finish t who r ok st else s.finish t who r ok Sc.ok ((b.drop r.off).take r.len) b.length
      | none => s.finish t who r ok (firstOf (pre ++ [Sc.boundViolation]))

/-- A segmented write is given up (R90). -/
def State.dropSegment (s : State) (t : Transport) (count : Bool) : State :=
  if (s.port t).seg.isSome then
    let s := s.setPort t { s.port t with seg := none }
    if count then s.bump Obj.SEG_DISCARDS else s
  else s

/-- A whole value has arrived: its checks, then its effect (R85, R88). -/
def State.wholeWrite (s : State) (t : Transport) (who : Asker) (r : Req) (pre : List Nat) (ok auth : Bool) (o : ORow)
    (bs : List Byte) : State :=
  let st := firstOf (pre ++ s.writeChecks t auth r.key o bs)
  let s := s.settleTag t r ok st
  if st ≠ 0 then s.answer who st else s.carryOut who r.key o bs

/-- WRITE (R86 to R90). A segment without bytes of a value that has some is refused (DESIGN CHOICE, log 49). -/
def State.serveWrite (s : State) (t : Transport) (who : Asker) (r : Req) (pre : List Nat) (ok : Bool) : State :=
  let end_ (s : State) (st : Nat) : State := s.finish t who r ok st
  match objAt r.key with
  | none =>
    end_ (if r.off = 0 && r.total ≠ 0 then s.dropSegment t true else s) (firstOf (pre ++ [Sc.accessDenied]))
  | some o =>
    let right := s.writeRight r.key o ok
    let sized := if o.ty.varSize then decide (r.total ≤ o.maxBytes) && (!o.isFixed || r.total == o.maxBytes)
      else r.off == 0 && r.len == o.ty.size && r.total == o.ty.size
    if r.total = 0 then
      let st := firstOf (pre ++ [s.unitCheck r.key, need (r.len == 0) Sc.boundViolation, right])
      end_ s (if st = 0 then Sc.okEmpty else st)
    else
      let pre := pre ++ [need (sized && decide (r.off + r.len ≤ r.total)) Sc.boundViolation]
      if r.off = 0 then
        let s := s.dropSegment t true
        if r.len = r.total || !o.ty.varSize then s.wholeWrite t who r pre ok ok o r.value
        else
          let st := firstOf (pre ++ [need (r.len != 0) Sc.boundViolation, s.unitCheck r.key, right])
          let s := if st = 0 then s.setPort t { s.port t with seg := some { key := r.key, total := r.total, auth := ok, buf := r.value } } else s
          end_ s st
      else
        match (s.port t).seg with
        | none => end_ s (firstOf (pre ++ [s.unitCheck r.key, Sc.boundViolation]))
        | some g =>
          let st := firstOf (pre ++ [s.unitCheck r.key,
            need (g.key == r.key && g.total == r.total && g.buf.length == r.off && r.len != 0) Sc.boundViolation])
          let buf := g.buf ++ r.value
          if st ≠ 0 then end_ (s.dropSegment t false) st
          else if buf.length < g.total then end_ (s.setPort t { s.port t with seg := some { g with buf := buf } }) 0
          else (s.dropSegment t false).wholeWrite t who r pre ok g.auth o buf

/-- READ_PENDING (R119). -/
def State.servePending (s : State) (t : Transport) (who : Asker) (r : Req) (pre : List Nat) (ok : Bool) : State :=
  match objAt r.key with
  | none => s.finish t who r ok (firstOf (pre ++ [Sc.accessDenied]))
  | some o =>
    let st := firstOf (pre ++ [s.unitCheck r.key, need (r.off == 0 && decide (o.ty.size ≤ r.len)) Sc.boundViolation,
      need (o.acc == .rws) Sc.accessDenied])
    if st ≠ 0 then s.finish t who r ok st
    else match SMap.get 0 s.oap.staged r.key with
      | 0 => s.finish t who r ok Sc.okEmpty
      | v + 1 => s.finish t who r ok Sc.ok (leBytes o.ty.size v) o.ty.size

/-- DISCARD_PENDING (R119, R120). -/
def State.serveDiscard (s : State) (t : Transport) (who : Asker) (r : Req) (pre : List Nat) (ok : Bool) : State :=
  let end_ (s : State) (st : Nat) : State := s.finish t who r ok st
  match objAt r.key with
  | none => end_ s (firstOf (pre ++ [Sc.accessDenied]))
  | some o =>
    let st := firstOf (pre ++ [s.unitCheck r.key, need (r.off == 0 && r.len == 0) Sc.boundViolation,
      need (o.acc == .rws && (ok || !isExpert r.key)) Sc.accessDenied])
    if st ≠ 0 then end_ s st
    else if s.isPending r.key then
      end_ { s with oap := { s.oap with staged := SMap.set 0 s.oap.staged r.key 0 } } Sc.ok
    else end_ s Sc.okEmpty

/-- DESCRIBE (Table 3.5). -/
def State.serveDescribe (s : State) (t : Transport) (who : Asker) (r : Req) (pre : List Nat) (ok : Bool) : State :=
  match objAt r.key with
  | none => s.finish t who r ok (firstOf (pre ++ [Sc.accessDenied]))
  | some o =>
    let st := firstOf (pre ++ [s.unitCheck r.key, need (r.off == 0 && decide (32 ≤ r.len)) Sc.boundViolation])
    if st ≠ 0 then s.finish t who r ok st else s.finish t who r ok Sc.ok (s.describe r.key o)

/-- SESSION_CLOSE (R115, R116). -/
def State.serveClose (s : State) (t : Transport) (who : Asker) (r : Req) (pre : List Nat) (ok : Bool) : State :=
  let st := firstOf (pre ++ [need (r.off == 0 && r.len == 0) Sc.boundViolation, need ok Sc.accessDenied])
  let s := s.settleTag t r ok st
  (if st = 0 then s.closeSession t else s).answer who st

/-- Execute a request. -/
def State.execute (s : State) (t : Transport) (who : Asker) (r : Req) : State :=
  let ok := s.tagOk t r
  let pre := r.frameChecks t ++ [r.tagCheck ok]
  match r.kind with
  | .read => s.serveRead t who r pre ok
  | .readPending => s.servePending t who r pre ok
  | .describe => s.serveDescribe t who r pre ok
  | .discardPending => s.serveDiscard t who r pre ok
  | .sessionOpen => s.sessionOpen t who r
  | .sessionProve => s.sessionProve t who r
  | .sessionClose => s.serveClose t who r pre ok
  | .undefined => s.answer who Sc.illegalOp
  | .write => s.serveWrite t who r pre ok
  | .own _ => s.serveWrite t who r pre ok

/-! The keeper's queues (R93 to R95). -/

def transportIndex : Transport → Nat
  | .can => 0 | .t1s => 1 | .mbx => 2

/-- A transport takes requests: from S1, while its enable is in effect (R112, R135). -/
def State.enabled (s : State) (t : Transport) : Bool :=
  decide (1 ≤ s.stage) && !s.sup.coldReset && !s.sup.keeperHeld &&
  s.inEffect (match t with | .can => Obj.CAN_ENABLE | .t1s => Obj.T1S_ENABLE | .mbx => Obj.MBX_ENABLE) == 1

/-- The transport whose request the keeper takes next, in turn. -/
def State.nextTransport (s : State) : Option Transport :=
  let order : List Transport := match s.oap.turn with
    | 0 => [.can, .t1s, .mbx]
    | 1 => [.t1s, .mbx, .can]
    | _ => [.mbx, .can, .t1s]
  order.find? fun t => s.enabled t && !(s.port t).queue.isEmpty

/-- Take and execute the request at the head of a transport's queue, where it is this row's. The keeper has no other request in
hand: a write that waits for its unit holds it (R82, R93). -/
def State.serve (s : State) (t : Transport) (k : OapKind) : Res :=
  match (s.port t).queue with
  | [] => .next s
  | q :: rest =>
    let r := parseReq q.bytes
    occ (s.oap.waiting.isEmpty && s.nextTransport == some t && r.kind == k) s <|
      let s := s.setPort t { s.port t with queue := rest }
      let s : State := { s with oap := { s.oap with turn := (transportIndex t + 1) % 3 } }
      (s.bump Obj.OAP_REQUESTS).execute t (t, q.src, r.hdr) r

def execOapRead (t : Transport) (s : State) : Res := s.serve t .read
def execOapWrite (t : Transport) (s : State) : Res := s.serve t .write
def execOapReadPending (t : Transport) (s : State) : Res := s.serve t .readPending
def execOapDiscardPending (t : Transport) (s : State) : Res := s.serve t .discardPending
def execOapDescribe (t : Transport) (s : State) : Res := s.serve t .describe
def execSessionOpen (t : Transport) (s : State) : Res := s.serve t .sessionOpen
def execSessionProve (t : Transport) (s : State) : Res := s.serve t .sessionProve
def execSessionClose (t : Transport) (s : State) : Res := s.serve t .sessionClose
def execOapUndefinedService (t : Transport) (s : State) : Res := s.serve t .undefined

def execResetRequest (t : Transport) (s : State) : Res := s.serve t (.own .resetRequest)
def execExpertKey (t : Transport) (s : State) : Res := s.serve t (.own .expertKey)
def execProfileApply (t : Transport) (s : State) : Res := s.serve t (.own .profileApply)
def execUnitReq (t : Transport) (s : State) : Res := s.serve t (.own .unitReq)
def execDeviceIdWrite (t : Transport) (s : State) : Res := s.serve t (.own .deviceId)
def execDeviceIdLock (t : Transport) (s : State) : Res := s.serve t (.own .deviceIdLock)
def execPowerCapWrite (t : Transport) (s : State) : Res := s.serve t (.own .powerCap)
def execStallSelect (t : Transport) (s : State) : Res := s.serve t (.own .stallSelect)
def execPoisonInject (t : Transport) (s : State) : Res := s.serve t (.own .poisonInject)
def execPelletLogEntriesWrite (t : Transport) (s : State) : Res := s.serve t (.own .logEntries)
def execPelletReadSeqWrite (t : Transport) (s : State) : Res := s.serve t (.own .readSeq)
def execStatsSnapshot (t : Transport) (s : State) : Res := s.serve t (.own .snapshot)
def execStatsSnapshotClear (t : Transport) (s : State) : Res := s.serve t (.own .snapshotClear)
def execEccInject (t : Transport) (s : State) : Res := s.serve t (.own .eccInject)
def execMxtRole (t : Transport) (s : State) : Res := s.serve t (.own .mxtRole)
def execUnderstudy (t : Transport) (s : State) : Res := s.serve t (.own .understudy)
def execRepairRequest (t : Transport) (s : State) : Res := s.serve t (.own .repair)
def execFaultInject (t : Transport) (s : State) : Res := s.serve t (.own .faultInject)
def execMxtClkLimit (t : Transport) (s : State) : Res := s.serve t (.own .mxtClk)
def execVxtExcInject (t : Transport) (s : State) : Res := s.serve t (.own .excInject)
def execHotCacheKib (t : Transport) (s : State) : Res := s.serve t (.own .hotCache)
def execEpochMarkMgmt (t : Transport) (s : State) : Res := s.serve t (.own .epochMark)
def execEdSourceWrite (t : Transport) (s : State) : Res := s.serve t (.own .edSource)
def execUnitDomainWrite (t : Transport) (s : State) : Res := s.serve t (.own .unitDomain)
def execCatInject (t : Transport) (s : State) : Res := s.serve t (.own .catInject)
def execSpRuleWrite (t : Transport) (s : State) : Res := s.serve t (.own .spRule)
def execSpInject (t : Transport) (s : State) : Res := s.serve t (.own .spInject)
def execCfgInject (t : Transport) (s : State) : Res := s.serve t (.own .cfgInject)
def execFpCtxWrite (t : Transport) (s : State) : Res := s.serve t (.own .fpCtx)
def execPhLinkEnable (t : Transport) (s : State) : Res := s.serve t (.own .linkEnable)
def execPatternCtrl (t : Transport) (s : State) : Res := s.serve t (.own .pattern)
def execLaneInject (t : Transport) (s : State) : Res := s.serve t (.own .laneInject)
def execDevRouteWrite (t : Transport) (s : State) : Res := s.serve t (.own .devRoute)
def execErrNClear (t : Transport) (s : State) : Res := s.serve t (.own .errNClear)
def execErrInject (t : Transport) (s : State) : Res := s.serve t (.own .errInject)
def execTestRequest (t : Transport) (s : State) : Res := s.serve t (.own .testRequest)
def execTestForce (t : Transport) (s : State) : Res := s.serve t (.own .testForce)
def execFaultClear (t : Transport) (s : State) : Res := s.serve t (.own .faultClear)
def execCoolantInletWrite (t : Transport) (s : State) : Res := s.serve t (.own .coolant)

/-! Arrival. -/

/-- A request joins its queue of four, of which the one in hand counts, or is answered OVERRUN (R94). -/
def State.enqueue (s : State) (t : Transport) (src : Nat) (bs : List Byte) : State :=
  let p := s.port t
  if p.queue.length + (s.oap.waiting.filter fun w => w.t == t).length < 4 then
    s.setPort t { p with queue := p.queue ++ [{ bytes := bs, src := src }] }
  else (s.bump Obj.OAP_OVERRUNS).answer (t, src, padTo 12 bs) Sc.overrun

/-- CAN_REQUEST_RX (R96): only FD data frames in base format on the request identifier. -/
def execCanRequestRx (f : CanFrame) (s : State) : Res :=
  occ (s.enabled .can && !f.extended && f.ident == 0x400 + s.inEffect Obj.CAN_NODE_ID) s <|
    if !f.fd || f.remote then s.bump Obj.CAN_IGNORED else s.enqueue .can 0 (f.data.take 64)

/-- T1S_REQUEST_RX (R98, R99): frames to this station from an accepted source. -/
def execT1sRequestRx (f : EthFrame) (s : State) : Res :=
  let own := s.obj Obj.MAC_ADDRESS
  let client := s.inEffect Obj.CLIENT_MAC
  occ (s.enabled .t1s && f.etherType == s.inEffect Obj.OAP_ETHERTYPE && f.dst == own && !bit f.dst 40 &&
      (client == 0 || f.src == client)) s <|
    (s.setPort .t1s { s.port .t1s with lastSrc := some f.src }).enqueue .t1s f.src f.payload

/-- MBX_REQ_GO (R103): the PDU in MBX_REQ is submitted. -/
def State.mbxGo (s : State) : State :=
  if s.oap.mbxBusy || s.oap.mbxRspValid then s.bump Obj.OAP_OVERRUNS
  else if !s.enabled .mbx then s
  else
    let bs := (List.range 2048).map fun i => SMap.get 0 s.oap.mbxReq i
    let p := s.port .mbx
    ({ s with oap := { s.oap with mbxBusy := true } } : State).setPort .mbx { p with queue := p.queue ++ [{ bytes := bs, src := 0 }] }

def execMbxReqGo (s : State) : Res := s.inOrder 0 (.bar0Write 0x10000 4 1) <| occ (s.hostUp && s.fnAnswers 0) s s.mbxGo

/-- MBX_RSP_CLEAR: a write of 1 to RSP_VALID (Table 3.8). -/
def State.mbxRspClear (s : State) : State := { s with oap := { s.oap with mbxRspValid := false } }
def execMbxRspClear (s : State) : Res := s.inOrder 0 (.bar0Write 0x10000 4 2) <| occ (s.hostUp && s.fnAnswers 0) s s.mbxRspClear

/-- MBX_EVT_CLEAR: a write of 1 to EVT_VALID advances the queue, and the next event raises the vector again (R103). -/
def State.mbxEvtClear (s : State) : State :=
  match s.oap.evtQ with
  | [] => s
  | _ :: rest =>
    let s : State := { s with oap := { s.oap with evtQ := rest } }
    if rest.isEmpty then s else s.raiseVector 0 0

def execMbxEvtClear (s : State) : Res := s.inOrder 0 (.bar0Write 0x10000 4 4) <| occ (s.hostUp && s.fnAnswers 0) s s.mbxEvtClear

/-! Timers. -/

/-- SEGMENT_TIMEOUT (R90). -/
def execSegmentTimeout (t : Transport) (s : State) : Res := .next (s.dropSegment t true)

/-- SNAPSHOT_EXPIRY (R91). -/
def execSnapshotExpiry (t : Transport) (s : State) : Res := .next (s.setPort t { s.port t with snap := none })

/-- SESSION_IDLE_TIMEOUT (R116). -/
def execSessionIdleTimeout (t : Transport) (s : State) : Res := .next (s.closeSession t)

/-- LOCKOUT_EXPIRY (R111). -/
def execLockoutExpiry (t : Transport) (s : State) : Res := .next (s.setSess t { (s.port t).sess with locked := false })

/-- TRANSPORT_CONFIG_APPLY (R135): 10 ms after its write an object of 0x1100 to 0x11FF takes effect. -/
def execTransportConfigApply (key : Nat) (s : State) : Res :=
  occ (decide (0x110000 ≤ key) && decide (key < 0x120000) && (objRow key).isSome) s
    { s with oap := { s.oap with
        inEffect := SMap.set (BitVec.ofNat 64 (objDefault s.variant key)) s.oap.inEffect key (BitVec.ofNat 64 (s.obj key)) } }

/-! Unit-homed writes and the keeper's mirror. -/

/-- A waiting write reaches its unit's boundary: what it names is checked again there, and it is applied and answered (R82). A
unit that has gone to sleep meanwhile takes it through the shadow (R80). -/
def State.unitApply (s : State) (w : UnitWrite) : State :=
  let s : State := { s with oap := { s.oap with waiting := s.oap.waiting.filter fun x => x != w } }
  let who : Asker := (w.t, w.src, w.header)
  match objAt w.key with
  | none => s.answer who Sc.accessDenied
  | some o =>
    let st := firstOf [s.unitCheck w.key, s.valueCheck w.key o w.bytes]
    if st ≠ 0 then s.answer who st
    else if s.sleeps w.unit then s.carryOut who w.key o w.bytes
    else let x := s.applyObj w.key w.bytes; x.2.answer who x.1

/-- UNIT_OBJECT_APPLY: between two rows every sequencer stands at a command-word boundary. -/
def execUnitObjectApply (unit : Nat) (s : State) : Res :=
  match s.oap.waiting.find? fun w => w.unit == unit with
  | none => .next s
  | some w => .next (s.unitApply w)

/-- The unit whose mirrored state a fault has changed since the comparison before, a free value: below 201 a unit, else none. -/
def State.upsetUnit (s : State) : Nat := (Config.freeWord s.freeCtr).toNat % 256

/-- What a fault has made of the mirror since the comparison before: no step of the device makes it differ from the UCBs (DESIGN
CHOICE, log 1). -/
def State.upsetMirror (s : State) : State :=
  let mirror := if s.upsetUnit < 201 then SMap.set 0 s.oap.mirror s.upsetUnit ((Config.freeWord s.freeCtr).toNat / 256 % 8) else s.oap.mirror
  { s with freeCtr := s.freeCtr + 1, oap := { s.oap with mirror := mirror } }

/-- UCB_MIRROR_COMPARE (R131): the first time each difference is seen is kept, and a difference that is gone is forgotten. -/
def execUcbMirrorCompare (s : State) : Res :=
  let s : State := if s.stage = 0 then s else s.upsetMirror
  let differs (u : Nat) : Bool := SMap.get 0 s.oap.mirror u != (s.unitSt u).code
  let m := (List.range 201).foldl (fun m u =>
    if !differs u then SMap.set 0 m u 0 else if SMap.get 0 m u = 0 then SMap.set 0 m u (s.timeNs + 1) else m) s.oap.mirrorDiff
  occ (decide (1 ≤ s.stage)) s { s with oap := { s.oap with mirrorDiff := m } }

/-- STATE_DIVERGENCE (R131, Table 3.14): a difference has lasted 1 ms; the unit is FAULTED. -/
def execStateDivergence (unit : Nat) (s : State) : Res :=
  let since := SMap.get 0 s.oap.mirrorDiff unit
  occ (decide (1 ≤ s.stage) && s.present unit && since != 0 && s.passed (since - 1) 1000000 &&
      SMap.get 0 s.oap.mirror unit != (s.unitSt unit).code) s <|
    let s := s.raise (Es.stateDivergence unit)
      { oClass := unitClass unit, oIndex := unitIndex unit, status := Sc.internalFault, cls := unitClass unit, sub := unitIndex unit + 1 }
    s.setUcb unit { s.ucb unit with st := .faulted, target := none }

end Sys2Proof.Machine
end

