-- ==== Sys2Proof/Machine/HostRegs.lean ====
section
/-!
DEFINITION. BAR0 registers as a whole: writes that have no row of their own, accesses that cover part of a register or two of
them, reads (R101, R103, R143, R144, R150, R152, R180, Tables 3.7, 3.8, 4.3 to 4.5), and host accesses that wait (R391).
-/
namespace Sys2Proof.Machine

/-- The state a register write leaves. -/
def after (s : State) (r : Res) : State := match r with | .next t => t | _ => s

/-! Ring pages (Table 4.5). -/

/-- SQ_CTRL: requests that exclude each other are reserved encodings (R167 to R170). -/
def State.sqCtrlWrite (s : State) (fn n v : Nat) : State :=
  let reset := bits v 0 2
  let pr := bits v 2 2
  if v / 16 ≠ 0 || pr = 3 || (pr ≠ 0 && reset ≠ 0) then after s (s.ringWrite fn n 0x1C [(true, Sc.reservedNonzero)] id)
  else if pr = 1 then after s (execPause fn n s)
  else if pr = 2 then after s (execResume fn n s)
  else if reset = 2 then after s (execResetCq fn n s)
  else if reset = 0 then s
  else after s (execResetSq fn n (reset == 3) s)

/-- SQ_BASE and CQ_BASE (R152). -/
def State.sqBaseWrite (s : State) (fn n v : Nat) : State :=
  after s (s.ringWrite fn n 0 [(bits v 0 6 != 0, Sc.reservedNonzero), ((s.ring n).st != .disabled, Sc.accessDenied)]
    fun s => s.setRing n { s.ring n with sqBase := v })

def State.cqBaseWrite (s : State) (fn n v : Nat) : State :=
  after s (s.ringWrite fn n 0x20 [(bits v 0 6 != 0, Sc.reservedNonzero), (bit (s.ring n).cqCfg 63, Sc.accessDenied)]
    fun s => s.setRing n { s.ring n with cqBase := v })

/-- A 32-bit register of a ring page. The RO registers keep their values (R9). -/
def State.ringWrite4 (s : State) (fn n o v : Nat) : State :=
  match o with
  | 0x10 => after s (execSqDoorbell fn n v s)
  | 0x1C => s.sqCtrlWrite fn n v
  | 0x30 => after s (execCqHeadWrite fn n v s)
  | _ => s

/-- The 64-bit registers of a ring page: their value, and a write. -/
def State.ringReg8 (s : State) (n o : Nat) : Option Nat :=
  let r := s.ring n
  match o with
  | 0 => some r.sqBase
  | 8 => some r.sqCfg
  | 0x20 => some r.cqBase
  | 0x28 => some r.cqCfg
  | 0x40 => some r.faultInfo
  | 0x48 => some r.dispatched
  | 0x50 => some r.cqWritten
  | _ => none

def State.ringWrite8 (s : State) (fn n o v : Nat) : State :=
  match o with
  | 0 => s.sqBaseWrite fn n v
  | 8 => after s (execSqCfgWrite fn n v s)
  | 0x20 => s.cqBaseWrite fn n v
  | 0x28 => after s (execCqCfgWrite fn n v s)
  | _ => s

/-! The mailbox (Tables 3.7 and 3.8). -/

/-- MBX_CTRL: the W1C bits act before REQ_GO of the same write. -/
def State.mbxCtrlWrite (s : State) (v : Nat) : State :=
  if v / 16 ≠ 0 then s.fnReject 0 0 Sc.reservedNonzero
  else
    let s := if bit v 1 then s.mbxRspClear else s
    let s := if bit v 2 then s.mbxEvtClear else s
    if bit v 0 then s.mbxGo else s

/-- 32 bits of the mailbox. -/
def State.mbxWrite4 (s : State) (o v : Nat) : State :=
  if o = 0 then s.mbxCtrlWrite v
  else if 0x800 ≤ o && o < 0x1000 then
    { s with oap := { s.oap with mbxReq := (leBytes 4 v).zipIdx.foldl (fun m b => SMap.set 0 m (o - 0x800 + b.2) b.1) s.oap.mbxReq } }
  else s

/-! The MSI-X table (R180). -/

/-- 32 bits of a vector's entry: address low and high, data, and the control word with its mask bit. -/
def State.msixWrite4 (s : State) (fn v word x : Nat) : State :=
  let e := s.vec fn v
  if s.vectorCount fn ≤ v then s
  else match word with
    | 0 => s.setVec fn v { e with addr := setBits e.addr 0 32 (x / 4 * 4) }
    | 1 => s.setVec fn v { e with addr := setBits e.addr 32 32 x }
    | 2 => s.setVec fn v { e with data := x }
    | _ => if bit x 0 then s.setVec fn v { e with masked := true } else after s (execMsixUnmask fn v s)

/-! The map of BAR0 (Table 4.3). -/

/-- The 64-bit registers outside the ring pages, by their offset: their value. -/
def State.bindReg8 (s : State) (o : Nat) : Option Nat :=
  if 0x1000 ≤ o && o < 0x1200 then some (SMap.get 0 s.host.ctxBind ((o - 0x1000) / 8))
  else if 0x2000 ≤ o && o < 0x2800 then some (SMap.get 0 s.host.ringBind ((o - 0x2000) / 8))
  else if 0x4000 ≤ o && o < 0x4400 then some (if o % 16 = 0 then SMap.get 0 s.host.irqRoute ((o - 0x4000) / 16) else 0)
  else none

def State.bindWrite8 (s : State) (fn o v : Nat) : State :=
  if o < 0x2000 then after s (execCtxBindWrite fn ((o - 0x1000) / 8) v s)
  else if o < 0x4000 then after s (execRingBindWrite fn ((o - 0x2000) / 8) v s)
  else if o % 16 = 0 then after s (execIrqRouteWrite fn ((o - 0x4000) / 16) v s)
  else after s (s.fnWrite fn o (fn == 0) [(v != 0, Sc.reservedNonzero)] id)

/-- The 64-bit register at an aligned offset that a function may write. -/
def State.bar0Reg8 (s : State) (o : Nat) : Option Nat :=
  if 0x100000 ≤ o && o < 0x200000 then s.ringReg8 (o / 0x1000 - 0x100) (o % 0x1000) else s.bindReg8 o

def State.bar0Write8 (s : State) (fn o v : Nat) : State :=
  if 0x100000 ≤ o then s.ringWrite8 fn (o / 0x1000 - 0x100) (o % 0x1000) v else s.bindWrite8 fn o v

/-- A 32-bit access: a 32-bit register, or half of a 64-bit one, whose other half keeps its value. Reserved offsets are discarded
(R143). -/
def State.bar0Write4 (s : State) (fn o v : Nat) : State :=
  match s.bar0Reg8 (o / 8 * 8) with
  | some x => s.bar0Write8 fn (o / 8 * 8) (setBits x (o % 8 * 8) 32 v)
  | none =>
    if 0x100000 ≤ o && o < 0x200000 then s.ringWrite4 fn (o / 0x1000 - 0x100) (o % 0x1000) v
    else if o = 0 then after s (s.fnWrite fn 0 true [(decide (64 ≤ v), Sc.reservedNonzero)] id)
    else if o = 8 then after s (execBar2CtxWrite fn v s)
    else if o = 0x10 then after s (s.fnWrite fn 0x10 true [(decide (2 ^ 20 ≤ v), Sc.reservedNonzero)] id)
    else if 0x10000 ≤ o && o < 0x12000 && fn = 0 then s.mbxWrite4 (o - 0x10000) v
    else if 0x20000 ≤ o && o < 0x28000 then s.msixWrite4 fn ((o - 0x20000) / 16) (o % 16 / 4) v
    else s

/-- A BAR0 write of a function (R143). -/
def State.bar0Write (s : State) (fn o size v : Nat) : State :=
  if size = 4 then s.bar0Write4 fn o (v % 2 ^ 32)
  else if (s.bar0Reg8 o).isSome then s.bar0Write8 fn o v
  else (s.bar0Write4 fn o (v % 2 ^ 32)).bar0Write4 fn (o + 4) (v / 2 ^ 32)

/-! Register reads (R143, R150). -/

/-- A 32-bit register of a ring page that the page's own function reads. -/
def State.ringReg4 (s : State) (n o : Nat) : Nat :=
  let r := s.ring n
  match o with
  | 0x10 => r.sqTail
  | 0x14 => r.sqHead
  | 0x18 => (match r.st with | .disabled => 0 | .running => 1 | .paused => 2 | .faulted => 3 | .resetting => 4)
  | 0x30 => r.cqHead
  | 0x34 => r.cqTail
  | 0x38 => r.regStatus
  | 0x58 => r.cqFullEvents
  | 0x5C => r.eventOverruns
  | _ => 0

/-- 32 bits of the mailbox (Table 3.7). -/
def State.mbxReg4 (s : State) (o : Nat) : Nat :=
  if o = 0 then 2 * b2n s.oap.mbxRspValid + 4 * b2n (!s.oap.evtQ.isEmpty) + 8 * b2n s.oap.mbxBusy
  else if 0x800 ≤ o && o < 0x1000 then ofLE ((List.range 4).map fun i => SMap.get 0 s.oap.mbxReq (o - 0x800 + i))
  else if 0x1000 ≤ o && o < 0x1800 then fieldLE s.oap.mbxRsp (o - 0x1000) 4
  else if 0x1800 ≤ o && o < 0x1820 then fieldLE (s.oap.evtQ.headD []) (o - 0x1800) 4
  else 0

/-- 32 bits of the MSI-X table and of its pending bits (Table 4.3). -/
def State.msixReg4 (s : State) (fn v word : Nat) : Nat :=
  let e := s.vec fn v
  if s.vectorCount fn ≤ v then 0
  else match word with
    | 0 => bits e.addr 0 32
    | 1 => bits e.addr 32 32
    | 2 => e.data
    | _ => b2n e.masked

def State.pbaReg4 (s : State) (fn o : Nat) : Nat :=
  ((List.range 32).map fun i => if o * 8 + i < s.vectorCount fn then b2n (s.vec fn (o * 8 + i)).pba * 2 ^ i else 0).sum

/-- 32 bits of BAR0 as a function reads them: 0 for reserved offsets, and for pages and registers it has no right to (R143,
R150). -/
def State.bar0Read4 (s : State) (fn o : Nat) : Nat :=
  if 0x100000 ≤ o && o < 0x200000 then
    let n := o / 0x1000 - 0x100
    if !s.seesRing fn n then 0
    else match s.ringReg8 n (o % 0x1000 / 8 * 8) with
      | some x => bits x (o % 8 * 8) 32
      | none => s.ringReg4 n (o % 0x1000)
  else if o = 0 then fn
  else if o = 8 then SMap.get 0 s.host.bar2Ctx fn
  else if o = 0x10 then SMap.get 0 s.host.fnStatus fn
  else if 0x20000 ≤ o && o < 0x28000 then s.msixReg4 fn ((o - 0x20000) / 16) (o % 16 / 4)
  else if 0x28000 ≤ o && o < 0x28100 then s.pbaReg4 fn (o - 0x28000)
  else if fn ≠ 0 then 0
  else if o = 0x5000 then s.host.irqMultihit
  else if 0x10000 ≤ o && o < 0x12000 then s.mbxReg4 (o - 0x10000)
  else match s.bindReg8 (o / 8 * 8) with
    | some x => bits x (o % 8 * 8) 32
    | none => 0

/-- What a read of BAR0 returns: 0 for another size or alignment (R143). -/
def State.bar0Read (s : State) (fn o size : Nat) : Nat :=
  if o % size ≠ 0 then 0
  else if size = 4 then s.bar0Read4 fn o
  else if size = 8 then s.bar0Read4 fn o + s.bar0Read4 fn (o + 4) * 2 ^ 32
  else 0

/-- A register access of BAR0 once its turn has come: a write of another size or alignment is discarded (R143). -/
def State.bar0Access (s : State) (fn offset size : Nat) : Option Nat → State
  | some v =>
    if (size == 4 || size == 8) && offset % size == 0 && decide (v < 2 ^ (8 * size)) then s.bar0Write fn offset size v else s
  | none => s.emit (.bar0Data fn offset size (s.bar0Read fn offset size))

/-- REGISTER_WRITE: a write of a register with no row of its own; with no value, the host's read of a register, which the table
gives no row (DESIGN CHOICE, log 45). -/
def execRegisterWrite (fn offset size : Nat) (value : Option Nat) (s : State) : Res :=
  s.inOrder fn (match value with | some v => .bar0Write offset size v | none => .bar0Read offset size) <|
    occ (s.hostUp && s.fnAnswers fn) s (s.bar0Access fn offset size value)

/-! Accesses that have waited (R391). -/

/-- Perform an access that has waited. -/
def HostOp.run (fn : Nat) : HostOp → State → State
  | .bar0Write o z v, s => s.bar0Access fn o z (some v)
  | .bar0Read o z, s => s.bar0Access fn o z none
  | .bar2Write a d, s => after s (execBar2Write fn a d s)
  | .bar2Read a n, s => after s (execBar2Read fn a n s)

/-- The waiting accesses of a function go on in order, as far as they can. -/
def State.hostGoFn (fn : Nat) : Nat → State → State
  | 0, s => s
  | f + 1, s =>
    match s.host.held.filter (·.1 == fn) with
    | [] => s
    | e :: rest =>
      let ordered := match e.2 with | .bar2Write _ _ => false | _ => true
      if ordered && s.hostWriting fn then s
      else
        let t := e.2.run fn { s with host := { s.host with held := s.host.held.filter (·.1 != fn) } }
        if t.host.held.any (·.1 == fn) then s
        else State.hostGoFn fn f { t with host := { t.host with held := t.host.held ++ rest } }

/-- Every function's waiting accesses go on. -/
def State.hostGo (s : State) : State :=
  if s.host.held.isEmpty || !s.hostUp then s
  else (List.range 64).foldl (fun s fn => s.hostGoFn fn s.host.held.length) s

/-! Answers that let a waiting access of the host go on. -/

def execRdRsp (p : Nat) (s : State) : Res := .next (s.respondTo p .rdRsp).hostGo
def execWrAck (p : Nat) (s : State) : Res := .next (s.respondTo p .wrAck).hostGo

/-- NI_REQUEST_TIMEOUT (R306, R307): no response within NI_TIMEOUT_US. -/
def execNiRequestTimeout (node tc tag : Nat) (s : State) : Res := .next (s.requestTimeout node tc tag).hostGo

/-- TIMED_OUT_TAG_RELEASE (R307): another NI_TIMEOUT_US has passed, and the tag may be used again. -/
def execTimedOutTagRelease (node tc tag : Nat) (s : State) : Res :=
  match s.outst node tc tag with
  | some o => occ (o.timedOut && s.passed o.sentNs (s.obj Obj.NI_TIMEOUT_US * 1000)) s (s.freeOutst node tc tag).hostGo
  | none => .next s

/-- DROP_NOTICE_RX (R735 to R737, R517). -/
def execDropNoticeRx (p : Nat) (s : State) : Res := .next (s.noticeArrived p).hostGo

/-- PCIE_LINK_UP: training ends within PCIE_MAX_RATE and PCIE_MAX_WIDTH, and before S4 within 8.0 GT/s and x4 (R184); from S4 on
it decides PCIE_REDUCED. -/
def execPcieLinkUp (rate : LinkRate) (width : Nat) (s : State) : Res :=
  let top := if s.stage < 4 then min 3 (s.obj Obj.PCIE_MAX_RATE) else s.obj Obj.PCIE_MAX_RATE
  let wide := if s.stage < 4 then min 4 (s.obj Obj.PCIE_MAX_WIDTH) else s.obj Obj.PCIE_MAX_WIDTH
  occ (!s.host.linkUp && decide (2 ≤ s.stage) && !s.safety.safe && !s.sup.pciePerst && s.sup.refPcie && decide (1 ≤ rate.got) &&
       decide (rate.got ≤ top) && [1, 2, 4, 8, 16].contains width && decide (width ≤ wide)) s
    (if 4 ≤ s.stage then (s.linkReturns rate.got width).hostGo.pcieReduced rate.common else (s.linkReturns rate.got width).hostGo)

end Sys2Proof.Machine
end

