-- ==== Sys2Proof/Machine/Dispatch.lean ====
section
/-!
DEFINITION. One arm per command: its meaning, or its refusal by name.
-/
namespace Sys2Proof.Machine

def exec (i : Instr) (s : State) : Host.Outcome State Fault Refusal :=
  match i with
  | .powerOn mv => Sys2Proof.Machine.execPowerOn mv s
  | .vinBandEntry band vin => Sys2Proof.Machine.execVinBandEntry band vin s
  | .mewsEntryComplete => Sys2Proof.Machine.execMewsEntryComplete s
  | .mewsExitComplete => Sys2Proof.Machine.execMewsExitComplete s
  | .vinLoss collapse mv => Sys2Proof.Machine.execVinLoss collapse mv s
  | .vinFastDrop mv => Sys2Proof.Machine.execVinFastDrop mv s
  | .porstN => Sys2Proof.Machine.execPorstN s
  | .coldResetRelease bootPins => Sys2Proof.Machine.execColdResetRelease bootPins s
  | .wrstN => Sys2Proof.Machine.execWrstN s
  | .krstN => Sys2Proof.Machine.execKrstN s
  | .pciePerstN => Sys2Proof.Machine.execPciePerstN s
  | .pciePerstRelease => Sys2Proof.Machine.execPciePerstRelease s
  | .resetRequest t => Sys2Proof.Machine.execResetRequest t s
  | .resetRequestApply => Sys2Proof.Machine.execResetRequestApply s
  | .stageReached r => Sys2Proof.Machine.execStageReached r s
  | .bringupLate => Sys2Proof.Machine.execBringupLate s
  | .safeInNAssert => Sys2Proof.Machine.execSafeInNAssert s
  | .safeInNRelease => Sys2Proof.Machine.execSafeInNRelease s
  | .refclkLoss c => Sys2Proof.Machine.execRefclkLoss c s
  | .refclkLaneReturn g => Sys2Proof.Machine.execRefclkLaneReturn g s
  | .thermalCompare readings => Sys2Proof.Machine.execThermalCompare readings s
  | .thermTrip sensor => Sys2Proof.Machine.execThermTrip sensor s
  | .canRequestRx f => Sys2Proof.Machine.execCanRequestRx f s
  | .t1sRequestRx f => Sys2Proof.Machine.execT1sRequestRx f s
  | .mbxReqGo => Sys2Proof.Machine.execMbxReqGo s
  | .mbxRspClear => Sys2Proof.Machine.execMbxRspClear s
  | .mbxEvtClear => Sys2Proof.Machine.execMbxEvtClear s
  | .oapRead t => Sys2Proof.Machine.execOapRead t s
  | .oapWrite t => Sys2Proof.Machine.execOapWrite t s
  | .oapReadPending t => Sys2Proof.Machine.execOapReadPending t s
  | .oapDiscardPending t => Sys2Proof.Machine.execOapDiscardPending t s
  | .oapDescribe t => Sys2Proof.Machine.execOapDescribe t s
  | .sessionOpen t => Sys2Proof.Machine.execSessionOpen t s
  | .sessionProve t => Sys2Proof.Machine.execSessionProve t s
  | .sessionClose t => Sys2Proof.Machine.execSessionClose t s
  | .oapUndefinedService t => Sys2Proof.Machine.execOapUndefinedService t s
  | .segmentTimeout t => Sys2Proof.Machine.execSegmentTimeout t s
  | .snapshotExpiry t => Sys2Proof.Machine.execSnapshotExpiry t s
  | .sessionIdleTimeout t => Sys2Proof.Machine.execSessionIdleTimeout t s
  | .lockoutExpiry t => Sys2Proof.Machine.execLockoutExpiry t s
  | .transportConfigApply key => Sys2Proof.Machine.execTransportConfigApply key s
  | .expertKey t => Sys2Proof.Machine.execExpertKey t s
  | .unitObjectApply unit => Sys2Proof.Machine.execUnitObjectApply unit s
  | .profileApply t => Sys2Proof.Machine.execProfileApply t s
  | .unitReq t => Sys2Proof.Machine.execUnitReq t s
  | .ucbMirrorCompare => Sys2Proof.Machine.execUcbMirrorCompare s
  | .stateDivergence unit => Sys2Proof.Machine.execStateDivergence unit s
  | .deviceIdWrite t => Sys2Proof.Machine.execDeviceIdWrite t s
  | .deviceIdLock t => Sys2Proof.Machine.execDeviceIdLock t s
  | .powerCapWrite t => Sys2Proof.Machine.execPowerCapWrite t s
  | .pcieConfigRequest fn f write => Sys2Proof.Machine.execPcieConfigRequest fn f write s
  | .pcieLinkDown => Sys2Proof.Machine.execPcieLinkDown s
  | .pcieLinkUp rate width => Sys2Proof.Machine.execPcieLinkUp rate width s
  | .functionLevelReset fn => Sys2Proof.Machine.execFunctionLevelReset fn s
  | .registerWrite fn offset size value => Sys2Proof.Machine.execRegisterWrite fn offset size value s
  | .ctxBindWrite fn c value => Sys2Proof.Machine.execCtxBindWrite fn c value s
  | .ringBindWrite fn n value => Sys2Proof.Machine.execRingBindWrite fn n value s
  | .irqRouteWrite fn e value => Sys2Proof.Machine.execIrqRouteWrite fn e value s
  | .bar2CtxWrite fn value => Sys2Proof.Machine.execBar2CtxWrite fn value s
  | .bar2Write fn addr data => Sys2Proof.Machine.execBar2Write fn addr data s
  | .bar2Read fn addr len => Sys2Proof.Machine.execBar2Read fn addr len s
  | .sqCfgWrite fn n value => Sys2Proof.Machine.execSqCfgWrite fn n value s
  | .cqCfgWrite fn n value => Sys2Proof.Machine.execCqCfgWrite fn n value s
  | .sqDoorbell fn n value => Sys2Proof.Machine.execSqDoorbell fn n value s
  | .resetSq fn n andCq => Sys2Proof.Machine.execResetSq fn n andCq s
  | .ringResetDone n => Sys2Proof.Machine.execRingResetDone n s
  | .resetCq fn n => Sys2Proof.Machine.execResetCq fn n s
  | .pause fn n => Sys2Proof.Machine.execPause fn n s
  | .resume fn n => Sys2Proof.Machine.execResume fn n s
  | .cqHeadWrite fn n value => Sys2Proof.Machine.execCqHeadWrite fn n value s
  | .entryFetch ring => Sys2Proof.Machine.execEntryFetch ring s
  | .dispatchDecision => Sys2Proof.Machine.execDispatchDecision s
  | .moderationTimeout cq => Sys2Proof.Machine.execModerationTimeout cq s
  | .msixUnmask fn vector => Sys2Proof.Machine.execMsixUnmask fn vector s
  | .nop q k => Sys2Proof.Machine.execNop q k s
  | .endProgram q k => Sys2Proof.Machine.execEndProgram q k s
  | .movi q k => Sys2Proof.Machine.execMovi q k s
  | .movhi q k => Sys2Proof.Machine.execMovhi q k s
  | .addi q k => Sys2Proof.Machine.execAddi q k s
  | .alu q k => Sys2Proof.Machine.execAlu q k s
  | .overlap q k => Sys2Proof.Machine.execOverlap q k s
  | .br q k => Sys2Proof.Machine.execBr q k s
  | .loop q k => Sys2Proof.Machine.execLoop q k s
  | .ld q k => Sys2Proof.Machine.execLd q k s
  | .st q k => Sys2Proof.Machine.execSt q k s
  | .ldp q k => Sys2Proof.Machine.execLdp q k s
  | .stp q k => Sys2Proof.Machine.execStp q k s
  | .lr q k => Sys2Proof.Machine.execLr q k s
  | .sc q k => Sys2Proof.Machine.execSc q k s
  | .amo q k => Sys2Proof.Machine.execAmo q k s
  | .fenceDrain q k => Sys2Proof.Machine.execFenceDrain q k s
  | .fenceAcquire q k => Sys2Proof.Machine.execFenceAcquire q k s
  | .fenceRelease q k => Sys2Proof.Machine.execFenceRelease q k s
  | .fenceFull q k => Sys2Proof.Machine.execFenceFull q k s
  | .fenceUnits q k => Sys2Proof.Machine.execFenceUnits q k s
  | .rand q k => Sys2Proof.Machine.execRand q k s
  | .semwait q k => Sys2Proof.Machine.execSemwait q k s
  | .semwaitSatisfied q k => Sys2Proof.Machine.execSemwaitSatisfied q k s
  | .semwaitTimeout q k => Sys2Proof.Machine.execSemwaitTimeout q k s
  | .sempost q k => Sys2Proof.Machine.execSempost q k s
  | .seminit q k => Sys2Proof.Machine.execSeminit q k s
  | .mxpass q k => Sys2Proof.Machine.execMxpass q k s
  | .vxopAdd q k => Sys2Proof.Machine.execVxopAdd q k s
  | .vxopSub q k => Sys2Proof.Machine.execVxopSub q k s
  | .vxopMul q k => Sys2Proof.Machine.execVxopMul q k s
  | .vxopMin q k => Sys2Proof.Machine.execVxopMin q k s
  | .vxopMax q k => Sys2Proof.Machine.execVxopMax q k s
  | .vxopAddSat q k => Sys2Proof.Machine.execVxopAddSat q k s
  | .vxopSubSat q k => Sys2Proof.Machine.execVxopSubSat q k s
  | .vxopAbs q k => Sys2Proof.Machine.execVxopAbs q k s
  | .vxopNeg q k => Sys2Proof.Machine.execVxopNeg q k s
  | .vxopRelu q k => Sys2Proof.Machine.execVxopRelu q k s
  | .vxopClamp q k => Sys2Proof.Machine.execVxopClamp q k s
  | .vxopAffine q k => Sys2Proof.Machine.execVxopAffine q k s
  | .vxopExp2 q k => Sys2Proof.Machine.execVxopExp2 q k s
  | .vxopLog2 q k => Sys2Proof.Machine.execVxopLog2 q k s
  | .vxopRecip q k => Sys2Proof.Machine.execVxopRecip q k s
  | .vxopRsqrt q k => Sys2Proof.Machine.execVxopRsqrt q k s
  | .vxopSigmoid q k => Sys2Proof.Machine.execVxopSigmoid q k s
  | .vxopTanh q k => Sys2Proof.Machine.execVxopTanh q k s
  | .vxopSilu q k => Sys2Proof.Machine.execVxopSilu q k s
  | .vxopConvert q k => Sys2Proof.Machine.execVxopConvert q k s
  | .vxopRequant q k => Sys2Proof.Machine.execVxopRequant q k s
  | .vxopRedSum q k => Sys2Proof.Machine.execVxopRedSum q k s
  | .vxopRedMax q k => Sys2Proof.Machine.execVxopRedMax q k s
  | .vxopRedMin q k => Sys2Proof.Machine.execVxopRedMin q k s
  | .vxopTopk q k => Sys2Proof.Machine.execVxopTopk q k s
  | .vxopSort q k => Sys2Proof.Machine.execVxopSort q k s
  | .vxopGather q k => Sys2Proof.Machine.execVxopGather q k s
  | .vxopScatter q k => Sys2Proof.Machine.execVxopScatter q k s
  | .vxopLimbcomb q k => Sys2Proof.Machine.execVxopLimbcomb q k s
  | .vxopUndefinedFunc q k => Sys2Proof.Machine.execVxopUndefinedFunc q k s
  | .pAdd q k => Sys2Proof.Machine.execPAdd q k s
  | .pSub q k => Sys2Proof.Machine.execPSub q k s
  | .pMul q k => Sys2Proof.Machine.execPMul q k s
  | .pMulc q k => Sys2Proof.Machine.execPMulc q k s
  | .pNeg q k => Sys2Proof.Machine.execPNeg q k s
  | .pPart q k => Sys2Proof.Machine.execPPart q k s
  | .ntt q k => Sys2Proof.Machine.execNtt q k s
  | .intt q k => Sys2Proof.Machine.execIntt q k s
  | .auto q k => Sys2Proof.Machine.execAuto q k s
  | .rescale q k => Sys2Proof.Machine.execRescale q k s
  | .moddrop q k => Sys2Proof.Machine.execModdrop q k s
  | .twgen q k => Sys2Proof.Machine.execTwgen q k s
  | .limbSplit q k => Sys2Proof.Machine.execLimbSplit q k s
  | .shAdd q k => Sys2Proof.Machine.execShAdd q k s
  | .shSub q k => Sys2Proof.Machine.execShSub q k s
  | .shMul q k => Sys2Proof.Machine.execShMul q k s
  | .shAddpub q k => Sys2Proof.Machine.execShAddpub q k s
  | .shRand q k => Sys2Proof.Machine.execShRand q k s
  | .cxopUndefinedFunc q k => Sys2Proof.Machine.execCxopUndefinedFunc q k s
  | .gxop q k => Sys2Proof.Machine.execGxop q k s
  | .streamStart q k => Sys2Proof.Machine.execStreamStart q k s
  | .streamStop q k => Sys2Proof.Machine.execStreamStop q k s
  | .streamWait q k => Sys2Proof.Machine.execStreamWait q k s
  | .secopLayer q k => Sys2Proof.Machine.execSecopLayer q k s
  | .secopRun q k => Sys2Proof.Machine.execSecopRun q k s
  | .secopFlush q k => Sys2Proof.Machine.execSecopFlush q k s
  | .secopClear q k => Sys2Proof.Machine.execSecopClear q k s
  | .collRun q k => Sys2Proof.Machine.execCollRun q k s
  | .moult q k => Sys2Proof.Machine.execMoult q k s
  | .epochMarkCmd q k => Sys2Proof.Machine.execEpochMarkCmd q k s
  | .epochWaitCmd q k => Sys2Proof.Machine.execEpochWaitCmd q k s
  | .epochMarkWait q k => Sys2Proof.Machine.execEpochMarkWait q k s
  | .cfgwCurBank q k => Sys2Proof.Machine.execCfgwCurBank q k s
  | .cfgwStatDrop q k => Sys2Proof.Machine.execCfgwStatDrop q k s
  | .uctl q k => Sys2Proof.Machine.execUctl q k s
  | .uctlTest q k => Sys2Proof.Machine.execUctlTest q k s
  | .illegalOpcode q k => Sys2Proof.Machine.execIllegalOpcode q k s
  | .programComplete q k => Sys2Proof.Machine.execProgramComplete q k s
  | .unitOpComplete q residueOk => Sys2Proof.Machine.execUnitOpComplete q residueOk s
  | .hangWatchHit q k => Sys2Proof.Machine.execHangWatchHit q k s
  | .issueQueueRoom q k => Sys2Proof.Machine.execIssueQueueRoom q k s
  | .storeBufferSend q idx => Sys2Proof.Machine.execStoreBufferSend q idx s
  | .reservationTimeout q k => Sys2Proof.Machine.execReservationTimeout q k s
  | .descriptorStart e => Sys2Proof.Machine.execDescriptorStart e s
  | .streamSlotAcquire e => Sys2Proof.Machine.execStreamSlotAcquire e s
  | .streamFillPost e => Sys2Proof.Machine.execStreamFillPost e s
  | .streamFreePost e => Sys2Proof.Machine.execStreamFreePost e s
  | .streamWaitTimeout e => Sys2Proof.Machine.execStreamWaitTimeout e s
  | .descriptorComplete e => Sys2Proof.Machine.execDescriptorComplete e s
  | .engSnap e => Sys2Proof.Machine.execEngSnap e s
  | .engClear e => Sys2Proof.Machine.execEngClear e s
  | .stallSelect t => Sys2Proof.Machine.execStallSelect t s
  | .jessValueWrite pair value => Sys2Proof.Machine.execJessValueWrite pair value s
  | .jessPostRegister pair value => Sys2Proof.Machine.execJessPostRegister pair value s
  | .poisonInject t => Sys2Proof.Machine.execPoisonInject t s
  | .pelletLogEntriesWrite t => Sys2Proof.Machine.execPelletLogEntriesWrite t s
  | .pelletReadSeqWrite t => Sys2Proof.Machine.execPelletReadSeqWrite t s
  | .flitArrival p c => Sys2Proof.Machine.execFlitArrival p c s
  | .rdReq p found => Sys2Proof.Machine.execRdReq p found s
  | .wr p piece => Sys2Proof.Machine.execWr p piece s
  | .wrPoison p => Sys2Proof.Machine.execWrPoison p s
  | .amoReq p => Sys2Proof.Machine.execAmoReq p s
  | .jessPost p => Sys2Proof.Machine.execJessPost p s
  | .jessWait p => Sys2Proof.Machine.execJessWait p s
  | .jessWaitCancel p => Sys2Proof.Machine.execJessWaitCancel p s
  | .jessWaitTimeout p => Sys2Proof.Machine.execJessWaitTimeout p s
  | .epochMark p => Sys2Proof.Machine.execEpochMark p s
  | .gatherReq p => Sys2Proof.Machine.execGatherReq p s
  | .gatherServe g => Sys2Proof.Machine.execGatherServe g s
  | .rdRsp p => Sys2Proof.Machine.execRdRsp p s
  | .wrAck p => Sys2Proof.Machine.execWrAck p s
  | .amoRsp p => Sys2Proof.Machine.execAmoRsp p s
  | .jessGrant p => Sys2Proof.Machine.execJessGrant p s
  | .gatherRsp p => Sys2Proof.Machine.execGatherRsp p s
  | .niRequestTimeout node tc tag => Sys2Proof.Machine.execNiRequestTimeout node tc tag s
  | .routeCtrlWrite node e value => Sys2Proof.Machine.execRouteCtrlWrite node e value s
  | .routeMovesWrite node e value => Sys2Proof.Machine.execRouteMovesWrite node e value s
  | .statsSnapshot t => Sys2Proof.Machine.execStatsSnapshot t s
  | .statsSnapshotClear t => Sys2Proof.Machine.execStatsSnapshotClear t s
  | .statsSnapshotDone => Sys2Proof.Machine.execStatsSnapshotDone s
  | .domainDrainComplete unit => Sys2Proof.Machine.execDomainDrainComplete unit s
  | .domainDrainTimeout unit => Sys2Proof.Machine.execDomainDrainTimeout unit s
  | .powerDownComplete unit => Sys2Proof.Machine.execPowerDownComplete unit s
  | .powerUpComplete unit => Sys2Proof.Machine.execPowerUpComplete unit s
  | .scrubLine line found onDie => Sys2Proof.Machine.execScrubLine line found onDie s
  | .sramScrubWord addr found => Sys2Proof.Machine.execSramScrubWord addr found s
  | .lpRecal port => Sys2Proof.Machine.execLpRecal port s
  | .aptWord0Write ctx entry value => Sys2Proof.Machine.execAptWord0Write ctx entry value s
  | .aptWord1Write ctx entry value => Sys2Proof.Machine.execAptWord1Write ctx entry value s
  | .eccInject t => Sys2Proof.Machine.execEccInject t s
  | .mxpassStart q waited => Sys2Proof.Machine.execMxpassStart q waited s
  | .mxpassDrainDone q residueOk => Sys2Proof.Machine.execMxpassDrainDone q residueOk s
  | .mxtRole t => Sys2Proof.Machine.execMxtRole t s
  | .understudy t => Sys2Proof.Machine.execUnderstudy t s
  | .repairRequest t => Sys2Proof.Machine.execRepairRequest t s
  | .repairProgramDone tile => Sys2Proof.Machine.execRepairProgramDone tile s
  | .faultInject t => Sys2Proof.Machine.execFaultInject t s
  | .mxtClkLimit t => Sys2Proof.Machine.execMxtClkLimit t s
  | .handoverCopyDone tile => Sys2Proof.Machine.execHandoverCopyDone tile s
  | .releaseCopyDone tile => Sys2Proof.Machine.execReleaseCopyDone tile s
  | .vxtExcInject t => Sys2Proof.Machine.execVxtExcInject t s
  | .tableDescWord0Write d value => Sys2Proof.Machine.execTableDescWord0Write d value s
  | .tableDescWordWrite d word value => Sys2Proof.Machine.execTableDescWordWrite d word value s
  | .hotTagWrite slot value => Sys2Proof.Machine.execHotTagWrite slot value s
  | .hotTagCopyDone slot => Sys2Proof.Machine.execHotTagCopyDone slot s
  | .hotCacheKib t => Sys2Proof.Machine.execHotCacheKib t s
  | .gatherLookupIssue g => Sys2Proof.Machine.execGatherLookupIssue g s
  | .phaseMapWrite m value => Sys2Proof.Machine.execPhaseMapWrite m value s
  | .currentPhaseWrite value => Sys2Proof.Machine.execCurrentPhaseWrite value s
  | .moultStepStart step => Sys2Proof.Machine.execMoultStepStart step s
  | .moultStepDone step => Sys2Proof.Machine.execMoultStepDone step s
  | .moultStepTimeout step => Sys2Proof.Machine.execMoultStepTimeout step s
  | .epochTimerTick d => Sys2Proof.Machine.execEpochTimerTick d s
  | .epochInEdge n => Sys2Proof.Machine.execEpochInEdge n s
  | .epochMarkMgmt t => Sys2Proof.Machine.execEpochMarkMgmt t s
  | .epochCommitApply d => Sys2Proof.Machine.execEpochCommitApply d s
  | .epochCommitRelease d => Sys2Proof.Machine.execEpochCommitRelease d s
  | .epochOutPulseEnd n => Sys2Proof.Machine.execEpochOutPulseEnd n s
  | .edSourceWrite t => Sys2Proof.Machine.execEdSourceWrite t s
  | .unitDomainWrite t => Sys2Proof.Machine.execUnitDomainWrite t s
  | .chainCtrlWrite c value => Sys2Proof.Machine.execChainCtrlWrite c value s
  | .chainInvalidateDone c => Sys2Proof.Machine.execChainInvalidateDone c s
  | .drbgSeed ok => Sys2Proof.Machine.execDrbgSeed ok s
  | .drbgHealthFail => Sys2Proof.Machine.execDrbgHealthFail s
  | .catInject t => Sys2Proof.Machine.execCatInject t s
  | .spFrameStart p vc ecc => Sys2Proof.Machine.execSpFrameStart p vc ecc s
  | .spFrameEnd p vc ecc => Sys2Proof.Machine.execSpFrameEnd p vc ecc s
  | .spLongPacket p vc dt ecc payload crcOk => Sys2Proof.Machine.execSpLongPacket p vc dt ecc payload crcOk s
  | .spBeatFlush p => Sys2Proof.Machine.execSpBeatFlush p s
  | .spFrameFillPost p => Sys2Proof.Machine.execSpFrameFillPost p s
  | .secEventProcess c => Sys2Proof.Machine.execSecEventProcess c s
  | .secBinIdleClose c => Sys2Proof.Machine.execSecBinIdleClose c s
  | .secBinArrivalClose c => Sys2Proof.Machine.execSecBinArrivalClose c s
  | .secBinFillPost c => Sys2Proof.Machine.execSecBinFillPost c s
  | .secBatchTimeout c => Sys2Proof.Machine.execSecBatchTimeout c s
  | .spRuleWrite t => Sys2Proof.Machine.execSpRuleWrite t s
  | .frCfgWrite p offset value => Sys2Proof.Machine.execFrCfgWrite p offset value s
  | .spInject t => Sys2Proof.Machine.execSpInject t s
  | .cfgGo value => Sys2Proof.Machine.execCfgGo value s
  | .cfgAbort value => Sys2Proof.Machine.execCfgAbort value s
  | .cfgDataWrite value => Sys2Proof.Machine.execCfgDataWrite value s
  | .loadHeaderCheck flash flashBytes => Sys2Proof.Machine.execLoadHeaderCheck flash flashBytes s
  | .loadBodyComplete flash => Sys2Proof.Machine.execLoadBodyComplete flash s
  | .loadSignatureVerify => Sys2Proof.Machine.execLoadSignatureVerify s
  | .loadRelease => Sys2Proof.Machine.execLoadRelease s
  | .cfgStreamTimeout => Sys2Proof.Machine.execCfgStreamTimeout s
  | .xspiTimeout => Sys2Proof.Machine.execXspiTimeout s
  | .cfgScrubFrame found => Sys2Proof.Machine.execCfgScrubFrame found s
  | .cfgInject t => Sys2Proof.Machine.execCfgInject t s
  | .fabricRamError double => Sys2Proof.Machine.execFabricRamError double s
  | .fpMasterRequest n cmd addr len oid tc poison op data => Sys2Proof.Machine.execFpMasterRequest n cmd addr len oid tc poison op data s
  | .fpTargetAnswer n tag status poison data => Sys2Proof.Machine.execFpTargetAnswer n tag status poison data s
  | .fpCtxWrite t => Sys2Proof.Machine.execFpCtxWrite t s
  | .fabricEpochEdge n => Sys2Proof.Machine.execFabricEpochEdge n s
  | .presenceTimeout n => Sys2Proof.Machine.execPresenceTimeout n s
  | .phRetryExpiry n => Sys2Proof.Machine.execPhRetryExpiry n s
  | .lureDetected n l => Sys2Proof.Machine.execLureDetected n l s
  | .trainingFrameRx n l hdr => Sys2Proof.Machine.execTrainingFrameRx n l hdr s
  | .presenceComplete n => Sys2Proof.Machine.execPresenceComplete n s
  | .rateSwitch n => Sys2Proof.Machine.execRateSwitch n s
  | .ffeRequestApply n l => Sys2Proof.Machine.execFfeRequestApply n l s
  | .creanceStepComplete n skew => Sys2Proof.Machine.execCreanceStepComplete n skew s
  | .creanceStepTimeout n => Sys2Proof.Machine.execCreanceStepTimeout n s
  | .linkFramingStart n => Sys2Proof.Machine.execLinkFramingStart n s
  | .losDetected n l => Sys2Proof.Machine.execLosDetected n l s
  | .lolDetected n l => Sys2Proof.Machine.execLolDetected n l s
  | .phRequiredGrace n => Sys2Proof.Machine.execPhRequiredGrace n s
  | .phLinkEnable t => Sys2Proof.Machine.execPhLinkEnable t s
  | .recalDue n l => Sys2Proof.Machine.execRecalDue n l s
  | .recalPiece n l done => Sys2Proof.Machine.execRecalPiece n l done s
  | .recalDeferred n l => Sys2Proof.Machine.execRecalDeferred n l s
  | .patternCtrl t => Sys2Proof.Machine.execPatternCtrl t s
  | .laneInject t => Sys2Proof.Machine.execLaneInject t s
  | .codewordRx n corrected uncorrectable l0 l1 l2 l3 upper => Sys2Proof.Machine.execCodewordRx n corrected uncorrectable l0 l1 l2 l3 upper s
  | .linkTransactionRx n => Sys2Proof.Machine.execLinkTransactionRx n s
  | .lctrlIdle n => Sys2Proof.Machine.execLctrlIdle n s
  | .pmReq n => Sys2Proof.Machine.execPmReq n s
  | .pmAck n => Sys2Proof.Machine.execPmAck n s
  | .recalWin n => Sys2Proof.Machine.execRecalWin n s
  | .laneDown n => Sys2Proof.Machine.execLaneDown n s
  | .laneUp n => Sys2Proof.Machine.execLaneUp n s
  | .hood n => Sys2Proof.Machine.execHood n s
  | .open_ n => Sys2Proof.Machine.execOpen n s
  | .ackTimer n => Sys2Proof.Machine.execAckTimer n s
  | .replayTimeout n => Sys2Proof.Machine.execReplayTimeout n s
  | .laneDegradeSwitch n => Sys2Proof.Machine.execLaneDegradeSwitch n s
  | .linkIdleTimer n => Sys2Proof.Machine.execLinkIdleTimer n s
  | .pmReqTimeout n => Sys2Proof.Machine.execPmReqTimeout n s
  | .dropNoticeRx p => Sys2Proof.Machine.execDropNoticeRx p s
  | .devRouteWrite t => Sys2Proof.Machine.execDevRouteWrite t s
  | .errNClear t => Sys2Proof.Machine.execErrNClear t s
  | .errInject t => Sys2Proof.Machine.execErrInject t s
  | .logReadWrite value => Sys2Proof.Machine.execLogReadWrite value s
  | .pathTest returned => Sys2Proof.Machine.execPathTest returned s
  | .monitorCompareFail => Sys2Proof.Machine.execMonitorCompareFail s
  | .testRequest t => Sys2Proof.Machine.execTestRequest t s
  | .testForce t => Sys2Proof.Machine.execTestForce t s
  | .faultClear t => Sys2Proof.Machine.execFaultClear t s
  | .selftestScheduleTick cls => Sys2Proof.Machine.execSelftestScheduleTick cls s
  | .selftestStart unit => Sys2Proof.Machine.execSelftestStart unit s
  | .selftestComplete unit r phys column repairs => Sys2Proof.Machine.execSelftestComplete unit r phys column repairs s
  | .agingSample rs => Sys2Proof.Machine.execAgingSample rs s
  | .ageHourBurn => Sys2Proof.Machine.execAgeHourBurn s
  | .coolantInletWrite t => Sys2Proof.Machine.execCoolantInletWrite t s
  | .coolantWatchExpiry => Sys2Proof.Machine.execCoolantWatchExpiry s
  | .extest => Sys2Proof.Machine.execExtest s
  | .idcode => Sys2Proof.Machine.execIdcode s
  | .samplePreload sample preload => Sys2Proof.Machine.execSamplePreload sample preload s
  | .extestPulse => Sys2Proof.Machine.execExtestPulse s
  | .extestTrain => Sys2Proof.Machine.execExtestTrain s
  | .highz => Sys2Proof.Machine.execHighz s
  | .clamp => Sys2Proof.Machine.execClamp s
  | .bypass => Sys2Proof.Machine.execBypass s
  | .inputPowerCapControl watts => Sys2Proof.Machine.execInputPowerCapControl watts s
  | .refclkReturn c => Sys2Proof.Machine.execRefclkReturn c s
  | .hostReadCompletion tag a => Sys2Proof.Machine.execHostReadCompletion tag a s
  | .pcieCompletionTimeout tag => Sys2Proof.Machine.execPcieCompletionTimeout tag s
  | .timedOutTagRelease node tc tag => Sys2Proof.Machine.execTimedOutTagRelease node tc tag s
  | .patternCheckerLock n l => Sys2Proof.Machine.execPatternCheckerLock n l s
  | .patternCheckerLockLoss n l counted errors => Sys2Proof.Machine.execPatternCheckerLockLoss n l counted errors s

end Sys2Proof.Machine
end

