-- ==== Sys2Proof/WellFormed.lean ====
section
/-!
DEFINITION. Which commands the outside can give: the range of every operand, from the counts of chapter 1 and the widths of
the registers and fields that the commands reach. A meaning is total; these checks say which commands are real.
-/
namespace Sys2Proof

/-- Sequencers of the device, one to each unit that runs programs (Table 5.1). -/
def seqCount : Nat := 153

/-- Units of the device, in class order (Table 3.9). -/
def unitCount : Nat := 201

/-- A program slot of a sequencer (R188). -/
def slotOk (q k : Nat) : Bool := decide (q < seqCount) && decide (k < 2)

/-- A register value of 64 bits. -/
def wordOk (v : Nat) : Bool := decide (v < 2 ^ 64)

/-- A host function: the physical one and at most 63 virtual ones (Table 4.2). -/
def fnOk (fn : Nat) : Bool := decide (fn < 64)

/-- A ring page reached by a function (R150). -/
def ringOk (fn n : Nat) : Bool := fnOk fn && decide (n < 256)

/-- A lane of a Phidun port (R663). -/
def laneOk (n l : Nat) : Bool := decide (n < 20) && decide (l < 8)

/-- A node of the network (R14), a traffic class of the flit header's two bits and a tag of its twelve (R287). -/
def tagRangeOk (node tc tag : Nat) : Bool := decide (node < 192) && decide (tc < 4) && decide (tag < 4096)

/-- A reference clock that the device has (Table 2.4). -/
def Refclk.wf : Refclk → Bool
  | .lane g => decide (g < 5)
  | _ => true

/-- A CAN FD data frame carries at most 64 bytes, a classic one 8 (R96). -/
def CanFrame.wf (f : CanFrame) : Bool :=
  decide (f.ident < (if f.extended then 2 ^ 29 else 2 ^ 11)) && decide (f.data.length ≤ (if f.fd then 64 else 8))

/-- An Ethernet II frame (R98). -/
def EthFrame.wf (f : EthFrame) : Bool :=
  decide (f.dst < 2 ^ 48) && decide (f.src < 2 ^ 48) && decide (f.etherType < 2 ^ 16) && decide (f.payload.length ≤ 1500)

def Instr.wf : Instr → Bool
  | .powerOn mv | .vinLoss _ mv | .vinFastDrop mv => decide (mv < 2 ^ 16)
  | .vinBandEntry _ vin => decide (vin.now < 2 ^ 16) && decide (vin.low ≤ vin.now)
  | .coldResetRelease pins => decide (pins < 8)
  | .stageReached r => decide (r.timeUs < 2 ^ 32)
  | .refclkLoss c | .refclkReturn c => c.wf
  | .refclkLaneReturn g => decide (g < 5)
  | .thermalCompare rs => decide (rs.length = 64)
  | .thermTrip i => decide (i < 64)
  | .canRequestRx f => f.wf
  | .t1sRequestRx f => f.wf
  | .transportConfigApply key => decide (0x110000 ≤ key) && decide (key < 0x120000)
  | .unitObjectApply u | .stateDivergence u | .domainDrainComplete u | .domainDrainTimeout u | .powerDownComplete u
  | .powerUpComplete u | .selftestStart u => decide (u < unitCount)
  | .pcieConfigRequest fn _ w => fnOk fn && decide (w.getD 0 < 2 ^ 32)
  | .pcieLinkUp rate width =>
    decide (1 ≤ rate.got) && decide (rate.got ≤ rate.common) && decide (rate.common ≤ 6) && decide (width ≤ 16)
  | .functionLevelReset fn => fnOk fn
  | .registerWrite fn _ size value => fnOk fn && decide (0 < size) && decide (size ≤ 512) && decide (value.getD 0 < 2 ^ (8 * size))
  | .ctxBindWrite fn c value => fnOk fn && decide (c < 64) && wordOk value
  | .irqRouteWrite fn e value => fnOk fn && decide (e < 64) && wordOk value
  | .bar2CtxWrite fn value => fnOk fn && wordOk value
  | .bar2Write fn _ data => fnOk fn && decide (0 < data.length) && decide (data.length ≤ 512)
  | .bar2Read fn _ len => fnOk fn && decide (0 < len) && decide (len ≤ 4096)
  | .ringBindWrite fn n value | .sqCfgWrite fn n value | .cqCfgWrite fn n value | .sqDoorbell fn n value
  | .cqHeadWrite fn n value => ringOk fn n && wordOk value
  | .resetSq fn n _ | .resetCq fn n | .pause fn n | .resume fn n => ringOk fn n
  | .ringResetDone n | .entryFetch n | .moderationTimeout n => decide (n < 256)
  | .msixUnmask fn vector => fnOk fn && decide (vector < 2048)
  | .nop q k | .endProgram q k | .movi q k | .movhi q k | .addi q k | .alu q k | .overlap q k | .br q k | .loop q k
  | .ld q k | .st q k | .ldp q k | .stp q k | .lr q k | .sc q k | .amo q k | .fenceDrain q k | .fenceAcquire q k
  | .fenceRelease q k | .fenceFull q k | .fenceUnits q k | .rand q k | .semwait q k | .semwaitSatisfied q k
  | .semwaitTimeout q k | .sempost q k | .seminit q k | .mxpass q k | .vxopAdd q k | .vxopSub q k | .vxopMul q k
  | .vxopMin q k | .vxopMax q k | .vxopAddSat q k | .vxopSubSat q k | .vxopAbs q k | .vxopNeg q k | .vxopRelu q k
  | .vxopClamp q k | .vxopAffine q k | .vxopExp2 q k | .vxopLog2 q k | .vxopRecip q k | .vxopRsqrt q k
  | .vxopSigmoid q k | .vxopTanh q k | .vxopSilu q k | .vxopConvert q k | .vxopRequant q k | .vxopRedSum q k
  | .vxopRedMax q k | .vxopRedMin q k | .vxopTopk q k | .vxopSort q k | .vxopGather q k | .vxopScatter q k
  | .vxopLimbcomb q k | .vxopUndefinedFunc q k | .pAdd q k | .pSub q k | .pMul q k | .pMulc q k | .pNeg q k
  | .pPart q k | .ntt q k | .intt q k | .auto q k | .rescale q k | .moddrop q k | .twgen q k | .limbSplit q k
  | .shAdd q k | .shSub q k | .shMul q k | .shAddpub q k | .shRand q k | .cxopUndefinedFunc q k | .gxop q k
  | .streamStart q k | .streamStop q k | .streamWait q k | .secopLayer q k | .secopRun q k | .secopFlush q k
  | .secopClear q k | .collRun q k | .moult q k | .epochMarkCmd q k | .epochWaitCmd q k | .epochMarkWait q k
  | .cfgwCurBank q k | .cfgwStatDrop q k | .uctl q k | .uctlTest q k | .illegalOpcode q k | .programComplete q k
  | .hangWatchHit q k | .issueQueueRoom q k | .reservationTimeout q k => slotOk q k
  | .unitOpComplete q _ | .mxpassDrainDone q _ | .mxpassStart q _ | .storeBufferSend q _ => decide (q < seqCount)
  | .descriptorStart e | .streamSlotAcquire e | .streamFillPost e | .streamFreePost e | .streamWaitTimeout e
  | .descriptorComplete e | .engSnap e | .engClear e => decide (e < 440)
  | .jessValueWrite pair value | .jessPostRegister pair value => decide (pair < 2048) && wordOk value
  | .niRequestTimeout node tc tag | .timedOutTagRelease node tc tag => tagRangeOk node tc tag
  | .routeCtrlWrite node e value | .routeMovesWrite node e value =>
    decide (node < 192) && decide (e < 64) && wordOk value
  | .lpRecal port => decide (port < 8)
  | .aptWord0Write ctx entry value | .aptWord1Write ctx entry value =>
    decide (ctx < 64) && decide (entry < 4096) && wordOk value
  | .repairProgramDone tile | .handoverCopyDone tile | .releaseCopyDone tile => decide (tile < 64)
  | .tableDescWord0Write d value => decide (d < 1024) && wordOk value
  | .tableDescWordWrite d word value => decide (d < 1024) && decide (1 ≤ word) && decide (word ≤ 7) && wordOk value
  | .hotTagWrite slot value => decide (slot < 16384) && wordOk value
  | .hotTagCopyDone slot => decide (slot < 16384)
  | .gatherServe g | .gatherLookupIssue g => decide (g < 16)
  | .phaseMapWrite m value => decide (m < 16) && wordOk value
  | .currentPhaseWrite value => decide (value < 2 ^ 32)
  | .epochTimerTick d | .epochCommitApply d | .epochCommitRelease d => decide (d < 32)
  | .epochInEdge n | .epochOutPulseEnd n => decide (n < 4)
  | .chainCtrlWrite c value => decide (c < 16) && wordOk value
  | .chainInvalidateDone c => decide (c < 16)
  | .spFrameStart p vc ecc | .spFrameEnd p vc ecc => decide (p < 8) && decide (vc < 16) && decide (ecc < 3)
  | .spLongPacket p vc dt ecc payload _ =>
    decide (p < 8) && decide (vc < 16) && decide (dt < 64) && decide (ecc < 3) && decide (payload.length < 2 ^ 16)
  | .spBeatFlush p | .spFrameFillPost p => decide (p < 8)
  | .frCfgWrite p offset value => decide (p < 8) && (offset == 0x10 || offset == 0x18) && wordOk value
  | .secEventProcess c | .secBinIdleClose c | .secBinArrivalClose c | .secBinFillPost c | .secBatchTimeout c =>
    decide (c < 16)
  | .cfgGo value | .cfgAbort value | .cfgDataWrite value => wordOk value
  | .fpMasterRequest n cmd _ _ oid tc _ op _ =>
    decide (n < 16) && decide (cmd < 4) && decide (oid < 16) && decide (tc < 2) && decide (op < 32)
  | .fpTargetAnswer n tag status _ _ => decide (n < 16) && decide (tag < 1024) && decide (status < 4)
  | .fabricEpochEdge e => decide (e < 32)
  | .presenceTimeout n | .phRetryExpiry n | .presenceComplete n | .rateSwitch n | .creanceStepTimeout n
  | .linkFramingStart n | .phRequiredGrace n | .linkTransactionRx n | .lctrlIdle n | .pmReq n | .pmAck n | .recalWin n
  | .laneDown n | .laneUp n | .hood n | .open_ n | .ackTimer n | .replayTimeout n | .laneDegradeSwitch n
  | .linkIdleTimer n | .pmReqTimeout n => decide (n < 20)
  | .lureDetected n l | .ffeRequestApply n l | .losDetected n l | .lolDetected n l | .recalDue n l | .recalPiece n l _
  | .recalDeferred n l | .patternCheckerLock n l | .patternCheckerLockLoss n l _ _ => laneOk n l
  | .trainingFrameRx n l hdr => laneOk n l && decide (hdr < 2 ^ 128)
  | .creanceStepComplete n _ => decide (n < 20)
  | .codewordRx n _ _ l0 l1 l2 l3 upper =>
    let lanes := l0 :: l1 :: l2 :: l3 :: upper
    decide (n < 20) && (lanes.length == 4 || lanes.length == 8) &&
    lanes.all fun l => l.length * lanes.length == 544 && l.all fun s => decide (s < 1024)
  | .logReadWrite value => decide (value < 2 ^ 32)
  | .selftestScheduleTick cls => decide (cls < 12)
  | .selftestComplete unit _ _ _ _ => decide (unit < unitCount)
  | .inputPowerCapControl watts => decide (watts < 2 ^ 16)
  | .mewsEntryComplete | .mewsExitComplete | .porstN | .wrstN | .krstN | .ucbMirrorCompare | .pciePerstN | .pciePerstRelease
  | .resetRequestApply | .bringupLate | .safeInNAssert | .safeInNRelease | .mbxReqGo | .mbxRspClear | .mbxEvtClear
  | .pcieLinkDown | .dispatchDecision | .statsSnapshotDone | .drbgSeed _ | .drbgHealthFail
  | .loadHeaderCheck _ _ | .loadBodyComplete _ | .loadSignatureVerify | .loadRelease | .cfgStreamTimeout | .xspiTimeout
  | .cfgScrubFrame _ | .fabricRamError _ | .pathTest _ | .monitorCompareFail | .agingSample _ | .ageHourBurn
  | .coolantWatchExpiry | .extest | .idcode | .samplePreload _ _ | .extestPulse | .extestTrain | .highz | .clamp
  | .bypass | .hostReadCompletion _ _ | .pcieCompletionTimeout _ | .scrubLine _ _ _ | .sramScrubWord _ _
  | .flitArrival _ _ | .rdReq _ _ | .wr _ _ | .wrPoison _ | .amoReq _ | .jessPost _ | .jessWait _ | .jessWaitCancel _
  | .jessWaitTimeout _ | .epochMark _ | .gatherReq _ | .rdRsp _ | .wrAck _ | .amoRsp _ | .jessGrant _ | .gatherRsp _
  | .moultStepStart _ | .moultStepDone _ | .moultStepTimeout _ | .dropNoticeRx _ => true
  | .resetRequest _ | .oapRead _ | .oapWrite _ | .oapReadPending _ | .oapDiscardPending _ | .oapDescribe _
  | .sessionOpen _ | .sessionProve _ | .sessionClose _ | .oapUndefinedService _ | .segmentTimeout _ | .snapshotExpiry _
  | .sessionIdleTimeout _ | .lockoutExpiry _ | .expertKey _ | .profileApply _ | .unitReq _ | .deviceIdWrite _
  | .deviceIdLock _ | .powerCapWrite _ | .stallSelect _ | .poisonInject _ | .pelletLogEntriesWrite _
  | .pelletReadSeqWrite _ | .statsSnapshot _ | .statsSnapshotClear _ | .eccInject _ | .mxtRole _ | .understudy _
  | .repairRequest _ | .faultInject _ | .mxtClkLimit _ | .vxtExcInject _ | .hotCacheKib _ | .epochMarkMgmt _
  | .edSourceWrite _ | .unitDomainWrite _ | .catInject _ | .spRuleWrite _ | .spInject _ | .cfgInject _ | .fpCtxWrite _
  | .phLinkEnable _ | .patternCtrl _ | .laneInject _ | .devRouteWrite _ | .errNClear _ | .errInject _ | .testRequest _
  | .testForce _ | .faultClear _ | .coolantInletWrite _ => true

end Sys2Proof
end

