-- ==== Sys2Proof/Safety.lean ====
section
/-!
DEFINITION. The terms in which claims about the block are made: completing, the canonical form of memory and dictionary, what
every command keeps, the word a program slot stands at, and the request at the head of a transport.
-/
namespace Sys2Proof.Machine

/-- A command answers a next state of which `P` holds. -/
def Completes (c : Instr) (s : State) (P : State → Prop) : Prop := ∃ t, exec c s = .next t ∧ P t

/-- One byte of memory as stored. -/
def State.byteAt (s : State) (a : Nat) : Byte := SMap.get 0 s.mem.cells a

/-- The canonical form of memory: addresses rise, and no byte is listed that an unlisted address reads as. -/
def Memory.wf (m : Memory) : Bool := SMap.wf 0 m.cells

/-- The keys of a map rise strictly. -/
def keysRise {α : Type} : SMap α → Bool
  | [] => true
  | [_] => true
  | a :: b :: m => decide (a.1 < b.1) && keysRise (b :: m)

/-- The canonical form of the dictionary: keys rise, and no object is listed at its default in the variant. -/
def State.dictWf (s : State) : Bool :=
  keysRise s.dict && s.dict.all fun e => decide (e.2 ≠ BitVec.ofNat 64 (objDefault s.variant e.1))

/-- Memory and dictionary are canonical, so that equal contents are equal data. -/
def State.canonical (s : State) : Prop := s.mem.wf = true ∧ s.dictWf = true

/-- What no command changes, and what only grows: the waiting commands, the fuses of the variant, the burnt hours. -/
structure Kept (s t : State) : Prop where
  pending : t.pending = s.pending
  variant : t.variant = s.variant
  fuses : t.fusesOk = s.fusesOk
  hours : s.safety.hourBits ≤ t.safety.hourBits
  canonical : s.canonical → t.canonical

/-- What every command but a reset keeps beside that: the latch of the safe state. -/
structure Steady (s t : State) : Prop extends Kept s t where
  safe : s.safety.safe = true → t.safety.safe = true

/-- The commands that can end the safe state: the resets of R757. -/
def endsSafe : Instr → Bool
  | .powerOn _ | .vinLoss _ _ | .vinFastDrop _ | .porstN | .wrstN | .krstN | .resetRequestApply => true
  | _ => false

/-! Program slots. -/

/-- The command a program slot stands at, whole, with the state after its words are fetched; none where the slot may not run,
stands past its program, or has a word still to come or one that fails. -/
def State.wordAt (s : State) (q k : Nat) : Option (Cmd × State) :=
  let t := s.slot q k
  if !s.canRun q k || decide (t.words ≤ t.wi) then none else
  match s.fetch q k t.wi with
  | .word w0 s' =>
    let n := cmdWords (bits w0 56 8)
    if t.words < t.wi + n then none else
    match s'.fetchCmd q k t.wi w0 n with
    | (.word _ s'', c) => some (c, s'')
    | _ => none
  | _ => none

/-- The word a program slot stands at, with the state after its fetch; none where the slot may not run, stands past its program,
or the word is still to come or fails. -/
def State.headAt (s : State) (q k : Nat) : Option (Nat × State) :=
  if !s.canRun q k || decide ((s.slot q k).words ≤ (s.slot q k).wi) then none else
  match s.fetch q k (s.slot q k).wi with
  | .word w0 s' => some (w0, s')
  | _ => none

/-- The opcode of a command. -/
def Cmd.op (c : Cmd) : Nat := bits c.w0 56 8

/-- The function code of a unit operation. -/
def Cmd.func (c : Cmd) : Nat := bits c.w0 48 8

/-- No unit that a program's entry names is FAULTED (R26). -/
def State.unitsServe (s : State) (q k : Nat) : Bool :=
  !((targetUnits (s.slot q k).execTarget).any fun u => s.unitSt u == .faulted)

/-- A unit-operation word that may issue now: the registers it uses are performed and unmarked, its checks pass, its count is
not 0, its units serve, no leader holds it and its unit's queue has room (R198, R218, R233). -/
def State.mayIssue (s : State) (q k : Nat) (regs : List Nat) (check : Nat) (zero : Bool) : Bool :=
  let t := s.slot q k
  !(regs.any t.pendReg) && t.marks regs == 0 && check == 0 && !zero && s.unitsServe q k && !(s.leaderHolds q k false) &&
  decide ((s.seq q).queue.length < t.depth)

/-- The registers that a VXOP word of function f uses as addresses and values (Table 12.1). -/
def vxRegs (f : Nat) (c : Cmd) : List Nat :=
  [cXd c, cXs1 c] ++ (if vxUsesXs2 f then [cXs2 c] else []) ++ (if vxUsesXp f then [cXp c] else [])

/-- The registers that an MXPASS word uses, and whether one of its counts is 0 (Table 5.9). -/
def mxRegs (c : Cmd) : List Nat :=
  [bits c.w0 8 4, bits c.w0 4 4] ++ (if bit c.w0 23 then [bits c.w0 0 4] else []) ++
    (if bit c.w0 23 && bits c.w0 20 3 ≠ 0 then [bits c.w1 36 4] else [])
def mxZero (c : Cmd) : Bool := bits c.w1 52 12 = 0 || bits c.w1 40 12 = 0 || bits c.w0 24 24 = 0

/-- The registers that a GXOP word uses (Table 5.9). -/
def gxRegs (c : Cmd) : List Nat :=
  [gXi c, gXo c] ++ (if gPool c = 0 then [] else [gXl c]) ++ (if gPool c = 2 then [gXw c] else [])

/-- The registers that a CXOP word uses (Table 14.4). -/
def cxRegs (c : Cmd) : List Nat :=
  let f := cFunc c
  [cXd c] ++ (if cxUsesXs1 f then [cXs1 c] else []) ++ (if cxUsesXs2 f then [cXs2 c] else []) ++
    (if cxMayUseXp f && (f ≠ 0x10 || cXp c ≠ 0) then [cXp c] else [])

/-- A CXOP word that may issue now: no reserved value, a count, no CXOP of the tile before it, registers performed and
unmarked, the generator up where it is drawn from, and headers and plan without a failure (R549 to R560). -/
def State.cxMayIssue (s : State) (q k : Nat) (c : Cmd) : Bool :=
  let t := s.slot q k
  let p := s.cxPlan q t.reg c
  !(cxReserved c) && cCount c != 0 && (s.seq q).queue.isEmpty && !((cxRegs c).any t.pendReg) && t.marks (cxRegs c) == 0 &&
  (cFunc c != 0x34 || s.drbgUp) && p.headers.all (fun o => s.mark (storeBase q + o) == 0) && worstFault p.faults == 0 &&
  s.unitsServe q k && !(s.leaderHolds q k false) && decide ((s.seq q).queue.length < t.depth)

/-- A STREAM word that names engine e and has no reserved bit set (R225). -/
def streamReady (s : State) (q k : Nat) (c : Cmd) (e : Nat) : Prop :=
  engOf q (s.slot q k).target (bits c.w0 50 6) = some e ∧ bits c.w0 0 43 = 0 ∧
  (bits c.w0 48 2 ≠ 0 → bits c.w0 44 4 = 0 ∧ bit c.w0 43 = false)

/-- A buffered store leaves for node n (R376). -/
def State.sendStore (s : State) (q : Nat) (e : SbEntry) (n : Nat) : Option State :=
  s.send { writePacket (.slot q e.slot) 1 n e.addr e.bytes e.poison e.replay with whole := s.wholePair e.addr e.bytes.length }
    (.sbStore q e.tag)

/-- The VXOP rows and their FUNC codes (Table 12.1). -/
def vxRows (q k : Nat) : List (Instr × Nat) :=
  [(.vxopAdd q k, 0x01), (.vxopSub q k, 0x02), (.vxopMul q k, 0x03), (.vxopMin q k, 0x04), (.vxopMax q k, 0x05),
   (.vxopAddSat q k, 0x08), (.vxopSubSat q k, 0x09), (.vxopAbs q k, 0x10), (.vxopNeg q k, 0x11), (.vxopRelu q k, 0x12),
   (.vxopClamp q k, 0x13), (.vxopAffine q k, 0x14), (.vxopExp2 q k, 0x20), (.vxopLog2 q k, 0x21), (.vxopRecip q k, 0x22),
   (.vxopRsqrt q k, 0x23), (.vxopSigmoid q k, 0x28), (.vxopTanh q k, 0x29), (.vxopSilu q k, 0x2A),
   (.vxopConvert q k, 0x30), (.vxopRequant q k, 0x31), (.vxopRedSum q k, 0x40), (.vxopRedMax q k, 0x41),
   (.vxopRedMin q k, 0x42), (.vxopTopk q k, 0x50), (.vxopSort q k, 0x51), (.vxopGather q k, 0x60),
   (.vxopScatter q k, 0x61), (.vxopLimbcomb q k, 0x70)]

/-- The CXOP rows and their FUNC codes (Table 14.4). -/
def cxRows (q k : Nat) : List (Instr × Nat) :=
  [(.pAdd q k, 0x01), (.pSub q k, 0x02), (.pMul q k, 0x03), (.pMulc q k, 0x04), (.pNeg q k, 0x05), (.pPart q k, 0x06),
   (.ntt q k, 0x08), (.intt q k, 0x09), (.auto q k, 0x0A), (.rescale q k, 0x10), (.moddrop q k, 0x11), (.twgen q k, 0x18),
   (.limbSplit q k, 0x20), (.shAdd q k, 0x30), (.shSub q k, 0x31), (.shMul q k, 0x32), (.shAddpub q k, 0x33),
   (.shRand q k, 0x34)]

/-! Object-access requests. -/

/-- The request that a transport's row executes now: its source, the request, and the requests behind it. -/
def State.headReq (s : State) (t : Transport) : Option (Nat × Req × List RxReq) :=
  match (s.port t).queue with
  | [] => none
  | q :: rest => if s.oap.waiting.isEmpty && s.nextTransport == some t then some (q.src, parseReq q.bytes, rest) else none

/-- The state in which that request is executed: it has left its queue, the turn has passed on and it is counted (R93). -/
def State.taken (s : State) (t : Transport) (rest : List RxReq) : State :=
  let s := s.setPort t { s.port t with queue := rest }
  let s : State := { s with oap := { s.oap with turn := (transportIndex t + 1) % 3 } }
  s.bump Obj.OAP_REQUESTS

/-- The rows that execute a request: the transport and the kind of request each executes (Table 3.4). -/
def oapRow : Instr → Option (Transport × OapKind)
  | .oapRead t => some (t, .read)
  | .oapWrite t => some (t, .write)
  | .oapReadPending t => some (t, .readPending)
  | .oapDiscardPending t => some (t, .discardPending)
  | .oapDescribe t => some (t, .describe)
  | .sessionOpen t => some (t, .sessionOpen)
  | .sessionProve t => some (t, .sessionProve)
  | .sessionClose t => some (t, .sessionClose)
  | .oapUndefinedService t => some (t, .undefined)
  | .resetRequest t => some (t, .own .resetRequest)
  | .expertKey t => some (t, .own .expertKey)
  | .profileApply t => some (t, .own .profileApply)
  | .unitReq t => some (t, .own .unitReq)
  | .deviceIdWrite t => some (t, .own .deviceId)
  | .deviceIdLock t => some (t, .own .deviceIdLock)
  | .powerCapWrite t => some (t, .own .powerCap)
  | .stallSelect t => some (t, .own .stallSelect)
  | .poisonInject t => some (t, .own .poisonInject)
  | .pelletLogEntriesWrite t => some (t, .own .logEntries)
  | .pelletReadSeqWrite t => some (t, .own .readSeq)
  | .statsSnapshot t => some (t, .own .snapshot)
  | .statsSnapshotClear t => some (t, .own .snapshotClear)
  | .eccInject t => some (t, .own .eccInject)
  | .mxtRole t => some (t, .own .mxtRole)
  | .understudy t => some (t, .own .understudy)
  | .repairRequest t => some (t, .own .repair)
  | .faultInject t => some (t, .own .faultInject)
  | .mxtClkLimit t => some (t, .own .mxtClk)
  | .vxtExcInject t => some (t, .own .excInject)
  | .hotCacheKib t => some (t, .own .hotCache)
  | .epochMarkMgmt t => some (t, .own .epochMark)
  | .edSourceWrite t => some (t, .own .edSource)
  | .unitDomainWrite t => some (t, .own .unitDomain)
  | .catInject t => some (t, .own .catInject)
  | .spRuleWrite t => some (t, .own .spRule)
  | .spInject t => some (t, .own .spInject)
  | .cfgInject t => some (t, .own .cfgInject)
  | .fpCtxWrite t => some (t, .own .fpCtx)
  | .phLinkEnable t => some (t, .own .linkEnable)
  | .patternCtrl t => some (t, .own .pattern)
  | .laneInject t => some (t, .own .laneInject)
  | .devRouteWrite t => some (t, .own .devRoute)
  | .errNClear t => some (t, .own .errNClear)
  | .errInject t => some (t, .own .errInject)
  | .testRequest t => some (t, .own .testRequest)
  | .testForce t => some (t, .own .testForce)
  | .faultClear t => some (t, .own .faultClear)
  | .coolantInletWrite t => some (t, .own .coolant)
  | _ => none

/-- A request whose frame, framing fields and tag pass the checks that need no object (R85, R97, R114). -/
def Req.sound (s : State) (t : Transport) (r : Req) : Prop :=
  firstOf (r.frameChecks t ++ [r.tagCheck (s.tagOk t r)]) = 0

/-- A whole write in one request that passes every check: its object exists, the value has the object's size, and no check of
value, unit, right or rule fails (R85, R88). -/
structure WholeWrite (s : State) (t : Transport) (r : Req) (o : ORow) : Prop where
  sound : r.sound s t
  object : objAt r.key = some o
  offset : r.off = 0
  whole : r.len = r.total
  some_ : r.total ≠ 0
  sized : if o.ty.varSize then r.total ≤ o.maxBytes ∧ (o.isFixed = true → r.total = o.maxBytes) else r.total = o.ty.size
  checks : firstOf ((s.dropSegment t true).writeChecks t (s.tagOk t r) r.key o r.value) = 0

end Sys2Proof.Machine
end

