-- ==== Sys2Proof/Certificates/Slice0/Obligations.lean ====
section
/-!
DEFINITION. Statements about the block, from the numbered rules of the spec.
-/
open Sys2Proof Sys2Proof.Machine

/-- A step runs the command at the front of the queue (Host/Core.lean, assumption log 9). That an empty queue lets device
time go on is the model's choice (log 9). -/
def Obligations.FrontCommandRuns : Prop :=
  (∀ (s : State) (c : Instr) (rest : List Instr),
    step { s with pending := c :: rest } = exec c { s with pending := rest }) ∧
  (∀ s : State, s.pending = [] → ∃ t, step s = .next t ∧ t.timeNs = (s.timeNs + tickNs) % 2 ^ 64 ∧
    { t with timeNs := s.timeNs } = s)

/-- What the block holds at reset (R53, Table 2.8, assumption log 10). That a byte of memory reads 0 before it is written,
and that the block starts in a held cold reset, are the model's choices (logs 5 and 10). -/
def Obligations.ResetValues : Prop :=
  let s := State.reset
  s.pending = [] ∧ s.stage = 0 ∧ s.sup.coldReset = true ∧ (∀ u, s.unitSt u = .off) ∧ (∀ a, s.byteAt a = 0) ∧ s.canonical ∧
  s.safety.safe = false ∧ s.safety.errN = false ∧ s.host.linkUp = false ∧ (∀ n, (s.ring n).st = .disabled) ∧
  (∀ q k, (s.slot q k).role = .empty) ∧ (∀ e, (s.engine e).st = .idle) ∧ (∀ p, s.sem p = 0) ∧
  (∀ d, (s.epoch d).commit = .idle) ∧ (∀ n, (s.phy n).step = 0) ∧ (∀ t : Transport, (s.port t).queue = [])

/-- No command stops the block (assumption log 2). -/
def Obligations.EveryCommandAnswersNext : Prop :=
  ∀ (c : Instr) (s : State), ∃ t, exec c s = .next t

/-- Every step keeps memory and dictionary canonical (08_memory_and_apertures.md, 03_object_dictionary.md). -/
def Obligations.StepKeepsCanonicalForm : Prop :=
  ∀ s t : State, s.canonical → step s = .next t → t.canonical

/-- No command changes the fuses or the waiting commands, and burnt hours only grow (R1, R13, R769). -/
def Obligations.StepKeepsFusesAndQueue : Prop :=
  ∀ s t : State, step s = .next t →
    t.pending = s.pending.tail ∧ t.variant = s.variant ∧ t.fusesOk = s.fusesOk ∧ s.safety.hourBits ≤ t.safety.hourBits

/-- Only a reset ends the safe state (R755, R757). -/
def Obligations.SafeStateIsLatched : Prop :=
  ∀ (s t : State) (c : Instr) (rest : List Instr), s.pending = c :: rest → s.safety.safe = true → endsSafe c = false →
    step s = .next t → t.safety.safe = true

/-- A cold reset begins again at S0 (R37, R40, R50, R53, R56). -/
def Obligations.ColdResetsBeginAtS0 : Prop :=
  let fresh (s : State) (cause : Nat) (t : State) : Prop :=
    t.stage = 0 ∧ t.sup.coldReset = true ∧ t.obj Obj.RESET_CAUSE = cause ∧ t.safety.safe = false ∧ (∀ a, t.byteAt a = 0) ∧
    (∀ u, t.unitSt u = .off) ∧ t.host.rings = [] ∧ t.seqs = [] ∧ t.safety.hourBits = s.safety.hourBits ∧
    t.oap.key = s.oap.key ∧ t.variant = s.variant ∧ (keysRise s.tiles.mxt = true → ∀ n, (t.tile n).spares = (s.tile n).spares)
  (∀ s mv, s.sup.vinMv < 4500 → 6500 ≤ mv → Completes (.powerOn mv) s fun t => fresh s 0 t ∧ t.sup.vinMv = mv) ∧
  (∀ s, Completes .porstN s (fresh s 1)) ∧
  (∀ s collapse mv, mv < (if collapse then 4500 else 6000) → s.sup.coldReset = false →
    Completes (.vinLoss collapse mv) s fun t => fresh s (if collapse then 3 else 2) t ∧ t.sup.vinMv = mv) ∧
  (∀ s mv, mv < 6000 → s.sup.coldReset = false → s.bandSettled = false →
    Completes (.vinFastDrop mv) s fun t => fresh s 4 t ∧ t.sup.vinMv = mv) ∧
  (∀ s pins, s.sup.coldReset = true → 4500 ≤ s.sup.vinMv → Completes (.coldResetRelease pins) s fun t =>
    t.sup.coldReset = false ∧ t.sup.bootPins = pins % 8 ∧ t.obj Obj.BOOT_MODE_SAMPLED = pins % 8 ∧ 6000 ≤ t.sup.vinMv ∧ t.mem = s.mem)

/-- Warm resets, keeper resets and their requests (R52, R53, R73, R757). -/
def Obligations.WarmAndKeeperResets : Prop :=
  let warm (s : State) (cause : Nat) (t : State) : Prop :=
    t.obj Obj.RESET_CAUSE = cause ∧ t.safety.safe = false ∧ t.stage ≤ 1 ∧ (∀ u, t.unitSt u = .off) ∧ t.seqs = [] ∧
    t.host.rings = [] ∧ t.str = {} ∧ t.net = {} ∧ t.agg = s.agg ∧ t.safety.hourBits = s.safety.hourBits ∧ t.timeNs = s.timeNs ∧
    ((s.obj Obj.HBM_MAP == 1) = s.mem.hbmLinear → ∀ a, regionOf a = .hbm → t.byteAt a = s.byteAt a)
  let keeper (s : State) (cause : Nat) (t : State) : Prop :=
    t.obj Obj.RESET_CAUSE = cause ∧ t.oap.can = {} ∧ t.oap.t1s = {} ∧ t.oap.mbx = {} ∧ t.safety.errN = false ∧ t.seqs = s.seqs ∧
    t.host = s.host ∧ (∀ a, t.byteAt a = s.byteAt a)
  (∀ s, s.sup.coldReset = false → Completes .wrstN s (warm s 5)) ∧
  (∀ s, s.sup.coldReset = false → s.sup.keeperHeld = false → s.safety.safe = true →
    Completes .krstN s fun t => warm s 7 t ∧ t.sup.keeperHeld = true) ∧
  (∀ s, s.sup.coldReset = false → s.sup.keeperHeld = false → s.safety.safe = false →
    Completes .krstN s fun t => keeper s 7 t ∧ t.sup.keeperHeld = true) ∧
  (∀ s, s.sup.keeperHeld = true → exec .krstN s = .next { s with sup := { s.sup with keeperHeld := false } }) ∧
  (∀ s, s.sup.coldReset = true → s.sup.keeperHeld = false → exec .krstN s = .next { s with sup := { s.sup with keeperHeld := true } }) ∧
  (∀ s, s.sup.coldReset = false → s.sup.resetWaits = some 1 → Completes .resetRequestApply s (warm s 6)) ∧
  (∀ s v, s.sup.coldReset = false → s.sup.resetWaits = some v → v ≠ 1 → s.safety.safe = false →
    Completes .resetRequestApply s (keeper s 8))

/-- PCIE_PERST_N resets the endpoint and not the units (R54, R142). -/
def Obligations.FundamentalResetOfTheLink : Prop :=
  (∀ s, s.sup.coldReset = false → s.sup.pciePerst = false → Completes .pciePerstN s fun t =>
    t.sup.pciePerst = true ∧ t.ucbs = s.ucbs ∧ t.seqs = s.seqs ∧ t.mem = s.mem ∧ t.agg = s.agg ∧ t.oap.mbx = {} ∧
    t.oap.can = s.oap.can ∧
    (∀ n r, (n, r) ∈ t.host.rings → r.fetched = [] ∧ (r.st = .disabled ∨ r.st = .resetting)) ∧
    t.host.rings.map (·.1) = s.host.rings.map (·.1)) ∧
  (∀ s, s.sup.pciePerst = true → Completes .pciePerstRelease s fun t =>
    t.sup.pciePerst = false ∧ t.host.totalVfs = s.obj Obj.TOTAL_VFS ∧ t.host.vfMsix = s.obj Obj.VF_MSIX_VECTORS ∧
    t.host.vfBar2Log2 = s.obj Obj.VF_BAR2_LOG2 ∧ t.dict = s.dict ∧ t.mem = s.mem)

/-- A crossed threshold enters its band (R36, R38, R39, Table 2.1). -/
def Obligations.SupplyBandsTakeEffect : Prop :=
  (∀ s band vin, s.sup.coldReset = false → bandCrossed s.sup.band band vin.now = true → Completes (.vinBandEntry band vin) s fun t =>
    t.sup.band = band ∧ t.sup.vinMv = vin.now ∧ (∀ a, t.byteAt a = s.byteAt a) ∧ t.sup.coldReset = false) ∧
  (∀ s, s.sup.entryRunning = true → Completes .mewsEntryComplete s fun t =>
    t.sup.entryRunning = false ∧ t.sup.inMews = true ∧ t.sup.selfRefresh = true ∧ t.sup.band = s.sup.band) ∧
  (∀ s, s.sup.exitRunning = true → Completes .mewsExitComplete s fun t =>
    t.sup.exitRunning = false ∧ t.sup.inMews = false ∧ t.sup.band = s.sup.band)

/-- Bring-up stages, SAFE_IN_N and reference clocks (R49, R59, R66, R754, R692). -/
def Obligations.BringupAndClocks : Prop :=
  (∀ s r, s.stageOpen = true →
    let s1 := (s.setObj Obj.BRINGUP_STAGE (s.stage + 1)).setObj (Obj.STAGE_TIME (s.stage + 1)) r.timeUs
    let s2 := match s.stage + 1 with
      | 1 => s1.reachS1
      | 2 => s1.reachS2 r.unitFail
      | 3 => s1.reachS3 r
      | 4 => s1.reachS4 r
      | _ => s1.reachS5 r.unitFail
    exec (.stageReached r) s = .next (s2.sendEvent 3 0xFF 0 (s.stage + 1) 0 0 0) ∧ s1.stage = (s.stage + 1) % 2 ^ 64) ∧
  (∀ s, s.stage < 5 → s.sup.coldReset = false → s.stageHeld (s.stage + 1) = false →
    exec .bringupLate s = .next ((s.stageFault 32768).raise Es.bringupLate)) ∧
  (∀ s, s.sup.safeIn = false → 2 ≤ s.stage → Completes .safeInNAssert s fun t => t.sup.safeIn = true ∧ t.safety.safe = true) ∧
  (∀ s, s.sup.safeIn = false → s.stage < 2 → Completes .safeInNAssert s fun t => t.sup.safeIn = true ∧ t.safety = s.safety) ∧
  (∀ s, Completes .safeInNRelease s fun t => t.sup.safeIn = false ∧ t.safety = s.safety ∧ t.mem = s.mem) ∧
  (∀ s, s.sup.coldReset = false → s.sup.refSys = true → 2 ≤ s.stage → Completes (.refclkLoss .sys) s fun t =>
    t.sup.refSys = false ∧ t.safety.safe = true) ∧
  (∀ s, s.sup.coldReset = false → s.sup.refPcie = true → Completes (.refclkLoss .pcie) s fun t =>
    t.sup.refPcie = false ∧ t.host.linkUp = false ∧ t.obj Obj.REFCLK_LOSS_COUNT = satBump 32 (s.obj Obj.REFCLK_LOSS_COUNT) 1) ∧
  (∀ s, s.sup.coldReset = false → s.sup.kclkOk = true → Completes (.refclkLoss .kclk) s fun t =>
    t.sup.kclkOk = false ∧ t.safety.safe = true) ∧
  (∀ s g, g < 5 → bit s.sup.refLane g = true → Completes (.refclkLoss (.lane g)) s fun t => bit t.sup.refLane g = false) ∧
  (∀ s g, g < 5 → bit s.sup.refLane g = false →
    Completes (.refclkLaneReturn g) s (fun t => bit t.sup.refLane g = true) ∧
    Completes (.refclkReturn (.lane g)) s (fun t => bit t.sup.refLane g = true)) ∧
  (∀ s, Completes (.refclkReturn .sys) s (fun t => t.sup.refSys = true ∧ t.mem = s.mem) ∧
    Completes (.refclkReturn .pcie) s (fun t => t.sup.refPcie = true ∧ t.mem = s.mem) ∧
    Completes (.refclkReturn .kclk) s (fun t => t.sup.kclkOk = true ∧ t.mem = s.mem))

/-- Power cap and junction temperature (R43, R47, R790, R791). -/
def Obligations.PowerAndHeatControl : Prop :=
  (∀ s watts, s.sup.coldReset = false →
    let s1 := s.setObj Obj.INPUT_POWER_W (min watts 65535)
    (s1.capEffective < watts → 25 < s1.tclk →
      Completes (.inputPowerCapControl watts) s fun t => t.sup.capDrop = s.sup.capDrop + 25 ∧ t.obj Obj.INPUT_POWER_W = min watts 65535) ∧
    (watts < s1.capEffective →
      Completes (.inputPowerCapControl watts) s fun t => t.sup.capDrop = s.sup.capDrop - 25 ∧ t.obj Obj.INPUT_POWER_W = min watts 65535)) ∧
  (∀ s (rs : List Int) (v : Int) (i : Nat), s.sup.coldReset = false → rs.length = 64 → hottest rs = some (v, i) →
    Completes (.thermalCompare rs) s fun t => t.cool.sensors = rs ∧ t.obj Obj.TJ_MAX_DC = unsgn 32 v ∧ t.obj Obj.TJ_MAX_SENSOR = i ∧
      t.safety.safe = s.safety.safe ∧ t.mem = s.mem) ∧
  (∀ s (rs : List Int), s.sup.coldReset = false → rs.length = 64 → hottest rs = none →
    Completes (.thermalCompare rs) s fun t => t.safety.safe = true ∧ t.cool.excluded.length = 64) ∧
  (∀ s sensor, sensor < 64 → s.sup.coldReset = false → Completes (.thermTrip sensor) s fun t => t.safety.safe = true ∧
    (SMap.get {} t.agg.src Es.thermTrip).count = satBump 32 (SMap.get {} s.agg.src Es.thermTrip).count 1)

/-- Scalar command words compute what their layouts say (Table 5.4, R200, R275). -/
def Obligations.ScalarWordsCompute : Prop :=
  ∀ (s s' : State) (q k : Nat) (c : Cmd), s.wordAt q k = some (c, s') →
    let t := s'.slot q k
    let rd := bits c.w0 48 4
    let xs := bits c.w0 44 4
    let xt := bits c.w0 40 4
    (c.op = 0x01 → bits c.w0 0 56 = 0 → exec (.nop q k) s = .next (s'.advance q k 1)) ∧
    (c.op = 0x07 → bits c.w0 0 56 = 0 →
      exec (.overlap q k) s = .next ((s'.setSlot q k { t with overlapped := true }).advance q k 1)) ∧
    (c.op = 0x03 → bits c.w0 52 4 = 0 → t.pendReg rd = false →
      exec (.movi q k) s = .next ((s'.setSlot q k (t.setReg rd (unsgn 64 (sgn 48 c.w0)) 0)).advance q k 1)) ∧
    (c.op = 0x04 → bits c.w0 52 4 = 0 → bits c.w0 16 32 = 0 → t.pendReg rd = false →
      exec (.movhi q k) s = .next
        ((s'.setSlot q k (t.setReg rd (t.reg rd % 2 ^ 48 + bits c.w0 0 16 * 2 ^ 48) (t.regMark rd))).advance q k 1)) ∧
    (c.op = 0x05 → bits c.w0 52 4 = 0 → bits c.w0 32 12 = 0 → t.pendReg rd = false → t.pendReg xs = false →
      exec (.addi q k) s = .next
        ((s'.setSlot q k (t.setReg rd ((t.reg xs + unsgn 64 (sgn 32 c.w0)) % 2 ^ 64) (t.regMark xs))).advance q k 1)) ∧
    (c.op = 0x06 → bits c.w0 52 4 = 0 → bits c.w0 4 36 = 0 → bits c.w0 0 4 ≤ 0xC → t.pendReg rd = false →
      t.pendReg xs = false → t.pendReg xt = false →
      exec (.alu q k) s = .next ((s'.setSlot q k (t.setReg rd (aluOp (bits c.w0 0 4) (t.reg xs) (t.reg xt))
        (firstMark (t.regMark xs) (t.regMark xt)))).advance q k 1))

/-- The ALU operations are 64-bit word arithmetic (R201). -/
def Obligations.AluIsSixtyFourBitArithmetic : Prop :=
  ∀ (a b : BitVec 64),
    let f (op : Nat) : BitVec 64 := BitVec.ofNat 64 (aluOp op a.toNat b.toNat)
    let sh := b.toNat % 64
    f 0x0 = a + b ∧ f 0x1 = a - b ∧ f 0x2 = a &&& b ∧ f 0x3 = a ||| b ∧ f 0x4 = a ^^^ b ∧ f 0x5 = a <<< sh ∧
    f 0x6 = a >>> sh ∧ f 0x7 = a.sshiftRight sh ∧ f 0x8 = a * b ∧ f 0x9 = (if a.sle b then a else b) ∧
    f 0xA = (if a.sle b then b else a) ∧ f 0xB = (if a.ule b then a else b) ∧ f 0xC = (if a.ule b then b else a) ∧
    ∀ op ≤ 0xC, aluOp op a.toNat b.toNat < 2 ^ 64

/-- The frame of fetching and of the scalar and control words (05_command_words.md, R195, R203). -/
def Obligations.WordsChangeOnlyTheirSlot : Prop :=
  (∀ (s s' : State) (q k : Nat) (c : Cmd), s.wordAt q k = some (c, s') →
    (∃ lines, s'.slot q k = { s.slot q k with lines := lines }) ∧
    (∀ q' k', k' < 2 → (q', k') ≠ (q, k) → s'.slot q' k' = s.slot q' k') ∧
    (∀ q', (s'.seq q').queue = (s.seq q').queue ∧ (s'.seq q').sb = (s.seq q').sb) ∧
    (∀ a, s'.byteAt a = s.byteAt a) ∧ s'.str = s.str ∧ s'.ep = s.ep ∧ s'.tiles = s.tiles ∧ s'.pending = s.pending) ∧
  (∀ (s : State) (q k n rd v m : Nat), k < 2 →
    let t := (s.setSlot q k ((s.slot q k).setReg rd v m)).advance q k n
    (∀ r, r ≠ rd → (t.slot q k).reg r = (s.slot q k).reg r ∧ (t.slot q k).regMark r = (s.slot q k).regMark r) ∧
    (∀ q' k', k' < 2 → (q', k') ≠ (q, k) → t.slot q' k' = s.slot q' k') ∧
    (∀ q', (t.seq q').queue = (s.seq q').queue ∧ (t.seq q').sb = (s.seq q').sb) ∧
    (∀ key, key ≠ Obj.WORDS_EXECUTED → t.obj key = s.obj key) ∧
    (∀ a, t.byteAt a = s.byteAt a) ∧ t.str = s.str ∧ t.host = s.host ∧ t.net = s.net ∧ t.ucbs = s.ucbs)

/-- Branches, loops and END (R202, R203, R194). -/
def Obligations.BranchesLoopsAndEnd : Prop :=
  (∀ (s s' : State) (q k : Nat) (c : Cmd), s.wordAt q k = some (c, s') →
    let t := s'.slot q k
    let xs := bits c.w0 44 4
    let xt := bits c.w0 40 4
    let cond := bits c.w0 48 4
    let rs := if cond = 0 then [] else [xs, xt]
    let i : Int := (t.wi : Int) + sgn 24 c.w0
    let n := if bit c.w0 51 then t.reg xs else bits c.w0 0 24
    let body := bits c.w0 24 16
    let stop := t.wi + 1 + body
    (c.op = 0x08 → bits c.w0 52 4 = 0 → bits c.w0 24 16 = 0 → cond ≤ 6 → (cond = 0 → xs = 0 ∧ xt = 0) →
      rs.any t.pendReg = false → t.marks rs = 0 →
      (brCond cond (t.reg xs) (t.reg xt) = false → exec (.br q k) s = .next (s'.advance q k 1)) ∧
      (brCond cond (t.reg xs) (t.reg xt) = true → 0 ≤ i → i < (t.words : Int) →
        Completes (.br q k) s fun u => (u.slot q k).wi = i.toNat ∧ (u.slot q k).lastWi = t.wi ∧
          (u.slot q k).loops = leaveLoops t.loops i.toNat ∧ (u.slot q k).x = t.x)) ∧
    (c.op = 0x09 → bits c.w0 52 4 = 0 → bits c.w0 48 3 = 0 → bits c.w0 40 4 = 0 →
      (bit c.w0 51 = false → xs = 0) → (bit c.w0 51 = true → bits c.w0 0 24 = 0 ∧ t.pendReg xs = false ∧ t.regMark xs = 0) →
      (body = 0 → exec (.loop q k) s = .next (s'.advance q k 1)) ∧
      (body ≠ 0 → stop ≤ t.words → t.loops.length < 4 → (∀ l ∈ t.loops.head?, stop ≤ l.stop) →
        ∀ v : State, State.scanBody q k stop body (t.scan.getD (t.wi + 1)) s' = (stop, true, v) →
        (n = 0 → exec (.loop q k) s = .next (v.advance q k (1 + body))) ∧
        (n ≠ 0 → Completes (.loop q k) s fun u => (u.slot q k).wi = t.wi + 1 ∧
          (u.slot q k).loops = { start := t.wi + 1, stop := stop, left := n } :: t.loops ∧ (u.slot q k).x = (v.slot q k).x)))) ∧
  (∀ (s : State) (q k : Nat), s.canRun q k = true → (s.slot q k).words ≤ (s.slot q k).wi →
    exec (.endProgram q k) s = .next (s.endWord q k)) ∧
  (∀ (s s' : State) (q k : Nat) (c : Cmd), s.wordAt q k = some (c, s') → c.op = 0x02 → bits c.w0 0 56 = 0 →
    exec (.endProgram q k) s = .next (s'.endWord q k))

/-- Loads, stores and atomics start as their words say (R206, R207, Table 5.6). -/
def Obligations.MemoryWordsIssue : Prop :=
  ∀ (s s' : State) (q k : Nat) (c : Cmd), s.wordAt q k = some (c, s') → bits c.w0 52 4 = 0 →
    let rd := bits c.w0 48 4
    let xv := bits c.w0 40 4
    (c.op = 0x10 → bits c.w0 32 9 = 0 → ¬(bits c.w0 42 2 = 3 ∧ bit c.w0 41 = true) →
      exec (.ld q k) s = .next (s'.loadWord q k c rd (2 ^ bits c.w0 42 2) (bit c.w0 41))) ∧
    (c.op = 0x12 → bits c.w0 32 12 = 0 → bit c.w0 48 = false → exec (.ldp q k) s = .next (s'.loadWord q k c rd 16 false)) ∧
    (c.op = 0x11 → bits c.w0 32 10 = 0 → exec (.st q k) s = .next (s'.storeWord q k c rd (2 ^ bits c.w0 42 2))) ∧
    (c.op = 0x13 → bits c.w0 32 12 = 0 → bit c.w0 48 = false → exec (.stp q k) s = .next (s'.storeWord q k c rd 16)) ∧
    (c.op = 0x14 → bits c.w0 32 12 = 0 →
      exec (.lr q k) s = .next (s'.atomicWord q k c rd 8 0x10 (fun _ => zeros 16) [] true false)) ∧
    (c.op = 0x15 → bits c.w0 32 8 = 0 →
      exec (.sc q k) s = .next (s'.atomicWord q k c rd 8 0x11 (fun t => leBytes 8 (t.reg xv) ++ zeros 8) [xv] true true)) ∧
    (c.op = 0x16 → bits c.w0 32 3 = 0 → bits c.w0 35 4 ≤ 9 →
      exec (.amo q k) s = .next (s'.atomicWord q k c rd (if bit c.w0 39 then 8 else 4) (bits c.w0 35 4)
        (fun t => leBytes 8 (t.reg xv) ++ leBytes 8 (t.reg rd)) (if bits c.w0 35 4 = 9 then [xv, rd] else [xv]) true true))

/-- A store enters the store buffer and no memory changes (R374, R377, 09_memory_ordering.md). -/
def Obligations.StoresEnterTheStoreBuffer : Prop :=
  ∀ (s : State) (q k xv n : Nat) (c : Cmd),
    let t := s.slot q k
    let xs := bits c.w0 44 4
    let x := s.xlateRange t.ctx (memAddr t c) n false true
    let s1 := x.2.2.2
    let ps := cutLines x.2.1
    let data := leBytes n (t.reg xv)
    c.op = 0x11 → t.pendReg xs = false → t.pendReg xv = false → t.regMark xs = 0 → x.1 = 0 →
    s1.isMmio (ps.headD (0, 0, 0)).1 = false → (s1.seq q).sb.length + ps.length ≤ t.sbDepth → k < 2 →
    let u := s.storeWord q k c xv n
    (u.seq q).sb = (s1.seq q).sb ++ ps.zipIdx.map (fun p =>
      { slot := k, addr := p.1.1, bytes := (data.drop p.1.2.1).take p.1.2.2, replay := x.2.2.1, poison := t.regMark xv,
        sent := false, tag := s1.nextOp + p.2 }) ∧
    (∀ a, u.byteAt a = s1.byteAt a) ∧ (u.slot q k).x = (s1.slot q k).x ∧
    (∀ q', q' ≠ q → u.seq q' = s1.seq q')

/-- Fences and RAND (R210, R385, R567). -/
def Obligations.FencesAndRandom : Prop :=
  ∀ (s s' : State) (q k : Nat) (c : Cmd), s.wordAt q k = some (c, s') →
    let t := s'.slot q k
    (c.op = 0x17 → bits c.w0 52 4 = 0 → bits c.w0 0 48 = 0 →
      (bits c.w0 48 4 = 0 → s'.drained q k = true →
        exec (.fenceDrain q k) s = .next (((s'.loseRsv q k).bump64 Obj.DRAINS).advance q k 1)) ∧
      (bits c.w0 48 4 = 1 → t.loads = [] → exec (.fenceAcquire q k) s = .next (s'.advance q k 1)) ∧
      (bits c.w0 48 4 = 2 → t.loads = [] → s'.drained q k = true →
        exec (.fenceRelease q k) s = .next ((s'.bump64 Obj.DRAINS).advance q k 1)) ∧
      (bits c.w0 48 4 = 3 → t.loads = [] → s'.drained q k = true →
        exec (.fenceFull q k) s = .next (((s'.setSlot q k { t with lines := [] }).bump64 Obj.DRAINS).advance q k 1)) ∧
      (bits c.w0 48 4 = 4 → s'.opsDone q k = true → (s'.settle q k).1 = 0 →
        exec (.fenceUnits q k) s = .next ((s'.settle q k).2.advance q k 1)) ∧
      (bits c.w0 48 4 = 0 → s'.drained q k = false → exec (.fenceDrain q k) s = .next (s'.waitAt q k .fence)) ∧
      (bits c.w0 48 4 = 1 → t.loads ≠ [] → exec (.fenceAcquire q k) s = .next (s'.waitAt q k .fence)) ∧
      (bits c.w0 48 4 = 2 → s'.released q k = false → exec (.fenceRelease q k) s = .next (s'.waitAt q k .fence)) ∧
      (bits c.w0 48 4 = 3 → s'.released q k = false → exec (.fenceFull q k) s = .next (s'.waitAt q k .fence)) ∧
      (bits c.w0 48 4 = 4 → s'.opsDone q k = false → exec (.fenceUnits q k) s = .next (s'.waitAt q k .fence))) ∧
    (c.op = 0x18 → bits c.w0 48 8 = 0 → bits c.w0 32 12 = 0 →
      let n := bits c.w0 0 32
      let xs := bits c.w0 44 4
      let x := s'.xlateRange t.ctx (t.reg xs) n false true
      (n = 0 → exec (.rand q k) s = .next (s'.advance q k 1)) ∧
      (n ≠ 0 → n % 8 = 0 → s'.drbgUp = true → t.pendReg xs = false → t.regMark xs = 0 → x.1 = 0 →
        t.randPos = 0 →
        let v : State := { x.2.2.2 with drbg := { x.2.2.2.drbg with requests := x.2.2.2.drbg.requests + cdiv n 65536 } }
        let w := State.randLines q k x.2.2.1 (cutLines x.2.1) v
        w.1 = 0 →
        (w.2.1 = n → exec (.rand q k) s = .next (w.2.2.advance q k 1)) ∧
        (w.2.1 ≠ n → w.2.1 ≠ 0 →
          exec (.rand q k) s = .next (w.2.2.setSlot q k { w.2.2.slot q k with randPos := w.2.1 }))))

/-- SEMWAIT, SEMPOST and SEMINIT act on the jess pairs (R213, R214, R215). -/
def Obligations.SemaphoreWordsAct : Prop :=
  (∀ (s s' : State) (q k : Nat) (c : Cmd), s.wordAt q k = some (c, s') →
    let m := semOf (bits c.w0 40 11) (bits c.w0 51 1)
    let n := bits c.w0 0 16
    (c.op = 0x20 → bits c.w0 52 4 = 0 → bits c.w0 24 16 = 0 → bits c.w0 16 4 = 0 → (s'.slot q k).semWait = none →
      s'.canTake m n (.slot q k) = true →
      exec (.semwait q k) s = .next ((s'.takeNow (.slot q k) m n (.slot q k)).advance q k 1) ∧
      (s'.takeNow (.slot q k) m n (.slot q k)).sem m = s'.sem m - n) ∧
    (c.op = 0x20 → bits c.w0 52 4 = 0 → bits c.w0 24 16 = 0 → bits c.w0 16 4 = 0 → (s'.slot q k).semWait = none →
      s'.canTake m n (.slot q k) = false →
      ∀ u : State, s'.send (waitPacket (.slot q k) m n (bits c.w0 20 4) false) (.post q k) = some u →
        exec (.semwait q k) s = .next (u.setSlot q k ((({ s'.slot q k with semWait := some m } : Slot)).waitOn .semwait))) ∧
    (c.op = 0x21 → bits c.w0 52 4 = 0 → bits c.w0 16 15 = 0 → s'.released q k = true →
      let r := if bit c.w0 31 then (s'.settle q k).2 else s'
      (bit c.w0 31 = true → s'.opsDone q k = true ∧ (s'.settle q k).1 = 0) → bits c.w0 32 8 = r.devId → r.sem m + n ≤ 65535 →
      exec (.sempost q k) s =
        .next ((((r.bump64 Obj.DRAINS).counted (.slot q k)).setSem m (r.sem m + n)).advance q k 1)) ∧
    (c.op = 0x22 → bits c.w0 51 5 = 0 → bits c.w0 32 8 = 0 → s'.released q k = true →
      exec (.seminit q k) s = .next
        (((s'.setJess (bits c.w0 40 11) { fill := bits c.w0 16 16, free := bits c.w0 0 16 }).bump64 Obj.DRAINS).advance q k 1))) ∧
  (∀ (s : State) (q k : Nat) (w : SemWaiting), s.waitOf (.slot q k) = some w → s.safety.safe = false →
    (s.canTake w.sem w.count (.slot q k) = true →
      exec (.semwaitSatisfied q k) s = .next ((s.take w.sem w.count (.slot q k)).answerWait w Sc.ok)) ∧
    (∀ lim, tmoNs w.tmo = some lim → w.sinceNs + lim ≤ s.timeNs →
      exec (.semwaitTimeout q k) s = .next (s.answerWait w Sc.timeout)))

/-- EPOCH, CFGW and UCTL words act (R227, R228, R229, R230). -/
def Obligations.EpochAndConfigWordsAct : Prop :=
  ∀ (s s' : State) (q k : Nat) (c : Cmd), s.wordAt q k = some (c, s') →
    let t := s'.slot q k
    let d := bits c.w0 48 5
    let us := s'.cfgUnits q k
    let xs := bits c.w0 36 4
    let tg := targetUnits (bits c.w0 32 16)
    (c.op = 0x38 → bit c.w0 53 = false → bits c.w0 0 40 = 0 → bits c.w0 40 8 = s'.devId →
      (bits c.w0 54 2 = 0 → s'.released q k = true → s'.edSource d = 1 →
        exec (.epochMarkCmd q k) s = .next ((((s'.bump64 Obj.DRAINS).counted (.slot q k)).trigger d).advance q k 1)) ∧
      (bits c.w0 54 2 = 1 → t.epochWait = none → exec (.epochWaitCmd q k) s = .next (s'.beginEpochWait q k d)) ∧
      (bits c.w0 54 2 = 1 → ∀ n, t.epochWait = some (d, n) → n < (s'.epoch d).commits →
        exec (.epochWaitCmd q k) s = .next ((s'.setSlot q k { t with epochWait := none }).advance q k 1)) ∧
      (bits c.w0 54 2 = 2 → t.epochWait = none → s'.released q k = true → s'.edSource d = 1 →
        Completes (.epochMarkWait q k) s fun u => (u.slot q k).wait = .epoch ∧ (u.slot q k).wi = t.wi ∧
          (u.slot q k).epochWait.isSome)) ∧
    (c.op = 0x39 → bits c.w0 52 3 = 0 → bits c.w0 0 36 = 0 → us.all (fun u => decide (u < 64)) = true →
      t.pendReg xs = false → t.regMark xs = 0 → t.reg xs ≤ 1 → opLegal q 0x39 = true →
      (bits c.w0 40 12 = 1 → bit c.w0 55 = true →
        exec (.cfgwCurBank q k) s = .next ((us.foldl (fun s u => s.cfgStage u 1 (t.reg xs)) s').advance q k 1)) ∧
      (bits c.w0 40 12 = 1 → bit c.w0 55 = false → us.all (fun u => !(s'.draining u)) = true →
        exec (.cfgwCurBank q k) s = .next ((us.foldl (fun s u => (s.cfgForget u 1).cfgWrite u 1 (t.reg xs)) s').advance q k 1)) ∧
      (bits c.w0 40 12 = 2 → seqClass q = 1 → bit c.w0 55 = true →
        exec (.cfgwStatDrop q k) s = .next ((us.foldl (fun s u => s.cfgStage u 2 (t.reg xs)) s').advance q k 1)) ∧
      (bits c.w0 40 12 = 2 → seqClass q = 1 → bit c.w0 55 = false →
        exec (.cfgwStatDrop q k) s = .next ((us.foldl (fun s u => (s.cfgForget u 2).cfgWrite u 2 (t.reg xs)) s').advance q k 1))) ∧
    (c.op = 0x3A → bits c.w0 52 4 = 0 → bits c.w0 0 32 = 0 → targetLegal (bits c.w0 32 16) = true →
      tg.all (fun u => s'.present u && s'.unitSt u != .faulted && !(s'.ucb u).mgmtStop) = true →
      (∀ st : UState, st.code = bits c.w0 48 4 → st.code < 4 →
        exec (.uctl q k) s = .next ((tg.foldl (fun s u => s.ucbRequest u st false) s').advance q k 1)) ∧
      (bits c.w0 48 4 = 4 → tg.all (fun u => hasTest (unitClass u)) = true →
        ∀ u, tg = [u] → (s'.requestTest u false).1 ≠ Sc.testDeferred →
        exec (.uctlTest q k) s = .next ((s'.requestTest u false).2.advance q k 1)))

/-- Undefined opcodes and functions, and commands that are not whole, halt the program (R190, R194, R198, R199, R471,
R557). -/
def Obligations.UndefinedWordsEndTheProgram : Prop :=
  (∀ (s s' : State) (q k w0 : Nat), s.headAt q k = some (w0, s') →
    let t := s'.slot q k
    (opLegal q (bits w0 56 8) = false → exec (.illegalOpcode q k) s = .next (s'.endProgram q k Sc.illegalOp)) ∧
    (∀ p ∈ [(Instr.mxpass q k, 0x30), (.gxop q k, 0x33), (.collRun q k, 0x36), (.moult q k, 0x37)],
      isOp q p.2 w0 = true → (s.slot q k).words < (s.slot q k).wi + cmdWords p.2 →
      exec p.1 s = .next (s'.endProgram q k (if t.headReserved w0 then Sc.reservedNonzero else Sc.boundViolation))) ∧
    (t.ending = 0 → k < 2 → ∀ st ∈ [Sc.illegalOp, Sc.reservedNonzero, Sc.boundViolation],
      ((s'.endProgram q k st).slot q k).ending = st + 1)) ∧
  (∀ (s s' : State) (q k : Nat) (c : Cmd), s.wordAt q k = some (c, s') →
    (isOp q 0x31 c.w0 = true → vxTypeOk c.func (bits c.w0 44 4) = false →
      exec (.vxopUndefinedFunc q k) s = .next (s'.endProgram q k Sc.reservedNonzero)) ∧
    (isOp q 0x32 c.w0 = true → cxDefined c.func = false →
      exec (.cxopUndefinedFunc q k) s = .next (s'.endProgram q k Sc.reservedNonzero)))

/-- Every unit-operation word enters its unit's queue (R218, R233, Table 12.1, Table 14.4). -/
def Obligations.UnitOperationsIssue : Prop :=
  ∀ (s s' : State) (q k : Nat) (c : Cmd), s.wordAt q k = some (c, s') →
    let t := s'.slot q k
    (∀ p ∈ vxRows q k, isOp q 0x31 c.w0 = true → c.func = p.2 → vxTypeOk p.2 (bits c.w0 44 4) = true →
      s'.mayIssue q k (vxRegs p.2 c) (s'.vxCheck (seqUnit q) t.reg c) (s'.vxZero (seqUnit q) t c) = true →
      exec p.1 s = .next (s'.pushOp q k c)) ∧
    (∀ p ∈ cxRows q k, isOp q 0x32 c.w0 = true → c.func = p.2 → s'.cxMayIssue q k c = true →
      exec p.1 s = .next (s'.pushOp q k c)) ∧
    (isOp q 0x30 c.w0 = true → (bit c.w0 52 = false ∨ 4 ≤ s'.stage) →
      s'.mayIssue q k (mxRegs c) (passCheck q c s' t) (mxZero c) = true → exec (.mxpass q k) s = .next (s'.pushOp q k c)) ∧
    (isOp q 0x33 c.w0 = true →
      s'.mayIssue q k (gxRegs c) (s'.gxCheck t.ctx t.reg c) (gBags c == 0 || gLookups c == 0) = true →
      exec (.gxop q k) s = .next (s'.pushOp q k c)) ∧
    (isOp q 0x36 c.w0 = true → s'.mayIssue q k [cXs1 c] (collCheck t.reg c) (cCount c == 0) = true →
      exec (.collRun q k) s = .next (s'.pushOp q k c)) ∧
    (isOp q 0x37 c.w0 = true → bits c.w0 32 12 = 0 → bits c.w1 0 32 = 0 →
      s'.mayIssue q k [bits c.w0 44 4] (if t.reg (bits c.w0 44 4) % 32 = 0 then 0 else Sc.alignment) (bits c.w0 0 32 == 0) = true →
      exec (.moult q k) s = .next (s'.pushOp q k c))

/-- An issued operation captures its words and registers (R218). -/
def Obligations.IssuedOperationCaptures : Prop :=
  ∀ (s : State) (q k : Nat) (c : Cmd), k < 2 →
    let u := s.pushOp q k c
    let t := s.slot q k
    (∃ o : UnitOp, (u.seq q).queue = (s.seq q).queue ++ [o] ∧ o.id = s.nextOp ∧ o.w0 = c.w0 ∧ o.w1 = c.w1 ∧ o.w2 = c.w2 ∧
      o.x = t.x ∧ o.ctx = t.ctx ∧ o.slot = k ∧ o.seq = q ∧ o.opcode = c.op ∧ o.began = 0) ∧
    (u.slot q k).ops = t.ops ++ [s.nextOp] ∧ (u.slot q k).x = t.x ∧ (u.slot q k).lastWi = t.wi ∧
    (u.slot q k).wi = (loopBack t.loops (t.wi + cmdWords c.op)).2 ∧ u.nextOp = s.nextOp + 1 ∧ (∀ a, u.byteAt a = s.byteAt a)

/-- STREAM and SECOP words act on their engine and core (R225, R259, R260, R611, R613, R614, R621). -/
def Obligations.StreamAndCoreWordsAct : Prop :=
  (∀ (s s' : State) (q k e : Nat) (c : Cmd), s.wordAt q k = some (c, s') → streamReady s' q k c e → k < 2 →
     let t := s'.slot q k
     let x := s'.engine e
     (isStream q 0 c.w0 = true → t.pendReg (bits c.w0 44 4) = false → t.regMark (bits c.w0 44 4) = 0 →
       s'.leaderHolds q k true = false → x.st = .idle →
       Completes (.streamStart q k) s fun u => (u.engine e).st = .running ∧ (u.engine e).descAddr = t.reg (bits c.w0 44 4) ∧
         (u.engine e).detached = bit c.w0 43 ∧ (u.engine e).ctx = t.ctx ∧ (u.engine e).descs = 0 ∧
         (bit c.w0 43 = false → e ∈ (u.slot q k).engines) ∧ (u.slot q k).lastWi = t.wi) ∧
     (isStream q 1 c.w0 = true → s'.leaderHolds q k false = false →
       exec (.streamStop q k) s = .next ((if x.st = .running then s'.stopChain e Sc.ok else s').advance q k 1)) ∧
     (isStream q 2 c.w0 = true → s'.leaderHolds q k false = false → x.st = .idle → (s'.takeStreams q k [e]).1 = 0 →
       exec (.streamWait q k) s = .next ((s'.takeStreams q k [e]).2.advance q k 1))) ∧
  (∀ (s s' : State) (q k : Nat) (c : Cmd), s.wordAt q k = some (c, s') → secReserved c = false → bits c.w0 0 32 = 1 →
     s'.leaderHolds q k false = false →
     let core := q - 104
     let t := s'.slot q k
     (isOp q 0x35 c.w0 = true → c.func = 2 →
       exec (.secopRun q k) s = .next ((s'.setSec core { s'.sec core with running := bit (secImm c) 0 }).advance q k 2)) ∧
     (isOp q 0x35 c.w0 = true → c.func = 3 → exec (.secopFlush q k) s = .next ((s'.closeBin core).advance q k 2)) ∧
     (isOp q 0x35 c.w0 = true → c.func = 4 → exec (.secopClear q k) s = .next ((s'.clearCore core).advance q k 2)) ∧
     (isOp q 0x35 c.w0 = true → c.func = 1 → t.pendReg (secXp c) = false → t.regMark (secXp c) = 0 →
       (t.reg (secXp c) = 0x74000 ∨ t.reg (secXp c) = 0x74800) →
       let rd := s'.ownRead (secUnit core) (t.reg (secXp c)) 1152
       let l : Layer := { which := (t.reg (secXp c) - 0x74000) / 0x800, bytes := rd.1, ctx := t.ctx, ring := t.ring }
       let z := rd.2.2.layerCheck l
       rd.2.1 = 0 → z.1 = 0 →
       exec (.secopLayer q k) s = .next (if bit (secImm c) 0 then (z.2.setSec core { z.2.sec core with staged := some l }).advance q k 2
         else (z.2.applyLayer core l).advance q k 2)))

/-- What happens to a program beside its words (R218, R237, R376, R397). -/
def Obligations.ProgramEventsTakeEffect : Prop :=
  ∀ (s : State) (q k : Nat), q < 153 → k < 2 →
    let t := s.slot q k
    (s.safety.safe = false → (t.role = .leader ∨ t.role = .follower) → t.stopping = false → s.mayComplete q k = true →
      t.ending ≠ 0 → exec (.programComplete q k) s = .next ((s.takeStreams q k t.untaken).2.completeProgram q k)) ∧
    (s.safety.safe = false → (t.role = .leader ∨ t.role = .follower) → t.stopping = false → s.mayComplete q k = true →
      t.ending = 0 → t.wait = .ended → (s.settle q k).1 = 0 →
      exec (.programComplete q k) s = .next (((s.settle q k).2.endNormally q k).completeProgram q k)) ∧
    ((t.role = .leader ∨ t.role = .follower) → t.castOrigin = none → t.hang = false → t.hangMs ≠ 0 →
      t.waitNs + t.hangMs * 1000000 < s.timeNs →
      Completes (.hangWatchHit q k) s fun u => (u.slot q k).hang = true ∧
        u.obj Obj.HANG_WATCH_HITS = satBump 32 (s.obj Obj.HANG_WATCH_HITS) 1 ∧ (u.slot q k).x = t.x ∧ u.mem = s.mem) ∧
    (t.resv.isSome = true →
      Completes (.reservationTimeout q k) s fun u => (u.slot q k).resv = none ∧
        u.obj Obj.RSV_LOST_TIMEOUT = satBump 32 (s.obj Obj.RSV_LOST_TIMEOUT) 1 ∧ (u.slot q k).x = t.x ∧ u.mem = s.mem) ∧
    (∀ (s' : State) (c : Cmd), s.wordAt q k = some (c, s') → t.wait = .issueQueue → (s.seq q).queue.length < t.depth →
      exec (.issueQueueRoom q k) s = .next (s'.pushOp q k c)) ∧
    (∀ (i n : Nat) (e : SbEntry) (u : State), (s.seq q).sb[i]? = some e → e.sent = false → s.safety.safe = false →
      (s.slot q e.slot).loads = [] → (∀ o ∈ (s.seq q).sb.take i, ¬(o.slot = e.slot ∧ o.addr / 128 = e.addr / 128)) →
      s.destOf e.addr = .node n → s.sendStore q e n = some u →
      exec (.storeBufferSend q i) s = .next (u.setSeq q { s.seq q with sb := (s.seq q).sb.set i { e with sent := true } }))

/-- Every request row executes the request at the head of its transport (R93, Table 3.4). -/
def Obligations.RequestRowsExecute : Prop :=
  ∀ (i : Instr) (t : Transport) (k : OapKind) (s : State) (src : Nat) (r : Req) (rest : List RxReq),
    oapRow i = some (t, k) → s.headReq t = some (src, r, rest) → r.kind = k →
    exec i s = .next ((s.taken t rest).execute t (t, src, r.hdr) r) ∧
    ((s.taken t rest).port t).queue = rest ∧ (s.taken t rest).oap.turn = (transportIndex t + 1) % 3 ∧
    (s.taken t rest).obj Obj.OAP_REQUESTS = satBump 32 (s.obj Obj.OAP_REQUESTS) 1 ∧ (s.taken t rest).mem = s.mem

/-- A write that passes every check is carried out by its row (R85, R88). -/
def Obligations.AcceptedWritesAreCarriedOut : Prop :=
  ∀ (i : Instr) (t : Transport) (k : OapKind) (s : State) (src : Nat) (r : Req) (rest : List RxReq) (o : ORow),
    oapRow i = some (t, k) → s.headReq t = some (src, r, rest) → r.kind = k → r.svc = 2 →
    let s1 := s.taken t rest
    WholeWrite s1 t r o →
    exec i s = .next (((s1.dropSegment t true).settleTag t r (s1.tagOk t r) 0).carryOut (t, src, r.hdr) r.key o r.value)

/-- Where a carried-out write goes (R80, R82, R118). -/
def Obligations.WritesReachTheirHome : Prop :=
  ∀ (s : State) (who : Asker) (key : Nat) (r : ORow) (bs : List Byte),
    key ≠ Obj.PROFILE_APPLY → key / 256 ≠ 0x4410 →
    let v := ofLE bs
    (r.acc = .rws → (∀ u, keyHome key = some u → s.sleeps u = false) →
      s.carryOut who key r bs = (s.stageValue key v).answer who Sc.ok ∧ SMap.get 0 (s.stageValue key v).oap.staged key = v + 1) ∧
    (r.acc ≠ .rws → (keyHome key = none ∨ actsAsleep r = true) →
      s.carryOut who key r bs = (s.applyObj key bs).2.answer who (s.applyObj key bs).1) ∧
    (∀ u, r.acc ≠ .rws → keyHome key = some u → actsAsleep r = false → s.sleeps u = false →
      (s.carryOut who key r bs).oap.waiting = s.oap.waiting ++
        [{ t := who.1, src := who.2.1, unit := u, key := key, value := BitVec.ofNat 64 v, bytes := bs, header := who.2.2 }] ∧
      (s.carryOut who key r bs).dict = s.dict) ∧
    (∀ u, keyHome key = some u → actsAsleep r = false → s.sleeps u = true →
      s.carryOut who key r bs =
        (({ s with oap := { s.oap with shadow := SMap.set 0 s.oap.shadow key (v + 1) } } : State).settleOverride key v).answer who Sc.ok)

/-- What a written object does (R73, R104, R107, R124, R468, R502, R534, R577, R772, R792). -/
def Obligations.ObjectWritesAct : Prop :=
  ∀ (s : State) (bs : List Byte),
    let v := ofLE bs
    let after (key : Nat) : State := (s.applyObj key bs).2
    ((after Obj.DEVICE_ID).obj Obj.DEVICE_ID = v % 2 ^ 64 ∧ (after Obj.DEVICE_ID_LOCK).obj Obj.DEVICE_ID_LOCK = v % 2 ^ 64) ∧
    ((after Obj.POWER_CAP).obj Obj.POWER_CAP = v % 2 ^ 64 ∧ (after Obj.POWER_CAP).obj Obj.CAP_WINDOW_US = 1000 ∧
      (after Obj.POWER_CAP).obj Obj.REDUCED_CAP_W = min v 250) ∧
    ((after Obj.EXPERT_KEY).oap.key = bs ∧ (after Obj.EXPERT_KEY).oap.programs = s.oap.programs + 1) ∧
    (v ≠ 0 → (after Obj.RESET_REQUEST).sup.resetWaits = some v) ∧
    ((after Obj.PELLET_LOG_ENTRIES).obj Obj.PELLET_LOG_ENTRIES = v % 2 ^ 64 ∧
      (after Obj.PELLET_READ_SEQ).obj Obj.PELLET_READ_SEQ = v % 2 ^ 64 ∧ (after Obj.MXT_CLK_LIMIT).obj Obj.MXT_CLK_LIMIT = v % 2 ^ 64 ∧
      (after Obj.HOT_CACHE_KIB).obj Obj.HOT_CACHE_KIB = v % 2 ^ 64) ∧
    (v = 1 → (after Obj.ERR_N_CLEAR).safety.errN = false) ∧
    ((after Obj.FAULT_INJECT).tiles.inject = (if bit v 31 then v + 1 else 0) ∧
      (after Obj.VXT_EXC_INJECT).tiles.vxInject = (if bit v 15 then v + 1 else 0) ∧
      (after Obj.CAT_INJECT).cat.inject = (if bit v 15 then v + 1 else 0)) ∧
    (bit v 15 = true → ((after Obj.SP_INJECT).sp (bits v 0 3)).armed = true ∧
      ((after Obj.POISON_INJECT).engine (bits v 0 9)).armed = true) ∧
    ((after Obj.STALL_SELECT).str.stallSnap = { (s.engine v).live with timeNs := s.timeNs }) ∧
    ((after Obj.COOLANT_INLET_DC).cool.inletInUse = sgn 32 v ∧ (after Obj.COOLANT_INLET_DC).cool.fallback = false) ∧
    (s.effect Obj.EPOCH_MARK_MGMT v bs = (Sc.ok, s.trigger v) ∧
      s.effect Obj.STATS_SNAPSHOT v bs = (Sc.ok, s.applyStatsSnapshot v) ∧
      s.effect Obj.ECC_INJECT v bs = (Sc.ok, s.applyEccInject v) ∧ s.effect Obj.CFG_INJECT v bs = (Sc.ok, s.applyCfgInject v) ∧
      s.effect Obj.ERR_INJECT v bs = (Sc.ok, if bit v 15 then s.raise (bits v 0 9) { test := true } else s) ∧
      s.effect Obj.TEST_REQUEST v bs = s.requestTest (testUnit v) false ∧
      s.effect Obj.TEST_FORCE v bs = s.requestTest (testUnit v) true ∧
      s.effect Obj.FAULT_CLEAR v bs = s.faultClear (testUnit v)) ∧
    (∀ cls n, cls < 12 → n < classCount cls →
      s.effect (Obj.UNIT_REQ cls n) v bs = (Sc.ok, s.applyUnitReq (unitOf cls n) v) ∧
      s.effect (Obj.UNIT_DOMAIN cls n) v bs = (Sc.ok, s.applyUnitDomain (unitOf cls n) v)) ∧
    (∀ n < 64, s.effect (Obj.MXT_ROLE n) v bs = (Sc.ok, (s.setObj (Obj.MXT_ROLE n) v).restSpare n) ∧
      s.effect (Obj.UNDERSTUDY n) v bs = (Sc.ok, s.setObj (Obj.UNDERSTUDY n) v)) ∧
    (∀ d < 32, s.effect (Obj.ED_SOURCE d) v bs = (Sc.ok, s.setObj (Obj.ED_SOURCE d) v)) ∧
    (∀ n < 20, s.effect (Obj.PH_LINK_ENABLE n) v bs = (Sc.ok, s.applyPhLinkEnable n v)) ∧
    (∀ n < 16, s.effect (Obj.FP_CTX n) v bs = (Sc.ok, s.setObj (Obj.FP_CTX n) v)) ∧
    (∀ i < 160, s.effect (Obj.PATTERN_CTRL i) v bs = (Sc.ok, s.applyPatternCtrl i v) ∧
      s.effect (Obj.INJECT i) v bs = (Sc.ok, s.applyLaneInject i v)) ∧
    (∀ d < 256, s.effect (Obj.DEV_ROUTE d) v bs = (Sc.ok, s.setObj (Obj.DEV_ROUTE d) v)) ∧
    (∀ p < 8, ∀ r < 16, s.effect (Obj.SP_RULE p r) v bs = s.ruleWrite p r (fieldLE bs 0 8) (fieldLE bs 8 8) (fieldLE bs 16 8)) ∧
    (∀ who row, s.carryOut who Obj.PROFILE_APPLY row bs = (s.profileApply v).2.answer who (s.profileApply v).1) ∧
    (∀ who row n, n < 64 → row.acc ≠ .rws →
      (s.carryOut who (Obj.REPAIR_REQUEST n) row bs).tile n = { s.tile n with repair := some (v, some who) })

/-- The services that carry no value of an object's own (R84, R86, R119, Table 3.5). -/
def Obligations.ServicesAnswer : Prop :=
  ∀ (s : State) (t : Transport) (who : Asker) (r : Req) (o : ORow), r.sound s t → objAt r.key = some o → s.unitCheck r.key = 0 →
    r.off = 0 →
    let ok := s.tagOk t r
    (r.svc = 1 → o.ty.varSize = false → o.ty.size ≤ r.len → 0 < r.len →
      s.execute t who r = (((s.readObj r.key o).2.setPort t { s.port t with snap := none }).finish t who r ok Sc.ok
        (s.readObj r.key o).1 (s.readObj r.key o).1.length)) ∧
    (r.svc = 1 → r.len = 0 → s.execute t who r = s.finish t who r ok Sc.okEmpty [] (s.readObj r.key o).1.length) ∧
    (r.svc = 3 → o.acc = .rws → o.ty.size ≤ r.len →
      (SMap.get 0 s.oap.staged r.key = 0 → s.execute t who r = s.finish t who r ok Sc.okEmpty) ∧
      (∀ v, SMap.get 0 s.oap.staged r.key = v + 1 →
        s.execute t who r = s.finish t who r ok Sc.ok (leBytes o.ty.size v) o.ty.size)) ∧
    (r.svc = 4 → r.len = 0 → o.acc = .rws → (ok = true ∨ isExpert r.key = false) → s.isPending r.key = true →
      ∃ u : State, s.execute t who r = u.finish t who r ok Sc.ok ∧ u.isPending r.key = false ∧ u.dict = s.dict ∧ u.mem = s.mem) ∧
    (r.svc = 5 → 32 ≤ r.len → s.execute t who r = s.finish t who r ok Sc.ok (s.describe r.key o)) ∧
    (∀ u : State, ∀ q : Req, (q.svc = 0 ∨ 9 ≤ q.svc) → u.execute t who q = u.answer who Sc.illegalOp)

/-- Expert sessions (R109, R110, R111, R115). -/
def Obligations.SessionsOpenAndClose : Prop :=
  ∀ (s : State) (t : Transport) (who : Asker) (r : Req), r.off = 0 → (r.auth = true → s.tagOk t r = true) →
    let x := (s.port t).sess
    (r.svc = 6 → firstOf (r.frameChecks t) = 0 → r.len = 16 → s.drbgUp = true → s.oap.key ≠ [] → x.locked = false →
      ∃ (u : State) (nonce : List Byte), s.execute t who r = u.answer who Sc.ok nonce ∧
        ((u.port t).sess).challenge = some (nonce, r.value) ∧ ((u.port t).sess).isOpen = false ∧ nonce.length = 16) ∧
    (r.svc = 7 → firstOf (r.frameChecks t) = 0 → r.len = 32 → ∀ nd nc, x.challenge = some (nd, nc) →
      s.timeNs ≤ x.challengeNs + 1000000000 →
      Hash.hmac s.oap.key (ascii "OAPC" ++ leBytes 1 (transportByte t) ++ nd ++ nc) = r.value →
      ∃ u : State, s.execute t who r =
          u.answer who Sc.ok (Hash.hmac s.oap.key (ascii "OAPD" ++ leBytes 1 (transportByte t) ++ nc ++ nd)) ∧
        ((u.port t).sess).isOpen = true ∧ ((u.port t).sess).ctr = 1 ∧ ((u.port t).sess).challenge = none ∧
        ((u.port t).sess).ks = Hash.hmac s.oap.key (ascii "OAPS" ++ nd ++ nc) ∧
        u.obj Obj.SESSIONS_OPENED = satBump 32 (s.obj Obj.SESSIONS_OPENED) 1) ∧
    (r.svc = 8 → r.sound s t → r.len = 0 → s.tagOk t r = true →
      ∃ u : State, s.execute t who r = u.answer who Sc.ok ∧ ((u.port t).sess).isOpen = false)

/-- Arrivals and timers of the transports (R90, R91, R94, R96, R98, R103, R111, R116, R135). -/
def Obligations.TransportEventsTakeEffect : Prop :=
  ∀ (s : State) (t : Transport),
    (∀ f : CanFrame, s.enabled .can = true → f.extended = false → f.ident = 0x400 + s.inEffect Obj.CAN_NODE_ID → f.fd = true →
      f.remote = false → s.oap.can.queue.length + (s.oap.waiting.filter fun w => w.t == Transport.can).length < 4 →
      Completes (.canRequestRx f) s fun u => u.oap.can.queue = s.oap.can.queue ++ [{ bytes := f.data.take 64, src := 0 }] ∧
        u.dict = s.dict ∧ u.mem = s.mem) ∧
    (∀ f : EthFrame, s.enabled .t1s = true → f.etherType = s.inEffect Obj.OAP_ETHERTYPE → f.dst = s.obj Obj.MAC_ADDRESS →
      bit f.dst 40 = false → (s.inEffect Obj.CLIENT_MAC = 0 ∨ f.src = s.inEffect Obj.CLIENT_MAC) →
      s.oap.t1s.queue.length + (s.oap.waiting.filter fun w => w.t == Transport.t1s).length < 4 →
      Completes (.t1sRequestRx f) s fun u => u.oap.t1s.queue = s.oap.t1s.queue ++ [{ bytes := f.payload, src := f.src }] ∧
        u.oap.t1s.lastSrc = some f.src ∧ u.dict = s.dict) ∧
    (s.hostUp = true → s.fnAnswers 0 = true → s.hostWaits 0 = false → s.oap.mbxBusy = false → s.oap.mbxRspValid = false →
      s.enabled .mbx = true →
      Completes .mbxReqGo s fun u => u.oap.mbxBusy = true ∧ u.oap.mbx.queue.length = s.oap.mbx.queue.length + 1 ∧
        u.dict = s.dict) ∧
    (s.hostUp = true → s.fnAnswers 0 = true → s.hostWaits 0 = false →
      Completes .mbxRspClear s fun u => u.oap.mbxRspValid = false ∧ u.oap.mbxRsp = s.oap.mbxRsp) ∧
    (∀ e rest, s.hostUp = true → s.fnAnswers 0 = true → s.hostWaits 0 = false → s.oap.evtQ = e :: rest →
      Completes .mbxEvtClear s fun u => u.oap.evtQ = rest) ∧
    (∀ g, (s.port t).seg = some g → Completes (.segmentTimeout t) s fun u => (u.port t).seg = none ∧
      (u.port t).queue = (s.port t).queue ∧ u.obj Obj.SEG_DISCARDS = satBump 32 (s.obj Obj.SEG_DISCARDS) 1) ∧
    (∀ b, (s.port t).snap = some b → Completes (.snapshotExpiry t) s fun u => (u.port t).snap = none ∧
      (u.port t).queue = (s.port t).queue ∧ u.dict = s.dict) ∧
    ((s.port t).sess.isOpen = true → Completes (.sessionIdleTimeout t) s fun u => (u.port t).sess.isOpen = false ∧
      (u.port t).sess.ks = [] ∧ u.mem = s.mem) ∧
    ((s.port t).sess.locked = true → Completes (.lockoutExpiry t) s fun u => (u.port t).sess.locked = false ∧
      (u.port t).queue = (s.port t).queue ∧ u.dict = s.dict) ∧
    (∀ key, 0x110000 ≤ key → key < 0x120000 → (objRow key).isSome = true →
      Completes (.transportConfigApply key) s fun u => u.inEffect key = s.obj key ∧ u.dict = s.dict)

/-- Unit-homed writes and the keeper's mirror (R82, R131). -/
def Obligations.KeeperFollowsItsUnits : Prop :=
  (∀ (s : State) (u : Nat) (w : UnitWrite) (o : ORow), s.oap.waiting.find? (fun w => w.unit == u) = some w →
    objAt w.key = some o →
    let s1 : State := { s with oap := { s.oap with waiting := s.oap.waiting.filter fun x => x != w } }
    firstOf [s1.unitCheck w.key, s1.valueCheck w.key o w.bytes] = 0 → s1.sleeps w.unit = false →
    exec (.unitObjectApply u) s =
      .next ((s1.applyObj w.key w.bytes).2.answer (w.t, w.src, w.header) (s1.applyObj w.key w.bytes).1)) ∧
  (∀ s : State, 1 ≤ s.stage →
    let m := s.upsetMirror.oap.mirror
    Completes .ucbMirrorCompare s fun t => t.oap.mirror = m ∧
      (∀ u, u ≠ s.upsetUnit → SMap.get 0 m u = SMap.get 0 s.oap.mirror u) ∧
      (∀ u, u < 201 → SMap.get 0 m u = (s.unitSt u).code → SMap.get 0 t.oap.mirrorDiff u = 0) ∧
      (∀ u, u < 201 → SMap.get 0 m u ≠ (s.unitSt u).code → SMap.get 0 t.oap.mirrorDiff u ≠ 0) ∧ t.dict = s.dict) ∧
  (∀ (s : State) (u : Nat), 1 ≤ s.stage → s.present u = true → SMap.get 0 s.oap.mirrorDiff u ≠ 0 →
    SMap.get 0 s.oap.mirror u ≠ (s.unitSt u).code → SMap.get 0 s.oap.mirrorDiff u - 1 + 1000000 ≤ s.timeNs →
    Completes (.stateDivergence u) s fun t => t.unitSt u = .faulted ∧
    (SMap.get {} t.agg.src (Es.stateDivergence u)).count = satBump 32 (SMap.get {} s.agg.src (Es.stateDivergence u)).count 1)

/-- Doorbells, CQ_HEAD, RESET_CQ, PAUSE and RESUME (R168, R170, R178); behind writes of their function that are not visible yet
they wait (R391). -/
def Obligations.DoorbellsHeadsAndRingResets : Prop :=
  (∀ (s : State) (fn n v : Nat), s.hostUp = true → s.fnAnswers fn = true → s.hostWaits fn = true →
    exec (.sqDoorbell fn n v) s = .next (s.holdHost fn (.bar0Write (ringOff n 0x10) 4 v)) ∧
    exec (.cqHeadWrite fn n v) s = .next (s.holdHost fn (.bar0Write (ringOff n 0x30) 4 v)) ∧
    exec (.resetCq fn n) s = .next (s.holdHost fn (.bar0Write (ringOff n 0x1C) 4 2)) ∧
    exec (.pause fn n) s = .next (s.holdHost fn (.bar0Write (ringOff n 0x1C) 4 4)) ∧
    exec (.resume fn n) s = .next (s.holdHost fn (.bar0Write (ringOff n 0x1C) 4 8))) ∧
  ∀ (s : State) (fn n v : Nat), s.hostUp = true → s.hostWaits fn = false →
    let r := s.ring n
    let past := r.cqSize ≤ v ∨ (r.cqTail + r.cqSize - r.cqHead) % r.cqSize < (v + r.cqSize - r.cqHead) % r.cqSize
    (s.seesRing fn n = true → v < 65536 →
      (r.st ≠ .resetting → v < r.sqSize → exec (.sqDoorbell fn n v) s = .next (s.setRing n { r with sqTail := v }) ∧
        (r.st = .faulted ∨ r.st = .disabled → (s.setRing n { r with sqTail := v }).ringReady n = false)) ∧
      (v < r.sqSize → r.st = .resetting → exec (.sqDoorbell fn n v) s = .next (s.ringReject n 0x10 Sc.stateConflict)) ∧
      (r.sqSize ≤ v → exec (.sqDoorbell fn n v) s = .next (s.ringReject n 0x10 Sc.boundViolation)) ∧
      (¬past → exec (.cqHeadWrite fn n v) s = .next (s.setRing n { r with cqHead := v }).drainCpls) ∧
      (past → exec (.cqHeadWrite fn n v) s = .next (s.ringReject n 0x30 Sc.boundViolation))) ∧
    (s.seesRing fn n = true →
      ((∃ e ∈ s.host.rings, e.2.st ≠ .disabled ∧ e.2.cqId = n) →
        exec (.resetCq fn n) s = .next (s.ringReject n 0x1C Sc.accessDenied)) ∧
      ((∀ e ∈ s.host.rings, e.2.st ≠ .disabled → e.2.cqId ≠ n) → Completes (.resetCq fn n) s fun t =>
        (t.ring n).cqHead = 0 ∧ (t.ring n).cqTail = 0 ∧ (t.ring n).phase = true ∧ (∀ w ∈ t.host.cplBuf, w.cq ≠ n) ∧
        (∀ w, w.cq ≠ n → (w ∈ t.host.cplBuf ↔ w ∈ s.host.cplBuf)) ∧ (∀ m, m ≠ n → t.ring m = s.ring m) ∧ t.out = s.out) ∧
      Completes (.pause fn n) s (fun t => t.ring n = { r with st := if r.st = .running then .paused else r.st } ∧
        (∀ m, m ≠ n → t.ring m = s.ring m) ∧ t.seqs = s.seqs ∧ t.dict = s.dict ∧ t.mem = s.mem) ∧
      Completes (.resume fn n) s (fun t => t.ring n = { r with st := if r.st = .paused then .running else r.st } ∧
        (∀ m, m ≠ n → t.ring m = s.ring m) ∧ t.seqs = s.seqs ∧ t.dict = s.dict ∧ t.mem = s.mem)) ∧
    (s.seesRing fn n = false → ∀ c ∈ [Instr.sqDoorbell fn n v, .cqHeadWrite fn n v, .resetCq fn n, .pause fn n, .resume fn n,
      .sqCfgWrite fn n v, .cqCfgWrite fn n v, .resetSq fn n true, .resetSq fn n false], exec c s = .next s) ∧
    (∀ off st, (s.ringReject n off st).ring n = { r with regStatus := st + off % 4096 * 256 } ∧
      (∀ m, m ≠ n → (s.ringReject n off st).ring m = s.ring m) ∧
      (s.ringReject n off st).obj Obj.REG_REJECTS = satBump 32 (s.obj Obj.REG_REJECTS) 1)

/-- Ring configuration and bindings (R144, R145, R146, R151, R152, R153, R167). -/
def Obligations.RingAndBindingConfiguration : Prop :=
  (∀ (s : State) (fn n v : Nat), s.hostUp = true → s.seesRing fn n = true → s.hostWaits fn = false →
    let r := s.ring n
    let same := bits v 32 6 = bits r.sqCfg 32 6 ∧ bits v 24 8 = bits r.sqCfg 24 8 ∧ bits v 0 5 = bits r.sqCfg 0 5
    (sqCfgBad v = false → r.st = .disabled → bit v 63 = false →
      exec (.sqCfgWrite fn n v) s = .next (s.setRing n { r with sqCfg := v })) ∧
    (sqCfgBad v = false → r.st = .disabled → bit v 63 = true → s.mayEnable n v = true →
      exec (.sqCfgWrite fn n v) s = .next (s.setRing n { r with sqCfg := v, st := .running })) ∧
    (sqCfgBad v = false → bit r.sqCfg 63 = false → bit v 63 = true → s.mayEnable n v = false →
      exec (.sqCfgWrite fn n v) s = .next (s.ringReject n 8 Sc.accessDenied)) ∧
    (sqCfgBad v = false → r.st ≠ .disabled → ¬same → exec (.sqCfgWrite fn n v) s = .next (s.ringReject n 8 Sc.accessDenied)) ∧
    (sqCfgBad v = false → r.st = .running → same → bit v 63 = false →
      exec (.sqCfgWrite fn n v) s = .next (s.setRing n { r with sqCfg := v, st := .disabled })) ∧
    (cqCfgBad v = false → bits v 8 11 < s.vectorCount ((s.ringFn n).getD 0) → bit r.cqCfg 63 = false →
      exec (.cqCfgWrite fn n v) s = .next (s.setRing n { r with cqCfg := v })) ∧
    (cqCfgBad v = false → s.vectorCount ((s.ringFn n).getD 0) ≤ bits v 8 11 →
      exec (.cqCfgWrite fn n v) s = .next (s.ringReject n 0x28 Sc.boundViolation)) ∧
    (cqCfgBad v = false → bits v 8 11 < s.vectorCount ((s.ringFn n).getD 0) → bit r.cqCfg 63 = true → bit v 63 = false →
      s.cqNamed n = true → exec (.cqCfgWrite fn n v) s = .next (s.ringReject n 0x28 Sc.accessDenied)) ∧
    (∀ b, Completes (.resetSq fn n b) s fun t => (t.ring n).st = .resetting ∧ (t.ring n).fetched = [] ∧
      (∀ m, m ≠ n → t.ring m = s.ring m) ∧ (∀ a, t.byteAt a = s.byteAt a))) ∧
  (∀ (s : State) (n : Nat), (s.ring n).st = .resetting → (s.ring n).resetCqAfter = false → (s.ring n).perst = false →
    (∀ x ∈ s.ringSlots n, (s.buffered x.1 x.2).isEmpty = true) → Completes (.ringResetDone n) s fun t =>
      (t.ring n).st = .disabled ∧ (t.ring n).sqHead = 0 ∧ (t.ring n).sqTail = 0 ∧ (t.ring n).regStatus = 0 ∧
      (t.ring n).faultInfo = 0 ∧ bit (t.ring n).sqCfg 63 = false ∧ (∀ a, t.byteAt a = s.byteAt a)) ∧
  (∀ (s : State) (i v : Nat), s.hostUp = true → s.fnAnswers 0 = true → s.hostWaits 0 = false → v < 2 ^ 64 →
    (i < 64 → bits v 6 57 = 0 → (∀ e ∈ s.host.rings, e.2.st ≠ .disabled → e.2.ctxOf ≠ i) →
      (∀ e ∈ s.host.bar2Ctx, bit e.2 31 = true → bits e.2 0 6 ≠ i) → bits v 0 6 ≤ s.host.numVfs →
      exec (.ctxBindWrite 0 i v) s = .next { s with host := { s.host with ctxBind := SMap.set 0 s.host.ctxBind i v } }) ∧
    (i < 64 → bits v 6 57 = 0 → ((∃ e ∈ s.host.rings, e.2.st ≠ .disabled ∧ e.2.ctxOf = i) ∨
      (∃ e ∈ s.host.bar2Ctx, bit e.2 31 = true ∧ bits e.2 0 6 = i) ∨ s.host.numVfs < bits v 0 6) →
      exec (.ctxBindWrite 0 i v) s = .next (s.fnReject 0 (0x1000 + 8 * i) Sc.accessDenied)) ∧
    (i < 256 → bits v 6 57 = 0 → (s.ring i).st = .disabled → bit (s.ring i).cqCfg 63 = false → bits v 0 6 ≤ s.host.numVfs →
      exec (.ringBindWrite 0 i v) s = .next { s with host := { s.host with ringBind := SMap.set 0 s.host.ringBind i v } }) ∧
    (i < 256 → bits v 6 57 = 0 → ((s.ring i).st ≠ .disabled ∨ bit (s.ring i).cqCfg 63 = true ∨ s.host.numVfs < bits v 0 6) →
      exec (.ringBindWrite 0 i v) s = .next (s.fnReject 0 (0x2000 + 8 * i) Sc.accessDenied)) ∧
    (i < 64 → bits v 59 4 = 0 → bits v 38 10 = 0 → bits v 25 7 = 0 → bits v 9 7 = 0 → bits v 32 6 ≤ s.host.numVfs →
      exec (.irqRouteWrite 0 i v) s = .next { s with host := { s.host with irqRoute := SMap.set 0 s.host.irqRoute i v } }) ∧
    (i < 64 → bits v 59 4 = 0 → bits v 38 10 = 0 → bits v 25 7 = 0 → bits v 9 7 = 0 → s.host.numVfs < bits v 32 6 →
      exec (.irqRouteWrite 0 i v) s = .next (s.fnReject 0 (0x4000 + 16 * i) Sc.accessDenied))) ∧
  (∀ (s : State) (i v : Nat), s.hostUp = true → s.fnAnswers i = true → s.hostWaits i = false →
    (v < 2 ^ 32 → bits v 6 25 = 0 →
      (bit v 31 = true → s.ctxOwned (bits v 0 6) i = true) →
      exec (.bar2CtxWrite i v) s = .next { s with host := { s.host with bar2Ctx := SMap.set 0 s.host.bar2Ctx i v } }) ∧
    (v < 2 ^ 32 → bits v 6 25 = 0 → bit v 31 = true → s.ctxOwned (bits v 0 6) i = false →
      exec (.bar2CtxWrite i v) s = .next (s.fnReject i 8 Sc.accessDenied)) ∧
    (i ≠ 0 → ∀ j, exec (.ctxBindWrite i j v) s = .next s ∧ exec (.ringBindWrite i j v) s = .next s ∧
      exec (.irqRouteWrite i j v) s = .next s))

/-- The PCIe link, function resets, configuration requests and vectors (R55, R141, R143, R171, R172, R179, R180, R184). -/
def Obligations.LinkFunctionsAndVectors : Prop :=
  (∀ (s : State) fn f w, s.safety.safe = false → s.stage < 2 → exec (.pcieConfigRequest fn f w) s = .next (s.emit (.cfgAnswer true 0))) ∧
  (∀ (s : State) fn, s.hostUp = true → s.fnExists fn = true →
    exec (.pcieConfigRequest fn .vendorId none) s = .next (s.emit (.cfgAnswer false 0x1F3C)) ∧
    exec (.pcieConfigRequest fn .revisionId none) s = .next (s.emit (.cfgAnswer false 0xB0)) ∧
    exec (.pcieConfigRequest fn .classCode none) s = .next (s.emit (.cfgAnswer false 0x120000)) ∧
    exec (.pcieConfigRequest fn .deviceId none) s = .next (s.emit (.cfgAnswer false
      (match s.variant, fn with | .v, 0 => 0x5064 | .d, 0 => 0x5065 | .v, _ => 0x5066 | .d, _ => 0x5067))) ∧
    ∀ f v, exec (.pcieConfigRequest fn f (some v)) s = .next ((s.cfgSet fn f v).emit (.cfgAnswer false 0))) ∧
  (∀ s, s.host.linkUp = true → Completes .pcieLinkDown s fun t =>
    t.host.linkUp = false ∧ t.host.rate = 0 ∧ t.host.width = 0 ∧ t.dispatches = false ∧ t.seqs = s.seqs ∧ t.host.cplBuf = s.host.cplBuf ∧
    t.host.rings = s.host.rings ∧ t.mem = s.mem ∧ t.dict = s.dict) ∧
  (∀ (s : State) (rate : LinkRate) width, s.host.linkUp = false → s.host.held = [] → 2 ≤ s.stage → s.safety.safe = false → s.sup.pciePerst = false →
    s.sup.refPcie = true → 1 ≤ rate.got → width ∈ [1, 2, 4, 8, 16] → rate.got ≤ s.obj Obj.PCIE_MAX_RATE →
    width ≤ s.obj Obj.PCIE_MAX_WIDTH → (s.stage < 4 → rate.got ≤ 3 ∧ width ≤ 4) → Completes (.pcieLinkUp rate width) s fun t =>
      t.host.linkUp = true ∧ t.host.rate = rate.got ∧ t.host.width = width ∧ t.seqs = s.seqs ∧ t.mem = s.mem ∧
      (4 ≤ s.stage → (bit (t.obj Obj.STAGE_FAULTS) 12 = true ↔ width < 16 ∨ rate.got < min rate.common (s.obj Obj.PCIE_MAX_RATE)))) ∧
  (∀ (s : State) fn, s.hostUp = true → s.fnExists fn = true → Completes (.functionLevelReset fn) s fun t =>
    (∀ v, t.vec fn v = {} ∨ 2048 ≤ v) ∧ SMap.get 0 t.host.bar2Ctx fn = 0 ∧ SMap.get false t.host.msixOn fn = false ∧
    SMap.get false t.host.fnMask fn = false ∧ (fn = 0 → t.host.vfEnable = false) ∧ (∀ a, t.byteAt a = s.byteAt a)) ∧
  (∀ (s : State) fn v, s.hostUp = true → s.fnAnswers fn = true → s.hostWaits fn = false → v < s.vectorCount fn →
    exec (.msixUnmask fn v) s = .next ((s.setVec fn v { s.vec fn v with masked := false }).sendPending fn)) ∧
  (∀ (s : State) cq, 0 < (s.ring cq).pend → bits (s.ring cq).cqCfg 32 16 ≠ 0 →
    s.passed ((s.ring cq).pendSince - 1) (bits (s.ring cq).cqCfg 32 16 * 1000) = true → Completes (.moderationTimeout cq) s fun t =>
    t.ring cq = { s.ring cq with pend := 0, pendSince := 0 } ∧ t.seqs = s.seqs ∧ t.mem = s.mem ∧ t.dict = s.dict) ∧
  (∀ (s : State) fn off sz, s.hostUp = true → s.fnAnswers fn = true → s.hostWaits fn = false →
    exec (.registerWrite fn off sz none) s = .next (s.emit (.bar0Data fn off sz (s.bar0Read fn off sz))) ∧
    ∀ v, sz = 4 ∨ sz = 8 → off % sz = 0 → v < 2 ^ (8 * sz) →
      exec (.registerWrite fn off sz (some v)) s = .next (s.bar0Write fn off sz v)) ∧
  (∀ (s : State) fn n o, n < 256 → o < 0x1000 → s.seesRing fn n = false →
    s.bar0Read fn (0x100000 + 0x1000 * n + o) 4 = 0) ∧
  (∀ (s : State) fn n v, n < 256 → v < 2 ^ 64 → s.hostUp = true → s.fnAnswers fn = true →
    exec (.registerWrite fn (0x100000 + 0x1000 * n + 8) 8 (some v)) s = exec (.sqCfgWrite fn n v) s) ∧
  (∀ (s : State) fn n v, n < 256 → v < 2 ^ 32 → s.hostUp = true → s.fnAnswers fn = true →
    exec (.registerWrite fn (0x100000 + 0x1000 * n + 0x10) 4 (some v)) s = exec (.sqDoorbell fn n v) s) ∧
  (∀ (s : State) fn c v, c < 64 → v < 2 ^ 64 → s.hostUp = true → s.fnAnswers fn = true →
    exec (.registerWrite fn (0x1000 + 8 * c) 8 (some v)) s = exec (.ctxBindWrite fn c v) s)

/-- BAR2 accesses and reads of host memory (R147, R148, R155, R163, R166). -/
def Obligations.HostWindowAndReads : Prop :=
  (∀ (s u : State) fn a d ps, s.hostUp = true → s.fnAnswers fn = true → d.length ≤ 512 → s.host.held.any (·.1 == fn) = false →
    s.bar2Pieces fn a d.length true = (some ps, u) → ps.length ≤ u.tagsLeft (.host fn) 1 →
    (∀ p ∈ ps, u.lineHeld (.host fn) 1 p.1 = false) → (s.hostWriting fn = false ∨ ∀ p ∈ ps, s.isMmio p.1 = false) →
    exec (.bar2Write fn a d) s = .next (ps.foldl (fun t p => match t.bar2Packet fn .wr p d with
      | some k => (t.send k (.bar2 0 0)).getD t
      | none => t) u)) ∧
  (∀ (s u : State) fn a d, s.hostUp = true → s.fnAnswers fn = true → d.length ≤ 512 → s.host.held.any (·.1 == fn) = false →
    s.bar2Pieces fn a d.length true = (none, u) →
    exec (.bar2Write fn a d) s = .next (u.bump Obj.BAR2_ABORTS)) ∧
  (∀ (s u : State) fn a n ps, s.hostUp = true → s.fnAnswers fn = true → n ≤ 4096 → s.hostWaits fn = false →
    s.bar2Pieces fn a n false = (some ps, u) →
    ps.length ≤ u.tagsLeft (.host fn) 1 → (∀ p ∈ ps, u.lineHeld (.host fn) 1 p.1 = false) →
    (∀ p ∈ ps, ∃ d, u.destNode (p.1 / 2 ^ 56) (p.1 % 2 ^ 56) = some d) →
    Completes (.bar2Read fn a n) s fun t => t.host.nextBar2 = u.host.nextBar2 + 1 ∧
      t.host.bar2 = { id := u.host.nextBar2, fn := fn, addr := a, left := ps.length, buf := zeros n } :: u.host.bar2 ∧
      (∀ b, t.byteAt b = s.byteAt b)) ∧
  (∀ (s u : State) fn a n, s.hostUp = true → s.fnAnswers fn = true → n ≤ 4096 → s.hostWaits fn = false →
    s.bar2Pieces fn a n false = (none, u) →
    exec (.bar2Read fn a n) s = .next ((u.bump Obj.BAR2_ABORTS).emit (.bar2Abort fn a)) ∧ ∀ b, u.byteAt b = s.byteAt b) ∧
  (∀ (s : State) n, s.dispatches = true → n < 256 → (s.ring n).st = .running →
    let r := s.ring n
    let ahead := r.fetched.length + s.fetching n
    ahead < (r.sqTail + r.sqSize - r.sqHead) % r.sqSize → ahead < s.obj Obj.DISPATCH_PREFETCH →
    s.mayRead ((s.ringFn n).getD 0) = true →
    Completes (.entryFetch n) s fun t => t.host.nextTag = s.host.nextTag + 1 ∧
      t.host.reads = s.host.reads ++ [(s.host.nextTag, .entry n ((r.sqHead + ahead) % r.sqSize))] ∧ t.host.rings = s.host.rings ∧
      t.mem = s.mem ∧ t.seqs = s.seqs) ∧
  (∀ (s : State) tag n slot, s.host.reads.find? (·.1 == tag) = some (tag, .entry n slot) →
    let u : State := { s with host := { s.host with reads := s.host.reads.filter (·.1 != tag) } }
    (∀ bs, s.hostUp = true → Completes (.hostReadCompletion tag (.data bs)) s fun t =>
      (t.ring n).fetched = (s.ring n).fetched ++ [{ slot := slot, bytes := padTo 64 bs }] ∧ t.mem = s.mem) ∧
    (∀ bs c, s.hostUp = true → Completes (.hostReadCompletion tag (.corrected c bs)) s fun t =>
      (t.ring n).fetched = (s.ring n).fetched ++ [{ slot := slot, bytes := padTo 64 bs }] ∧
      t.obj Obj.AER_CORRECTABLE = satBump 32 (s.obj Obj.AER_CORRECTABLE) c) ∧
    (s.hostUp = true → exec (.hostReadCompletion tag .unsupported) s = .next (u.entryFetchFailed n slot) ∧
      exec (.hostReadCompletion tag .aborted) s = .next (u.entryFetchFailed n slot) ∧
      exec (.hostReadCompletion tag .poisoned) s =
        .next ((u.aerUncorrectable (u.readFn (.entry n slot)) 12).entryFetchFailed n slot)) ∧
    (s.safety.safe = false → exec (.pcieCompletionTimeout tag) s =
      .next ((u.aerUncorrectable (s.readFn (.entry n slot)) 14).entryFetchFailed n slot)) ∧
    ((s.ring n).st = .running → slot < 65536 → ((u.entryFetchFailed n slot).ring n).st = .faulted ∧
      bits ((u.entryFetchFailed n slot).ring n).faultInfo 56 8 = 3))

/-- A dispatch decision serves the ready ring of highest priority (R158, R159, R161, R162, R164, R188). -/
def Obligations.EntriesAreDispatchedInTurn : Prop :=
  (∀ s : State, s.dispatches = true → (∀ e ∈ s.wakeHeads.host.rings, s.wakeHeads.ringReady e.1 = false) →
    exec .dispatchDecision s = .next s.wakeHeads) ∧
  (∀ (s : State) p n used, s.chooseRing = some (p, n, used) → s.ringReady n = true ∧ p = (s.ring n).prio ∧
    ∀ e ∈ s.host.rings, s.ringReady e.1 = true → (s.ring e.1).prio ≤ p) ∧
  (∀ (s : State) p n used f, s.dispatches = true → let w := s.wakeHeads
    w.chooseRing = some (p, n, used) → (w.ring n).head = some f →
    let u : State := { w with host := { w.host with
      lastServed := SMap.set 256 w.host.lastServed p n, used := SMap.set 0 w.host.used p used } }
    let tag := fieldLE f.bytes 16 8
    let flags := fieldLE f.bytes 1 1
    (u.verdict n f.bytes = .run → exec .dispatchDecision s = .next ((u.passHead n).startProgram n f.slot f.bytes)) ∧
    (∀ st, u.verdict n f.bytes = .done st → exec .dispatchDecision s = .next ((u.passHead n).entryDone n f.slot tag st flags)) ∧
    (u.verdict n f.bytes = .disabled →
      exec .dispatchDecision s = .next ((u.passHead n).entryDone n f.slot tag Sc.unitDisabled flags)) ∧
    (∀ st a, u.verdict n f.bytes = .fail st a → (w.ring n).st = .running → st < 256 → f.slot < 65536 → Completes .dispatchDecision s fun t =>
      (t.ring n).st = .faulted ∧ (t.ring n).sqHead = (w.ring n).sqHead ∧ bits (t.ring n).faultInfo 56 8 = 1 ∧
      bits (t.ring n).faultInfo 0 8 = st)) ∧
  (∀ (s : State) n, let r := s.ring n
    (s.passHead n).ring n = { r with
      sqHead := (r.sqHead + 1) % r.sqSize, fetched := r.fetched.filter (fun f => f.slot != r.sqHead)
      dispatched := satBump 64 r.dispatched 1 })

/-- Descriptors, slots and posts of a running engine (R251, R252, R257, R258, R261, R262, R263, R264). -/
def Obligations.StreamsMoveTheirSlots : Prop :=
  ∀ (s : State) (e : Nat), s.engLive e = true →
    let x := s.engine e
    let d := x.desc
    let sb := dSlotBytes d
    let w := Waiter.engine e
    let mi := semOf (dInPair d) 0
    let mo := semOf (dOutPair d) 1
    let move (s : State) : State :=
      let stop := min (dTotal d) ((s.engine e).slotsTaken * sb)
      s.moveBeats e d (stop - (s.engine e).moved) stop
    let go (s : State) : State := move (s.setEngine e { s.engine e with
      slotsTaken := x.slotsTaken + 1, tookIn := false, tookOut := false, gateEpoch := none })
    (x.descRunning = false → x.descSt = 2 → exec (.descriptorStart e) s = .next (s.beginDesc e d)) ∧
    (x.descRunning = false → x.descSt = 0 → x.descAddr % 128 ≠ 0 →
      exec (.descriptorStart e) s = .next (s.stopChain e Sc.alignment)) ∧
    (x.descRunning = false → x.descSt = 0 → x.descAddr % 128 = 0 →
      let t := s.xlate x.ctx x.descAddr true false
      t.1.status = 0 → t.2.isMmio t.1.ga = false → ∀ nd u, t.2.destOf t.1.ga = .node nd →
      t.2.send (readPacket (.engine e) 2 nd t.1.ga 128) (.engRead e 0 []) = some u →
      exec (.descriptorStart e) s = .next (u.setEngine e { u.engine e with descSt := 1 })) ∧
    (x.descRunning = false → x.descSt = 1 → ∀ slot bs ga,
      s.engAnswered e slot [] 0 bs 0 ga = s.setEngine e { x with descSt := 2, desc := padTo 128 bs }) ∧
    (x.descRunning = true → x.wq ≠ [] → exec (.streamSlotAcquire e) s = .next (State.pumpEng e x.wq.length s)) ∧
    (x.descRunning = true → x.wq = [] → x.moved < dTotal d →
      (s.gateOpen e = false → exec (.streamSlotAcquire e) s = .next s) ∧
      (s.gateOpen e = true → x.moved < x.slotsTaken * sb → exec (.streamSlotAcquire e) s = .next (move s)) ∧
      (∀ q, s.gateOpen e = true → x.slotsTaken * sb ≤ x.moved → s.waitOf w = some q → exec (.streamSlotAcquire e) s =
        .next (if s.canTake q.sem 1 w then (s.take q.sem 1 w).answerWait q Sc.ok else s)) ∧
      (s.gateOpen e = true → x.slotsTaken * sb ≤ x.moved → s.waitOf w = none → s.engWaitsOn e = none →
        (dIn d = true → x.tookIn = false → s.canTake mi 1 w = false →
          exec (.streamSlotAcquire e) s = .next (s.engWait e mi (dTmo d))) ∧
        (dIn d = false → dOut d = false → exec (.streamSlotAcquire e) s = .next (go s)) ∧
        (dIn d = false → dOut d = true → x.tookOut = false → exec (.streamSlotAcquire e) s =
          .next (if s.canTake mo 1 w then go (s.takeNow (.engine e) mo 1 w) else s.engWait e mo (dTmo d))) ∧
        (dIn d = true → dOut d = false → x.tookIn = false → s.canTake mi 1 w = true → exec (.streamSlotAcquire e) s =
          .next (go ((s.takeNow (.engine e) mi 1 w).setEngine e { x with tookIn := true }))))) ∧
    (x.descRunning = true → dOut d = true → (x.slotsFilled + 1) * sb ≤ x.moved → s.engSlotOut e (x.slotsFilled + 1) true = false →
      exec (.streamFillPost e) s =
        .next (s.engPost e (semOf (dOutPair d) 0) (dOutDev d) fun y => { y with slotsFilled := x.slotsFilled + 1 })) ∧
    (x.descRunning = true → dIn d = true → (x.slotsFreed + 1) * sb ≤ x.moved → s.engSlotOut e (x.slotsFreed + 1) false = false →
      exec (.streamFreePost e) s =
        .next (s.engPost e (semOf (dInPair d) 1) (dInDev d) fun y => { y with slotsFreed := x.slotsFreed + 1 })) ∧
    (∀ q lim, s.waitOf w = some q → tmoNs q.tmo = some lim → q.sinceNs + lim ≤ s.timeNs → s.safety.safe = false →
      exec (.streamWaitTimeout e) s = .next (s.answerWait q Sc.timeout) ∧ ∀ m, (s.answerWait q Sc.timeout).sem m = s.sem m) ∧
    (x.descRunning = true → dTotal d ≤ x.moved → s.engOut e = false → (dOut d = true → x.slotsFilled = dTotal d / sb) →
      (dIn d = true → x.slotsFreed = dTotal d / sb) → exec (.descriptorComplete e) s = .next (s.nextDesc e d))

/-- A snapshot copies an engine's counters at one moment (R271). -/
def Obligations.EngineCountersAreSnapshot : Prop :=
  ∀ (s : State) (e : Nat), e < 440 →
    Completes (.engSnap e) s (fun t => (t.engine e).snap = { (s.engine e).live with timeNs := s.timeNs } ∧
      (t.engine e).live = (s.engine e).live ∧ (∀ f, f ≠ e → t.engine f = s.engine f) ∧ (∀ m, t.sem m = s.sem m) ∧ t.mem = s.mem ∧
      t.dict = s.dict ∧ t.timeNs = s.timeNs) ∧
    Completes (.engClear e) s (fun t => (t.engine e).live = {} ∧ (t.engine e).snap = (s.engine e).snap ∧
      (∀ f, f ≠ e → t.engine f = s.engine f) ∧ (∀ m, t.sem m = s.sem m) ∧ t.mem = s.mem ∧ t.dict = s.dict) ∧
    ((s.applyStallSelect e).str.stallSnap = { (s.engine e).live with timeNs := s.timeNs } ∧
      ∀ f, (s.applyStallSelect e).engine f = s.engine f)

/-- Posts, takes and the jess registers (R213, R215, R217, R265, R267). -/
def Obligations.SemaphoresCount : Prop :=
  ∀ s : State,
    (∀ m n, s.sem m + n ≤ 65535 → (s.post m n).1 = true ∧ (s.post m n).2.sem m = s.sem m + n ∧
      (∀ m', m' ≠ m → (s.post m n).2.sem m' = s.sem m') ∧ (s.post m n).2.mem = s.mem ∧ (s.post m n).2.dict = s.dict) ∧
    (∀ m n, 65535 < s.sem m + n → (s.post m n).1 = false ∧ (∀ m', (s.post m n).2.sem m' = s.sem m') ∧
      (s.post m n).2.obj Obj.JESS_OVERFLOWS = satBump 32 (s.obj Obj.JESS_OVERFLOWS) 1 ∧ (s.post m n).2.mem = s.mem) ∧
    (∀ m n w, (s.take m n w).sem m = s.sem m - n ∧ (∀ m', m' ≠ m → (s.take m n w).sem m' = s.sem m') ∧
      (∀ x ∈ (s.take m n w).str.waiters, ¬(x.sem = m ∧ x.who = w))) ∧
    (∀ p v, p < 2048 → v < 2 ^ 32 → Completes (.jessValueWrite p v) s fun t =>
      t.sem (semOf p 0) = v % 2 ^ 16 ∧ t.sem (semOf p 1) = v / 2 ^ 16 ∧ (∀ m, m / 2 ≠ p → t.sem m = s.sem m) ∧
      t.mem = s.mem ∧ t.seqs = s.seqs) ∧
    (∀ p n w, p < 2048 → n < 2 ^ 16 → w < 2 →
      exec (.jessPostRegister p (n + 65536 * w)) s = .next (s.post (semOf p w) n).2)

/-- A packet with no route of its own goes east or west first, then north or south (R297). -/
def Obligations.PacketsCrossTheMeshXY : Prop :=
  (∀ a d : Nat, a < 192 → d < 192 → a ≠ d → ∃ n, linkFrom a (xyDir a d) = some n ∧ n < 192 ∧
    (a % 16 < d % 16 → n = a + 1) ∧ (d % 16 < a % 16 → n + 1 = a) ∧
    (a % 16 = d % 16 → n % 16 = d % 16 ∧ (a < d → n = a + 16) ∧ (d < a → n + 16 = a))) ∧
  (∀ (s : State) (p : Nat) (k : Packet), s.packet p = some k → k.segs = none → k.at_ < 192 → k.dst < 192 → k.at_ ≠ k.dst →
    s.safety.safe = false → (k.dev = s.devId ∨ k.kind.response = true) →
    (s.granted k = false → exec (.flitArrival p .clean) s = .next s) ∧
    (s.granted k = true → Completes (.flitArrival p .clean) s fun t =>
      t.packet p = (linkFrom k.at_ (xyDir k.at_ k.dst)).map (fun n => { k with at_ := n, via := inputOf (xyDir k.at_ k.dst) }) ∧
      t.mem = s.mem ∧ t.dict = s.dict)) ∧
  -- what an output serves: no TC0 flit waits with another class, and none of its class stands before it in the turn
  (∀ (s : State) (k o : Packet), s.granted k = true → o ∈ s.rivals k →
    (k.tc ≠ 0 → o.tc ≠ 0) ∧
    (o.tc = k.tc → let last := (SMap.get {} s.net.arbs k.arbiter : Arbiter).last.getD k.tc 4
      (k.via + 4 - last) % 5 ≤ (o.via + 4 - last) % 5)) ∧
  (∀ (s : State) (k : Packet) kind st bs m g, ∃ r, (s.respond k kind st bs m g).net.packets = s.net.packets ++ [r] ∧ r.segs = none ∧
    r.dst = k.src ∧ r.src = k.dst ∧ r.kind = kind ∧ r.status = st ∧ r.data = bs)

/-- Route entries are written only when they may be (R301). -/
def Obligations.RouteTablesAreGuarded : Prop :=
  ∀ (s : State) (n e v : Nat), s.niUp n = true → e < 64 →
    let ctrl := SMap.get 0 (s.ni n).ctrl e
    let moves := SMap.get 0 (s.ni n).moves e
    (bit ctrl 63 = true → v < 2 ^ 48 → Completes (.routeMovesWrite n e v) s fun t =>
      (s.routeMovesWrite n e v).1 = Sc.accessDenied ∧ SMap.get 0 (t.ni n).moves e = moves ∧ SMap.get 0 (t.ni n).ctrl e = ctrl ∧
      t.net.packets = s.net.packets) ∧
    (bit ctrl 63 = false → v < 2 ^ 48 → Completes (.routeMovesWrite n e v) s fun t =>
      SMap.get 0 (t.ni n).moves e = v ∧ (∀ f, f ≠ e → SMap.get 0 (t.ni n).moves f = SMap.get 0 (s.ni n).moves f) ∧
      (∀ m, m ≠ n → t.ni m = s.ni m) ∧ t.net.packets = s.net.packets) ∧
    (bit v 63 = false → Completes (.routeCtrlWrite n e v) s fun t =>
      (s.routeCtrlWrite n e v).1 = Sc.ok ∧ bit (SMap.get 0 (t.ni n).ctrl e) 63 = false ∧ (t.ni n).moves = (s.ni n).moves ∧
      (∀ m, m ≠ n → t.ni m = s.ni m) ∧ t.net.packets = s.net.packets) ∧
    (bit v 63 = true → routeCheck n v moves ≠ 0 → Completes (.routeCtrlWrite n e v) s fun t =>
      (s.routeCtrlWrite n e v).1 = routeCheck n v moves ∧ SMap.get 0 (t.ni n).ctrl e = ctrl ∧
      (t.ni n).routeRejects = satBump 32 (s.ni n).routeRejects 1 ∧ t.net.packets = s.net.packets) ∧
    (bit v 63 = true → v < 2 ^ 64 → routeCheck n v moves = 0 → Completes (.routeCtrlWrite n e v) s fun t =>
      SMap.get 0 (t.ni n).ctrl e = v ∧ walk (movesOf (bits v 8 5) moves) n = some (bits v 0 8) ∧
      (∀ m, m ≠ n → t.ni m = s.ni m) ∧ t.net.packets = s.net.packets)

/-- Requests that have come to their home (R209, R215, R290, R292, R371, R374, R514, R535). -/
def Obligations.RequestsArePerformedAtTheirHome : Prop :=
  (∀ (s u : State) (p : Nat) (k : Packet), regionOf k.addr ≠ .mmio → s.edge k = (true, u) → u.windowPort k = none →
    (∀ f, s.arrived p .rdReq = some k →
      let a := u.redirected k.addr
      let open_ := match u.holder k.addr with | some h => a != k.addr || u.reply h == .deliver | none => false
      let v := if open_ && u.mark a = 0 then u.finds a f else u
      let r := v.homeRead (isGather k.agent) k.addr k.len
      exec (.rdReq p f) s = .next ((r.2.dropPacket p).respond k .rdRsp r.1.status (padTo k.len r.1.bytes) r.1.mark 0)) ∧
    (∀ n, s.arrived p .wr = some k → k.pieces = [] → oneGo k = true →
      let r := u.homeWrite k.agent (isGather k.agent) k.addr k.data 0
      exec (.wr p n) s = .next ((r.2.dropPacket p).respond k .wrAck r.1 [] 0 0)) ∧
    (∀ n, s.arrived p .wr = some k → k.pieces = [] → oneGo k = false → k.len ≠ 0 → (u.writePiece k n).2.1 = true →
      exec (.wr p n) s = .next (((u.writePiece k n).2.2.dropPacket p).respond k .wrAck (u.writePiece k n).1 [] 0 0)) ∧
    (s.arrived p .wrPoison = some k →
      let r := u.homeWrite k.agent (isGather k.agent) k.addr k.data (k.pseq + 1)
      exec (.wrPoison p) s = .next ((r.2.dropPacket p).respond k .wrAck r.1 [] 0 0)) ∧
    (s.arrived p .amoReq = some k →
      let r := u.performAmo k
      exec (.amoReq p) s = .next ((r.2.2.2.dropPacket p).respond k .amoRsp r.1 (leBytes 8 r.2.1) r.2.2.1 0))) ∧
  (∀ (s : State) (p : Nat) (k : Packet), s.arrived p .jessPost = some k → (∀ d r, k.agent ≠ .remote d r) →
    exec (.jessPost p) s = .next ((s.post (semOf k.pair k.which) k.count).2.dropPacket p)) ∧
  (∀ (s : State) (p : Nat) (k : Packet), s.arrived p .epochMark = some k → (∀ d r, k.agent ≠ .remote d r) → s.edSource k.ed = 1 →
    exec (.epochMark p) s = .next ((s.dropPacket p).trigger k.ed)) ∧
  (∀ (s u v : State) (p : Nat) (k : Packet), s.arrived p .gatherReq = some k → s.edge k = (true, u) →
    u.reply (unitOf 5 (k.table % 16)) = .deliver → u.takeGather (k.table % 16) k = some v → exec (.gatherReq p) s = .next (v.dropPacket p)) ∧
  (∀ (s : State) (p : Nat) (k : Packet), s.arrived p .jessWait = some k →
    let m := semOf k.pair k.which
    let u := s.dropPacket p
    (k.cancel = false → u.canTake m k.count k.waiter = true →
      exec (.jessWait p) s = .next ((u.take m k.count k.waiter).respond k .jessGrant Sc.ok [] 0 0)) ∧
    (k.cancel = false → u.canTake m k.count k.waiter = false → Completes (.jessWait p) s fun t =>
      t.str.waiters = s.str.waiters ++ [{
        sem := m, count := k.count, who := k.waiter, sinceNs := s.timeNs, tmo := k.tmo, reply := some (k.src, k.tag)
        packet := p }] ∧ ∀ i, t.sem i = s.sem i) ∧
    (k.cancel = true → Completes (.jessWaitCancel p) s fun t => (∀ i, t.sem i = s.sem i) ∧
      (∀ w ∈ t.str.waiters, ¬(w.sem = m ∧ w.who = k.waiter)) ∧
      (∃ r ∈ t.net.packets, r.kind = .jessGrant ∧ r.status = Sc.okEmpty ∧ r.dst = k.src))) ∧
  (∀ (s : State) (p : Nat) (w : SemWaiting), s.safety.safe = false →
    s.str.waiters.find? (fun w => w.packet == p && w.reply.isSome && (tmoNs w.tmo).any (s.passed w.sinceNs)) = some w → Completes (.jessWaitTimeout p) s fun t =>
      (∀ i, t.sem i = s.sem i) ∧ w ∉ t.str.waiters ∧
      ∃ r ∈ t.net.packets, r.kind = .jessGrant ∧ r.status = Sc.timeout ∧ r.dst = (w.reply.getD (0, 0)).1)

/-- Answers, timeouts, drop notices and snapshots (R292, R305, R306, R307, R321, R735). -/
def Obligations.AnswersReachWhatAsked : Prop :=
  (∀ (s : State) (p : Nat) (k : Packet) (o : Outst), s.outst k.dst k.tc k.tag = some o →
    (∀ kd ∈ [PKind.rdRsp, .wrAck, .amoRsp], s.arrived p kd = some k → o.timedOut = true →
      s.respondTo p kd = (s.dropPacket p).bump Obj.LATE_RESPONSES) ∧
    (s.arrived p .gatherRsp = some k → o.timedOut = true →
      s.respondTo p .gatherRsp = (if k.seg = 0 then (s.dropPacket p).bump Obj.LATE_RESPONSES else s.dropPacket p)) ∧
    (∀ kd ∈ [PKind.rdRsp, .wrAck, .amoRsp], s.arrived p kd = some k → o.timedOut = false → o.kind.answer = kd → o.pkt = none →
      (∀ g b i, o.use ≠ .gather g b i) →
      let u := if kd = .rdRsp then (s.dropPacket p).countBytes o.agent k.data.length else s.dropPacket p
      s.respondTo p kd = ((u.freeOutst k.dst k.tc k.tag).countLat o.agent o.sentNs).complete o kd k.status
        k.data (if k.poison then k.pseq + 1 else 0) k.seg (k.dev * 2 ^ 56 + k.addr) true)) ∧
  (∀ (s : State) (p : Nat), exec (.rdRsp p) s = .next (s.respondTo p .rdRsp).hostGo ∧
    exec (.wrAck p) s = .next (s.respondTo p .wrAck).hostGo ∧ exec (.amoRsp p) s = .next (s.respondTo p .amoRsp)) ∧
  (∀ (s : State) (p : Nat) (k : Packet), s.packet p = some k →
    exec (.gatherRsp p) s = .next ((s.respondTo p .gatherRsp).gatherSettled k)) ∧
  (∀ (s : State) (p : Nat) (g : Packet) (o : Outst), s.arrived p .jessGrant = some g → s.outst g.dst 0 g.tag = some o →
    let done := ((s.dropPacket p).freeOutst g.dst 0 g.tag).countLat o.agent o.sentNs
    (g.status = Sc.okEmpty → exec (.jessGrant p) s = .next done) ∧
    (∀ q k, o.use = .post q k → s.stillWaits o = true → s.canRun q k = true →
      let free := done.setSlot q k { done.slot q k with semWait := none }
      (g.status = Sc.ok → exec (.jessGrant p) s = .next (free.advance q k 1)) ∧
      (g.status = Sc.timeout → exec (.jessGrant p) s = .next (free.endProgram q k Sc.timeout))) ∧
    (∀ e m, o.use = .engWait e m → s.stillWaits o = true → g.status ≠ Sc.okEmpty →
      exec (.jessGrant p) s = .next (done.engWaited e m g.status)) ∧
    (s.stillWaits o = false → g.status = Sc.ok →
      exec (.jessGrant p) s = .next ((done.post (semOf g.pair g.which) g.count).2.bump Obj.JESS_RETURNS)) ∧
    (s.stillWaits o = false → g.status = Sc.timeout → exec (.jessGrant p) s = .next done)) ∧
  (∀ (s : State) (n tc tag : Nat) (o : Outst), s.outst n tc tag = some o →
    (o.timedOut = true → s.passed o.sentNs (s.obj Obj.NI_TIMEOUT_US * 1000) = true →
      exec (.timedOutTagRelease n tc tag) s = .next (s.freeOutst n tc tag).hostGo ∧ (s.freeOutst n tc tag).outst n tc tag = none) ∧
    (o.timedOut = false → s.safety.safe = false → s.passed o.sentNs (s.obj Obj.NI_TIMEOUT_US * 1000) = true → o.use = .plain → o.kind = .wr →
      s.host.held = [] →
      Completes (.niRequestTimeout n tc tag) s fun t => t.obj Obj.REQ_TIMEOUTS = satBump 32 (s.obj Obj.REQ_TIMEOUTS) 1 ∧
        (∃ o', t.outst n tc tag = some o' ∧ o'.timedOut = true) ∧ t.mem = s.mem)) ∧
  (∀ (s : State) (p : Nat) (k q : Packet) (o : Outst), s.packet p = some k → k.kind.response = true → k.status = Sc.linkLost →
    (s.arrived p k.kind).isSome = true → s.outst k.dst k.tc k.tag = some o → o.pkt = some q → o.timedOut = false →
    (∀ a b, o.use ≠ .relay a b) →
    let u := s.dropPacket p
    (q.repeats = true → o.reissues < s.obj Obj.REISSUE_LIMIT → ∀ port, u.portFor q.dev q.sel = some port →
      exec (.dropNoticeRx p) s = .next ((u.reissue o q port).serveNode o.node).hostGo) ∧
    (q.repeats = false → o.use = .plain → s.host.held = [] → Completes (.dropNoticeRx p) s fun t => t.outst k.dst k.tc k.tag = none ∧
      t.obj Obj.INDETERMINATE_DONE = satBump 32 (s.obj Obj.INDETERMINATE_DONE) 1)) ∧
  (∀ s : State, s.net.copying = true →
    (s.net.snapPending = none → exec .statsSnapshotDone s = .next { s with net := { s.net with copying := false } }) ∧
    (∀ c, s.net.snapPending = some c → Completes .statsSnapshotDone s fun t => t.net.snap = s.net.stats ∧ t.net.snapTimeNs = s.timeNs ∧
      t.net.copying = true ∧ t.net.snapPending = none ∧ t.net.stats = (if c then [] else s.net.stats)))

/-- Memory reads back what was last written, and nothing else changes (R22, R290, R346, R352, R353). -/
def Obligations.MemoryHoldsWhatIsWritten : Prop :=
  (∀ (s : State) (a b : Nat) (bs : List Byte),
    (s.rawWrite a bs).byteAt b = (if a ≤ b ∧ b < a + bs.length then bs.getD (b - a) 0 else s.byteAt b)) ∧
  (∀ (s : State) (a n i : Nat), i < n → (s.rawRead a n).getD i 0 = s.byteAt (a + i)) ∧
  (∀ (s : State) (u a : Nat), s.holder a = some u → regionOf a ≠ .mmio → regionOf a ≠ .sec → s.regionLate a = false →
    s.inHotCache a = false → SMap.get 0 s.mem.redirect u = 0 ∨ 64 ≤ u → s.reply u = .deliver → s.eccErr a = [] →
    (∀ g n, s.homeRead g a n = ({ bytes := s.rawRead a n, mark := s.mark a }, s)) ∧
    (∀ ag g bs, s.inPelletLog a = false → bs.length ≤ 128 - a % 128 →
      let w := s.homeWrite ag g a bs 0
      w.1 = Sc.ok ∧ w.2.mark a = (if bs.length = 128 then 0 else s.mark a) ∧
      ∀ b, w.2.byteAt b = if a ≤ b ∧ b < a + bs.length then bs.getD (b - a) 0 else s.byteAt b) ∧
    (∀ ag g bs m, s.inPelletLog a = false → m ≠ 0 → unitClass u ≠ 7 →
      let w := s.homeWrite ag g a bs m
      w.1 = Sc.ok ∧ w.2.mark a = m ∧ (∀ b, b / 128 ≠ a / 128 → w.2.byteAt b = s.byteAt b ∧ w.2.mark b = s.mark b))) ∧
  (∀ (s : State) (a : Nat), s.holder a = none → regionOf a ≠ .mmio → s.regionLate a = false →
    (∀ g n, (s.homeRead g a n).1.status = Sc.accessDenied ∧ (s.homeRead g a n).2 = s.unbackedHit a) ∧
    (∀ ag g bs m, s.homeWrite ag g a bs m = (Sc.accessDenied, s.unbackedHit a)) ∧
    (∀ b, (s.unbackedHit a).byteAt b = s.byteAt b)) ∧
  (∀ (s : State) (c ca : Nat) (r w : Bool),
    (s.aptMatches c ca = [] → (s.xlate c ca r w).1.status = Sc.apertureMiss) ∧
    (∀ e, s.aptMatches c ca = [e] → (r = true → bit e.w1 0 = true) → (w = true → bit e.w1 1 = true) →
      s.xlate c ca r w = ({ ga := s.aptTarget e ca, replay := bit e.w1 2 }, s)) ∧
    (∀ e, s.aptMatches c ca = [e] → (r = true ∧ bit e.w1 0 = false ∨ w = true ∧ bit e.w1 1 = false) →
      (s.xlate c ca r w).1.status = Sc.accessDenied) ∧
    ∀ b, (s.xlate c ca r w).2.byteAt b = s.byteAt b)

/-- Aperture entries are written by their rules (R357); scrubbing corrects or poisons a line (R342, R343, R348, R349), and an LP
port's calibration holds its accesses (R336). -/
def Obligations.ApertureEntriesAndScrubbing : Prop :=
  (∀ (s : State) (c i v : Nat), s.aptUp c i = true → v < 2 ^ 64 →
    let e := s.aptEntry c i
    let here : Prop := bit e.w1 3 = true ∨ e.w1 / 2 ^ 56 = s.devId
    let size := match bits v 2 2 with | 0 => 0x10000 | 1 => 0x200000 | _ => 0x40000000
    let pa := e.w1 / 2 ^ 16 * 2 ^ 16
    let reserved : Prop := bits v 4 12 ≠ 0 ∨ bit v 1 = true ∨ bits v 2 2 = 3
    let crooked : Prop := v / 2 ^ 16 * 2 ^ 16 % size ≠ 0 ∨ pa % size ≠ 0 ∨
      (here ∧ regionOf (pa % 2 ^ 56) ≠ regionOf (pa % 2 ^ 56 + size - 1))
    let others (t : State) : Prop := ∀ c' i', i' < 4096 → (c', i') ≠ (c, i) → t.aptEntry c' i' = s.aptEntry c' i'
    let refused (w st : Nat) (t : State) : Prop := t.aptEntry c i = e ∧ others t ∧ (t.aptCtl c).status = st + i * 2 ^ 8 + w * 2 ^ 20
    (e.valid = true → bits v 4 12 = 0 → (s.aptWord1 c i v).1 = Sc.accessDenied ∧
      Completes (.aptWord1Write c i v) s (refused 1 Sc.accessDenied)) ∧
    (e.valid = false → bits v 4 12 = 0 → (s.aptWord1 c i v).1 = Sc.ok ∧
      Completes (.aptWord1Write c i v) s fun t => t.aptEntry c i = { e with w1 := v } ∧ others t) ∧
    (bit v 0 = false → (s.aptWord0 c i v).1 = Sc.ok ∧
      Completes (.aptWord0Write c i v) s fun t => (t.aptEntry c i).valid = false ∧ (t.aptEntry c i).w1 = e.w1 ∧ others t) ∧
    (bit v 0 = true → reserved → (s.aptWord0 c i v).1 = Sc.reservedNonzero ∧
      Completes (.aptWord0Write c i v) s (refused 0 Sc.reservedNonzero)) ∧
    (bit v 0 = true → ¬reserved → here → s.rangeBacked (pa % 2 ^ 56) size = false → (s.aptWord0 c i v).1 = Sc.boundViolation ∧
      Completes (.aptWord0Write c i v) s (refused 0 Sc.boundViolation)) ∧
    (bit v 0 = true → ¬reserved → (here → s.rangeBacked (pa % 2 ^ 56) size = true) → crooked →
      (s.aptWord0 c i v).1 = Sc.alignment ∧ Completes (.aptWord0Write c i v) s (refused 0 Sc.alignment)) ∧
    (bit v 0 = true → ¬reserved → (here → s.rangeBacked (pa % 2 ^ 56) size = true) → ¬crooked → (s.aptWord0 c i v).1 = Sc.ok ∧
      Completes (.aptWord0Write c i v) s fun t => t.aptEntry c i = { e with w0 := v } ∧ others t)) ∧
  (∀ (s : State) (line u n : Nat), s.dramLine line = some (u, n) → s.scrubs u = true → s.scrubRate ≠ 0 → n = s.scrubAt u →
    let a := line * 128
    (s.mark a ≠ 0 ∨ s.eccErr a = [] → Completes (.scrubLine line [] false) s fun t => (∀ b, t.byteAt b = s.byteAt b) ∧
      (∀ b, t.mark b = s.mark b) ∧ (t.scrubAt u = n + 1 ∨ t.obj Obj.SCRUB_PASSES = satBump 32 (s.obj Obj.SCRUB_PASSES) 1)) ∧
    (∀ f : List (Nat × Nat), s.mark a = 0 → s.eccErr a = [] → s.codeOf a = .line → (∀ x ∈ f, x.1 < 151 ∧ 0 < x.2 ∧ x.2 < 256) →
      (f.length ≤ 6 → (∀ x ∈ f, x.1 < 144) → Completes (.scrubLine line f false) s fun t => (∀ b, t.byteAt b = s.byteAt b) ∧
        (∀ b, t.mark b = s.mark b) ∧ t.eccErr a = []) ∧
      (mergeErrs f = f → 7 ≤ f.length → f.length ≤ 10 → Completes (.scrubLine line f false) s fun t => t.mark a ≠ 0)) ∧
    -- a line that would decode only with another address fails
    (∀ i m, s.mark a = 0 → s.eccErr a = [] → s.codeOf a = .line → 144 ≤ i → i < 151 → 0 < m → m < 256 →
      Completes (.scrubLine line [(i, m)] false) s fun t => t.mark a ≠ 0)) ∧
  (∀ (s : State) (a u : Nat), s.holder a = some u → regionOf a ∈ [.mid, .mxt, .vxt, .cat, .sec] → a % 8 = 0 → s.scrubs u = true →
    let n := (a - storeBase u) / 8
    n = s.scrubAt u →
    (s.mark a ≠ 0 ∨ s.eccErr a = [] → Completes (.sramScrubWord a []) s fun t => (∀ b, t.byteAt b = s.byteAt b) ∧
      t.scrubAt u = (if (n + 1) * 8 = storeBytes u then 0 else n + 1)) ∧
    (∀ b m, s.mark a = 0 → s.eccErr a = [] → b < 1152 →
      Completes (.sramScrubWord a [(b, m)]) s fun t => (∀ c, t.byteAt c = s.byteAt c) ∧ t.eccErr a = [] ∧ t.mark a = 0) ∧
    (∀ b c m, s.mark a = 0 → s.eccErr a = [] → b < c → c < 1152 → b / 72 = c / 72 →
      Completes (.sramScrubWord a [(b, m), (c, m)]) s fun t => t.mark a ≠ 0)) ∧
  (∀ (s : State) p, p < 8 → s.available (unitOf 7 p) = true → 3 ≤ s.stage → 0 < s.lpUsable p → s.safety.safe = false →
    Completes (.lpRecal p) s fun t => s.timeNs ≤ SMap.get 0 t.mem.lpHold p ∧ SMap.get 0 t.mem.lpHold p ≤ s.timeNs + 2000 ∧
      (∀ b, t.byteAt b = s.byteAt b) ∧ t.net.packets = s.net.packets) ∧
  (∀ (s : State) (k : Packet) n d kd, s.packet k.id = some k → k.kind.response = false → regionOf k.addr = .lpddr →
    s.lpMap (k.addr - lpBase) = some (n, d) → s.timeNs < SMap.get 0 s.mem.lpHold n → s.arrived k.id kd = none)

/-- The power sequences of a domain (R318). -/
def Obligations.DomainsPowerDownAndUp : Prop :=
  ∀ (s : State) (u : Nat), u < 201 → s.safety.safe = false →
    let d := s.dom u
    let ready := (s.closeForStop u).hoodPort u
    (d.phase = .draining → ready.domainDrained u = true → ready.portHooded u = true →
      exec (.domainDrainComplete u) s = .next (ready.endDrain u)) ∧
    (d.phase = .draining → s.domainDrained u = false → d.sinceNs + 20000 ≤ s.timeNs →
      exec (.domainDrainTimeout u) s = .next (((((s.closeForStop u).bump Obj.DRAIN_TIMEOUTS).abandon u).hoodPort u).endDrain u)) ∧
    (d.target = .hooded → (s.ucb u).beforeTest = none →
      (s.endDrain u).unitSt u = .hooded ∧ ((s.endDrain u).dom u).phase = .open_ ∧ (∀ a, (s.endDrain u).byteAt a = s.byteAt a)) ∧
    (d.target = .off ∨ d.target = .mews →
      (s.endDrain u).unitSt u = s.unitSt u ∧ ((s.endDrain u).dom u).phase = .down ∧ (∀ a, (s.endDrain u).byteAt a = s.byteAt a)) ∧
    (d.phase = .down → d.wakeAfter = false → d.parked = [] → unitClass u ≠ 6 → Completes (.powerDownComplete u) s fun t =>
      t.unitSt u = d.target ∧ (t.dom u).phase = .open_ ∧ (∀ v, v ≠ u → t.unitSt v = s.unitSt v) ∧ (∀ a, t.byteAt a = s.byteAt a)) ∧
    (d.phase = .up → d.target = .ready → (s.ucb u).beforeTest = none → unitClass u ≠ 6 → Completes (.powerUpComplete u) s fun t =>
      t.unitSt u = .ready ∧ (t.dom u).phase = .open_ ∧ (t.dom u).parked = [] ∧
      ∀ a, t.byteAt a = if s.unitSt u = .off ∧ storeBase u ≤ a ∧ a < storeBase u + storeBytes u then 0 else s.byteAt a)

/-- Self-tests, hand-over and field repair (R453, R458, R459, R460, R461, R760, R764, R765). -/
def Obligations.TestsHandOversAndRepairs : Prop :=
  (∀ (s : State) (u : Nat), u < 201 → s.live = true →
    let b := s.ucb u
    b.testWaits = true → b.beforeTest = none → s.classTesting u = false →
    (b.st = .ready ∧ (s.dom u).phase = .open_ ∨ b.st = .hooded ∨ b.st = .off ∨ b.st = .mews ∨
      b.st = .busy ∧ (s.epoch (s.domainOf u)).commit = .applied) →
    (b.testForced = true ∨ s.testCritical u = false → exec (.selftestStart u) s = .next (s.startTest u)) ∧
    (b.testForced = false → s.testCritical u = true → Completes (.selftestStart u) s fun t =>
      (t.ucb u).testWaits = false ∧ t.unitSt u = s.unitSt u ∧ (t.ucb u).beforeTest = none ∧
      t.obj Obj.TESTS_DEFERRED = satBump 32 (s.obj Obj.TESTS_DEFERRED) 1 ∧ t.obj Obj.TEST_LAST = unitCode u + 3 * 65536)) ∧
  -- how a test begins: drained and hooded, in TEST at once, woken first, or after the work that runs
  (∀ (s : State) (u : Nat), u < 201 → let b := s.ucb u
    let t := s.startTest u
    (b.st ∈ [.ready, .hooded, .off, .mews] → (t.ucb u).testWaits = false ∧ (t.ucb u).beforeTest = some b.st) ∧
    (b.st = .ready → t.unitSt u = .ready ∧ (t.dom u).phase = .draining ∧ (t.dom u).target = .hooded) ∧
    (b.st = .hooded → (64 ≤ u ∨ s.handOf u = .none_ ∧ s.freeUnderstudy u = none) → t.unitSt u = .test) ∧
    (∀ v, b.st = .hooded → u < 64 → v ≠ u → s.handOf u = .none_ → s.freeUnderstudy u = some v → s.unitSt v = .ready →
      t.unitSt u = .hooded ∧ t.handOf u = .waking v ∧ (t.tile v).carrying = some u) ∧
    (b.st = .off ∨ b.st = .mews → t.unitSt u = b.st ∧ (t.dom u).phase = .up) ∧
    (b.st = .busy → t.unitSt u = .quiescing ∧ (t.ucb u).target = some .hooded ∧ (t.ucb u).beforeTest = some .ready)) ∧
  -- a pass: back to the state before the test, or to what management asked meanwhile
  (∀ (s : State) (u p : Nat) (c : Bool) (rs : List Nat), u < 201 → s.unitSt u = .test → s.safety.safe = false →
    let b := s.ucb u
    (b.testClears = false ∨ b.mgmtStop = false ∨ b.target.isSome = true) →
    let back := match b.target with | some t => t | none => b.beforeTest.getD .ready
    back ∈ [.ready, .hooded, .off, .mews] →
    Completes (.selftestComplete u .pass p c rs) s fun t => (t.ucb u).beforeTest = none ∧ (t.ucb u).lastPassNs = s.timeNs ∧
      t.obj Obj.TESTS_RUN = satBump 32 (s.obj Obj.TESTS_RUN) 1 ∧ t.obj Obj.TEST_LAST = unitCode u ∧
      t.obj Obj.TESTS_FAILED = s.obj Obj.TESTS_FAILED ∧
      t.obj Obj.REPAIRS_AUTO = (if b.testAgain then satBump 32 (s.obj Obj.REPAIRS_AUTO) 1 else s.obj Obj.REPAIRS_AUTO) ∧
      (back = .hooded → t.unitSt u = .hooded) ∧
      (back = .ready → (64 ≤ u ∨ s.handOf u = .none_) → t.unitSt u = .ready) ∧
      (∀ v, back = .ready → u < 64 → s.handOf u = .redirected v → t.unitSt u = .hooded ∧ t.handOf u = .releasing v) ∧
      (back = .off ∨ back = .mews → (s.dom u).phase = .open_ → s.sup.inMews = false →
        (t.dom u).phase = .down ∧ (t.dom u).target = back)) ∧
  -- a failure, and what field repair can replace
  (∀ (s : State) (u p : Nat) (c : Bool) (rs : List Nat), u < 201 → s.unitSt u = .test → s.safety.safe = false →
    let b := s.ucb u
    (∀ r ∈ [TestResult.repairable, .fail], (r = .fail ∨ 64 ≤ u) → (64 ≤ u ∨ s.handOf u = .none_) →
      Completes (.selftestComplete u r p c rs) s fun t => t.unitSt u = .faulted ∧ (t.ucb u).beforeTest = none ∧
        t.obj Obj.TESTS_RUN = satBump 32 (s.obj Obj.TESTS_RUN) 1 ∧ t.obj Obj.TESTS_FAILED = satBump 32 (s.obj Obj.TESTS_FAILED) 1 ∧
        t.obj Obj.TEST_LAST = unitCode u + 2 * 65536) ∧
    (∀ v, u < 64 → s.handOf u = .redirected v → s.runningOn v = true → Completes (.selftestComplete u .fail p c rs) s fun t =>
      t.unitSt u = .faulted ∧ t.handOf u = .ending v) ∧
    (u < 64 → b.testAgain = false → s.flag Obj.AUTO_REPAIR = false → Completes (.selftestComplete u .repairable p c rs) s fun t =>
      t.unitSt u = .hooded ∧ t.handOf u = s.handOf u ∧ t.obj Obj.TESTS_FAILED = satBump 32 (s.obj Obj.TESTS_FAILED) 1) ∧
    (∀ v rest, u < 64 → b.testAgain = false → s.flag Obj.AUTO_REPAIR = true → rs = v :: rest →
      (s.setUnitSt u .hooded).repairStatus u v = 0 → Completes (.selftestComplete u .repairable p c rs) s fun t =>
        t.unitSt u = .hooded ∧ (t.tile u).repair = some (v, none) ∧ (t.tile u).auto = rest)) ∧
  (∀ (s : State) (n v : Nat), n < 64 → v < 64 → n ≠ v → s.mem.wf = true → s.handOf n = .waking v → s.unitSt v = .ready →
    s.unitSt n = .hooded → Completes (.handoverCopyDone n) s fun t =>
      t.handOf n = .redirected v ∧ t.unitSt n = .test ∧ SMap.get 0 t.mem.redirect n = v + 1 ∧
      t.obj Obj.HANDOVERS = satBump 32 (s.obj Obj.HANDOVERS) 1 ∧
      (∀ i, i < 0x400000 → t.byteAt (storeBase v + i) = s.byteAt (storeBase n + i)) ∧
      (∀ a, ¬(storeBase v ≤ a ∧ a < storeBase v + 0x400000) → t.byteAt a = s.byteAt a)) ∧
  (∀ (s : State) (n v : Nat), n < 64 → v < 64 → n ≠ v → s.mem.wf = true → s.handOf n = .releasing v → s.runningOn v = false →
    Completes (.releaseCopyDone n) s fun t => t.unitSt n = .ready ∧ t.handOf n = .none_ ∧ SMap.get 0 t.mem.redirect n = 0 ∧
      (s.unitSt v ≠ .faulted → ∀ i, i < 0x400000 → t.byteAt (storeBase n + i) = s.byteAt (storeBase v + i)) ∧
      (s.unitSt v = .faulted → ∀ a, t.byteAt a = s.byteAt a) ∧
      (∀ a, ¬(storeBase n ≤ a ∧ a < storeBase n + 0x400000) → t.byteAt a = s.byteAt a)) ∧
  (∀ (s : State) (n v : Nat), n < 64 →
    let x : Tile := { (s.tile n).program v with repair := none, held := (s.tile n).held }
    (∀ w, (s.tile n).repair = some (v, some w) → exec (.repairProgramDone n) s = .next ((s.setTile n x).answer w Sc.ok) ∧
      Completes (.repairProgramDone n) s fun t => (t.tile n).spares = ((s.tile n).program v).spares ∧ (t.tile n).repair = none ∧
        (∀ m, m ≠ n → t.tile m = s.tile m) ∧ t.mem = s.mem) ∧
    ((s.tile n).repair = some (v, none) → exec (.repairProgramDone n) s = .next ((s.setTile n x).autoRepair n)) ∧
    ((s.tile n).repair = some (v, none) → (s.tile n).auto = [] → Completes (.repairProgramDone n) s fun t =>
      t.unitSt n = .test ∧ (t.ucb n).testAgain = true ∧ (t.tile n).spares = ((s.tile n).program v).spares ∧ t.mem = s.mem))

/-- Queued operations begin and end (R218, R219, R434, R435, R743). -/
def Obligations.UnitOperationsEnd : Prop :=
  (∀ (s : State) (q : Nat) (o : UnitOp), q < 153 → s.live = true → s.headOp q = some o →
    (o.opcode ≠ 0x30 → exec (.unitOpComplete q false) s = .next (s.checkerFault (seqUnit q))) ∧
    (o.opcode = 0x31 → exec (.unitOpComplete q true) s = .next (s.runVx o)) ∧
    (o.opcode = 0x32 → exec (.unitOpComplete q true) s = .next (s.runCx o)) ∧
    (o.opcode = 0x33 → exec (.unitOpComplete q true) s = .next (s.gxComplete (q - 120) o)) ∧
    (o.opcode = 0x36 ∨ o.opcode = 0x37 → s.coll.op = some o.id → exec (.unitOpComplete q true) s = .next (s.settleColl o)) ∧
    (q < 64 → o.opcode = 0x30 → o.began ≠ 0 → (∀ u ∈ s.passTiles o, ∀ x ∈ s.begunOn u, o.began ≤ x.began) →
      exec (.mxpassDrainDone q true) s = .next (s.runPass o) ∧ exec (.mxpassDrainDone q false) s = .next (s.checkerFault q))) ∧
  (∀ (s : State) (q w : Nat) (o : UnitOp), q < 64 → s.live = true → s.held q = false →
    (s.seq q).queue.find? (fun x => x.began == 0) = some o → o.opcode = 0x30 →
    (∀ u ∈ s.passTiles o, ((s.begunOn u).filter fun x => bit x.w0 23).length < 2) → Completes (.mxpassStart q w) s fun t =>
      (t.seq q).queue = (s.seq q).queue.map (fun x => if x.id = o.id then { x with began := s.tiles.started + 1 } else x) ∧
      t.tiles.started = s.tiles.started + 1 ∧ t.obj Obj.BANK_WAIT_CYCLES = satBump 64 (s.obj Obj.BANK_WAIT_CYCLES) w ∧ t.mem = s.mem) ∧
  (∀ (s : State) (u : Nat), (s.checkerFault u).unitSt u = .faulted ∧ ∀ a, (s.checkerFault u).byteAt a = s.byteAt a)

/-- Integer elements and accumulators (R407, R478). -/
def Obligations.IntegerArithmeticIsExact : Prop :=
  (∀ t ∈ [4, 5, 6], ∀ a b : Nat,
    let w := 8 * tySize t
    a < 2 ^ w → b < 2 ^ w →
    let hi : Int := (2 : Int) ^ (w - 1) - 1
    let lo : Int := -(2 : Int) ^ (w - 1)
    let clamped (z : Int) (r : Nat × Nat) : Prop :=
      (hi < z → r = (2 ^ (w - 1) - 1, 4)) ∧ (z < lo → r = (2 ^ (w - 1), 5)) ∧ (lo ≤ z → z ≤ hi → r.1 < 2 ^ w ∧ sgn w r.1 = z ∧ r.2 = 0)
    vxBinary 1 t a b = ((a + b) % 2 ^ w, 0) ∧ vxBinary 2 t a b = ((a + 2 ^ w - b) % 2 ^ w, 0) ∧
    vxBinary 3 t a b = (a * b % 2 ^ w, 0) ∧
    clamped (sgn w a + sgn w b) (vxBinary 8 t a b) ∧ clamped (sgn w a - sgn w b) (vxBinary 9 t a b) ∧
    (∀ imm blk i, clamped |sgn w a| (vxUnary 0x10 t imm blk i a) ∧ clamped (-(sgn w a)) (vxUnary 0x11 t imm blk i a) ∧
      vxUnary 0x10 t imm blk i (2 ^ (w - 1)) = (2 ^ (w - 1) - 1, 4) ∧ vxUnary 0x11 t imm blk i (2 ^ (w - 1)) = (2 ^ (w - 1) - 1, 4))) ∧
  (∀ (p : Pass) (start : Int) (sat : Nat) (as bs : List Int), p.accLo ≤ start → start ≤ p.accHi →
    let sum (n : Nat) : Int := start + (((as.zip bs).take n).map fun x => x.1 * x.2).sum
    let r := p.accumulate start sat as bs
    p.accLo ≤ r.1 ∧ r.1 ≤ p.accHi ∧
    (p.wrap = true → r.2 = sat ∧ (2 : Int) ^ p.accW ∣ r.1 - sum (as.zip bs).length) ∧
    ((∀ n, n ≤ (as.zip bs).length → p.accLo ≤ sum n ∧ sum n ≤ p.accHi) → r = (sum (as.zip bs).length, sat)))

/-- Table descriptors, hot-row tags, gather engines and the moult (R506, R513, R514, R521, R525, R526, R529, R532). -/
def Obligations.TablesTagsAndGathers : Prop :=
  (∀ (s : State) (d v : Nat), s.geUp = true → d < 1024 → v < 2 ^ 64 →
    let check := descCheckWords s.devId (fun w => if w = 0 then v else s.descWord d w)
    (∀ w, 1 ≤ w → w ≤ 7 → bit (s.descWord d 0) 0 = true → (s.descWordN d w v).1 = Sc.accessDenied ∧
      Completes (.tableDescWordWrite d w v) s fun t => t.tab.desc = s.tab.desc ∧ t.tab.tags = s.tab.tags ∧ t.mem = s.mem) ∧
    (∀ w, 1 ≤ w → w ≤ 7 → bit (s.descWord d 0) 0 = false → Completes (.tableDescWordWrite d w v) s fun t => t.descWord d w = v ∧
      (∀ d' w', w' < 8 → (d', w') ≠ (d, w) → t.descWord d' w' = s.descWord d' w') ∧ t.tab.tags = s.tab.tags ∧ t.mem = s.mem) ∧
    (bit v 0 = false → (s.descWord0 d v).1 = Sc.ok ∧ Completes (.tableDescWord0Write d v) s fun t => t.descWord d 0 = v ∧
      (∀ e, bits (t.hotTag e) 40 10 = d → bit (t.hotTag e) 63 = false) ∧
      (∀ e, bits (s.hotTag e) 40 10 ≠ d → t.hotTag e = s.hotTag e) ∧ ∀ x ∈ t.tab.copies, bits x.value 40 10 ≠ d) ∧
    (bit v 0 = true → check ≠ 0 → (s.descWord0 d v).1 = check ∧ Completes (.tableDescWord0Write d v) s fun t =>
      t.tab.desc = s.tab.desc ∧ t.tab.tags = s.tab.tags ∧ t.obj Obj.DESC_REJECTS = satBump 32 (s.obj Obj.DESC_REJECTS) 1) ∧
    (bit v 0 = true → check = 0 → Completes (.tableDescWord0Write d v) s fun t => t.descWord d 0 = v ∧ t.tab.tags = s.tab.tags ∧
      ∀ d' w', w' < 8 → (d', w') ≠ (d, 0) → t.descWord d' w' = s.descWord d' w')) ∧
  (∀ (s : State) (e v : Nat), s.geUp = true → e < 16384 → v < 2 ^ 64 →
    (bits v 50 13 ≠ 0 → (s.hotTagWrite e v none).1 = some Sc.reservedNonzero ∧ Completes (.hotTagWrite e v) s fun t =>
      t.tab.tags = s.tab.tags ∧ t.tab.copies = s.tab.copies) ∧
    (bit v 63 = false → bits v 50 13 = 0 → Completes (.hotTagWrite e v) s fun t => t.hotTag e = bits v 0 50 ∧ (∀ f, f ≠ e → t.hotTag f = s.hotTag f) ∧ t.mem = s.mem) ∧
    (bit v 63 = true → bit (s.hotTag e) 63 = true → bits v 50 13 = 0 → (s.hotTagWrite e v none).1 = some Sc.accessDenied ∧
      Completes (.hotTagWrite e v) s fun t => t.tab.tags = s.tab.tags ∧ t.tab.copies = s.tab.copies) ∧
    (bit v 63 = true → (s.hotTagWrite e v none).1 = none → Completes (.hotTagWrite e v) s fun t => t.tab.tags = s.tab.tags ∧
      t.tab.copies = s.tab.copies ++ [{ slot := e, value := v, req := none }])) ∧
  (∀ (s : State) (e : Nat) (c : TagCopy), s.tab.copies.find? (fun c => c.slot == e) = some c → s.safety.safe = false →
    s.reply (unitOf 5 0) = .deliver →
    let row := s.rowAt (.gather 0) (2 + e) (s.desc (bits c.value 40 10)) (bits c.value 0 40)
    (c.wrote = true → s.writing (.hot e) = false → c.req = none → Completes (.hotTagCopyDone e) s fun t =>
      t.hotTag e = c.value ∧ (∀ f, f ≠ e → t.hotTag f = s.hotTag f) ∧ ∀ x ∈ t.tab.copies, x.slot ≠ e) ∧
    (c.wrote = true → s.writing (.hot e) = true → exec (.hotTagCopyDone e) s = .next s) ∧
    (∀ u, c.wrote = false → row = (none, u) → exec (.hotTagCopyDone e) s = .next u) ∧
    (∀ a u, c.wrote = false → row = (some a, u) → isFaultStatus a.status = true →
      exec (.hotTagCopyDone e) s = .next (u.endCopy e a.status)) ∧
    (∀ a u w, c.wrote = false → row = (some a, u) → isFaultStatus a.status = false →
      u.putPieces (.gather 0) 2 false (u.hotPiece e a.bytes.length) a.bytes a.mark (.hot e) = some w →
      exec (.hotTagCopyDone e) s = .next { w.2 with tab := { w.2.tab with
        copies := w.2.tab.copies.map fun x => if x.slot = e then { x with wrote := true } else x } })) ∧
  (∀ (s : State) (g : Nat) (o : UnitOp), s.geLive g = true → s.gxHead g = some o → (s.ge g).op = some o.id →
    ((s.ge g).stop ≠ 0 → exec (.gatherLookupIssue g) s = .next (s.writeBags g o)) ∧
    (∀ b k rest, (s.ge g).stop = 0 → (s.ge g).bags.find? (fun b => !b.todo.isEmpty) = some b → b.todo = k :: rest →
      exec (.gatherLookupIssue g) s = .next ((s.issueChunk g o b k rest).writeBags g o)) ∧
    ((s.ge g).stop = 0 → (s.ge g).bags.find? (fun b => !b.todo.isEmpty) = none → (s.ge g).nextBag < gBags { w0 := o.w0, w1 := o.w1 } →
      exec (.gatherLookupIssue g) s = .next ((s.openBag g o).writeBags g o))) ∧
  (∀ (s : State) (g : Nat) (p : Packet) (rest : List Packet), s.safety.safe = false → g < 16 → s.reply (unitOf 5 g) = .deliver →
    (s.ge g).serve = p :: rest →
    let s0 := s.setGe g { s.ge g with serve := rest }
    let es := (List.range p.len).map (gatherEntry p)
    (s.serveCheck p ≠ 0 → exec (.gatherServe g) s = .next (s0.refuseGather g p (s.serveCheck p))) ∧
    (∀ u, s.serveCheck p = 0 → s0.chunkRows (.gather g) 1 p.table (es.map (·.1)) = (none, u) →
      exec (.gatherServe g) s = .next (u.setGe g { u.ge g with serve := p :: rest })) ∧
    (∀ as u, s.serveCheck p = 0 → s0.chunkRows (.gather g) 1 p.table (es.map (·.1)) = (some as, u) →
      let v := (es.foldl (fun t e => t.countLookup p.table e.1) u).clearBuf (.gather g) 1
      as.find? (fun a => isFaultStatus a.status) = none → exec (.gatherServe g) s =
        .next ((v.answerGather p Sc.ok
          ((s.desc p.table).chunkBytes p.pool (gatherEntry p 0).2.1 as (es.map fun e => e.2.2.2))
          (as.foldl (fun m a => firstMark m a.mark) (if p.poison then p.pseq + 1 else 0))).bump64 Obj.REQS_SERVED))) ∧
  (∀ (s : State) (m v : Nat), s.geUp = true →
    (m < 16 → v < 2 ^ 64 → bits v 27 36 = 0 → bits v 22 2 = 0 → bits v 24 3 ≤ 4 → (bit v 63 = true → bits v 8 8 ≠ 0) →
      (s.moultNames m = false → Completes (.phaseMapWrite m v) s fun t => t.phaseMap m = v ∧
        (∀ n, n ≠ m → t.phaseMap n = s.phaseMap n) ∧ t.coll.current = s.coll.current) ∧
      (s.moultNames m = true → (s.phaseMapWrite m v).1 = Sc.accessDenied ∧ exec (.phaseMapWrite m v) s = .next s)) ∧
    (v < 256 → bits v 4 3 = 0 →
      (s.moulting = false → Completes (.currentPhaseWrite v) s fun t => t.coll.current = v ∧ ∀ n, t.phaseMap n = s.phaseMap n) ∧
      (s.moulting = true → (s.currentPhaseWrite v).1 = Sc.accessDenied ∧ exec (.currentPhaseWrite v) s = .next s))) ∧
  (∀ (s : State) (o : UnitOp) (i : Nat), s.headOp 136 = some o → s.coll.op = some o.id →
    (s.collLive = true → ∀ r, s.coll.flying.find? (fun r => r.idx == i) = some r →
      exec (.moultStepStart i) s = .next ((s.runStep o r).settleColl o)) ∧
    (s.collLive = true → s.coll.flying = [] → s.coll.fail.isSome = true → exec (.moultStepStart i) s = .next (s.settleColl o)) ∧
    (∀ r, s.coll.flying.find? (fun r => r.idx == i) = some r → s.safety.safe = false →
      (r.waiting = false → stBytes r.bytes ≤ r.pos → s.writing (.step i) = false →
        let p := (s.counted .coll).post (stSem (stPost r.bytes)) 1
        (bit (stPost r.bytes) 15 = false → exec (.moultStepDone i) s = .next (s.endStep o i)) ∧
        (bit (stPost r.bytes) 15 = true → stPostDev r.bytes = s.devId → p.1 = true →
          exec (.moultStepDone i) s = .next (p.2.endStep o i)) ∧
        (bit (stPost r.bytes) 15 = true → stPostDev r.bytes = s.devId → p.1 = false →
          exec (.moultStepDone i) s = .next ((p.2.stepFail i Sc.overrun).settleColl o))) ∧
      (∀ w lim, r.waiting = true → s.waitOf .coll = some w → tmoNs w.tmo = some lim → w.sinceNs + lim ≤ s.timeNs →
        exec (.moultStepTimeout i) s = .next (s.answerWait w Sc.timeout)) ∧
      (r.waiting = true → s.stepWaited i Sc.timeout = (s.stepFail i Sc.timeout).settleColl o)) ∧
    s.endStep o i = (((s.setColl { s.coll with
      flying := s.coll.flying.filter (fun y => y.idx ≠ i), done := s.coll.done ++ [i] }).bump64 Obj.MOULT_STEPS).settleColl o) ∧
    (s.coll.fail.isSome = true → (s.settleColl o).coll.current = s.coll.current) ∧
    (s.coll.fail = none → s.coll.flying = [] → schedSteps o ≤ s.coll.done.length → isMoult o = true → mTo o < 16 →
      (∀ y ∈ s.net.outst, ∀ j, y.use = .step j → y.timedOut = true) → (s.settleColl o).coll.current = 128 + mTo o))

/-- Triggers and boundary commits of an epoch domain (R536). -/
def Obligations.BoundaryCommitsRunInTurn : Prop :=
  (∀ (s : State) (d : Nat), let x := s.epoch d
    (x.commit = .idle → (s.trigger d).epoch d = { x with commit := .holding, applied := 0 } ∧ (s.trigger d).dict = s.dict) ∧
    (x.commit ≠ .idle → x.again = false → (s.trigger d).epoch d = { x with again := true } ∧ (s.trigger d).dict = s.dict) ∧
    (x.commit ≠ .idle → x.again = true → (∀ e, (s.trigger d).epoch e = s.epoch e) ∧
      (s.trigger d).obj (Obj.ED_OVERRUN d) = satBump 32 (s.obj (Obj.ED_OVERRUN d)) 1) ∧
    (∀ e, e ≠ d → (s.trigger d).epoch e = s.epoch e)) ∧
  (∀ (s : State) (d : Nat), d < 32 → s.safety.safe = false →
    let x := s.epoch d
    (x.commit = .applied → (∀ m ∈ s.ep.moves, m.1 < 201) → Completes (.epochCommitRelease d) s fun t =>
      t.epoch d = { x with commit := if x.again then .holding else .idle, again := false, commits := x.commits + 1, applied := 0 } ∧
      (∀ e, e ≠ d → t.epoch e = s.epoch e) ∧ t.obj (Obj.ED_EPOCH d) = satBump 32 (s.obj (Obj.ED_EPOCH d)) 1 ∧
      t.obj (Obj.ED_LAST_COMMIT_NS d) = s.timeNs % 2 ^ 64 ∧
      (∀ u v, s.ep.moves = [(u, v)] → v < 32 → s.domainOf u = d ∨ v = d → t.domainOf u = v) ∧ (∀ a, t.byteAt a = s.byteAt a)) ∧
    (x.commit = .holding → (∀ e ∈ s.cfgwOf d, e.2.1 = 1 → s.draining e.1 = false) → Completes (.epochCommitApply d) s fun t =>
      (t.epoch d).commit = .applied ∧ (t.epoch d).applied = (s.stagedOf d).length + (s.cfgwOf d).length ∧
      (∀ e ∈ t.ep.cfgw, s.domainOf e.1 ≠ d) ∧ (∀ u v, s.cfgwOf d = [(u, 1, v)] → u < 64 → (t.tile u).cur = v)) ∧
    (2 ≤ s.stage → s.edSource d = 2 → s.timeNs % (s.edArg d * 1000) = 0 → x.tickNs ≠ s.timeNs →
      exec (.epochTimerTick d) s = .next ((s.setEpoch d { x with tickNs := s.timeNs }).trigger d)) ∧
    (x.tickNs = s.timeNs → exec (.epochTimerTick d) s = .next s)) ∧
  (∀ (s : State) (n : Nat), n < 4 → 2 ≤ s.stage → s.safety.safe = false → Completes (.epochInEdge n) s fun t =>
    (∀ d, d < 32 → s.edSource d = 5 → s.edArg d = n → t.epoch d = (s.trigger d).epoch d) ∧
    (∀ d, ¬(d < 32 ∧ s.edSource d = 5 ∧ s.edArg d = n) → t.epoch d = s.epoch d) ∧ t.mem = s.mem) ∧
  (∀ (s : State) (n : Nat), SMap.get 0 s.ep.outLow n ≠ 0 → SMap.get 0 s.ep.outLow n ≤ s.timeNs + 1 →
    Completes (.epochOutPulseEnd n) s fun t => SMap.get 0 t.ep.outLow n = 0 ∧ t.out = s.out ++ [.epochOut n false] ∧
      (∀ m, m ≠ n → SMap.get 0 t.ep.outLow m = SMap.get 0 s.ep.outLow m) ∧ t.mem = s.mem)

/-- Cipher chains, modular reduction and the random source (R553, R554, R556, R567). -/
def Obligations.ChainsAreCheckedAndClosed : Prop :=
  (∀ q x : Nat, 2 ^ 31 < q → q < 2 ^ 60 → x < 2 ^ (2 * (Nat.log2 q + 1)) → barrett q x = x % q) ∧
  (∀ q a b : Nat, 2 ^ 31 < q → q < 2 ^ 60 → a < q → b < q → barrett q (a * b) = mulMod q a b) ∧
  (∀ (x : Chain) (v : Nat), (x.check v).1 = Sc.ok ↔
    bits v 22 41 = 0 ∧ bits v 14 2 = 0 ∧ bits v 5 3 = 0 ∧ 10 ≤ bits v 0 5 ∧ bits v 0 5 ≤ 16 ∧ 1 ≤ bits v 8 6 ∧
    bits v 8 6 ≤ 48 ∧ bits v 16 6 < bits v 8 6 ∧
    ∀ r, r < bits v 8 6 → let q := x.qAt r
      2 ^ 31 < q ∧ q < 2 ^ 60 ∧ q % 2 = 1 ∧ q % (2 * 2 ^ bits v 0 5) = 1 ∧ x.psiAt r < q ∧
      x.psiAt r ^ (2 ^ bits v 0 5) % q = q - 1 ∧ ∀ i, i < r → Nat.gcd (x.qAt i) q = 1) ∧
  (∀ (s : State) (c v : Nat), 2 ≤ s.stage → s.safety.safe = false → c < 16 → v < 2 ^ 64 →
    let x := s.chain c
    let reserved : Prop := bits v 22 41 ≠ 0 ∨ bits v 14 2 ≠ 0 ∨ bits v 5 3 ≠ 0
    (bit v 63 = true → (x.check v).1 = Sc.ok → Completes (.chainCtrlWrite c v) s fun t =>
      t.chain c = { x with ctrl := v, closing := 0, loadedQ := x.q, loadedPsi := x.psi, loadedN := bits v 0 5 } ∧
      (∀ d, d ≠ c → t.chain d = s.chain d) ∧ t.cat.status = s.cat.status ∧ t.dict = s.dict ∧ t.mem = s.mem) ∧
    (bit v 63 = true → (x.check v).1 ≠ Sc.ok → Completes (.chainCtrlWrite c v) s fun t =>
      (∀ d, t.chain d = s.chain d) ∧ t.cat.status = (x.check v).1 + (x.check v).2 * 2 ^ 8 + c * 2 ^ 16 ∧
      t.obj Obj.CHAIN_REJECTS = satBump 32 (s.obj Obj.CHAIN_REJECTS) 1 ∧ t.mem = s.mem) ∧
    (bit v 63 = false → reserved → Completes (.chainCtrlWrite c v) s fun t => (∀ d, t.chain d = s.chain d) ∧
      t.cat.status = Sc.reservedNonzero + c * 2 ^ 16 ∧ t.obj Obj.CHAIN_REJECTS = satBump 32 (s.obj Obj.CHAIN_REJECTS) 1 ∧ t.mem = s.mem) ∧
    (bit v 63 = false → ¬reserved → (x.valid && s.chainBusy c) = false → Completes (.chainCtrlWrite c v) s fun t =>
      t.chain c = { x with ctrl := v, closing := 0 } ∧ (t.chain c).valid = false ∧
      (∀ d, d ≠ c → t.chain d = s.chain d) ∧ t.dict = s.dict ∧ t.mem = s.mem) ∧
    (bit v 63 = false → ¬reserved → (x.valid && s.chainBusy c) = true → Completes (.chainCtrlWrite c v) s fun t =>
      t.chain c = { x with closing := v + 1 } ∧ (t.chain c).open_ = false ∧
      (∀ d, d ≠ c → t.chain d = s.chain d) ∧ t.dict = s.dict ∧ t.mem = s.mem)) ∧
  (∀ (s : State) (c : Nat), c < 16 → (s.chain c).closing ≠ 0 → s.chainBusy c = false → Completes (.chainInvalidateDone c) s fun t =>
    t.chain c = { s.chain c with ctrl := (s.chain c).closing - 1, closing := 0 } ∧ (∀ d, d ≠ c → t.chain d = s.chain d) ∧
    t.dict = s.dict ∧ t.mem = s.mem) ∧
  (∀ s : State, s.safety.safe = false →
    (s.drbgUp = false → s.sup.keeperHeld = false →
      Completes (.drbgSeed true) s (fun t => t.drbgUp = true ∧ t.drbg.requests = 0 ∧ t.dict = s.dict ∧ t.mem = s.mem) ∧
      exec (.drbgSeed false) s = .next (s.raise Es.drbgHealth)) ∧
    (s.drbg.healthy = true → Completes .drbgHealthFail s fun t => t.drbgUp = false ∧
      t = { s with drbg := { s.drbg with healthy := false } }.raise Es.drbgHealth ∧ t.mem = s.mem))

/-- Sensor ports and spiking event cores (R582, R583, R584, R586, R592, R594, R598, R601, R604, R605, R606, R608). -/
def Obligations.PortsAndCoresHandleEvents : Prop :=
  (∀ (s : State) (p vc ecc dt : Nat) (pay : List Byte) (ok : Bool), p < 8 → s.safety.safe = false →
    ∀ c ∈ [Instr.spFrameStart p vc ecc, .spFrameEnd p vc ecc, .spLongPacket p vc dt ecc pay ok],
    (s.spReceives p = false → Completes c s fun t => (t.sp p).loss = true ∧
      t.obj (Obj.SP_OVERRUN p) = satBump 32 (s.obj (Obj.SP_OVERRUN p)) 1 ∧ (∀ q, q ≠ p → t.sp q = s.sp q) ∧ t.mem = s.mem) ∧
    (s.spReceives p = true → s.spMode p = 0 → exec c s = .next s) ∧
    (s.spReceives p = true → s.spMode p ≠ 0 → 1 < ecc → Completes c s fun t => (t.sp p).pendMark ≠ 0 ∧ ∀ q, q ≠ p → t.sp q = s.sp q) ∧
    (s.spReceives p = true → s.spMode p ≠ 0 → ecc = 0 → vc ≠ s.obj (Obj.SP_VC p) → exec c s = .next (s.bump (Obj.SP_VC_DISCARDS p)))) ∧
  (∀ (s : State) (p : Nat), p < 8 → s.safety.safe = false → s.spReceives p = true →
    let vc := s.obj (Obj.SP_VC p)
    let x := s.sp p
    let free := semOf (frPair x.frCfg) 1
    let u := s.bump64 (Obj.SP_PACKETS p)
    (s.spMode p ≠ 0 → Completes (.spFrameStart p vc 0) s fun t =>
      (∀ d, d < 32 → s.edSource d = 3 → s.edArg d = p → t.epoch d = (s.trigger d).epoch d) ∧
      (∀ d, ¬(d < 32 ∧ s.edSource d = 3 ∧ s.edArg d = p) → t.epoch d = s.epoch d) ∧ t.mem = s.mem) ∧
    (s.spMode p = 3 → x.inFrame = false → bit x.frCfg 63 = true → s.sem free ≠ 0 → Completes (.spFrameStart p vc 0) s fun t =>
      t.sp p = { x with inFrame := true, line := 0, frame := x.frame + 1 } ∧ t.sem free = s.sem free - 1 ∧
      (∀ m, m ≠ free → t.sem m = s.sem m) ∧ (∀ q, q ≠ p → t.sp q = s.sp q)) ∧
    (s.spMode p = 3 → x.inFrame = false → s.sem free = 0 → Completes (.spFrameStart p vc 0) s fun t =>
      t.sp p = x ∧ t.obj (Obj.SP_FRAME_DROPS p) = satBump 32 (s.obj (Obj.SP_FRAME_DROPS p)) 1 ∧ ∀ m, t.sem m = s.sem m) ∧
    (s.spMode p = 3 → x.inFrame = true → Completes (.spFrameEnd p vc 0) s fun t =>
      t.sp p = { x with inFrame := false, ended := x.ended ++ [x.frame], slot := (x.slot + 1) % frSlots x.frCfg } ∧
      (∀ m, t.sem m = s.sem m) ∧ t.mem = s.mem) ∧
    (s.spMode p = 1 → exec (.spFrameEnd p vc 0) s = .next (u.flushBeats p)) ∧
    (∀ dt pay, dt = s.obj (Obj.SP_DATA_TYPE p) → dt ≠ 2 → dt ≠ 3 → x.armed = false → s.spMode p = 3 →
      exec (.spLongPacket p vc dt 0 pay true) s = .next (u.spLine p 0 pay)) ∧
    (∀ dt w, dt = s.obj (Obj.SP_DATA_TYPE p) → dt ≠ 2 → dt ≠ 3 → x.armed = false → s.spMode p = 1 → s.inWidth p = 64 → w < 2 ^ 64 →
      exec (.spLongPacket p vc dt 0 (leBytes 8 w) true) s = .next (u.spWord p w 0 s.nowUs)) ∧
    (∀ v w m arrival r, (List.range 16).filter (fun r => bit (s.ruleWord p r 2) 63 && Nat.land w (s.ruleWord p r 0) == s.ruleWord p r 1) = v →
      let k := s.ruleWord p r 2
      let time := bits w (bits k 44 6) (bits k 50 6)
      let ex := bits w (bits k 8 6) (bits k 16 4)
      let ey := bits w (bits k 24 6) (bits k 32 4)
      (v = [] → s.spWord p w m arrival = s.bump (Obj.SP_NOMATCH p)) ∧
      (v = [r] → bits k 60 2 = 1 → s.spWord p w m arrival = s.setSp p { x with tHigh := time }) ∧
      (v = [r] → bits k 60 2 = 0 → ex < bits (s.obj (Obj.SP_GEOMETRY p)) 0 13 → ey < bits (s.obj (Obj.SP_GEOMETRY p)) 16 13 →
        ex < 4096 → ey < 4096 → ∃ e, s.spWord p w m arrival = s.spEvent p e m ∧ evX e = ex ∧ evY e = ey ∧ evPort e = p ∧
          evTime e = s.spTime p time arrival ∧ evPol e = (if bit k 58 then bits k 57 1 else bits w (bits k 38 6) 1)))) ∧
  (∀ (s : State) (p : Nat), p < 8 → s.safety.safe = false →
    let x := s.sp p
    exec (.spBeatFlush p) s = .next (s.flushBeats p) ∧ (x.fifo = [] → exec (.spBeatFlush p) s = .next s) ∧
    (∀ f r, x.todo = [] → x.ended = f :: r → s.writing (.line p f) = false → s.sem (semOf (frPair x.frCfg) 0) < 65535 →
      Completes (.spFrameFillPost p) s fun t => t.sp p = { x with ended := r } ∧
        t.sem (semOf (frPair x.frCfg) 0) = s.sem (semOf (frPair x.frCfg) 0) + 1 ∧
        (∀ m, m ≠ semOf (frPair x.frCfg) 0 → t.sem m = s.sem m) ∧ t.mem = s.mem) ∧
    (∀ v, v < 2 ^ 64 → (bit x.frCfg 63 = false ∨ s.spMode p ≠ 3) →
      (Completes (.frCfgWrite p 0x10 v) s fun t => t.sp p = { x with frBase := v } ∧ t.dict = s.dict ∧ t.mem = s.mem) ∧
      (Nat.land v 0x780000000000F8C0 ≠ 0 → Completes (.frCfgWrite p 0x18 v) s fun t =>
        t.sp p = { x with regStatus := Sc.reservedNonzero + 0x18 * 256 } ∧ t.dict = s.dict ∧ t.mem = s.mem)) ∧
    (∀ v, v < 2 ^ 64 → bit v 63 = false → Nat.land v 0x780000000000F8C0 = 0 → x.inFrame = false →
      Completes (.frCfgWrite p 0x18 v) s fun t => t.sp p = { x with frCfg := v } ∧ t.dict = s.dict ∧ t.mem = s.mem) ∧
    (∀ v off, v < 2 ^ 64 → bit x.frCfg 63 = true → s.spMode p = 3 → (off = 0x10 ∨ off = 0x18 ∧ bit v 63 = true) →
      Completes (.frCfgWrite p off v) s fun t =>
        t.sp p = { x with regStatus := Sc.accessDenied + off * 256 } ∧ t.dict = s.dict ∧ t.mem = s.mem)) ∧
  (∀ (l : Layer) (co t : Nat) (n : Neuron) (w : Int), n.tUpd < 2 ^ 32 → t < 2 ^ 32 →
    let d0 := (t + 2 ^ 32 - n.tUpd) % 2 ^ 32
    let d := if d0 < 2 ^ 31 then d0 else 0
    let z := updateNeuron l co n t w
    (d < n.ref → z = { n := { n with tUpd := t, ref := n.ref - d }, ignored := true }) ∧
    (n.ref ≤ d →
      let drop : Int := (min 32767 (d * l.param co 4 2 / 2 ^ l.param co 6 1) : Nat)
      let leaked := if 0 < n.v then max 0 (n.v - drop) else min 0 (n.v + drop)
      let v := leaked + w * (2 ^ l.param co 7 1 : Nat)
      let cl := max (-32768) (min 32767 v)
      let th : Int := (l.param co 0 2 : Nat)
      z.ignored = false ∧ z.n.tUpd = t ∧ z.clamped = decide (cl ≠ v) ∧ z.spiked = decide (th ≤ cl) ∧
      (th ≤ cl → z.n.ref = l.param co 8 2 ∧ z.n.v = if l.param co 10 1 = 0 then sgn 16 (l.param co 2 2) else cl - th) ∧
      (cl < th → z.n.ref = 0 ∧ z.n.v = cl))) ∧
  (∀ (s : State) (c w m : Nat) (rest : List (Nat × Nat)), s.secRuns c = true → (s.sec c).queue = (w, m) :: rest →
    let x : Sec := { s.sec c with queue := rest }
    ((s.sec c).layer = none → exec (.secEventProcess c) s = .next ((s.setSec c x).bump64 (Obj.SEC_FILTERED c))) ∧
    (∀ l, (s.sec c).layer = some l →
      (l.accepts w = false → exec (.secEventProcess c) s = .next ((s.setSec c x).bump64 (Obj.SEC_FILTERED c))) ∧
      (l.accepts w = true → l.binMode ≠ 0 ∨ (x.binOpen = true ∧ atOrAfter (evTime w) (x.tStart + l.binUs) = false) →
        exec (.secEventProcess c) s = .next ((((s.setSec c x).setSec c
          { x with
            coreTime := evTime w
            firstT := some (x.firstT.getD (evTime w))
            lastT := evTime w
            eventsIn := satBump 32 x.eventsIn 1
            lossy := x.lossy || evLoss w
            mark := firstMark x.mark m }).bump64 (Obj.SEC_EVENTS c)).eventUpdates c l w)))) ∧
  (∀ (s : State) (c : Nat) (l : Layer), s.secUp c = true → (s.sec c).layer = some l →
    (l.binMode = 0 → (s.sec c).binOpen = true → (s.sec c).queue = [] → exec (.secBinIdleClose c) s = .next (s.closeBin c)) ∧
    (l.binMode = 1 → exec (.secBinArrivalClose c) s = .next (s.closeBin c)) ∧
    (l.binMode ≠ 0 ∨ (s.sec c).binOpen = true → (s.sec c).batch = [] → l.tensor = false →
      let x := (s.closeBin c).sec c
      x.cur = 1 - (s.sec c).cur ∧ x.binOpen = false ∧ x.binSeq = ((s.sec c).binSeq + 1) % 2 ^ 32 ∧ x.eventsIn = 0 ∧ x.spikes = 0 ∧
      x.outs = (s.sec c).outs ∧ x.queue = (s.sec c).queue) ∧
    exec (.secBatchTimeout c) s = .next (s.writeBatch c) ∧
    ((s.sec c).batch = [] → s.writeBatch c = s) ∧
    ((s.sec c).batch ≠ [] → 255 < s.obj (Obj.SEC_EVT_CQ c) → s.writeBatch c = s.setSec c { s.sec c with batch := [] })) ∧
  (∀ (s : State) (c : Nat) (b : BinOut), s.safety.safe = false → c < 16 → (s.sec c).outs = [b] → b.todo = [] →
    s.writing (.opWrite (.sec c)) = false → b.dev = s.devId → s.sem (semOf b.pair 0) < 65535 →
    Completes (.secBinFillPost c) s fun t => t.sec c = { s.sec c with outs := [] } ∧
      t.sem (semOf b.pair 0) = s.sem (semOf b.pair 0) + 1 ∧ (∀ m, m ≠ semOf b.pair 0 → t.sem m = s.sem m) ∧ t.mem = s.mem ∧
      (b.epoch = true → t.ep = s.ep) ∧
      (b.epoch = false → ∀ d, d < 32 → s.edSource d = 4 → s.edArg d = c → t.epoch d = (s.trigger d).epoch d))

/-- Logic fabric: loads, scrubbing, ports (R634, R635, R636, R637, R641, R645, R646, R648, R649, R653). -/
def Obligations.LogicFabricLoadsAndServes : Prop :=
  (∀ (s : State) (v : Nat), v < 2 ^ 64 → s.safety.safe = false →
    let l := s.fab.load
    let reserved := Nat.land v 0xFFFFFFFFFFFFFECE ≠ 0 ∨ bits v 4 2 = 3
    (bit v 0 = true → reserved → Completes (.cfgGo v) s fun t => t.fab = { s.fab with regStatus := Sc.reservedNonzero + 0x800000 * 256 } ∧
      t.obj Obj.CFG_LAST_STATUS = Sc.reservedNonzero ∧ t.mem = s.mem ∧ t.ucbs = s.ucbs) ∧
    (bit v 0 = true → ¬reserved → l.step = 0 → Completes (.cfgGo v) s fun t =>
      t.fab.load = { step := 1, source := bits v 4 2, addr := s.fab.cfgAddr, len := s.fab.cfgLen, boot := false } ∧
      t.fab.regions = s.fab.regions ∧ t.fab.waitHost = false ∧ t.dict = s.dict ∧ t.mem = s.mem ∧ t.ucbs = s.ucbs) ∧
    (bit v 0 = true → bit v 8 = false → ¬reserved → l.step ≠ 0 → Completes (.cfgGo v) s fun t =>
      t.fab = { s.fab with regStatus := Sc.stateConflict + 0x800000 * 256 } ∧ t.dict = s.dict ∧ t.mem = s.mem) ∧
    (bit v 0 = false → bit v 8 = true → ¬reserved → l.step ≠ 0 →
      exec (.cfgAbort v) s = .next (s.failLoad Sc.stateConflict (some Es.fabricLoad))) ∧
    (bit v 0 = false → bit v 8 = true → ¬reserved → l.step = 0 → exec (.cfgAbort v) s = .next s)) ∧
  (∀ (s : State) (st : Nat) (src : Option Nat) (r : Nat), (s.failLoad st src).fab.load = {} ∧
    (2 ≤ s.fab.load.step → r ∈ loadRegions s.fab.load → (s.failLoad st src).region r = {}) ∧
    (s.fab.load.step < 2 ∨ r ∉ loadRegions s.fab.load → (s.failLoad st src).region r = s.region r)) ∧
  (∀ (s : State) (v : Nat), v < 2 ^ 64 → s.fabPaused = true →
    exec (.cfgDataWrite v) s = .next { s with fab := { s.fab with heldData := s.fab.heldData ++ [v] } }) ∧
  (∀ (s : State) (v : Nat), v < 2 ^ 64 → s.fabPaused = false → s.fab.heldData = [] →
    let l := s.fab.load
    (¬(l.source = 0 ∧ (l.step = 1 ∨ l.step = 2)) → Completes (.cfgDataWrite v) s fun t =>
      t.fab = { s.fab with regStatus := Sc.accessDenied + 0x900000 * 256 } ∧ t.dict = s.dict) ∧
    (l.source = 0 → l.step = 1 → l.got < 512 → Completes (.cfgDataWrite v) s fun t =>
      t.fab = { s.fab with load := { l with header := l.header ++ leBytes 8 v, got := l.got + 8 } } ∧ t.dict = s.dict) ∧
    (l.source = 0 → l.step = 2 → 512 ≤ l.got → l.got + 8 ≤ 512 + hdrBody l.header → Completes (.cfgDataWrite v) s fun t =>
      t.fab = { s.fab with load := { l with body := l.body ++ leBytes 8 v, got := l.got + 8 } } ∧ t.dict = s.dict)) ∧
  (∀ (s : State) (fl : List Byte) (fb : Nat), s.fabPaused = false →
    let l := s.fab.load
    let h := l.header
    (l.step = 1 → l.source = 0 → 512 ≤ l.got →
      (hdrReserved h = true → exec (.loadHeaderCheck fl fb) s = .next (s.failLoad Sc.reservedNonzero (some Es.fabricLoad))) ∧
      (hdrReserved h = false → hdrBound h = true →
        exec (.loadHeaderCheck fl fb) s = .next (s.failLoad Sc.boundViolation (some Es.fabricLoad))) ∧
      (hdrReserved h = false → hdrBound h = false → hdrTrusted h = false →
        exec (.loadHeaderCheck fl fb) s = .next (s.failLoad Sc.accessDenied (some Es.fabricAuth))) ∧
      (hdrReserved h = false → hdrBound h = false → hdrTrusted h = true → Completes (.loadHeaderCheck fl fb) s fun t =>
        t.fab.load = { l with step := 2 } ∧ t.fab.lastMask = hdrMask h ∧ (∀ r ∈ loadRegions l, t.region r = { st := 1 }) ∧
        (∀ r, r ∉ loadRegions l → t.region r = s.region r) ∧ t.fab.ports = s.fab.ports)) ∧
    (l.step = 2 → l.source = 0 → l.got = 512 + hdrBody h → Completes (.loadBodyComplete fl) s fun t =>
      t.fab.load = { l with step := 3 } ∧
      (∀ i r, (hdrRegions h)[i]? = some r →
        t.region r = { s.region r with frames := frameWords ((l.body.drop (i * regionBytes)).take regionBytes) }) ∧
      (∀ r, r ∉ hdrRegions h → t.region r = s.region r) ∧ t.dict = s.dict ∧ t.mem = s.mem) ∧
    (l.step = 3 → Completes .loadSignatureVerify s fun t =>
      let ok := Config.signatureOk ((h.drop 320).take 96) (Hash.sha384 (h.take 416 ++ l.body)) ((h.drop 416).take 96)
      t.fab = { s.fab with load := { l with step := 4, fail := if ok then none else some Sc.accessDenied } } ∧ t.dict = s.dict) ∧
    (∀ st, l.step = 4 → l.fail = some st → exec .loadRelease s = .next (s.failLoad st (some Es.fabricAuth))) ∧
    (l.step = 4 → l.fail = none → Completes .loadRelease s fun t => t.fab.load = {} ∧
      (∀ r ∈ loadRegions l, bit (hdrMask h) r = true → (t.region r).st = 2 ∧ (t.region r).fclkMhz = hdrClk h r ∧
        (t.region r).frames = (s.region r).frames ∧ (r < 16 → (t.region r).flags = hdrFlags h r ∧ (t.region r).winLog2 = hdrWin h r)) ∧
      (∀ r ∈ loadRegions l, bit (hdrMask h) r = false → t.region r = {}) ∧
      (∀ r, r ∉ loadRegions l → t.region r = s.region r)) ∧
    (l.source = 0 → l.step = 1 ∨ l.step = 2 → exec .cfgStreamTimeout s = .next (s.failLoad Sc.timeout (some Es.fabricLoad))) ∧
    (l.source = 2 → l.step = 1 ∨ l.step = 2 → exec .xspiTimeout s = .next (s.failLoad Sc.accessDenied (some Es.xspiAbsent)))) ∧
  (∀ (s : State) (r f : Nat) (w : Bool), s.fabPaused = false → s.obj Obj.CFG_SCRUB_PERIOD_MS ≠ 0 → s.scrubNext = some (r, f, w) →
    let here := (s.region r).upset.filter fun e => e.1 / 512 == f
    (here = [] → Completes (.cfgScrubFrame 0) s fun t => (∀ q, t.region q = s.region q) ∧ t.fab.scrubPos = (r * 1280 + f + 1) % 30720 ∧
      t.obj Obj.CFG_CE = s.obj Obj.CFG_CE ∧ t.obj Obj.CFG_UE = s.obj Obj.CFG_UE ∧ t.ucbs = s.ucbs) ∧
    ((∀ e ∈ here, ones72 e.2 = 1) → Completes (.cfgScrubFrame 0) s fun t =>
      (t.region r).upset = (s.region r).upset.filter (fun e => !(e.1 / 512 == f)) ∧ (t.region r).st = (s.region r).st ∧
      ∀ q, q ≠ r → t.region q = s.region q) ∧
    (s.obj Obj.FABRIC_UE_ACTION ≠ 1 → r < 24 → Completes (.cfgScrubFrame 2) s fun t => (t.region r).st = 3 ∧
      (t.region r).frames = (s.region r).frames ∧ (∀ q, q ≠ r → t.region q = s.region q) ∧
      (r < 16 → t.unitSt (unitOf 9 r) = .faulted))) ∧
  (∀ s : State, s.safety.safe = false → exec (.fabricRamError true) s = .next ((s.bump Obj.FAB_RAM_UE).raise Es.fabricRamUe) ∧
    exec (.fabricRamError false) s = .next (s.bump Obj.FAB_RAM_CE)) ∧
  (∀ (s : State) (n cmd addr len oid tc op : Nat) (pz : Bool) (data : List Byte), n < 16 → s.safety.safe = false → (s.region n).st = 2 →
    let x := s.fport n
    let q : FpReq := { cmd := cmd, addr := addr, len := len, oid := oid, tc := tc, poison := pz, op := op, data := data }
    let w := s.setFport n { x with waiting := x.waiting ++ [q] }
    exec (.fpMasterRequest n cmd addr len oid tc pz op data) s = .next (State.masterPump n (x.waiting.length + 1) w) ∧
    (x.waiting = [] → State.masterPump n 1 w = ((w.setFport n { x with waiting := [] }).masterTake n q).getD w)) ∧
  (∀ (s : State) (n : Nat) (q : FpReq), (s.obj (Obj.FP_MAX_OUTSTANDING n) ≤ (s.fport n).masters.length → s.masterTake n q = none) ∧
    ((s.fport n).masters.length < s.obj (Obj.FP_MAX_OUTSTANDING n) →
      (2 < q.cmd → s.masterTake n q = some (s.masterRefuse n q.oid Sc.reservedNonzero 0)) ∧
      (q.cmd = 1 → s.unitSt (unitOf 9 n) = .faulted → s.masterTake n q = some (s.masterRefuse n q.oid Sc.unitDisabled 0)) ∧
      (q.cmd = 1 → s.unitSt (unitOf 9 n) = .hooded → s.masterTake n q = some (s.masterRefuse n q.oid Sc.unitHooded 0)) ∧
      (q.cmd < 2 → s.unitSt (unitOf 9 n) = .ready → (s.dom (unitOf 9 n)).phase = .open_ →
        (q.len = 0 ∨ 128 < q.len → s.masterTake n q = some (s.masterRefuse n q.oid Sc.boundViolation 0)) ∧
        (1 ≤ q.len → q.len ≤ 128 → 128 < q.addr % 128 + q.len →
          s.masterTake n q = some (s.masterRefuse n q.oid Sc.alignment 0)) ∧
        (∀ ga u, 1 ≤ q.len → q.addr % 128 + q.len ≤ 128 →
          let t := s.xlateRange (s.obj (Obj.FP_CTX n)) q.addr q.len (q.cmd == 0) (q.cmd == 1)
          t.1 = 0 → (t.2.1.headD (0, 0, 0)).1 = ga → t.2.2.2 = u → regionOf (ga % 2 ^ 56) ≠ .mmio →
          (bit (u.region n).flags 1 = false → s.masterTake n q = some (u.masterRefuse n q.oid Sc.accessDenied 0)) ∧
          (∀ d, bit (u.region n).flags 1 = true → u.destNode (ga / 2 ^ 56) (ga % 2 ^ 56) = some d → q.poison = false →
            let x := s.fport n
            let m : MReq := { oid := q.oid, tag := x.nextTag, mmio := false }
            let k : Packet := {
              id := 0
              kind := if q.cmd = 0 then .rdReq else .wr
              tc := if q.tc = 0 then 1 else 2
              src := 0
              dst := d
              at_ := 0
              dev := ga / 2 ^ 56
              addr := ga % 2 ^ 56
              len := q.len
              data := if q.cmd = 0 then [] else padTo q.len q.data
              op := q.op
              sz := if q.len = 8 then 1 else 0
              agent := .fabric n q.oid
              sentNs := 0 }
            s.masterTake n q = ((u.setFport n { x with masters := x.masters ++ [m], nextTag := x.nextTag + 1 }).send k
              (.fabric n x.nextTag)).map fun v => v.bump64 (Obj.FP_MASTER_REQS n)))))) ∧
  (∀ (s : State) (n tag : Nat) (p : Packet) (data : List Byte), n < 16 → s.safety.safe = false →
    (s.fport n).targets.find? (fun e => e.1 == tag) = some (tag, p) →
    let u := s.setFport n { s.fport n with targets := (s.fport n).targets.filter (fun e => e.1 ≠ tag) }
    (p.kind = .rdReq → exec (.fpTargetAnswer n tag 0 false data) s = .next (u.respond p .rdRsp Sc.ok (padTo p.len data) 0 0)) ∧
    (p.kind = .wr → exec (.fpTargetAnswer n tag 0 false data) s = .next (u.respond p .wrAck Sc.ok [] 0 0)) ∧
    (p.kind = .wr → exec (.fpTargetAnswer n tag 1 false data) s = .next (u.respond p .wrAck Sc.accessDenied [] 0 0)) ∧
    (p.kind = .wr → exec (.fpTargetAnswer n tag 2 false data) s =
      .next ((u.bump (Obj.FP_TARGET_ERRORS n)).respond p .wrAck Sc.accessDenied [] 0 0))) ∧
  (∀ (s : State) (e : Nat), e < 32 → s.safety.safe = false → (s.region (e / 2)).st = 2 →
    (bit (s.region (e / 2)).esig (e % 2) = true → Completes (.fabricEpochEdge e) s fun t =>
      (∀ d, d < 32 → s.edSource d = 7 → s.edArg d = e → t.epoch d = (s.trigger d).epoch d) ∧
      (∀ d, ¬(d < 32 ∧ s.edSource d = 7 ∧ s.edArg d = e) → t.epoch d = s.epoch d) ∧ t.mem = s.mem) ∧
    (bit (s.region (e / 2)).esig (e % 2) = false → exec (.fabricEpochEdge e) s = .next s))

/-- Phidun lanes: presence, creance, equalisers, detectors, recalibration, patterns (R670, R672, R673, R676, R677, R680,
R681, R682, R685, R693, R696, R728). -/
def Obligations.LanesTrainAndReport : Prop :=
  (∀ (s : State) (n : Nat), let x := s.phy n
    (x.step = 1 → x.conflict = false → Completes (.presenceTimeout n) s fun t => (t.phy n).step = 2 ∧ (t.phy n).exclRates = 0 ∧
      t.obj (Obj.PH_ABSENT_COUNT n) = satBump 32 (s.obj (Obj.PH_ABSENT_COUNT n)) 1 ∧
      (∀ l, l < 8 → bit x.laneMask l = true → (t.lane n l).step = 2 ∧ (t.lane n l).tx = 3) ∧
      (∀ l, l < 8 → bit x.laneMask l = false → t.lane n l = s.lane n l) ∧ (∀ m, m ≠ n → t.phy m = s.phy m) ∧ t.mem = s.mem) ∧
    (x.step = 2 → s.obj (Obj.PH_LANE_MASK n) < 256 → Completes (.phRetryExpiry n) s fun t => (t.phy n).step = 1 ∧
      (t.phy n).maxRate = s.obj (Obj.PH_MAX_RATE n) ∧ (t.phy n).laneMask = s.obj (Obj.PH_LANE_MASK n) ∧
      (∀ l, l < 8 → bit (s.obj (Obj.PH_LANE_MASK n)) l = true → (t.lane n l).step = 1 ∧ (t.lane n l).tx = 0) ∧
      (∀ l, l < 8 → bit (s.obj (Obj.PH_LANE_MASK n)) l = false → (t.lane n l).step = 0 ∧ (t.lane n l).tx = 3) ∧
      (∀ m, m ≠ n → t.phy m = s.phy m) ∧ t.mem = s.mem) ∧
    (∀ l, l < 8 → (s.lane n l).step = 2 → x.step ≠ 2 → Completes (.lureDetected n l) s fun t =>
      (t.lane n l).step = 1 ∧ (t.lane n l).los = false ∧ (t.lane n l).lol = false ∧ (∀ k, k < 8 → k ≠ l → t.lane n k = s.lane n k) ∧
      t.phy n = x ∧ t.dict = s.dict) ∧
    (∀ l m, l < 8 → (s.lane n l).step = 2 → x.step = 2 → m = s.obj (Obj.PH_LANE_MASK n) → m < 256 →
      Completes (.lureDetected n l) s fun t =>
        (t.phy n).step = 1 ∧ (t.phy n).laneMask = m ∧ (t.phy n).maxRate = s.obj (Obj.PH_MAX_RATE n) ∧ t.dict = s.dict ∧
        (bit m l = true → (t.lane n l).step = 1 ∧ (t.lane n l).los = false ∧ (t.lane n l).lol = false) ∧
        (bit m l = false → (t.lane n l).step = 0) ∧
        ∀ k, k < 8 → k ≠ l → (bit m k = true → (s.lane n k).step ≠ 0 → t.lane n k = s.lane n k) ∧
          (bit m k = false → (t.lane n k).step = 0 ∧ (t.lane n k).tx = 3))) ∧
  (∀ (s : State) (n l h : Nat), l < 8 → (s.phy n).framing = false → (s.lane n l).rx = 0 → (s.lane n l).step ≠ 0 → (s.lane n l).step ≠ 2 →
    let x := s.phy n
    let y := s.lane n l
    (trainingValid h = false → Completes (.trainingFrameRx n l h) s fun t => t.lane n l = { y with good := 0, heard := 0, sel := 0 } ∧
      t.obj (Obj.TF_REJECTS (8 * n + l)) = satBump 32 (s.obj (Obj.TF_REJECTS (8 * n + l))) 1 ∧ t.phy n = x) ∧
    (trainingValid h = true → x.step ≠ 1 → ¬(x.step = 3 ∧ x.rateSel = none ∧ Th.step h = 2) →
      Completes (.trainingFrameRx n l h) s fun t => (t.lane n l).hdr = h % 2 ^ 128 ∧ (t.lane n l).good = min 8 (y.good + 1) ∧
        (t.lane n l).step = y.step ∧ t.phy n = x ∧ t.dict = s.dict ∧ ∀ k, k < 8 → k ≠ l → t.lane n k = s.lane n k) ∧
    (∀ r, trainingValid h = true → x.step = 3 → x.rateSel = none → Th.step h = 2 → commonRate x.rates (Th.rates h) = some r →
      Completes (.trainingFrameRx n l h) s fun t => t.phy n = { x with rateSel := some r } ∧ bit x.rates r = true ∧
        bit (Th.rates h) r = true ∧ ∀ k, k < 4 → r < k → ¬(bit x.rates k = true ∧ bit (Th.rates h) k = true))) ∧
  (∀ (s : State) (n l0 : Nat) (ls : List Nat), (s.phy n).framing = false → (s.phy n).step = 1 → s.withPresence n = l0 :: ls →
    s.idConflict n = false →
    let h0 := (s.lane n l0).hdr
    Completes (.presenceComplete n) s fun t => (t.phy n).step = 3 ∧ (t.phy n).partner = some (Th.device h0, Th.port h0) ∧
      (∀ l ∈ l0 :: ls, (Th.device (s.lane n l).hdr ≠ Th.device h0 ∨ Th.port (s.lane n l).hdr ≠ Th.port h0) →
        (t.lane n l).miscabled = true ∧ (t.lane n l).excluded = true ∧ (t.lane n l).step = 0 ∧ bit (t.phy n).set l = false) ∧
      (t.lane n l0).step = 3 ∧ bit (t.phy n).set l0 = true ∧
      (∀ l, l < 8 → l ∉ l0 :: ls → t.lane n l = s.lane n l ∧ bit (t.phy n).set l = false)) ∧
  (∀ (s : State) (n : Nat), (s.phy n).framing = false →
    let x := s.phy n
    let keep := (lanesOf x.set).filter fun l => (s.lane n l).sawRate
    let set := (keep.map fun l => 2 ^ l).sum
    (∀ r, x.step = 3 → x.switched = false → setAcceptable set = true → x.rateSel = some r →
      (∀ l ∈ keep, 8 ≤ (s.lane n l).sel ∧ (s.lane n l).partnerReady = true) → Completes (.rateSwitch n) s fun t =>
        t.phy n = { x with set := set, rate := r, switched := true, switchNs := s.timeNs } ∧ t.dict = s.dict ∧
        ∀ l ∈ keep, (t.lane n l).good = 0 ∧ (t.lane n l).partnerReady = false ∧ (t.lane n l).step = (s.lane n l).step) ∧
    ((∀ l ∈ lanesOf x.set, if (s.lane n l).step = 3 then 8 ≤ (s.lane n l).good ∧ x.switched = true else (s.lane n l).partnerReady = true) →
      (∀ skew, 3 ≤ x.step → x.step ≤ 6 → (x.step = 6 → skew ≤ 1024) → Completes (.creanceStepComplete n skew) s fun t =>
        t.phy n = { x with step := x.step + 1 } ∧ (∀ l ∈ lanesOf x.set, (t.lane n l).step = (s.lane n l).step + 1 ∧
          (t.lane n l).partnerReady = false) ∧
          (∀ l, l < 8 → l ∉ lanesOf x.set → (x.step ≠ 3 ∨ l ∉ s.luring n) → t.lane n l = s.lane n l) ∧
          ∀ l ∈ s.luring n, x.step = 3 → (t.lane n l).excluded = true ∧ (t.lane n l).step = 0) ∧
      (∀ skew, x.step = 6 → 1024 < skew → exec (.creanceStepComplete n skew) s = .next (s.trainFail n true))) ∧
    (3 ≤ x.step → x.step ≤ 7 → exec (.creanceStepTimeout n) s = .next (s.trainFail n true)) ∧
    (∀ r b, x.rateSel = some r → x.failSel = some r → 2 ≤ x.fails → r ≠ 0 →
      ((s.trainFail n b).phy n).exclRates = x.exclRates + 2 ^ r ∧ ((s.trainFail n b).phy n).fails = 0) ∧
    (∀ r b, x.rateSel = some r → (x.failSel ≠ some r ∨ x.fails < 2) → ((s.trainFail n b).phy n).exclRates = x.exclRates) ∧
    (x.step = 7 → (∀ l ∈ lanesOf x.set, (s.lane n l).partnerReady = true) → Completes (.linkFramingStart n) s fun t =>
      (t.phy n).framing = true ∧ (t.phy n).running = runningOf x.set ∧ (t.phy n).fails = 0 ∧ (t.phy n).txSeq = 0 ∧
      (t.phy n).credits = List.replicate 8 32 ∧
      ∀ l ∈ lanesOf x.set, bit (runningOf x.set) l = true → (t.lane n l).step = 7 ∧ (t.lane n l).tx = 0 ∧ (t.lane n l).rx = 0)) ∧
  (∀ (s : State) (n l : Nat), l < 8 →
    let y := s.lane n l
    (y.step = 4 → Th.step y.hdr = 3 → bit y.ffeAt 31 = true → exec (.ffeRequestApply n l) s =
      .next (s.setLane n l { y with stsPre := 0, stsMain := 0, stsPost := 0 })) ∧
    (y.step = 4 → Th.step y.hdr = 3 → bit y.ffeAt 31 = false → ffeLegal y.pre y.main y.post = true →
      Completes (.ffeRequestApply n l) s fun t => let z := t.lane n l
        ffeLegal z.pre z.main z.post = true ∧ z.step = 4 ∧ t.dict = s.dict ∧
        (Th.reqPreset y.hdr = 0 → Th.reqPre y.hdr = 1 → y.stsPre = 0 →
          if ffeLegal (y.pre + 1) y.main y.post then z.pre = y.pre + 1 ∧ z.stsPre = 1 else z.pre = y.pre ∧ z.stsPre = 2) ∧
        (Th.reqPreset y.hdr ≠ 0 → y.stsPre = 0 → y.stsMain = 0 → y.stsPost = 0 →
          (z.pre, z.main, z.post) = ffePreset (Th.reqPreset y.hdr - 1) ∧ z.stsPre = 1)) ∧
    (∀ x, x = s.phy n → x.switched = true → x.framing = false → s.timeNs < x.switchNs + 2000 → exec (.losDetected n l) s = .next s) ∧
    (n < 20 → y.rx = 0 → y.step ≠ 0 → y.los = false →
      ((s.phy n).switched = false ∨ (s.phy n).framing = true ∨ (s.phy n).switchNs + 2000 ≤ s.timeNs) →
      exec (.losDetected n l) s = .next (((s.bump (Obj.LOS_EVENTS (8 * n + l))).setLane n l { y with los := true }).detectorReport n l)) ∧
    (n < 20 → y.rx = 0 → 3 ≤ y.step → y.lol = false →
      exec (.lolDetected n l) s = .next (((s.bump (Obj.LOL_EVENTS (8 * n + l))).setLane n l { y with lol := true }).detectorReport n l)) ∧
    ((s.phy n).framing = false → (s.phy n).step < 3 → s.detectorReport n l = s.setLane n l { y with good := 0, heard := 0, sel := 0 }) ∧
    ((s.phy n).framing = true → y.step = 7 → bit (s.phy n).running l = false →
      ((s.detectorReport n l).lane n l).step = 1 ∧ ((s.detectorReport n l).phy n) = s.phy n) ∧
    (y.step = 7 → y.recalDue = false → Completes (.recalDue n l) s fun t =>
      t.lane n l = { y with recalDue := true, recalLate := false } ∧ t.dict = s.dict ∧ t.link.ports = s.link.ports) ∧
    (y.recalDue = true → y.rx = 1 → Completes (.recalPiece n l true) s fun t => (t.lane n l).recalDue = false ∧
      (t.lane n l).recalLate = false ∧ (t.lane n l).step = y.step ∧ (∀ k, k < 8 → k ≠ l → t.lane n k = s.lane n k)) ∧
    ((s.phy n).framing = true → y.recalDue = true → y.recalLate = false → exec (.recalDeferred n l) s =
      .next (((s.bump (Obj.RECAL_DEFERRED (8 * n + l))).setLane n l { y with recalLate := true }).askWindow n l)) ∧
    (s.unitSt (phUnit n) = .hooded → bits (s.obj (Obj.PATTERN_CTRL (8 * n + l))) 4 3 ≠ 0 → y.locked = false →
      Completes (.patternCheckerLock n l) s fun t => t.lane n l = { y with locked := true, relock := true, lockNs := s.timeNs } ∧
        (y.relock = true → t.obj (Obj.CHK_RELOCKS (8 * n + l)) = satBump 32 (s.obj (Obj.CHK_RELOCKS (8 * n + l))) 1) ∧
        (y.relock = false → t.dict = s.dict)) ∧
    (∀ b e, n < 20 → y.locked = true → 256 ≤ b → 64 < e → e ≤ b → Completes (.patternCheckerLockLoss n l b e) s fun t =>
      t.lane n l = { y with locked := false } ∧
      t.obj (Obj.PATTERN_BITS (8 * n + l)) = satBump 48 (s.obj (Obj.PATTERN_BITS (8 * n + l))) b ∧
      t.obj (Obj.PATTERN_ERRORS (8 * n + l)) = satBump 48 (s.obj (Obj.PATTERN_ERRORS (8 * n + l))) e)) ∧
  (∀ (s : State) (n : Nat), let x := s.phy n
    (n < s.phPorts → 5 ≤ s.stage → s.flag (Obj.PH_REQUIRED n) = true → x.framing = false →
      (x.graceSaid = false → exec (.phRequiredGrace n) s =
        .next ((s.setPhy n { x with graceSaid := true }).raise Es.phRequiredDown { oClass := 6, oIndex := n, cls := 6, sub := n + 1 })) ∧
      (x.graceSaid = true → exec (.phRequiredGrace n) s = .next s)) ∧
    (∀ k, x.laneReq = some k → x.framing = true → Completes (.laneDegradeSwitch n) s fun t =>
      t.phy n = { x with running := k, laneReq := none } ∧
      (∀ l ∈ lanesOf x.set, (s.lane n l).step = 7 → (t.lane n l).tx = (if bit k l then 0 else 1) ∧ (t.lane n l).rx = if bit k l then 0 else 1) ∧
      (k ≠ 0xFF → t.obj (Obj.DEGRADES n) = satBump 32 (s.obj (Obj.DEGRADES n)) 1) ∧ (k = 0xFF → t.dict = s.dict)))

/-- Phidun link: codewords, link control, replay, power states, hood (R705, R706, R709, R710, R711, R712, R713, R714, R715, R728,
R729, R730, R731, R732). -/
def Obligations.LinkCarriesTransactions : Prop :=
  (∀ (s : State) (n corrected : Nat) (l0 l1 l2 l3 : List Nat) (upper : List (List Nat)), n < 20 → (s.phy n).framing = true → s.safety.safe = false →
    s.sup.inMews = false →
    let x := s.phy n
    let c := readCodeword (l0 :: l1 :: l2 :: l3 :: upper)
    let head := c.straddling x.part
    let fs := head.toList ++ c.whole
    (x.badCodewords < 7 → Completes (.codewordRx n corrected true l0 l1 l2 l3 upper) s fun t =>
      t.phy n = { x.discard with part := none, badCodewords := x.badCodewords + 1 } ∧ t.link.lanes = s.link.lanes ∧
      t.obj (Obj.FEC_UNCORRECTABLE n) = satBump 32 (s.obj (Obj.FEC_UNCORRECTABLE n)) 1 ∧ t.out = s.out ∧ t.mem = s.mem) ∧
    (x.badCodewords < 7 → (c.crcOk = false ∨ 1151 < c.first ∨ ∃ f ∈ fs, flitBad f.hdr = true) →
      Completes (.codewordRx n corrected false l0 l1 l2 l3 upper) s fun t =>
        t.phy n = { x.discard with part := none, badCodewords := x.badCodewords + 1 } ∧ t.link.lanes = s.link.lanes ∧
        t.obj (Obj.CRC_FAILS n) = satBump 32 (s.obj (Obj.CRC_FAILS n)) 1 ∧ t.out = s.out ∧ t.mem = s.mem) ∧
    (7 ≤ x.badCodewords → Completes (.codewordRx n corrected true l0 l1 l2 l3 upper) s fun t => (t.phy n).framing = false) ∧
    (c.crcOk = true → c.first ≤ 1151 → (∀ f ∈ fs, flitBad f.hdr = false) →
      let num := if head.toList.any (fun f => bits f.hdr 124 4 != 0xE) then (c.seq + 511) % 512 else c.seq
      let y := Phy.takeFlits num fs
        { (if head.isNone && decide (0 < c.first) then x.discard else x) with part := some c.rest, badCodewords := 0 }
      y.accepted < s.obj Obj.ACK_INTERVAL → Completes (.codewordRx n corrected false l0 l1 l2 l3 upper) s fun t => t.phy n = y ∧
        (∀ l ∈ lanesOf x.running, (s.lane n l).rx ≠ 3 → (t.lane n l).rx = 0) ∧ t.out = s.out ∧ t.mem = s.mem)) ∧
  (∀ flits first seq lanes : Nat, flits < 2 ^ 5088 → first < 2 ^ 11 → seq < 512 → (lanes = 4 ∨ lanes = 8) →
    readCodeword (stripe lanes (codewordSymbols (codewordData flits first seq))) =
      { flits := flits, first := first, seq := seq, crcOk := true }) ∧
  (∀ (x : Phy) (fs : List LinkFlit), x.rxSeq < 512 → fs ≠ [] → (∀ f ∈ fs, bits f.hdr 124 4 ≠ 0xE) →
    Phy.takeFlits x.rxSeq fs x =
      { x with rx := x.rx ++ fs, rxSeq := (x.rxSeq + fs.length) % 512, nakGiven := false, accepted := x.accepted + fs.length }) ∧
  (∀ (x : Phy) (num : Nat) (f : LinkFlit), bits f.hdr 124 4 ≠ 0xE → num ≠ x.rxSeq → Phy.takeFlits num [f] x = x.discard) ∧
  (∀ (x : Phy), x.nakGiven = false → x.discard.nak = true ∧ x.discard.discard = x.discard ∧ x.discard.rx = x.rx) ∧
  (∀ (s : State) (n : Nat) (f : LinkFlit) (rest : List LinkFlit), (s.phy n).rx = f :: rest → s.safety.safe = false →
    let u := s.setPhy n { s.phy n with rx := rest }
    (linkKind f.hdr = none → exec (.linkTransactionRx n) s = .next u) ∧
    (∀ k, linkKind f.hdr = some k → k.response = true →
      exec (.linkTransactionRx n) s = .next (((u.linkResponse n f k).freePlace n (4 + bits f.hdr 122 2)).tryHood n)) ∧
    (∀ k t, linkKind f.hdr = some k → k.response = false → u.linkRequest n f k = some t →
      exec (.linkTransactionRx n) s = .next ((t.freePlace n (bits f.hdr 122 2)).tryHood n)) ∧
    (∀ k, linkKind f.hdr = some k → k.response = false → u.linkRequest n f k = none → exec (.linkTransactionRx n) s = .next s)) ∧
  (∀ (s : State) (n h : Nat), bit h 110 = false → (s.phy n).txq = [] → (s.phy n).fullNs = 0 → (s.takeCtl n h).phy n = { s.phy n with
      unacked := match (s.phy n).unacked.findIdx? fun u => u.1 == bits h 111 9 with
        | some i => (s.phy n).unacked.drop (i + 1)
        | none => (s.phy n).unacked
      replays := if ((s.phy n).unacked.findIdx? fun u => u.1 == bits h 111 9).isSome then 0 else (s.phy n).replays
      credits := (s.phy n).credits.zipIdx.map fun c => c.1 + (bits h (8 * c.2) 8 + 256 - (s.phy n).creditSeen.getD c.2 0) % 256
      creditSeen := (List.range 8).map fun q => bits h (8 * q) 8 }) ∧
  (∀ (s u : State) (n arg : Nat), let x := u.phy n
    (s.ctlHead n [0, 8, 9, 10, 11, 12, 13, 14, 15] = some (arg, u) → exec (.lctrlIdle n) s = .next u) ∧
    (s.ctlHead n [1] = some (arg, u) → (arg = 1 ∨ arg = 2) → x.framing = true →
      exec (.pmReq n) s = .next ((u.mapLanes n x.running fun _ y => { y with rx := arg }).sendCtl n 2 arg)) ∧
    (s.ctlHead n [1] = some (arg, u) → arg ≠ 1 → arg ≠ 2 → exec (.pmReq n) s = .next u) ∧
    (s.ctlHead n [2] = some (arg, u) → x.pmWait = some arg → Completes (.pmAck n) s fun t => t.phy n = { x with pmWait := none } ∧
      (∀ l ∈ lanesOf x.running, t.lane n l = { u.lane n l with tx := arg }) ∧ t.dict = u.dict ∧ t.out = u.out) ∧
    (s.ctlHead n [3] = some (arg, u) → bits arg 0 4 ≠ 0 → arg < 128 → Completes (.recalWin n) s fun t =>
      t.phy n = { x with window := some (bits arg 4 3, u.timeNs + bits arg 0 4 * 10 + 200) } ∧ t.link.lanes = u.link.lanes) ∧
    (s.ctlHead n [4] = some (arg, u) → x.framing = true → x.running = 0xFF → (arg = 0x0F ∨ arg = 0xF0) →
      ((x.laneReq = none ∨ x.laneReq = some arg ∨ x.laneReq = some 0xFF) → Completes (.laneDown n) s fun t =>
        t.phy n = { x with laneReq := some arg } ∧ t.dict = u.dict ∧ t.out = u.out) ∧
      (∀ k, x.laneReq = some k → k ≠ arg → k ≠ 0xFF → exec (.laneDown n) s = .next (u.portDrop n))) ∧
    (s.ctlHead n [5] = some (arg, u) → x.framing = true → arg = 0xFF → x.running ≠ 0xFF → x.laneReq = none → u.halfOk n 0xFF = true →
      exec (.laneUp n) s = .next ((u.setPhy n { x with laneReq := some 0xFF }).sendCtl n 5 0xFF)) ∧
    (s.ctlHead n [6] = some (arg, u) →
      exec (.hood n) s = .next ((u.setPhy n { x with hoodRx := true, openRx := false }).tryHood n)) ∧
    (s.ctlHead n [7] = some (arg, u) → (u.obj (Obj.PH_LINK_ENABLE n) ≠ 1 ∨ u.unitSt (phUnit n) ≠ .ready) →
      exec (.open_ n) s = .next (u.setPhy n { x with openRx := true })) ∧
    (s.ctlHead n [7] = some (arg, u) → u.obj (Obj.PH_LINK_ENABLE n) = 1 → u.unitSt (phUnit n) = .ready → x.txq = [] → x.openTx = true →
      Completes (.open_ n) s fun t => t.phy n = { x with hoodTx := false, hoodRx := false, openTx := false, openRx := false })) ∧
  (∀ (s : State) (n op arg : Nat), (s.phy n).laneReq = none → (s.phy n).freed.length = 8 → op < 16 → arg < 4096 → ∃ h,
    (s.sendCtl n op arg).out = s.out ++ [.link n h (zeros 128)] ∧ bits h 124 4 = 0xE ∧ bits h 120 4 = op ∧ bits h 64 12 = arg ∧
    bits h 111 9 = ((s.phy n).rxSeq + 511) % 512 ∧ bit h 110 = (s.phy n).nak ∧
    (∀ q, q < 8 → bits h (8 * q) 8 = (s.phy n).freed.getD q 0 % 256) ∧
    (s.sendCtl n op arg).phy n = { s.phy n with nak := false, accepted := 0, freedSince := List.replicate 8 0 }) ∧
  (∀ (s : State) (n : Nat), let x := s.phy n
    (x.framing = true → 0 < x.accepted → exec (.ackTimer n) s = .next (s.sendCtl n 0 0)) ∧
    (x.framing = true → s.safety.safe = false →
      (x.unacked = [] → exec (.replayTimeout n) s = .next s) ∧
      (x.unacked ≠ [] → x.replays + 1 ≤ s.obj Obj.REPLAY_LIMIT → Completes (.replayTimeout n) s fun t =>
        t.phy n = { x with replays := x.replays + 1 } ∧ t.out = s.out ++ x.unacked.map (fun f => .link n f.2.hdr f.2.payload) ∧
        t.obj (Obj.REPLAYS n) = satBump 32 (s.obj (Obj.REPLAYS n)) 1 ∧ t.mem = s.mem) ∧
      (x.unacked ≠ [] → s.obj Obj.REPLAY_LIMIT < x.replays + 1 → exec (.replayTimeout n) s = .next (s.portDrop n))) ∧
    (let tx := (s.lane n ((lanesOf x.running).headD 0)).tx
     let t := s.obj (Obj.IDLE_TIMERS n)
     x.framing = true → x.txq = [] → x.pmWait = none → s.safety.safe = false →
      (tx = 0 → bits t 0 16 ≠ 0 → exec (.linkIdleTimer n) s = .next ((s.setPhy n { x with pmWait := some 1 }).sendCtl n 1 1)) ∧
      (tx = 1 → bits t 16 16 ≠ 0 → exec (.linkIdleTimer n) s = .next ((s.setPhy n { x with pmWait := some 2 }).sendCtl n 1 2)) ∧
      (2 ≤ tx → exec (.linkIdleTimer n) s = .next s)) ∧
    (x.pmWait.isSome = true → Completes (.pmReqTimeout n) s fun t => t.phy n = { x with pmWait := none } ∧
      t.link.lanes = s.link.lanes ∧ t.dict = s.dict ∧ t.out = s.out))

/-- Safety monitor, schedule, aging and boundary scan (R750, R753, R762, R767, R769, R786, R792). -/
def Obligations.CareCommandsAct : Prop :=
  ∀ s : State,
    (∀ v, 2 ≤ s.stage → s.safety.safe = false → v < 2 ^ 32 → exec (.logReadWrite v) s = .next (s.logReadWrite v).2) ∧
    (1 ≤ s.stage → Completes (.pathTest true) s (fun t => t.obj Obj.PATH_TESTS = satBump 32 (s.obj Obj.PATH_TESTS) 1 ∧ t.mem = s.mem) ∧
      Completes (.pathTest false) s (fun t => t.safety.safe = true) ∧
      Completes .monitorCompareFail s (fun t => t.safety.safe = true ∧ t.safety.monitorOk = false)) ∧
    (∀ cls u, s.live = true → hasTest cls = true → s.obj (Obj.TEST_INTERVAL_S cls) ≠ 0 →
      ((s.scheduled cls).find? fun u => SMap.get 0 s.safety.schedNext cls ≤ unitIndex u) = some u →
      exec (.selftestScheduleTick cls) s = .next ((({ s with safety := { s.safety with
        schedNext := SMap.set 0 s.safety.schedNext cls (unitIndex u + 1) } } : State).requestTest u false).2)) ∧
    (∀ d mv, 1 ≤ s.stage → s.safety.drift = [] → 0 < mv → mv < s.obj Obj.AGING_WARN_MV → mv ≤ 65535 → d ≤ 65535 →
      s.safety.driftOver = [] →
      Completes (.agingSample [{ domain := d, driftMv := mv, overLimit := false }]) s fun t =>
        t.safety.drift = [(d, mv)] ∧ t.obj Obj.AGING_MAX_MV = mv ∧ t.obj Obj.AGING_MAX_DOMAIN = d ∧
        t.obj Obj.AGING_WARN_COUNT = 0 ∧ t.ucbs = s.ucbs) ∧
    (∀ rs, 1 ≤ s.stage → Completes (.agingSample rs) s fun t => t.safety.drift = (rs.foldl (fun s r => s.ageDomain r) s).safety.drift) ∧
    (s.sup.coldReset = false → s.safety.hourBits < 2048 → Completes .ageHourBurn s fun t =>
      t.safety.hourBits = s.safety.hourBits + 1 ∧ t.dict = s.dict ∧ t.mem = s.mem) ∧
    (s.sup.coldReset = false → s.obj Obj.COOLANT_WATCH_S ≠ 0 → s.cool.fallback = false → Completes .coolantWatchExpiry s fun t =>
      t.cool.fallback = true ∧ t.cool.inletInUse = sgn 32 (s.obj Obj.COOLANT_FALLBACK_DC) ∧
      t.obj Obj.WATCH_EXPIRIES = satBump 32 (s.obj Obj.WATCH_EXPIRIES) 1) ∧
    (1 ≤ s.stage → Completes .idcode s (fun t => t.cool.jtag = .idcode ∧ t.dict = s.dict) ∧
      Completes .bypass s (fun t => t.cool.jtag = .bypass ∧ t.dict = s.dict) ∧
      (∀ a b, Completes (.samplePreload a b) s fun t => t.cool.sampled = a ∧ t.cool.boundary = b ∧ t.cool.jtag = .samplePreload ∧
        t.dict = s.dict) ∧
      (s.obj Obj.BOOT_MODE_SAMPLED = 4 →
        Completes .extest s (fun t => t.cool.jtag = .extest ∧ t.dict = s.dict) ∧
        Completes .extestPulse s (fun t => t.cool.jtag = .extestPulse ∧ t.dict = s.dict) ∧
        Completes .extestTrain s (fun t => t.cool.jtag = .extestTrain ∧ t.dict = s.dict) ∧
        Completes .highz s (fun t => t.cool.jtag = .highz ∧ t.dict = s.dict) ∧
        Completes .clamp s (fun t => t.cool.jtag = .clamp ∧ t.dict = s.dict)) ∧
      (s.obj Obj.BOOT_MODE_SAMPLED ≠ 4 → ∀ c ∈ [Instr.extest, .extestPulse, .extestTrain, .highz, .clamp],
        Completes c s fun t => t.cool.jtag = .bypass ∧ t.obj Obj.JTAG_REFUSED = satBump 32 (s.obj Obj.JTAG_REFUSED) 1))
end

