-- ==== Sys2Proof/Laws/Map.lean ====
section
/-!
SUPPORT. Maps: what a read after a write answers, and that every operation keeps the canonical form.
-/
namespace Sys2Proof

variable {α : Type}

theorem SMap.get_erase_same (d : α) (m : SMap α) (i : Nat) : SMap.get d (SMap.erase m i) i = d := by
  induction m with
  | nil => rfl
  | cons e m ih =>
    obtain ⟨k, v⟩ := e
    by_cases h : i = k
    · simpa [SMap.erase, h] using h ▸ ih
    · simp [SMap.erase, SMap.get, h, ih]

theorem SMap.get_erase_other (d : α) (m : SMap α) {i j : Nat} (h : j ≠ i) : SMap.get d (SMap.erase m i) j = SMap.get d m j := by
  induction m with
  | nil => rfl
  | cons e m ih =>
    obtain ⟨k, v⟩ := e
    by_cases hk : i = k
    · subst hk; simp [SMap.erase, SMap.get, h, ih]
    · by_cases hj : j = k
      · simp [SMap.erase, SMap.get, hk, hj]
      · simp [SMap.erase, SMap.get, hk, hj, ih]

/-- A key that is listed nowhere. -/
def SMap.fresh (m : SMap α) (i : Nat) : Prop := ∀ e ∈ m, e.1 ≠ i

theorem SMap.fresh_erase (m : SMap α) (i : Nat) : SMap.fresh (SMap.erase m i) i := by
  induction m with
  | nil => intro e h; cases h
  | cons e m ih =>
    obtain ⟨k, v⟩ := e
    by_cases h : i = k
    · simpa [SMap.erase, h] using h ▸ ih
    · intro e he
      simp only [SMap.erase, h, if_false, List.mem_cons] at he
      rcases he with rfl | he
      · exact fun e => h e.symm
      · exact ih e he

theorem SMap.get_ins_same (d : α) {m : SMap α} {i : Nat} (v : α) (hf : SMap.fresh m i) : SMap.get d (SMap.ins m i v) i = v := by
  induction m with
  | nil => simp [SMap.ins, SMap.get]
  | cons e m ih =>
    obtain ⟨k, w⟩ := e
    have hk : i ≠ k := fun h => hf (k, w) (by simp) h.symm
    by_cases h : i < k
    · simp [SMap.ins, SMap.get, h]
    · simp [SMap.ins, SMap.get, h, hk, ih fun e he => hf e (List.mem_cons_of_mem _ he)]

theorem SMap.get_ins_other (d : α) (m : SMap α) {i j : Nat} (v : α) (hj : j ≠ i) : SMap.get d (SMap.ins m i v) j = SMap.get d m j := by
  induction m with
  | nil => simp [SMap.ins, SMap.get, hj]
  | cons e m ih =>
    obtain ⟨k, w⟩ := e
    by_cases h : i < k
    · simp [SMap.ins, SMap.get, h, hj]
    · by_cases hk : j = k
      · simp [SMap.ins, SMap.get, h, hk]
      · simp [SMap.ins, SMap.get, h, hk, ih]

variable [DecidableEq α]

/-- A read after a write to the same key. -/
@[simp] theorem SMap.get_set_same (d : α) (m : SMap α) (i : Nat) (v : α) : SMap.get d (SMap.set d m i v) i = v := by
  by_cases h : v = d
  · simp [SMap.set, h, SMap.get_erase_same]
  · simp [SMap.set, h, SMap.get_ins_same d v (SMap.fresh_erase m i)]

/-- A write leaves every other key alone, whatever the reader takes for an unlisted one. -/
theorem SMap.get_set_other (d : α) {d' : α} (m : SMap α) {i j : Nat} (v : α) (hj : j ≠ i) :
    SMap.get d' (SMap.set d m i v) j = SMap.get d' m j := by
  by_cases h : v = d
  · simp [SMap.set, h, SMap.get_erase_other d' m hj]
  · simp [SMap.set, h, SMap.get_ins_other d' _ v hj, SMap.get_erase_other d' m hj]

/-- The canonical form, entry by entry: keys rise strictly and no value is the default. -/
theorem SMap.wf_iff (d : α) (m : SMap α) :
    SMap.wf d m = true ↔ m.Pairwise (fun a b => a.1 < b.1) ∧ ∀ e ∈ m, e.2 ≠ d := by
  induction m with
  | nil => simp [SMap.wf]
  | cons e m ih =>
    obtain ⟨k, v⟩ := e
    cases m with
    | nil => simp [SMap.wf]
    | cons e' m =>
      obtain ⟨k', v'⟩ := e'
      simp only [SMap.wf, Bool.and_eq_true, decide_eq_true_eq, ih, List.pairwise_cons, List.mem_cons, forall_eq_or_imp]
      constructor
      · rintro ⟨⟨hk, hv⟩, ⟨h1, h2⟩, h3⟩
        exact ⟨⟨⟨hk, fun a ha => Nat.lt_trans hk (h1 a ha)⟩, h1, h2⟩, hv, h3⟩
      · rintro ⟨⟨⟨hk, -⟩, h1, h2⟩, hv, h3⟩
        exact ⟨⟨hk, hv⟩, ⟨h1, h2⟩, h3⟩

omit [DecidableEq α] in
theorem SMap.erase_eq_filter (m : SMap α) (i : Nat) : SMap.erase m i = m.filter fun e => decide (e.1 ≠ i) := by
  induction m with
  | nil => rfl
  | cons e m ih =>
    obtain ⟨k, v⟩ := e
    by_cases h : i = k
    · subst h; simp [SMap.erase, ih]
    · have h' : k ≠ i := fun e => h e.symm
      simp [SMap.erase, h, h', ih]

/-- Leaving entries out keeps the canonical form. -/
theorem SMap.wf_filter {d : α} {m : SMap α} (p : Nat × α → Bool) (h : SMap.wf d m = true) : SMap.wf d (m.filter p) = true := by
  rw [SMap.wf_iff] at h ⊢
  exact ⟨h.1.filter p, fun e he => h.2 e (List.mem_filter.1 he).1⟩

omit [DecidableEq α] in
theorem SMap.mem_ins {m : SMap α} {i : Nat} {v : α} {e : Nat × α} : e ∈ SMap.ins m i v ↔ e = (i, v) ∨ e ∈ m := by
  induction m with
  | nil => simp [SMap.ins]
  | cons a m ih =>
    obtain ⟨k, w⟩ := a
    by_cases h : i < k
    · simp [SMap.ins, h]
    · simp only [SMap.ins, h, if_false, List.mem_cons, ih]
      tauto

omit [DecidableEq α] in
theorem SMap.pairwise_ins {m : SMap α} {i : Nat} {v : α} (h : m.Pairwise fun a b => a.1 < b.1) (hf : SMap.fresh m i) :
    (SMap.ins m i v).Pairwise fun a b => a.1 < b.1 := by
  induction m with
  | nil => simp [SMap.ins]
  | cons a m ih =>
    obtain ⟨k, w⟩ := a
    rw [List.pairwise_cons] at h
    by_cases hi : i < k
    · simp only [SMap.ins, hi, if_true, List.pairwise_cons, List.mem_cons, forall_eq_or_imp]
      exact ⟨⟨trivial, fun a ha => Nat.lt_trans hi (h.1 a ha)⟩, h.1, h.2⟩
    · have hk : k < i := Nat.lt_of_le_of_ne (Nat.le_of_not_lt hi) (hf (k, w) (by simp))
      simp only [SMap.ins, hi, if_false, List.pairwise_cons]
      refine ⟨fun a ha => ?_, ih h.2 fun e he => hf e (List.mem_cons_of_mem _ he)⟩
      rcases SMap.mem_ins.1 ha with rfl | ha
      · exact hk
      · exact h.1 a ha

/-- A write keeps the canonical form. -/
theorem SMap.wf_set {d : α} {m : SMap α} (i : Nat) (v : α) (h : SMap.wf d m = true) : SMap.wf d (SMap.set d m i v) = true := by
  have he : SMap.wf d (SMap.erase m i) = true := by rw [SMap.erase_eq_filter]; exact SMap.wf_filter _ h
  by_cases hv : v = d
  · simpa [SMap.set, hv] using he
  · rw [SMap.wf_iff] at he ⊢
    simp only [SMap.set, hv, if_false]
    refine ⟨SMap.pairwise_ins he.1 (SMap.fresh_erase m i), fun e h => ?_⟩
    rcases SMap.mem_ins.1 h with rfl | h
    · exact hv
    · exact he.2 e h

end Sys2Proof
end

