-- ==== Sys2Proof/Laws/State.lean ====
section
/-!
SUPPORT. One lemma per field per update of State: what the update leaves. None unfolds a record again.
-/
namespace Sys2Proof.Machine

@[simp] theorem State.setApt_pending (s : State) (c i : Nat) (e : Apt) : (s.setApt c i e).pending = s.pending := rfl
@[simp] theorem State.setApt_out (s : State) (c i : Nat) (e : Apt) : (s.setApt c i e).out = s.out := rfl
@[simp] theorem State.setApt_freeCtr (s : State) (c i : Nat) (e : Apt) : (s.setApt c i e).freeCtr = s.freeCtr := rfl
@[simp] theorem State.setApt_timeNs (s : State) (c i : Nat) (e : Apt) : (s.setApt c i e).timeNs = s.timeNs := rfl
@[simp] theorem State.setApt_variant (s : State) (c i : Nat) (e : Apt) : (s.setApt c i e).variant = s.variant := rfl
@[simp] theorem State.setApt_fusesOk (s : State) (c i : Nat) (e : Apt) : (s.setApt c i e).fusesOk = s.fusesOk := rfl
@[simp] theorem State.setApt_dict (s : State) (c i : Nat) (e : Apt) : (s.setApt c i e).dict = s.dict := rfl
@[simp] theorem State.setApt_blocks (s : State) (c i : Nat) (e : Apt) : (s.setApt c i e).blocks = s.blocks := rfl
@[simp] theorem State.setApt_sup (s : State) (c i : Nat) (e : Apt) : (s.setApt c i e).sup = s.sup := rfl
@[simp] theorem State.setApt_ucbs (s : State) (c i : Nat) (e : Apt) : (s.setApt c i e).ucbs = s.ucbs := rfl
@[simp] theorem State.setApt_oap (s : State) (c i : Nat) (e : Apt) : (s.setApt c i e).oap = s.oap := rfl
@[simp] theorem State.setApt_agg (s : State) (c i : Nat) (e : Apt) : (s.setApt c i e).agg = s.agg := rfl
@[simp] theorem State.setApt_safety (s : State) (c i : Nat) (e : Apt) : (s.setApt c i e).safety = s.safety := rfl
@[simp] theorem State.setApt_cool (s : State) (c i : Nat) (e : Apt) : (s.setApt c i e).cool = s.cool := rfl
@[simp] theorem State.setApt_host (s : State) (c i : Nat) (e : Apt) : (s.setApt c i e).host = s.host := rfl
@[simp] theorem State.setApt_seqs (s : State) (c i : Nat) (e : Apt) : (s.setApt c i e).seqs = s.seqs := rfl
@[simp] theorem State.setApt_nextOp (s : State) (c i : Nat) (e : Apt) : (s.setApt c i e).nextOp = s.nextOp := rfl
@[simp] theorem State.setApt_str (s : State) (c i : Nat) (e : Apt) : (s.setApt c i e).str = s.str := rfl
@[simp] theorem State.setApt_net (s : State) (c i : Nat) (e : Apt) : (s.setApt c i e).net = s.net := rfl
@[simp] theorem State.setApt_tiles (s : State) (c i : Nat) (e : Apt) : (s.setApt c i e).tiles = s.tiles := rfl
@[simp] theorem State.setApt_ep (s : State) (c i : Nat) (e : Apt) : (s.setApt c i e).ep = s.ep := rfl
@[simp] theorem State.setApt_tab (s : State) (c i : Nat) (e : Apt) : (s.setApt c i e).tab = s.tab := rfl
@[simp] theorem State.setApt_cat (s : State) (c i : Nat) (e : Apt) : (s.setApt c i e).cat = s.cat := rfl
@[simp] theorem State.setApt_drbg (s : State) (c i : Nat) (e : Apt) : (s.setApt c i e).drbg = s.drbg := rfl
@[simp] theorem State.setApt_ev (s : State) (c i : Nat) (e : Apt) : (s.setApt c i e).ev = s.ev := rfl
@[simp] theorem State.setApt_fab (s : State) (c i : Nat) (e : Apt) : (s.setApt c i e).fab = s.fab := rfl
@[simp] theorem State.setApt_link (s : State) (c i : Nat) (e : Apt) : (s.setApt c i e).link = s.link := rfl
@[simp] theorem State.setApt_mem_cells (s : State) (c i : Nat) (e : Apt) : (s.setApt c i e).mem.cells = s.mem.cells := rfl
@[simp] theorem State.setApt_mem_poison (s : State) (c i : Nat) (e : Apt) : (s.setApt c i e).mem.poison = s.mem.poison := rfl
@[simp] theorem State.setApt_mem_ecc (s : State) (c i : Nat) (e : Apt) : (s.setApt c i e).mem.ecc = s.mem.ecc := rfl
@[simp] theorem State.setApt_mem_lpMib (s : State) (c i : Nat) (e : Apt) : (s.setApt c i e).mem.lpMib = s.mem.lpMib := rfl
@[simp] theorem State.setApt_mem_lpRate (s : State) (c i : Nat) (e : Apt) : (s.setApt c i e).mem.lpRate = s.mem.lpRate := rfl
@[simp] theorem State.setApt_mem_lpFail (s : State) (c i : Nat) (e : Apt) : (s.setApt c i e).mem.lpFail = s.mem.lpFail := rfl
@[simp] theorem State.setApt_mem_hbFail (s : State) (c i : Nat) (e : Apt) : (s.setApt c i e).mem.hbFail = s.mem.hbFail := rfl
@[simp] theorem State.setApt_mem_hbRepairs (s : State) (c i : Nat) (e : Apt) : (s.setApt c i e).mem.hbRepairs = s.mem.hbRepairs := rfl
@[simp] theorem State.setApt_mem_hbmLinear (s : State) (c i : Nat) (e : Apt) : (s.setApt c i e).mem.hbmLinear = s.mem.hbmLinear := rfl
@[simp] theorem State.setApt_mem_lpLinear (s : State) (c i : Nat) (e : Apt) : (s.setApt c i e).mem.lpLinear = s.mem.lpLinear := rfl
@[simp] theorem State.setApt_mem_lpFallback (s : State) (c i : Nat) (e : Apt) : (s.setApt c i e).mem.lpFallback = s.mem.lpFallback := rfl
@[simp] theorem State.setApt_mem_inlineEcc (s : State) (c i : Nat) (e : Apt) : (s.setApt c i e).mem.inlineEcc = s.mem.inlineEcc := rfl
@[simp] theorem State.setApt_mem_aptCtl (s : State) (c i : Nat) (e : Apt) : (s.setApt c i e).mem.aptCtl = s.mem.aptCtl := rfl
@[simp] theorem State.setApt_mem_scrubPos (s : State) (c i : Nat) (e : Apt) : (s.setApt c i e).mem.scrubPos = s.mem.scrubPos := rfl
@[simp] theorem State.setApt_mem_logLostRaised (s : State) (c i : Nat) (e : Apt) : (s.setApt c i e).mem.logLostRaised = s.mem.logLostRaised := rfl
@[simp] theorem State.setApt_mem_fabricWin (s : State) (c i : Nat) (e : Apt) : (s.setApt c i e).mem.fabricWin = s.mem.fabricWin := rfl
@[simp] theorem State.setApt_mem_redirect (s : State) (c i : Nat) (e : Apt) : (s.setApt c i e).mem.redirect = s.mem.redirect := rfl
@[simp] theorem State.setApt_mem_remoteRsv (s : State) (c i : Nat) (e : Apt) : (s.setApt c i e).mem.remoteRsv = s.mem.remoteRsv := rfl
@[simp] theorem State.setApt_captured (s : State) (c i : Nat) (e : Apt) : (s.setApt c i e).captured = s.captured := rfl
@[simp] theorem State.setApt_mem_lpRateMts (s : State) (c i : Nat) (e : Apt) : (s.setApt c i e).mem.lpRateMts = s.mem.lpRateMts := rfl
@[simp] theorem State.setApt_mem_lpHold (s : State) (c i : Nat) (e : Apt) : (s.setApt c i e).mem.lpHold = s.mem.lpHold := rfl

@[simp] theorem State.setChain_pending (s : State) (c : Nat) (x : Chain) : (s.setChain c x).pending = s.pending := rfl
@[simp] theorem State.setChain_out (s : State) (c : Nat) (x : Chain) : (s.setChain c x).out = s.out := rfl
@[simp] theorem State.setChain_freeCtr (s : State) (c : Nat) (x : Chain) : (s.setChain c x).freeCtr = s.freeCtr := rfl
@[simp] theorem State.setChain_timeNs (s : State) (c : Nat) (x : Chain) : (s.setChain c x).timeNs = s.timeNs := rfl
@[simp] theorem State.setChain_variant (s : State) (c : Nat) (x : Chain) : (s.setChain c x).variant = s.variant := rfl
@[simp] theorem State.setChain_fusesOk (s : State) (c : Nat) (x : Chain) : (s.setChain c x).fusesOk = s.fusesOk := rfl
@[simp] theorem State.setChain_dict (s : State) (c : Nat) (x : Chain) : (s.setChain c x).dict = s.dict := rfl
@[simp] theorem State.setChain_blocks (s : State) (c : Nat) (x : Chain) : (s.setChain c x).blocks = s.blocks := rfl
@[simp] theorem State.setChain_sup (s : State) (c : Nat) (x : Chain) : (s.setChain c x).sup = s.sup := rfl
@[simp] theorem State.setChain_ucbs (s : State) (c : Nat) (x : Chain) : (s.setChain c x).ucbs = s.ucbs := rfl
@[simp] theorem State.setChain_oap (s : State) (c : Nat) (x : Chain) : (s.setChain c x).oap = s.oap := rfl
@[simp] theorem State.setChain_agg (s : State) (c : Nat) (x : Chain) : (s.setChain c x).agg = s.agg := rfl
@[simp] theorem State.setChain_safety (s : State) (c : Nat) (x : Chain) : (s.setChain c x).safety = s.safety := rfl
@[simp] theorem State.setChain_cool (s : State) (c : Nat) (x : Chain) : (s.setChain c x).cool = s.cool := rfl
@[simp] theorem State.setChain_host (s : State) (c : Nat) (x : Chain) : (s.setChain c x).host = s.host := rfl
@[simp] theorem State.setChain_seqs (s : State) (c : Nat) (x : Chain) : (s.setChain c x).seqs = s.seqs := rfl
@[simp] theorem State.setChain_nextOp (s : State) (c : Nat) (x : Chain) : (s.setChain c x).nextOp = s.nextOp := rfl
@[simp] theorem State.setChain_str (s : State) (c : Nat) (x : Chain) : (s.setChain c x).str = s.str := rfl
@[simp] theorem State.setChain_net (s : State) (c : Nat) (x : Chain) : (s.setChain c x).net = s.net := rfl
@[simp] theorem State.setChain_mem (s : State) (c : Nat) (x : Chain) : (s.setChain c x).mem = s.mem := rfl
@[simp] theorem State.setChain_tiles (s : State) (c : Nat) (x : Chain) : (s.setChain c x).tiles = s.tiles := rfl
@[simp] theorem State.setChain_ep (s : State) (c : Nat) (x : Chain) : (s.setChain c x).ep = s.ep := rfl
@[simp] theorem State.setChain_tab (s : State) (c : Nat) (x : Chain) : (s.setChain c x).tab = s.tab := rfl
@[simp] theorem State.setChain_drbg (s : State) (c : Nat) (x : Chain) : (s.setChain c x).drbg = s.drbg := rfl
@[simp] theorem State.setChain_ev (s : State) (c : Nat) (x : Chain) : (s.setChain c x).ev = s.ev := rfl
@[simp] theorem State.setChain_fab (s : State) (c : Nat) (x : Chain) : (s.setChain c x).fab = s.fab := rfl
@[simp] theorem State.setChain_link (s : State) (c : Nat) (x : Chain) : (s.setChain c x).link = s.link := rfl
@[simp] theorem State.setChain_cat_status (s : State) (c : Nat) (x : Chain) : (s.setChain c x).cat.status = s.cat.status := rfl
@[simp] theorem State.setChain_cat_cats (s : State) (c : Nat) (x : Chain) : (s.setChain c x).cat.cats = s.cat.cats := rfl
@[simp] theorem State.setChain_cat_inject (s : State) (c : Nat) (x : Chain) : (s.setChain c x).cat.inject = s.cat.inject := rfl
@[simp] theorem State.setChain_captured (s : State) (c : Nat) (x : Chain) : (s.setChain c x).captured = s.captured := rfl

@[simp] theorem State.setEpoch_pending (s : State) (d : Nat) (x : EpochDom) : (s.setEpoch d x).pending = s.pending := rfl
@[simp] theorem State.setEpoch_out (s : State) (d : Nat) (x : EpochDom) : (s.setEpoch d x).out = s.out := rfl
@[simp] theorem State.setEpoch_freeCtr (s : State) (d : Nat) (x : EpochDom) : (s.setEpoch d x).freeCtr = s.freeCtr := rfl
@[simp] theorem State.setEpoch_timeNs (s : State) (d : Nat) (x : EpochDom) : (s.setEpoch d x).timeNs = s.timeNs := rfl
@[simp] theorem State.setEpoch_variant (s : State) (d : Nat) (x : EpochDom) : (s.setEpoch d x).variant = s.variant := rfl
@[simp] theorem State.setEpoch_fusesOk (s : State) (d : Nat) (x : EpochDom) : (s.setEpoch d x).fusesOk = s.fusesOk := rfl
@[simp] theorem State.setEpoch_dict (s : State) (d : Nat) (x : EpochDom) : (s.setEpoch d x).dict = s.dict := rfl
@[simp] theorem State.setEpoch_blocks (s : State) (d : Nat) (x : EpochDom) : (s.setEpoch d x).blocks = s.blocks := rfl
@[simp] theorem State.setEpoch_sup (s : State) (d : Nat) (x : EpochDom) : (s.setEpoch d x).sup = s.sup := rfl
@[simp] theorem State.setEpoch_ucbs (s : State) (d : Nat) (x : EpochDom) : (s.setEpoch d x).ucbs = s.ucbs := rfl
@[simp] theorem State.setEpoch_oap (s : State) (d : Nat) (x : EpochDom) : (s.setEpoch d x).oap = s.oap := rfl
@[simp] theorem State.setEpoch_agg (s : State) (d : Nat) (x : EpochDom) : (s.setEpoch d x).agg = s.agg := rfl
@[simp] theorem State.setEpoch_safety (s : State) (d : Nat) (x : EpochDom) : (s.setEpoch d x).safety = s.safety := rfl
@[simp] theorem State.setEpoch_cool (s : State) (d : Nat) (x : EpochDom) : (s.setEpoch d x).cool = s.cool := rfl
@[simp] theorem State.setEpoch_host (s : State) (d : Nat) (x : EpochDom) : (s.setEpoch d x).host = s.host := rfl
@[simp] theorem State.setEpoch_seqs (s : State) (d : Nat) (x : EpochDom) : (s.setEpoch d x).seqs = s.seqs := rfl
@[simp] theorem State.setEpoch_nextOp (s : State) (d : Nat) (x : EpochDom) : (s.setEpoch d x).nextOp = s.nextOp := rfl
@[simp] theorem State.setEpoch_str (s : State) (d : Nat) (x : EpochDom) : (s.setEpoch d x).str = s.str := rfl
@[simp] theorem State.setEpoch_net (s : State) (d : Nat) (x : EpochDom) : (s.setEpoch d x).net = s.net := rfl
@[simp] theorem State.setEpoch_mem (s : State) (d : Nat) (x : EpochDom) : (s.setEpoch d x).mem = s.mem := rfl
@[simp] theorem State.setEpoch_tiles (s : State) (d : Nat) (x : EpochDom) : (s.setEpoch d x).tiles = s.tiles := rfl
@[simp] theorem State.setEpoch_tab (s : State) (d : Nat) (x : EpochDom) : (s.setEpoch d x).tab = s.tab := rfl
@[simp] theorem State.setEpoch_cat (s : State) (d : Nat) (x : EpochDom) : (s.setEpoch d x).cat = s.cat := rfl
@[simp] theorem State.setEpoch_drbg (s : State) (d : Nat) (x : EpochDom) : (s.setEpoch d x).drbg = s.drbg := rfl
@[simp] theorem State.setEpoch_ev (s : State) (d : Nat) (x : EpochDom) : (s.setEpoch d x).ev = s.ev := rfl
@[simp] theorem State.setEpoch_fab (s : State) (d : Nat) (x : EpochDom) : (s.setEpoch d x).fab = s.fab := rfl
@[simp] theorem State.setEpoch_link (s : State) (d : Nat) (x : EpochDom) : (s.setEpoch d x).link = s.link := rfl
@[simp] theorem State.setEpoch_ep_outLow (s : State) (d : Nat) (x : EpochDom) : (s.setEpoch d x).ep.outLow = s.ep.outLow := rfl
@[simp] theorem State.setEpoch_ep_cfgw (s : State) (d : Nat) (x : EpochDom) : (s.setEpoch d x).ep.cfgw = s.ep.cfgw := rfl
@[simp] theorem State.setEpoch_ep_moves (s : State) (d : Nat) (x : EpochDom) : (s.setEpoch d x).ep.moves = s.ep.moves := rfl
@[simp] theorem State.setEpoch_captured (s : State) (d : Nat) (x : EpochDom) : (s.setEpoch d x).captured = s.captured := rfl

@[simp] theorem State.setFab_pending (s : State) (f : Fabric) : (s.setFab f).pending = s.pending := rfl
@[simp] theorem State.setFab_out (s : State) (f : Fabric) : (s.setFab f).out = s.out := rfl
@[simp] theorem State.setFab_freeCtr (s : State) (f : Fabric) : (s.setFab f).freeCtr = s.freeCtr := rfl
@[simp] theorem State.setFab_timeNs (s : State) (f : Fabric) : (s.setFab f).timeNs = s.timeNs := rfl
@[simp] theorem State.setFab_variant (s : State) (f : Fabric) : (s.setFab f).variant = s.variant := rfl
@[simp] theorem State.setFab_fusesOk (s : State) (f : Fabric) : (s.setFab f).fusesOk = s.fusesOk := rfl
@[simp] theorem State.setFab_dict (s : State) (f : Fabric) : (s.setFab f).dict = s.dict := rfl
@[simp] theorem State.setFab_blocks (s : State) (f : Fabric) : (s.setFab f).blocks = s.blocks := rfl
@[simp] theorem State.setFab_sup (s : State) (f : Fabric) : (s.setFab f).sup = s.sup := rfl
@[simp] theorem State.setFab_ucbs (s : State) (f : Fabric) : (s.setFab f).ucbs = s.ucbs := rfl
@[simp] theorem State.setFab_oap (s : State) (f : Fabric) : (s.setFab f).oap = s.oap := rfl
@[simp] theorem State.setFab_agg (s : State) (f : Fabric) : (s.setFab f).agg = s.agg := rfl
@[simp] theorem State.setFab_safety (s : State) (f : Fabric) : (s.setFab f).safety = s.safety := rfl
@[simp] theorem State.setFab_cool (s : State) (f : Fabric) : (s.setFab f).cool = s.cool := rfl
@[simp] theorem State.setFab_host (s : State) (f : Fabric) : (s.setFab f).host = s.host := rfl
@[simp] theorem State.setFab_seqs (s : State) (f : Fabric) : (s.setFab f).seqs = s.seqs := rfl
@[simp] theorem State.setFab_nextOp (s : State) (f : Fabric) : (s.setFab f).nextOp = s.nextOp := rfl
@[simp] theorem State.setFab_str (s : State) (f : Fabric) : (s.setFab f).str = s.str := rfl
@[simp] theorem State.setFab_net (s : State) (f : Fabric) : (s.setFab f).net = s.net := rfl
@[simp] theorem State.setFab_mem (s : State) (f : Fabric) : (s.setFab f).mem = s.mem := rfl
@[simp] theorem State.setFab_tiles (s : State) (f : Fabric) : (s.setFab f).tiles = s.tiles := rfl
@[simp] theorem State.setFab_ep (s : State) (f : Fabric) : (s.setFab f).ep = s.ep := rfl
@[simp] theorem State.setFab_tab (s : State) (f : Fabric) : (s.setFab f).tab = s.tab := rfl
@[simp] theorem State.setFab_cat (s : State) (f : Fabric) : (s.setFab f).cat = s.cat := rfl
@[simp] theorem State.setFab_drbg (s : State) (f : Fabric) : (s.setFab f).drbg = s.drbg := rfl
@[simp] theorem State.setFab_ev (s : State) (f : Fabric) : (s.setFab f).ev = s.ev := rfl
@[simp] theorem State.setFab_link (s : State) (f : Fabric) : (s.setFab f).link = s.link := rfl
@[simp] theorem State.setFab_captured (s : State) (f : Fabric) : (s.setFab f).captured = s.captured := rfl

@[simp] theorem State.setRegion_pending (s : State) (r : Nat) (x : Region_) : (s.setRegion r x).pending = s.pending := rfl
@[simp] theorem State.setRegion_out (s : State) (r : Nat) (x : Region_) : (s.setRegion r x).out = s.out := rfl
@[simp] theorem State.setRegion_freeCtr (s : State) (r : Nat) (x : Region_) : (s.setRegion r x).freeCtr = s.freeCtr := rfl
@[simp] theorem State.setRegion_timeNs (s : State) (r : Nat) (x : Region_) : (s.setRegion r x).timeNs = s.timeNs := rfl
@[simp] theorem State.setRegion_variant (s : State) (r : Nat) (x : Region_) : (s.setRegion r x).variant = s.variant := rfl
@[simp] theorem State.setRegion_fusesOk (s : State) (r : Nat) (x : Region_) : (s.setRegion r x).fusesOk = s.fusesOk := rfl
@[simp] theorem State.setRegion_dict (s : State) (r : Nat) (x : Region_) : (s.setRegion r x).dict = s.dict := rfl
@[simp] theorem State.setRegion_blocks (s : State) (r : Nat) (x : Region_) : (s.setRegion r x).blocks = s.blocks := rfl
@[simp] theorem State.setRegion_sup (s : State) (r : Nat) (x : Region_) : (s.setRegion r x).sup = s.sup := rfl
@[simp] theorem State.setRegion_ucbs (s : State) (r : Nat) (x : Region_) : (s.setRegion r x).ucbs = s.ucbs := rfl
@[simp] theorem State.setRegion_oap (s : State) (r : Nat) (x : Region_) : (s.setRegion r x).oap = s.oap := rfl
@[simp] theorem State.setRegion_agg (s : State) (r : Nat) (x : Region_) : (s.setRegion r x).agg = s.agg := rfl
@[simp] theorem State.setRegion_safety (s : State) (r : Nat) (x : Region_) : (s.setRegion r x).safety = s.safety := rfl
@[simp] theorem State.setRegion_cool (s : State) (r : Nat) (x : Region_) : (s.setRegion r x).cool = s.cool := rfl
@[simp] theorem State.setRegion_host (s : State) (r : Nat) (x : Region_) : (s.setRegion r x).host = s.host := rfl
@[simp] theorem State.setRegion_seqs (s : State) (r : Nat) (x : Region_) : (s.setRegion r x).seqs = s.seqs := rfl
@[simp] theorem State.setRegion_nextOp (s : State) (r : Nat) (x : Region_) : (s.setRegion r x).nextOp = s.nextOp := rfl
@[simp] theorem State.setRegion_str (s : State) (r : Nat) (x : Region_) : (s.setRegion r x).str = s.str := rfl
@[simp] theorem State.setRegion_net (s : State) (r : Nat) (x : Region_) : (s.setRegion r x).net = s.net := rfl
@[simp] theorem State.setRegion_mem (s : State) (r : Nat) (x : Region_) : (s.setRegion r x).mem = s.mem := rfl
@[simp] theorem State.setRegion_tiles (s : State) (r : Nat) (x : Region_) : (s.setRegion r x).tiles = s.tiles := rfl
@[simp] theorem State.setRegion_ep (s : State) (r : Nat) (x : Region_) : (s.setRegion r x).ep = s.ep := rfl
@[simp] theorem State.setRegion_tab (s : State) (r : Nat) (x : Region_) : (s.setRegion r x).tab = s.tab := rfl
@[simp] theorem State.setRegion_cat (s : State) (r : Nat) (x : Region_) : (s.setRegion r x).cat = s.cat := rfl
@[simp] theorem State.setRegion_drbg (s : State) (r : Nat) (x : Region_) : (s.setRegion r x).drbg = s.drbg := rfl
@[simp] theorem State.setRegion_ev (s : State) (r : Nat) (x : Region_) : (s.setRegion r x).ev = s.ev := rfl
@[simp] theorem State.setRegion_link (s : State) (r : Nat) (x : Region_) : (s.setRegion r x).link = s.link := rfl
@[simp] theorem State.setRegion_fab_ports (s : State) (r : Nat) (x : Region_) : (s.setRegion r x).fab.ports = s.fab.ports := rfl
@[simp] theorem State.setRegion_fab_load (s : State) (r : Nat) (x : Region_) : (s.setRegion r x).fab.load = s.fab.load := rfl
@[simp] theorem State.setRegion_fab_cfgAddr (s : State) (r : Nat) (x : Region_) : (s.setRegion r x).fab.cfgAddr = s.fab.cfgAddr := rfl
@[simp] theorem State.setRegion_fab_cfgLen (s : State) (r : Nat) (x : Region_) : (s.setRegion r x).fab.cfgLen = s.fab.cfgLen := rfl
@[simp] theorem State.setRegion_fab_lastMask (s : State) (r : Nat) (x : Region_) : (s.setRegion r x).fab.lastMask = s.fab.lastMask := rfl
@[simp] theorem State.setRegion_fab_regStatus (s : State) (r : Nat) (x : Region_) : (s.setRegion r x).fab.regStatus = s.fab.regStatus := rfl
@[simp] theorem State.setRegion_fab_scrubPos (s : State) (r : Nat) (x : Region_) : (s.setRegion r x).fab.scrubPos = s.fab.scrubPos := rfl
@[simp] theorem State.setRegion_fab_waitHost (s : State) (r : Nat) (x : Region_) : (s.setRegion r x).fab.waitHost = s.fab.waitHost := rfl
@[simp] theorem State.setRegion_captured (s : State) (r : Nat) (x : Region_) : (s.setRegion r x).captured = s.captured := rfl
@[simp] theorem State.setRegion_fab_heldData (s : State) (r : Nat) (x : Region_) : (s.setRegion r x).fab.heldData = s.fab.heldData := rfl

@[simp] theorem State.setFport_pending (s : State) (n : Nat) (x : Fport) : (s.setFport n x).pending = s.pending := rfl
@[simp] theorem State.setFport_out (s : State) (n : Nat) (x : Fport) : (s.setFport n x).out = s.out := rfl
@[simp] theorem State.setFport_freeCtr (s : State) (n : Nat) (x : Fport) : (s.setFport n x).freeCtr = s.freeCtr := rfl
@[simp] theorem State.setFport_timeNs (s : State) (n : Nat) (x : Fport) : (s.setFport n x).timeNs = s.timeNs := rfl
@[simp] theorem State.setFport_variant (s : State) (n : Nat) (x : Fport) : (s.setFport n x).variant = s.variant := rfl
@[simp] theorem State.setFport_fusesOk (s : State) (n : Nat) (x : Fport) : (s.setFport n x).fusesOk = s.fusesOk := rfl
@[simp] theorem State.setFport_dict (s : State) (n : Nat) (x : Fport) : (s.setFport n x).dict = s.dict := rfl
@[simp] theorem State.setFport_blocks (s : State) (n : Nat) (x : Fport) : (s.setFport n x).blocks = s.blocks := rfl
@[simp] theorem State.setFport_sup (s : State) (n : Nat) (x : Fport) : (s.setFport n x).sup = s.sup := rfl
@[simp] theorem State.setFport_ucbs (s : State) (n : Nat) (x : Fport) : (s.setFport n x).ucbs = s.ucbs := rfl
@[simp] theorem State.setFport_oap (s : State) (n : Nat) (x : Fport) : (s.setFport n x).oap = s.oap := rfl
@[simp] theorem State.setFport_agg (s : State) (n : Nat) (x : Fport) : (s.setFport n x).agg = s.agg := rfl
@[simp] theorem State.setFport_safety (s : State) (n : Nat) (x : Fport) : (s.setFport n x).safety = s.safety := rfl
@[simp] theorem State.setFport_cool (s : State) (n : Nat) (x : Fport) : (s.setFport n x).cool = s.cool := rfl
@[simp] theorem State.setFport_host (s : State) (n : Nat) (x : Fport) : (s.setFport n x).host = s.host := rfl
@[simp] theorem State.setFport_seqs (s : State) (n : Nat) (x : Fport) : (s.setFport n x).seqs = s.seqs := rfl
@[simp] theorem State.setFport_nextOp (s : State) (n : Nat) (x : Fport) : (s.setFport n x).nextOp = s.nextOp := rfl
@[simp] theorem State.setFport_str (s : State) (n : Nat) (x : Fport) : (s.setFport n x).str = s.str := rfl
@[simp] theorem State.setFport_net (s : State) (n : Nat) (x : Fport) : (s.setFport n x).net = s.net := rfl
@[simp] theorem State.setFport_mem (s : State) (n : Nat) (x : Fport) : (s.setFport n x).mem = s.mem := rfl
@[simp] theorem State.setFport_tiles (s : State) (n : Nat) (x : Fport) : (s.setFport n x).tiles = s.tiles := rfl
@[simp] theorem State.setFport_ep (s : State) (n : Nat) (x : Fport) : (s.setFport n x).ep = s.ep := rfl
@[simp] theorem State.setFport_tab (s : State) (n : Nat) (x : Fport) : (s.setFport n x).tab = s.tab := rfl
@[simp] theorem State.setFport_cat (s : State) (n : Nat) (x : Fport) : (s.setFport n x).cat = s.cat := rfl
@[simp] theorem State.setFport_drbg (s : State) (n : Nat) (x : Fport) : (s.setFport n x).drbg = s.drbg := rfl
@[simp] theorem State.setFport_ev (s : State) (n : Nat) (x : Fport) : (s.setFport n x).ev = s.ev := rfl
@[simp] theorem State.setFport_link (s : State) (n : Nat) (x : Fport) : (s.setFport n x).link = s.link := rfl
@[simp] theorem State.setFport_fab_regions (s : State) (n : Nat) (x : Fport) : (s.setFport n x).fab.regions = s.fab.regions := rfl
@[simp] theorem State.setFport_fab_load (s : State) (n : Nat) (x : Fport) : (s.setFport n x).fab.load = s.fab.load := rfl
@[simp] theorem State.setFport_fab_cfgAddr (s : State) (n : Nat) (x : Fport) : (s.setFport n x).fab.cfgAddr = s.fab.cfgAddr := rfl
@[simp] theorem State.setFport_fab_cfgLen (s : State) (n : Nat) (x : Fport) : (s.setFport n x).fab.cfgLen = s.fab.cfgLen := rfl
@[simp] theorem State.setFport_fab_lastMask (s : State) (n : Nat) (x : Fport) : (s.setFport n x).fab.lastMask = s.fab.lastMask := rfl
@[simp] theorem State.setFport_fab_regStatus (s : State) (n : Nat) (x : Fport) : (s.setFport n x).fab.regStatus = s.fab.regStatus := rfl
@[simp] theorem State.setFport_fab_scrubPos (s : State) (n : Nat) (x : Fport) : (s.setFport n x).fab.scrubPos = s.fab.scrubPos := rfl
@[simp] theorem State.setFport_fab_waitHost (s : State) (n : Nat) (x : Fport) : (s.setFport n x).fab.waitHost = s.fab.waitHost := rfl
@[simp] theorem State.setFport_captured (s : State) (n : Nat) (x : Fport) : (s.setFport n x).captured = s.captured := rfl
@[simp] theorem State.setFport_fab_heldData (s : State) (n : Nat) (x : Fport) : (s.setFport n x).fab.heldData = s.fab.heldData := rfl

@[simp] theorem State.setLoad_pending (s : State) (l : Load) : (s.setLoad l).pending = s.pending := rfl
@[simp] theorem State.setLoad_out (s : State) (l : Load) : (s.setLoad l).out = s.out := rfl
@[simp] theorem State.setLoad_freeCtr (s : State) (l : Load) : (s.setLoad l).freeCtr = s.freeCtr := rfl
@[simp] theorem State.setLoad_timeNs (s : State) (l : Load) : (s.setLoad l).timeNs = s.timeNs := rfl
@[simp] theorem State.setLoad_variant (s : State) (l : Load) : (s.setLoad l).variant = s.variant := rfl
@[simp] theorem State.setLoad_fusesOk (s : State) (l : Load) : (s.setLoad l).fusesOk = s.fusesOk := rfl
@[simp] theorem State.setLoad_dict (s : State) (l : Load) : (s.setLoad l).dict = s.dict := rfl
@[simp] theorem State.setLoad_blocks (s : State) (l : Load) : (s.setLoad l).blocks = s.blocks := rfl
@[simp] theorem State.setLoad_sup (s : State) (l : Load) : (s.setLoad l).sup = s.sup := rfl
@[simp] theorem State.setLoad_ucbs (s : State) (l : Load) : (s.setLoad l).ucbs = s.ucbs := rfl
@[simp] theorem State.setLoad_oap (s : State) (l : Load) : (s.setLoad l).oap = s.oap := rfl
@[simp] theorem State.setLoad_agg (s : State) (l : Load) : (s.setLoad l).agg = s.agg := rfl
@[simp] theorem State.setLoad_safety (s : State) (l : Load) : (s.setLoad l).safety = s.safety := rfl
@[simp] theorem State.setLoad_cool (s : State) (l : Load) : (s.setLoad l).cool = s.cool := rfl
@[simp] theorem State.setLoad_host (s : State) (l : Load) : (s.setLoad l).host = s.host := rfl
@[simp] theorem State.setLoad_seqs (s : State) (l : Load) : (s.setLoad l).seqs = s.seqs := rfl
@[simp] theorem State.setLoad_nextOp (s : State) (l : Load) : (s.setLoad l).nextOp = s.nextOp := rfl
@[simp] theorem State.setLoad_str (s : State) (l : Load) : (s.setLoad l).str = s.str := rfl
@[simp] theorem State.setLoad_net (s : State) (l : Load) : (s.setLoad l).net = s.net := rfl
@[simp] theorem State.setLoad_mem (s : State) (l : Load) : (s.setLoad l).mem = s.mem := rfl
@[simp] theorem State.setLoad_tiles (s : State) (l : Load) : (s.setLoad l).tiles = s.tiles := rfl
@[simp] theorem State.setLoad_ep (s : State) (l : Load) : (s.setLoad l).ep = s.ep := rfl
@[simp] theorem State.setLoad_tab (s : State) (l : Load) : (s.setLoad l).tab = s.tab := rfl
@[simp] theorem State.setLoad_cat (s : State) (l : Load) : (s.setLoad l).cat = s.cat := rfl
@[simp] theorem State.setLoad_drbg (s : State) (l : Load) : (s.setLoad l).drbg = s.drbg := rfl
@[simp] theorem State.setLoad_ev (s : State) (l : Load) : (s.setLoad l).ev = s.ev := rfl
@[simp] theorem State.setLoad_link (s : State) (l : Load) : (s.setLoad l).link = s.link := rfl
@[simp] theorem State.setLoad_fab_regions (s : State) (l : Load) : (s.setLoad l).fab.regions = s.fab.regions := rfl
@[simp] theorem State.setLoad_fab_ports (s : State) (l : Load) : (s.setLoad l).fab.ports = s.fab.ports := rfl
@[simp] theorem State.setLoad_fab_cfgAddr (s : State) (l : Load) : (s.setLoad l).fab.cfgAddr = s.fab.cfgAddr := rfl
@[simp] theorem State.setLoad_fab_cfgLen (s : State) (l : Load) : (s.setLoad l).fab.cfgLen = s.fab.cfgLen := rfl
@[simp] theorem State.setLoad_fab_lastMask (s : State) (l : Load) : (s.setLoad l).fab.lastMask = s.fab.lastMask := rfl
@[simp] theorem State.setLoad_fab_regStatus (s : State) (l : Load) : (s.setLoad l).fab.regStatus = s.fab.regStatus := rfl
@[simp] theorem State.setLoad_fab_scrubPos (s : State) (l : Load) : (s.setLoad l).fab.scrubPos = s.fab.scrubPos := rfl
@[simp] theorem State.setLoad_fab_waitHost (s : State) (l : Load) : (s.setLoad l).fab.waitHost = s.fab.waitHost := rfl
@[simp] theorem State.setLoad_captured (s : State) (l : Load) : (s.setLoad l).captured = s.captured := rfl
@[simp] theorem State.setLoad_fab_heldData (s : State) (l : Load) : (s.setLoad l).fab.heldData = s.fab.heldData := rfl

@[simp] theorem State.clearBuf_pending (s : State) (ag : Agent) (j : Nat) : (s.clearBuf ag j).pending = s.pending := rfl
@[simp] theorem State.clearBuf_out (s : State) (ag : Agent) (j : Nat) : (s.clearBuf ag j).out = s.out := rfl
@[simp] theorem State.clearBuf_freeCtr (s : State) (ag : Agent) (j : Nat) : (s.clearBuf ag j).freeCtr = s.freeCtr := rfl
@[simp] theorem State.clearBuf_timeNs (s : State) (ag : Agent) (j : Nat) : (s.clearBuf ag j).timeNs = s.timeNs := rfl
@[simp] theorem State.clearBuf_variant (s : State) (ag : Agent) (j : Nat) : (s.clearBuf ag j).variant = s.variant := rfl
@[simp] theorem State.clearBuf_fusesOk (s : State) (ag : Agent) (j : Nat) : (s.clearBuf ag j).fusesOk = s.fusesOk := rfl
@[simp] theorem State.clearBuf_dict (s : State) (ag : Agent) (j : Nat) : (s.clearBuf ag j).dict = s.dict := rfl
@[simp] theorem State.clearBuf_blocks (s : State) (ag : Agent) (j : Nat) : (s.clearBuf ag j).blocks = s.blocks := rfl
@[simp] theorem State.clearBuf_sup (s : State) (ag : Agent) (j : Nat) : (s.clearBuf ag j).sup = s.sup := rfl
@[simp] theorem State.clearBuf_ucbs (s : State) (ag : Agent) (j : Nat) : (s.clearBuf ag j).ucbs = s.ucbs := rfl
@[simp] theorem State.clearBuf_oap (s : State) (ag : Agent) (j : Nat) : (s.clearBuf ag j).oap = s.oap := rfl
@[simp] theorem State.clearBuf_agg (s : State) (ag : Agent) (j : Nat) : (s.clearBuf ag j).agg = s.agg := rfl
@[simp] theorem State.clearBuf_safety (s : State) (ag : Agent) (j : Nat) : (s.clearBuf ag j).safety = s.safety := rfl
@[simp] theorem State.clearBuf_cool (s : State) (ag : Agent) (j : Nat) : (s.clearBuf ag j).cool = s.cool := rfl
@[simp] theorem State.clearBuf_host (s : State) (ag : Agent) (j : Nat) : (s.clearBuf ag j).host = s.host := rfl
@[simp] theorem State.clearBuf_seqs (s : State) (ag : Agent) (j : Nat) : (s.clearBuf ag j).seqs = s.seqs := rfl
@[simp] theorem State.clearBuf_nextOp (s : State) (ag : Agent) (j : Nat) : (s.clearBuf ag j).nextOp = s.nextOp := rfl
@[simp] theorem State.clearBuf_str (s : State) (ag : Agent) (j : Nat) : (s.clearBuf ag j).str = s.str := rfl
@[simp] theorem State.clearBuf_mem (s : State) (ag : Agent) (j : Nat) : (s.clearBuf ag j).mem = s.mem := rfl
@[simp] theorem State.clearBuf_tiles (s : State) (ag : Agent) (j : Nat) : (s.clearBuf ag j).tiles = s.tiles := rfl
@[simp] theorem State.clearBuf_ep (s : State) (ag : Agent) (j : Nat) : (s.clearBuf ag j).ep = s.ep := rfl
@[simp] theorem State.clearBuf_tab (s : State) (ag : Agent) (j : Nat) : (s.clearBuf ag j).tab = s.tab := rfl
@[simp] theorem State.clearBuf_cat (s : State) (ag : Agent) (j : Nat) : (s.clearBuf ag j).cat = s.cat := rfl
@[simp] theorem State.clearBuf_drbg (s : State) (ag : Agent) (j : Nat) : (s.clearBuf ag j).drbg = s.drbg := rfl
@[simp] theorem State.clearBuf_ev (s : State) (ag : Agent) (j : Nat) : (s.clearBuf ag j).ev = s.ev := rfl
@[simp] theorem State.clearBuf_fab (s : State) (ag : Agent) (j : Nat) : (s.clearBuf ag j).fab = s.fab := rfl
@[simp] theorem State.clearBuf_link (s : State) (ag : Agent) (j : Nat) : (s.clearBuf ag j).link = s.link := rfl
@[simp] theorem State.clearBuf_net_packets (s : State) (ag : Agent) (j : Nat) : (s.clearBuf ag j).net.packets = s.net.packets := rfl
@[simp] theorem State.clearBuf_net_nextId (s : State) (ag : Agent) (j : Nat) : (s.clearBuf ag j).net.nextId = s.net.nextId := rfl
@[simp] theorem State.clearBuf_net_nis (s : State) (ag : Agent) (j : Nat) : (s.clearBuf ag j).net.nis = s.net.nis := rfl
@[simp] theorem State.clearBuf_net_domains (s : State) (ag : Agent) (j : Nat) : (s.clearBuf ag j).net.domains = s.net.domains := rfl
@[simp] theorem State.clearBuf_net_stats (s : State) (ag : Agent) (j : Nat) : (s.clearBuf ag j).net.stats = s.net.stats := rfl
@[simp] theorem State.clearBuf_net_snap (s : State) (ag : Agent) (j : Nat) : (s.clearBuf ag j).net.snap = s.net.snap := rfl
@[simp] theorem State.clearBuf_net_snapTimeNs (s : State) (ag : Agent) (j : Nat) : (s.clearBuf ag j).net.snapTimeNs = s.net.snapTimeNs := rfl
@[simp] theorem State.clearBuf_net_copying (s : State) (ag : Agent) (j : Nat) : (s.clearBuf ag j).net.copying = s.net.copying := rfl
@[simp] theorem State.clearBuf_net_snapPending (s : State) (ag : Agent) (j : Nat) : (s.clearBuf ag j).net.snapPending = s.net.snapPending := rfl
@[simp] theorem State.clearBuf_captured (s : State) (ag : Agent) (j : Nat) : (s.clearBuf ag j).captured = s.captured := rfl
@[simp] theorem State.clearBuf_net_arbs (s : State) (ag : Agent) (j : Nat) : (s.clearBuf ag j).net.arbs = s.net.arbs := rfl

@[simp] theorem State.setJess_pending (s : State) (p : Nat) (j : Jess) : (s.setJess p j).pending = s.pending := rfl
@[simp] theorem State.setJess_out (s : State) (p : Nat) (j : Jess) : (s.setJess p j).out = s.out := rfl
@[simp] theorem State.setJess_freeCtr (s : State) (p : Nat) (j : Jess) : (s.setJess p j).freeCtr = s.freeCtr := rfl
@[simp] theorem State.setJess_timeNs (s : State) (p : Nat) (j : Jess) : (s.setJess p j).timeNs = s.timeNs := rfl
@[simp] theorem State.setJess_variant (s : State) (p : Nat) (j : Jess) : (s.setJess p j).variant = s.variant := rfl
@[simp] theorem State.setJess_fusesOk (s : State) (p : Nat) (j : Jess) : (s.setJess p j).fusesOk = s.fusesOk := rfl
@[simp] theorem State.setJess_dict (s : State) (p : Nat) (j : Jess) : (s.setJess p j).dict = s.dict := rfl
@[simp] theorem State.setJess_blocks (s : State) (p : Nat) (j : Jess) : (s.setJess p j).blocks = s.blocks := rfl
@[simp] theorem State.setJess_sup (s : State) (p : Nat) (j : Jess) : (s.setJess p j).sup = s.sup := rfl
@[simp] theorem State.setJess_ucbs (s : State) (p : Nat) (j : Jess) : (s.setJess p j).ucbs = s.ucbs := rfl
@[simp] theorem State.setJess_oap (s : State) (p : Nat) (j : Jess) : (s.setJess p j).oap = s.oap := rfl
@[simp] theorem State.setJess_agg (s : State) (p : Nat) (j : Jess) : (s.setJess p j).agg = s.agg := rfl
@[simp] theorem State.setJess_safety (s : State) (p : Nat) (j : Jess) : (s.setJess p j).safety = s.safety := rfl
@[simp] theorem State.setJess_cool (s : State) (p : Nat) (j : Jess) : (s.setJess p j).cool = s.cool := rfl
@[simp] theorem State.setJess_host (s : State) (p : Nat) (j : Jess) : (s.setJess p j).host = s.host := rfl
@[simp] theorem State.setJess_seqs (s : State) (p : Nat) (j : Jess) : (s.setJess p j).seqs = s.seqs := rfl
@[simp] theorem State.setJess_nextOp (s : State) (p : Nat) (j : Jess) : (s.setJess p j).nextOp = s.nextOp := rfl
@[simp] theorem State.setJess_net (s : State) (p : Nat) (j : Jess) : (s.setJess p j).net = s.net := rfl
@[simp] theorem State.setJess_mem (s : State) (p : Nat) (j : Jess) : (s.setJess p j).mem = s.mem := rfl
@[simp] theorem State.setJess_tiles (s : State) (p : Nat) (j : Jess) : (s.setJess p j).tiles = s.tiles := rfl
@[simp] theorem State.setJess_ep (s : State) (p : Nat) (j : Jess) : (s.setJess p j).ep = s.ep := rfl
@[simp] theorem State.setJess_tab (s : State) (p : Nat) (j : Jess) : (s.setJess p j).tab = s.tab := rfl
@[simp] theorem State.setJess_cat (s : State) (p : Nat) (j : Jess) : (s.setJess p j).cat = s.cat := rfl
@[simp] theorem State.setJess_drbg (s : State) (p : Nat) (j : Jess) : (s.setJess p j).drbg = s.drbg := rfl
@[simp] theorem State.setJess_ev (s : State) (p : Nat) (j : Jess) : (s.setJess p j).ev = s.ev := rfl
@[simp] theorem State.setJess_fab (s : State) (p : Nat) (j : Jess) : (s.setJess p j).fab = s.fab := rfl
@[simp] theorem State.setJess_link (s : State) (p : Nat) (j : Jess) : (s.setJess p j).link = s.link := rfl
@[simp] theorem State.setJess_str_engines (s : State) (p : Nat) (j : Jess) : (s.setJess p j).str.engines = s.str.engines := rfl
@[simp] theorem State.setJess_str_waiters (s : State) (p : Nat) (j : Jess) : (s.setJess p j).str.waiters = s.str.waiters := rfl
@[simp] theorem State.setJess_str_pelletNext (s : State) (p : Nat) (j : Jess) : (s.setJess p j).str.pelletNext = s.str.pelletNext := rfl
@[simp] theorem State.setJess_str_stallSnap (s : State) (p : Nat) (j : Jess) : (s.setJess p j).str.stallSnap = s.str.stallSnap := rfl
@[simp] theorem State.setJess_captured (s : State) (p : Nat) (j : Jess) : (s.setJess p j).captured = s.captured := rfl

@[simp] theorem State.dropWaiter_pending (s : State) (w : Waiter) : (s.dropWaiter w).pending = s.pending := rfl
@[simp] theorem State.dropWaiter_out (s : State) (w : Waiter) : (s.dropWaiter w).out = s.out := rfl
@[simp] theorem State.dropWaiter_freeCtr (s : State) (w : Waiter) : (s.dropWaiter w).freeCtr = s.freeCtr := rfl
@[simp] theorem State.dropWaiter_timeNs (s : State) (w : Waiter) : (s.dropWaiter w).timeNs = s.timeNs := rfl
@[simp] theorem State.dropWaiter_variant (s : State) (w : Waiter) : (s.dropWaiter w).variant = s.variant := rfl
@[simp] theorem State.dropWaiter_fusesOk (s : State) (w : Waiter) : (s.dropWaiter w).fusesOk = s.fusesOk := rfl
@[simp] theorem State.dropWaiter_dict (s : State) (w : Waiter) : (s.dropWaiter w).dict = s.dict := rfl
@[simp] theorem State.dropWaiter_blocks (s : State) (w : Waiter) : (s.dropWaiter w).blocks = s.blocks := rfl
@[simp] theorem State.dropWaiter_sup (s : State) (w : Waiter) : (s.dropWaiter w).sup = s.sup := rfl
@[simp] theorem State.dropWaiter_ucbs (s : State) (w : Waiter) : (s.dropWaiter w).ucbs = s.ucbs := rfl
@[simp] theorem State.dropWaiter_oap (s : State) (w : Waiter) : (s.dropWaiter w).oap = s.oap := rfl
@[simp] theorem State.dropWaiter_agg (s : State) (w : Waiter) : (s.dropWaiter w).agg = s.agg := rfl
@[simp] theorem State.dropWaiter_safety (s : State) (w : Waiter) : (s.dropWaiter w).safety = s.safety := rfl
@[simp] theorem State.dropWaiter_cool (s : State) (w : Waiter) : (s.dropWaiter w).cool = s.cool := rfl
@[simp] theorem State.dropWaiter_host (s : State) (w : Waiter) : (s.dropWaiter w).host = s.host := rfl
@[simp] theorem State.dropWaiter_seqs (s : State) (w : Waiter) : (s.dropWaiter w).seqs = s.seqs := rfl
@[simp] theorem State.dropWaiter_nextOp (s : State) (w : Waiter) : (s.dropWaiter w).nextOp = s.nextOp := rfl
@[simp] theorem State.dropWaiter_net (s : State) (w : Waiter) : (s.dropWaiter w).net = s.net := rfl
@[simp] theorem State.dropWaiter_mem (s : State) (w : Waiter) : (s.dropWaiter w).mem = s.mem := rfl
@[simp] theorem State.dropWaiter_tiles (s : State) (w : Waiter) : (s.dropWaiter w).tiles = s.tiles := rfl
@[simp] theorem State.dropWaiter_ep (s : State) (w : Waiter) : (s.dropWaiter w).ep = s.ep := rfl
@[simp] theorem State.dropWaiter_tab (s : State) (w : Waiter) : (s.dropWaiter w).tab = s.tab := rfl
@[simp] theorem State.dropWaiter_cat (s : State) (w : Waiter) : (s.dropWaiter w).cat = s.cat := rfl
@[simp] theorem State.dropWaiter_drbg (s : State) (w : Waiter) : (s.dropWaiter w).drbg = s.drbg := rfl
@[simp] theorem State.dropWaiter_ev (s : State) (w : Waiter) : (s.dropWaiter w).ev = s.ev := rfl
@[simp] theorem State.dropWaiter_fab (s : State) (w : Waiter) : (s.dropWaiter w).fab = s.fab := rfl
@[simp] theorem State.dropWaiter_link (s : State) (w : Waiter) : (s.dropWaiter w).link = s.link := rfl
@[simp] theorem State.dropWaiter_str_engines (s : State) (w : Waiter) : (s.dropWaiter w).str.engines = s.str.engines := rfl
@[simp] theorem State.dropWaiter_str_jess (s : State) (w : Waiter) : (s.dropWaiter w).str.jess = s.str.jess := rfl
@[simp] theorem State.dropWaiter_str_pelletNext (s : State) (w : Waiter) : (s.dropWaiter w).str.pelletNext = s.str.pelletNext := rfl
@[simp] theorem State.dropWaiter_str_stallSnap (s : State) (w : Waiter) : (s.dropWaiter w).str.stallSnap = s.str.stallSnap := rfl
@[simp] theorem State.dropWaiter_captured (s : State) (w : Waiter) : (s.dropWaiter w).captured = s.captured := rfl

@[simp] theorem State.setEngine_pending (s : State) (e : Nat) (x : Engine) : (s.setEngine e x).pending = s.pending := rfl
@[simp] theorem State.setEngine_out (s : State) (e : Nat) (x : Engine) : (s.setEngine e x).out = s.out := rfl
@[simp] theorem State.setEngine_freeCtr (s : State) (e : Nat) (x : Engine) : (s.setEngine e x).freeCtr = s.freeCtr := rfl
@[simp] theorem State.setEngine_timeNs (s : State) (e : Nat) (x : Engine) : (s.setEngine e x).timeNs = s.timeNs := rfl
@[simp] theorem State.setEngine_variant (s : State) (e : Nat) (x : Engine) : (s.setEngine e x).variant = s.variant := rfl
@[simp] theorem State.setEngine_fusesOk (s : State) (e : Nat) (x : Engine) : (s.setEngine e x).fusesOk = s.fusesOk := rfl
@[simp] theorem State.setEngine_dict (s : State) (e : Nat) (x : Engine) : (s.setEngine e x).dict = s.dict := rfl
@[simp] theorem State.setEngine_blocks (s : State) (e : Nat) (x : Engine) : (s.setEngine e x).blocks = s.blocks := rfl
@[simp] theorem State.setEngine_sup (s : State) (e : Nat) (x : Engine) : (s.setEngine e x).sup = s.sup := rfl
@[simp] theorem State.setEngine_ucbs (s : State) (e : Nat) (x : Engine) : (s.setEngine e x).ucbs = s.ucbs := rfl
@[simp] theorem State.setEngine_oap (s : State) (e : Nat) (x : Engine) : (s.setEngine e x).oap = s.oap := rfl
@[simp] theorem State.setEngine_agg (s : State) (e : Nat) (x : Engine) : (s.setEngine e x).agg = s.agg := rfl
@[simp] theorem State.setEngine_safety (s : State) (e : Nat) (x : Engine) : (s.setEngine e x).safety = s.safety := rfl
@[simp] theorem State.setEngine_cool (s : State) (e : Nat) (x : Engine) : (s.setEngine e x).cool = s.cool := rfl
@[simp] theorem State.setEngine_host (s : State) (e : Nat) (x : Engine) : (s.setEngine e x).host = s.host := rfl
@[simp] theorem State.setEngine_seqs (s : State) (e : Nat) (x : Engine) : (s.setEngine e x).seqs = s.seqs := rfl
@[simp] theorem State.setEngine_nextOp (s : State) (e : Nat) (x : Engine) : (s.setEngine e x).nextOp = s.nextOp := rfl
@[simp] theorem State.setEngine_net (s : State) (e : Nat) (x : Engine) : (s.setEngine e x).net = s.net := rfl
@[simp] theorem State.setEngine_mem (s : State) (e : Nat) (x : Engine) : (s.setEngine e x).mem = s.mem := rfl
@[simp] theorem State.setEngine_tiles (s : State) (e : Nat) (x : Engine) : (s.setEngine e x).tiles = s.tiles := rfl
@[simp] theorem State.setEngine_ep (s : State) (e : Nat) (x : Engine) : (s.setEngine e x).ep = s.ep := rfl
@[simp] theorem State.setEngine_tab (s : State) (e : Nat) (x : Engine) : (s.setEngine e x).tab = s.tab := rfl
@[simp] theorem State.setEngine_cat (s : State) (e : Nat) (x : Engine) : (s.setEngine e x).cat = s.cat := rfl
@[simp] theorem State.setEngine_drbg (s : State) (e : Nat) (x : Engine) : (s.setEngine e x).drbg = s.drbg := rfl
@[simp] theorem State.setEngine_ev (s : State) (e : Nat) (x : Engine) : (s.setEngine e x).ev = s.ev := rfl
@[simp] theorem State.setEngine_fab (s : State) (e : Nat) (x : Engine) : (s.setEngine e x).fab = s.fab := rfl
@[simp] theorem State.setEngine_link (s : State) (e : Nat) (x : Engine) : (s.setEngine e x).link = s.link := rfl
@[simp] theorem State.setEngine_str_jess (s : State) (e : Nat) (x : Engine) : (s.setEngine e x).str.jess = s.str.jess := rfl
@[simp] theorem State.setEngine_str_waiters (s : State) (e : Nat) (x : Engine) : (s.setEngine e x).str.waiters = s.str.waiters := rfl
@[simp] theorem State.setEngine_str_pelletNext (s : State) (e : Nat) (x : Engine) : (s.setEngine e x).str.pelletNext = s.str.pelletNext := rfl
@[simp] theorem State.setEngine_str_stallSnap (s : State) (e : Nat) (x : Engine) : (s.setEngine e x).str.stallSnap = s.str.stallSnap := rfl
@[simp] theorem State.setEngine_captured (s : State) (e : Nat) (x : Engine) : (s.setEngine e x).captured = s.captured := rfl

@[simp] theorem State.setLane_pending (s : State) (n l : Nat) (x : Lane) : (s.setLane n l x).pending = s.pending := rfl
@[simp] theorem State.setLane_out (s : State) (n l : Nat) (x : Lane) : (s.setLane n l x).out = s.out := rfl
@[simp] theorem State.setLane_freeCtr (s : State) (n l : Nat) (x : Lane) : (s.setLane n l x).freeCtr = s.freeCtr := rfl
@[simp] theorem State.setLane_timeNs (s : State) (n l : Nat) (x : Lane) : (s.setLane n l x).timeNs = s.timeNs := rfl
@[simp] theorem State.setLane_variant (s : State) (n l : Nat) (x : Lane) : (s.setLane n l x).variant = s.variant := rfl
@[simp] theorem State.setLane_fusesOk (s : State) (n l : Nat) (x : Lane) : (s.setLane n l x).fusesOk = s.fusesOk := rfl
@[simp] theorem State.setLane_dict (s : State) (n l : Nat) (x : Lane) : (s.setLane n l x).dict = s.dict := rfl
@[simp] theorem State.setLane_blocks (s : State) (n l : Nat) (x : Lane) : (s.setLane n l x).blocks = s.blocks := rfl
@[simp] theorem State.setLane_sup (s : State) (n l : Nat) (x : Lane) : (s.setLane n l x).sup = s.sup := rfl
@[simp] theorem State.setLane_ucbs (s : State) (n l : Nat) (x : Lane) : (s.setLane n l x).ucbs = s.ucbs := rfl
@[simp] theorem State.setLane_oap (s : State) (n l : Nat) (x : Lane) : (s.setLane n l x).oap = s.oap := rfl
@[simp] theorem State.setLane_agg (s : State) (n l : Nat) (x : Lane) : (s.setLane n l x).agg = s.agg := rfl
@[simp] theorem State.setLane_safety (s : State) (n l : Nat) (x : Lane) : (s.setLane n l x).safety = s.safety := rfl
@[simp] theorem State.setLane_cool (s : State) (n l : Nat) (x : Lane) : (s.setLane n l x).cool = s.cool := rfl
@[simp] theorem State.setLane_host (s : State) (n l : Nat) (x : Lane) : (s.setLane n l x).host = s.host := rfl
@[simp] theorem State.setLane_seqs (s : State) (n l : Nat) (x : Lane) : (s.setLane n l x).seqs = s.seqs := rfl
@[simp] theorem State.setLane_nextOp (s : State) (n l : Nat) (x : Lane) : (s.setLane n l x).nextOp = s.nextOp := rfl
@[simp] theorem State.setLane_str (s : State) (n l : Nat) (x : Lane) : (s.setLane n l x).str = s.str := rfl
@[simp] theorem State.setLane_net (s : State) (n l : Nat) (x : Lane) : (s.setLane n l x).net = s.net := rfl
@[simp] theorem State.setLane_mem (s : State) (n l : Nat) (x : Lane) : (s.setLane n l x).mem = s.mem := rfl
@[simp] theorem State.setLane_tiles (s : State) (n l : Nat) (x : Lane) : (s.setLane n l x).tiles = s.tiles := rfl
@[simp] theorem State.setLane_ep (s : State) (n l : Nat) (x : Lane) : (s.setLane n l x).ep = s.ep := rfl
@[simp] theorem State.setLane_tab (s : State) (n l : Nat) (x : Lane) : (s.setLane n l x).tab = s.tab := rfl
@[simp] theorem State.setLane_cat (s : State) (n l : Nat) (x : Lane) : (s.setLane n l x).cat = s.cat := rfl
@[simp] theorem State.setLane_drbg (s : State) (n l : Nat) (x : Lane) : (s.setLane n l x).drbg = s.drbg := rfl
@[simp] theorem State.setLane_ev (s : State) (n l : Nat) (x : Lane) : (s.setLane n l x).ev = s.ev := rfl
@[simp] theorem State.setLane_fab (s : State) (n l : Nat) (x : Lane) : (s.setLane n l x).fab = s.fab := rfl
@[simp] theorem State.setLane_link_ports (s : State) (n l : Nat) (x : Lane) : (s.setLane n l x).link.ports = s.link.ports := rfl
@[simp] theorem State.setLane_captured (s : State) (n l : Nat) (x : Lane) : (s.setLane n l x).captured = s.captured := rfl

@[simp] theorem State.setPhy_pending (s : State) (n : Nat) (x : Phy) : (s.setPhy n x).pending = s.pending := rfl
@[simp] theorem State.setPhy_out (s : State) (n : Nat) (x : Phy) : (s.setPhy n x).out = s.out := rfl
@[simp] theorem State.setPhy_freeCtr (s : State) (n : Nat) (x : Phy) : (s.setPhy n x).freeCtr = s.freeCtr := rfl
@[simp] theorem State.setPhy_timeNs (s : State) (n : Nat) (x : Phy) : (s.setPhy n x).timeNs = s.timeNs := rfl
@[simp] theorem State.setPhy_variant (s : State) (n : Nat) (x : Phy) : (s.setPhy n x).variant = s.variant := rfl
@[simp] theorem State.setPhy_fusesOk (s : State) (n : Nat) (x : Phy) : (s.setPhy n x).fusesOk = s.fusesOk := rfl
@[simp] theorem State.setPhy_dict (s : State) (n : Nat) (x : Phy) : (s.setPhy n x).dict = s.dict := rfl
@[simp] theorem State.setPhy_blocks (s : State) (n : Nat) (x : Phy) : (s.setPhy n x).blocks = s.blocks := rfl
@[simp] theorem State.setPhy_sup (s : State) (n : Nat) (x : Phy) : (s.setPhy n x).sup = s.sup := rfl
@[simp] theorem State.setPhy_ucbs (s : State) (n : Nat) (x : Phy) : (s.setPhy n x).ucbs = s.ucbs := rfl
@[simp] theorem State.setPhy_oap (s : State) (n : Nat) (x : Phy) : (s.setPhy n x).oap = s.oap := rfl
@[simp] theorem State.setPhy_agg (s : State) (n : Nat) (x : Phy) : (s.setPhy n x).agg = s.agg := rfl
@[simp] theorem State.setPhy_safety (s : State) (n : Nat) (x : Phy) : (s.setPhy n x).safety = s.safety := rfl
@[simp] theorem State.setPhy_cool (s : State) (n : Nat) (x : Phy) : (s.setPhy n x).cool = s.cool := rfl
@[simp] theorem State.setPhy_host (s : State) (n : Nat) (x : Phy) : (s.setPhy n x).host = s.host := rfl
@[simp] theorem State.setPhy_seqs (s : State) (n : Nat) (x : Phy) : (s.setPhy n x).seqs = s.seqs := rfl
@[simp] theorem State.setPhy_nextOp (s : State) (n : Nat) (x : Phy) : (s.setPhy n x).nextOp = s.nextOp := rfl
@[simp] theorem State.setPhy_str (s : State) (n : Nat) (x : Phy) : (s.setPhy n x).str = s.str := rfl
@[simp] theorem State.setPhy_net (s : State) (n : Nat) (x : Phy) : (s.setPhy n x).net = s.net := rfl
@[simp] theorem State.setPhy_mem (s : State) (n : Nat) (x : Phy) : (s.setPhy n x).mem = s.mem := rfl
@[simp] theorem State.setPhy_tiles (s : State) (n : Nat) (x : Phy) : (s.setPhy n x).tiles = s.tiles := rfl
@[simp] theorem State.setPhy_ep (s : State) (n : Nat) (x : Phy) : (s.setPhy n x).ep = s.ep := rfl
@[simp] theorem State.setPhy_tab (s : State) (n : Nat) (x : Phy) : (s.setPhy n x).tab = s.tab := rfl
@[simp] theorem State.setPhy_cat (s : State) (n : Nat) (x : Phy) : (s.setPhy n x).cat = s.cat := rfl
@[simp] theorem State.setPhy_drbg (s : State) (n : Nat) (x : Phy) : (s.setPhy n x).drbg = s.drbg := rfl
@[simp] theorem State.setPhy_ev (s : State) (n : Nat) (x : Phy) : (s.setPhy n x).ev = s.ev := rfl
@[simp] theorem State.setPhy_fab (s : State) (n : Nat) (x : Phy) : (s.setPhy n x).fab = s.fab := rfl
@[simp] theorem State.setPhy_link_lanes (s : State) (n : Nat) (x : Phy) : (s.setPhy n x).link.lanes = s.link.lanes := rfl
@[simp] theorem State.setPhy_captured (s : State) (n : Nat) (x : Phy) : (s.setPhy n x).captured = s.captured := rfl

@[simp] theorem State.setDom_pending (s : State) (u : Nat) (d : Domain) : (s.setDom u d).pending = s.pending := rfl
@[simp] theorem State.setDom_out (s : State) (u : Nat) (d : Domain) : (s.setDom u d).out = s.out := rfl
@[simp] theorem State.setDom_freeCtr (s : State) (u : Nat) (d : Domain) : (s.setDom u d).freeCtr = s.freeCtr := rfl
@[simp] theorem State.setDom_timeNs (s : State) (u : Nat) (d : Domain) : (s.setDom u d).timeNs = s.timeNs := rfl
@[simp] theorem State.setDom_variant (s : State) (u : Nat) (d : Domain) : (s.setDom u d).variant = s.variant := rfl
@[simp] theorem State.setDom_fusesOk (s : State) (u : Nat) (d : Domain) : (s.setDom u d).fusesOk = s.fusesOk := rfl
@[simp] theorem State.setDom_dict (s : State) (u : Nat) (d : Domain) : (s.setDom u d).dict = s.dict := rfl
@[simp] theorem State.setDom_blocks (s : State) (u : Nat) (d : Domain) : (s.setDom u d).blocks = s.blocks := rfl
@[simp] theorem State.setDom_sup (s : State) (u : Nat) (d : Domain) : (s.setDom u d).sup = s.sup := rfl
@[simp] theorem State.setDom_ucbs (s : State) (u : Nat) (d : Domain) : (s.setDom u d).ucbs = s.ucbs := rfl
@[simp] theorem State.setDom_oap (s : State) (u : Nat) (d : Domain) : (s.setDom u d).oap = s.oap := rfl
@[simp] theorem State.setDom_agg (s : State) (u : Nat) (d : Domain) : (s.setDom u d).agg = s.agg := rfl
@[simp] theorem State.setDom_safety (s : State) (u : Nat) (d : Domain) : (s.setDom u d).safety = s.safety := rfl
@[simp] theorem State.setDom_cool (s : State) (u : Nat) (d : Domain) : (s.setDom u d).cool = s.cool := rfl
@[simp] theorem State.setDom_host (s : State) (u : Nat) (d : Domain) : (s.setDom u d).host = s.host := rfl
@[simp] theorem State.setDom_seqs (s : State) (u : Nat) (d : Domain) : (s.setDom u d).seqs = s.seqs := rfl
@[simp] theorem State.setDom_nextOp (s : State) (u : Nat) (d : Domain) : (s.setDom u d).nextOp = s.nextOp := rfl
@[simp] theorem State.setDom_str (s : State) (u : Nat) (d : Domain) : (s.setDom u d).str = s.str := rfl
@[simp] theorem State.setDom_mem (s : State) (u : Nat) (d : Domain) : (s.setDom u d).mem = s.mem := rfl
@[simp] theorem State.setDom_tiles (s : State) (u : Nat) (d : Domain) : (s.setDom u d).tiles = s.tiles := rfl
@[simp] theorem State.setDom_ep (s : State) (u : Nat) (d : Domain) : (s.setDom u d).ep = s.ep := rfl
@[simp] theorem State.setDom_tab (s : State) (u : Nat) (d : Domain) : (s.setDom u d).tab = s.tab := rfl
@[simp] theorem State.setDom_cat (s : State) (u : Nat) (d : Domain) : (s.setDom u d).cat = s.cat := rfl
@[simp] theorem State.setDom_drbg (s : State) (u : Nat) (d : Domain) : (s.setDom u d).drbg = s.drbg := rfl
@[simp] theorem State.setDom_ev (s : State) (u : Nat) (d : Domain) : (s.setDom u d).ev = s.ev := rfl
@[simp] theorem State.setDom_fab (s : State) (u : Nat) (d : Domain) : (s.setDom u d).fab = s.fab := rfl
@[simp] theorem State.setDom_link (s : State) (u : Nat) (d : Domain) : (s.setDom u d).link = s.link := rfl
@[simp] theorem State.setDom_net_packets (s : State) (u : Nat) (d : Domain) : (s.setDom u d).net.packets = s.net.packets := rfl
@[simp] theorem State.setDom_net_nextId (s : State) (u : Nat) (d : Domain) : (s.setDom u d).net.nextId = s.net.nextId := rfl
@[simp] theorem State.setDom_net_outst (s : State) (u : Nat) (d : Domain) : (s.setDom u d).net.outst = s.net.outst := rfl
@[simp] theorem State.setDom_net_buf (s : State) (u : Nat) (d : Domain) : (s.setDom u d).net.buf = s.net.buf := rfl
@[simp] theorem State.setDom_net_nis (s : State) (u : Nat) (d : Domain) : (s.setDom u d).net.nis = s.net.nis := rfl
@[simp] theorem State.setDom_net_stats (s : State) (u : Nat) (d : Domain) : (s.setDom u d).net.stats = s.net.stats := rfl
@[simp] theorem State.setDom_net_snap (s : State) (u : Nat) (d : Domain) : (s.setDom u d).net.snap = s.net.snap := rfl
@[simp] theorem State.setDom_net_snapTimeNs (s : State) (u : Nat) (d : Domain) : (s.setDom u d).net.snapTimeNs = s.net.snapTimeNs := rfl
@[simp] theorem State.setDom_net_copying (s : State) (u : Nat) (d : Domain) : (s.setDom u d).net.copying = s.net.copying := rfl
@[simp] theorem State.setDom_net_snapPending (s : State) (u : Nat) (d : Domain) : (s.setDom u d).net.snapPending = s.net.snapPending := rfl
@[simp] theorem State.setDom_captured (s : State) (u : Nat) (d : Domain) : (s.setDom u d).captured = s.captured := rfl
@[simp] theorem State.setDom_net_arbs (s : State) (u : Nat) (d : Domain) : (s.setDom u d).net.arbs = s.net.arbs := rfl

@[simp] theorem State.setMark_pending (s : State) (a m : Nat) : (s.setMark a m).pending = s.pending := rfl
@[simp] theorem State.setMark_out (s : State) (a m : Nat) : (s.setMark a m).out = s.out := rfl
@[simp] theorem State.setMark_freeCtr (s : State) (a m : Nat) : (s.setMark a m).freeCtr = s.freeCtr := rfl
@[simp] theorem State.setMark_timeNs (s : State) (a m : Nat) : (s.setMark a m).timeNs = s.timeNs := rfl
@[simp] theorem State.setMark_variant (s : State) (a m : Nat) : (s.setMark a m).variant = s.variant := rfl
@[simp] theorem State.setMark_fusesOk (s : State) (a m : Nat) : (s.setMark a m).fusesOk = s.fusesOk := rfl
@[simp] theorem State.setMark_dict (s : State) (a m : Nat) : (s.setMark a m).dict = s.dict := rfl
@[simp] theorem State.setMark_blocks (s : State) (a m : Nat) : (s.setMark a m).blocks = s.blocks := rfl
@[simp] theorem State.setMark_sup (s : State) (a m : Nat) : (s.setMark a m).sup = s.sup := rfl
@[simp] theorem State.setMark_ucbs (s : State) (a m : Nat) : (s.setMark a m).ucbs = s.ucbs := rfl
@[simp] theorem State.setMark_oap (s : State) (a m : Nat) : (s.setMark a m).oap = s.oap := rfl
@[simp] theorem State.setMark_agg (s : State) (a m : Nat) : (s.setMark a m).agg = s.agg := rfl
@[simp] theorem State.setMark_safety (s : State) (a m : Nat) : (s.setMark a m).safety = s.safety := rfl
@[simp] theorem State.setMark_cool (s : State) (a m : Nat) : (s.setMark a m).cool = s.cool := rfl
@[simp] theorem State.setMark_host (s : State) (a m : Nat) : (s.setMark a m).host = s.host := rfl
@[simp] theorem State.setMark_seqs (s : State) (a m : Nat) : (s.setMark a m).seqs = s.seqs := rfl
@[simp] theorem State.setMark_nextOp (s : State) (a m : Nat) : (s.setMark a m).nextOp = s.nextOp := rfl
@[simp] theorem State.setMark_str (s : State) (a m : Nat) : (s.setMark a m).str = s.str := rfl
@[simp] theorem State.setMark_net (s : State) (a m : Nat) : (s.setMark a m).net = s.net := rfl
@[simp] theorem State.setMark_tiles (s : State) (a m : Nat) : (s.setMark a m).tiles = s.tiles := rfl
@[simp] theorem State.setMark_ep (s : State) (a m : Nat) : (s.setMark a m).ep = s.ep := rfl
@[simp] theorem State.setMark_tab (s : State) (a m : Nat) : (s.setMark a m).tab = s.tab := rfl
@[simp] theorem State.setMark_cat (s : State) (a m : Nat) : (s.setMark a m).cat = s.cat := rfl
@[simp] theorem State.setMark_drbg (s : State) (a m : Nat) : (s.setMark a m).drbg = s.drbg := rfl
@[simp] theorem State.setMark_ev (s : State) (a m : Nat) : (s.setMark a m).ev = s.ev := rfl
@[simp] theorem State.setMark_fab (s : State) (a m : Nat) : (s.setMark a m).fab = s.fab := rfl
@[simp] theorem State.setMark_link (s : State) (a m : Nat) : (s.setMark a m).link = s.link := rfl
@[simp] theorem State.setMark_mem_cells (s : State) (a m : Nat) : (s.setMark a m).mem.cells = s.mem.cells := rfl
@[simp] theorem State.setMark_mem_ecc (s : State) (a m : Nat) : (s.setMark a m).mem.ecc = s.mem.ecc := rfl
@[simp] theorem State.setMark_mem_lpMib (s : State) (a m : Nat) : (s.setMark a m).mem.lpMib = s.mem.lpMib := rfl
@[simp] theorem State.setMark_mem_lpRate (s : State) (a m : Nat) : (s.setMark a m).mem.lpRate = s.mem.lpRate := rfl
@[simp] theorem State.setMark_mem_lpFail (s : State) (a m : Nat) : (s.setMark a m).mem.lpFail = s.mem.lpFail := rfl
@[simp] theorem State.setMark_mem_hbFail (s : State) (a m : Nat) : (s.setMark a m).mem.hbFail = s.mem.hbFail := rfl
@[simp] theorem State.setMark_mem_hbRepairs (s : State) (a m : Nat) : (s.setMark a m).mem.hbRepairs = s.mem.hbRepairs := rfl
@[simp] theorem State.setMark_mem_hbmLinear (s : State) (a m : Nat) : (s.setMark a m).mem.hbmLinear = s.mem.hbmLinear := rfl
@[simp] theorem State.setMark_mem_lpLinear (s : State) (a m : Nat) : (s.setMark a m).mem.lpLinear = s.mem.lpLinear := rfl
@[simp] theorem State.setMark_mem_lpFallback (s : State) (a m : Nat) : (s.setMark a m).mem.lpFallback = s.mem.lpFallback := rfl
@[simp] theorem State.setMark_mem_inlineEcc (s : State) (a m : Nat) : (s.setMark a m).mem.inlineEcc = s.mem.inlineEcc := rfl
@[simp] theorem State.setMark_mem_apt (s : State) (a m : Nat) : (s.setMark a m).mem.apt = s.mem.apt := rfl
@[simp] theorem State.setMark_mem_aptCtl (s : State) (a m : Nat) : (s.setMark a m).mem.aptCtl = s.mem.aptCtl := rfl
@[simp] theorem State.setMark_mem_scrubPos (s : State) (a m : Nat) : (s.setMark a m).mem.scrubPos = s.mem.scrubPos := rfl
@[simp] theorem State.setMark_mem_logLostRaised (s : State) (a m : Nat) : (s.setMark a m).mem.logLostRaised = s.mem.logLostRaised := rfl
@[simp] theorem State.setMark_mem_fabricWin (s : State) (a m : Nat) : (s.setMark a m).mem.fabricWin = s.mem.fabricWin := rfl
@[simp] theorem State.setMark_mem_redirect (s : State) (a m : Nat) : (s.setMark a m).mem.redirect = s.mem.redirect := rfl
@[simp] theorem State.setMark_mem_remoteRsv (s : State) (a m : Nat) : (s.setMark a m).mem.remoteRsv = s.mem.remoteRsv := rfl
@[simp] theorem State.setMark_captured (s : State) (a m : Nat) : (s.setMark a m).captured = s.captured := rfl
@[simp] theorem State.setMark_mem_lpRateMts (s : State) (a m : Nat) : (s.setMark a m).mem.lpRateMts = s.mem.lpRateMts := rfl
@[simp] theorem State.setMark_mem_lpHold (s : State) (a m : Nat) : (s.setMark a m).mem.lpHold = s.mem.lpHold := rfl

@[simp] theorem State.setEcc_pending (s : State) (a : Nat) (e : List (Nat × Nat)) : (s.setEcc a e).pending = s.pending := rfl
@[simp] theorem State.setEcc_out (s : State) (a : Nat) (e : List (Nat × Nat)) : (s.setEcc a e).out = s.out := rfl
@[simp] theorem State.setEcc_freeCtr (s : State) (a : Nat) (e : List (Nat × Nat)) : (s.setEcc a e).freeCtr = s.freeCtr := rfl
@[simp] theorem State.setEcc_timeNs (s : State) (a : Nat) (e : List (Nat × Nat)) : (s.setEcc a e).timeNs = s.timeNs := rfl
@[simp] theorem State.setEcc_variant (s : State) (a : Nat) (e : List (Nat × Nat)) : (s.setEcc a e).variant = s.variant := rfl
@[simp] theorem State.setEcc_fusesOk (s : State) (a : Nat) (e : List (Nat × Nat)) : (s.setEcc a e).fusesOk = s.fusesOk := rfl
@[simp] theorem State.setEcc_dict (s : State) (a : Nat) (e : List (Nat × Nat)) : (s.setEcc a e).dict = s.dict := rfl
@[simp] theorem State.setEcc_blocks (s : State) (a : Nat) (e : List (Nat × Nat)) : (s.setEcc a e).blocks = s.blocks := rfl
@[simp] theorem State.setEcc_sup (s : State) (a : Nat) (e : List (Nat × Nat)) : (s.setEcc a e).sup = s.sup := rfl
@[simp] theorem State.setEcc_ucbs (s : State) (a : Nat) (e : List (Nat × Nat)) : (s.setEcc a e).ucbs = s.ucbs := rfl
@[simp] theorem State.setEcc_oap (s : State) (a : Nat) (e : List (Nat × Nat)) : (s.setEcc a e).oap = s.oap := rfl
@[simp] theorem State.setEcc_agg (s : State) (a : Nat) (e : List (Nat × Nat)) : (s.setEcc a e).agg = s.agg := rfl
@[simp] theorem State.setEcc_safety (s : State) (a : Nat) (e : List (Nat × Nat)) : (s.setEcc a e).safety = s.safety := rfl
@[simp] theorem State.setEcc_cool (s : State) (a : Nat) (e : List (Nat × Nat)) : (s.setEcc a e).cool = s.cool := rfl
@[simp] theorem State.setEcc_host (s : State) (a : Nat) (e : List (Nat × Nat)) : (s.setEcc a e).host = s.host := rfl
@[simp] theorem State.setEcc_seqs (s : State) (a : Nat) (e : List (Nat × Nat)) : (s.setEcc a e).seqs = s.seqs := rfl
@[simp] theorem State.setEcc_nextOp (s : State) (a : Nat) (e : List (Nat × Nat)) : (s.setEcc a e).nextOp = s.nextOp := rfl
@[simp] theorem State.setEcc_str (s : State) (a : Nat) (e : List (Nat × Nat)) : (s.setEcc a e).str = s.str := rfl
@[simp] theorem State.setEcc_net (s : State) (a : Nat) (e : List (Nat × Nat)) : (s.setEcc a e).net = s.net := rfl
@[simp] theorem State.setEcc_tiles (s : State) (a : Nat) (e : List (Nat × Nat)) : (s.setEcc a e).tiles = s.tiles := rfl
@[simp] theorem State.setEcc_ep (s : State) (a : Nat) (e : List (Nat × Nat)) : (s.setEcc a e).ep = s.ep := rfl
@[simp] theorem State.setEcc_tab (s : State) (a : Nat) (e : List (Nat × Nat)) : (s.setEcc a e).tab = s.tab := rfl
@[simp] theorem State.setEcc_cat (s : State) (a : Nat) (e : List (Nat × Nat)) : (s.setEcc a e).cat = s.cat := rfl
@[simp] theorem State.setEcc_drbg (s : State) (a : Nat) (e : List (Nat × Nat)) : (s.setEcc a e).drbg = s.drbg := rfl
@[simp] theorem State.setEcc_ev (s : State) (a : Nat) (e : List (Nat × Nat)) : (s.setEcc a e).ev = s.ev := rfl
@[simp] theorem State.setEcc_fab (s : State) (a : Nat) (e : List (Nat × Nat)) : (s.setEcc a e).fab = s.fab := rfl
@[simp] theorem State.setEcc_link (s : State) (a : Nat) (e : List (Nat × Nat)) : (s.setEcc a e).link = s.link := rfl
@[simp] theorem State.setEcc_mem_cells (s : State) (a : Nat) (e : List (Nat × Nat)) : (s.setEcc a e).mem.cells = s.mem.cells := rfl
@[simp] theorem State.setEcc_mem_poison (s : State) (a : Nat) (e : List (Nat × Nat)) : (s.setEcc a e).mem.poison = s.mem.poison := rfl
@[simp] theorem State.setEcc_mem_lpMib (s : State) (a : Nat) (e : List (Nat × Nat)) : (s.setEcc a e).mem.lpMib = s.mem.lpMib := rfl
@[simp] theorem State.setEcc_mem_lpRate (s : State) (a : Nat) (e : List (Nat × Nat)) : (s.setEcc a e).mem.lpRate = s.mem.lpRate := rfl
@[simp] theorem State.setEcc_mem_lpFail (s : State) (a : Nat) (e : List (Nat × Nat)) : (s.setEcc a e).mem.lpFail = s.mem.lpFail := rfl
@[simp] theorem State.setEcc_mem_hbFail (s : State) (a : Nat) (e : List (Nat × Nat)) : (s.setEcc a e).mem.hbFail = s.mem.hbFail := rfl
@[simp] theorem State.setEcc_mem_hbRepairs (s : State) (a : Nat) (e : List (Nat × Nat)) : (s.setEcc a e).mem.hbRepairs = s.mem.hbRepairs := rfl
@[simp] theorem State.setEcc_mem_hbmLinear (s : State) (a : Nat) (e : List (Nat × Nat)) : (s.setEcc a e).mem.hbmLinear = s.mem.hbmLinear := rfl
@[simp] theorem State.setEcc_mem_lpLinear (s : State) (a : Nat) (e : List (Nat × Nat)) : (s.setEcc a e).mem.lpLinear = s.mem.lpLinear := rfl
@[simp] theorem State.setEcc_mem_lpFallback (s : State) (a : Nat) (e : List (Nat × Nat)) : (s.setEcc a e).mem.lpFallback = s.mem.lpFallback := rfl
@[simp] theorem State.setEcc_mem_inlineEcc (s : State) (a : Nat) (e : List (Nat × Nat)) : (s.setEcc a e).mem.inlineEcc = s.mem.inlineEcc := rfl
@[simp] theorem State.setEcc_mem_apt (s : State) (a : Nat) (e : List (Nat × Nat)) : (s.setEcc a e).mem.apt = s.mem.apt := rfl
@[simp] theorem State.setEcc_mem_aptCtl (s : State) (a : Nat) (e : List (Nat × Nat)) : (s.setEcc a e).mem.aptCtl = s.mem.aptCtl := rfl
@[simp] theorem State.setEcc_mem_scrubPos (s : State) (a : Nat) (e : List (Nat × Nat)) : (s.setEcc a e).mem.scrubPos = s.mem.scrubPos := rfl
@[simp] theorem State.setEcc_mem_logLostRaised (s : State) (a : Nat) (e : List (Nat × Nat)) : (s.setEcc a e).mem.logLostRaised = s.mem.logLostRaised := rfl
@[simp] theorem State.setEcc_mem_fabricWin (s : State) (a : Nat) (e : List (Nat × Nat)) : (s.setEcc a e).mem.fabricWin = s.mem.fabricWin := rfl
@[simp] theorem State.setEcc_mem_redirect (s : State) (a : Nat) (e : List (Nat × Nat)) : (s.setEcc a e).mem.redirect = s.mem.redirect := rfl
@[simp] theorem State.setEcc_mem_remoteRsv (s : State) (a : Nat) (e : List (Nat × Nat)) : (s.setEcc a e).mem.remoteRsv = s.mem.remoteRsv := rfl
@[simp] theorem State.setEcc_captured (s : State) (a : Nat) (e : List (Nat × Nat)) : (s.setEcc a e).captured = s.captured := rfl
@[simp] theorem State.setEcc_mem_lpRateMts (s : State) (a : Nat) (e : List (Nat × Nat)) : (s.setEcc a e).mem.lpRateMts = s.mem.lpRateMts := rfl
@[simp] theorem State.setEcc_mem_lpHold (s : State) (a : Nat) (e : List (Nat × Nat)) : (s.setEcc a e).mem.lpHold = s.mem.lpHold := rfl

@[simp] theorem State.setAptCtl_pending (s : State) (c : Nat) (x : AptCtl) : (s.setAptCtl c x).pending = s.pending := rfl
@[simp] theorem State.setAptCtl_out (s : State) (c : Nat) (x : AptCtl) : (s.setAptCtl c x).out = s.out := rfl
@[simp] theorem State.setAptCtl_freeCtr (s : State) (c : Nat) (x : AptCtl) : (s.setAptCtl c x).freeCtr = s.freeCtr := rfl
@[simp] theorem State.setAptCtl_timeNs (s : State) (c : Nat) (x : AptCtl) : (s.setAptCtl c x).timeNs = s.timeNs := rfl
@[simp] theorem State.setAptCtl_variant (s : State) (c : Nat) (x : AptCtl) : (s.setAptCtl c x).variant = s.variant := rfl
@[simp] theorem State.setAptCtl_fusesOk (s : State) (c : Nat) (x : AptCtl) : (s.setAptCtl c x).fusesOk = s.fusesOk := rfl
@[simp] theorem State.setAptCtl_dict (s : State) (c : Nat) (x : AptCtl) : (s.setAptCtl c x).dict = s.dict := rfl
@[simp] theorem State.setAptCtl_blocks (s : State) (c : Nat) (x : AptCtl) : (s.setAptCtl c x).blocks = s.blocks := rfl
@[simp] theorem State.setAptCtl_sup (s : State) (c : Nat) (x : AptCtl) : (s.setAptCtl c x).sup = s.sup := rfl
@[simp] theorem State.setAptCtl_ucbs (s : State) (c : Nat) (x : AptCtl) : (s.setAptCtl c x).ucbs = s.ucbs := rfl
@[simp] theorem State.setAptCtl_oap (s : State) (c : Nat) (x : AptCtl) : (s.setAptCtl c x).oap = s.oap := rfl
@[simp] theorem State.setAptCtl_agg (s : State) (c : Nat) (x : AptCtl) : (s.setAptCtl c x).agg = s.agg := rfl
@[simp] theorem State.setAptCtl_safety (s : State) (c : Nat) (x : AptCtl) : (s.setAptCtl c x).safety = s.safety := rfl
@[simp] theorem State.setAptCtl_cool (s : State) (c : Nat) (x : AptCtl) : (s.setAptCtl c x).cool = s.cool := rfl
@[simp] theorem State.setAptCtl_host (s : State) (c : Nat) (x : AptCtl) : (s.setAptCtl c x).host = s.host := rfl
@[simp] theorem State.setAptCtl_seqs (s : State) (c : Nat) (x : AptCtl) : (s.setAptCtl c x).seqs = s.seqs := rfl
@[simp] theorem State.setAptCtl_nextOp (s : State) (c : Nat) (x : AptCtl) : (s.setAptCtl c x).nextOp = s.nextOp := rfl
@[simp] theorem State.setAptCtl_str (s : State) (c : Nat) (x : AptCtl) : (s.setAptCtl c x).str = s.str := rfl
@[simp] theorem State.setAptCtl_net (s : State) (c : Nat) (x : AptCtl) : (s.setAptCtl c x).net = s.net := rfl
@[simp] theorem State.setAptCtl_tiles (s : State) (c : Nat) (x : AptCtl) : (s.setAptCtl c x).tiles = s.tiles := rfl
@[simp] theorem State.setAptCtl_ep (s : State) (c : Nat) (x : AptCtl) : (s.setAptCtl c x).ep = s.ep := rfl
@[simp] theorem State.setAptCtl_tab (s : State) (c : Nat) (x : AptCtl) : (s.setAptCtl c x).tab = s.tab := rfl
@[simp] theorem State.setAptCtl_cat (s : State) (c : Nat) (x : AptCtl) : (s.setAptCtl c x).cat = s.cat := rfl
@[simp] theorem State.setAptCtl_drbg (s : State) (c : Nat) (x : AptCtl) : (s.setAptCtl c x).drbg = s.drbg := rfl
@[simp] theorem State.setAptCtl_ev (s : State) (c : Nat) (x : AptCtl) : (s.setAptCtl c x).ev = s.ev := rfl
@[simp] theorem State.setAptCtl_fab (s : State) (c : Nat) (x : AptCtl) : (s.setAptCtl c x).fab = s.fab := rfl
@[simp] theorem State.setAptCtl_link (s : State) (c : Nat) (x : AptCtl) : (s.setAptCtl c x).link = s.link := rfl
@[simp] theorem State.setAptCtl_mem_cells (s : State) (c : Nat) (x : AptCtl) : (s.setAptCtl c x).mem.cells = s.mem.cells := rfl
@[simp] theorem State.setAptCtl_mem_poison (s : State) (c : Nat) (x : AptCtl) : (s.setAptCtl c x).mem.poison = s.mem.poison := rfl
@[simp] theorem State.setAptCtl_mem_ecc (s : State) (c : Nat) (x : AptCtl) : (s.setAptCtl c x).mem.ecc = s.mem.ecc := rfl
@[simp] theorem State.setAptCtl_mem_lpMib (s : State) (c : Nat) (x : AptCtl) : (s.setAptCtl c x).mem.lpMib = s.mem.lpMib := rfl
@[simp] theorem State.setAptCtl_mem_lpRate (s : State) (c : Nat) (x : AptCtl) : (s.setAptCtl c x).mem.lpRate = s.mem.lpRate := rfl
@[simp] theorem State.setAptCtl_mem_lpFail (s : State) (c : Nat) (x : AptCtl) : (s.setAptCtl c x).mem.lpFail = s.mem.lpFail := rfl
@[simp] theorem State.setAptCtl_mem_hbFail (s : State) (c : Nat) (x : AptCtl) : (s.setAptCtl c x).mem.hbFail = s.mem.hbFail := rfl
@[simp] theorem State.setAptCtl_mem_hbRepairs (s : State) (c : Nat) (x : AptCtl) : (s.setAptCtl c x).mem.hbRepairs = s.mem.hbRepairs := rfl
@[simp] theorem State.setAptCtl_mem_hbmLinear (s : State) (c : Nat) (x : AptCtl) : (s.setAptCtl c x).mem.hbmLinear = s.mem.hbmLinear := rfl
@[simp] theorem State.setAptCtl_mem_lpLinear (s : State) (c : Nat) (x : AptCtl) : (s.setAptCtl c x).mem.lpLinear = s.mem.lpLinear := rfl
@[simp] theorem State.setAptCtl_mem_lpFallback (s : State) (c : Nat) (x : AptCtl) : (s.setAptCtl c x).mem.lpFallback = s.mem.lpFallback := rfl
@[simp] theorem State.setAptCtl_mem_inlineEcc (s : State) (c : Nat) (x : AptCtl) : (s.setAptCtl c x).mem.inlineEcc = s.mem.inlineEcc := rfl
@[simp] theorem State.setAptCtl_mem_apt (s : State) (c : Nat) (x : AptCtl) : (s.setAptCtl c x).mem.apt = s.mem.apt := rfl
@[simp] theorem State.setAptCtl_mem_scrubPos (s : State) (c : Nat) (x : AptCtl) : (s.setAptCtl c x).mem.scrubPos = s.mem.scrubPos := rfl
@[simp] theorem State.setAptCtl_mem_logLostRaised (s : State) (c : Nat) (x : AptCtl) : (s.setAptCtl c x).mem.logLostRaised = s.mem.logLostRaised := rfl
@[simp] theorem State.setAptCtl_mem_fabricWin (s : State) (c : Nat) (x : AptCtl) : (s.setAptCtl c x).mem.fabricWin = s.mem.fabricWin := rfl
@[simp] theorem State.setAptCtl_mem_redirect (s : State) (c : Nat) (x : AptCtl) : (s.setAptCtl c x).mem.redirect = s.mem.redirect := rfl
@[simp] theorem State.setAptCtl_mem_remoteRsv (s : State) (c : Nat) (x : AptCtl) : (s.setAptCtl c x).mem.remoteRsv = s.mem.remoteRsv := rfl
@[simp] theorem State.setAptCtl_captured (s : State) (c : Nat) (x : AptCtl) : (s.setAptCtl c x).captured = s.captured := rfl
@[simp] theorem State.setAptCtl_mem_lpRateMts (s : State) (c : Nat) (x : AptCtl) : (s.setAptCtl c x).mem.lpRateMts = s.mem.lpRateMts := rfl
@[simp] theorem State.setAptCtl_mem_lpHold (s : State) (c : Nat) (x : AptCtl) : (s.setAptCtl c x).mem.lpHold = s.mem.lpHold := rfl

@[simp] theorem State.setColl_pending (s : State) (x : Coll) : (s.setColl x).pending = s.pending := rfl
@[simp] theorem State.setColl_out (s : State) (x : Coll) : (s.setColl x).out = s.out := rfl
@[simp] theorem State.setColl_freeCtr (s : State) (x : Coll) : (s.setColl x).freeCtr = s.freeCtr := rfl
@[simp] theorem State.setColl_timeNs (s : State) (x : Coll) : (s.setColl x).timeNs = s.timeNs := rfl
@[simp] theorem State.setColl_variant (s : State) (x : Coll) : (s.setColl x).variant = s.variant := rfl
@[simp] theorem State.setColl_fusesOk (s : State) (x : Coll) : (s.setColl x).fusesOk = s.fusesOk := rfl
@[simp] theorem State.setColl_dict (s : State) (x : Coll) : (s.setColl x).dict = s.dict := rfl
@[simp] theorem State.setColl_blocks (s : State) (x : Coll) : (s.setColl x).blocks = s.blocks := rfl
@[simp] theorem State.setColl_sup (s : State) (x : Coll) : (s.setColl x).sup = s.sup := rfl
@[simp] theorem State.setColl_ucbs (s : State) (x : Coll) : (s.setColl x).ucbs = s.ucbs := rfl
@[simp] theorem State.setColl_oap (s : State) (x : Coll) : (s.setColl x).oap = s.oap := rfl
@[simp] theorem State.setColl_agg (s : State) (x : Coll) : (s.setColl x).agg = s.agg := rfl
@[simp] theorem State.setColl_safety (s : State) (x : Coll) : (s.setColl x).safety = s.safety := rfl
@[simp] theorem State.setColl_cool (s : State) (x : Coll) : (s.setColl x).cool = s.cool := rfl
@[simp] theorem State.setColl_host (s : State) (x : Coll) : (s.setColl x).host = s.host := rfl
@[simp] theorem State.setColl_seqs (s : State) (x : Coll) : (s.setColl x).seqs = s.seqs := rfl
@[simp] theorem State.setColl_nextOp (s : State) (x : Coll) : (s.setColl x).nextOp = s.nextOp := rfl
@[simp] theorem State.setColl_str (s : State) (x : Coll) : (s.setColl x).str = s.str := rfl
@[simp] theorem State.setColl_net (s : State) (x : Coll) : (s.setColl x).net = s.net := rfl
@[simp] theorem State.setColl_mem (s : State) (x : Coll) : (s.setColl x).mem = s.mem := rfl
@[simp] theorem State.setColl_tiles (s : State) (x : Coll) : (s.setColl x).tiles = s.tiles := rfl
@[simp] theorem State.setColl_ep (s : State) (x : Coll) : (s.setColl x).ep = s.ep := rfl
@[simp] theorem State.setColl_cat (s : State) (x : Coll) : (s.setColl x).cat = s.cat := rfl
@[simp] theorem State.setColl_drbg (s : State) (x : Coll) : (s.setColl x).drbg = s.drbg := rfl
@[simp] theorem State.setColl_ev (s : State) (x : Coll) : (s.setColl x).ev = s.ev := rfl
@[simp] theorem State.setColl_fab (s : State) (x : Coll) : (s.setColl x).fab = s.fab := rfl
@[simp] theorem State.setColl_link (s : State) (x : Coll) : (s.setColl x).link = s.link := rfl
@[simp] theorem State.setColl_tab_desc (s : State) (x : Coll) : (s.setColl x).tab.desc = s.tab.desc := rfl
@[simp] theorem State.setColl_tab_tags (s : State) (x : Coll) : (s.setColl x).tab.tags = s.tab.tags := rfl
@[simp] theorem State.setColl_tab_copies (s : State) (x : Coll) : (s.setColl x).tab.copies = s.tab.copies := rfl
@[simp] theorem State.setColl_tab_regStatus (s : State) (x : Coll) : (s.setColl x).tab.regStatus = s.tab.regStatus := rfl
@[simp] theorem State.setColl_tab_ge (s : State) (x : Coll) : (s.setColl x).tab.ge = s.tab.ge := rfl
@[simp] theorem State.setColl_captured (s : State) (x : Coll) : (s.setColl x).captured = s.captured := rfl

@[simp] theorem State.setNi_pending (s : State) (n : Nat) (x : Ni) : (s.setNi n x).pending = s.pending := rfl
@[simp] theorem State.setNi_out (s : State) (n : Nat) (x : Ni) : (s.setNi n x).out = s.out := rfl
@[simp] theorem State.setNi_freeCtr (s : State) (n : Nat) (x : Ni) : (s.setNi n x).freeCtr = s.freeCtr := rfl
@[simp] theorem State.setNi_timeNs (s : State) (n : Nat) (x : Ni) : (s.setNi n x).timeNs = s.timeNs := rfl
@[simp] theorem State.setNi_variant (s : State) (n : Nat) (x : Ni) : (s.setNi n x).variant = s.variant := rfl
@[simp] theorem State.setNi_fusesOk (s : State) (n : Nat) (x : Ni) : (s.setNi n x).fusesOk = s.fusesOk := rfl
@[simp] theorem State.setNi_dict (s : State) (n : Nat) (x : Ni) : (s.setNi n x).dict = s.dict := rfl
@[simp] theorem State.setNi_blocks (s : State) (n : Nat) (x : Ni) : (s.setNi n x).blocks = s.blocks := rfl
@[simp] theorem State.setNi_sup (s : State) (n : Nat) (x : Ni) : (s.setNi n x).sup = s.sup := rfl
@[simp] theorem State.setNi_ucbs (s : State) (n : Nat) (x : Ni) : (s.setNi n x).ucbs = s.ucbs := rfl
@[simp] theorem State.setNi_oap (s : State) (n : Nat) (x : Ni) : (s.setNi n x).oap = s.oap := rfl
@[simp] theorem State.setNi_agg (s : State) (n : Nat) (x : Ni) : (s.setNi n x).agg = s.agg := rfl
@[simp] theorem State.setNi_safety (s : State) (n : Nat) (x : Ni) : (s.setNi n x).safety = s.safety := rfl
@[simp] theorem State.setNi_cool (s : State) (n : Nat) (x : Ni) : (s.setNi n x).cool = s.cool := rfl
@[simp] theorem State.setNi_host (s : State) (n : Nat) (x : Ni) : (s.setNi n x).host = s.host := rfl
@[simp] theorem State.setNi_seqs (s : State) (n : Nat) (x : Ni) : (s.setNi n x).seqs = s.seqs := rfl
@[simp] theorem State.setNi_nextOp (s : State) (n : Nat) (x : Ni) : (s.setNi n x).nextOp = s.nextOp := rfl
@[simp] theorem State.setNi_str (s : State) (n : Nat) (x : Ni) : (s.setNi n x).str = s.str := rfl
@[simp] theorem State.setNi_mem (s : State) (n : Nat) (x : Ni) : (s.setNi n x).mem = s.mem := rfl
@[simp] theorem State.setNi_tiles (s : State) (n : Nat) (x : Ni) : (s.setNi n x).tiles = s.tiles := rfl
@[simp] theorem State.setNi_ep (s : State) (n : Nat) (x : Ni) : (s.setNi n x).ep = s.ep := rfl
@[simp] theorem State.setNi_tab (s : State) (n : Nat) (x : Ni) : (s.setNi n x).tab = s.tab := rfl
@[simp] theorem State.setNi_cat (s : State) (n : Nat) (x : Ni) : (s.setNi n x).cat = s.cat := rfl
@[simp] theorem State.setNi_drbg (s : State) (n : Nat) (x : Ni) : (s.setNi n x).drbg = s.drbg := rfl
@[simp] theorem State.setNi_ev (s : State) (n : Nat) (x : Ni) : (s.setNi n x).ev = s.ev := rfl
@[simp] theorem State.setNi_fab (s : State) (n : Nat) (x : Ni) : (s.setNi n x).fab = s.fab := rfl
@[simp] theorem State.setNi_link (s : State) (n : Nat) (x : Ni) : (s.setNi n x).link = s.link := rfl
@[simp] theorem State.setNi_net_packets (s : State) (n : Nat) (x : Ni) : (s.setNi n x).net.packets = s.net.packets := rfl
@[simp] theorem State.setNi_net_nextId (s : State) (n : Nat) (x : Ni) : (s.setNi n x).net.nextId = s.net.nextId := rfl
@[simp] theorem State.setNi_net_outst (s : State) (n : Nat) (x : Ni) : (s.setNi n x).net.outst = s.net.outst := rfl
@[simp] theorem State.setNi_net_buf (s : State) (n : Nat) (x : Ni) : (s.setNi n x).net.buf = s.net.buf := rfl
@[simp] theorem State.setNi_net_domains (s : State) (n : Nat) (x : Ni) : (s.setNi n x).net.domains = s.net.domains := rfl
@[simp] theorem State.setNi_net_stats (s : State) (n : Nat) (x : Ni) : (s.setNi n x).net.stats = s.net.stats := rfl
@[simp] theorem State.setNi_net_snap (s : State) (n : Nat) (x : Ni) : (s.setNi n x).net.snap = s.net.snap := rfl
@[simp] theorem State.setNi_net_snapTimeNs (s : State) (n : Nat) (x : Ni) : (s.setNi n x).net.snapTimeNs = s.net.snapTimeNs := rfl
@[simp] theorem State.setNi_net_copying (s : State) (n : Nat) (x : Ni) : (s.setNi n x).net.copying = s.net.copying := rfl
@[simp] theorem State.setNi_net_snapPending (s : State) (n : Nat) (x : Ni) : (s.setNi n x).net.snapPending = s.net.snapPending := rfl
@[simp] theorem State.setNi_captured (s : State) (n : Nat) (x : Ni) : (s.setNi n x).captured = s.captured := rfl
@[simp] theorem State.setNi_net_arbs (s : State) (n : Nat) (x : Ni) : (s.setNi n x).net.arbs = s.net.arbs := rfl

@[simp] theorem State.setStat_pending (s : State) (i : Nat) (x : Stat) : (s.setStat i x).pending = s.pending := rfl
@[simp] theorem State.setStat_out (s : State) (i : Nat) (x : Stat) : (s.setStat i x).out = s.out := rfl
@[simp] theorem State.setStat_freeCtr (s : State) (i : Nat) (x : Stat) : (s.setStat i x).freeCtr = s.freeCtr := rfl
@[simp] theorem State.setStat_timeNs (s : State) (i : Nat) (x : Stat) : (s.setStat i x).timeNs = s.timeNs := rfl
@[simp] theorem State.setStat_variant (s : State) (i : Nat) (x : Stat) : (s.setStat i x).variant = s.variant := rfl
@[simp] theorem State.setStat_fusesOk (s : State) (i : Nat) (x : Stat) : (s.setStat i x).fusesOk = s.fusesOk := rfl
@[simp] theorem State.setStat_dict (s : State) (i : Nat) (x : Stat) : (s.setStat i x).dict = s.dict := rfl
@[simp] theorem State.setStat_blocks (s : State) (i : Nat) (x : Stat) : (s.setStat i x).blocks = s.blocks := rfl
@[simp] theorem State.setStat_sup (s : State) (i : Nat) (x : Stat) : (s.setStat i x).sup = s.sup := rfl
@[simp] theorem State.setStat_ucbs (s : State) (i : Nat) (x : Stat) : (s.setStat i x).ucbs = s.ucbs := rfl
@[simp] theorem State.setStat_oap (s : State) (i : Nat) (x : Stat) : (s.setStat i x).oap = s.oap := rfl
@[simp] theorem State.setStat_agg (s : State) (i : Nat) (x : Stat) : (s.setStat i x).agg = s.agg := rfl
@[simp] theorem State.setStat_safety (s : State) (i : Nat) (x : Stat) : (s.setStat i x).safety = s.safety := rfl
@[simp] theorem State.setStat_cool (s : State) (i : Nat) (x : Stat) : (s.setStat i x).cool = s.cool := rfl
@[simp] theorem State.setStat_host (s : State) (i : Nat) (x : Stat) : (s.setStat i x).host = s.host := rfl
@[simp] theorem State.setStat_seqs (s : State) (i : Nat) (x : Stat) : (s.setStat i x).seqs = s.seqs := rfl
@[simp] theorem State.setStat_nextOp (s : State) (i : Nat) (x : Stat) : (s.setStat i x).nextOp = s.nextOp := rfl
@[simp] theorem State.setStat_str (s : State) (i : Nat) (x : Stat) : (s.setStat i x).str = s.str := rfl
@[simp] theorem State.setStat_mem (s : State) (i : Nat) (x : Stat) : (s.setStat i x).mem = s.mem := rfl
@[simp] theorem State.setStat_tiles (s : State) (i : Nat) (x : Stat) : (s.setStat i x).tiles = s.tiles := rfl
@[simp] theorem State.setStat_ep (s : State) (i : Nat) (x : Stat) : (s.setStat i x).ep = s.ep := rfl
@[simp] theorem State.setStat_tab (s : State) (i : Nat) (x : Stat) : (s.setStat i x).tab = s.tab := rfl
@[simp] theorem State.setStat_cat (s : State) (i : Nat) (x : Stat) : (s.setStat i x).cat = s.cat := rfl
@[simp] theorem State.setStat_drbg (s : State) (i : Nat) (x : Stat) : (s.setStat i x).drbg = s.drbg := rfl
@[simp] theorem State.setStat_ev (s : State) (i : Nat) (x : Stat) : (s.setStat i x).ev = s.ev := rfl
@[simp] theorem State.setStat_fab (s : State) (i : Nat) (x : Stat) : (s.setStat i x).fab = s.fab := rfl
@[simp] theorem State.setStat_link (s : State) (i : Nat) (x : Stat) : (s.setStat i x).link = s.link := rfl
@[simp] theorem State.setStat_net_packets (s : State) (i : Nat) (x : Stat) : (s.setStat i x).net.packets = s.net.packets := rfl
@[simp] theorem State.setStat_net_nextId (s : State) (i : Nat) (x : Stat) : (s.setStat i x).net.nextId = s.net.nextId := rfl
@[simp] theorem State.setStat_net_outst (s : State) (i : Nat) (x : Stat) : (s.setStat i x).net.outst = s.net.outst := rfl
@[simp] theorem State.setStat_net_buf (s : State) (i : Nat) (x : Stat) : (s.setStat i x).net.buf = s.net.buf := rfl
@[simp] theorem State.setStat_net_nis (s : State) (i : Nat) (x : Stat) : (s.setStat i x).net.nis = s.net.nis := rfl
@[simp] theorem State.setStat_net_domains (s : State) (i : Nat) (x : Stat) : (s.setStat i x).net.domains = s.net.domains := rfl
@[simp] theorem State.setStat_net_snap (s : State) (i : Nat) (x : Stat) : (s.setStat i x).net.snap = s.net.snap := rfl
@[simp] theorem State.setStat_net_snapTimeNs (s : State) (i : Nat) (x : Stat) : (s.setStat i x).net.snapTimeNs = s.net.snapTimeNs := rfl
@[simp] theorem State.setStat_net_copying (s : State) (i : Nat) (x : Stat) : (s.setStat i x).net.copying = s.net.copying := rfl
@[simp] theorem State.setStat_net_snapPending (s : State) (i : Nat) (x : Stat) : (s.setStat i x).net.snapPending = s.net.snapPending := rfl
@[simp] theorem State.setStat_captured (s : State) (i : Nat) (x : Stat) : (s.setStat i x).captured = s.captured := rfl
@[simp] theorem State.setStat_net_arbs (s : State) (i : Nat) (x : Stat) : (s.setStat i x).net.arbs = s.net.arbs := rfl

@[simp] theorem State.dropPacket_pending (s : State) (i : Nat) : (s.dropPacket i).pending = s.pending := rfl
@[simp] theorem State.dropPacket_out (s : State) (i : Nat) : (s.dropPacket i).out = s.out := rfl
@[simp] theorem State.dropPacket_freeCtr (s : State) (i : Nat) : (s.dropPacket i).freeCtr = s.freeCtr := rfl
@[simp] theorem State.dropPacket_timeNs (s : State) (i : Nat) : (s.dropPacket i).timeNs = s.timeNs := rfl
@[simp] theorem State.dropPacket_variant (s : State) (i : Nat) : (s.dropPacket i).variant = s.variant := rfl
@[simp] theorem State.dropPacket_fusesOk (s : State) (i : Nat) : (s.dropPacket i).fusesOk = s.fusesOk := rfl
@[simp] theorem State.dropPacket_dict (s : State) (i : Nat) : (s.dropPacket i).dict = s.dict := rfl
@[simp] theorem State.dropPacket_blocks (s : State) (i : Nat) : (s.dropPacket i).blocks = s.blocks := rfl
@[simp] theorem State.dropPacket_sup (s : State) (i : Nat) : (s.dropPacket i).sup = s.sup := rfl
@[simp] theorem State.dropPacket_ucbs (s : State) (i : Nat) : (s.dropPacket i).ucbs = s.ucbs := rfl
@[simp] theorem State.dropPacket_oap (s : State) (i : Nat) : (s.dropPacket i).oap = s.oap := rfl
@[simp] theorem State.dropPacket_agg (s : State) (i : Nat) : (s.dropPacket i).agg = s.agg := rfl
@[simp] theorem State.dropPacket_safety (s : State) (i : Nat) : (s.dropPacket i).safety = s.safety := rfl
@[simp] theorem State.dropPacket_cool (s : State) (i : Nat) : (s.dropPacket i).cool = s.cool := rfl
@[simp] theorem State.dropPacket_host (s : State) (i : Nat) : (s.dropPacket i).host = s.host := rfl
@[simp] theorem State.dropPacket_seqs (s : State) (i : Nat) : (s.dropPacket i).seqs = s.seqs := rfl
@[simp] theorem State.dropPacket_nextOp (s : State) (i : Nat) : (s.dropPacket i).nextOp = s.nextOp := rfl
@[simp] theorem State.dropPacket_str (s : State) (i : Nat) : (s.dropPacket i).str = s.str := rfl
@[simp] theorem State.dropPacket_mem (s : State) (i : Nat) : (s.dropPacket i).mem = s.mem := rfl
@[simp] theorem State.dropPacket_tiles (s : State) (i : Nat) : (s.dropPacket i).tiles = s.tiles := rfl
@[simp] theorem State.dropPacket_ep (s : State) (i : Nat) : (s.dropPacket i).ep = s.ep := rfl
@[simp] theorem State.dropPacket_tab (s : State) (i : Nat) : (s.dropPacket i).tab = s.tab := rfl
@[simp] theorem State.dropPacket_cat (s : State) (i : Nat) : (s.dropPacket i).cat = s.cat := rfl
@[simp] theorem State.dropPacket_drbg (s : State) (i : Nat) : (s.dropPacket i).drbg = s.drbg := rfl
@[simp] theorem State.dropPacket_ev (s : State) (i : Nat) : (s.dropPacket i).ev = s.ev := rfl
@[simp] theorem State.dropPacket_fab (s : State) (i : Nat) : (s.dropPacket i).fab = s.fab := rfl
@[simp] theorem State.dropPacket_link (s : State) (i : Nat) : (s.dropPacket i).link = s.link := rfl
@[simp] theorem State.dropPacket_net_nextId (s : State) (i : Nat) : (s.dropPacket i).net.nextId = s.net.nextId := rfl
@[simp] theorem State.dropPacket_net_outst (s : State) (i : Nat) : (s.dropPacket i).net.outst = s.net.outst := rfl
@[simp] theorem State.dropPacket_net_buf (s : State) (i : Nat) : (s.dropPacket i).net.buf = s.net.buf := rfl
@[simp] theorem State.dropPacket_net_nis (s : State) (i : Nat) : (s.dropPacket i).net.nis = s.net.nis := rfl
@[simp] theorem State.dropPacket_net_domains (s : State) (i : Nat) : (s.dropPacket i).net.domains = s.net.domains := rfl
@[simp] theorem State.dropPacket_net_stats (s : State) (i : Nat) : (s.dropPacket i).net.stats = s.net.stats := rfl
@[simp] theorem State.dropPacket_net_snap (s : State) (i : Nat) : (s.dropPacket i).net.snap = s.net.snap := rfl
@[simp] theorem State.dropPacket_net_snapTimeNs (s : State) (i : Nat) : (s.dropPacket i).net.snapTimeNs = s.net.snapTimeNs := rfl
@[simp] theorem State.dropPacket_net_copying (s : State) (i : Nat) : (s.dropPacket i).net.copying = s.net.copying := rfl
@[simp] theorem State.dropPacket_net_snapPending (s : State) (i : Nat) : (s.dropPacket i).net.snapPending = s.net.snapPending := rfl
@[simp] theorem State.dropPacket_captured (s : State) (i : Nat) : (s.dropPacket i).captured = s.captured := rfl
@[simp] theorem State.dropPacket_net_arbs (s : State) (i : Nat) : (s.dropPacket i).net.arbs = s.net.arbs := rfl

@[simp] theorem State.setPacket_pending (s : State) (p : Packet) : (s.setPacket p).pending = s.pending := rfl
@[simp] theorem State.setPacket_out (s : State) (p : Packet) : (s.setPacket p).out = s.out := rfl
@[simp] theorem State.setPacket_freeCtr (s : State) (p : Packet) : (s.setPacket p).freeCtr = s.freeCtr := rfl
@[simp] theorem State.setPacket_timeNs (s : State) (p : Packet) : (s.setPacket p).timeNs = s.timeNs := rfl
@[simp] theorem State.setPacket_variant (s : State) (p : Packet) : (s.setPacket p).variant = s.variant := rfl
@[simp] theorem State.setPacket_fusesOk (s : State) (p : Packet) : (s.setPacket p).fusesOk = s.fusesOk := rfl
@[simp] theorem State.setPacket_dict (s : State) (p : Packet) : (s.setPacket p).dict = s.dict := rfl
@[simp] theorem State.setPacket_blocks (s : State) (p : Packet) : (s.setPacket p).blocks = s.blocks := rfl
@[simp] theorem State.setPacket_sup (s : State) (p : Packet) : (s.setPacket p).sup = s.sup := rfl
@[simp] theorem State.setPacket_ucbs (s : State) (p : Packet) : (s.setPacket p).ucbs = s.ucbs := rfl
@[simp] theorem State.setPacket_oap (s : State) (p : Packet) : (s.setPacket p).oap = s.oap := rfl
@[simp] theorem State.setPacket_agg (s : State) (p : Packet) : (s.setPacket p).agg = s.agg := rfl
@[simp] theorem State.setPacket_safety (s : State) (p : Packet) : (s.setPacket p).safety = s.safety := rfl
@[simp] theorem State.setPacket_cool (s : State) (p : Packet) : (s.setPacket p).cool = s.cool := rfl
@[simp] theorem State.setPacket_host (s : State) (p : Packet) : (s.setPacket p).host = s.host := rfl
@[simp] theorem State.setPacket_seqs (s : State) (p : Packet) : (s.setPacket p).seqs = s.seqs := rfl
@[simp] theorem State.setPacket_nextOp (s : State) (p : Packet) : (s.setPacket p).nextOp = s.nextOp := rfl
@[simp] theorem State.setPacket_str (s : State) (p : Packet) : (s.setPacket p).str = s.str := rfl
@[simp] theorem State.setPacket_mem (s : State) (p : Packet) : (s.setPacket p).mem = s.mem := rfl
@[simp] theorem State.setPacket_tiles (s : State) (p : Packet) : (s.setPacket p).tiles = s.tiles := rfl
@[simp] theorem State.setPacket_ep (s : State) (p : Packet) : (s.setPacket p).ep = s.ep := rfl
@[simp] theorem State.setPacket_tab (s : State) (p : Packet) : (s.setPacket p).tab = s.tab := rfl
@[simp] theorem State.setPacket_cat (s : State) (p : Packet) : (s.setPacket p).cat = s.cat := rfl
@[simp] theorem State.setPacket_drbg (s : State) (p : Packet) : (s.setPacket p).drbg = s.drbg := rfl
@[simp] theorem State.setPacket_ev (s : State) (p : Packet) : (s.setPacket p).ev = s.ev := rfl
@[simp] theorem State.setPacket_fab (s : State) (p : Packet) : (s.setPacket p).fab = s.fab := rfl
@[simp] theorem State.setPacket_link (s : State) (p : Packet) : (s.setPacket p).link = s.link := rfl
@[simp] theorem State.setPacket_net_nextId (s : State) (p : Packet) : (s.setPacket p).net.nextId = s.net.nextId := rfl
@[simp] theorem State.setPacket_net_outst (s : State) (p : Packet) : (s.setPacket p).net.outst = s.net.outst := rfl
@[simp] theorem State.setPacket_net_buf (s : State) (p : Packet) : (s.setPacket p).net.buf = s.net.buf := rfl
@[simp] theorem State.setPacket_net_nis (s : State) (p : Packet) : (s.setPacket p).net.nis = s.net.nis := rfl
@[simp] theorem State.setPacket_net_domains (s : State) (p : Packet) : (s.setPacket p).net.domains = s.net.domains := rfl
@[simp] theorem State.setPacket_net_stats (s : State) (p : Packet) : (s.setPacket p).net.stats = s.net.stats := rfl
@[simp] theorem State.setPacket_net_snap (s : State) (p : Packet) : (s.setPacket p).net.snap = s.net.snap := rfl
@[simp] theorem State.setPacket_net_snapTimeNs (s : State) (p : Packet) : (s.setPacket p).net.snapTimeNs = s.net.snapTimeNs := rfl
@[simp] theorem State.setPacket_net_copying (s : State) (p : Packet) : (s.setPacket p).net.copying = s.net.copying := rfl
@[simp] theorem State.setPacket_net_snapPending (s : State) (p : Packet) : (s.setPacket p).net.snapPending = s.net.snapPending := rfl
@[simp] theorem State.setPacket_captured (s : State) (p : Packet) : (s.setPacket p).captured = s.captured := rfl
@[simp] theorem State.setPacket_net_arbs (s : State) (p : Packet) : (s.setPacket p).net.arbs = s.net.arbs := rfl

@[simp] theorem State.idle_pending (s : State) : (s.idle).pending = s.pending := rfl
@[simp] theorem State.idle_out (s : State) : (s.idle).out = s.out := rfl
@[simp] theorem State.idle_freeCtr (s : State) : (s.idle).freeCtr = s.freeCtr := rfl
@[simp] theorem State.idle_variant (s : State) : (s.idle).variant = s.variant := rfl
@[simp] theorem State.idle_fusesOk (s : State) : (s.idle).fusesOk = s.fusesOk := rfl
@[simp] theorem State.idle_dict (s : State) : (s.idle).dict = s.dict := rfl
@[simp] theorem State.idle_blocks (s : State) : (s.idle).blocks = s.blocks := rfl
@[simp] theorem State.idle_sup (s : State) : (s.idle).sup = s.sup := rfl
@[simp] theorem State.idle_ucbs (s : State) : (s.idle).ucbs = s.ucbs := rfl
@[simp] theorem State.idle_oap (s : State) : (s.idle).oap = s.oap := rfl
@[simp] theorem State.idle_agg (s : State) : (s.idle).agg = s.agg := rfl
@[simp] theorem State.idle_safety (s : State) : (s.idle).safety = s.safety := rfl
@[simp] theorem State.idle_cool (s : State) : (s.idle).cool = s.cool := rfl
@[simp] theorem State.idle_host (s : State) : (s.idle).host = s.host := rfl
@[simp] theorem State.idle_seqs (s : State) : (s.idle).seqs = s.seqs := rfl
@[simp] theorem State.idle_nextOp (s : State) : (s.idle).nextOp = s.nextOp := rfl
@[simp] theorem State.idle_str (s : State) : (s.idle).str = s.str := rfl
@[simp] theorem State.idle_net (s : State) : (s.idle).net = s.net := rfl
@[simp] theorem State.idle_mem (s : State) : (s.idle).mem = s.mem := rfl
@[simp] theorem State.idle_tiles (s : State) : (s.idle).tiles = s.tiles := rfl
@[simp] theorem State.idle_ep (s : State) : (s.idle).ep = s.ep := rfl
@[simp] theorem State.idle_tab (s : State) : (s.idle).tab = s.tab := rfl
@[simp] theorem State.idle_cat (s : State) : (s.idle).cat = s.cat := rfl
@[simp] theorem State.idle_drbg (s : State) : (s.idle).drbg = s.drbg := rfl
@[simp] theorem State.idle_ev (s : State) : (s.idle).ev = s.ev := rfl
@[simp] theorem State.idle_fab (s : State) : (s.idle).fab = s.fab := rfl
@[simp] theorem State.idle_link (s : State) : (s.idle).link = s.link := rfl
@[simp] theorem State.idle_captured (s : State) : (s.idle).captured = s.captured := rfl

@[simp] theorem State.setObj_pending (s : State) (key v : Nat) : (s.setObj key v).pending = s.pending := rfl
@[simp] theorem State.setObj_out (s : State) (key v : Nat) : (s.setObj key v).out = s.out := rfl
@[simp] theorem State.setObj_freeCtr (s : State) (key v : Nat) : (s.setObj key v).freeCtr = s.freeCtr := rfl
@[simp] theorem State.setObj_timeNs (s : State) (key v : Nat) : (s.setObj key v).timeNs = s.timeNs := rfl
@[simp] theorem State.setObj_variant (s : State) (key v : Nat) : (s.setObj key v).variant = s.variant := rfl
@[simp] theorem State.setObj_fusesOk (s : State) (key v : Nat) : (s.setObj key v).fusesOk = s.fusesOk := rfl
@[simp] theorem State.setObj_blocks (s : State) (key v : Nat) : (s.setObj key v).blocks = s.blocks := rfl
@[simp] theorem State.setObj_sup (s : State) (key v : Nat) : (s.setObj key v).sup = s.sup := rfl
@[simp] theorem State.setObj_ucbs (s : State) (key v : Nat) : (s.setObj key v).ucbs = s.ucbs := rfl
@[simp] theorem State.setObj_oap (s : State) (key v : Nat) : (s.setObj key v).oap = s.oap := rfl
@[simp] theorem State.setObj_agg (s : State) (key v : Nat) : (s.setObj key v).agg = s.agg := rfl
@[simp] theorem State.setObj_safety (s : State) (key v : Nat) : (s.setObj key v).safety = s.safety := rfl
@[simp] theorem State.setObj_cool (s : State) (key v : Nat) : (s.setObj key v).cool = s.cool := rfl
@[simp] theorem State.setObj_host (s : State) (key v : Nat) : (s.setObj key v).host = s.host := rfl
@[simp] theorem State.setObj_seqs (s : State) (key v : Nat) : (s.setObj key v).seqs = s.seqs := rfl
@[simp] theorem State.setObj_nextOp (s : State) (key v : Nat) : (s.setObj key v).nextOp = s.nextOp := rfl
@[simp] theorem State.setObj_str (s : State) (key v : Nat) : (s.setObj key v).str = s.str := rfl
@[simp] theorem State.setObj_net (s : State) (key v : Nat) : (s.setObj key v).net = s.net := rfl
@[simp] theorem State.setObj_mem (s : State) (key v : Nat) : (s.setObj key v).mem = s.mem := rfl
@[simp] theorem State.setObj_tiles (s : State) (key v : Nat) : (s.setObj key v).tiles = s.tiles := rfl
@[simp] theorem State.setObj_ep (s : State) (key v : Nat) : (s.setObj key v).ep = s.ep := rfl
@[simp] theorem State.setObj_tab (s : State) (key v : Nat) : (s.setObj key v).tab = s.tab := rfl
@[simp] theorem State.setObj_cat (s : State) (key v : Nat) : (s.setObj key v).cat = s.cat := rfl
@[simp] theorem State.setObj_drbg (s : State) (key v : Nat) : (s.setObj key v).drbg = s.drbg := rfl
@[simp] theorem State.setObj_ev (s : State) (key v : Nat) : (s.setObj key v).ev = s.ev := rfl
@[simp] theorem State.setObj_fab (s : State) (key v : Nat) : (s.setObj key v).fab = s.fab := rfl
@[simp] theorem State.setObj_link (s : State) (key v : Nat) : (s.setObj key v).link = s.link := rfl
@[simp] theorem State.setObj_captured (s : State) (key v : Nat) : (s.setObj key v).captured = s.captured := rfl

@[simp] theorem State.setBlock_pending (s : State) (key : Nat) (v : List Byte) : (s.setBlock key v).pending = s.pending := rfl
@[simp] theorem State.setBlock_out (s : State) (key : Nat) (v : List Byte) : (s.setBlock key v).out = s.out := rfl
@[simp] theorem State.setBlock_freeCtr (s : State) (key : Nat) (v : List Byte) : (s.setBlock key v).freeCtr = s.freeCtr := rfl
@[simp] theorem State.setBlock_timeNs (s : State) (key : Nat) (v : List Byte) : (s.setBlock key v).timeNs = s.timeNs := rfl
@[simp] theorem State.setBlock_variant (s : State) (key : Nat) (v : List Byte) : (s.setBlock key v).variant = s.variant := rfl
@[simp] theorem State.setBlock_fusesOk (s : State) (key : Nat) (v : List Byte) : (s.setBlock key v).fusesOk = s.fusesOk := rfl
@[simp] theorem State.setBlock_dict (s : State) (key : Nat) (v : List Byte) : (s.setBlock key v).dict = s.dict := rfl
@[simp] theorem State.setBlock_sup (s : State) (key : Nat) (v : List Byte) : (s.setBlock key v).sup = s.sup := rfl
@[simp] theorem State.setBlock_ucbs (s : State) (key : Nat) (v : List Byte) : (s.setBlock key v).ucbs = s.ucbs := rfl
@[simp] theorem State.setBlock_oap (s : State) (key : Nat) (v : List Byte) : (s.setBlock key v).oap = s.oap := rfl
@[simp] theorem State.setBlock_agg (s : State) (key : Nat) (v : List Byte) : (s.setBlock key v).agg = s.agg := rfl
@[simp] theorem State.setBlock_safety (s : State) (key : Nat) (v : List Byte) : (s.setBlock key v).safety = s.safety := rfl
@[simp] theorem State.setBlock_cool (s : State) (key : Nat) (v : List Byte) : (s.setBlock key v).cool = s.cool := rfl
@[simp] theorem State.setBlock_host (s : State) (key : Nat) (v : List Byte) : (s.setBlock key v).host = s.host := rfl
@[simp] theorem State.setBlock_seqs (s : State) (key : Nat) (v : List Byte) : (s.setBlock key v).seqs = s.seqs := rfl
@[simp] theorem State.setBlock_nextOp (s : State) (key : Nat) (v : List Byte) : (s.setBlock key v).nextOp = s.nextOp := rfl
@[simp] theorem State.setBlock_str (s : State) (key : Nat) (v : List Byte) : (s.setBlock key v).str = s.str := rfl
@[simp] theorem State.setBlock_net (s : State) (key : Nat) (v : List Byte) : (s.setBlock key v).net = s.net := rfl
@[simp] theorem State.setBlock_mem (s : State) (key : Nat) (v : List Byte) : (s.setBlock key v).mem = s.mem := rfl
@[simp] theorem State.setBlock_tiles (s : State) (key : Nat) (v : List Byte) : (s.setBlock key v).tiles = s.tiles := rfl
@[simp] theorem State.setBlock_ep (s : State) (key : Nat) (v : List Byte) : (s.setBlock key v).ep = s.ep := rfl
@[simp] theorem State.setBlock_tab (s : State) (key : Nat) (v : List Byte) : (s.setBlock key v).tab = s.tab := rfl
@[simp] theorem State.setBlock_cat (s : State) (key : Nat) (v : List Byte) : (s.setBlock key v).cat = s.cat := rfl
@[simp] theorem State.setBlock_drbg (s : State) (key : Nat) (v : List Byte) : (s.setBlock key v).drbg = s.drbg := rfl
@[simp] theorem State.setBlock_ev (s : State) (key : Nat) (v : List Byte) : (s.setBlock key v).ev = s.ev := rfl
@[simp] theorem State.setBlock_fab (s : State) (key : Nat) (v : List Byte) : (s.setBlock key v).fab = s.fab := rfl
@[simp] theorem State.setBlock_link (s : State) (key : Nat) (v : List Byte) : (s.setBlock key v).link = s.link := rfl
@[simp] theorem State.setBlock_captured (s : State) (key : Nat) (v : List Byte) : (s.setBlock key v).captured = s.captured := rfl

@[simp] theorem State.setUcb_pending (s : State) (u : Nat) (b : Ucb) : (s.setUcb u b).pending = s.pending := rfl
@[simp] theorem State.setUcb_out (s : State) (u : Nat) (b : Ucb) : (s.setUcb u b).out = s.out := rfl
@[simp] theorem State.setUcb_freeCtr (s : State) (u : Nat) (b : Ucb) : (s.setUcb u b).freeCtr = s.freeCtr := rfl
@[simp] theorem State.setUcb_timeNs (s : State) (u : Nat) (b : Ucb) : (s.setUcb u b).timeNs = s.timeNs := rfl
@[simp] theorem State.setUcb_variant (s : State) (u : Nat) (b : Ucb) : (s.setUcb u b).variant = s.variant := rfl
@[simp] theorem State.setUcb_fusesOk (s : State) (u : Nat) (b : Ucb) : (s.setUcb u b).fusesOk = s.fusesOk := rfl
@[simp] theorem State.setUcb_dict (s : State) (u : Nat) (b : Ucb) : (s.setUcb u b).dict = s.dict := rfl
@[simp] theorem State.setUcb_blocks (s : State) (u : Nat) (b : Ucb) : (s.setUcb u b).blocks = s.blocks := rfl
@[simp] theorem State.setUcb_sup (s : State) (u : Nat) (b : Ucb) : (s.setUcb u b).sup = s.sup := rfl
@[simp] theorem State.setUcb_agg (s : State) (u : Nat) (b : Ucb) : (s.setUcb u b).agg = s.agg := rfl
@[simp] theorem State.setUcb_safety (s : State) (u : Nat) (b : Ucb) : (s.setUcb u b).safety = s.safety := rfl
@[simp] theorem State.setUcb_cool (s : State) (u : Nat) (b : Ucb) : (s.setUcb u b).cool = s.cool := rfl
@[simp] theorem State.setUcb_host (s : State) (u : Nat) (b : Ucb) : (s.setUcb u b).host = s.host := rfl
@[simp] theorem State.setUcb_seqs (s : State) (u : Nat) (b : Ucb) : (s.setUcb u b).seqs = s.seqs := rfl
@[simp] theorem State.setUcb_nextOp (s : State) (u : Nat) (b : Ucb) : (s.setUcb u b).nextOp = s.nextOp := rfl
@[simp] theorem State.setUcb_str (s : State) (u : Nat) (b : Ucb) : (s.setUcb u b).str = s.str := rfl
@[simp] theorem State.setUcb_net (s : State) (u : Nat) (b : Ucb) : (s.setUcb u b).net = s.net := rfl
@[simp] theorem State.setUcb_mem (s : State) (u : Nat) (b : Ucb) : (s.setUcb u b).mem = s.mem := rfl
@[simp] theorem State.setUcb_tiles (s : State) (u : Nat) (b : Ucb) : (s.setUcb u b).tiles = s.tiles := rfl
@[simp] theorem State.setUcb_ep (s : State) (u : Nat) (b : Ucb) : (s.setUcb u b).ep = s.ep := rfl
@[simp] theorem State.setUcb_tab (s : State) (u : Nat) (b : Ucb) : (s.setUcb u b).tab = s.tab := rfl
@[simp] theorem State.setUcb_cat (s : State) (u : Nat) (b : Ucb) : (s.setUcb u b).cat = s.cat := rfl
@[simp] theorem State.setUcb_drbg (s : State) (u : Nat) (b : Ucb) : (s.setUcb u b).drbg = s.drbg := rfl
@[simp] theorem State.setUcb_ev (s : State) (u : Nat) (b : Ucb) : (s.setUcb u b).ev = s.ev := rfl
@[simp] theorem State.setUcb_fab (s : State) (u : Nat) (b : Ucb) : (s.setUcb u b).fab = s.fab := rfl
@[simp] theorem State.setUcb_link (s : State) (u : Nat) (b : Ucb) : (s.setUcb u b).link = s.link := rfl
@[simp] theorem State.setUcb_oap_can (s : State) (u : Nat) (b : Ucb) : (s.setUcb u b).oap.can = s.oap.can := rfl
@[simp] theorem State.setUcb_oap_t1s (s : State) (u : Nat) (b : Ucb) : (s.setUcb u b).oap.t1s = s.oap.t1s := rfl
@[simp] theorem State.setUcb_oap_mbx (s : State) (u : Nat) (b : Ucb) : (s.setUcb u b).oap.mbx = s.oap.mbx := rfl
@[simp] theorem State.setUcb_oap_turn (s : State) (u : Nat) (b : Ucb) : (s.setUcb u b).oap.turn = s.oap.turn := rfl
@[simp] theorem State.setUcb_oap_mbxReq (s : State) (u : Nat) (b : Ucb) : (s.setUcb u b).oap.mbxReq = s.oap.mbxReq := rfl
@[simp] theorem State.setUcb_oap_mbxRsp (s : State) (u : Nat) (b : Ucb) : (s.setUcb u b).oap.mbxRsp = s.oap.mbxRsp := rfl
@[simp] theorem State.setUcb_oap_mbxBusy (s : State) (u : Nat) (b : Ucb) : (s.setUcb u b).oap.mbxBusy = s.oap.mbxBusy := rfl
@[simp] theorem State.setUcb_oap_mbxRspValid (s : State) (u : Nat) (b : Ucb) : (s.setUcb u b).oap.mbxRspValid = s.oap.mbxRspValid := rfl
@[simp] theorem State.setUcb_oap_evtQ (s : State) (u : Nat) (b : Ucb) : (s.setUcb u b).oap.evtQ = s.oap.evtQ := rfl
@[simp] theorem State.setUcb_oap_inEffect (s : State) (u : Nat) (b : Ucb) : (s.setUcb u b).oap.inEffect = s.oap.inEffect := rfl
@[simp] theorem State.setUcb_oap_key (s : State) (u : Nat) (b : Ucb) : (s.setUcb u b).oap.key = s.oap.key := rfl
@[simp] theorem State.setUcb_oap_programs (s : State) (u : Nat) (b : Ucb) : (s.setUcb u b).oap.programs = s.oap.programs := rfl
@[simp] theorem State.setUcb_oap_waiting (s : State) (u : Nat) (b : Ucb) : (s.setUcb u b).oap.waiting = s.oap.waiting := rfl
@[simp] theorem State.setUcb_oap_staged (s : State) (u : Nat) (b : Ucb) : (s.setUcb u b).oap.staged = s.oap.staged := rfl
@[simp] theorem State.setUcb_oap_shadow (s : State) (u : Nat) (b : Ucb) : (s.setUcb u b).oap.shadow = s.oap.shadow := rfl
@[simp] theorem State.setUcb_oap_overridden (s : State) (u : Nat) (b : Ucb) : (s.setUcb u b).oap.overridden = s.oap.overridden := rfl
@[simp] theorem State.setUcb_oap_mirrorDiff (s : State) (u : Nat) (b : Ucb) : (s.setUcb u b).oap.mirrorDiff = s.oap.mirrorDiff := rfl

@[simp] theorem State.emit_pending (s : State) (o : Output) : (s.emit o).pending = s.pending := rfl
@[simp] theorem State.emit_freeCtr (s : State) (o : Output) : (s.emit o).freeCtr = s.freeCtr := rfl
@[simp] theorem State.emit_timeNs (s : State) (o : Output) : (s.emit o).timeNs = s.timeNs := rfl
@[simp] theorem State.emit_variant (s : State) (o : Output) : (s.emit o).variant = s.variant := rfl
@[simp] theorem State.emit_fusesOk (s : State) (o : Output) : (s.emit o).fusesOk = s.fusesOk := rfl
@[simp] theorem State.emit_dict (s : State) (o : Output) : (s.emit o).dict = s.dict := rfl
@[simp] theorem State.emit_blocks (s : State) (o : Output) : (s.emit o).blocks = s.blocks := rfl
@[simp] theorem State.emit_sup (s : State) (o : Output) : (s.emit o).sup = s.sup := rfl
@[simp] theorem State.emit_ucbs (s : State) (o : Output) : (s.emit o).ucbs = s.ucbs := rfl
@[simp] theorem State.emit_oap (s : State) (o : Output) : (s.emit o).oap = s.oap := rfl
@[simp] theorem State.emit_agg (s : State) (o : Output) : (s.emit o).agg = s.agg := rfl
@[simp] theorem State.emit_safety (s : State) (o : Output) : (s.emit o).safety = s.safety := rfl
@[simp] theorem State.emit_cool (s : State) (o : Output) : (s.emit o).cool = s.cool := rfl
@[simp] theorem State.emit_host (s : State) (o : Output) : (s.emit o).host = s.host := rfl
@[simp] theorem State.emit_seqs (s : State) (o : Output) : (s.emit o).seqs = s.seqs := rfl
@[simp] theorem State.emit_nextOp (s : State) (o : Output) : (s.emit o).nextOp = s.nextOp := rfl
@[simp] theorem State.emit_str (s : State) (o : Output) : (s.emit o).str = s.str := rfl
@[simp] theorem State.emit_net (s : State) (o : Output) : (s.emit o).net = s.net := rfl
@[simp] theorem State.emit_mem (s : State) (o : Output) : (s.emit o).mem = s.mem := rfl
@[simp] theorem State.emit_tiles (s : State) (o : Output) : (s.emit o).tiles = s.tiles := rfl
@[simp] theorem State.emit_ep (s : State) (o : Output) : (s.emit o).ep = s.ep := rfl
@[simp] theorem State.emit_tab (s : State) (o : Output) : (s.emit o).tab = s.tab := rfl
@[simp] theorem State.emit_cat (s : State) (o : Output) : (s.emit o).cat = s.cat := rfl
@[simp] theorem State.emit_drbg (s : State) (o : Output) : (s.emit o).drbg = s.drbg := rfl
@[simp] theorem State.emit_ev (s : State) (o : Output) : (s.emit o).ev = s.ev := rfl
@[simp] theorem State.emit_fab (s : State) (o : Output) : (s.emit o).fab = s.fab := rfl
@[simp] theorem State.emit_link (s : State) (o : Output) : (s.emit o).link = s.link := rfl
@[simp] theorem State.emit_captured (s : State) (o : Output) : (s.emit o).captured = s.captured := rfl

@[simp] theorem State.setVec_pending (s : State) (fn v : Nat) (x : Vector_) : (s.setVec fn v x).pending = s.pending := rfl
@[simp] theorem State.setVec_out (s : State) (fn v : Nat) (x : Vector_) : (s.setVec fn v x).out = s.out := rfl
@[simp] theorem State.setVec_freeCtr (s : State) (fn v : Nat) (x : Vector_) : (s.setVec fn v x).freeCtr = s.freeCtr := rfl
@[simp] theorem State.setVec_timeNs (s : State) (fn v : Nat) (x : Vector_) : (s.setVec fn v x).timeNs = s.timeNs := rfl
@[simp] theorem State.setVec_variant (s : State) (fn v : Nat) (x : Vector_) : (s.setVec fn v x).variant = s.variant := rfl
@[simp] theorem State.setVec_fusesOk (s : State) (fn v : Nat) (x : Vector_) : (s.setVec fn v x).fusesOk = s.fusesOk := rfl
@[simp] theorem State.setVec_dict (s : State) (fn v : Nat) (x : Vector_) : (s.setVec fn v x).dict = s.dict := rfl
@[simp] theorem State.setVec_blocks (s : State) (fn v : Nat) (x : Vector_) : (s.setVec fn v x).blocks = s.blocks := rfl
@[simp] theorem State.setVec_sup (s : State) (fn v : Nat) (x : Vector_) : (s.setVec fn v x).sup = s.sup := rfl
@[simp] theorem State.setVec_ucbs (s : State) (fn v : Nat) (x : Vector_) : (s.setVec fn v x).ucbs = s.ucbs := rfl
@[simp] theorem State.setVec_oap (s : State) (fn v : Nat) (x : Vector_) : (s.setVec fn v x).oap = s.oap := rfl
@[simp] theorem State.setVec_agg (s : State) (fn v : Nat) (x : Vector_) : (s.setVec fn v x).agg = s.agg := rfl
@[simp] theorem State.setVec_safety (s : State) (fn v : Nat) (x : Vector_) : (s.setVec fn v x).safety = s.safety := rfl
@[simp] theorem State.setVec_cool (s : State) (fn v : Nat) (x : Vector_) : (s.setVec fn v x).cool = s.cool := rfl
@[simp] theorem State.setVec_seqs (s : State) (fn v : Nat) (x : Vector_) : (s.setVec fn v x).seqs = s.seqs := rfl
@[simp] theorem State.setVec_nextOp (s : State) (fn v : Nat) (x : Vector_) : (s.setVec fn v x).nextOp = s.nextOp := rfl
@[simp] theorem State.setVec_str (s : State) (fn v : Nat) (x : Vector_) : (s.setVec fn v x).str = s.str := rfl
@[simp] theorem State.setVec_net (s : State) (fn v : Nat) (x : Vector_) : (s.setVec fn v x).net = s.net := rfl
@[simp] theorem State.setVec_mem (s : State) (fn v : Nat) (x : Vector_) : (s.setVec fn v x).mem = s.mem := rfl
@[simp] theorem State.setVec_tiles (s : State) (fn v : Nat) (x : Vector_) : (s.setVec fn v x).tiles = s.tiles := rfl
@[simp] theorem State.setVec_ep (s : State) (fn v : Nat) (x : Vector_) : (s.setVec fn v x).ep = s.ep := rfl
@[simp] theorem State.setVec_tab (s : State) (fn v : Nat) (x : Vector_) : (s.setVec fn v x).tab = s.tab := rfl
@[simp] theorem State.setVec_cat (s : State) (fn v : Nat) (x : Vector_) : (s.setVec fn v x).cat = s.cat := rfl
@[simp] theorem State.setVec_drbg (s : State) (fn v : Nat) (x : Vector_) : (s.setVec fn v x).drbg = s.drbg := rfl
@[simp] theorem State.setVec_ev (s : State) (fn v : Nat) (x : Vector_) : (s.setVec fn v x).ev = s.ev := rfl
@[simp] theorem State.setVec_fab (s : State) (fn v : Nat) (x : Vector_) : (s.setVec fn v x).fab = s.fab := rfl
@[simp] theorem State.setVec_link (s : State) (fn v : Nat) (x : Vector_) : (s.setVec fn v x).link = s.link := rfl
@[simp] theorem State.setVec_host_linkUp (s : State) (fn v : Nat) (x : Vector_) : (s.setVec fn v x).host.linkUp = s.host.linkUp := rfl
@[simp] theorem State.setVec_host_rate (s : State) (fn v : Nat) (x : Vector_) : (s.setVec fn v x).host.rate = s.host.rate := rfl
@[simp] theorem State.setVec_host_width (s : State) (fn v : Nat) (x : Vector_) : (s.setVec fn v x).host.width = s.host.width := rfl
@[simp] theorem State.setVec_host_totalVfs (s : State) (fn v : Nat) (x : Vector_) : (s.setVec fn v x).host.totalVfs = s.host.totalVfs := rfl
@[simp] theorem State.setVec_host_vfMsix (s : State) (fn v : Nat) (x : Vector_) : (s.setVec fn v x).host.vfMsix = s.host.vfMsix := rfl
@[simp] theorem State.setVec_host_vfBar2Log2 (s : State) (fn v : Nat) (x : Vector_) : (s.setVec fn v x).host.vfBar2Log2 = s.host.vfBar2Log2 := rfl
@[simp] theorem State.setVec_host_numVfs (s : State) (fn v : Nat) (x : Vector_) : (s.setVec fn v x).host.numVfs = s.host.numVfs := rfl
@[simp] theorem State.setVec_host_vfEnable (s : State) (fn v : Nat) (x : Vector_) : (s.setVec fn v x).host.vfEnable = s.host.vfEnable := rfl
@[simp] theorem State.setVec_host_msixOn (s : State) (fn v : Nat) (x : Vector_) : (s.setVec fn v x).host.msixOn = s.host.msixOn := rfl
@[simp] theorem State.setVec_host_fnMask (s : State) (fn v : Nat) (x : Vector_) : (s.setVec fn v x).host.fnMask = s.host.fnMask := rfl
@[simp] theorem State.setVec_host_fresh (s : State) (fn v : Nat) (x : Vector_) : (s.setVec fn v x).host.fresh = s.host.fresh := rfl
@[simp] theorem State.setVec_host_bar2Ctx (s : State) (fn v : Nat) (x : Vector_) : (s.setVec fn v x).host.bar2Ctx = s.host.bar2Ctx := rfl
@[simp] theorem State.setVec_host_fnStatus (s : State) (fn v : Nat) (x : Vector_) : (s.setVec fn v x).host.fnStatus = s.host.fnStatus := rfl
@[simp] theorem State.setVec_host_ctxBind (s : State) (fn v : Nat) (x : Vector_) : (s.setVec fn v x).host.ctxBind = s.host.ctxBind := rfl
@[simp] theorem State.setVec_host_ringBind (s : State) (fn v : Nat) (x : Vector_) : (s.setVec fn v x).host.ringBind = s.host.ringBind := rfl
@[simp] theorem State.setVec_host_irqRoute (s : State) (fn v : Nat) (x : Vector_) : (s.setVec fn v x).host.irqRoute = s.host.irqRoute := rfl
@[simp] theorem State.setVec_host_irqMultihit (s : State) (fn v : Nat) (x : Vector_) : (s.setVec fn v x).host.irqMultihit = s.host.irqMultihit := rfl
@[simp] theorem State.setVec_host_rings (s : State) (fn v : Nat) (x : Vector_) : (s.setVec fn v x).host.rings = s.host.rings := rfl
@[simp] theorem State.setVec_host_cplBuf (s : State) (fn v : Nat) (x : Vector_) : (s.setVec fn v x).host.cplBuf = s.host.cplBuf := rfl
@[simp] theorem State.setVec_host_lastServed (s : State) (fn v : Nat) (x : Vector_) : (s.setVec fn v x).host.lastServed = s.host.lastServed := rfl
@[simp] theorem State.setVec_host_used (s : State) (fn v : Nat) (x : Vector_) : (s.setVec fn v x).host.used = s.host.used := rfl
@[simp] theorem State.setVec_host_reads (s : State) (fn v : Nat) (x : Vector_) : (s.setVec fn v x).host.reads = s.host.reads := rfl
@[simp] theorem State.setVec_host_nextTag (s : State) (fn v : Nat) (x : Vector_) : (s.setVec fn v x).host.nextTag = s.host.nextTag := rfl
@[simp] theorem State.setVec_host_bar2 (s : State) (fn v : Nat) (x : Vector_) : (s.setVec fn v x).host.bar2 = s.host.bar2 := rfl
@[simp] theorem State.setVec_host_nextBar2 (s : State) (fn v : Nat) (x : Vector_) : (s.setVec fn v x).host.nextBar2 = s.host.nextBar2 := rfl
@[simp] theorem State.setVec_captured (s : State) (fn v : Nat) (x : Vector_) : (s.setVec fn v x).captured = s.captured := rfl
@[simp] theorem State.setVec_host_held (s : State) (fn v : Nat) (x : Vector_) : (s.setVec fn v x).host.held = s.host.held := rfl
@[simp] theorem State.setVec_host_power (s : State) (fn v : Nat) (x : Vector_) : (s.setVec fn v x).host.power = s.host.power := rfl
@[simp] theorem State.setVec_host_aspm (s : State) (fn v : Nat) (x : Vector_) : (s.setVec fn v x).host.aspm = s.host.aspm := rfl
@[simp] theorem State.setVec_host_mps (s : State) (fn v : Nat) (x : Vector_) : (s.setVec fn v x).host.mps = s.host.mps := rfl
@[simp] theorem State.setVec_host_mrrs (s : State) (fn v : Nat) (x : Vector_) : (s.setVec fn v x).host.mrrs = s.host.mrrs := rfl
@[simp] theorem State.setVec_host_aer (s : State) (fn v : Nat) (x : Vector_) : (s.setVec fn v x).host.aer = s.host.aer := rfl
@[simp] theorem State.setVec_host_ecrc (s : State) (fn v : Nat) (x : Vector_) : (s.setVec fn v x).host.ecrc = s.host.ecrc := rfl

@[simp] theorem State.rawWrite_pending (s : State) (a : Nat) (bs : List Byte) : (s.rawWrite a bs).pending = s.pending := rfl
@[simp] theorem State.rawWrite_out (s : State) (a : Nat) (bs : List Byte) : (s.rawWrite a bs).out = s.out := rfl
@[simp] theorem State.rawWrite_freeCtr (s : State) (a : Nat) (bs : List Byte) : (s.rawWrite a bs).freeCtr = s.freeCtr := rfl
@[simp] theorem State.rawWrite_timeNs (s : State) (a : Nat) (bs : List Byte) : (s.rawWrite a bs).timeNs = s.timeNs := rfl
@[simp] theorem State.rawWrite_variant (s : State) (a : Nat) (bs : List Byte) : (s.rawWrite a bs).variant = s.variant := rfl
@[simp] theorem State.rawWrite_fusesOk (s : State) (a : Nat) (bs : List Byte) : (s.rawWrite a bs).fusesOk = s.fusesOk := rfl
@[simp] theorem State.rawWrite_dict (s : State) (a : Nat) (bs : List Byte) : (s.rawWrite a bs).dict = s.dict := rfl
@[simp] theorem State.rawWrite_blocks (s : State) (a : Nat) (bs : List Byte) : (s.rawWrite a bs).blocks = s.blocks := rfl
@[simp] theorem State.rawWrite_sup (s : State) (a : Nat) (bs : List Byte) : (s.rawWrite a bs).sup = s.sup := rfl
@[simp] theorem State.rawWrite_ucbs (s : State) (a : Nat) (bs : List Byte) : (s.rawWrite a bs).ucbs = s.ucbs := rfl
@[simp] theorem State.rawWrite_oap (s : State) (a : Nat) (bs : List Byte) : (s.rawWrite a bs).oap = s.oap := rfl
@[simp] theorem State.rawWrite_agg (s : State) (a : Nat) (bs : List Byte) : (s.rawWrite a bs).agg = s.agg := rfl
@[simp] theorem State.rawWrite_safety (s : State) (a : Nat) (bs : List Byte) : (s.rawWrite a bs).safety = s.safety := rfl
@[simp] theorem State.rawWrite_cool (s : State) (a : Nat) (bs : List Byte) : (s.rawWrite a bs).cool = s.cool := rfl
@[simp] theorem State.rawWrite_host (s : State) (a : Nat) (bs : List Byte) : (s.rawWrite a bs).host = s.host := rfl
@[simp] theorem State.rawWrite_seqs (s : State) (a : Nat) (bs : List Byte) : (s.rawWrite a bs).seqs = s.seqs := rfl
@[simp] theorem State.rawWrite_nextOp (s : State) (a : Nat) (bs : List Byte) : (s.rawWrite a bs).nextOp = s.nextOp := rfl
@[simp] theorem State.rawWrite_str (s : State) (a : Nat) (bs : List Byte) : (s.rawWrite a bs).str = s.str := rfl
@[simp] theorem State.rawWrite_net (s : State) (a : Nat) (bs : List Byte) : (s.rawWrite a bs).net = s.net := rfl
@[simp] theorem State.rawWrite_tiles (s : State) (a : Nat) (bs : List Byte) : (s.rawWrite a bs).tiles = s.tiles := rfl
@[simp] theorem State.rawWrite_ep (s : State) (a : Nat) (bs : List Byte) : (s.rawWrite a bs).ep = s.ep := rfl
@[simp] theorem State.rawWrite_tab (s : State) (a : Nat) (bs : List Byte) : (s.rawWrite a bs).tab = s.tab := rfl
@[simp] theorem State.rawWrite_cat (s : State) (a : Nat) (bs : List Byte) : (s.rawWrite a bs).cat = s.cat := rfl
@[simp] theorem State.rawWrite_drbg (s : State) (a : Nat) (bs : List Byte) : (s.rawWrite a bs).drbg = s.drbg := rfl
@[simp] theorem State.rawWrite_ev (s : State) (a : Nat) (bs : List Byte) : (s.rawWrite a bs).ev = s.ev := rfl
@[simp] theorem State.rawWrite_fab (s : State) (a : Nat) (bs : List Byte) : (s.rawWrite a bs).fab = s.fab := rfl
@[simp] theorem State.rawWrite_link (s : State) (a : Nat) (bs : List Byte) : (s.rawWrite a bs).link = s.link := rfl
@[simp] theorem State.rawWrite_mem_poison (s : State) (a : Nat) (bs : List Byte) : (s.rawWrite a bs).mem.poison = s.mem.poison := rfl
@[simp] theorem State.rawWrite_mem_ecc (s : State) (a : Nat) (bs : List Byte) : (s.rawWrite a bs).mem.ecc = s.mem.ecc := rfl
@[simp] theorem State.rawWrite_mem_lpMib (s : State) (a : Nat) (bs : List Byte) : (s.rawWrite a bs).mem.lpMib = s.mem.lpMib := rfl
@[simp] theorem State.rawWrite_mem_lpRate (s : State) (a : Nat) (bs : List Byte) : (s.rawWrite a bs).mem.lpRate = s.mem.lpRate := rfl
@[simp] theorem State.rawWrite_mem_lpFail (s : State) (a : Nat) (bs : List Byte) : (s.rawWrite a bs).mem.lpFail = s.mem.lpFail := rfl
@[simp] theorem State.rawWrite_mem_hbFail (s : State) (a : Nat) (bs : List Byte) : (s.rawWrite a bs).mem.hbFail = s.mem.hbFail := rfl
@[simp] theorem State.rawWrite_mem_hbRepairs (s : State) (a : Nat) (bs : List Byte) : (s.rawWrite a bs).mem.hbRepairs = s.mem.hbRepairs := rfl
@[simp] theorem State.rawWrite_mem_hbmLinear (s : State) (a : Nat) (bs : List Byte) : (s.rawWrite a bs).mem.hbmLinear = s.mem.hbmLinear := rfl
@[simp] theorem State.rawWrite_mem_lpLinear (s : State) (a : Nat) (bs : List Byte) : (s.rawWrite a bs).mem.lpLinear = s.mem.lpLinear := rfl
@[simp] theorem State.rawWrite_mem_lpFallback (s : State) (a : Nat) (bs : List Byte) : (s.rawWrite a bs).mem.lpFallback = s.mem.lpFallback := rfl
@[simp] theorem State.rawWrite_mem_inlineEcc (s : State) (a : Nat) (bs : List Byte) : (s.rawWrite a bs).mem.inlineEcc = s.mem.inlineEcc := rfl
@[simp] theorem State.rawWrite_mem_apt (s : State) (a : Nat) (bs : List Byte) : (s.rawWrite a bs).mem.apt = s.mem.apt := rfl
@[simp] theorem State.rawWrite_mem_aptCtl (s : State) (a : Nat) (bs : List Byte) : (s.rawWrite a bs).mem.aptCtl = s.mem.aptCtl := rfl
@[simp] theorem State.rawWrite_mem_scrubPos (s : State) (a : Nat) (bs : List Byte) : (s.rawWrite a bs).mem.scrubPos = s.mem.scrubPos := rfl
@[simp] theorem State.rawWrite_mem_logLostRaised (s : State) (a : Nat) (bs : List Byte) : (s.rawWrite a bs).mem.logLostRaised = s.mem.logLostRaised := rfl
@[simp] theorem State.rawWrite_mem_fabricWin (s : State) (a : Nat) (bs : List Byte) : (s.rawWrite a bs).mem.fabricWin = s.mem.fabricWin := rfl
@[simp] theorem State.rawWrite_mem_redirect (s : State) (a : Nat) (bs : List Byte) : (s.rawWrite a bs).mem.redirect = s.mem.redirect := rfl
@[simp] theorem State.rawWrite_mem_remoteRsv (s : State) (a : Nat) (bs : List Byte) : (s.rawWrite a bs).mem.remoteRsv = s.mem.remoteRsv := rfl
@[simp] theorem State.rawWrite_captured (s : State) (a : Nat) (bs : List Byte) : (s.rawWrite a bs).captured = s.captured := rfl
@[simp] theorem State.rawWrite_mem_lpRateMts (s : State) (a : Nat) (bs : List Byte) : (s.rawWrite a bs).mem.lpRateMts = s.mem.lpRateMts := rfl
@[simp] theorem State.rawWrite_mem_lpHold (s : State) (a : Nat) (bs : List Byte) : (s.rawWrite a bs).mem.lpHold = s.mem.lpHold := rfl

@[simp] theorem State.setSec_pending (s : State) (c : Nat) (x : Sec) : (s.setSec c x).pending = s.pending := rfl
@[simp] theorem State.setSec_out (s : State) (c : Nat) (x : Sec) : (s.setSec c x).out = s.out := rfl
@[simp] theorem State.setSec_freeCtr (s : State) (c : Nat) (x : Sec) : (s.setSec c x).freeCtr = s.freeCtr := rfl
@[simp] theorem State.setSec_timeNs (s : State) (c : Nat) (x : Sec) : (s.setSec c x).timeNs = s.timeNs := rfl
@[simp] theorem State.setSec_variant (s : State) (c : Nat) (x : Sec) : (s.setSec c x).variant = s.variant := rfl
@[simp] theorem State.setSec_fusesOk (s : State) (c : Nat) (x : Sec) : (s.setSec c x).fusesOk = s.fusesOk := rfl
@[simp] theorem State.setSec_dict (s : State) (c : Nat) (x : Sec) : (s.setSec c x).dict = s.dict := rfl
@[simp] theorem State.setSec_blocks (s : State) (c : Nat) (x : Sec) : (s.setSec c x).blocks = s.blocks := rfl
@[simp] theorem State.setSec_sup (s : State) (c : Nat) (x : Sec) : (s.setSec c x).sup = s.sup := rfl
@[simp] theorem State.setSec_ucbs (s : State) (c : Nat) (x : Sec) : (s.setSec c x).ucbs = s.ucbs := rfl
@[simp] theorem State.setSec_oap (s : State) (c : Nat) (x : Sec) : (s.setSec c x).oap = s.oap := rfl
@[simp] theorem State.setSec_agg (s : State) (c : Nat) (x : Sec) : (s.setSec c x).agg = s.agg := rfl
@[simp] theorem State.setSec_safety (s : State) (c : Nat) (x : Sec) : (s.setSec c x).safety = s.safety := rfl
@[simp] theorem State.setSec_cool (s : State) (c : Nat) (x : Sec) : (s.setSec c x).cool = s.cool := rfl
@[simp] theorem State.setSec_host (s : State) (c : Nat) (x : Sec) : (s.setSec c x).host = s.host := rfl
@[simp] theorem State.setSec_seqs (s : State) (c : Nat) (x : Sec) : (s.setSec c x).seqs = s.seqs := rfl
@[simp] theorem State.setSec_nextOp (s : State) (c : Nat) (x : Sec) : (s.setSec c x).nextOp = s.nextOp := rfl
@[simp] theorem State.setSec_str (s : State) (c : Nat) (x : Sec) : (s.setSec c x).str = s.str := rfl
@[simp] theorem State.setSec_net (s : State) (c : Nat) (x : Sec) : (s.setSec c x).net = s.net := rfl
@[simp] theorem State.setSec_mem (s : State) (c : Nat) (x : Sec) : (s.setSec c x).mem = s.mem := rfl
@[simp] theorem State.setSec_tiles (s : State) (c : Nat) (x : Sec) : (s.setSec c x).tiles = s.tiles := rfl
@[simp] theorem State.setSec_ep (s : State) (c : Nat) (x : Sec) : (s.setSec c x).ep = s.ep := rfl
@[simp] theorem State.setSec_tab (s : State) (c : Nat) (x : Sec) : (s.setSec c x).tab = s.tab := rfl
@[simp] theorem State.setSec_cat (s : State) (c : Nat) (x : Sec) : (s.setSec c x).cat = s.cat := rfl
@[simp] theorem State.setSec_drbg (s : State) (c : Nat) (x : Sec) : (s.setSec c x).drbg = s.drbg := rfl
@[simp] theorem State.setSec_fab (s : State) (c : Nat) (x : Sec) : (s.setSec c x).fab = s.fab := rfl
@[simp] theorem State.setSec_link (s : State) (c : Nat) (x : Sec) : (s.setSec c x).link = s.link := rfl
@[simp] theorem State.setSec_ev_sps (s : State) (c : Nat) (x : Sec) : (s.setSec c x).ev.sps = s.ev.sps := rfl
@[simp] theorem State.setSec_captured (s : State) (c : Nat) (x : Sec) : (s.setSec c x).captured = s.captured := rfl

@[simp] theorem State.setSp_pending (s : State) (p : Nat) (x : Sp) : (s.setSp p x).pending = s.pending := rfl
@[simp] theorem State.setSp_out (s : State) (p : Nat) (x : Sp) : (s.setSp p x).out = s.out := rfl
@[simp] theorem State.setSp_freeCtr (s : State) (p : Nat) (x : Sp) : (s.setSp p x).freeCtr = s.freeCtr := rfl
@[simp] theorem State.setSp_timeNs (s : State) (p : Nat) (x : Sp) : (s.setSp p x).timeNs = s.timeNs := rfl
@[simp] theorem State.setSp_variant (s : State) (p : Nat) (x : Sp) : (s.setSp p x).variant = s.variant := rfl
@[simp] theorem State.setSp_fusesOk (s : State) (p : Nat) (x : Sp) : (s.setSp p x).fusesOk = s.fusesOk := rfl
@[simp] theorem State.setSp_dict (s : State) (p : Nat) (x : Sp) : (s.setSp p x).dict = s.dict := rfl
@[simp] theorem State.setSp_blocks (s : State) (p : Nat) (x : Sp) : (s.setSp p x).blocks = s.blocks := rfl
@[simp] theorem State.setSp_sup (s : State) (p : Nat) (x : Sp) : (s.setSp p x).sup = s.sup := rfl
@[simp] theorem State.setSp_ucbs (s : State) (p : Nat) (x : Sp) : (s.setSp p x).ucbs = s.ucbs := rfl
@[simp] theorem State.setSp_oap (s : State) (p : Nat) (x : Sp) : (s.setSp p x).oap = s.oap := rfl
@[simp] theorem State.setSp_agg (s : State) (p : Nat) (x : Sp) : (s.setSp p x).agg = s.agg := rfl
@[simp] theorem State.setSp_safety (s : State) (p : Nat) (x : Sp) : (s.setSp p x).safety = s.safety := rfl
@[simp] theorem State.setSp_cool (s : State) (p : Nat) (x : Sp) : (s.setSp p x).cool = s.cool := rfl
@[simp] theorem State.setSp_host (s : State) (p : Nat) (x : Sp) : (s.setSp p x).host = s.host := rfl
@[simp] theorem State.setSp_seqs (s : State) (p : Nat) (x : Sp) : (s.setSp p x).seqs = s.seqs := rfl
@[simp] theorem State.setSp_nextOp (s : State) (p : Nat) (x : Sp) : (s.setSp p x).nextOp = s.nextOp := rfl
@[simp] theorem State.setSp_str (s : State) (p : Nat) (x : Sp) : (s.setSp p x).str = s.str := rfl
@[simp] theorem State.setSp_net (s : State) (p : Nat) (x : Sp) : (s.setSp p x).net = s.net := rfl
@[simp] theorem State.setSp_mem (s : State) (p : Nat) (x : Sp) : (s.setSp p x).mem = s.mem := rfl
@[simp] theorem State.setSp_tiles (s : State) (p : Nat) (x : Sp) : (s.setSp p x).tiles = s.tiles := rfl
@[simp] theorem State.setSp_ep (s : State) (p : Nat) (x : Sp) : (s.setSp p x).ep = s.ep := rfl
@[simp] theorem State.setSp_tab (s : State) (p : Nat) (x : Sp) : (s.setSp p x).tab = s.tab := rfl
@[simp] theorem State.setSp_cat (s : State) (p : Nat) (x : Sp) : (s.setSp p x).cat = s.cat := rfl
@[simp] theorem State.setSp_drbg (s : State) (p : Nat) (x : Sp) : (s.setSp p x).drbg = s.drbg := rfl
@[simp] theorem State.setSp_fab (s : State) (p : Nat) (x : Sp) : (s.setSp p x).fab = s.fab := rfl
@[simp] theorem State.setSp_link (s : State) (p : Nat) (x : Sp) : (s.setSp p x).link = s.link := rfl
@[simp] theorem State.setSp_ev_secs (s : State) (p : Nat) (x : Sp) : (s.setSp p x).ev.secs = s.ev.secs := rfl
@[simp] theorem State.setSp_captured (s : State) (p : Nat) (x : Sp) : (s.setSp p x).captured = s.captured := rfl

@[simp] theorem State.setRing_pending (s : State) (n : Nat) (r : Ring) : (s.setRing n r).pending = s.pending := rfl
@[simp] theorem State.setRing_out (s : State) (n : Nat) (r : Ring) : (s.setRing n r).out = s.out := rfl
@[simp] theorem State.setRing_freeCtr (s : State) (n : Nat) (r : Ring) : (s.setRing n r).freeCtr = s.freeCtr := rfl
@[simp] theorem State.setRing_timeNs (s : State) (n : Nat) (r : Ring) : (s.setRing n r).timeNs = s.timeNs := rfl
@[simp] theorem State.setRing_variant (s : State) (n : Nat) (r : Ring) : (s.setRing n r).variant = s.variant := rfl
@[simp] theorem State.setRing_fusesOk (s : State) (n : Nat) (r : Ring) : (s.setRing n r).fusesOk = s.fusesOk := rfl
@[simp] theorem State.setRing_dict (s : State) (n : Nat) (r : Ring) : (s.setRing n r).dict = s.dict := rfl
@[simp] theorem State.setRing_blocks (s : State) (n : Nat) (r : Ring) : (s.setRing n r).blocks = s.blocks := rfl
@[simp] theorem State.setRing_sup (s : State) (n : Nat) (r : Ring) : (s.setRing n r).sup = s.sup := rfl
@[simp] theorem State.setRing_ucbs (s : State) (n : Nat) (r : Ring) : (s.setRing n r).ucbs = s.ucbs := rfl
@[simp] theorem State.setRing_oap (s : State) (n : Nat) (r : Ring) : (s.setRing n r).oap = s.oap := rfl
@[simp] theorem State.setRing_agg (s : State) (n : Nat) (r : Ring) : (s.setRing n r).agg = s.agg := rfl
@[simp] theorem State.setRing_safety (s : State) (n : Nat) (r : Ring) : (s.setRing n r).safety = s.safety := rfl
@[simp] theorem State.setRing_cool (s : State) (n : Nat) (r : Ring) : (s.setRing n r).cool = s.cool := rfl
@[simp] theorem State.setRing_seqs (s : State) (n : Nat) (r : Ring) : (s.setRing n r).seqs = s.seqs := rfl
@[simp] theorem State.setRing_nextOp (s : State) (n : Nat) (r : Ring) : (s.setRing n r).nextOp = s.nextOp := rfl
@[simp] theorem State.setRing_str (s : State) (n : Nat) (r : Ring) : (s.setRing n r).str = s.str := rfl
@[simp] theorem State.setRing_net (s : State) (n : Nat) (r : Ring) : (s.setRing n r).net = s.net := rfl
@[simp] theorem State.setRing_mem (s : State) (n : Nat) (r : Ring) : (s.setRing n r).mem = s.mem := rfl
@[simp] theorem State.setRing_tiles (s : State) (n : Nat) (r : Ring) : (s.setRing n r).tiles = s.tiles := rfl
@[simp] theorem State.setRing_ep (s : State) (n : Nat) (r : Ring) : (s.setRing n r).ep = s.ep := rfl
@[simp] theorem State.setRing_tab (s : State) (n : Nat) (r : Ring) : (s.setRing n r).tab = s.tab := rfl
@[simp] theorem State.setRing_cat (s : State) (n : Nat) (r : Ring) : (s.setRing n r).cat = s.cat := rfl
@[simp] theorem State.setRing_drbg (s : State) (n : Nat) (r : Ring) : (s.setRing n r).drbg = s.drbg := rfl
@[simp] theorem State.setRing_ev (s : State) (n : Nat) (r : Ring) : (s.setRing n r).ev = s.ev := rfl
@[simp] theorem State.setRing_fab (s : State) (n : Nat) (r : Ring) : (s.setRing n r).fab = s.fab := rfl
@[simp] theorem State.setRing_link (s : State) (n : Nat) (r : Ring) : (s.setRing n r).link = s.link := rfl
@[simp] theorem State.setRing_host_linkUp (s : State) (n : Nat) (r : Ring) : (s.setRing n r).host.linkUp = s.host.linkUp := rfl
@[simp] theorem State.setRing_host_rate (s : State) (n : Nat) (r : Ring) : (s.setRing n r).host.rate = s.host.rate := rfl
@[simp] theorem State.setRing_host_width (s : State) (n : Nat) (r : Ring) : (s.setRing n r).host.width = s.host.width := rfl
@[simp] theorem State.setRing_host_totalVfs (s : State) (n : Nat) (r : Ring) : (s.setRing n r).host.totalVfs = s.host.totalVfs := rfl
@[simp] theorem State.setRing_host_vfMsix (s : State) (n : Nat) (r : Ring) : (s.setRing n r).host.vfMsix = s.host.vfMsix := rfl
@[simp] theorem State.setRing_host_vfBar2Log2 (s : State) (n : Nat) (r : Ring) : (s.setRing n r).host.vfBar2Log2 = s.host.vfBar2Log2 := rfl
@[simp] theorem State.setRing_host_numVfs (s : State) (n : Nat) (r : Ring) : (s.setRing n r).host.numVfs = s.host.numVfs := rfl
@[simp] theorem State.setRing_host_vfEnable (s : State) (n : Nat) (r : Ring) : (s.setRing n r).host.vfEnable = s.host.vfEnable := rfl
@[simp] theorem State.setRing_host_msixOn (s : State) (n : Nat) (r : Ring) : (s.setRing n r).host.msixOn = s.host.msixOn := rfl
@[simp] theorem State.setRing_host_fnMask (s : State) (n : Nat) (r : Ring) : (s.setRing n r).host.fnMask = s.host.fnMask := rfl
@[simp] theorem State.setRing_host_fresh (s : State) (n : Nat) (r : Ring) : (s.setRing n r).host.fresh = s.host.fresh := rfl
@[simp] theorem State.setRing_host_bar2Ctx (s : State) (n : Nat) (r : Ring) : (s.setRing n r).host.bar2Ctx = s.host.bar2Ctx := rfl
@[simp] theorem State.setRing_host_fnStatus (s : State) (n : Nat) (r : Ring) : (s.setRing n r).host.fnStatus = s.host.fnStatus := rfl
@[simp] theorem State.setRing_host_ctxBind (s : State) (n : Nat) (r : Ring) : (s.setRing n r).host.ctxBind = s.host.ctxBind := rfl
@[simp] theorem State.setRing_host_ringBind (s : State) (n : Nat) (r : Ring) : (s.setRing n r).host.ringBind = s.host.ringBind := rfl
@[simp] theorem State.setRing_host_irqRoute (s : State) (n : Nat) (r : Ring) : (s.setRing n r).host.irqRoute = s.host.irqRoute := rfl
@[simp] theorem State.setRing_host_irqMultihit (s : State) (n : Nat) (r : Ring) : (s.setRing n r).host.irqMultihit = s.host.irqMultihit := rfl
@[simp] theorem State.setRing_host_vectors (s : State) (n : Nat) (r : Ring) : (s.setRing n r).host.vectors = s.host.vectors := rfl
@[simp] theorem State.setRing_host_cplBuf (s : State) (n : Nat) (r : Ring) : (s.setRing n r).host.cplBuf = s.host.cplBuf := rfl
@[simp] theorem State.setRing_host_lastServed (s : State) (n : Nat) (r : Ring) : (s.setRing n r).host.lastServed = s.host.lastServed := rfl
@[simp] theorem State.setRing_host_used (s : State) (n : Nat) (r : Ring) : (s.setRing n r).host.used = s.host.used := rfl
@[simp] theorem State.setRing_host_reads (s : State) (n : Nat) (r : Ring) : (s.setRing n r).host.reads = s.host.reads := rfl
@[simp] theorem State.setRing_host_nextTag (s : State) (n : Nat) (r : Ring) : (s.setRing n r).host.nextTag = s.host.nextTag := rfl
@[simp] theorem State.setRing_host_bar2 (s : State) (n : Nat) (r : Ring) : (s.setRing n r).host.bar2 = s.host.bar2 := rfl
@[simp] theorem State.setRing_host_nextBar2 (s : State) (n : Nat) (r : Ring) : (s.setRing n r).host.nextBar2 = s.host.nextBar2 := rfl
@[simp] theorem State.setRing_captured (s : State) (n : Nat) (r : Ring) : (s.setRing n r).captured = s.captured := rfl
@[simp] theorem State.setRing_host_held (s : State) (n : Nat) (r : Ring) : (s.setRing n r).host.held = s.host.held := rfl
@[simp] theorem State.setRing_host_power (s : State) (n : Nat) (r : Ring) : (s.setRing n r).host.power = s.host.power := rfl
@[simp] theorem State.setRing_host_aspm (s : State) (n : Nat) (r : Ring) : (s.setRing n r).host.aspm = s.host.aspm := rfl
@[simp] theorem State.setRing_host_mps (s : State) (n : Nat) (r : Ring) : (s.setRing n r).host.mps = s.host.mps := rfl
@[simp] theorem State.setRing_host_mrrs (s : State) (n : Nat) (r : Ring) : (s.setRing n r).host.mrrs = s.host.mrrs := rfl
@[simp] theorem State.setRing_host_aer (s : State) (n : Nat) (r : Ring) : (s.setRing n r).host.aer = s.host.aer := rfl
@[simp] theorem State.setRing_host_ecrc (s : State) (n : Nat) (r : Ring) : (s.setRing n r).host.ecrc = s.host.ecrc := rfl

@[simp] theorem State.setSeq_pending (s : State) (q : Nat) (x : Sequencer) : (s.setSeq q x).pending = s.pending := rfl
@[simp] theorem State.setSeq_out (s : State) (q : Nat) (x : Sequencer) : (s.setSeq q x).out = s.out := rfl
@[simp] theorem State.setSeq_freeCtr (s : State) (q : Nat) (x : Sequencer) : (s.setSeq q x).freeCtr = s.freeCtr := rfl
@[simp] theorem State.setSeq_timeNs (s : State) (q : Nat) (x : Sequencer) : (s.setSeq q x).timeNs = s.timeNs := rfl
@[simp] theorem State.setSeq_variant (s : State) (q : Nat) (x : Sequencer) : (s.setSeq q x).variant = s.variant := rfl
@[simp] theorem State.setSeq_fusesOk (s : State) (q : Nat) (x : Sequencer) : (s.setSeq q x).fusesOk = s.fusesOk := rfl
@[simp] theorem State.setSeq_dict (s : State) (q : Nat) (x : Sequencer) : (s.setSeq q x).dict = s.dict := rfl
@[simp] theorem State.setSeq_blocks (s : State) (q : Nat) (x : Sequencer) : (s.setSeq q x).blocks = s.blocks := rfl
@[simp] theorem State.setSeq_sup (s : State) (q : Nat) (x : Sequencer) : (s.setSeq q x).sup = s.sup := rfl
@[simp] theorem State.setSeq_ucbs (s : State) (q : Nat) (x : Sequencer) : (s.setSeq q x).ucbs = s.ucbs := rfl
@[simp] theorem State.setSeq_oap (s : State) (q : Nat) (x : Sequencer) : (s.setSeq q x).oap = s.oap := rfl
@[simp] theorem State.setSeq_agg (s : State) (q : Nat) (x : Sequencer) : (s.setSeq q x).agg = s.agg := rfl
@[simp] theorem State.setSeq_safety (s : State) (q : Nat) (x : Sequencer) : (s.setSeq q x).safety = s.safety := rfl
@[simp] theorem State.setSeq_cool (s : State) (q : Nat) (x : Sequencer) : (s.setSeq q x).cool = s.cool := rfl
@[simp] theorem State.setSeq_host (s : State) (q : Nat) (x : Sequencer) : (s.setSeq q x).host = s.host := rfl
@[simp] theorem State.setSeq_nextOp (s : State) (q : Nat) (x : Sequencer) : (s.setSeq q x).nextOp = s.nextOp := rfl
@[simp] theorem State.setSeq_str (s : State) (q : Nat) (x : Sequencer) : (s.setSeq q x).str = s.str := rfl
@[simp] theorem State.setSeq_net (s : State) (q : Nat) (x : Sequencer) : (s.setSeq q x).net = s.net := rfl
@[simp] theorem State.setSeq_mem (s : State) (q : Nat) (x : Sequencer) : (s.setSeq q x).mem = s.mem := rfl
@[simp] theorem State.setSeq_tiles (s : State) (q : Nat) (x : Sequencer) : (s.setSeq q x).tiles = s.tiles := rfl
@[simp] theorem State.setSeq_ep (s : State) (q : Nat) (x : Sequencer) : (s.setSeq q x).ep = s.ep := rfl
@[simp] theorem State.setSeq_tab (s : State) (q : Nat) (x : Sequencer) : (s.setSeq q x).tab = s.tab := rfl
@[simp] theorem State.setSeq_cat (s : State) (q : Nat) (x : Sequencer) : (s.setSeq q x).cat = s.cat := rfl
@[simp] theorem State.setSeq_drbg (s : State) (q : Nat) (x : Sequencer) : (s.setSeq q x).drbg = s.drbg := rfl
@[simp] theorem State.setSeq_ev (s : State) (q : Nat) (x : Sequencer) : (s.setSeq q x).ev = s.ev := rfl
@[simp] theorem State.setSeq_fab (s : State) (q : Nat) (x : Sequencer) : (s.setSeq q x).fab = s.fab := rfl
@[simp] theorem State.setSeq_link (s : State) (q : Nat) (x : Sequencer) : (s.setSeq q x).link = s.link := rfl
@[simp] theorem State.setSeq_captured (s : State) (q : Nat) (x : Sequencer) : (s.setSeq q x).captured = s.captured := rfl

@[simp] theorem State.setGe_pending (s : State) (g : Nat) (x : Gather) : (s.setGe g x).pending = s.pending := rfl
@[simp] theorem State.setGe_out (s : State) (g : Nat) (x : Gather) : (s.setGe g x).out = s.out := rfl
@[simp] theorem State.setGe_freeCtr (s : State) (g : Nat) (x : Gather) : (s.setGe g x).freeCtr = s.freeCtr := rfl
@[simp] theorem State.setGe_timeNs (s : State) (g : Nat) (x : Gather) : (s.setGe g x).timeNs = s.timeNs := rfl
@[simp] theorem State.setGe_variant (s : State) (g : Nat) (x : Gather) : (s.setGe g x).variant = s.variant := rfl
@[simp] theorem State.setGe_fusesOk (s : State) (g : Nat) (x : Gather) : (s.setGe g x).fusesOk = s.fusesOk := rfl
@[simp] theorem State.setGe_dict (s : State) (g : Nat) (x : Gather) : (s.setGe g x).dict = s.dict := rfl
@[simp] theorem State.setGe_blocks (s : State) (g : Nat) (x : Gather) : (s.setGe g x).blocks = s.blocks := rfl
@[simp] theorem State.setGe_sup (s : State) (g : Nat) (x : Gather) : (s.setGe g x).sup = s.sup := rfl
@[simp] theorem State.setGe_ucbs (s : State) (g : Nat) (x : Gather) : (s.setGe g x).ucbs = s.ucbs := rfl
@[simp] theorem State.setGe_oap (s : State) (g : Nat) (x : Gather) : (s.setGe g x).oap = s.oap := rfl
@[simp] theorem State.setGe_agg (s : State) (g : Nat) (x : Gather) : (s.setGe g x).agg = s.agg := rfl
@[simp] theorem State.setGe_safety (s : State) (g : Nat) (x : Gather) : (s.setGe g x).safety = s.safety := rfl
@[simp] theorem State.setGe_cool (s : State) (g : Nat) (x : Gather) : (s.setGe g x).cool = s.cool := rfl
@[simp] theorem State.setGe_host (s : State) (g : Nat) (x : Gather) : (s.setGe g x).host = s.host := rfl
@[simp] theorem State.setGe_seqs (s : State) (g : Nat) (x : Gather) : (s.setGe g x).seqs = s.seqs := rfl
@[simp] theorem State.setGe_nextOp (s : State) (g : Nat) (x : Gather) : (s.setGe g x).nextOp = s.nextOp := rfl
@[simp] theorem State.setGe_str (s : State) (g : Nat) (x : Gather) : (s.setGe g x).str = s.str := rfl
@[simp] theorem State.setGe_net (s : State) (g : Nat) (x : Gather) : (s.setGe g x).net = s.net := rfl
@[simp] theorem State.setGe_mem (s : State) (g : Nat) (x : Gather) : (s.setGe g x).mem = s.mem := rfl
@[simp] theorem State.setGe_tiles (s : State) (g : Nat) (x : Gather) : (s.setGe g x).tiles = s.tiles := rfl
@[simp] theorem State.setGe_ep (s : State) (g : Nat) (x : Gather) : (s.setGe g x).ep = s.ep := rfl
@[simp] theorem State.setGe_cat (s : State) (g : Nat) (x : Gather) : (s.setGe g x).cat = s.cat := rfl
@[simp] theorem State.setGe_drbg (s : State) (g : Nat) (x : Gather) : (s.setGe g x).drbg = s.drbg := rfl
@[simp] theorem State.setGe_ev (s : State) (g : Nat) (x : Gather) : (s.setGe g x).ev = s.ev := rfl
@[simp] theorem State.setGe_fab (s : State) (g : Nat) (x : Gather) : (s.setGe g x).fab = s.fab := rfl
@[simp] theorem State.setGe_link (s : State) (g : Nat) (x : Gather) : (s.setGe g x).link = s.link := rfl
@[simp] theorem State.setGe_tab_desc (s : State) (g : Nat) (x : Gather) : (s.setGe g x).tab.desc = s.tab.desc := rfl
@[simp] theorem State.setGe_tab_tags (s : State) (g : Nat) (x : Gather) : (s.setGe g x).tab.tags = s.tab.tags := rfl
@[simp] theorem State.setGe_tab_copies (s : State) (g : Nat) (x : Gather) : (s.setGe g x).tab.copies = s.tab.copies := rfl
@[simp] theorem State.setGe_tab_regStatus (s : State) (g : Nat) (x : Gather) : (s.setGe g x).tab.regStatus = s.tab.regStatus := rfl
@[simp] theorem State.setGe_tab_coll (s : State) (g : Nat) (x : Gather) : (s.setGe g x).tab.coll = s.tab.coll := rfl
@[simp] theorem State.setGe_captured (s : State) (g : Nat) (x : Gather) : (s.setGe g x).captured = s.captured := rfl

@[simp] theorem State.setTile_pending (s : State) (t : Nat) (x : Tile) : (s.setTile t x).pending = s.pending := rfl
@[simp] theorem State.setTile_out (s : State) (t : Nat) (x : Tile) : (s.setTile t x).out = s.out := rfl
@[simp] theorem State.setTile_freeCtr (s : State) (t : Nat) (x : Tile) : (s.setTile t x).freeCtr = s.freeCtr := rfl
@[simp] theorem State.setTile_timeNs (s : State) (t : Nat) (x : Tile) : (s.setTile t x).timeNs = s.timeNs := rfl
@[simp] theorem State.setTile_variant (s : State) (t : Nat) (x : Tile) : (s.setTile t x).variant = s.variant := rfl
@[simp] theorem State.setTile_fusesOk (s : State) (t : Nat) (x : Tile) : (s.setTile t x).fusesOk = s.fusesOk := rfl
@[simp] theorem State.setTile_dict (s : State) (t : Nat) (x : Tile) : (s.setTile t x).dict = s.dict := rfl
@[simp] theorem State.setTile_blocks (s : State) (t : Nat) (x : Tile) : (s.setTile t x).blocks = s.blocks := rfl
@[simp] theorem State.setTile_sup (s : State) (t : Nat) (x : Tile) : (s.setTile t x).sup = s.sup := rfl
@[simp] theorem State.setTile_ucbs (s : State) (t : Nat) (x : Tile) : (s.setTile t x).ucbs = s.ucbs := rfl
@[simp] theorem State.setTile_oap (s : State) (t : Nat) (x : Tile) : (s.setTile t x).oap = s.oap := rfl
@[simp] theorem State.setTile_agg (s : State) (t : Nat) (x : Tile) : (s.setTile t x).agg = s.agg := rfl
@[simp] theorem State.setTile_safety (s : State) (t : Nat) (x : Tile) : (s.setTile t x).safety = s.safety := rfl
@[simp] theorem State.setTile_cool (s : State) (t : Nat) (x : Tile) : (s.setTile t x).cool = s.cool := rfl
@[simp] theorem State.setTile_host (s : State) (t : Nat) (x : Tile) : (s.setTile t x).host = s.host := rfl
@[simp] theorem State.setTile_seqs (s : State) (t : Nat) (x : Tile) : (s.setTile t x).seqs = s.seqs := rfl
@[simp] theorem State.setTile_nextOp (s : State) (t : Nat) (x : Tile) : (s.setTile t x).nextOp = s.nextOp := rfl
@[simp] theorem State.setTile_str (s : State) (t : Nat) (x : Tile) : (s.setTile t x).str = s.str := rfl
@[simp] theorem State.setTile_net (s : State) (t : Nat) (x : Tile) : (s.setTile t x).net = s.net := rfl
@[simp] theorem State.setTile_mem (s : State) (t : Nat) (x : Tile) : (s.setTile t x).mem = s.mem := rfl
@[simp] theorem State.setTile_ep (s : State) (t : Nat) (x : Tile) : (s.setTile t x).ep = s.ep := rfl
@[simp] theorem State.setTile_tab (s : State) (t : Nat) (x : Tile) : (s.setTile t x).tab = s.tab := rfl
@[simp] theorem State.setTile_cat (s : State) (t : Nat) (x : Tile) : (s.setTile t x).cat = s.cat := rfl
@[simp] theorem State.setTile_drbg (s : State) (t : Nat) (x : Tile) : (s.setTile t x).drbg = s.drbg := rfl
@[simp] theorem State.setTile_ev (s : State) (t : Nat) (x : Tile) : (s.setTile t x).ev = s.ev := rfl
@[simp] theorem State.setTile_fab (s : State) (t : Nat) (x : Tile) : (s.setTile t x).fab = s.fab := rfl
@[simp] theorem State.setTile_link (s : State) (t : Nat) (x : Tile) : (s.setTile t x).link = s.link := rfl
@[simp] theorem State.setTile_tiles_vxt (s : State) (t : Nat) (x : Tile) : (s.setTile t x).tiles.vxt = s.tiles.vxt := rfl
@[simp] theorem State.setTile_tiles_inject (s : State) (t : Nat) (x : Tile) : (s.setTile t x).tiles.inject = s.tiles.inject := rfl
@[simp] theorem State.setTile_tiles_vxInject (s : State) (t : Nat) (x : Tile) : (s.setTile t x).tiles.vxInject = s.tiles.vxInject := rfl
@[simp] theorem State.setTile_tiles_started (s : State) (t : Nat) (x : Tile) : (s.setTile t x).tiles.started = s.tiles.started := rfl
@[simp] theorem State.setTile_captured (s : State) (t : Nat) (x : Tile) : (s.setTile t x).captured = s.captured := rfl

end Sys2Proof.Machine
end

