-- ==== Sys2Proof/Laws/Access.lean ====
section
/-!
SUPPORT. What a named piece of state reads as after a named update: the value written at the same key, and what it was
elsewhere. The lemmas of State's own fields are in Laws/State.lean.
-/
namespace Sys2Proof.Machine

/-! Reads after a write of the same kind. -/

@[simp] theorem State.ucb_setUcb_same (s : State) (u : Nat) (x : Ucb) : (s.setUcb u x).ucb u = x := SMap.get_set_same _ _ _ _
theorem State.ucb_setUcb_other (s : State) (i j : Nat) (x : Ucb) (h : j ≠ i) : (s.setUcb i x).ucb j = s.ucb j := SMap.get_set_other _ _ _ h
@[simp] theorem State.dom_setDom_same (s : State) (u : Nat) (x : Domain) : (s.setDom u x).dom u = x := SMap.get_set_same _ _ _ _
theorem State.dom_setDom_other (s : State) (i j : Nat) (x : Domain) (h : j ≠ i) : (s.setDom i x).dom j = s.dom j := SMap.get_set_other _ _ _ h
@[simp] theorem State.engine_setEngine_same (s : State) (e : Nat) (x : Engine) : (s.setEngine e x).engine e = x := SMap.get_set_same _ _ _ _
theorem State.engine_setEngine_other (s : State) (i j : Nat) (x : Engine) (h : j ≠ i) : (s.setEngine i x).engine j = s.engine j := SMap.get_set_other _ _ _ h
@[simp] theorem State.jess_setJess_same (s : State) (p : Nat) (x : Jess) : (s.setJess p x).jess p = x := SMap.get_set_same _ _ _ _
theorem State.jess_setJess_other (s : State) (i j : Nat) (x : Jess) (h : j ≠ i) : (s.setJess i x).jess j = s.jess j := SMap.get_set_other _ _ _ h
@[simp] theorem State.epoch_setEpoch_same (s : State) (d : Nat) (x : EpochDom) : (s.setEpoch d x).epoch d = x := SMap.get_set_same _ _ _ _
theorem State.epoch_setEpoch_other (s : State) (i j : Nat) (x : EpochDom) (h : j ≠ i) : (s.setEpoch i x).epoch j = s.epoch j := SMap.get_set_other _ _ _ h
@[simp] theorem State.ni_setNi_same (s : State) (n : Nat) (x : Ni) : (s.setNi n x).ni n = x := SMap.get_set_same _ _ _ _
theorem State.ni_setNi_other (s : State) (i j : Nat) (x : Ni) (h : j ≠ i) : (s.setNi i x).ni j = s.ni j := SMap.get_set_other _ _ _ h
@[simp] theorem State.stat_setStat_same (s : State) (i : Nat) (x : Stat) : (s.setStat i x).stat i = x := SMap.get_set_same _ _ _ _
theorem State.stat_setStat_other (s : State) (i j : Nat) (x : Stat) (h : j ≠ i) : (s.setStat i x).stat j = s.stat j := SMap.get_set_other _ _ _ h
@[simp] theorem State.phy_setPhy_same (s : State) (n : Nat) (x : Phy) : (s.setPhy n x).phy n = x := SMap.get_set_same _ _ _ _
theorem State.phy_setPhy_other (s : State) (i j : Nat) (x : Phy) (h : j ≠ i) : (s.setPhy i x).phy j = s.phy j := SMap.get_set_other _ _ _ h
@[simp] theorem State.chain_setChain_same (s : State) (c : Nat) (x : Chain) : (s.setChain c x).chain c = x := SMap.get_set_same _ _ _ _
theorem State.chain_setChain_other (s : State) (i j : Nat) (x : Chain) (h : j ≠ i) : (s.setChain i x).chain j = s.chain j := SMap.get_set_other _ _ _ h
@[simp] theorem State.sec_setSec_same (s : State) (c : Nat) (x : Sec) : (s.setSec c x).sec c = x := SMap.get_set_same _ _ _ _
theorem State.sec_setSec_other (s : State) (i j : Nat) (x : Sec) (h : j ≠ i) : (s.setSec i x).sec j = s.sec j := SMap.get_set_other _ _ _ h
@[simp] theorem State.sp_setSp_same (s : State) (p : Nat) (x : Sp) : (s.setSp p x).sp p = x := SMap.get_set_same _ _ _ _
theorem State.sp_setSp_other (s : State) (i j : Nat) (x : Sp) (h : j ≠ i) : (s.setSp i x).sp j = s.sp j := SMap.get_set_other _ _ _ h
@[simp] theorem State.region_setRegion_same (s : State) (r : Nat) (x : Region_) : (s.setRegion r x).region r = x := SMap.get_set_same _ _ _ _
theorem State.region_setRegion_other (s : State) (i j : Nat) (x : Region_) (h : j ≠ i) : (s.setRegion i x).region j = s.region j := SMap.get_set_other _ _ _ h
@[simp] theorem State.fport_setFport_same (s : State) (n : Nat) (x : Fport) : (s.setFport n x).fport n = x := SMap.get_set_same _ _ _ _
theorem State.fport_setFport_other (s : State) (i j : Nat) (x : Fport) (h : j ≠ i) : (s.setFport i x).fport j = s.fport j := SMap.get_set_other _ _ _ h
@[simp] theorem State.ring_setRing_same (s : State) (n : Nat) (x : Ring) : (s.setRing n x).ring n = x := SMap.get_set_same _ _ _ _
theorem State.ring_setRing_other (s : State) (i j : Nat) (x : Ring) (h : j ≠ i) : (s.setRing i x).ring j = s.ring j := SMap.get_set_other _ _ _ h
@[simp] theorem State.seq_setSeq_same (s : State) (q : Nat) (x : Sequencer) : (s.setSeq q x).seq q = x := SMap.get_set_same _ _ _ _
theorem State.seq_setSeq_other (s : State) (i j : Nat) (x : Sequencer) (h : j ≠ i) : (s.setSeq i x).seq j = s.seq j := SMap.get_set_other _ _ _ h
@[simp] theorem State.ge_setGe_same (s : State) (g : Nat) (x : Gather) : (s.setGe g x).ge g = x := SMap.get_set_same _ _ _ _
theorem State.ge_setGe_other (s : State) (i j : Nat) (x : Gather) (h : j ≠ i) : (s.setGe i x).ge j = s.ge j := SMap.get_set_other _ _ _ h
@[simp] theorem State.tile_setTile_same (s : State) (t : Nat) (x : Tile) : (s.setTile t x).tile t = x := SMap.get_set_same _ _ _ _
theorem State.tile_setTile_other (s : State) (i j : Nat) (x : Tile) (h : j ≠ i) : (s.setTile i x).tile j = s.tile j := SMap.get_set_other _ _ _ h
@[simp] theorem State.aptCtl_setAptCtl_same (s : State) (c : Nat) (x : AptCtl) : (s.setAptCtl c x).aptCtl c = x := SMap.get_set_same _ _ _ _
theorem State.aptCtl_setAptCtl_other (s : State) (i j : Nat) (x : AptCtl) (h : j ≠ i) : (s.setAptCtl i x).aptCtl j = s.aptCtl j := SMap.get_set_other _ _ _ h
@[simp] theorem State.block_setBlock_same (s : State) (key : Nat) (x : List Byte) : (s.setBlock key x).block key = x := SMap.get_set_same _ _ _ _
theorem State.block_setBlock_other (s : State) (i j : Nat) (x : List Byte) (h : j ≠ i) : (s.setBlock i x).block j = s.block j := SMap.get_set_other _ _ _ h

@[simp] theorem State.lane_setLane_same (s : State) (n l : Nat) (x : Lane) : (s.setLane n l x).lane n l = x := SMap.get_set_same _ _ _ _
theorem State.lane_setLane_other (s : State) (n l m k : Nat) (x : Lane) (h : 8 * m + k ≠ 8 * n + l) :
    (s.setLane n l x).lane m k = s.lane m k := SMap.get_set_other _ _ _ h
@[simp] theorem State.mark_setMark_same (s : State) (a m : Nat) : (s.setMark a m).mark a = m := SMap.get_set_same _ _ _ _
theorem State.mark_setMark_other (s : State) (a b m : Nat) (h : b / 128 ≠ a / 128) : (s.setMark a m).mark b = s.mark b :=
  SMap.get_set_other _ _ _ h
@[simp] theorem State.eccErr_setEcc_same (s : State) (a : Nat) (e : List (Nat × Nat)) : (s.setEcc a e).eccErr a = e := SMap.get_set_same _ _ _ _
theorem State.eccErr_setEcc_other (s : State) (a b : Nat) (e : List (Nat × Nat)) (h : b / 128 ≠ a / 128) : (s.setEcc a e).eccErr b = s.eccErr b :=
  SMap.get_set_other _ _ _ h

/-- An object reads back as what was stored, in 64 bits. -/
@[simp] theorem State.obj_setObj_same (s : State) (key v : Nat) : (s.setObj key v).obj key = v % 2 ^ 64 := by
  simp [State.obj, State.setObj]
theorem State.obj_setObj_other (s : State) (i j v : Nat) (h : j ≠ i) : (s.setObj i v).obj j = s.obj j := by
  simp [State.obj, State.setObj, SMap.get_set_other _ _ _ h]

/-- A counter reads back saturated. -/
theorem State.obj_bump_same (s : State) (key n : Nat) : (s.bump key n).obj key = satBump 32 (s.obj key) n := by
  rw [State.bump, State.obj_setObj_same, satBump, Nat.mod_eq_of_lt]; omega
theorem State.obj_bump64_same (s : State) (key n : Nat) : (s.bump64 key n).obj key = satBump 64 (s.obj key) n := by
  rw [State.bump64, State.obj_setObj_same, satBump, Nat.mod_eq_of_lt]; omega
theorem State.obj_bump_other (s : State) (i j n : Nat) (h : j ≠ i) : (s.bump i n).obj j = s.obj j := State.obj_setObj_other s i j _ h
theorem State.obj_bump64_other (s : State) (i j n : Nat) (h : j ≠ i) : (s.bump64 i n).obj j = s.obj j := State.obj_setObj_other s i j _ h

/-- A semaphore reads back as what was set; every other stands. -/
@[simp] theorem State.sem_setSem_same (s : State) (m v : Nat) : (s.setSem m v).sem m = v := by
  simp only [State.sem, State.setSem, State.jess_setJess_same]; split <;> rfl
theorem State.sem_setSem_other (s : State) (m k v : Nat) (h : k ≠ m) : (s.setSem m v).sem k = s.sem k := by
  simp only [State.sem, State.setSem]
  by_cases hp : k / 2 = m / 2
  · rw [hp, State.jess_setJess_same]
    have : k % 2 ≠ m % 2 := by omega
    split <;> split <;> first | rfl | omega
  · rw [State.jess_setJess_other _ _ _ _ hp]

/-! Reads after a write of another kind. -/

@[simp] theorem State.ucb_setApt (s : State) (c i : Nat) (e : Apt) (k0 : Nat) : (s.setApt c i e).ucb k0 = s.ucb k0 := rfl
@[simp] theorem State.dom_setApt (s : State) (c i : Nat) (e : Apt) (k0 : Nat) : (s.setApt c i e).dom k0 = s.dom k0 := rfl
@[simp] theorem State.engine_setApt (s : State) (c i : Nat) (e : Apt) (k0 : Nat) : (s.setApt c i e).engine k0 = s.engine k0 := rfl
@[simp] theorem State.jess_setApt (s : State) (c i : Nat) (e : Apt) (k0 : Nat) : (s.setApt c i e).jess k0 = s.jess k0 := rfl
@[simp] theorem State.epoch_setApt (s : State) (c i : Nat) (e : Apt) (k0 : Nat) : (s.setApt c i e).epoch k0 = s.epoch k0 := rfl
@[simp] theorem State.ni_setApt (s : State) (c i : Nat) (e : Apt) (k0 : Nat) : (s.setApt c i e).ni k0 = s.ni k0 := rfl
@[simp] theorem State.stat_setApt (s : State) (c i : Nat) (e : Apt) (k0 : Nat) : (s.setApt c i e).stat k0 = s.stat k0 := rfl
@[simp] theorem State.phy_setApt (s : State) (c i : Nat) (e : Apt) (k0 : Nat) : (s.setApt c i e).phy k0 = s.phy k0 := rfl
@[simp] theorem State.chain_setApt (s : State) (c i : Nat) (e : Apt) (k0 : Nat) : (s.setApt c i e).chain k0 = s.chain k0 := rfl
@[simp] theorem State.sec_setApt (s : State) (c i : Nat) (e : Apt) (k0 : Nat) : (s.setApt c i e).sec k0 = s.sec k0 := rfl
@[simp] theorem State.sp_setApt (s : State) (c i : Nat) (e : Apt) (k0 : Nat) : (s.setApt c i e).sp k0 = s.sp k0 := rfl
@[simp] theorem State.region_setApt (s : State) (c i : Nat) (e : Apt) (k0 : Nat) : (s.setApt c i e).region k0 = s.region k0 := rfl
@[simp] theorem State.fport_setApt (s : State) (c i : Nat) (e : Apt) (k0 : Nat) : (s.setApt c i e).fport k0 = s.fport k0 := rfl
@[simp] theorem State.ring_setApt (s : State) (c i : Nat) (e : Apt) (k0 : Nat) : (s.setApt c i e).ring k0 = s.ring k0 := rfl
@[simp] theorem State.seq_setApt (s : State) (c i : Nat) (e : Apt) (k0 : Nat) : (s.setApt c i e).seq k0 = s.seq k0 := rfl
@[simp] theorem State.ge_setApt (s : State) (c i : Nat) (e : Apt) (k0 : Nat) : (s.setApt c i e).ge k0 = s.ge k0 := rfl
@[simp] theorem State.tile_setApt (s : State) (c i : Nat) (e : Apt) (k0 : Nat) : (s.setApt c i e).tile k0 = s.tile k0 := rfl
@[simp] theorem State.aptCtl_setApt (s : State) (c i : Nat) (e : Apt) (k0 : Nat) : (s.setApt c i e).aptCtl k0 = s.aptCtl k0 := rfl
@[simp] theorem State.block_setApt (s : State) (c i : Nat) (e : Apt) (k0 : Nat) : (s.setApt c i e).block k0 = s.block k0 := rfl
@[simp] theorem State.obj_setApt (s : State) (c i : Nat) (e : Apt) (k0 : Nat) : (s.setApt c i e).obj k0 = s.obj k0 := rfl
@[simp] theorem State.lane_setApt (s : State) (c i : Nat) (e : Apt) (k0 k1 : Nat) : (s.setApt c i e).lane k0 k1 = s.lane k0 k1 := rfl
@[simp] theorem State.mark_setApt (s : State) (c i : Nat) (e : Apt) (k0 : Nat) : (s.setApt c i e).mark k0 = s.mark k0 := rfl
@[simp] theorem State.eccErr_setApt (s : State) (c i : Nat) (e : Apt) (k0 : Nat) : (s.setApt c i e).eccErr k0 = s.eccErr k0 := rfl
@[simp] theorem State.sem_setApt (s : State) (c i : Nat) (e : Apt) (k0 : Nat) : (s.setApt c i e).sem k0 = s.sem k0 := rfl
@[simp] theorem State.unitSt_setApt (s : State) (c i : Nat) (e : Apt) (k0 : Nat) : (s.setApt c i e).unitSt k0 = s.unitSt k0 := rfl
@[simp] theorem State.slot_setApt (s : State) (c i : Nat) (e : Apt) (k0 k1 : Nat) : (s.setApt c i e).slot k0 k1 = s.slot k0 k1 := rfl
@[simp] theorem State.rawRead_setApt (s : State) (c i : Nat) (e : Apt) (k0 k1 : Nat) : (s.setApt c i e).rawRead k0 k1 = s.rawRead k0 k1 := rfl
@[simp] theorem State.outst_setApt (s : State) (c i : Nat) (e : Apt) (k0 k1 k2 : Nat) : (s.setApt c i e).outst k0 k1 k2 = s.outst k0 k1 k2 := rfl
@[simp] theorem State.packet_setApt (s : State) (c i : Nat) (e : Apt) (k0 : Nat) : (s.setApt c i e).packet k0 = s.packet k0 := rfl
@[simp] theorem State.ucb_setChain (s : State) (c : Nat) (x : Chain) (k0 : Nat) : (s.setChain c x).ucb k0 = s.ucb k0 := rfl
@[simp] theorem State.dom_setChain (s : State) (c : Nat) (x : Chain) (k0 : Nat) : (s.setChain c x).dom k0 = s.dom k0 := rfl
@[simp] theorem State.engine_setChain (s : State) (c : Nat) (x : Chain) (k0 : Nat) : (s.setChain c x).engine k0 = s.engine k0 := rfl
@[simp] theorem State.jess_setChain (s : State) (c : Nat) (x : Chain) (k0 : Nat) : (s.setChain c x).jess k0 = s.jess k0 := rfl
@[simp] theorem State.epoch_setChain (s : State) (c : Nat) (x : Chain) (k0 : Nat) : (s.setChain c x).epoch k0 = s.epoch k0 := rfl
@[simp] theorem State.ni_setChain (s : State) (c : Nat) (x : Chain) (k0 : Nat) : (s.setChain c x).ni k0 = s.ni k0 := rfl
@[simp] theorem State.stat_setChain (s : State) (c : Nat) (x : Chain) (k0 : Nat) : (s.setChain c x).stat k0 = s.stat k0 := rfl
@[simp] theorem State.phy_setChain (s : State) (c : Nat) (x : Chain) (k0 : Nat) : (s.setChain c x).phy k0 = s.phy k0 := rfl
@[simp] theorem State.sec_setChain (s : State) (c : Nat) (x : Chain) (k0 : Nat) : (s.setChain c x).sec k0 = s.sec k0 := rfl
@[simp] theorem State.sp_setChain (s : State) (c : Nat) (x : Chain) (k0 : Nat) : (s.setChain c x).sp k0 = s.sp k0 := rfl
@[simp] theorem State.region_setChain (s : State) (c : Nat) (x : Chain) (k0 : Nat) : (s.setChain c x).region k0 = s.region k0 := rfl
@[simp] theorem State.fport_setChain (s : State) (c : Nat) (x : Chain) (k0 : Nat) : (s.setChain c x).fport k0 = s.fport k0 := rfl
@[simp] theorem State.ring_setChain (s : State) (c : Nat) (x : Chain) (k0 : Nat) : (s.setChain c x).ring k0 = s.ring k0 := rfl
@[simp] theorem State.seq_setChain (s : State) (c : Nat) (x : Chain) (k0 : Nat) : (s.setChain c x).seq k0 = s.seq k0 := rfl
@[simp] theorem State.ge_setChain (s : State) (c : Nat) (x : Chain) (k0 : Nat) : (s.setChain c x).ge k0 = s.ge k0 := rfl
@[simp] theorem State.tile_setChain (s : State) (c : Nat) (x : Chain) (k0 : Nat) : (s.setChain c x).tile k0 = s.tile k0 := rfl
@[simp] theorem State.aptCtl_setChain (s : State) (c : Nat) (x : Chain) (k0 : Nat) : (s.setChain c x).aptCtl k0 = s.aptCtl k0 := rfl
@[simp] theorem State.block_setChain (s : State) (c : Nat) (x : Chain) (k0 : Nat) : (s.setChain c x).block k0 = s.block k0 := rfl
@[simp] theorem State.obj_setChain (s : State) (c : Nat) (x : Chain) (k0 : Nat) : (s.setChain c x).obj k0 = s.obj k0 := rfl
@[simp] theorem State.lane_setChain (s : State) (c : Nat) (x : Chain) (k0 k1 : Nat) : (s.setChain c x).lane k0 k1 = s.lane k0 k1 := rfl
@[simp] theorem State.mark_setChain (s : State) (c : Nat) (x : Chain) (k0 : Nat) : (s.setChain c x).mark k0 = s.mark k0 := rfl
@[simp] theorem State.eccErr_setChain (s : State) (c : Nat) (x : Chain) (k0 : Nat) : (s.setChain c x).eccErr k0 = s.eccErr k0 := rfl
@[simp] theorem State.sem_setChain (s : State) (c : Nat) (x : Chain) (k0 : Nat) : (s.setChain c x).sem k0 = s.sem k0 := rfl
@[simp] theorem State.unitSt_setChain (s : State) (c : Nat) (x : Chain) (k0 : Nat) : (s.setChain c x).unitSt k0 = s.unitSt k0 := rfl
@[simp] theorem State.slot_setChain (s : State) (c : Nat) (x : Chain) (k0 k1 : Nat) : (s.setChain c x).slot k0 k1 = s.slot k0 k1 := rfl
@[simp] theorem State.rawRead_setChain (s : State) (c : Nat) (x : Chain) (k0 k1 : Nat) : (s.setChain c x).rawRead k0 k1 = s.rawRead k0 k1 := rfl
@[simp] theorem State.outst_setChain (s : State) (c : Nat) (x : Chain) (k0 k1 k2 : Nat) : (s.setChain c x).outst k0 k1 k2 = s.outst k0 k1 k2 := rfl
@[simp] theorem State.packet_setChain (s : State) (c : Nat) (x : Chain) (k0 : Nat) : (s.setChain c x).packet k0 = s.packet k0 := rfl
@[simp] theorem State.ucb_setEpoch (s : State) (d : Nat) (x : EpochDom) (k0 : Nat) : (s.setEpoch d x).ucb k0 = s.ucb k0 := rfl
@[simp] theorem State.dom_setEpoch (s : State) (d : Nat) (x : EpochDom) (k0 : Nat) : (s.setEpoch d x).dom k0 = s.dom k0 := rfl
@[simp] theorem State.engine_setEpoch (s : State) (d : Nat) (x : EpochDom) (k0 : Nat) : (s.setEpoch d x).engine k0 = s.engine k0 := rfl
@[simp] theorem State.jess_setEpoch (s : State) (d : Nat) (x : EpochDom) (k0 : Nat) : (s.setEpoch d x).jess k0 = s.jess k0 := rfl
@[simp] theorem State.ni_setEpoch (s : State) (d : Nat) (x : EpochDom) (k0 : Nat) : (s.setEpoch d x).ni k0 = s.ni k0 := rfl
@[simp] theorem State.stat_setEpoch (s : State) (d : Nat) (x : EpochDom) (k0 : Nat) : (s.setEpoch d x).stat k0 = s.stat k0 := rfl
@[simp] theorem State.phy_setEpoch (s : State) (d : Nat) (x : EpochDom) (k0 : Nat) : (s.setEpoch d x).phy k0 = s.phy k0 := rfl
@[simp] theorem State.chain_setEpoch (s : State) (d : Nat) (x : EpochDom) (k0 : Nat) : (s.setEpoch d x).chain k0 = s.chain k0 := rfl
@[simp] theorem State.sec_setEpoch (s : State) (d : Nat) (x : EpochDom) (k0 : Nat) : (s.setEpoch d x).sec k0 = s.sec k0 := rfl
@[simp] theorem State.sp_setEpoch (s : State) (d : Nat) (x : EpochDom) (k0 : Nat) : (s.setEpoch d x).sp k0 = s.sp k0 := rfl
@[simp] theorem State.region_setEpoch (s : State) (d : Nat) (x : EpochDom) (k0 : Nat) : (s.setEpoch d x).region k0 = s.region k0 := rfl
@[simp] theorem State.fport_setEpoch (s : State) (d : Nat) (x : EpochDom) (k0 : Nat) : (s.setEpoch d x).fport k0 = s.fport k0 := rfl
@[simp] theorem State.ring_setEpoch (s : State) (d : Nat) (x : EpochDom) (k0 : Nat) : (s.setEpoch d x).ring k0 = s.ring k0 := rfl
@[simp] theorem State.seq_setEpoch (s : State) (d : Nat) (x : EpochDom) (k0 : Nat) : (s.setEpoch d x).seq k0 = s.seq k0 := rfl
@[simp] theorem State.ge_setEpoch (s : State) (d : Nat) (x : EpochDom) (k0 : Nat) : (s.setEpoch d x).ge k0 = s.ge k0 := rfl
@[simp] theorem State.tile_setEpoch (s : State) (d : Nat) (x : EpochDom) (k0 : Nat) : (s.setEpoch d x).tile k0 = s.tile k0 := rfl
@[simp] theorem State.aptCtl_setEpoch (s : State) (d : Nat) (x : EpochDom) (k0 : Nat) : (s.setEpoch d x).aptCtl k0 = s.aptCtl k0 := rfl
@[simp] theorem State.block_setEpoch (s : State) (d : Nat) (x : EpochDom) (k0 : Nat) : (s.setEpoch d x).block k0 = s.block k0 := rfl
@[simp] theorem State.obj_setEpoch (s : State) (d : Nat) (x : EpochDom) (k0 : Nat) : (s.setEpoch d x).obj k0 = s.obj k0 := rfl
@[simp] theorem State.lane_setEpoch (s : State) (d : Nat) (x : EpochDom) (k0 k1 : Nat) : (s.setEpoch d x).lane k0 k1 = s.lane k0 k1 := rfl
@[simp] theorem State.mark_setEpoch (s : State) (d : Nat) (x : EpochDom) (k0 : Nat) : (s.setEpoch d x).mark k0 = s.mark k0 := rfl
@[simp] theorem State.eccErr_setEpoch (s : State) (d : Nat) (x : EpochDom) (k0 : Nat) : (s.setEpoch d x).eccErr k0 = s.eccErr k0 := rfl
@[simp] theorem State.sem_setEpoch (s : State) (d : Nat) (x : EpochDom) (k0 : Nat) : (s.setEpoch d x).sem k0 = s.sem k0 := rfl
@[simp] theorem State.unitSt_setEpoch (s : State) (d : Nat) (x : EpochDom) (k0 : Nat) : (s.setEpoch d x).unitSt k0 = s.unitSt k0 := rfl
@[simp] theorem State.slot_setEpoch (s : State) (d : Nat) (x : EpochDom) (k0 k1 : Nat) : (s.setEpoch d x).slot k0 k1 = s.slot k0 k1 := rfl
@[simp] theorem State.rawRead_setEpoch (s : State) (d : Nat) (x : EpochDom) (k0 k1 : Nat) : (s.setEpoch d x).rawRead k0 k1 = s.rawRead k0 k1 := rfl
@[simp] theorem State.outst_setEpoch (s : State) (d : Nat) (x : EpochDom) (k0 k1 k2 : Nat) : (s.setEpoch d x).outst k0 k1 k2 = s.outst k0 k1 k2 := rfl
@[simp] theorem State.packet_setEpoch (s : State) (d : Nat) (x : EpochDom) (k0 : Nat) : (s.setEpoch d x).packet k0 = s.packet k0 := rfl
@[simp] theorem State.ucb_setFab (s : State) (f : Fabric) (k0 : Nat) : (s.setFab f).ucb k0 = s.ucb k0 := rfl
@[simp] theorem State.dom_setFab (s : State) (f : Fabric) (k0 : Nat) : (s.setFab f).dom k0 = s.dom k0 := rfl
@[simp] theorem State.engine_setFab (s : State) (f : Fabric) (k0 : Nat) : (s.setFab f).engine k0 = s.engine k0 := rfl
@[simp] theorem State.jess_setFab (s : State) (f : Fabric) (k0 : Nat) : (s.setFab f).jess k0 = s.jess k0 := rfl
@[simp] theorem State.epoch_setFab (s : State) (f : Fabric) (k0 : Nat) : (s.setFab f).epoch k0 = s.epoch k0 := rfl
@[simp] theorem State.ni_setFab (s : State) (f : Fabric) (k0 : Nat) : (s.setFab f).ni k0 = s.ni k0 := rfl
@[simp] theorem State.stat_setFab (s : State) (f : Fabric) (k0 : Nat) : (s.setFab f).stat k0 = s.stat k0 := rfl
@[simp] theorem State.phy_setFab (s : State) (f : Fabric) (k0 : Nat) : (s.setFab f).phy k0 = s.phy k0 := rfl
@[simp] theorem State.chain_setFab (s : State) (f : Fabric) (k0 : Nat) : (s.setFab f).chain k0 = s.chain k0 := rfl
@[simp] theorem State.sec_setFab (s : State) (f : Fabric) (k0 : Nat) : (s.setFab f).sec k0 = s.sec k0 := rfl
@[simp] theorem State.sp_setFab (s : State) (f : Fabric) (k0 : Nat) : (s.setFab f).sp k0 = s.sp k0 := rfl
@[simp] theorem State.ring_setFab (s : State) (f : Fabric) (k0 : Nat) : (s.setFab f).ring k0 = s.ring k0 := rfl
@[simp] theorem State.seq_setFab (s : State) (f : Fabric) (k0 : Nat) : (s.setFab f).seq k0 = s.seq k0 := rfl
@[simp] theorem State.ge_setFab (s : State) (f : Fabric) (k0 : Nat) : (s.setFab f).ge k0 = s.ge k0 := rfl
@[simp] theorem State.tile_setFab (s : State) (f : Fabric) (k0 : Nat) : (s.setFab f).tile k0 = s.tile k0 := rfl
@[simp] theorem State.aptCtl_setFab (s : State) (f : Fabric) (k0 : Nat) : (s.setFab f).aptCtl k0 = s.aptCtl k0 := rfl
@[simp] theorem State.block_setFab (s : State) (f : Fabric) (k0 : Nat) : (s.setFab f).block k0 = s.block k0 := rfl
@[simp] theorem State.obj_setFab (s : State) (f : Fabric) (k0 : Nat) : (s.setFab f).obj k0 = s.obj k0 := rfl
@[simp] theorem State.lane_setFab (s : State) (f : Fabric) (k0 k1 : Nat) : (s.setFab f).lane k0 k1 = s.lane k0 k1 := rfl
@[simp] theorem State.mark_setFab (s : State) (f : Fabric) (k0 : Nat) : (s.setFab f).mark k0 = s.mark k0 := rfl
@[simp] theorem State.eccErr_setFab (s : State) (f : Fabric) (k0 : Nat) : (s.setFab f).eccErr k0 = s.eccErr k0 := rfl
@[simp] theorem State.sem_setFab (s : State) (f : Fabric) (k0 : Nat) : (s.setFab f).sem k0 = s.sem k0 := rfl
@[simp] theorem State.unitSt_setFab (s : State) (f : Fabric) (k0 : Nat) : (s.setFab f).unitSt k0 = s.unitSt k0 := rfl
@[simp] theorem State.slot_setFab (s : State) (f : Fabric) (k0 k1 : Nat) : (s.setFab f).slot k0 k1 = s.slot k0 k1 := rfl
@[simp] theorem State.rawRead_setFab (s : State) (f : Fabric) (k0 k1 : Nat) : (s.setFab f).rawRead k0 k1 = s.rawRead k0 k1 := rfl
@[simp] theorem State.outst_setFab (s : State) (f : Fabric) (k0 k1 k2 : Nat) : (s.setFab f).outst k0 k1 k2 = s.outst k0 k1 k2 := rfl
@[simp] theorem State.packet_setFab (s : State) (f : Fabric) (k0 : Nat) : (s.setFab f).packet k0 = s.packet k0 := rfl
@[simp] theorem State.ucb_setRegion (s : State) (r : Nat) (x : Region_) (k0 : Nat) : (s.setRegion r x).ucb k0 = s.ucb k0 := rfl
@[simp] theorem State.dom_setRegion (s : State) (r : Nat) (x : Region_) (k0 : Nat) : (s.setRegion r x).dom k0 = s.dom k0 := rfl
@[simp] theorem State.engine_setRegion (s : State) (r : Nat) (x : Region_) (k0 : Nat) : (s.setRegion r x).engine k0 = s.engine k0 := rfl
@[simp] theorem State.jess_setRegion (s : State) (r : Nat) (x : Region_) (k0 : Nat) : (s.setRegion r x).jess k0 = s.jess k0 := rfl
@[simp] theorem State.epoch_setRegion (s : State) (r : Nat) (x : Region_) (k0 : Nat) : (s.setRegion r x).epoch k0 = s.epoch k0 := rfl
@[simp] theorem State.ni_setRegion (s : State) (r : Nat) (x : Region_) (k0 : Nat) : (s.setRegion r x).ni k0 = s.ni k0 := rfl
@[simp] theorem State.stat_setRegion (s : State) (r : Nat) (x : Region_) (k0 : Nat) : (s.setRegion r x).stat k0 = s.stat k0 := rfl
@[simp] theorem State.phy_setRegion (s : State) (r : Nat) (x : Region_) (k0 : Nat) : (s.setRegion r x).phy k0 = s.phy k0 := rfl
@[simp] theorem State.chain_setRegion (s : State) (r : Nat) (x : Region_) (k0 : Nat) : (s.setRegion r x).chain k0 = s.chain k0 := rfl
@[simp] theorem State.sec_setRegion (s : State) (r : Nat) (x : Region_) (k0 : Nat) : (s.setRegion r x).sec k0 = s.sec k0 := rfl
@[simp] theorem State.sp_setRegion (s : State) (r : Nat) (x : Region_) (k0 : Nat) : (s.setRegion r x).sp k0 = s.sp k0 := rfl
@[simp] theorem State.fport_setRegion (s : State) (r : Nat) (x : Region_) (k0 : Nat) : (s.setRegion r x).fport k0 = s.fport k0 := rfl
@[simp] theorem State.ring_setRegion (s : State) (r : Nat) (x : Region_) (k0 : Nat) : (s.setRegion r x).ring k0 = s.ring k0 := rfl
@[simp] theorem State.seq_setRegion (s : State) (r : Nat) (x : Region_) (k0 : Nat) : (s.setRegion r x).seq k0 = s.seq k0 := rfl
@[simp] theorem State.ge_setRegion (s : State) (r : Nat) (x : Region_) (k0 : Nat) : (s.setRegion r x).ge k0 = s.ge k0 := rfl
@[simp] theorem State.tile_setRegion (s : State) (r : Nat) (x : Region_) (k0 : Nat) : (s.setRegion r x).tile k0 = s.tile k0 := rfl
@[simp] theorem State.aptCtl_setRegion (s : State) (r : Nat) (x : Region_) (k0 : Nat) : (s.setRegion r x).aptCtl k0 = s.aptCtl k0 := rfl
@[simp] theorem State.block_setRegion (s : State) (r : Nat) (x : Region_) (k0 : Nat) : (s.setRegion r x).block k0 = s.block k0 := rfl
@[simp] theorem State.obj_setRegion (s : State) (r : Nat) (x : Region_) (k0 : Nat) : (s.setRegion r x).obj k0 = s.obj k0 := rfl
@[simp] theorem State.lane_setRegion (s : State) (r : Nat) (x : Region_) (k0 k1 : Nat) : (s.setRegion r x).lane k0 k1 = s.lane k0 k1 := rfl
@[simp] theorem State.mark_setRegion (s : State) (r : Nat) (x : Region_) (k0 : Nat) : (s.setRegion r x).mark k0 = s.mark k0 := rfl
@[simp] theorem State.eccErr_setRegion (s : State) (r : Nat) (x : Region_) (k0 : Nat) : (s.setRegion r x).eccErr k0 = s.eccErr k0 := rfl
@[simp] theorem State.sem_setRegion (s : State) (r : Nat) (x : Region_) (k0 : Nat) : (s.setRegion r x).sem k0 = s.sem k0 := rfl
@[simp] theorem State.unitSt_setRegion (s : State) (r : Nat) (x : Region_) (k0 : Nat) : (s.setRegion r x).unitSt k0 = s.unitSt k0 := rfl
@[simp] theorem State.slot_setRegion (s : State) (r : Nat) (x : Region_) (k0 k1 : Nat) : (s.setRegion r x).slot k0 k1 = s.slot k0 k1 := rfl
@[simp] theorem State.rawRead_setRegion (s : State) (r : Nat) (x : Region_) (k0 k1 : Nat) : (s.setRegion r x).rawRead k0 k1 = s.rawRead k0 k1 := rfl
@[simp] theorem State.outst_setRegion (s : State) (r : Nat) (x : Region_) (k0 k1 k2 : Nat) : (s.setRegion r x).outst k0 k1 k2 = s.outst k0 k1 k2 := rfl
@[simp] theorem State.packet_setRegion (s : State) (r : Nat) (x : Region_) (k0 : Nat) : (s.setRegion r x).packet k0 = s.packet k0 := rfl
@[simp] theorem State.ucb_setFport (s : State) (n : Nat) (x : Fport) (k0 : Nat) : (s.setFport n x).ucb k0 = s.ucb k0 := rfl
@[simp] theorem State.dom_setFport (s : State) (n : Nat) (x : Fport) (k0 : Nat) : (s.setFport n x).dom k0 = s.dom k0 := rfl
@[simp] theorem State.engine_setFport (s : State) (n : Nat) (x : Fport) (k0 : Nat) : (s.setFport n x).engine k0 = s.engine k0 := rfl
@[simp] theorem State.jess_setFport (s : State) (n : Nat) (x : Fport) (k0 : Nat) : (s.setFport n x).jess k0 = s.jess k0 := rfl
@[simp] theorem State.epoch_setFport (s : State) (n : Nat) (x : Fport) (k0 : Nat) : (s.setFport n x).epoch k0 = s.epoch k0 := rfl
@[simp] theorem State.ni_setFport (s : State) (n : Nat) (x : Fport) (k0 : Nat) : (s.setFport n x).ni k0 = s.ni k0 := rfl
@[simp] theorem State.stat_setFport (s : State) (n : Nat) (x : Fport) (k0 : Nat) : (s.setFport n x).stat k0 = s.stat k0 := rfl
@[simp] theorem State.phy_setFport (s : State) (n : Nat) (x : Fport) (k0 : Nat) : (s.setFport n x).phy k0 = s.phy k0 := rfl
@[simp] theorem State.chain_setFport (s : State) (n : Nat) (x : Fport) (k0 : Nat) : (s.setFport n x).chain k0 = s.chain k0 := rfl
@[simp] theorem State.sec_setFport (s : State) (n : Nat) (x : Fport) (k0 : Nat) : (s.setFport n x).sec k0 = s.sec k0 := rfl
@[simp] theorem State.sp_setFport (s : State) (n : Nat) (x : Fport) (k0 : Nat) : (s.setFport n x).sp k0 = s.sp k0 := rfl
@[simp] theorem State.region_setFport (s : State) (n : Nat) (x : Fport) (k0 : Nat) : (s.setFport n x).region k0 = s.region k0 := rfl
@[simp] theorem State.ring_setFport (s : State) (n : Nat) (x : Fport) (k0 : Nat) : (s.setFport n x).ring k0 = s.ring k0 := rfl
@[simp] theorem State.seq_setFport (s : State) (n : Nat) (x : Fport) (k0 : Nat) : (s.setFport n x).seq k0 = s.seq k0 := rfl
@[simp] theorem State.ge_setFport (s : State) (n : Nat) (x : Fport) (k0 : Nat) : (s.setFport n x).ge k0 = s.ge k0 := rfl
@[simp] theorem State.tile_setFport (s : State) (n : Nat) (x : Fport) (k0 : Nat) : (s.setFport n x).tile k0 = s.tile k0 := rfl
@[simp] theorem State.aptCtl_setFport (s : State) (n : Nat) (x : Fport) (k0 : Nat) : (s.setFport n x).aptCtl k0 = s.aptCtl k0 := rfl
@[simp] theorem State.block_setFport (s : State) (n : Nat) (x : Fport) (k0 : Nat) : (s.setFport n x).block k0 = s.block k0 := rfl
@[simp] theorem State.obj_setFport (s : State) (n : Nat) (x : Fport) (k0 : Nat) : (s.setFport n x).obj k0 = s.obj k0 := rfl
@[simp] theorem State.lane_setFport (s : State) (n : Nat) (x : Fport) (k0 k1 : Nat) : (s.setFport n x).lane k0 k1 = s.lane k0 k1 := rfl
@[simp] theorem State.mark_setFport (s : State) (n : Nat) (x : Fport) (k0 : Nat) : (s.setFport n x).mark k0 = s.mark k0 := rfl
@[simp] theorem State.eccErr_setFport (s : State) (n : Nat) (x : Fport) (k0 : Nat) : (s.setFport n x).eccErr k0 = s.eccErr k0 := rfl
@[simp] theorem State.sem_setFport (s : State) (n : Nat) (x : Fport) (k0 : Nat) : (s.setFport n x).sem k0 = s.sem k0 := rfl
@[simp] theorem State.unitSt_setFport (s : State) (n : Nat) (x : Fport) (k0 : Nat) : (s.setFport n x).unitSt k0 = s.unitSt k0 := rfl
@[simp] theorem State.slot_setFport (s : State) (n : Nat) (x : Fport) (k0 k1 : Nat) : (s.setFport n x).slot k0 k1 = s.slot k0 k1 := rfl
@[simp] theorem State.rawRead_setFport (s : State) (n : Nat) (x : Fport) (k0 k1 : Nat) : (s.setFport n x).rawRead k0 k1 = s.rawRead k0 k1 := rfl
@[simp] theorem State.outst_setFport (s : State) (n : Nat) (x : Fport) (k0 k1 k2 : Nat) : (s.setFport n x).outst k0 k1 k2 = s.outst k0 k1 k2 := rfl
@[simp] theorem State.packet_setFport (s : State) (n : Nat) (x : Fport) (k0 : Nat) : (s.setFport n x).packet k0 = s.packet k0 := rfl
@[simp] theorem State.ucb_setLoad (s : State) (l : Load) (k0 : Nat) : (s.setLoad l).ucb k0 = s.ucb k0 := rfl
@[simp] theorem State.dom_setLoad (s : State) (l : Load) (k0 : Nat) : (s.setLoad l).dom k0 = s.dom k0 := rfl
@[simp] theorem State.engine_setLoad (s : State) (l : Load) (k0 : Nat) : (s.setLoad l).engine k0 = s.engine k0 := rfl
@[simp] theorem State.jess_setLoad (s : State) (l : Load) (k0 : Nat) : (s.setLoad l).jess k0 = s.jess k0 := rfl
@[simp] theorem State.epoch_setLoad (s : State) (l : Load) (k0 : Nat) : (s.setLoad l).epoch k0 = s.epoch k0 := rfl
@[simp] theorem State.ni_setLoad (s : State) (l : Load) (k0 : Nat) : (s.setLoad l).ni k0 = s.ni k0 := rfl
@[simp] theorem State.stat_setLoad (s : State) (l : Load) (k0 : Nat) : (s.setLoad l).stat k0 = s.stat k0 := rfl
@[simp] theorem State.phy_setLoad (s : State) (l : Load) (k0 : Nat) : (s.setLoad l).phy k0 = s.phy k0 := rfl
@[simp] theorem State.chain_setLoad (s : State) (l : Load) (k0 : Nat) : (s.setLoad l).chain k0 = s.chain k0 := rfl
@[simp] theorem State.sec_setLoad (s : State) (l : Load) (k0 : Nat) : (s.setLoad l).sec k0 = s.sec k0 := rfl
@[simp] theorem State.sp_setLoad (s : State) (l : Load) (k0 : Nat) : (s.setLoad l).sp k0 = s.sp k0 := rfl
@[simp] theorem State.region_setLoad (s : State) (l : Load) (k0 : Nat) : (s.setLoad l).region k0 = s.region k0 := rfl
@[simp] theorem State.fport_setLoad (s : State) (l : Load) (k0 : Nat) : (s.setLoad l).fport k0 = s.fport k0 := rfl
@[simp] theorem State.ring_setLoad (s : State) (l : Load) (k0 : Nat) : (s.setLoad l).ring k0 = s.ring k0 := rfl
@[simp] theorem State.seq_setLoad (s : State) (l : Load) (k0 : Nat) : (s.setLoad l).seq k0 = s.seq k0 := rfl
@[simp] theorem State.ge_setLoad (s : State) (l : Load) (k0 : Nat) : (s.setLoad l).ge k0 = s.ge k0 := rfl
@[simp] theorem State.tile_setLoad (s : State) (l : Load) (k0 : Nat) : (s.setLoad l).tile k0 = s.tile k0 := rfl
@[simp] theorem State.aptCtl_setLoad (s : State) (l : Load) (k0 : Nat) : (s.setLoad l).aptCtl k0 = s.aptCtl k0 := rfl
@[simp] theorem State.block_setLoad (s : State) (l : Load) (k0 : Nat) : (s.setLoad l).block k0 = s.block k0 := rfl
@[simp] theorem State.obj_setLoad (s : State) (l : Load) (k0 : Nat) : (s.setLoad l).obj k0 = s.obj k0 := rfl
@[simp] theorem State.lane_setLoad (s : State) (l : Load) (k0 k1 : Nat) : (s.setLoad l).lane k0 k1 = s.lane k0 k1 := rfl
@[simp] theorem State.mark_setLoad (s : State) (l : Load) (k0 : Nat) : (s.setLoad l).mark k0 = s.mark k0 := rfl
@[simp] theorem State.eccErr_setLoad (s : State) (l : Load) (k0 : Nat) : (s.setLoad l).eccErr k0 = s.eccErr k0 := rfl
@[simp] theorem State.sem_setLoad (s : State) (l : Load) (k0 : Nat) : (s.setLoad l).sem k0 = s.sem k0 := rfl
@[simp] theorem State.unitSt_setLoad (s : State) (l : Load) (k0 : Nat) : (s.setLoad l).unitSt k0 = s.unitSt k0 := rfl
@[simp] theorem State.slot_setLoad (s : State) (l : Load) (k0 k1 : Nat) : (s.setLoad l).slot k0 k1 = s.slot k0 k1 := rfl
@[simp] theorem State.rawRead_setLoad (s : State) (l : Load) (k0 k1 : Nat) : (s.setLoad l).rawRead k0 k1 = s.rawRead k0 k1 := rfl
@[simp] theorem State.outst_setLoad (s : State) (l : Load) (k0 k1 k2 : Nat) : (s.setLoad l).outst k0 k1 k2 = s.outst k0 k1 k2 := rfl
@[simp] theorem State.packet_setLoad (s : State) (l : Load) (k0 : Nat) : (s.setLoad l).packet k0 = s.packet k0 := rfl
@[simp] theorem State.ucb_clearBuf (s : State) (ag : Agent) (j : Nat) (k0 : Nat) : (s.clearBuf ag j).ucb k0 = s.ucb k0 := rfl
@[simp] theorem State.dom_clearBuf (s : State) (ag : Agent) (j : Nat) (k0 : Nat) : (s.clearBuf ag j).dom k0 = s.dom k0 := rfl
@[simp] theorem State.engine_clearBuf (s : State) (ag : Agent) (j : Nat) (k0 : Nat) : (s.clearBuf ag j).engine k0 = s.engine k0 := rfl
@[simp] theorem State.jess_clearBuf (s : State) (ag : Agent) (j : Nat) (k0 : Nat) : (s.clearBuf ag j).jess k0 = s.jess k0 := rfl
@[simp] theorem State.epoch_clearBuf (s : State) (ag : Agent) (j : Nat) (k0 : Nat) : (s.clearBuf ag j).epoch k0 = s.epoch k0 := rfl
@[simp] theorem State.ni_clearBuf (s : State) (ag : Agent) (j : Nat) (k0 : Nat) : (s.clearBuf ag j).ni k0 = s.ni k0 := rfl
@[simp] theorem State.stat_clearBuf (s : State) (ag : Agent) (j : Nat) (k0 : Nat) : (s.clearBuf ag j).stat k0 = s.stat k0 := rfl
@[simp] theorem State.phy_clearBuf (s : State) (ag : Agent) (j : Nat) (k0 : Nat) : (s.clearBuf ag j).phy k0 = s.phy k0 := rfl
@[simp] theorem State.chain_clearBuf (s : State) (ag : Agent) (j : Nat) (k0 : Nat) : (s.clearBuf ag j).chain k0 = s.chain k0 := rfl
@[simp] theorem State.sec_clearBuf (s : State) (ag : Agent) (j : Nat) (k0 : Nat) : (s.clearBuf ag j).sec k0 = s.sec k0 := rfl
@[simp] theorem State.sp_clearBuf (s : State) (ag : Agent) (j : Nat) (k0 : Nat) : (s.clearBuf ag j).sp k0 = s.sp k0 := rfl
@[simp] theorem State.region_clearBuf (s : State) (ag : Agent) (j : Nat) (k0 : Nat) : (s.clearBuf ag j).region k0 = s.region k0 := rfl
@[simp] theorem State.fport_clearBuf (s : State) (ag : Agent) (j : Nat) (k0 : Nat) : (s.clearBuf ag j).fport k0 = s.fport k0 := rfl
@[simp] theorem State.ring_clearBuf (s : State) (ag : Agent) (j : Nat) (k0 : Nat) : (s.clearBuf ag j).ring k0 = s.ring k0 := rfl
@[simp] theorem State.seq_clearBuf (s : State) (ag : Agent) (j : Nat) (k0 : Nat) : (s.clearBuf ag j).seq k0 = s.seq k0 := rfl
@[simp] theorem State.ge_clearBuf (s : State) (ag : Agent) (j : Nat) (k0 : Nat) : (s.clearBuf ag j).ge k0 = s.ge k0 := rfl
@[simp] theorem State.tile_clearBuf (s : State) (ag : Agent) (j : Nat) (k0 : Nat) : (s.clearBuf ag j).tile k0 = s.tile k0 := rfl
@[simp] theorem State.aptCtl_clearBuf (s : State) (ag : Agent) (j : Nat) (k0 : Nat) : (s.clearBuf ag j).aptCtl k0 = s.aptCtl k0 := rfl
@[simp] theorem State.block_clearBuf (s : State) (ag : Agent) (j : Nat) (k0 : Nat) : (s.clearBuf ag j).block k0 = s.block k0 := rfl
@[simp] theorem State.obj_clearBuf (s : State) (ag : Agent) (j : Nat) (k0 : Nat) : (s.clearBuf ag j).obj k0 = s.obj k0 := rfl
@[simp] theorem State.lane_clearBuf (s : State) (ag : Agent) (j : Nat) (k0 k1 : Nat) : (s.clearBuf ag j).lane k0 k1 = s.lane k0 k1 := rfl
@[simp] theorem State.mark_clearBuf (s : State) (ag : Agent) (j : Nat) (k0 : Nat) : (s.clearBuf ag j).mark k0 = s.mark k0 := rfl
@[simp] theorem State.eccErr_clearBuf (s : State) (ag : Agent) (j : Nat) (k0 : Nat) : (s.clearBuf ag j).eccErr k0 = s.eccErr k0 := rfl
@[simp] theorem State.sem_clearBuf (s : State) (ag : Agent) (j : Nat) (k0 : Nat) : (s.clearBuf ag j).sem k0 = s.sem k0 := rfl
@[simp] theorem State.unitSt_clearBuf (s : State) (ag : Agent) (j : Nat) (k0 : Nat) : (s.clearBuf ag j).unitSt k0 = s.unitSt k0 := rfl
@[simp] theorem State.slot_clearBuf (s : State) (ag : Agent) (j : Nat) (k0 k1 : Nat) : (s.clearBuf ag j).slot k0 k1 = s.slot k0 k1 := rfl
@[simp] theorem State.rawRead_clearBuf (s : State) (ag : Agent) (j : Nat) (k0 k1 : Nat) : (s.clearBuf ag j).rawRead k0 k1 = s.rawRead k0 k1 := rfl
@[simp] theorem State.packet_clearBuf (s : State) (ag : Agent) (j : Nat) (k0 : Nat) : (s.clearBuf ag j).packet k0 = s.packet k0 := rfl
@[simp] theorem State.ucb_setJess (s : State) (p : Nat) (j : Jess) (k0 : Nat) : (s.setJess p j).ucb k0 = s.ucb k0 := rfl
@[simp] theorem State.dom_setJess (s : State) (p : Nat) (j : Jess) (k0 : Nat) : (s.setJess p j).dom k0 = s.dom k0 := rfl
@[simp] theorem State.engine_setJess (s : State) (p : Nat) (j : Jess) (k0 : Nat) : (s.setJess p j).engine k0 = s.engine k0 := rfl
@[simp] theorem State.epoch_setJess (s : State) (p : Nat) (j : Jess) (k0 : Nat) : (s.setJess p j).epoch k0 = s.epoch k0 := rfl
@[simp] theorem State.ni_setJess (s : State) (p : Nat) (j : Jess) (k0 : Nat) : (s.setJess p j).ni k0 = s.ni k0 := rfl
@[simp] theorem State.stat_setJess (s : State) (p : Nat) (j : Jess) (k0 : Nat) : (s.setJess p j).stat k0 = s.stat k0 := rfl
@[simp] theorem State.phy_setJess (s : State) (p : Nat) (j : Jess) (k0 : Nat) : (s.setJess p j).phy k0 = s.phy k0 := rfl
@[simp] theorem State.chain_setJess (s : State) (p : Nat) (j : Jess) (k0 : Nat) : (s.setJess p j).chain k0 = s.chain k0 := rfl
@[simp] theorem State.sec_setJess (s : State) (p : Nat) (j : Jess) (k0 : Nat) : (s.setJess p j).sec k0 = s.sec k0 := rfl
@[simp] theorem State.sp_setJess (s : State) (p : Nat) (j : Jess) (k0 : Nat) : (s.setJess p j).sp k0 = s.sp k0 := rfl
@[simp] theorem State.region_setJess (s : State) (p : Nat) (j : Jess) (k0 : Nat) : (s.setJess p j).region k0 = s.region k0 := rfl
@[simp] theorem State.fport_setJess (s : State) (p : Nat) (j : Jess) (k0 : Nat) : (s.setJess p j).fport k0 = s.fport k0 := rfl
@[simp] theorem State.ring_setJess (s : State) (p : Nat) (j : Jess) (k0 : Nat) : (s.setJess p j).ring k0 = s.ring k0 := rfl
@[simp] theorem State.seq_setJess (s : State) (p : Nat) (j : Jess) (k0 : Nat) : (s.setJess p j).seq k0 = s.seq k0 := rfl
@[simp] theorem State.ge_setJess (s : State) (p : Nat) (j : Jess) (k0 : Nat) : (s.setJess p j).ge k0 = s.ge k0 := rfl
@[simp] theorem State.tile_setJess (s : State) (p : Nat) (j : Jess) (k0 : Nat) : (s.setJess p j).tile k0 = s.tile k0 := rfl
@[simp] theorem State.aptCtl_setJess (s : State) (p : Nat) (j : Jess) (k0 : Nat) : (s.setJess p j).aptCtl k0 = s.aptCtl k0 := rfl
@[simp] theorem State.block_setJess (s : State) (p : Nat) (j : Jess) (k0 : Nat) : (s.setJess p j).block k0 = s.block k0 := rfl
@[simp] theorem State.obj_setJess (s : State) (p : Nat) (j : Jess) (k0 : Nat) : (s.setJess p j).obj k0 = s.obj k0 := rfl
@[simp] theorem State.lane_setJess (s : State) (p : Nat) (j : Jess) (k0 k1 : Nat) : (s.setJess p j).lane k0 k1 = s.lane k0 k1 := rfl
@[simp] theorem State.mark_setJess (s : State) (p : Nat) (j : Jess) (k0 : Nat) : (s.setJess p j).mark k0 = s.mark k0 := rfl
@[simp] theorem State.eccErr_setJess (s : State) (p : Nat) (j : Jess) (k0 : Nat) : (s.setJess p j).eccErr k0 = s.eccErr k0 := rfl
@[simp] theorem State.unitSt_setJess (s : State) (p : Nat) (j : Jess) (k0 : Nat) : (s.setJess p j).unitSt k0 = s.unitSt k0 := rfl
@[simp] theorem State.slot_setJess (s : State) (p : Nat) (j : Jess) (k0 k1 : Nat) : (s.setJess p j).slot k0 k1 = s.slot k0 k1 := rfl
@[simp] theorem State.rawRead_setJess (s : State) (p : Nat) (j : Jess) (k0 k1 : Nat) : (s.setJess p j).rawRead k0 k1 = s.rawRead k0 k1 := rfl
@[simp] theorem State.outst_setJess (s : State) (p : Nat) (j : Jess) (k0 k1 k2 : Nat) : (s.setJess p j).outst k0 k1 k2 = s.outst k0 k1 k2 := rfl
@[simp] theorem State.packet_setJess (s : State) (p : Nat) (j : Jess) (k0 : Nat) : (s.setJess p j).packet k0 = s.packet k0 := rfl
@[simp] theorem State.ucb_dropWaiter (s : State) (w : Waiter) (k0 : Nat) : (s.dropWaiter w).ucb k0 = s.ucb k0 := rfl
@[simp] theorem State.dom_dropWaiter (s : State) (w : Waiter) (k0 : Nat) : (s.dropWaiter w).dom k0 = s.dom k0 := rfl
@[simp] theorem State.engine_dropWaiter (s : State) (w : Waiter) (k0 : Nat) : (s.dropWaiter w).engine k0 = s.engine k0 := rfl
@[simp] theorem State.jess_dropWaiter (s : State) (w : Waiter) (k0 : Nat) : (s.dropWaiter w).jess k0 = s.jess k0 := rfl
@[simp] theorem State.epoch_dropWaiter (s : State) (w : Waiter) (k0 : Nat) : (s.dropWaiter w).epoch k0 = s.epoch k0 := rfl
@[simp] theorem State.ni_dropWaiter (s : State) (w : Waiter) (k0 : Nat) : (s.dropWaiter w).ni k0 = s.ni k0 := rfl
@[simp] theorem State.stat_dropWaiter (s : State) (w : Waiter) (k0 : Nat) : (s.dropWaiter w).stat k0 = s.stat k0 := rfl
@[simp] theorem State.phy_dropWaiter (s : State) (w : Waiter) (k0 : Nat) : (s.dropWaiter w).phy k0 = s.phy k0 := rfl
@[simp] theorem State.chain_dropWaiter (s : State) (w : Waiter) (k0 : Nat) : (s.dropWaiter w).chain k0 = s.chain k0 := rfl
@[simp] theorem State.sec_dropWaiter (s : State) (w : Waiter) (k0 : Nat) : (s.dropWaiter w).sec k0 = s.sec k0 := rfl
@[simp] theorem State.sp_dropWaiter (s : State) (w : Waiter) (k0 : Nat) : (s.dropWaiter w).sp k0 = s.sp k0 := rfl
@[simp] theorem State.region_dropWaiter (s : State) (w : Waiter) (k0 : Nat) : (s.dropWaiter w).region k0 = s.region k0 := rfl
@[simp] theorem State.fport_dropWaiter (s : State) (w : Waiter) (k0 : Nat) : (s.dropWaiter w).fport k0 = s.fport k0 := rfl
@[simp] theorem State.ring_dropWaiter (s : State) (w : Waiter) (k0 : Nat) : (s.dropWaiter w).ring k0 = s.ring k0 := rfl
@[simp] theorem State.seq_dropWaiter (s : State) (w : Waiter) (k0 : Nat) : (s.dropWaiter w).seq k0 = s.seq k0 := rfl
@[simp] theorem State.ge_dropWaiter (s : State) (w : Waiter) (k0 : Nat) : (s.dropWaiter w).ge k0 = s.ge k0 := rfl
@[simp] theorem State.tile_dropWaiter (s : State) (w : Waiter) (k0 : Nat) : (s.dropWaiter w).tile k0 = s.tile k0 := rfl
@[simp] theorem State.aptCtl_dropWaiter (s : State) (w : Waiter) (k0 : Nat) : (s.dropWaiter w).aptCtl k0 = s.aptCtl k0 := rfl
@[simp] theorem State.block_dropWaiter (s : State) (w : Waiter) (k0 : Nat) : (s.dropWaiter w).block k0 = s.block k0 := rfl
@[simp] theorem State.obj_dropWaiter (s : State) (w : Waiter) (k0 : Nat) : (s.dropWaiter w).obj k0 = s.obj k0 := rfl
@[simp] theorem State.lane_dropWaiter (s : State) (w : Waiter) (k0 k1 : Nat) : (s.dropWaiter w).lane k0 k1 = s.lane k0 k1 := rfl
@[simp] theorem State.mark_dropWaiter (s : State) (w : Waiter) (k0 : Nat) : (s.dropWaiter w).mark k0 = s.mark k0 := rfl
@[simp] theorem State.eccErr_dropWaiter (s : State) (w : Waiter) (k0 : Nat) : (s.dropWaiter w).eccErr k0 = s.eccErr k0 := rfl
@[simp] theorem State.sem_dropWaiter (s : State) (w : Waiter) (k0 : Nat) : (s.dropWaiter w).sem k0 = s.sem k0 := rfl
@[simp] theorem State.unitSt_dropWaiter (s : State) (w : Waiter) (k0 : Nat) : (s.dropWaiter w).unitSt k0 = s.unitSt k0 := rfl
@[simp] theorem State.slot_dropWaiter (s : State) (w : Waiter) (k0 k1 : Nat) : (s.dropWaiter w).slot k0 k1 = s.slot k0 k1 := rfl
@[simp] theorem State.rawRead_dropWaiter (s : State) (w : Waiter) (k0 k1 : Nat) : (s.dropWaiter w).rawRead k0 k1 = s.rawRead k0 k1 := rfl
@[simp] theorem State.outst_dropWaiter (s : State) (w : Waiter) (k0 k1 k2 : Nat) : (s.dropWaiter w).outst k0 k1 k2 = s.outst k0 k1 k2 := rfl
@[simp] theorem State.packet_dropWaiter (s : State) (w : Waiter) (k0 : Nat) : (s.dropWaiter w).packet k0 = s.packet k0 := rfl
@[simp] theorem State.ucb_setEngine (s : State) (e : Nat) (x : Engine) (k0 : Nat) : (s.setEngine e x).ucb k0 = s.ucb k0 := rfl
@[simp] theorem State.dom_setEngine (s : State) (e : Nat) (x : Engine) (k0 : Nat) : (s.setEngine e x).dom k0 = s.dom k0 := rfl
@[simp] theorem State.jess_setEngine (s : State) (e : Nat) (x : Engine) (k0 : Nat) : (s.setEngine e x).jess k0 = s.jess k0 := rfl
@[simp] theorem State.epoch_setEngine (s : State) (e : Nat) (x : Engine) (k0 : Nat) : (s.setEngine e x).epoch k0 = s.epoch k0 := rfl
@[simp] theorem State.ni_setEngine (s : State) (e : Nat) (x : Engine) (k0 : Nat) : (s.setEngine e x).ni k0 = s.ni k0 := rfl
@[simp] theorem State.stat_setEngine (s : State) (e : Nat) (x : Engine) (k0 : Nat) : (s.setEngine e x).stat k0 = s.stat k0 := rfl
@[simp] theorem State.phy_setEngine (s : State) (e : Nat) (x : Engine) (k0 : Nat) : (s.setEngine e x).phy k0 = s.phy k0 := rfl
@[simp] theorem State.chain_setEngine (s : State) (e : Nat) (x : Engine) (k0 : Nat) : (s.setEngine e x).chain k0 = s.chain k0 := rfl
@[simp] theorem State.sec_setEngine (s : State) (e : Nat) (x : Engine) (k0 : Nat) : (s.setEngine e x).sec k0 = s.sec k0 := rfl
@[simp] theorem State.sp_setEngine (s : State) (e : Nat) (x : Engine) (k0 : Nat) : (s.setEngine e x).sp k0 = s.sp k0 := rfl
@[simp] theorem State.region_setEngine (s : State) (e : Nat) (x : Engine) (k0 : Nat) : (s.setEngine e x).region k0 = s.region k0 := rfl
@[simp] theorem State.fport_setEngine (s : State) (e : Nat) (x : Engine) (k0 : Nat) : (s.setEngine e x).fport k0 = s.fport k0 := rfl
@[simp] theorem State.ring_setEngine (s : State) (e : Nat) (x : Engine) (k0 : Nat) : (s.setEngine e x).ring k0 = s.ring k0 := rfl
@[simp] theorem State.seq_setEngine (s : State) (e : Nat) (x : Engine) (k0 : Nat) : (s.setEngine e x).seq k0 = s.seq k0 := rfl
@[simp] theorem State.ge_setEngine (s : State) (e : Nat) (x : Engine) (k0 : Nat) : (s.setEngine e x).ge k0 = s.ge k0 := rfl
@[simp] theorem State.tile_setEngine (s : State) (e : Nat) (x : Engine) (k0 : Nat) : (s.setEngine e x).tile k0 = s.tile k0 := rfl
@[simp] theorem State.aptCtl_setEngine (s : State) (e : Nat) (x : Engine) (k0 : Nat) : (s.setEngine e x).aptCtl k0 = s.aptCtl k0 := rfl
@[simp] theorem State.block_setEngine (s : State) (e : Nat) (x : Engine) (k0 : Nat) : (s.setEngine e x).block k0 = s.block k0 := rfl
@[simp] theorem State.obj_setEngine (s : State) (e : Nat) (x : Engine) (k0 : Nat) : (s.setEngine e x).obj k0 = s.obj k0 := rfl
@[simp] theorem State.lane_setEngine (s : State) (e : Nat) (x : Engine) (k0 k1 : Nat) : (s.setEngine e x).lane k0 k1 = s.lane k0 k1 := rfl
@[simp] theorem State.mark_setEngine (s : State) (e : Nat) (x : Engine) (k0 : Nat) : (s.setEngine e x).mark k0 = s.mark k0 := rfl
@[simp] theorem State.eccErr_setEngine (s : State) (e : Nat) (x : Engine) (k0 : Nat) : (s.setEngine e x).eccErr k0 = s.eccErr k0 := rfl
@[simp] theorem State.sem_setEngine (s : State) (e : Nat) (x : Engine) (k0 : Nat) : (s.setEngine e x).sem k0 = s.sem k0 := rfl
@[simp] theorem State.unitSt_setEngine (s : State) (e : Nat) (x : Engine) (k0 : Nat) : (s.setEngine e x).unitSt k0 = s.unitSt k0 := rfl
@[simp] theorem State.slot_setEngine (s : State) (e : Nat) (x : Engine) (k0 k1 : Nat) : (s.setEngine e x).slot k0 k1 = s.slot k0 k1 := rfl
@[simp] theorem State.rawRead_setEngine (s : State) (e : Nat) (x : Engine) (k0 k1 : Nat) : (s.setEngine e x).rawRead k0 k1 = s.rawRead k0 k1 := rfl
@[simp] theorem State.outst_setEngine (s : State) (e : Nat) (x : Engine) (k0 k1 k2 : Nat) : (s.setEngine e x).outst k0 k1 k2 = s.outst k0 k1 k2 := rfl
@[simp] theorem State.packet_setEngine (s : State) (e : Nat) (x : Engine) (k0 : Nat) : (s.setEngine e x).packet k0 = s.packet k0 := rfl
@[simp] theorem State.ucb_setLane (s : State) (n l : Nat) (x : Lane) (k0 : Nat) : (s.setLane n l x).ucb k0 = s.ucb k0 := rfl
@[simp] theorem State.dom_setLane (s : State) (n l : Nat) (x : Lane) (k0 : Nat) : (s.setLane n l x).dom k0 = s.dom k0 := rfl
@[simp] theorem State.engine_setLane (s : State) (n l : Nat) (x : Lane) (k0 : Nat) : (s.setLane n l x).engine k0 = s.engine k0 := rfl
@[simp] theorem State.jess_setLane (s : State) (n l : Nat) (x : Lane) (k0 : Nat) : (s.setLane n l x).jess k0 = s.jess k0 := rfl
@[simp] theorem State.epoch_setLane (s : State) (n l : Nat) (x : Lane) (k0 : Nat) : (s.setLane n l x).epoch k0 = s.epoch k0 := rfl
@[simp] theorem State.ni_setLane (s : State) (n l : Nat) (x : Lane) (k0 : Nat) : (s.setLane n l x).ni k0 = s.ni k0 := rfl
@[simp] theorem State.stat_setLane (s : State) (n l : Nat) (x : Lane) (k0 : Nat) : (s.setLane n l x).stat k0 = s.stat k0 := rfl
@[simp] theorem State.phy_setLane (s : State) (n l : Nat) (x : Lane) (k0 : Nat) : (s.setLane n l x).phy k0 = s.phy k0 := rfl
@[simp] theorem State.chain_setLane (s : State) (n l : Nat) (x : Lane) (k0 : Nat) : (s.setLane n l x).chain k0 = s.chain k0 := rfl
@[simp] theorem State.sec_setLane (s : State) (n l : Nat) (x : Lane) (k0 : Nat) : (s.setLane n l x).sec k0 = s.sec k0 := rfl
@[simp] theorem State.sp_setLane (s : State) (n l : Nat) (x : Lane) (k0 : Nat) : (s.setLane n l x).sp k0 = s.sp k0 := rfl
@[simp] theorem State.region_setLane (s : State) (n l : Nat) (x : Lane) (k0 : Nat) : (s.setLane n l x).region k0 = s.region k0 := rfl
@[simp] theorem State.fport_setLane (s : State) (n l : Nat) (x : Lane) (k0 : Nat) : (s.setLane n l x).fport k0 = s.fport k0 := rfl
@[simp] theorem State.ring_setLane (s : State) (n l : Nat) (x : Lane) (k0 : Nat) : (s.setLane n l x).ring k0 = s.ring k0 := rfl
@[simp] theorem State.seq_setLane (s : State) (n l : Nat) (x : Lane) (k0 : Nat) : (s.setLane n l x).seq k0 = s.seq k0 := rfl
@[simp] theorem State.ge_setLane (s : State) (n l : Nat) (x : Lane) (k0 : Nat) : (s.setLane n l x).ge k0 = s.ge k0 := rfl
@[simp] theorem State.tile_setLane (s : State) (n l : Nat) (x : Lane) (k0 : Nat) : (s.setLane n l x).tile k0 = s.tile k0 := rfl
@[simp] theorem State.aptCtl_setLane (s : State) (n l : Nat) (x : Lane) (k0 : Nat) : (s.setLane n l x).aptCtl k0 = s.aptCtl k0 := rfl
@[simp] theorem State.block_setLane (s : State) (n l : Nat) (x : Lane) (k0 : Nat) : (s.setLane n l x).block k0 = s.block k0 := rfl
@[simp] theorem State.obj_setLane (s : State) (n l : Nat) (x : Lane) (k0 : Nat) : (s.setLane n l x).obj k0 = s.obj k0 := rfl
@[simp] theorem State.mark_setLane (s : State) (n l : Nat) (x : Lane) (k0 : Nat) : (s.setLane n l x).mark k0 = s.mark k0 := rfl
@[simp] theorem State.eccErr_setLane (s : State) (n l : Nat) (x : Lane) (k0 : Nat) : (s.setLane n l x).eccErr k0 = s.eccErr k0 := rfl
@[simp] theorem State.sem_setLane (s : State) (n l : Nat) (x : Lane) (k0 : Nat) : (s.setLane n l x).sem k0 = s.sem k0 := rfl
@[simp] theorem State.unitSt_setLane (s : State) (n l : Nat) (x : Lane) (k0 : Nat) : (s.setLane n l x).unitSt k0 = s.unitSt k0 := rfl
@[simp] theorem State.slot_setLane (s : State) (n l : Nat) (x : Lane) (k0 k1 : Nat) : (s.setLane n l x).slot k0 k1 = s.slot k0 k1 := rfl
@[simp] theorem State.rawRead_setLane (s : State) (n l : Nat) (x : Lane) (k0 k1 : Nat) : (s.setLane n l x).rawRead k0 k1 = s.rawRead k0 k1 := rfl
@[simp] theorem State.outst_setLane (s : State) (n l : Nat) (x : Lane) (k0 k1 k2 : Nat) : (s.setLane n l x).outst k0 k1 k2 = s.outst k0 k1 k2 := rfl
@[simp] theorem State.packet_setLane (s : State) (n l : Nat) (x : Lane) (k0 : Nat) : (s.setLane n l x).packet k0 = s.packet k0 := rfl
@[simp] theorem State.ucb_setPhy (s : State) (n : Nat) (x : Phy) (k0 : Nat) : (s.setPhy n x).ucb k0 = s.ucb k0 := rfl
@[simp] theorem State.dom_setPhy (s : State) (n : Nat) (x : Phy) (k0 : Nat) : (s.setPhy n x).dom k0 = s.dom k0 := rfl
@[simp] theorem State.engine_setPhy (s : State) (n : Nat) (x : Phy) (k0 : Nat) : (s.setPhy n x).engine k0 = s.engine k0 := rfl
@[simp] theorem State.jess_setPhy (s : State) (n : Nat) (x : Phy) (k0 : Nat) : (s.setPhy n x).jess k0 = s.jess k0 := rfl
@[simp] theorem State.epoch_setPhy (s : State) (n : Nat) (x : Phy) (k0 : Nat) : (s.setPhy n x).epoch k0 = s.epoch k0 := rfl
@[simp] theorem State.ni_setPhy (s : State) (n : Nat) (x : Phy) (k0 : Nat) : (s.setPhy n x).ni k0 = s.ni k0 := rfl
@[simp] theorem State.stat_setPhy (s : State) (n : Nat) (x : Phy) (k0 : Nat) : (s.setPhy n x).stat k0 = s.stat k0 := rfl
@[simp] theorem State.chain_setPhy (s : State) (n : Nat) (x : Phy) (k0 : Nat) : (s.setPhy n x).chain k0 = s.chain k0 := rfl
@[simp] theorem State.sec_setPhy (s : State) (n : Nat) (x : Phy) (k0 : Nat) : (s.setPhy n x).sec k0 = s.sec k0 := rfl
@[simp] theorem State.sp_setPhy (s : State) (n : Nat) (x : Phy) (k0 : Nat) : (s.setPhy n x).sp k0 = s.sp k0 := rfl
@[simp] theorem State.region_setPhy (s : State) (n : Nat) (x : Phy) (k0 : Nat) : (s.setPhy n x).region k0 = s.region k0 := rfl
@[simp] theorem State.fport_setPhy (s : State) (n : Nat) (x : Phy) (k0 : Nat) : (s.setPhy n x).fport k0 = s.fport k0 := rfl
@[simp] theorem State.ring_setPhy (s : State) (n : Nat) (x : Phy) (k0 : Nat) : (s.setPhy n x).ring k0 = s.ring k0 := rfl
@[simp] theorem State.seq_setPhy (s : State) (n : Nat) (x : Phy) (k0 : Nat) : (s.setPhy n x).seq k0 = s.seq k0 := rfl
@[simp] theorem State.ge_setPhy (s : State) (n : Nat) (x : Phy) (k0 : Nat) : (s.setPhy n x).ge k0 = s.ge k0 := rfl
@[simp] theorem State.tile_setPhy (s : State) (n : Nat) (x : Phy) (k0 : Nat) : (s.setPhy n x).tile k0 = s.tile k0 := rfl
@[simp] theorem State.aptCtl_setPhy (s : State) (n : Nat) (x : Phy) (k0 : Nat) : (s.setPhy n x).aptCtl k0 = s.aptCtl k0 := rfl
@[simp] theorem State.block_setPhy (s : State) (n : Nat) (x : Phy) (k0 : Nat) : (s.setPhy n x).block k0 = s.block k0 := rfl
@[simp] theorem State.obj_setPhy (s : State) (n : Nat) (x : Phy) (k0 : Nat) : (s.setPhy n x).obj k0 = s.obj k0 := rfl
@[simp] theorem State.lane_setPhy (s : State) (n : Nat) (x : Phy) (k0 k1 : Nat) : (s.setPhy n x).lane k0 k1 = s.lane k0 k1 := rfl
@[simp] theorem State.mark_setPhy (s : State) (n : Nat) (x : Phy) (k0 : Nat) : (s.setPhy n x).mark k0 = s.mark k0 := rfl
@[simp] theorem State.eccErr_setPhy (s : State) (n : Nat) (x : Phy) (k0 : Nat) : (s.setPhy n x).eccErr k0 = s.eccErr k0 := rfl
@[simp] theorem State.sem_setPhy (s : State) (n : Nat) (x : Phy) (k0 : Nat) : (s.setPhy n x).sem k0 = s.sem k0 := rfl
@[simp] theorem State.unitSt_setPhy (s : State) (n : Nat) (x : Phy) (k0 : Nat) : (s.setPhy n x).unitSt k0 = s.unitSt k0 := rfl
@[simp] theorem State.slot_setPhy (s : State) (n : Nat) (x : Phy) (k0 k1 : Nat) : (s.setPhy n x).slot k0 k1 = s.slot k0 k1 := rfl
@[simp] theorem State.rawRead_setPhy (s : State) (n : Nat) (x : Phy) (k0 k1 : Nat) : (s.setPhy n x).rawRead k0 k1 = s.rawRead k0 k1 := rfl
@[simp] theorem State.outst_setPhy (s : State) (n : Nat) (x : Phy) (k0 k1 k2 : Nat) : (s.setPhy n x).outst k0 k1 k2 = s.outst k0 k1 k2 := rfl
@[simp] theorem State.packet_setPhy (s : State) (n : Nat) (x : Phy) (k0 : Nat) : (s.setPhy n x).packet k0 = s.packet k0 := rfl
@[simp] theorem State.ucb_setDom (s : State) (u : Nat) (d : Domain) (k0 : Nat) : (s.setDom u d).ucb k0 = s.ucb k0 := rfl
@[simp] theorem State.engine_setDom (s : State) (u : Nat) (d : Domain) (k0 : Nat) : (s.setDom u d).engine k0 = s.engine k0 := rfl
@[simp] theorem State.jess_setDom (s : State) (u : Nat) (d : Domain) (k0 : Nat) : (s.setDom u d).jess k0 = s.jess k0 := rfl
@[simp] theorem State.epoch_setDom (s : State) (u : Nat) (d : Domain) (k0 : Nat) : (s.setDom u d).epoch k0 = s.epoch k0 := rfl
@[simp] theorem State.ni_setDom (s : State) (u : Nat) (d : Domain) (k0 : Nat) : (s.setDom u d).ni k0 = s.ni k0 := rfl
@[simp] theorem State.stat_setDom (s : State) (u : Nat) (d : Domain) (k0 : Nat) : (s.setDom u d).stat k0 = s.stat k0 := rfl
@[simp] theorem State.phy_setDom (s : State) (u : Nat) (d : Domain) (k0 : Nat) : (s.setDom u d).phy k0 = s.phy k0 := rfl
@[simp] theorem State.chain_setDom (s : State) (u : Nat) (d : Domain) (k0 : Nat) : (s.setDom u d).chain k0 = s.chain k0 := rfl
@[simp] theorem State.sec_setDom (s : State) (u : Nat) (d : Domain) (k0 : Nat) : (s.setDom u d).sec k0 = s.sec k0 := rfl
@[simp] theorem State.sp_setDom (s : State) (u : Nat) (d : Domain) (k0 : Nat) : (s.setDom u d).sp k0 = s.sp k0 := rfl
@[simp] theorem State.region_setDom (s : State) (u : Nat) (d : Domain) (k0 : Nat) : (s.setDom u d).region k0 = s.region k0 := rfl
@[simp] theorem State.fport_setDom (s : State) (u : Nat) (d : Domain) (k0 : Nat) : (s.setDom u d).fport k0 = s.fport k0 := rfl
@[simp] theorem State.ring_setDom (s : State) (u : Nat) (d : Domain) (k0 : Nat) : (s.setDom u d).ring k0 = s.ring k0 := rfl
@[simp] theorem State.seq_setDom (s : State) (u : Nat) (d : Domain) (k0 : Nat) : (s.setDom u d).seq k0 = s.seq k0 := rfl
@[simp] theorem State.ge_setDom (s : State) (u : Nat) (d : Domain) (k0 : Nat) : (s.setDom u d).ge k0 = s.ge k0 := rfl
@[simp] theorem State.tile_setDom (s : State) (u : Nat) (d : Domain) (k0 : Nat) : (s.setDom u d).tile k0 = s.tile k0 := rfl
@[simp] theorem State.aptCtl_setDom (s : State) (u : Nat) (d : Domain) (k0 : Nat) : (s.setDom u d).aptCtl k0 = s.aptCtl k0 := rfl
@[simp] theorem State.block_setDom (s : State) (u : Nat) (d : Domain) (k0 : Nat) : (s.setDom u d).block k0 = s.block k0 := rfl
@[simp] theorem State.obj_setDom (s : State) (u : Nat) (d : Domain) (k0 : Nat) : (s.setDom u d).obj k0 = s.obj k0 := rfl
@[simp] theorem State.lane_setDom (s : State) (u : Nat) (d : Domain) (k0 k1 : Nat) : (s.setDom u d).lane k0 k1 = s.lane k0 k1 := rfl
@[simp] theorem State.mark_setDom (s : State) (u : Nat) (d : Domain) (k0 : Nat) : (s.setDom u d).mark k0 = s.mark k0 := rfl
@[simp] theorem State.eccErr_setDom (s : State) (u : Nat) (d : Domain) (k0 : Nat) : (s.setDom u d).eccErr k0 = s.eccErr k0 := rfl
@[simp] theorem State.sem_setDom (s : State) (u : Nat) (d : Domain) (k0 : Nat) : (s.setDom u d).sem k0 = s.sem k0 := rfl
@[simp] theorem State.unitSt_setDom (s : State) (u : Nat) (d : Domain) (k0 : Nat) : (s.setDom u d).unitSt k0 = s.unitSt k0 := rfl
@[simp] theorem State.slot_setDom (s : State) (u : Nat) (d : Domain) (k0 k1 : Nat) : (s.setDom u d).slot k0 k1 = s.slot k0 k1 := rfl
@[simp] theorem State.rawRead_setDom (s : State) (u : Nat) (d : Domain) (k0 k1 : Nat) : (s.setDom u d).rawRead k0 k1 = s.rawRead k0 k1 := rfl
@[simp] theorem State.outst_setDom (s : State) (u : Nat) (d : Domain) (k0 k1 k2 : Nat) : (s.setDom u d).outst k0 k1 k2 = s.outst k0 k1 k2 := rfl
@[simp] theorem State.packet_setDom (s : State) (u : Nat) (d : Domain) (k0 : Nat) : (s.setDom u d).packet k0 = s.packet k0 := rfl
@[simp] theorem State.ucb_setMark (s : State) (a m : Nat) (k0 : Nat) : (s.setMark a m).ucb k0 = s.ucb k0 := rfl
@[simp] theorem State.dom_setMark (s : State) (a m : Nat) (k0 : Nat) : (s.setMark a m).dom k0 = s.dom k0 := rfl
@[simp] theorem State.engine_setMark (s : State) (a m : Nat) (k0 : Nat) : (s.setMark a m).engine k0 = s.engine k0 := rfl
@[simp] theorem State.jess_setMark (s : State) (a m : Nat) (k0 : Nat) : (s.setMark a m).jess k0 = s.jess k0 := rfl
@[simp] theorem State.epoch_setMark (s : State) (a m : Nat) (k0 : Nat) : (s.setMark a m).epoch k0 = s.epoch k0 := rfl
@[simp] theorem State.ni_setMark (s : State) (a m : Nat) (k0 : Nat) : (s.setMark a m).ni k0 = s.ni k0 := rfl
@[simp] theorem State.stat_setMark (s : State) (a m : Nat) (k0 : Nat) : (s.setMark a m).stat k0 = s.stat k0 := rfl
@[simp] theorem State.phy_setMark (s : State) (a m : Nat) (k0 : Nat) : (s.setMark a m).phy k0 = s.phy k0 := rfl
@[simp] theorem State.chain_setMark (s : State) (a m : Nat) (k0 : Nat) : (s.setMark a m).chain k0 = s.chain k0 := rfl
@[simp] theorem State.sec_setMark (s : State) (a m : Nat) (k0 : Nat) : (s.setMark a m).sec k0 = s.sec k0 := rfl
@[simp] theorem State.sp_setMark (s : State) (a m : Nat) (k0 : Nat) : (s.setMark a m).sp k0 = s.sp k0 := rfl
@[simp] theorem State.region_setMark (s : State) (a m : Nat) (k0 : Nat) : (s.setMark a m).region k0 = s.region k0 := rfl
@[simp] theorem State.fport_setMark (s : State) (a m : Nat) (k0 : Nat) : (s.setMark a m).fport k0 = s.fport k0 := rfl
@[simp] theorem State.ring_setMark (s : State) (a m : Nat) (k0 : Nat) : (s.setMark a m).ring k0 = s.ring k0 := rfl
@[simp] theorem State.seq_setMark (s : State) (a m : Nat) (k0 : Nat) : (s.setMark a m).seq k0 = s.seq k0 := rfl
@[simp] theorem State.ge_setMark (s : State) (a m : Nat) (k0 : Nat) : (s.setMark a m).ge k0 = s.ge k0 := rfl
@[simp] theorem State.tile_setMark (s : State) (a m : Nat) (k0 : Nat) : (s.setMark a m).tile k0 = s.tile k0 := rfl
@[simp] theorem State.aptCtl_setMark (s : State) (a m : Nat) (k0 : Nat) : (s.setMark a m).aptCtl k0 = s.aptCtl k0 := rfl
@[simp] theorem State.block_setMark (s : State) (a m : Nat) (k0 : Nat) : (s.setMark a m).block k0 = s.block k0 := rfl
@[simp] theorem State.obj_setMark (s : State) (a m : Nat) (k0 : Nat) : (s.setMark a m).obj k0 = s.obj k0 := rfl
@[simp] theorem State.lane_setMark (s : State) (a m : Nat) (k0 k1 : Nat) : (s.setMark a m).lane k0 k1 = s.lane k0 k1 := rfl
@[simp] theorem State.eccErr_setMark (s : State) (a m : Nat) (k0 : Nat) : (s.setMark a m).eccErr k0 = s.eccErr k0 := rfl
@[simp] theorem State.sem_setMark (s : State) (a m : Nat) (k0 : Nat) : (s.setMark a m).sem k0 = s.sem k0 := rfl
@[simp] theorem State.unitSt_setMark (s : State) (a m : Nat) (k0 : Nat) : (s.setMark a m).unitSt k0 = s.unitSt k0 := rfl
@[simp] theorem State.slot_setMark (s : State) (a m : Nat) (k0 k1 : Nat) : (s.setMark a m).slot k0 k1 = s.slot k0 k1 := rfl
@[simp] theorem State.rawRead_setMark (s : State) (a m : Nat) (k0 k1 : Nat) : (s.setMark a m).rawRead k0 k1 = s.rawRead k0 k1 := rfl
@[simp] theorem State.outst_setMark (s : State) (a m : Nat) (k0 k1 k2 : Nat) : (s.setMark a m).outst k0 k1 k2 = s.outst k0 k1 k2 := rfl
@[simp] theorem State.packet_setMark (s : State) (a m : Nat) (k0 : Nat) : (s.setMark a m).packet k0 = s.packet k0 := rfl
@[simp] theorem State.ucb_setEcc (s : State) (a : Nat) (e : List (Nat × Nat)) (k0 : Nat) : (s.setEcc a e).ucb k0 = s.ucb k0 := rfl
@[simp] theorem State.dom_setEcc (s : State) (a : Nat) (e : List (Nat × Nat)) (k0 : Nat) : (s.setEcc a e).dom k0 = s.dom k0 := rfl
@[simp] theorem State.engine_setEcc (s : State) (a : Nat) (e : List (Nat × Nat)) (k0 : Nat) : (s.setEcc a e).engine k0 = s.engine k0 := rfl
@[simp] theorem State.jess_setEcc (s : State) (a : Nat) (e : List (Nat × Nat)) (k0 : Nat) : (s.setEcc a e).jess k0 = s.jess k0 := rfl
@[simp] theorem State.epoch_setEcc (s : State) (a : Nat) (e : List (Nat × Nat)) (k0 : Nat) : (s.setEcc a e).epoch k0 = s.epoch k0 := rfl
@[simp] theorem State.ni_setEcc (s : State) (a : Nat) (e : List (Nat × Nat)) (k0 : Nat) : (s.setEcc a e).ni k0 = s.ni k0 := rfl
@[simp] theorem State.stat_setEcc (s : State) (a : Nat) (e : List (Nat × Nat)) (k0 : Nat) : (s.setEcc a e).stat k0 = s.stat k0 := rfl
@[simp] theorem State.phy_setEcc (s : State) (a : Nat) (e : List (Nat × Nat)) (k0 : Nat) : (s.setEcc a e).phy k0 = s.phy k0 := rfl
@[simp] theorem State.chain_setEcc (s : State) (a : Nat) (e : List (Nat × Nat)) (k0 : Nat) : (s.setEcc a e).chain k0 = s.chain k0 := rfl
@[simp] theorem State.sec_setEcc (s : State) (a : Nat) (e : List (Nat × Nat)) (k0 : Nat) : (s.setEcc a e).sec k0 = s.sec k0 := rfl
@[simp] theorem State.sp_setEcc (s : State) (a : Nat) (e : List (Nat × Nat)) (k0 : Nat) : (s.setEcc a e).sp k0 = s.sp k0 := rfl
@[simp] theorem State.region_setEcc (s : State) (a : Nat) (e : List (Nat × Nat)) (k0 : Nat) : (s.setEcc a e).region k0 = s.region k0 := rfl
@[simp] theorem State.fport_setEcc (s : State) (a : Nat) (e : List (Nat × Nat)) (k0 : Nat) : (s.setEcc a e).fport k0 = s.fport k0 := rfl
@[simp] theorem State.ring_setEcc (s : State) (a : Nat) (e : List (Nat × Nat)) (k0 : Nat) : (s.setEcc a e).ring k0 = s.ring k0 := rfl
@[simp] theorem State.seq_setEcc (s : State) (a : Nat) (e : List (Nat × Nat)) (k0 : Nat) : (s.setEcc a e).seq k0 = s.seq k0 := rfl
@[simp] theorem State.ge_setEcc (s : State) (a : Nat) (e : List (Nat × Nat)) (k0 : Nat) : (s.setEcc a e).ge k0 = s.ge k0 := rfl
@[simp] theorem State.tile_setEcc (s : State) (a : Nat) (e : List (Nat × Nat)) (k0 : Nat) : (s.setEcc a e).tile k0 = s.tile k0 := rfl
@[simp] theorem State.aptCtl_setEcc (s : State) (a : Nat) (e : List (Nat × Nat)) (k0 : Nat) : (s.setEcc a e).aptCtl k0 = s.aptCtl k0 := rfl
@[simp] theorem State.block_setEcc (s : State) (a : Nat) (e : List (Nat × Nat)) (k0 : Nat) : (s.setEcc a e).block k0 = s.block k0 := rfl
@[simp] theorem State.obj_setEcc (s : State) (a : Nat) (e : List (Nat × Nat)) (k0 : Nat) : (s.setEcc a e).obj k0 = s.obj k0 := rfl
@[simp] theorem State.lane_setEcc (s : State) (a : Nat) (e : List (Nat × Nat)) (k0 k1 : Nat) : (s.setEcc a e).lane k0 k1 = s.lane k0 k1 := rfl
@[simp] theorem State.mark_setEcc (s : State) (a : Nat) (e : List (Nat × Nat)) (k0 : Nat) : (s.setEcc a e).mark k0 = s.mark k0 := rfl
@[simp] theorem State.sem_setEcc (s : State) (a : Nat) (e : List (Nat × Nat)) (k0 : Nat) : (s.setEcc a e).sem k0 = s.sem k0 := rfl
@[simp] theorem State.unitSt_setEcc (s : State) (a : Nat) (e : List (Nat × Nat)) (k0 : Nat) : (s.setEcc a e).unitSt k0 = s.unitSt k0 := rfl
@[simp] theorem State.slot_setEcc (s : State) (a : Nat) (e : List (Nat × Nat)) (k0 k1 : Nat) : (s.setEcc a e).slot k0 k1 = s.slot k0 k1 := rfl
@[simp] theorem State.rawRead_setEcc (s : State) (a : Nat) (e : List (Nat × Nat)) (k0 k1 : Nat) : (s.setEcc a e).rawRead k0 k1 = s.rawRead k0 k1 := rfl
@[simp] theorem State.outst_setEcc (s : State) (a : Nat) (e : List (Nat × Nat)) (k0 k1 k2 : Nat) : (s.setEcc a e).outst k0 k1 k2 = s.outst k0 k1 k2 := rfl
@[simp] theorem State.packet_setEcc (s : State) (a : Nat) (e : List (Nat × Nat)) (k0 : Nat) : (s.setEcc a e).packet k0 = s.packet k0 := rfl
@[simp] theorem State.ucb_setAptCtl (s : State) (c : Nat) (x : AptCtl) (k0 : Nat) : (s.setAptCtl c x).ucb k0 = s.ucb k0 := rfl
@[simp] theorem State.dom_setAptCtl (s : State) (c : Nat) (x : AptCtl) (k0 : Nat) : (s.setAptCtl c x).dom k0 = s.dom k0 := rfl
@[simp] theorem State.engine_setAptCtl (s : State) (c : Nat) (x : AptCtl) (k0 : Nat) : (s.setAptCtl c x).engine k0 = s.engine k0 := rfl
@[simp] theorem State.jess_setAptCtl (s : State) (c : Nat) (x : AptCtl) (k0 : Nat) : (s.setAptCtl c x).jess k0 = s.jess k0 := rfl
@[simp] theorem State.epoch_setAptCtl (s : State) (c : Nat) (x : AptCtl) (k0 : Nat) : (s.setAptCtl c x).epoch k0 = s.epoch k0 := rfl
@[simp] theorem State.ni_setAptCtl (s : State) (c : Nat) (x : AptCtl) (k0 : Nat) : (s.setAptCtl c x).ni k0 = s.ni k0 := rfl
@[simp] theorem State.stat_setAptCtl (s : State) (c : Nat) (x : AptCtl) (k0 : Nat) : (s.setAptCtl c x).stat k0 = s.stat k0 := rfl
@[simp] theorem State.phy_setAptCtl (s : State) (c : Nat) (x : AptCtl) (k0 : Nat) : (s.setAptCtl c x).phy k0 = s.phy k0 := rfl
@[simp] theorem State.chain_setAptCtl (s : State) (c : Nat) (x : AptCtl) (k0 : Nat) : (s.setAptCtl c x).chain k0 = s.chain k0 := rfl
@[simp] theorem State.sec_setAptCtl (s : State) (c : Nat) (x : AptCtl) (k0 : Nat) : (s.setAptCtl c x).sec k0 = s.sec k0 := rfl
@[simp] theorem State.sp_setAptCtl (s : State) (c : Nat) (x : AptCtl) (k0 : Nat) : (s.setAptCtl c x).sp k0 = s.sp k0 := rfl
@[simp] theorem State.region_setAptCtl (s : State) (c : Nat) (x : AptCtl) (k0 : Nat) : (s.setAptCtl c x).region k0 = s.region k0 := rfl
@[simp] theorem State.fport_setAptCtl (s : State) (c : Nat) (x : AptCtl) (k0 : Nat) : (s.setAptCtl c x).fport k0 = s.fport k0 := rfl
@[simp] theorem State.ring_setAptCtl (s : State) (c : Nat) (x : AptCtl) (k0 : Nat) : (s.setAptCtl c x).ring k0 = s.ring k0 := rfl
@[simp] theorem State.seq_setAptCtl (s : State) (c : Nat) (x : AptCtl) (k0 : Nat) : (s.setAptCtl c x).seq k0 = s.seq k0 := rfl
@[simp] theorem State.ge_setAptCtl (s : State) (c : Nat) (x : AptCtl) (k0 : Nat) : (s.setAptCtl c x).ge k0 = s.ge k0 := rfl
@[simp] theorem State.tile_setAptCtl (s : State) (c : Nat) (x : AptCtl) (k0 : Nat) : (s.setAptCtl c x).tile k0 = s.tile k0 := rfl
@[simp] theorem State.block_setAptCtl (s : State) (c : Nat) (x : AptCtl) (k0 : Nat) : (s.setAptCtl c x).block k0 = s.block k0 := rfl
@[simp] theorem State.obj_setAptCtl (s : State) (c : Nat) (x : AptCtl) (k0 : Nat) : (s.setAptCtl c x).obj k0 = s.obj k0 := rfl
@[simp] theorem State.lane_setAptCtl (s : State) (c : Nat) (x : AptCtl) (k0 k1 : Nat) : (s.setAptCtl c x).lane k0 k1 = s.lane k0 k1 := rfl
@[simp] theorem State.mark_setAptCtl (s : State) (c : Nat) (x : AptCtl) (k0 : Nat) : (s.setAptCtl c x).mark k0 = s.mark k0 := rfl
@[simp] theorem State.eccErr_setAptCtl (s : State) (c : Nat) (x : AptCtl) (k0 : Nat) : (s.setAptCtl c x).eccErr k0 = s.eccErr k0 := rfl
@[simp] theorem State.sem_setAptCtl (s : State) (c : Nat) (x : AptCtl) (k0 : Nat) : (s.setAptCtl c x).sem k0 = s.sem k0 := rfl
@[simp] theorem State.unitSt_setAptCtl (s : State) (c : Nat) (x : AptCtl) (k0 : Nat) : (s.setAptCtl c x).unitSt k0 = s.unitSt k0 := rfl
@[simp] theorem State.slot_setAptCtl (s : State) (c : Nat) (x : AptCtl) (k0 k1 : Nat) : (s.setAptCtl c x).slot k0 k1 = s.slot k0 k1 := rfl
@[simp] theorem State.rawRead_setAptCtl (s : State) (c : Nat) (x : AptCtl) (k0 k1 : Nat) : (s.setAptCtl c x).rawRead k0 k1 = s.rawRead k0 k1 := rfl
@[simp] theorem State.outst_setAptCtl (s : State) (c : Nat) (x : AptCtl) (k0 k1 k2 : Nat) : (s.setAptCtl c x).outst k0 k1 k2 = s.outst k0 k1 k2 := rfl
@[simp] theorem State.packet_setAptCtl (s : State) (c : Nat) (x : AptCtl) (k0 : Nat) : (s.setAptCtl c x).packet k0 = s.packet k0 := rfl
@[simp] theorem State.ucb_setColl (s : State) (x : Coll) (k0 : Nat) : (s.setColl x).ucb k0 = s.ucb k0 := rfl
@[simp] theorem State.dom_setColl (s : State) (x : Coll) (k0 : Nat) : (s.setColl x).dom k0 = s.dom k0 := rfl
@[simp] theorem State.engine_setColl (s : State) (x : Coll) (k0 : Nat) : (s.setColl x).engine k0 = s.engine k0 := rfl
@[simp] theorem State.jess_setColl (s : State) (x : Coll) (k0 : Nat) : (s.setColl x).jess k0 = s.jess k0 := rfl
@[simp] theorem State.epoch_setColl (s : State) (x : Coll) (k0 : Nat) : (s.setColl x).epoch k0 = s.epoch k0 := rfl
@[simp] theorem State.ni_setColl (s : State) (x : Coll) (k0 : Nat) : (s.setColl x).ni k0 = s.ni k0 := rfl
@[simp] theorem State.stat_setColl (s : State) (x : Coll) (k0 : Nat) : (s.setColl x).stat k0 = s.stat k0 := rfl
@[simp] theorem State.phy_setColl (s : State) (x : Coll) (k0 : Nat) : (s.setColl x).phy k0 = s.phy k0 := rfl
@[simp] theorem State.chain_setColl (s : State) (x : Coll) (k0 : Nat) : (s.setColl x).chain k0 = s.chain k0 := rfl
@[simp] theorem State.sec_setColl (s : State) (x : Coll) (k0 : Nat) : (s.setColl x).sec k0 = s.sec k0 := rfl
@[simp] theorem State.sp_setColl (s : State) (x : Coll) (k0 : Nat) : (s.setColl x).sp k0 = s.sp k0 := rfl
@[simp] theorem State.region_setColl (s : State) (x : Coll) (k0 : Nat) : (s.setColl x).region k0 = s.region k0 := rfl
@[simp] theorem State.fport_setColl (s : State) (x : Coll) (k0 : Nat) : (s.setColl x).fport k0 = s.fport k0 := rfl
@[simp] theorem State.ring_setColl (s : State) (x : Coll) (k0 : Nat) : (s.setColl x).ring k0 = s.ring k0 := rfl
@[simp] theorem State.seq_setColl (s : State) (x : Coll) (k0 : Nat) : (s.setColl x).seq k0 = s.seq k0 := rfl
@[simp] theorem State.ge_setColl (s : State) (x : Coll) (k0 : Nat) : (s.setColl x).ge k0 = s.ge k0 := rfl
@[simp] theorem State.tile_setColl (s : State) (x : Coll) (k0 : Nat) : (s.setColl x).tile k0 = s.tile k0 := rfl
@[simp] theorem State.aptCtl_setColl (s : State) (x : Coll) (k0 : Nat) : (s.setColl x).aptCtl k0 = s.aptCtl k0 := rfl
@[simp] theorem State.block_setColl (s : State) (x : Coll) (k0 : Nat) : (s.setColl x).block k0 = s.block k0 := rfl
@[simp] theorem State.obj_setColl (s : State) (x : Coll) (k0 : Nat) : (s.setColl x).obj k0 = s.obj k0 := rfl
@[simp] theorem State.lane_setColl (s : State) (x : Coll) (k0 k1 : Nat) : (s.setColl x).lane k0 k1 = s.lane k0 k1 := rfl
@[simp] theorem State.mark_setColl (s : State) (x : Coll) (k0 : Nat) : (s.setColl x).mark k0 = s.mark k0 := rfl
@[simp] theorem State.eccErr_setColl (s : State) (x : Coll) (k0 : Nat) : (s.setColl x).eccErr k0 = s.eccErr k0 := rfl
@[simp] theorem State.sem_setColl (s : State) (x : Coll) (k0 : Nat) : (s.setColl x).sem k0 = s.sem k0 := rfl
@[simp] theorem State.unitSt_setColl (s : State) (x : Coll) (k0 : Nat) : (s.setColl x).unitSt k0 = s.unitSt k0 := rfl
@[simp] theorem State.slot_setColl (s : State) (x : Coll) (k0 k1 : Nat) : (s.setColl x).slot k0 k1 = s.slot k0 k1 := rfl
@[simp] theorem State.rawRead_setColl (s : State) (x : Coll) (k0 k1 : Nat) : (s.setColl x).rawRead k0 k1 = s.rawRead k0 k1 := rfl
@[simp] theorem State.outst_setColl (s : State) (x : Coll) (k0 k1 k2 : Nat) : (s.setColl x).outst k0 k1 k2 = s.outst k0 k1 k2 := rfl
@[simp] theorem State.packet_setColl (s : State) (x : Coll) (k0 : Nat) : (s.setColl x).packet k0 = s.packet k0 := rfl
@[simp] theorem State.ucb_setNi (s : State) (n : Nat) (x : Ni) (k0 : Nat) : (s.setNi n x).ucb k0 = s.ucb k0 := rfl
@[simp] theorem State.dom_setNi (s : State) (n : Nat) (x : Ni) (k0 : Nat) : (s.setNi n x).dom k0 = s.dom k0 := rfl
@[simp] theorem State.engine_setNi (s : State) (n : Nat) (x : Ni) (k0 : Nat) : (s.setNi n x).engine k0 = s.engine k0 := rfl
@[simp] theorem State.jess_setNi (s : State) (n : Nat) (x : Ni) (k0 : Nat) : (s.setNi n x).jess k0 = s.jess k0 := rfl
@[simp] theorem State.epoch_setNi (s : State) (n : Nat) (x : Ni) (k0 : Nat) : (s.setNi n x).epoch k0 = s.epoch k0 := rfl
@[simp] theorem State.stat_setNi (s : State) (n : Nat) (x : Ni) (k0 : Nat) : (s.setNi n x).stat k0 = s.stat k0 := rfl
@[simp] theorem State.phy_setNi (s : State) (n : Nat) (x : Ni) (k0 : Nat) : (s.setNi n x).phy k0 = s.phy k0 := rfl
@[simp] theorem State.chain_setNi (s : State) (n : Nat) (x : Ni) (k0 : Nat) : (s.setNi n x).chain k0 = s.chain k0 := rfl
@[simp] theorem State.sec_setNi (s : State) (n : Nat) (x : Ni) (k0 : Nat) : (s.setNi n x).sec k0 = s.sec k0 := rfl
@[simp] theorem State.sp_setNi (s : State) (n : Nat) (x : Ni) (k0 : Nat) : (s.setNi n x).sp k0 = s.sp k0 := rfl
@[simp] theorem State.region_setNi (s : State) (n : Nat) (x : Ni) (k0 : Nat) : (s.setNi n x).region k0 = s.region k0 := rfl
@[simp] theorem State.fport_setNi (s : State) (n : Nat) (x : Ni) (k0 : Nat) : (s.setNi n x).fport k0 = s.fport k0 := rfl
@[simp] theorem State.ring_setNi (s : State) (n : Nat) (x : Ni) (k0 : Nat) : (s.setNi n x).ring k0 = s.ring k0 := rfl
@[simp] theorem State.seq_setNi (s : State) (n : Nat) (x : Ni) (k0 : Nat) : (s.setNi n x).seq k0 = s.seq k0 := rfl
@[simp] theorem State.ge_setNi (s : State) (n : Nat) (x : Ni) (k0 : Nat) : (s.setNi n x).ge k0 = s.ge k0 := rfl
@[simp] theorem State.tile_setNi (s : State) (n : Nat) (x : Ni) (k0 : Nat) : (s.setNi n x).tile k0 = s.tile k0 := rfl
@[simp] theorem State.aptCtl_setNi (s : State) (n : Nat) (x : Ni) (k0 : Nat) : (s.setNi n x).aptCtl k0 = s.aptCtl k0 := rfl
@[simp] theorem State.block_setNi (s : State) (n : Nat) (x : Ni) (k0 : Nat) : (s.setNi n x).block k0 = s.block k0 := rfl
@[simp] theorem State.obj_setNi (s : State) (n : Nat) (x : Ni) (k0 : Nat) : (s.setNi n x).obj k0 = s.obj k0 := rfl
@[simp] theorem State.lane_setNi (s : State) (n : Nat) (x : Ni) (k0 k1 : Nat) : (s.setNi n x).lane k0 k1 = s.lane k0 k1 := rfl
@[simp] theorem State.mark_setNi (s : State) (n : Nat) (x : Ni) (k0 : Nat) : (s.setNi n x).mark k0 = s.mark k0 := rfl
@[simp] theorem State.eccErr_setNi (s : State) (n : Nat) (x : Ni) (k0 : Nat) : (s.setNi n x).eccErr k0 = s.eccErr k0 := rfl
@[simp] theorem State.sem_setNi (s : State) (n : Nat) (x : Ni) (k0 : Nat) : (s.setNi n x).sem k0 = s.sem k0 := rfl
@[simp] theorem State.unitSt_setNi (s : State) (n : Nat) (x : Ni) (k0 : Nat) : (s.setNi n x).unitSt k0 = s.unitSt k0 := rfl
@[simp] theorem State.slot_setNi (s : State) (n : Nat) (x : Ni) (k0 k1 : Nat) : (s.setNi n x).slot k0 k1 = s.slot k0 k1 := rfl
@[simp] theorem State.rawRead_setNi (s : State) (n : Nat) (x : Ni) (k0 k1 : Nat) : (s.setNi n x).rawRead k0 k1 = s.rawRead k0 k1 := rfl
@[simp] theorem State.outst_setNi (s : State) (n : Nat) (x : Ni) (k0 k1 k2 : Nat) : (s.setNi n x).outst k0 k1 k2 = s.outst k0 k1 k2 := rfl
@[simp] theorem State.packet_setNi (s : State) (n : Nat) (x : Ni) (k0 : Nat) : (s.setNi n x).packet k0 = s.packet k0 := rfl
@[simp] theorem State.ucb_setStat (s : State) (i : Nat) (x : Stat) (k0 : Nat) : (s.setStat i x).ucb k0 = s.ucb k0 := rfl
@[simp] theorem State.dom_setStat (s : State) (i : Nat) (x : Stat) (k0 : Nat) : (s.setStat i x).dom k0 = s.dom k0 := rfl
@[simp] theorem State.engine_setStat (s : State) (i : Nat) (x : Stat) (k0 : Nat) : (s.setStat i x).engine k0 = s.engine k0 := rfl
@[simp] theorem State.jess_setStat (s : State) (i : Nat) (x : Stat) (k0 : Nat) : (s.setStat i x).jess k0 = s.jess k0 := rfl
@[simp] theorem State.epoch_setStat (s : State) (i : Nat) (x : Stat) (k0 : Nat) : (s.setStat i x).epoch k0 = s.epoch k0 := rfl
@[simp] theorem State.ni_setStat (s : State) (i : Nat) (x : Stat) (k0 : Nat) : (s.setStat i x).ni k0 = s.ni k0 := rfl
@[simp] theorem State.phy_setStat (s : State) (i : Nat) (x : Stat) (k0 : Nat) : (s.setStat i x).phy k0 = s.phy k0 := rfl
@[simp] theorem State.chain_setStat (s : State) (i : Nat) (x : Stat) (k0 : Nat) : (s.setStat i x).chain k0 = s.chain k0 := rfl
@[simp] theorem State.sec_setStat (s : State) (i : Nat) (x : Stat) (k0 : Nat) : (s.setStat i x).sec k0 = s.sec k0 := rfl
@[simp] theorem State.sp_setStat (s : State) (i : Nat) (x : Stat) (k0 : Nat) : (s.setStat i x).sp k0 = s.sp k0 := rfl
@[simp] theorem State.region_setStat (s : State) (i : Nat) (x : Stat) (k0 : Nat) : (s.setStat i x).region k0 = s.region k0 := rfl
@[simp] theorem State.fport_setStat (s : State) (i : Nat) (x : Stat) (k0 : Nat) : (s.setStat i x).fport k0 = s.fport k0 := rfl
@[simp] theorem State.ring_setStat (s : State) (i : Nat) (x : Stat) (k0 : Nat) : (s.setStat i x).ring k0 = s.ring k0 := rfl
@[simp] theorem State.seq_setStat (s : State) (i : Nat) (x : Stat) (k0 : Nat) : (s.setStat i x).seq k0 = s.seq k0 := rfl
@[simp] theorem State.ge_setStat (s : State) (i : Nat) (x : Stat) (k0 : Nat) : (s.setStat i x).ge k0 = s.ge k0 := rfl
@[simp] theorem State.tile_setStat (s : State) (i : Nat) (x : Stat) (k0 : Nat) : (s.setStat i x).tile k0 = s.tile k0 := rfl
@[simp] theorem State.aptCtl_setStat (s : State) (i : Nat) (x : Stat) (k0 : Nat) : (s.setStat i x).aptCtl k0 = s.aptCtl k0 := rfl
@[simp] theorem State.block_setStat (s : State) (i : Nat) (x : Stat) (k0 : Nat) : (s.setStat i x).block k0 = s.block k0 := rfl
@[simp] theorem State.obj_setStat (s : State) (i : Nat) (x : Stat) (k0 : Nat) : (s.setStat i x).obj k0 = s.obj k0 := rfl
@[simp] theorem State.lane_setStat (s : State) (i : Nat) (x : Stat) (k0 k1 : Nat) : (s.setStat i x).lane k0 k1 = s.lane k0 k1 := rfl
@[simp] theorem State.mark_setStat (s : State) (i : Nat) (x : Stat) (k0 : Nat) : (s.setStat i x).mark k0 = s.mark k0 := rfl
@[simp] theorem State.eccErr_setStat (s : State) (i : Nat) (x : Stat) (k0 : Nat) : (s.setStat i x).eccErr k0 = s.eccErr k0 := rfl
@[simp] theorem State.sem_setStat (s : State) (i : Nat) (x : Stat) (k0 : Nat) : (s.setStat i x).sem k0 = s.sem k0 := rfl
@[simp] theorem State.unitSt_setStat (s : State) (i : Nat) (x : Stat) (k0 : Nat) : (s.setStat i x).unitSt k0 = s.unitSt k0 := rfl
@[simp] theorem State.slot_setStat (s : State) (i : Nat) (x : Stat) (k0 k1 : Nat) : (s.setStat i x).slot k0 k1 = s.slot k0 k1 := rfl
@[simp] theorem State.rawRead_setStat (s : State) (i : Nat) (x : Stat) (k0 k1 : Nat) : (s.setStat i x).rawRead k0 k1 = s.rawRead k0 k1 := rfl
@[simp] theorem State.outst_setStat (s : State) (i : Nat) (x : Stat) (k0 k1 k2 : Nat) : (s.setStat i x).outst k0 k1 k2 = s.outst k0 k1 k2 := rfl
@[simp] theorem State.packet_setStat (s : State) (i : Nat) (x : Stat) (k0 : Nat) : (s.setStat i x).packet k0 = s.packet k0 := rfl
@[simp] theorem State.ucb_dropPacket (s : State) (i : Nat) (k0 : Nat) : (s.dropPacket i).ucb k0 = s.ucb k0 := rfl
@[simp] theorem State.dom_dropPacket (s : State) (i : Nat) (k0 : Nat) : (s.dropPacket i).dom k0 = s.dom k0 := rfl
@[simp] theorem State.engine_dropPacket (s : State) (i : Nat) (k0 : Nat) : (s.dropPacket i).engine k0 = s.engine k0 := rfl
@[simp] theorem State.jess_dropPacket (s : State) (i : Nat) (k0 : Nat) : (s.dropPacket i).jess k0 = s.jess k0 := rfl
@[simp] theorem State.epoch_dropPacket (s : State) (i : Nat) (k0 : Nat) : (s.dropPacket i).epoch k0 = s.epoch k0 := rfl
@[simp] theorem State.ni_dropPacket (s : State) (i : Nat) (k0 : Nat) : (s.dropPacket i).ni k0 = s.ni k0 := rfl
@[simp] theorem State.stat_dropPacket (s : State) (i : Nat) (k0 : Nat) : (s.dropPacket i).stat k0 = s.stat k0 := rfl
@[simp] theorem State.phy_dropPacket (s : State) (i : Nat) (k0 : Nat) : (s.dropPacket i).phy k0 = s.phy k0 := rfl
@[simp] theorem State.chain_dropPacket (s : State) (i : Nat) (k0 : Nat) : (s.dropPacket i).chain k0 = s.chain k0 := rfl
@[simp] theorem State.sec_dropPacket (s : State) (i : Nat) (k0 : Nat) : (s.dropPacket i).sec k0 = s.sec k0 := rfl
@[simp] theorem State.sp_dropPacket (s : State) (i : Nat) (k0 : Nat) : (s.dropPacket i).sp k0 = s.sp k0 := rfl
@[simp] theorem State.region_dropPacket (s : State) (i : Nat) (k0 : Nat) : (s.dropPacket i).region k0 = s.region k0 := rfl
@[simp] theorem State.fport_dropPacket (s : State) (i : Nat) (k0 : Nat) : (s.dropPacket i).fport k0 = s.fport k0 := rfl
@[simp] theorem State.ring_dropPacket (s : State) (i : Nat) (k0 : Nat) : (s.dropPacket i).ring k0 = s.ring k0 := rfl
@[simp] theorem State.seq_dropPacket (s : State) (i : Nat) (k0 : Nat) : (s.dropPacket i).seq k0 = s.seq k0 := rfl
@[simp] theorem State.ge_dropPacket (s : State) (i : Nat) (k0 : Nat) : (s.dropPacket i).ge k0 = s.ge k0 := rfl
@[simp] theorem State.tile_dropPacket (s : State) (i : Nat) (k0 : Nat) : (s.dropPacket i).tile k0 = s.tile k0 := rfl
@[simp] theorem State.aptCtl_dropPacket (s : State) (i : Nat) (k0 : Nat) : (s.dropPacket i).aptCtl k0 = s.aptCtl k0 := rfl
@[simp] theorem State.block_dropPacket (s : State) (i : Nat) (k0 : Nat) : (s.dropPacket i).block k0 = s.block k0 := rfl
@[simp] theorem State.obj_dropPacket (s : State) (i : Nat) (k0 : Nat) : (s.dropPacket i).obj k0 = s.obj k0 := rfl
@[simp] theorem State.lane_dropPacket (s : State) (i : Nat) (k0 k1 : Nat) : (s.dropPacket i).lane k0 k1 = s.lane k0 k1 := rfl
@[simp] theorem State.mark_dropPacket (s : State) (i : Nat) (k0 : Nat) : (s.dropPacket i).mark k0 = s.mark k0 := rfl
@[simp] theorem State.eccErr_dropPacket (s : State) (i : Nat) (k0 : Nat) : (s.dropPacket i).eccErr k0 = s.eccErr k0 := rfl
@[simp] theorem State.sem_dropPacket (s : State) (i : Nat) (k0 : Nat) : (s.dropPacket i).sem k0 = s.sem k0 := rfl
@[simp] theorem State.unitSt_dropPacket (s : State) (i : Nat) (k0 : Nat) : (s.dropPacket i).unitSt k0 = s.unitSt k0 := rfl
@[simp] theorem State.slot_dropPacket (s : State) (i : Nat) (k0 k1 : Nat) : (s.dropPacket i).slot k0 k1 = s.slot k0 k1 := rfl
@[simp] theorem State.rawRead_dropPacket (s : State) (i : Nat) (k0 k1 : Nat) : (s.dropPacket i).rawRead k0 k1 = s.rawRead k0 k1 := rfl
@[simp] theorem State.outst_dropPacket (s : State) (i : Nat) (k0 k1 k2 : Nat) : (s.dropPacket i).outst k0 k1 k2 = s.outst k0 k1 k2 := rfl
@[simp] theorem State.ucb_setPacket (s : State) (p : Packet) (k0 : Nat) : (s.setPacket p).ucb k0 = s.ucb k0 := rfl
@[simp] theorem State.dom_setPacket (s : State) (p : Packet) (k0 : Nat) : (s.setPacket p).dom k0 = s.dom k0 := rfl
@[simp] theorem State.engine_setPacket (s : State) (p : Packet) (k0 : Nat) : (s.setPacket p).engine k0 = s.engine k0 := rfl
@[simp] theorem State.jess_setPacket (s : State) (p : Packet) (k0 : Nat) : (s.setPacket p).jess k0 = s.jess k0 := rfl
@[simp] theorem State.epoch_setPacket (s : State) (p : Packet) (k0 : Nat) : (s.setPacket p).epoch k0 = s.epoch k0 := rfl
@[simp] theorem State.ni_setPacket (s : State) (p : Packet) (k0 : Nat) : (s.setPacket p).ni k0 = s.ni k0 := rfl
@[simp] theorem State.stat_setPacket (s : State) (p : Packet) (k0 : Nat) : (s.setPacket p).stat k0 = s.stat k0 := rfl
@[simp] theorem State.phy_setPacket (s : State) (p : Packet) (k0 : Nat) : (s.setPacket p).phy k0 = s.phy k0 := rfl
@[simp] theorem State.chain_setPacket (s : State) (p : Packet) (k0 : Nat) : (s.setPacket p).chain k0 = s.chain k0 := rfl
@[simp] theorem State.sec_setPacket (s : State) (p : Packet) (k0 : Nat) : (s.setPacket p).sec k0 = s.sec k0 := rfl
@[simp] theorem State.sp_setPacket (s : State) (p : Packet) (k0 : Nat) : (s.setPacket p).sp k0 = s.sp k0 := rfl
@[simp] theorem State.region_setPacket (s : State) (p : Packet) (k0 : Nat) : (s.setPacket p).region k0 = s.region k0 := rfl
@[simp] theorem State.fport_setPacket (s : State) (p : Packet) (k0 : Nat) : (s.setPacket p).fport k0 = s.fport k0 := rfl
@[simp] theorem State.ring_setPacket (s : State) (p : Packet) (k0 : Nat) : (s.setPacket p).ring k0 = s.ring k0 := rfl
@[simp] theorem State.seq_setPacket (s : State) (p : Packet) (k0 : Nat) : (s.setPacket p).seq k0 = s.seq k0 := rfl
@[simp] theorem State.ge_setPacket (s : State) (p : Packet) (k0 : Nat) : (s.setPacket p).ge k0 = s.ge k0 := rfl
@[simp] theorem State.tile_setPacket (s : State) (p : Packet) (k0 : Nat) : (s.setPacket p).tile k0 = s.tile k0 := rfl
@[simp] theorem State.aptCtl_setPacket (s : State) (p : Packet) (k0 : Nat) : (s.setPacket p).aptCtl k0 = s.aptCtl k0 := rfl
@[simp] theorem State.block_setPacket (s : State) (p : Packet) (k0 : Nat) : (s.setPacket p).block k0 = s.block k0 := rfl
@[simp] theorem State.obj_setPacket (s : State) (p : Packet) (k0 : Nat) : (s.setPacket p).obj k0 = s.obj k0 := rfl
@[simp] theorem State.lane_setPacket (s : State) (p : Packet) (k0 k1 : Nat) : (s.setPacket p).lane k0 k1 = s.lane k0 k1 := rfl
@[simp] theorem State.mark_setPacket (s : State) (p : Packet) (k0 : Nat) : (s.setPacket p).mark k0 = s.mark k0 := rfl
@[simp] theorem State.eccErr_setPacket (s : State) (p : Packet) (k0 : Nat) : (s.setPacket p).eccErr k0 = s.eccErr k0 := rfl
@[simp] theorem State.sem_setPacket (s : State) (p : Packet) (k0 : Nat) : (s.setPacket p).sem k0 = s.sem k0 := rfl
@[simp] theorem State.unitSt_setPacket (s : State) (p : Packet) (k0 : Nat) : (s.setPacket p).unitSt k0 = s.unitSt k0 := rfl
@[simp] theorem State.slot_setPacket (s : State) (p : Packet) (k0 k1 : Nat) : (s.setPacket p).slot k0 k1 = s.slot k0 k1 := rfl
@[simp] theorem State.rawRead_setPacket (s : State) (p : Packet) (k0 k1 : Nat) : (s.setPacket p).rawRead k0 k1 = s.rawRead k0 k1 := rfl
@[simp] theorem State.outst_setPacket (s : State) (p : Packet) (k0 k1 k2 : Nat) : (s.setPacket p).outst k0 k1 k2 = s.outst k0 k1 k2 := rfl
@[simp] theorem State.ucb_idle (s : State) (k0 : Nat) : (s.idle).ucb k0 = s.ucb k0 := rfl
@[simp] theorem State.dom_idle (s : State) (k0 : Nat) : (s.idle).dom k0 = s.dom k0 := rfl
@[simp] theorem State.engine_idle (s : State) (k0 : Nat) : (s.idle).engine k0 = s.engine k0 := rfl
@[simp] theorem State.jess_idle (s : State) (k0 : Nat) : (s.idle).jess k0 = s.jess k0 := rfl
@[simp] theorem State.epoch_idle (s : State) (k0 : Nat) : (s.idle).epoch k0 = s.epoch k0 := rfl
@[simp] theorem State.ni_idle (s : State) (k0 : Nat) : (s.idle).ni k0 = s.ni k0 := rfl
@[simp] theorem State.stat_idle (s : State) (k0 : Nat) : (s.idle).stat k0 = s.stat k0 := rfl
@[simp] theorem State.phy_idle (s : State) (k0 : Nat) : (s.idle).phy k0 = s.phy k0 := rfl
@[simp] theorem State.chain_idle (s : State) (k0 : Nat) : (s.idle).chain k0 = s.chain k0 := rfl
@[simp] theorem State.sec_idle (s : State) (k0 : Nat) : (s.idle).sec k0 = s.sec k0 := rfl
@[simp] theorem State.sp_idle (s : State) (k0 : Nat) : (s.idle).sp k0 = s.sp k0 := rfl
@[simp] theorem State.region_idle (s : State) (k0 : Nat) : (s.idle).region k0 = s.region k0 := rfl
@[simp] theorem State.fport_idle (s : State) (k0 : Nat) : (s.idle).fport k0 = s.fport k0 := rfl
@[simp] theorem State.ring_idle (s : State) (k0 : Nat) : (s.idle).ring k0 = s.ring k0 := rfl
@[simp] theorem State.seq_idle (s : State) (k0 : Nat) : (s.idle).seq k0 = s.seq k0 := rfl
@[simp] theorem State.ge_idle (s : State) (k0 : Nat) : (s.idle).ge k0 = s.ge k0 := rfl
@[simp] theorem State.tile_idle (s : State) (k0 : Nat) : (s.idle).tile k0 = s.tile k0 := rfl
@[simp] theorem State.aptCtl_idle (s : State) (k0 : Nat) : (s.idle).aptCtl k0 = s.aptCtl k0 := rfl
@[simp] theorem State.block_idle (s : State) (k0 : Nat) : (s.idle).block k0 = s.block k0 := rfl
@[simp] theorem State.obj_idle (s : State) (k0 : Nat) : (s.idle).obj k0 = s.obj k0 := rfl
@[simp] theorem State.lane_idle (s : State) (k0 k1 : Nat) : (s.idle).lane k0 k1 = s.lane k0 k1 := rfl
@[simp] theorem State.mark_idle (s : State) (k0 : Nat) : (s.idle).mark k0 = s.mark k0 := rfl
@[simp] theorem State.eccErr_idle (s : State) (k0 : Nat) : (s.idle).eccErr k0 = s.eccErr k0 := rfl
@[simp] theorem State.sem_idle (s : State) (k0 : Nat) : (s.idle).sem k0 = s.sem k0 := rfl
@[simp] theorem State.unitSt_idle (s : State) (k0 : Nat) : (s.idle).unitSt k0 = s.unitSt k0 := rfl
@[simp] theorem State.slot_idle (s : State) (k0 k1 : Nat) : (s.idle).slot k0 k1 = s.slot k0 k1 := rfl
@[simp] theorem State.rawRead_idle (s : State) (k0 k1 : Nat) : (s.idle).rawRead k0 k1 = s.rawRead k0 k1 := rfl
@[simp] theorem State.outst_idle (s : State) (k0 k1 k2 : Nat) : (s.idle).outst k0 k1 k2 = s.outst k0 k1 k2 := rfl
@[simp] theorem State.packet_idle (s : State) (k0 : Nat) : (s.idle).packet k0 = s.packet k0 := rfl
@[simp] theorem State.ucb_setObj (s : State) (key v : Nat) (k0 : Nat) : (s.setObj key v).ucb k0 = s.ucb k0 := rfl
@[simp] theorem State.dom_setObj (s : State) (key v : Nat) (k0 : Nat) : (s.setObj key v).dom k0 = s.dom k0 := rfl
@[simp] theorem State.engine_setObj (s : State) (key v : Nat) (k0 : Nat) : (s.setObj key v).engine k0 = s.engine k0 := rfl
@[simp] theorem State.jess_setObj (s : State) (key v : Nat) (k0 : Nat) : (s.setObj key v).jess k0 = s.jess k0 := rfl
@[simp] theorem State.epoch_setObj (s : State) (key v : Nat) (k0 : Nat) : (s.setObj key v).epoch k0 = s.epoch k0 := rfl
@[simp] theorem State.ni_setObj (s : State) (key v : Nat) (k0 : Nat) : (s.setObj key v).ni k0 = s.ni k0 := rfl
@[simp] theorem State.stat_setObj (s : State) (key v : Nat) (k0 : Nat) : (s.setObj key v).stat k0 = s.stat k0 := rfl
@[simp] theorem State.phy_setObj (s : State) (key v : Nat) (k0 : Nat) : (s.setObj key v).phy k0 = s.phy k0 := rfl
@[simp] theorem State.chain_setObj (s : State) (key v : Nat) (k0 : Nat) : (s.setObj key v).chain k0 = s.chain k0 := rfl
@[simp] theorem State.sec_setObj (s : State) (key v : Nat) (k0 : Nat) : (s.setObj key v).sec k0 = s.sec k0 := rfl
@[simp] theorem State.sp_setObj (s : State) (key v : Nat) (k0 : Nat) : (s.setObj key v).sp k0 = s.sp k0 := rfl
@[simp] theorem State.region_setObj (s : State) (key v : Nat) (k0 : Nat) : (s.setObj key v).region k0 = s.region k0 := rfl
@[simp] theorem State.fport_setObj (s : State) (key v : Nat) (k0 : Nat) : (s.setObj key v).fport k0 = s.fport k0 := rfl
@[simp] theorem State.ring_setObj (s : State) (key v : Nat) (k0 : Nat) : (s.setObj key v).ring k0 = s.ring k0 := rfl
@[simp] theorem State.seq_setObj (s : State) (key v : Nat) (k0 : Nat) : (s.setObj key v).seq k0 = s.seq k0 := rfl
@[simp] theorem State.ge_setObj (s : State) (key v : Nat) (k0 : Nat) : (s.setObj key v).ge k0 = s.ge k0 := rfl
@[simp] theorem State.tile_setObj (s : State) (key v : Nat) (k0 : Nat) : (s.setObj key v).tile k0 = s.tile k0 := rfl
@[simp] theorem State.aptCtl_setObj (s : State) (key v : Nat) (k0 : Nat) : (s.setObj key v).aptCtl k0 = s.aptCtl k0 := rfl
@[simp] theorem State.block_setObj (s : State) (key v : Nat) (k0 : Nat) : (s.setObj key v).block k0 = s.block k0 := rfl
@[simp] theorem State.lane_setObj (s : State) (key v : Nat) (k0 k1 : Nat) : (s.setObj key v).lane k0 k1 = s.lane k0 k1 := rfl
@[simp] theorem State.mark_setObj (s : State) (key v : Nat) (k0 : Nat) : (s.setObj key v).mark k0 = s.mark k0 := rfl
@[simp] theorem State.eccErr_setObj (s : State) (key v : Nat) (k0 : Nat) : (s.setObj key v).eccErr k0 = s.eccErr k0 := rfl
@[simp] theorem State.sem_setObj (s : State) (key v : Nat) (k0 : Nat) : (s.setObj key v).sem k0 = s.sem k0 := rfl
@[simp] theorem State.unitSt_setObj (s : State) (key v : Nat) (k0 : Nat) : (s.setObj key v).unitSt k0 = s.unitSt k0 := rfl
@[simp] theorem State.slot_setObj (s : State) (key v : Nat) (k0 k1 : Nat) : (s.setObj key v).slot k0 k1 = s.slot k0 k1 := rfl
@[simp] theorem State.rawRead_setObj (s : State) (key v : Nat) (k0 k1 : Nat) : (s.setObj key v).rawRead k0 k1 = s.rawRead k0 k1 := rfl
@[simp] theorem State.outst_setObj (s : State) (key v : Nat) (k0 k1 k2 : Nat) : (s.setObj key v).outst k0 k1 k2 = s.outst k0 k1 k2 := rfl
@[simp] theorem State.packet_setObj (s : State) (key v : Nat) (k0 : Nat) : (s.setObj key v).packet k0 = s.packet k0 := rfl
@[simp] theorem State.ucb_setBlock (s : State) (key : Nat) (v : List Byte) (k0 : Nat) : (s.setBlock key v).ucb k0 = s.ucb k0 := rfl
@[simp] theorem State.dom_setBlock (s : State) (key : Nat) (v : List Byte) (k0 : Nat) : (s.setBlock key v).dom k0 = s.dom k0 := rfl
@[simp] theorem State.engine_setBlock (s : State) (key : Nat) (v : List Byte) (k0 : Nat) : (s.setBlock key v).engine k0 = s.engine k0 := rfl
@[simp] theorem State.jess_setBlock (s : State) (key : Nat) (v : List Byte) (k0 : Nat) : (s.setBlock key v).jess k0 = s.jess k0 := rfl
@[simp] theorem State.epoch_setBlock (s : State) (key : Nat) (v : List Byte) (k0 : Nat) : (s.setBlock key v).epoch k0 = s.epoch k0 := rfl
@[simp] theorem State.ni_setBlock (s : State) (key : Nat) (v : List Byte) (k0 : Nat) : (s.setBlock key v).ni k0 = s.ni k0 := rfl
@[simp] theorem State.stat_setBlock (s : State) (key : Nat) (v : List Byte) (k0 : Nat) : (s.setBlock key v).stat k0 = s.stat k0 := rfl
@[simp] theorem State.phy_setBlock (s : State) (key : Nat) (v : List Byte) (k0 : Nat) : (s.setBlock key v).phy k0 = s.phy k0 := rfl
@[simp] theorem State.chain_setBlock (s : State) (key : Nat) (v : List Byte) (k0 : Nat) : (s.setBlock key v).chain k0 = s.chain k0 := rfl
@[simp] theorem State.sec_setBlock (s : State) (key : Nat) (v : List Byte) (k0 : Nat) : (s.setBlock key v).sec k0 = s.sec k0 := rfl
@[simp] theorem State.sp_setBlock (s : State) (key : Nat) (v : List Byte) (k0 : Nat) : (s.setBlock key v).sp k0 = s.sp k0 := rfl
@[simp] theorem State.region_setBlock (s : State) (key : Nat) (v : List Byte) (k0 : Nat) : (s.setBlock key v).region k0 = s.region k0 := rfl
@[simp] theorem State.fport_setBlock (s : State) (key : Nat) (v : List Byte) (k0 : Nat) : (s.setBlock key v).fport k0 = s.fport k0 := rfl
@[simp] theorem State.ring_setBlock (s : State) (key : Nat) (v : List Byte) (k0 : Nat) : (s.setBlock key v).ring k0 = s.ring k0 := rfl
@[simp] theorem State.seq_setBlock (s : State) (key : Nat) (v : List Byte) (k0 : Nat) : (s.setBlock key v).seq k0 = s.seq k0 := rfl
@[simp] theorem State.ge_setBlock (s : State) (key : Nat) (v : List Byte) (k0 : Nat) : (s.setBlock key v).ge k0 = s.ge k0 := rfl
@[simp] theorem State.tile_setBlock (s : State) (key : Nat) (v : List Byte) (k0 : Nat) : (s.setBlock key v).tile k0 = s.tile k0 := rfl
@[simp] theorem State.aptCtl_setBlock (s : State) (key : Nat) (v : List Byte) (k0 : Nat) : (s.setBlock key v).aptCtl k0 = s.aptCtl k0 := rfl
@[simp] theorem State.obj_setBlock (s : State) (key : Nat) (v : List Byte) (k0 : Nat) : (s.setBlock key v).obj k0 = s.obj k0 := rfl
@[simp] theorem State.lane_setBlock (s : State) (key : Nat) (v : List Byte) (k0 k1 : Nat) : (s.setBlock key v).lane k0 k1 = s.lane k0 k1 := rfl
@[simp] theorem State.mark_setBlock (s : State) (key : Nat) (v : List Byte) (k0 : Nat) : (s.setBlock key v).mark k0 = s.mark k0 := rfl
@[simp] theorem State.eccErr_setBlock (s : State) (key : Nat) (v : List Byte) (k0 : Nat) : (s.setBlock key v).eccErr k0 = s.eccErr k0 := rfl
@[simp] theorem State.sem_setBlock (s : State) (key : Nat) (v : List Byte) (k0 : Nat) : (s.setBlock key v).sem k0 = s.sem k0 := rfl
@[simp] theorem State.unitSt_setBlock (s : State) (key : Nat) (v : List Byte) (k0 : Nat) : (s.setBlock key v).unitSt k0 = s.unitSt k0 := rfl
@[simp] theorem State.slot_setBlock (s : State) (key : Nat) (v : List Byte) (k0 k1 : Nat) : (s.setBlock key v).slot k0 k1 = s.slot k0 k1 := rfl
@[simp] theorem State.rawRead_setBlock (s : State) (key : Nat) (v : List Byte) (k0 k1 : Nat) : (s.setBlock key v).rawRead k0 k1 = s.rawRead k0 k1 := rfl
@[simp] theorem State.outst_setBlock (s : State) (key : Nat) (v : List Byte) (k0 k1 k2 : Nat) : (s.setBlock key v).outst k0 k1 k2 = s.outst k0 k1 k2 := rfl
@[simp] theorem State.packet_setBlock (s : State) (key : Nat) (v : List Byte) (k0 : Nat) : (s.setBlock key v).packet k0 = s.packet k0 := rfl
@[simp] theorem State.dom_setUcb (s : State) (u : Nat) (b : Ucb) (k0 : Nat) : (s.setUcb u b).dom k0 = s.dom k0 := rfl
@[simp] theorem State.engine_setUcb (s : State) (u : Nat) (b : Ucb) (k0 : Nat) : (s.setUcb u b).engine k0 = s.engine k0 := rfl
@[simp] theorem State.jess_setUcb (s : State) (u : Nat) (b : Ucb) (k0 : Nat) : (s.setUcb u b).jess k0 = s.jess k0 := rfl
@[simp] theorem State.epoch_setUcb (s : State) (u : Nat) (b : Ucb) (k0 : Nat) : (s.setUcb u b).epoch k0 = s.epoch k0 := rfl
@[simp] theorem State.ni_setUcb (s : State) (u : Nat) (b : Ucb) (k0 : Nat) : (s.setUcb u b).ni k0 = s.ni k0 := rfl
@[simp] theorem State.stat_setUcb (s : State) (u : Nat) (b : Ucb) (k0 : Nat) : (s.setUcb u b).stat k0 = s.stat k0 := rfl
@[simp] theorem State.phy_setUcb (s : State) (u : Nat) (b : Ucb) (k0 : Nat) : (s.setUcb u b).phy k0 = s.phy k0 := rfl
@[simp] theorem State.chain_setUcb (s : State) (u : Nat) (b : Ucb) (k0 : Nat) : (s.setUcb u b).chain k0 = s.chain k0 := rfl
@[simp] theorem State.sec_setUcb (s : State) (u : Nat) (b : Ucb) (k0 : Nat) : (s.setUcb u b).sec k0 = s.sec k0 := rfl
@[simp] theorem State.sp_setUcb (s : State) (u : Nat) (b : Ucb) (k0 : Nat) : (s.setUcb u b).sp k0 = s.sp k0 := rfl
@[simp] theorem State.region_setUcb (s : State) (u : Nat) (b : Ucb) (k0 : Nat) : (s.setUcb u b).region k0 = s.region k0 := rfl
@[simp] theorem State.fport_setUcb (s : State) (u : Nat) (b : Ucb) (k0 : Nat) : (s.setUcb u b).fport k0 = s.fport k0 := rfl
@[simp] theorem State.ring_setUcb (s : State) (u : Nat) (b : Ucb) (k0 : Nat) : (s.setUcb u b).ring k0 = s.ring k0 := rfl
@[simp] theorem State.seq_setUcb (s : State) (u : Nat) (b : Ucb) (k0 : Nat) : (s.setUcb u b).seq k0 = s.seq k0 := rfl
@[simp] theorem State.ge_setUcb (s : State) (u : Nat) (b : Ucb) (k0 : Nat) : (s.setUcb u b).ge k0 = s.ge k0 := rfl
@[simp] theorem State.tile_setUcb (s : State) (u : Nat) (b : Ucb) (k0 : Nat) : (s.setUcb u b).tile k0 = s.tile k0 := rfl
@[simp] theorem State.aptCtl_setUcb (s : State) (u : Nat) (b : Ucb) (k0 : Nat) : (s.setUcb u b).aptCtl k0 = s.aptCtl k0 := rfl
@[simp] theorem State.block_setUcb (s : State) (u : Nat) (b : Ucb) (k0 : Nat) : (s.setUcb u b).block k0 = s.block k0 := rfl
@[simp] theorem State.obj_setUcb (s : State) (u : Nat) (b : Ucb) (k0 : Nat) : (s.setUcb u b).obj k0 = s.obj k0 := rfl
@[simp] theorem State.lane_setUcb (s : State) (u : Nat) (b : Ucb) (k0 k1 : Nat) : (s.setUcb u b).lane k0 k1 = s.lane k0 k1 := rfl
@[simp] theorem State.mark_setUcb (s : State) (u : Nat) (b : Ucb) (k0 : Nat) : (s.setUcb u b).mark k0 = s.mark k0 := rfl
@[simp] theorem State.eccErr_setUcb (s : State) (u : Nat) (b : Ucb) (k0 : Nat) : (s.setUcb u b).eccErr k0 = s.eccErr k0 := rfl
@[simp] theorem State.sem_setUcb (s : State) (u : Nat) (b : Ucb) (k0 : Nat) : (s.setUcb u b).sem k0 = s.sem k0 := rfl
@[simp] theorem State.slot_setUcb (s : State) (u : Nat) (b : Ucb) (k0 k1 : Nat) : (s.setUcb u b).slot k0 k1 = s.slot k0 k1 := rfl
@[simp] theorem State.rawRead_setUcb (s : State) (u : Nat) (b : Ucb) (k0 k1 : Nat) : (s.setUcb u b).rawRead k0 k1 = s.rawRead k0 k1 := rfl
@[simp] theorem State.outst_setUcb (s : State) (u : Nat) (b : Ucb) (k0 k1 k2 : Nat) : (s.setUcb u b).outst k0 k1 k2 = s.outst k0 k1 k2 := rfl
@[simp] theorem State.packet_setUcb (s : State) (u : Nat) (b : Ucb) (k0 : Nat) : (s.setUcb u b).packet k0 = s.packet k0 := rfl
@[simp] theorem State.ucb_emit (s : State) (o : Output) (k0 : Nat) : (s.emit o).ucb k0 = s.ucb k0 := rfl
@[simp] theorem State.dom_emit (s : State) (o : Output) (k0 : Nat) : (s.emit o).dom k0 = s.dom k0 := rfl
@[simp] theorem State.engine_emit (s : State) (o : Output) (k0 : Nat) : (s.emit o).engine k0 = s.engine k0 := rfl
@[simp] theorem State.jess_emit (s : State) (o : Output) (k0 : Nat) : (s.emit o).jess k0 = s.jess k0 := rfl
@[simp] theorem State.epoch_emit (s : State) (o : Output) (k0 : Nat) : (s.emit o).epoch k0 = s.epoch k0 := rfl
@[simp] theorem State.ni_emit (s : State) (o : Output) (k0 : Nat) : (s.emit o).ni k0 = s.ni k0 := rfl
@[simp] theorem State.stat_emit (s : State) (o : Output) (k0 : Nat) : (s.emit o).stat k0 = s.stat k0 := rfl
@[simp] theorem State.phy_emit (s : State) (o : Output) (k0 : Nat) : (s.emit o).phy k0 = s.phy k0 := rfl
@[simp] theorem State.chain_emit (s : State) (o : Output) (k0 : Nat) : (s.emit o).chain k0 = s.chain k0 := rfl
@[simp] theorem State.sec_emit (s : State) (o : Output) (k0 : Nat) : (s.emit o).sec k0 = s.sec k0 := rfl
@[simp] theorem State.sp_emit (s : State) (o : Output) (k0 : Nat) : (s.emit o).sp k0 = s.sp k0 := rfl
@[simp] theorem State.region_emit (s : State) (o : Output) (k0 : Nat) : (s.emit o).region k0 = s.region k0 := rfl
@[simp] theorem State.fport_emit (s : State) (o : Output) (k0 : Nat) : (s.emit o).fport k0 = s.fport k0 := rfl
@[simp] theorem State.ring_emit (s : State) (o : Output) (k0 : Nat) : (s.emit o).ring k0 = s.ring k0 := rfl
@[simp] theorem State.seq_emit (s : State) (o : Output) (k0 : Nat) : (s.emit o).seq k0 = s.seq k0 := rfl
@[simp] theorem State.ge_emit (s : State) (o : Output) (k0 : Nat) : (s.emit o).ge k0 = s.ge k0 := rfl
@[simp] theorem State.tile_emit (s : State) (o : Output) (k0 : Nat) : (s.emit o).tile k0 = s.tile k0 := rfl
@[simp] theorem State.aptCtl_emit (s : State) (o : Output) (k0 : Nat) : (s.emit o).aptCtl k0 = s.aptCtl k0 := rfl
@[simp] theorem State.block_emit (s : State) (o : Output) (k0 : Nat) : (s.emit o).block k0 = s.block k0 := rfl
@[simp] theorem State.obj_emit (s : State) (o : Output) (k0 : Nat) : (s.emit o).obj k0 = s.obj k0 := rfl
@[simp] theorem State.lane_emit (s : State) (o : Output) (k0 k1 : Nat) : (s.emit o).lane k0 k1 = s.lane k0 k1 := rfl
@[simp] theorem State.mark_emit (s : State) (o : Output) (k0 : Nat) : (s.emit o).mark k0 = s.mark k0 := rfl
@[simp] theorem State.eccErr_emit (s : State) (o : Output) (k0 : Nat) : (s.emit o).eccErr k0 = s.eccErr k0 := rfl
@[simp] theorem State.sem_emit (s : State) (o : Output) (k0 : Nat) : (s.emit o).sem k0 = s.sem k0 := rfl
@[simp] theorem State.unitSt_emit (s : State) (o : Output) (k0 : Nat) : (s.emit o).unitSt k0 = s.unitSt k0 := rfl
@[simp] theorem State.slot_emit (s : State) (o : Output) (k0 k1 : Nat) : (s.emit o).slot k0 k1 = s.slot k0 k1 := rfl
@[simp] theorem State.rawRead_emit (s : State) (o : Output) (k0 k1 : Nat) : (s.emit o).rawRead k0 k1 = s.rawRead k0 k1 := rfl
@[simp] theorem State.outst_emit (s : State) (o : Output) (k0 k1 k2 : Nat) : (s.emit o).outst k0 k1 k2 = s.outst k0 k1 k2 := rfl
@[simp] theorem State.packet_emit (s : State) (o : Output) (k0 : Nat) : (s.emit o).packet k0 = s.packet k0 := rfl
@[simp] theorem State.ucb_setVec (s : State) (fn v : Nat) (x : Vector_) (k0 : Nat) : (s.setVec fn v x).ucb k0 = s.ucb k0 := rfl
@[simp] theorem State.dom_setVec (s : State) (fn v : Nat) (x : Vector_) (k0 : Nat) : (s.setVec fn v x).dom k0 = s.dom k0 := rfl
@[simp] theorem State.engine_setVec (s : State) (fn v : Nat) (x : Vector_) (k0 : Nat) : (s.setVec fn v x).engine k0 = s.engine k0 := rfl
@[simp] theorem State.jess_setVec (s : State) (fn v : Nat) (x : Vector_) (k0 : Nat) : (s.setVec fn v x).jess k0 = s.jess k0 := rfl
@[simp] theorem State.epoch_setVec (s : State) (fn v : Nat) (x : Vector_) (k0 : Nat) : (s.setVec fn v x).epoch k0 = s.epoch k0 := rfl
@[simp] theorem State.ni_setVec (s : State) (fn v : Nat) (x : Vector_) (k0 : Nat) : (s.setVec fn v x).ni k0 = s.ni k0 := rfl
@[simp] theorem State.stat_setVec (s : State) (fn v : Nat) (x : Vector_) (k0 : Nat) : (s.setVec fn v x).stat k0 = s.stat k0 := rfl
@[simp] theorem State.phy_setVec (s : State) (fn v : Nat) (x : Vector_) (k0 : Nat) : (s.setVec fn v x).phy k0 = s.phy k0 := rfl
@[simp] theorem State.chain_setVec (s : State) (fn v : Nat) (x : Vector_) (k0 : Nat) : (s.setVec fn v x).chain k0 = s.chain k0 := rfl
@[simp] theorem State.sec_setVec (s : State) (fn v : Nat) (x : Vector_) (k0 : Nat) : (s.setVec fn v x).sec k0 = s.sec k0 := rfl
@[simp] theorem State.sp_setVec (s : State) (fn v : Nat) (x : Vector_) (k0 : Nat) : (s.setVec fn v x).sp k0 = s.sp k0 := rfl
@[simp] theorem State.region_setVec (s : State) (fn v : Nat) (x : Vector_) (k0 : Nat) : (s.setVec fn v x).region k0 = s.region k0 := rfl
@[simp] theorem State.fport_setVec (s : State) (fn v : Nat) (x : Vector_) (k0 : Nat) : (s.setVec fn v x).fport k0 = s.fport k0 := rfl
@[simp] theorem State.ring_setVec (s : State) (fn v : Nat) (x : Vector_) (k0 : Nat) : (s.setVec fn v x).ring k0 = s.ring k0 := rfl
@[simp] theorem State.seq_setVec (s : State) (fn v : Nat) (x : Vector_) (k0 : Nat) : (s.setVec fn v x).seq k0 = s.seq k0 := rfl
@[simp] theorem State.ge_setVec (s : State) (fn v : Nat) (x : Vector_) (k0 : Nat) : (s.setVec fn v x).ge k0 = s.ge k0 := rfl
@[simp] theorem State.tile_setVec (s : State) (fn v : Nat) (x : Vector_) (k0 : Nat) : (s.setVec fn v x).tile k0 = s.tile k0 := rfl
@[simp] theorem State.aptCtl_setVec (s : State) (fn v : Nat) (x : Vector_) (k0 : Nat) : (s.setVec fn v x).aptCtl k0 = s.aptCtl k0 := rfl
@[simp] theorem State.block_setVec (s : State) (fn v : Nat) (x : Vector_) (k0 : Nat) : (s.setVec fn v x).block k0 = s.block k0 := rfl
@[simp] theorem State.obj_setVec (s : State) (fn v : Nat) (x : Vector_) (k0 : Nat) : (s.setVec fn v x).obj k0 = s.obj k0 := rfl
@[simp] theorem State.lane_setVec (s : State) (fn v : Nat) (x : Vector_) (k0 k1 : Nat) : (s.setVec fn v x).lane k0 k1 = s.lane k0 k1 := rfl
@[simp] theorem State.mark_setVec (s : State) (fn v : Nat) (x : Vector_) (k0 : Nat) : (s.setVec fn v x).mark k0 = s.mark k0 := rfl
@[simp] theorem State.eccErr_setVec (s : State) (fn v : Nat) (x : Vector_) (k0 : Nat) : (s.setVec fn v x).eccErr k0 = s.eccErr k0 := rfl
@[simp] theorem State.sem_setVec (s : State) (fn v : Nat) (x : Vector_) (k0 : Nat) : (s.setVec fn v x).sem k0 = s.sem k0 := rfl
@[simp] theorem State.unitSt_setVec (s : State) (fn v : Nat) (x : Vector_) (k0 : Nat) : (s.setVec fn v x).unitSt k0 = s.unitSt k0 := rfl
@[simp] theorem State.slot_setVec (s : State) (fn v : Nat) (x : Vector_) (k0 k1 : Nat) : (s.setVec fn v x).slot k0 k1 = s.slot k0 k1 := rfl
@[simp] theorem State.rawRead_setVec (s : State) (fn v : Nat) (x : Vector_) (k0 k1 : Nat) : (s.setVec fn v x).rawRead k0 k1 = s.rawRead k0 k1 := rfl
@[simp] theorem State.outst_setVec (s : State) (fn v : Nat) (x : Vector_) (k0 k1 k2 : Nat) : (s.setVec fn v x).outst k0 k1 k2 = s.outst k0 k1 k2 := rfl
@[simp] theorem State.packet_setVec (s : State) (fn v : Nat) (x : Vector_) (k0 : Nat) : (s.setVec fn v x).packet k0 = s.packet k0 := rfl
@[simp] theorem State.ucb_rawWrite (s : State) (a : Nat) (bs : List Byte) (k0 : Nat) : (s.rawWrite a bs).ucb k0 = s.ucb k0 := rfl
@[simp] theorem State.dom_rawWrite (s : State) (a : Nat) (bs : List Byte) (k0 : Nat) : (s.rawWrite a bs).dom k0 = s.dom k0 := rfl
@[simp] theorem State.engine_rawWrite (s : State) (a : Nat) (bs : List Byte) (k0 : Nat) : (s.rawWrite a bs).engine k0 = s.engine k0 := rfl
@[simp] theorem State.jess_rawWrite (s : State) (a : Nat) (bs : List Byte) (k0 : Nat) : (s.rawWrite a bs).jess k0 = s.jess k0 := rfl
@[simp] theorem State.epoch_rawWrite (s : State) (a : Nat) (bs : List Byte) (k0 : Nat) : (s.rawWrite a bs).epoch k0 = s.epoch k0 := rfl
@[simp] theorem State.ni_rawWrite (s : State) (a : Nat) (bs : List Byte) (k0 : Nat) : (s.rawWrite a bs).ni k0 = s.ni k0 := rfl
@[simp] theorem State.stat_rawWrite (s : State) (a : Nat) (bs : List Byte) (k0 : Nat) : (s.rawWrite a bs).stat k0 = s.stat k0 := rfl
@[simp] theorem State.phy_rawWrite (s : State) (a : Nat) (bs : List Byte) (k0 : Nat) : (s.rawWrite a bs).phy k0 = s.phy k0 := rfl
@[simp] theorem State.chain_rawWrite (s : State) (a : Nat) (bs : List Byte) (k0 : Nat) : (s.rawWrite a bs).chain k0 = s.chain k0 := rfl
@[simp] theorem State.sec_rawWrite (s : State) (a : Nat) (bs : List Byte) (k0 : Nat) : (s.rawWrite a bs).sec k0 = s.sec k0 := rfl
@[simp] theorem State.sp_rawWrite (s : State) (a : Nat) (bs : List Byte) (k0 : Nat) : (s.rawWrite a bs).sp k0 = s.sp k0 := rfl
@[simp] theorem State.region_rawWrite (s : State) (a : Nat) (bs : List Byte) (k0 : Nat) : (s.rawWrite a bs).region k0 = s.region k0 := rfl
@[simp] theorem State.fport_rawWrite (s : State) (a : Nat) (bs : List Byte) (k0 : Nat) : (s.rawWrite a bs).fport k0 = s.fport k0 := rfl
@[simp] theorem State.ring_rawWrite (s : State) (a : Nat) (bs : List Byte) (k0 : Nat) : (s.rawWrite a bs).ring k0 = s.ring k0 := rfl
@[simp] theorem State.seq_rawWrite (s : State) (a : Nat) (bs : List Byte) (k0 : Nat) : (s.rawWrite a bs).seq k0 = s.seq k0 := rfl
@[simp] theorem State.ge_rawWrite (s : State) (a : Nat) (bs : List Byte) (k0 : Nat) : (s.rawWrite a bs).ge k0 = s.ge k0 := rfl
@[simp] theorem State.tile_rawWrite (s : State) (a : Nat) (bs : List Byte) (k0 : Nat) : (s.rawWrite a bs).tile k0 = s.tile k0 := rfl
@[simp] theorem State.aptCtl_rawWrite (s : State) (a : Nat) (bs : List Byte) (k0 : Nat) : (s.rawWrite a bs).aptCtl k0 = s.aptCtl k0 := rfl
@[simp] theorem State.block_rawWrite (s : State) (a : Nat) (bs : List Byte) (k0 : Nat) : (s.rawWrite a bs).block k0 = s.block k0 := rfl
@[simp] theorem State.obj_rawWrite (s : State) (a : Nat) (bs : List Byte) (k0 : Nat) : (s.rawWrite a bs).obj k0 = s.obj k0 := rfl
@[simp] theorem State.lane_rawWrite (s : State) (a : Nat) (bs : List Byte) (k0 k1 : Nat) : (s.rawWrite a bs).lane k0 k1 = s.lane k0 k1 := rfl
@[simp] theorem State.mark_rawWrite (s : State) (a : Nat) (bs : List Byte) (k0 : Nat) : (s.rawWrite a bs).mark k0 = s.mark k0 := rfl
@[simp] theorem State.eccErr_rawWrite (s : State) (a : Nat) (bs : List Byte) (k0 : Nat) : (s.rawWrite a bs).eccErr k0 = s.eccErr k0 := rfl
@[simp] theorem State.sem_rawWrite (s : State) (a : Nat) (bs : List Byte) (k0 : Nat) : (s.rawWrite a bs).sem k0 = s.sem k0 := rfl
@[simp] theorem State.unitSt_rawWrite (s : State) (a : Nat) (bs : List Byte) (k0 : Nat) : (s.rawWrite a bs).unitSt k0 = s.unitSt k0 := rfl
@[simp] theorem State.slot_rawWrite (s : State) (a : Nat) (bs : List Byte) (k0 k1 : Nat) : (s.rawWrite a bs).slot k0 k1 = s.slot k0 k1 := rfl
@[simp] theorem State.outst_rawWrite (s : State) (a : Nat) (bs : List Byte) (k0 k1 k2 : Nat) : (s.rawWrite a bs).outst k0 k1 k2 = s.outst k0 k1 k2 := rfl
@[simp] theorem State.packet_rawWrite (s : State) (a : Nat) (bs : List Byte) (k0 : Nat) : (s.rawWrite a bs).packet k0 = s.packet k0 := rfl
@[simp] theorem State.ucb_setSec (s : State) (c : Nat) (x : Sec) (k0 : Nat) : (s.setSec c x).ucb k0 = s.ucb k0 := rfl
@[simp] theorem State.dom_setSec (s : State) (c : Nat) (x : Sec) (k0 : Nat) : (s.setSec c x).dom k0 = s.dom k0 := rfl
@[simp] theorem State.engine_setSec (s : State) (c : Nat) (x : Sec) (k0 : Nat) : (s.setSec c x).engine k0 = s.engine k0 := rfl
@[simp] theorem State.jess_setSec (s : State) (c : Nat) (x : Sec) (k0 : Nat) : (s.setSec c x).jess k0 = s.jess k0 := rfl
@[simp] theorem State.epoch_setSec (s : State) (c : Nat) (x : Sec) (k0 : Nat) : (s.setSec c x).epoch k0 = s.epoch k0 := rfl
@[simp] theorem State.ni_setSec (s : State) (c : Nat) (x : Sec) (k0 : Nat) : (s.setSec c x).ni k0 = s.ni k0 := rfl
@[simp] theorem State.stat_setSec (s : State) (c : Nat) (x : Sec) (k0 : Nat) : (s.setSec c x).stat k0 = s.stat k0 := rfl
@[simp] theorem State.phy_setSec (s : State) (c : Nat) (x : Sec) (k0 : Nat) : (s.setSec c x).phy k0 = s.phy k0 := rfl
@[simp] theorem State.chain_setSec (s : State) (c : Nat) (x : Sec) (k0 : Nat) : (s.setSec c x).chain k0 = s.chain k0 := rfl
@[simp] theorem State.sp_setSec (s : State) (c : Nat) (x : Sec) (k0 : Nat) : (s.setSec c x).sp k0 = s.sp k0 := rfl
@[simp] theorem State.region_setSec (s : State) (c : Nat) (x : Sec) (k0 : Nat) : (s.setSec c x).region k0 = s.region k0 := rfl
@[simp] theorem State.fport_setSec (s : State) (c : Nat) (x : Sec) (k0 : Nat) : (s.setSec c x).fport k0 = s.fport k0 := rfl
@[simp] theorem State.ring_setSec (s : State) (c : Nat) (x : Sec) (k0 : Nat) : (s.setSec c x).ring k0 = s.ring k0 := rfl
@[simp] theorem State.seq_setSec (s : State) (c : Nat) (x : Sec) (k0 : Nat) : (s.setSec c x).seq k0 = s.seq k0 := rfl
@[simp] theorem State.ge_setSec (s : State) (c : Nat) (x : Sec) (k0 : Nat) : (s.setSec c x).ge k0 = s.ge k0 := rfl
@[simp] theorem State.tile_setSec (s : State) (c : Nat) (x : Sec) (k0 : Nat) : (s.setSec c x).tile k0 = s.tile k0 := rfl
@[simp] theorem State.aptCtl_setSec (s : State) (c : Nat) (x : Sec) (k0 : Nat) : (s.setSec c x).aptCtl k0 = s.aptCtl k0 := rfl
@[simp] theorem State.block_setSec (s : State) (c : Nat) (x : Sec) (k0 : Nat) : (s.setSec c x).block k0 = s.block k0 := rfl
@[simp] theorem State.obj_setSec (s : State) (c : Nat) (x : Sec) (k0 : Nat) : (s.setSec c x).obj k0 = s.obj k0 := rfl
@[simp] theorem State.lane_setSec (s : State) (c : Nat) (x : Sec) (k0 k1 : Nat) : (s.setSec c x).lane k0 k1 = s.lane k0 k1 := rfl
@[simp] theorem State.mark_setSec (s : State) (c : Nat) (x : Sec) (k0 : Nat) : (s.setSec c x).mark k0 = s.mark k0 := rfl
@[simp] theorem State.eccErr_setSec (s : State) (c : Nat) (x : Sec) (k0 : Nat) : (s.setSec c x).eccErr k0 = s.eccErr k0 := rfl
@[simp] theorem State.sem_setSec (s : State) (c : Nat) (x : Sec) (k0 : Nat) : (s.setSec c x).sem k0 = s.sem k0 := rfl
@[simp] theorem State.unitSt_setSec (s : State) (c : Nat) (x : Sec) (k0 : Nat) : (s.setSec c x).unitSt k0 = s.unitSt k0 := rfl
@[simp] theorem State.slot_setSec (s : State) (c : Nat) (x : Sec) (k0 k1 : Nat) : (s.setSec c x).slot k0 k1 = s.slot k0 k1 := rfl
@[simp] theorem State.rawRead_setSec (s : State) (c : Nat) (x : Sec) (k0 k1 : Nat) : (s.setSec c x).rawRead k0 k1 = s.rawRead k0 k1 := rfl
@[simp] theorem State.outst_setSec (s : State) (c : Nat) (x : Sec) (k0 k1 k2 : Nat) : (s.setSec c x).outst k0 k1 k2 = s.outst k0 k1 k2 := rfl
@[simp] theorem State.packet_setSec (s : State) (c : Nat) (x : Sec) (k0 : Nat) : (s.setSec c x).packet k0 = s.packet k0 := rfl
@[simp] theorem State.ucb_setSp (s : State) (p : Nat) (x : Sp) (k0 : Nat) : (s.setSp p x).ucb k0 = s.ucb k0 := rfl
@[simp] theorem State.dom_setSp (s : State) (p : Nat) (x : Sp) (k0 : Nat) : (s.setSp p x).dom k0 = s.dom k0 := rfl
@[simp] theorem State.engine_setSp (s : State) (p : Nat) (x : Sp) (k0 : Nat) : (s.setSp p x).engine k0 = s.engine k0 := rfl
@[simp] theorem State.jess_setSp (s : State) (p : Nat) (x : Sp) (k0 : Nat) : (s.setSp p x).jess k0 = s.jess k0 := rfl
@[simp] theorem State.epoch_setSp (s : State) (p : Nat) (x : Sp) (k0 : Nat) : (s.setSp p x).epoch k0 = s.epoch k0 := rfl
@[simp] theorem State.ni_setSp (s : State) (p : Nat) (x : Sp) (k0 : Nat) : (s.setSp p x).ni k0 = s.ni k0 := rfl
@[simp] theorem State.stat_setSp (s : State) (p : Nat) (x : Sp) (k0 : Nat) : (s.setSp p x).stat k0 = s.stat k0 := rfl
@[simp] theorem State.phy_setSp (s : State) (p : Nat) (x : Sp) (k0 : Nat) : (s.setSp p x).phy k0 = s.phy k0 := rfl
@[simp] theorem State.chain_setSp (s : State) (p : Nat) (x : Sp) (k0 : Nat) : (s.setSp p x).chain k0 = s.chain k0 := rfl
@[simp] theorem State.sec_setSp (s : State) (p : Nat) (x : Sp) (k0 : Nat) : (s.setSp p x).sec k0 = s.sec k0 := rfl
@[simp] theorem State.region_setSp (s : State) (p : Nat) (x : Sp) (k0 : Nat) : (s.setSp p x).region k0 = s.region k0 := rfl
@[simp] theorem State.fport_setSp (s : State) (p : Nat) (x : Sp) (k0 : Nat) : (s.setSp p x).fport k0 = s.fport k0 := rfl
@[simp] theorem State.ring_setSp (s : State) (p : Nat) (x : Sp) (k0 : Nat) : (s.setSp p x).ring k0 = s.ring k0 := rfl
@[simp] theorem State.seq_setSp (s : State) (p : Nat) (x : Sp) (k0 : Nat) : (s.setSp p x).seq k0 = s.seq k0 := rfl
@[simp] theorem State.ge_setSp (s : State) (p : Nat) (x : Sp) (k0 : Nat) : (s.setSp p x).ge k0 = s.ge k0 := rfl
@[simp] theorem State.tile_setSp (s : State) (p : Nat) (x : Sp) (k0 : Nat) : (s.setSp p x).tile k0 = s.tile k0 := rfl
@[simp] theorem State.aptCtl_setSp (s : State) (p : Nat) (x : Sp) (k0 : Nat) : (s.setSp p x).aptCtl k0 = s.aptCtl k0 := rfl
@[simp] theorem State.block_setSp (s : State) (p : Nat) (x : Sp) (k0 : Nat) : (s.setSp p x).block k0 = s.block k0 := rfl
@[simp] theorem State.obj_setSp (s : State) (p : Nat) (x : Sp) (k0 : Nat) : (s.setSp p x).obj k0 = s.obj k0 := rfl
@[simp] theorem State.lane_setSp (s : State) (p : Nat) (x : Sp) (k0 k1 : Nat) : (s.setSp p x).lane k0 k1 = s.lane k0 k1 := rfl
@[simp] theorem State.mark_setSp (s : State) (p : Nat) (x : Sp) (k0 : Nat) : (s.setSp p x).mark k0 = s.mark k0 := rfl
@[simp] theorem State.eccErr_setSp (s : State) (p : Nat) (x : Sp) (k0 : Nat) : (s.setSp p x).eccErr k0 = s.eccErr k0 := rfl
@[simp] theorem State.sem_setSp (s : State) (p : Nat) (x : Sp) (k0 : Nat) : (s.setSp p x).sem k0 = s.sem k0 := rfl
@[simp] theorem State.unitSt_setSp (s : State) (p : Nat) (x : Sp) (k0 : Nat) : (s.setSp p x).unitSt k0 = s.unitSt k0 := rfl
@[simp] theorem State.slot_setSp (s : State) (p : Nat) (x : Sp) (k0 k1 : Nat) : (s.setSp p x).slot k0 k1 = s.slot k0 k1 := rfl
@[simp] theorem State.rawRead_setSp (s : State) (p : Nat) (x : Sp) (k0 k1 : Nat) : (s.setSp p x).rawRead k0 k1 = s.rawRead k0 k1 := rfl
@[simp] theorem State.outst_setSp (s : State) (p : Nat) (x : Sp) (k0 k1 k2 : Nat) : (s.setSp p x).outst k0 k1 k2 = s.outst k0 k1 k2 := rfl
@[simp] theorem State.packet_setSp (s : State) (p : Nat) (x : Sp) (k0 : Nat) : (s.setSp p x).packet k0 = s.packet k0 := rfl
@[simp] theorem State.ucb_setRing (s : State) (n : Nat) (r : Ring) (k0 : Nat) : (s.setRing n r).ucb k0 = s.ucb k0 := rfl
@[simp] theorem State.dom_setRing (s : State) (n : Nat) (r : Ring) (k0 : Nat) : (s.setRing n r).dom k0 = s.dom k0 := rfl
@[simp] theorem State.engine_setRing (s : State) (n : Nat) (r : Ring) (k0 : Nat) : (s.setRing n r).engine k0 = s.engine k0 := rfl
@[simp] theorem State.jess_setRing (s : State) (n : Nat) (r : Ring) (k0 : Nat) : (s.setRing n r).jess k0 = s.jess k0 := rfl
@[simp] theorem State.epoch_setRing (s : State) (n : Nat) (r : Ring) (k0 : Nat) : (s.setRing n r).epoch k0 = s.epoch k0 := rfl
@[simp] theorem State.ni_setRing (s : State) (n : Nat) (r : Ring) (k0 : Nat) : (s.setRing n r).ni k0 = s.ni k0 := rfl
@[simp] theorem State.stat_setRing (s : State) (n : Nat) (r : Ring) (k0 : Nat) : (s.setRing n r).stat k0 = s.stat k0 := rfl
@[simp] theorem State.phy_setRing (s : State) (n : Nat) (r : Ring) (k0 : Nat) : (s.setRing n r).phy k0 = s.phy k0 := rfl
@[simp] theorem State.chain_setRing (s : State) (n : Nat) (r : Ring) (k0 : Nat) : (s.setRing n r).chain k0 = s.chain k0 := rfl
@[simp] theorem State.sec_setRing (s : State) (n : Nat) (r : Ring) (k0 : Nat) : (s.setRing n r).sec k0 = s.sec k0 := rfl
@[simp] theorem State.sp_setRing (s : State) (n : Nat) (r : Ring) (k0 : Nat) : (s.setRing n r).sp k0 = s.sp k0 := rfl
@[simp] theorem State.region_setRing (s : State) (n : Nat) (r : Ring) (k0 : Nat) : (s.setRing n r).region k0 = s.region k0 := rfl
@[simp] theorem State.fport_setRing (s : State) (n : Nat) (r : Ring) (k0 : Nat) : (s.setRing n r).fport k0 = s.fport k0 := rfl
@[simp] theorem State.seq_setRing (s : State) (n : Nat) (r : Ring) (k0 : Nat) : (s.setRing n r).seq k0 = s.seq k0 := rfl
@[simp] theorem State.ge_setRing (s : State) (n : Nat) (r : Ring) (k0 : Nat) : (s.setRing n r).ge k0 = s.ge k0 := rfl
@[simp] theorem State.tile_setRing (s : State) (n : Nat) (r : Ring) (k0 : Nat) : (s.setRing n r).tile k0 = s.tile k0 := rfl
@[simp] theorem State.aptCtl_setRing (s : State) (n : Nat) (r : Ring) (k0 : Nat) : (s.setRing n r).aptCtl k0 = s.aptCtl k0 := rfl
@[simp] theorem State.block_setRing (s : State) (n : Nat) (r : Ring) (k0 : Nat) : (s.setRing n r).block k0 = s.block k0 := rfl
@[simp] theorem State.obj_setRing (s : State) (n : Nat) (r : Ring) (k0 : Nat) : (s.setRing n r).obj k0 = s.obj k0 := rfl
@[simp] theorem State.lane_setRing (s : State) (n : Nat) (r : Ring) (k0 k1 : Nat) : (s.setRing n r).lane k0 k1 = s.lane k0 k1 := rfl
@[simp] theorem State.mark_setRing (s : State) (n : Nat) (r : Ring) (k0 : Nat) : (s.setRing n r).mark k0 = s.mark k0 := rfl
@[simp] theorem State.eccErr_setRing (s : State) (n : Nat) (r : Ring) (k0 : Nat) : (s.setRing n r).eccErr k0 = s.eccErr k0 := rfl
@[simp] theorem State.sem_setRing (s : State) (n : Nat) (r : Ring) (k0 : Nat) : (s.setRing n r).sem k0 = s.sem k0 := rfl
@[simp] theorem State.unitSt_setRing (s : State) (n : Nat) (r : Ring) (k0 : Nat) : (s.setRing n r).unitSt k0 = s.unitSt k0 := rfl
@[simp] theorem State.slot_setRing (s : State) (n : Nat) (r : Ring) (k0 k1 : Nat) : (s.setRing n r).slot k0 k1 = s.slot k0 k1 := rfl
@[simp] theorem State.rawRead_setRing (s : State) (n : Nat) (r : Ring) (k0 k1 : Nat) : (s.setRing n r).rawRead k0 k1 = s.rawRead k0 k1 := rfl
@[simp] theorem State.outst_setRing (s : State) (n : Nat) (r : Ring) (k0 k1 k2 : Nat) : (s.setRing n r).outst k0 k1 k2 = s.outst k0 k1 k2 := rfl
@[simp] theorem State.packet_setRing (s : State) (n : Nat) (r : Ring) (k0 : Nat) : (s.setRing n r).packet k0 = s.packet k0 := rfl
@[simp] theorem State.ucb_setSeq (s : State) (q : Nat) (x : Sequencer) (k0 : Nat) : (s.setSeq q x).ucb k0 = s.ucb k0 := rfl
@[simp] theorem State.dom_setSeq (s : State) (q : Nat) (x : Sequencer) (k0 : Nat) : (s.setSeq q x).dom k0 = s.dom k0 := rfl
@[simp] theorem State.engine_setSeq (s : State) (q : Nat) (x : Sequencer) (k0 : Nat) : (s.setSeq q x).engine k0 = s.engine k0 := rfl
@[simp] theorem State.jess_setSeq (s : State) (q : Nat) (x : Sequencer) (k0 : Nat) : (s.setSeq q x).jess k0 = s.jess k0 := rfl
@[simp] theorem State.epoch_setSeq (s : State) (q : Nat) (x : Sequencer) (k0 : Nat) : (s.setSeq q x).epoch k0 = s.epoch k0 := rfl
@[simp] theorem State.ni_setSeq (s : State) (q : Nat) (x : Sequencer) (k0 : Nat) : (s.setSeq q x).ni k0 = s.ni k0 := rfl
@[simp] theorem State.stat_setSeq (s : State) (q : Nat) (x : Sequencer) (k0 : Nat) : (s.setSeq q x).stat k0 = s.stat k0 := rfl
@[simp] theorem State.phy_setSeq (s : State) (q : Nat) (x : Sequencer) (k0 : Nat) : (s.setSeq q x).phy k0 = s.phy k0 := rfl
@[simp] theorem State.chain_setSeq (s : State) (q : Nat) (x : Sequencer) (k0 : Nat) : (s.setSeq q x).chain k0 = s.chain k0 := rfl
@[simp] theorem State.sec_setSeq (s : State) (q : Nat) (x : Sequencer) (k0 : Nat) : (s.setSeq q x).sec k0 = s.sec k0 := rfl
@[simp] theorem State.sp_setSeq (s : State) (q : Nat) (x : Sequencer) (k0 : Nat) : (s.setSeq q x).sp k0 = s.sp k0 := rfl
@[simp] theorem State.region_setSeq (s : State) (q : Nat) (x : Sequencer) (k0 : Nat) : (s.setSeq q x).region k0 = s.region k0 := rfl
@[simp] theorem State.fport_setSeq (s : State) (q : Nat) (x : Sequencer) (k0 : Nat) : (s.setSeq q x).fport k0 = s.fport k0 := rfl
@[simp] theorem State.ring_setSeq (s : State) (q : Nat) (x : Sequencer) (k0 : Nat) : (s.setSeq q x).ring k0 = s.ring k0 := rfl
@[simp] theorem State.ge_setSeq (s : State) (q : Nat) (x : Sequencer) (k0 : Nat) : (s.setSeq q x).ge k0 = s.ge k0 := rfl
@[simp] theorem State.tile_setSeq (s : State) (q : Nat) (x : Sequencer) (k0 : Nat) : (s.setSeq q x).tile k0 = s.tile k0 := rfl
@[simp] theorem State.aptCtl_setSeq (s : State) (q : Nat) (x : Sequencer) (k0 : Nat) : (s.setSeq q x).aptCtl k0 = s.aptCtl k0 := rfl
@[simp] theorem State.block_setSeq (s : State) (q : Nat) (x : Sequencer) (k0 : Nat) : (s.setSeq q x).block k0 = s.block k0 := rfl
@[simp] theorem State.obj_setSeq (s : State) (q : Nat) (x : Sequencer) (k0 : Nat) : (s.setSeq q x).obj k0 = s.obj k0 := rfl
@[simp] theorem State.lane_setSeq (s : State) (q : Nat) (x : Sequencer) (k0 k1 : Nat) : (s.setSeq q x).lane k0 k1 = s.lane k0 k1 := rfl
@[simp] theorem State.mark_setSeq (s : State) (q : Nat) (x : Sequencer) (k0 : Nat) : (s.setSeq q x).mark k0 = s.mark k0 := rfl
@[simp] theorem State.eccErr_setSeq (s : State) (q : Nat) (x : Sequencer) (k0 : Nat) : (s.setSeq q x).eccErr k0 = s.eccErr k0 := rfl
@[simp] theorem State.sem_setSeq (s : State) (q : Nat) (x : Sequencer) (k0 : Nat) : (s.setSeq q x).sem k0 = s.sem k0 := rfl
@[simp] theorem State.unitSt_setSeq (s : State) (q : Nat) (x : Sequencer) (k0 : Nat) : (s.setSeq q x).unitSt k0 = s.unitSt k0 := rfl
@[simp] theorem State.rawRead_setSeq (s : State) (q : Nat) (x : Sequencer) (k0 k1 : Nat) : (s.setSeq q x).rawRead k0 k1 = s.rawRead k0 k1 := rfl
@[simp] theorem State.outst_setSeq (s : State) (q : Nat) (x : Sequencer) (k0 k1 k2 : Nat) : (s.setSeq q x).outst k0 k1 k2 = s.outst k0 k1 k2 := rfl
@[simp] theorem State.packet_setSeq (s : State) (q : Nat) (x : Sequencer) (k0 : Nat) : (s.setSeq q x).packet k0 = s.packet k0 := rfl
@[simp] theorem State.ucb_setGe (s : State) (g : Nat) (x : Gather) (k0 : Nat) : (s.setGe g x).ucb k0 = s.ucb k0 := rfl
@[simp] theorem State.dom_setGe (s : State) (g : Nat) (x : Gather) (k0 : Nat) : (s.setGe g x).dom k0 = s.dom k0 := rfl
@[simp] theorem State.engine_setGe (s : State) (g : Nat) (x : Gather) (k0 : Nat) : (s.setGe g x).engine k0 = s.engine k0 := rfl
@[simp] theorem State.jess_setGe (s : State) (g : Nat) (x : Gather) (k0 : Nat) : (s.setGe g x).jess k0 = s.jess k0 := rfl
@[simp] theorem State.epoch_setGe (s : State) (g : Nat) (x : Gather) (k0 : Nat) : (s.setGe g x).epoch k0 = s.epoch k0 := rfl
@[simp] theorem State.ni_setGe (s : State) (g : Nat) (x : Gather) (k0 : Nat) : (s.setGe g x).ni k0 = s.ni k0 := rfl
@[simp] theorem State.stat_setGe (s : State) (g : Nat) (x : Gather) (k0 : Nat) : (s.setGe g x).stat k0 = s.stat k0 := rfl
@[simp] theorem State.phy_setGe (s : State) (g : Nat) (x : Gather) (k0 : Nat) : (s.setGe g x).phy k0 = s.phy k0 := rfl
@[simp] theorem State.chain_setGe (s : State) (g : Nat) (x : Gather) (k0 : Nat) : (s.setGe g x).chain k0 = s.chain k0 := rfl
@[simp] theorem State.sec_setGe (s : State) (g : Nat) (x : Gather) (k0 : Nat) : (s.setGe g x).sec k0 = s.sec k0 := rfl
@[simp] theorem State.sp_setGe (s : State) (g : Nat) (x : Gather) (k0 : Nat) : (s.setGe g x).sp k0 = s.sp k0 := rfl
@[simp] theorem State.region_setGe (s : State) (g : Nat) (x : Gather) (k0 : Nat) : (s.setGe g x).region k0 = s.region k0 := rfl
@[simp] theorem State.fport_setGe (s : State) (g : Nat) (x : Gather) (k0 : Nat) : (s.setGe g x).fport k0 = s.fport k0 := rfl
@[simp] theorem State.ring_setGe (s : State) (g : Nat) (x : Gather) (k0 : Nat) : (s.setGe g x).ring k0 = s.ring k0 := rfl
@[simp] theorem State.seq_setGe (s : State) (g : Nat) (x : Gather) (k0 : Nat) : (s.setGe g x).seq k0 = s.seq k0 := rfl
@[simp] theorem State.tile_setGe (s : State) (g : Nat) (x : Gather) (k0 : Nat) : (s.setGe g x).tile k0 = s.tile k0 := rfl
@[simp] theorem State.aptCtl_setGe (s : State) (g : Nat) (x : Gather) (k0 : Nat) : (s.setGe g x).aptCtl k0 = s.aptCtl k0 := rfl
@[simp] theorem State.block_setGe (s : State) (g : Nat) (x : Gather) (k0 : Nat) : (s.setGe g x).block k0 = s.block k0 := rfl
@[simp] theorem State.obj_setGe (s : State) (g : Nat) (x : Gather) (k0 : Nat) : (s.setGe g x).obj k0 = s.obj k0 := rfl
@[simp] theorem State.lane_setGe (s : State) (g : Nat) (x : Gather) (k0 k1 : Nat) : (s.setGe g x).lane k0 k1 = s.lane k0 k1 := rfl
@[simp] theorem State.mark_setGe (s : State) (g : Nat) (x : Gather) (k0 : Nat) : (s.setGe g x).mark k0 = s.mark k0 := rfl
@[simp] theorem State.eccErr_setGe (s : State) (g : Nat) (x : Gather) (k0 : Nat) : (s.setGe g x).eccErr k0 = s.eccErr k0 := rfl
@[simp] theorem State.sem_setGe (s : State) (g : Nat) (x : Gather) (k0 : Nat) : (s.setGe g x).sem k0 = s.sem k0 := rfl
@[simp] theorem State.unitSt_setGe (s : State) (g : Nat) (x : Gather) (k0 : Nat) : (s.setGe g x).unitSt k0 = s.unitSt k0 := rfl
@[simp] theorem State.slot_setGe (s : State) (g : Nat) (x : Gather) (k0 k1 : Nat) : (s.setGe g x).slot k0 k1 = s.slot k0 k1 := rfl
@[simp] theorem State.rawRead_setGe (s : State) (g : Nat) (x : Gather) (k0 k1 : Nat) : (s.setGe g x).rawRead k0 k1 = s.rawRead k0 k1 := rfl
@[simp] theorem State.outst_setGe (s : State) (g : Nat) (x : Gather) (k0 k1 k2 : Nat) : (s.setGe g x).outst k0 k1 k2 = s.outst k0 k1 k2 := rfl
@[simp] theorem State.packet_setGe (s : State) (g : Nat) (x : Gather) (k0 : Nat) : (s.setGe g x).packet k0 = s.packet k0 := rfl
@[simp] theorem State.ucb_setTile (s : State) (t : Nat) (x : Tile) (k0 : Nat) : (s.setTile t x).ucb k0 = s.ucb k0 := rfl
@[simp] theorem State.dom_setTile (s : State) (t : Nat) (x : Tile) (k0 : Nat) : (s.setTile t x).dom k0 = s.dom k0 := rfl
@[simp] theorem State.engine_setTile (s : State) (t : Nat) (x : Tile) (k0 : Nat) : (s.setTile t x).engine k0 = s.engine k0 := rfl
@[simp] theorem State.jess_setTile (s : State) (t : Nat) (x : Tile) (k0 : Nat) : (s.setTile t x).jess k0 = s.jess k0 := rfl
@[simp] theorem State.epoch_setTile (s : State) (t : Nat) (x : Tile) (k0 : Nat) : (s.setTile t x).epoch k0 = s.epoch k0 := rfl
@[simp] theorem State.ni_setTile (s : State) (t : Nat) (x : Tile) (k0 : Nat) : (s.setTile t x).ni k0 = s.ni k0 := rfl
@[simp] theorem State.stat_setTile (s : State) (t : Nat) (x : Tile) (k0 : Nat) : (s.setTile t x).stat k0 = s.stat k0 := rfl
@[simp] theorem State.phy_setTile (s : State) (t : Nat) (x : Tile) (k0 : Nat) : (s.setTile t x).phy k0 = s.phy k0 := rfl
@[simp] theorem State.chain_setTile (s : State) (t : Nat) (x : Tile) (k0 : Nat) : (s.setTile t x).chain k0 = s.chain k0 := rfl
@[simp] theorem State.sec_setTile (s : State) (t : Nat) (x : Tile) (k0 : Nat) : (s.setTile t x).sec k0 = s.sec k0 := rfl
@[simp] theorem State.sp_setTile (s : State) (t : Nat) (x : Tile) (k0 : Nat) : (s.setTile t x).sp k0 = s.sp k0 := rfl
@[simp] theorem State.region_setTile (s : State) (t : Nat) (x : Tile) (k0 : Nat) : (s.setTile t x).region k0 = s.region k0 := rfl
@[simp] theorem State.fport_setTile (s : State) (t : Nat) (x : Tile) (k0 : Nat) : (s.setTile t x).fport k0 = s.fport k0 := rfl
@[simp] theorem State.ring_setTile (s : State) (t : Nat) (x : Tile) (k0 : Nat) : (s.setTile t x).ring k0 = s.ring k0 := rfl
@[simp] theorem State.seq_setTile (s : State) (t : Nat) (x : Tile) (k0 : Nat) : (s.setTile t x).seq k0 = s.seq k0 := rfl
@[simp] theorem State.ge_setTile (s : State) (t : Nat) (x : Tile) (k0 : Nat) : (s.setTile t x).ge k0 = s.ge k0 := rfl
@[simp] theorem State.aptCtl_setTile (s : State) (t : Nat) (x : Tile) (k0 : Nat) : (s.setTile t x).aptCtl k0 = s.aptCtl k0 := rfl
@[simp] theorem State.block_setTile (s : State) (t : Nat) (x : Tile) (k0 : Nat) : (s.setTile t x).block k0 = s.block k0 := rfl
@[simp] theorem State.obj_setTile (s : State) (t : Nat) (x : Tile) (k0 : Nat) : (s.setTile t x).obj k0 = s.obj k0 := rfl
@[simp] theorem State.lane_setTile (s : State) (t : Nat) (x : Tile) (k0 k1 : Nat) : (s.setTile t x).lane k0 k1 = s.lane k0 k1 := rfl
@[simp] theorem State.mark_setTile (s : State) (t : Nat) (x : Tile) (k0 : Nat) : (s.setTile t x).mark k0 = s.mark k0 := rfl
@[simp] theorem State.eccErr_setTile (s : State) (t : Nat) (x : Tile) (k0 : Nat) : (s.setTile t x).eccErr k0 = s.eccErr k0 := rfl
@[simp] theorem State.sem_setTile (s : State) (t : Nat) (x : Tile) (k0 : Nat) : (s.setTile t x).sem k0 = s.sem k0 := rfl
@[simp] theorem State.unitSt_setTile (s : State) (t : Nat) (x : Tile) (k0 : Nat) : (s.setTile t x).unitSt k0 = s.unitSt k0 := rfl
@[simp] theorem State.slot_setTile (s : State) (t : Nat) (x : Tile) (k0 k1 : Nat) : (s.setTile t x).slot k0 k1 = s.slot k0 k1 := rfl
@[simp] theorem State.rawRead_setTile (s : State) (t : Nat) (x : Tile) (k0 k1 : Nat) : (s.setTile t x).rawRead k0 k1 = s.rawRead k0 k1 := rfl
@[simp] theorem State.outst_setTile (s : State) (t : Nat) (x : Tile) (k0 k1 k2 : Nat) : (s.setTile t x).outst k0 k1 k2 = s.outst k0 k1 k2 := rfl
@[simp] theorem State.packet_setTile (s : State) (t : Nat) (x : Tile) (k0 : Nat) : (s.setTile t x).packet k0 = s.packet k0 := rfl

/-- A fault changes what the mirror shows of one unit at most. -/
theorem State.upsetMirror_other (s : State) (u : Nat) (h : u ≠ s.upsetUnit) :
    SMap.get 0 s.upsetMirror.oap.mirror u = SMap.get 0 s.oap.mirror u := by
  by_cases hu : s.upsetUnit < 201
  · simp only [State.upsetMirror, hu, if_true]; exact SMap.get_set_other _ _ _ h
  · simp only [State.upsetMirror, hu, if_false]

end Sys2Proof.Machine
end

