-- ==== Sys2Proof/Laws/Memory.lean ====
section
/-!
SUPPORT. Memory keeps its canonical form under every operation that changes the listed bytes, a byte reads back as written,
and a write leaves every other byte alone.
-/
namespace Sys2Proof.Machine

open Sys2Proof

theorem cellsWrite_wf (bs : List Byte) : ∀ (m : List Host.Cell) (a : Nat), SMap.wf 0 m = true → SMap.wf 0 (cellsWrite m a bs) = true := by
  induction bs with
  | nil => exact fun _ _ h => h
  | cons b bs ih => exact fun m a h => ih _ _ (SMap.wf_set a b h)

/-- A byte outside the written range is left alone. -/
theorem cellsWrite_get_outside (bs : List Byte) : ∀ (m : List Host.Cell) (a i : Nat), (i < a ∨ a + bs.length ≤ i) →
    SMap.get 0 (cellsWrite m a bs) i = SMap.get 0 m i := by
  induction bs with
  | nil => exact fun _ _ _ _ => rfl
  | cons b bs ih =>
    intro m a i h
    rw [List.length_cons] at h
    show SMap.get 0 (cellsWrite (SMap.set 0 m a b) (a + 1) bs) i = _
    rw [ih _ _ _ (by omega), SMap.get_set_other _ _ _ (by omega)]

/-- A written byte reads back. -/
theorem cellsWrite_get_inside (bs : List Byte) : ∀ (m : List Host.Cell) (a i : Nat), i < bs.length →
    SMap.get 0 (cellsWrite m a bs) (a + i) = bs.getD i 0 := by
  induction bs with
  | nil => exact fun _ _ _ h => absurd h (Nat.not_lt_zero _)
  | cons b bs ih =>
    intro m a i h
    show SMap.get 0 (cellsWrite (SMap.set 0 m a b) (a + 1) bs) (a + i) = _
    cases i with
    | zero => rw [cellsWrite_get_outside bs _ _ _ (by omega)]; simp
    | succ i =>
      have := ih (SMap.set 0 m a b) (a + 1) i (by simpa using h)
      rw [show a + (i + 1) = a + 1 + i by omega, this]; simp

theorem State.rawWrite_wf (s : State) (a : Nat) (bs : List Byte) (h : s.mem.wf = true) : (s.rawWrite a bs).mem.wf = true :=
  cellsWrite_wf bs _ _ h

theorem State.rawWrite_byteAt_outside (s : State) (a : Nat) (bs : List Byte) (i : Nat) (h : i < a ∨ a + bs.length ≤ i) :
    (s.rawWrite a bs).byteAt i = s.byteAt i := cellsWrite_get_outside bs _ _ _ h

theorem State.rawWrite_byteAt_inside (s : State) (a : Nat) (bs : List Byte) (i : Nat) (h : i < bs.length) :
    (s.rawWrite a bs).byteAt (a + i) = bs.getD i 0 := cellsWrite_get_inside bs _ _ _ h

/-- Reading back exactly what was written. -/
theorem State.rawRead_rawWrite (s : State) (a : Nat) (bs : List Byte) : (s.rawWrite a bs).rawRead a bs.length = bs := by
  apply List.ext_getElem
  · simp [State.rawRead]
  · intro i h1 h2
    have : SMap.get 0 (cellsWrite s.mem.cells a bs) (a + i) = bs.getD i 0 := cellsWrite_get_inside bs _ _ _ h2
    rw [show bs[i] = bs.getD i 0 by simp [List.getD_eq_getElem?_getD, h2], ← this]
    simp [State.rawRead, State.rawWrite]

theorem moveKeys_wf {α : Type} [DecidableEq α] (d : α) (m : SMap α) (src dst n : Nat) (h : SMap.wf d m = true) :
    SMap.wf d (moveKeys d m src dst n) = true := by
  have key : ∀ (l : SMap α) (m : SMap α), SMap.wf d m = true →
      SMap.wf d (l.foldl (fun m e => SMap.set d m (e.1 - src + dst) e.2) m) = true := by
    intro l
    induction l with
    | nil => exact fun _ h => h
    | cons e l ih => exact fun m h => ih _ (SMap.wf_set _ _ h)
  exact key _ _ (SMap.wf_filter _ h)

theorem State.copyTile_wf (s : State) (a b : Nat) (h : s.mem.wf = true) : (s.copyTile a b).mem.wf = true := moveKeys_wf 0 _ _ _ _ h

/-- What a warm reset keeps of memory is canonical. -/
theorem State.warmMemory_wf (s : State) (h : s.mem.wf = true) : s.warmMemory.wf = true := SMap.wf_filter _ h

/-- The memory right after reset lists nothing. -/
theorem reset_memory_wf : State.reset.mem.wf = true := rfl

end Sys2Proof.Machine
end

