-- ==== Sys2Proof/Laws/Steady.lean ====
section
/-!
SUPPORT. What the shared operations keep: the waiting commands, the fuses, the burnt hours, the latch of the safe state, and the
canonical form of memory and dictionary. A meaning keeps them because each operation it is made of does.
-/
namespace Sys2Proof.Machine

open Sys2Proof

theorem Steady.refl (s : State) : Steady s s := ⟨⟨rfl, rfl, rfl, Nat.le_refl _, id⟩, id⟩

theorem Steady.trans {s t u : State} (a : Steady s t) (b : Steady t u) : Steady s u :=
  ⟨⟨b.pending.trans a.pending, b.variant.trans a.variant, b.fuses.trans a.fuses, Nat.le_trans a.hours b.hours,
    fun h => b.canonical (a.canonical h)⟩, fun h => b.safe (a.safe h)⟩

/-- An update that leaves these fields alone is steady. -/
theorem Steady.of_same {s t : State} (hp : t.pending = s.pending) (hv : t.variant = s.variant) (hf : t.fusesOk = s.fusesOk)
    (hs : t.safety = s.safety) (hc : t.mem.cells = s.mem.cells) (hd : t.dict = s.dict) : Steady s t :=
  ⟨⟨hp, hv, hf, by rw [hs], fun h => by
    simpa only [State.canonical, Memory.wf, State.dictWf, hc, hd, hv] using h⟩, fun h => by rw [hs]; exact h⟩

theorem Steady.ite {s t u : State} {c : Prop} [Decidable c] (a : Steady s t) (b : Steady s u) : Steady s (if c then t else u) := by
  split <;> assumption

/-- A fold of steady updates is steady. -/
theorem Steady.foldl {β : Type} {f : State → β → State} (h : ∀ s b, Steady s (f s b)) (l : List β) (s : State) : Steady s (l.foldl f s) := by
  induction l generalizing s with
  | nil => exact .refl s
  | cons b l ih => exact (h s b).trans (ih _)

/-- A command with an occasion is steady where its effect is. -/
theorem Steady.occ {c : Bool} {s t u : State} (h : Steady s t) (he : Sys2Proof.Machine.occ c s t = .next u) : Steady s u := by
  have : u = if c then t else s := (Host.Outcome.next.inj he).symm
  rw [this]; exact .ite h (.refl s)

theorem keysRise_iff {α : Type} (m : SMap α) : keysRise m = true ↔ m.Pairwise fun a b => a.1 < b.1 := by
  induction m with
  | nil => simp [keysRise]
  | cons a m ih =>
    cases m with
    | nil => simp [keysRise]
    | cons b m =>
      simp only [keysRise, Bool.and_eq_true, decide_eq_true_eq, ih, List.pairwise_cons, List.mem_cons, forall_eq_or_imp]
      constructor
      · rintro ⟨hk, h1, h2⟩
        exact ⟨⟨hk, fun a' ha => Nat.lt_trans hk (h1 a' ha)⟩, h1, h2⟩
      · rintro ⟨⟨hk, -⟩, h1, h2⟩
        exact ⟨hk, h1, h2⟩

theorem State.setObj_dictWf (s : State) (key v : Nat) (h : s.dictWf = true) : (s.setObj key v).dictWf = true := by
  simp only [State.dictWf, Bool.and_eq_true, keysRise_iff, List.all_eq_true, decide_eq_true_eq] at h ⊢
  have he : (SMap.erase s.dict key).Pairwise (fun a b => a.1 < b.1) ∧
      ∀ e ∈ SMap.erase s.dict key, e.2 ≠ BitVec.ofNat 64 (objDefault s.variant e.1) := by
    rw [SMap.erase_eq_filter]
    exact ⟨h.1.filter _, fun e he => h.2 e (List.mem_filter.1 he).1⟩
  simp only [State.setObj, SMap.set]
  split
  · exact he
  · next hv =>
    refine ⟨SMap.pairwise_ins he.1 (SMap.fresh_erase _ _), fun e hm => ?_⟩
    rcases SMap.mem_ins.1 hm with rfl | hm
    · exact hv
    · exact he.2 e hm

theorem State.setObj_steady (s : State) (key v : Nat) : Steady s (s.setObj key v) :=
  ⟨⟨rfl, rfl, rfl, Nat.le_refl _, fun h => ⟨h.1, s.setObj_dictWf key v h.2⟩⟩, id⟩
theorem State.bump_steady (s : State) (key n : Nat) : Steady s (s.bump key n) := s.setObj_steady _ _
theorem State.bump64_steady (s : State) (key n : Nat) : Steady s (s.bump64 key n) := s.setObj_steady _ _

theorem State.rawWrite_steady (s : State) (a : Nat) (bs : List Byte) : Steady s (s.rawWrite a bs) :=
  ⟨⟨rfl, rfl, rfl, Nat.le_refl _, fun h => ⟨s.rawWrite_wf a bs h.1, h.2⟩⟩, id⟩

theorem State.setApt_steady (s : State) (c i : Nat) (e : Apt) : Steady s (s.setApt c i e) := .of_same rfl rfl rfl rfl rfl rfl
theorem State.setChain_steady (s : State) (c : Nat) (x : Chain) : Steady s (s.setChain c x) := .of_same rfl rfl rfl rfl rfl rfl
theorem State.setEpoch_steady (s : State) (d : Nat) (x : EpochDom) : Steady s (s.setEpoch d x) := .of_same rfl rfl rfl rfl rfl rfl
theorem State.setFab_steady (s : State) (f : Fabric) : Steady s (s.setFab f) := .of_same rfl rfl rfl rfl rfl rfl
theorem State.setRegion_steady (s : State) (r : Nat) (x : Region_) : Steady s (s.setRegion r x) := .of_same rfl rfl rfl rfl rfl rfl
theorem State.setFport_steady (s : State) (n : Nat) (x : Fport) : Steady s (s.setFport n x) := .of_same rfl rfl rfl rfl rfl rfl
theorem State.setLoad_steady (s : State) (l : Load) : Steady s (s.setLoad l) := .of_same rfl rfl rfl rfl rfl rfl
theorem State.clearBuf_steady (s : State) (ag : Agent) (j : Nat) : Steady s (s.clearBuf ag j) := .of_same rfl rfl rfl rfl rfl rfl
theorem State.setJess_steady (s : State) (p : Nat) (j : Jess) : Steady s (s.setJess p j) := .of_same rfl rfl rfl rfl rfl rfl
theorem State.dropWaiter_steady (s : State) (w : Waiter) : Steady s (s.dropWaiter w) := .of_same rfl rfl rfl rfl rfl rfl
theorem State.setEngine_steady (s : State) (e : Nat) (x : Engine) : Steady s (s.setEngine e x) := .of_same rfl rfl rfl rfl rfl rfl
theorem State.setLane_steady (s : State) (n l : Nat) (x : Lane) : Steady s (s.setLane n l x) := .of_same rfl rfl rfl rfl rfl rfl
theorem State.setPhy_steady (s : State) (n : Nat) (x : Phy) : Steady s (s.setPhy n x) := .of_same rfl rfl rfl rfl rfl rfl
theorem State.setDom_steady (s : State) (u : Nat) (d : Domain) : Steady s (s.setDom u d) := .of_same rfl rfl rfl rfl rfl rfl
theorem State.setMark_steady (s : State) (a m : Nat) : Steady s (s.setMark a m) := .of_same rfl rfl rfl rfl rfl rfl
theorem State.setEcc_steady (s : State) (a : Nat) (e : List (Nat × Nat)) : Steady s (s.setEcc a e) := .of_same rfl rfl rfl rfl rfl rfl
theorem State.setAptCtl_steady (s : State) (c : Nat) (x : AptCtl) : Steady s (s.setAptCtl c x) := .of_same rfl rfl rfl rfl rfl rfl
theorem State.setColl_steady (s : State) (x : Coll) : Steady s (s.setColl x) := .of_same rfl rfl rfl rfl rfl rfl
theorem State.setNi_steady (s : State) (n : Nat) (x : Ni) : Steady s (s.setNi n x) := .of_same rfl rfl rfl rfl rfl rfl
theorem State.setStat_steady (s : State) (i : Nat) (x : Stat) : Steady s (s.setStat i x) := .of_same rfl rfl rfl rfl rfl rfl
theorem State.dropPacket_steady (s : State) (i : Nat) : Steady s (s.dropPacket i) := .of_same rfl rfl rfl rfl rfl rfl
theorem State.setPacket_steady (s : State) (p : Packet) : Steady s (s.setPacket p) := .of_same rfl rfl rfl rfl rfl rfl
theorem State.idle_steady (s : State) : Steady s (s.idle) := .of_same rfl rfl rfl rfl rfl rfl
theorem State.setBlock_steady (s : State) (key : Nat) (v : List Byte) : Steady s (s.setBlock key v) := .of_same rfl rfl rfl rfl rfl rfl
theorem State.setUcb_steady (s : State) (u : Nat) (b : Ucb) : Steady s (s.setUcb u b) := .of_same rfl rfl rfl rfl rfl rfl
theorem State.emit_steady (s : State) (o : Output) : Steady s (s.emit o) := .of_same rfl rfl rfl rfl rfl rfl
theorem State.setVec_steady (s : State) (fn v : Nat) (x : Vector_) : Steady s (s.setVec fn v x) := .of_same rfl rfl rfl rfl rfl rfl
theorem State.setSec_steady (s : State) (c : Nat) (x : Sec) : Steady s (s.setSec c x) := .of_same rfl rfl rfl rfl rfl rfl
theorem State.setSp_steady (s : State) (p : Nat) (x : Sp) : Steady s (s.setSp p x) := .of_same rfl rfl rfl rfl rfl rfl
theorem State.setRing_steady (s : State) (n : Nat) (r : Ring) : Steady s (s.setRing n r) := .of_same rfl rfl rfl rfl rfl rfl
theorem State.setSeq_steady (s : State) (q : Nat) (x : Sequencer) : Steady s (s.setSeq q x) := .of_same rfl rfl rfl rfl rfl rfl
theorem State.setGe_steady (s : State) (g : Nat) (x : Gather) : Steady s (s.setGe g x) := .of_same rfl rfl rfl rfl rfl rfl
theorem State.setTile_steady (s : State) (t : Nat) (x : Tile) : Steady s (s.setTile t x) := .of_same rfl rfl rfl rfl rfl rfl

theorem State.setUnitSt_steady (s : State) (u : Nat) (st : UState) : Steady s (s.setUnitSt u st) := s.setUcb_steady _ _
theorem State.setSem_steady (s : State) (m v : Nat) : Steady s (s.setSem m v) := s.setJess_steady _ _
theorem State.setSlot_steady (s : State) (q k : Nat) (t : Slot) : Steady s (s.setSlot q k t) := s.setSeq_steady _ _
theorem State.draw_steady (s : State) : Steady s s.draw.2 := .of_same rfl rfl rfl rfl rfl rfl

theorem State.drawN_steady (n : Nat) (s : State) : Steady s (s.drawN n).2 := by
  induction n generalizing s with
  | zero => exact .refl s
  | succ n ih => exact s.draw_steady.trans (ih _)

theorem State.drawBytes_steady (s : State) (n : Nat) : Steady s (s.drawBytes n).2 := s.drawN_steady _

theorem State.post_steady (s : State) (m n : Nat) : Steady s (s.post m n).2 := by
  simp only [State.post]; split
  · exact s.setSem_steady _ _
  · exact s.bump_steady _ _

/-! Interrupts, events, errors. -/

theorem State.raiseVector_steady (s : State) (fn v : Nat) : Steady s (s.raiseVector fn v) := by
  simp only [State.raiseVector]
  exact .ite (.ite (s.setVec_steady _ _ _) (s.emit_steady _)) (.refl s)

theorem State.routeError_steady (s : State) (src : Nat) : Steady s (s.routeError src) := by
  simp only [State.routeError]; split
  · exact .refl s
  · refine Steady.trans (.ite (.refl s) ?_) (State.raiseVector_steady _ _ _)
    exact .of_same rfl rfl rfl rfl rfl rfl

theorem State.mbxEvent_steady (s : State) (pdu : List Byte) : Steady s (s.mbxEvent pdu) := by
  simp only [State.mbxEvent]
  have h : Steady s { s with oap := { s.oap with evtQ := s.oap.evtQ ++ [pdu] } } := .of_same rfl rfl rfl rfl rfl rfl
  exact .ite (.ite (h.trans (State.raiseVector_steady _ _ _)) h) (s.bump_steady _ _)

theorem State.sendEvent_steady (s : State) (code cls sub data related relSub status : Nat) :
    Steady s (s.sendEvent code cls sub data related relSub status) := by
  unfold State.sendEvent
  extract_lets bitNo unit pdu s1 s2
  have h1 : Steady s s1 := .ite (s.emit_steady _) (.refl s)
  have h2 : Steady s1 s2 := by
    refine .ite (.ite (s1.emit_steady _) ?_) (.refl _)
    split
    · exact s1.emit_steady _
    · exact .refl _
  exact (h1.trans h2).trans (.ite (s2.mbxEvent_steady _) (.refl _))

theorem State.recordError_steady (s : State) (src : Nat) (e : ErrInfo) : Steady s (s.recordError src e) := .of_same rfl rfl rfl rfl rfl rfl

theorem State.reportError_steady (s : State) (src : Nat) (e : ErrInfo) : Steady s (s.reportError src e) := by
  simp only [State.reportError]
  refine .ite (Steady.trans ?_ ((State.sendEvent_steady _ _ _ _ _ _ _ _).trans (State.routeError_steady _ _))) (.refl s)
  exact .of_same rfl rfl rfl rfl rfl rfl

theorem State.abortTests_steady (s : State) : Steady s s.abortTests := by
  unfold State.abortTests
  generalize List.range 201 = us
  refine Steady.foldl (fun s u => ?_) _ s
  exact .ite ((s.setUcb_steady _ _).trans ((State.setObj_steady _ _ _).trans (State.bump_steady _ _ _))) (.refl s)

/-- Entering the safe state keeps what every command keeps, and sets the latch. -/
theorem State.enterSafe_steady (s : State) : Steady s s.enterSafe := by
  have h := s.abortTests_steady
  simp only [State.enterSafe]
  revert h
  generalize s.abortTests = t
  intro h
  refine .ite (.refl s) (h.trans ?_)
  exact ⟨⟨rfl, rfl, rfl, Nat.le_refl _, id⟩, fun _ => rfl⟩

theorem State.enterSafe_safe (s : State) : s.enterSafe.safety.safe = true := by
  simp only [State.enterSafe]; split
  · assumption
  · rfl

theorem State.raise_steady (s : State) (src : Nat) (e : ErrInfo) : Steady s (s.raise src e) := by
  simp only [State.raise]
  have h1 : Steady s (((s.recordError src e).bump (classCounter (sourceClass src))).reportError src e) :=
    (s.recordError_steady src e).trans ((State.bump_steady _ _ _).trans (State.reportError_steady _ _ _))
  have h2 (s : State) : Steady s { s with safety := { s.safety with errN := true } } :=
    ⟨⟨rfl, rfl, rfl, Nat.le_refl _, id⟩, id⟩
  have h3 := Steady.trans h1 (.ite (c := (((s.recordError src e).bump (classCounter (sourceClass src))).reportError src e).errNEnabled
    (sourceClass src) = true) (h2 _) (.refl _))
  exact .ite (h3.trans (State.enterSafe_steady _)) h3

theorem State.unitFault_steady (s : State) (u cause : Nat) : Steady s (s.unitFault u cause) := by
  simp only [State.unitFault]
  exact .ite (State.raise_steady _ _ _) ((State.raise_steady _ _ _).trans (State.setUcb_steady _ _ _))

/-- What follows a raised source: the note that the log was lost. -/
theorem State.logLost_steady (s : State) : Steady s { s with mem := { s.mem with logLostRaised := true } } := .of_same rfl rfl rfl rfl rfl rfl

theorem State.pelletNext_steady (s : State) (q : Nat) : Steady s { s with str := { s.str with pelletNext := q } } :=
  .of_same rfl rfl rfl rfl rfl rfl

/-- One pellet: its event, its bytes in the log where it can be written. -/
theorem State.pellet_steady (s : State) (p : PelletInfo) : Steady s (s.pellet p).2 := by
  simp only [State.pellet]
  split
  · split
    · exact (s.bump_steady _ _).trans (State.raise_steady _ _ _)
    · dsimp only
      refine Steady.trans ?_ (State.logLost_steady _)
      exact ((s.bump_steady _ _).trans (State.raise_steady _ _ _)).trans (State.raise_steady _ _ _)
  · split
    · dsimp only
      exact ((s.bump_steady _ _).trans (State.raise_steady _ _ _)).trans (State.raise_steady _ _ _)
    · dsimp only
      refine Steady.trans ?_ ((State.bump_steady _ _ _).trans (State.raise_steady _ _ _))
      refine Steady.trans ?_ (State.pelletNext_steady _ _)
      exact Steady.trans (.ite (s.setObj_steady _ _) (.refl s)) (State.rawWrite_steady _ _ _)

/-! Lines of memory. -/

theorem State.scramble_steady (s : State) (a : Nat) : Steady s (s.scramble a) :=
  (s.drawBytes_steady 128).trans (State.rawWrite_steady _ _ _)

theorem State.errsStand_steady (s : State) (a : Nat) (es : List (Nat × Nat)) : Steady s (s.errsStand a es) := by
  simp only [State.errsStand]
  exact .ite (.refl s) (State.rawWrite_steady _ _ _)

theorem State.checkLine_steady (s : State) (u a : Nat) : Steady s (s.checkLine u a) := by
  unfold State.checkLine
  extract_lets r f d s1 s2 s3 p
  have h1 : Steady s s1 := (s.drawN_steady 1).trans ((State.errsStand_steady _ _ _).trans (State.setEcc_steady _ _ _))
  have h2 : Steady s1 s2 := .ite (.refl _) ((State.bump_steady _ _ _).trans (State.raise_steady _ _ _))
  refine .ite (.refl s) (.ite (.refl s) ((h1.trans h2).trans (.ite (.refl _) ?_)))
  exact ((State.bump_steady _ _ _).trans (State.setObj_steady _ _ _)).trans
    ((State.pellet_steady _ _).trans ((State.scramble_steady _ _).trans (State.setMark_steady _ _ _)))

theorem State.loseReservations_steady (s : State) (ag : Agent) (a : Nat) : Steady s (s.loseReservations ag a) := by
  simp only [State.loseReservations]
  refine Steady.trans (Steady.trans (.ite (.refl s) ?_) (.ite (.refl _) ?_)) (.ite (.refl _) (State.bump_steady _ _ _))
  · exact .of_same rfl rfl rfl rfl rfl rfl
  · exact .of_same rfl rfl rfl rfl rfl rfl

theorem State.dropHeld_steady (s : State) (a n : Nat) : Steady s (s.dropHeld a n) := by
  simp only [State.dropHeld]
  refine .ite ?_ (.refl s)
  exact .of_same rfl rfl rfl rfl rfl rfl

theorem State.poisonLine_steady (s : State) (u a m : Nat) : Steady s (s.poisonLine u a m) := by
  simp only [State.poisonLine]
  exact .ite ((s.raise_steady _ _).trans (State.setUnitSt_steady _ _ _))
    ((s.setEcc_steady _ _).trans ((State.scramble_steady _ _).trans (State.setMark_steady _ _ _)))

/-- A store within a line. -/
theorem State.storeLine_steady (s : State) (u a : Nat) (bs : List Byte) (m : Nat) : Steady s (s.storeLine u a bs m) := by
  simp only [State.storeLine]
  refine (s.dropHeld_steady a bs.length).trans (.ite (State.poisonLine_steady _ _ _ _) (.ite ?_ ?_))
  · exact Steady.trans (.ite ((State.setMark_steady _ _ _).trans (State.bump_steady _ _ _)) (.refl _))
      ((State.setEcc_steady _ _ _).trans (State.rawWrite_steady _ _ _))
  · exact (State.checkLine_steady _ _ _).trans (State.rawWrite_steady _ _ _)

/-- A unit writes its own store. -/
theorem State.ownWrite_steady (s : State) (u off : Nat) (bs : List Byte) (m : Nat) : Steady s (s.ownWrite u off bs m) := by
  refine Steady.foldl (fun s p => ?_) _ s
  refine (s.loseReservations_steady _ _).trans (.ite (State.storeLine_steady _ _ _ _ _) ?_)
  exact (State.dropHeld_steady _ _ _).trans ((State.setEcc_steady _ _ _).trans
    ((State.rawWrite_steady _ _ _).trans (State.setMark_steady _ _ _)))

/-- A unit reads its own store. -/
theorem State.ownRead_steady (s : State) (u off n : Nat) : Steady s (s.ownRead u off n).2.2 := by
  unfold State.ownRead
  exact Steady.foldl (fun s (p : Nat × Nat) => s.checkLine_steady u p.1) _ s

/-! Epochs. -/

theorem State.trigger_steady (s : State) (d : Nat) : Steady s (s.trigger d) := by
  simp only [State.trigger]
  exact .ite (s.setEpoch_steady _ _) (.ite (s.setEpoch_steady _ _) (s.bump_steady _ _))

theorem State.triggerSource_steady (s : State) (src arg : Nat) : Steady s (s.triggerSource src arg) :=
  Steady.foldl (fun s d => .ite (s.trigger_steady d) (.refl s)) _ s

end Sys2Proof.Machine
end

