-- ==== Sys2Proof/Tests/Slice0.lean ====
section
/-!
SUPPORT. Tests: ill-formed terms that WellFormed refuses, single steps on small states, worked values of the spec, and for
every statement with hypotheses a state and operands that meet them.
-/
open Sys2Proof Sys2Proof.Machine
namespace Sys2Proof.Tests

set_option Elab.async false

/-! Small states. -/

/-- Bring-up is over: S5, no reset held, every unit READY, and CTX0 maps 4 GiB on to HBM. -/
def up : State :=
  { ucbs := (List.range 201).map fun u => (u, { st := .ready })
    dict := [(Obj.BRINGUP_STAGE, 5)]
    sup := { coldReset := false, band := .full }
    host := { linkUp := true }
    mem := { apt := bootEntries ++ [(4, ⟨0x100000009, 0xB⟩)] } }

/-- A word of opcode `op` with fields (position, value). -/
def enc (op : Nat) (fs : List (Nat × Nat)) : Nat := fs.foldl (fun w f => w + f.2 * 2 ^ f.1) (op * 2 ^ 56)

/-- A slot that leads a program of these words, its first line fetched, with these registers. -/
def lead (ws x : List Nat) (target : Nat := 0x1000) : Slot :=
  { role := .leader
    target := target
    words := ws.length
    lines := [{ line := 0, bytes := padTo 128 (ws.flatMap (leBytes 8)), poison := 0 }]
    x := (List.range 16).map fun i => BitVec.ofNat 64 (x.getD i 0) }

/-- Slot 0 of sequencer q leads a program of these words. -/
def prog (q : Nat) (ws : List Nat) (x : List Nat := []) : State := up.setSlot q 0 (lead ws x)

/-- Whether `P` holds of the command that slot 0 stands at, and of the state after its fetch. -/
def meets (s : State) (q : Nat) (P : Cmd → State → Bool) : Bool :=
  match s.wordAt q 0 with
  | some (c, s') => P c s'
  | none => false

/-! Witnesses: the hypotheses of each statement are met. -/

theorem witness_FrontCommandRuns : State.reset.pending = [] := rfl

theorem witness_StepKeepsCanonicalForm : State.reset.canonical ∧ ∃ t, step State.reset = .next t := ⟨⟨rfl, rfl⟩, _, rfl⟩

theorem witness_StepKeepsFusesAndQueue : ∃ t, step { up with pending := [.ageHourBurn] } = .next t := ⟨_, rfl⟩

theorem witness_SafeStateIsLatched : endsSafe .safeInNRelease = false ∧
    ∃ t, step { up with safety := { safe := true }, pending := [.safeInNRelease] } = .next t := ⟨rfl, _, rfl⟩

theorem witness_ColdResetsBeginAtS0 :
    keysRise ([(0, {}), (63, {})] : SMap Tile) = true ∧
    ({ up with sup := { up.sup with vinMv := 4499 } } : State).sup.vinMv < 4500 ∧ 6500 ≤ 6500 ∧
    up.sup.coldReset = false ∧ 4499 < (if true then 4500 else 6000) ∧ 5999 < (if false then 4500 else 6000) ∧
    ({ up with sup := { up.sup with band := .full } } : State).bandSettled = false ∧
    State.reset.sup.coldReset = true ∧ 4500 ≤ ({ State.reset with sup := { vinMv := 4500 } } : State).sup.vinMv := by
  and_intros <;> decide +kernel

theorem witness_WarmAndKeeperResets :
    let s := up
    s.sup.coldReset = false ∧ s.safety.safe = false ∧ (s.obj Obj.HBM_MAP == 1) = s.mem.hbmLinear ∧ regionOf 0x17FFFFFFFF = .hbm ∧
    ({ s with safety := { safe := true } } : State).safety.safe = true ∧ s.sup.keeperHeld = false ∧
    ({ s with sup := { s.sup with keeperHeld := true } } : State).sup.keeperHeld = true ∧
    (State.reset.sup.coldReset = true ∧ State.reset.sup.keeperHeld = false) ∧
    ({ s with sup := { s.sup with resetWaits := some 1 } } : State).sup.resetWaits = some 1 ∧ 2 ≠ 1 := by
  and_intros <;> decide +kernel

theorem witness_FundamentalResetOfTheLink :
    let s : State := { up with host := { rings := [(0, { st := .running })] } }
    s.sup.coldReset = false ∧ s.sup.pciePerst = false ∧ s.host.rings ≠ [] ∧
    ({ s with sup := { s.sup with pciePerst := true } } : State).sup.pciePerst = true := by and_intros <;> decide +kernel

theorem witness_SupplyBandsTakeEffect :
    up.sup.coldReset = false ∧ bandCrossed .hold .reduced 8000 = true ∧ bandCrossed .reduced .hold 7800 = true ∧
    bandCrossed .reduced .full 10500 = true ∧ bandCrossed .full .reduced 10300 = true ∧ bandCrossed .full .over 16500 = true ∧
    bandCrossed .over .full 16200 = true ∧
    ({ up with sup := { entryRunning := true } } : State).sup.entryRunning = true ∧
    ({ up with sup := { exitRunning := true } } : State).sup.exitRunning = true := by and_intros <;> decide +kernel

theorem witness_BringupAndClocks :
    let at4 : State := { up with dict := [(Obj.BRINGUP_STAGE, 4)], sup := { up.sup with band := .full } }
    let at1 : State := { up with dict := [(Obj.BRINGUP_STAGE, 1)] }
    let dark : State := { up with sup := { up.sup with refLane := 0 } }
    ({ up with dict := [], sup := { up.sup with band := .full } } : State).stageOpen = true ∧
    (at4.stage < 5 ∧ at4.sup.coldReset = false ∧ at4.stageHeld (at4.stage + 1) = false) ∧
    (up.sup.safeIn = false ∧ 2 ≤ up.stage) ∧ (at1.sup.safeIn = false ∧ at1.stage < 2) ∧
    (up.sup.coldReset = false ∧ up.sup.refSys = true ∧ up.sup.refPcie = true ∧ up.sup.kclkOk = true) ∧
    (bit up.sup.refLane 4 = true ∧ bit dark.sup.refLane 4 = false) := by and_intros <;> decide +kernel

theorem witness_PowerAndHeatControl :
    let s1 := up.setObj Obj.INPUT_POWER_W 65535
    let s2 := up.setObj Obj.INPUT_POWER_W 1
    up.sup.coldReset = false ∧ (s1.capEffective < 65535 ∧ 25 < s1.tclk) ∧ 1 < s2.capEffective ∧
    (List.replicate 64 (1500 : Int)).length = 64 ∧ hottest (List.replicate 64 1500) = some (1500, 0) ∧
    hottest (List.replicate 64 1501) = none := by and_intros <;> decide +kernel

theorem witness_ScalarWordsCompute :
    meets (prog 0 [enc 1 []]) 0 (fun c _ => decide (c.op = 1 ∧ bits c.w0 0 56 = 0)) = true ∧
    meets (prog 152 [enc 7 []]) 152 (fun c _ => decide (c.op = 7 ∧ bits c.w0 0 56 = 0)) = true ∧
    meets (prog 0 [enc 3 [(48, 15), (0, 2 ^ 48 - 1)]]) 0 (fun c s' => decide (c.op = 3 ∧ bits c.w0 52 4 = 0 ∧
      (s'.slot 0 0).pendReg (bits c.w0 48 4) = false)) = true ∧
    meets (prog 0 [enc 4 [(48, 15), (0, 65535)]]) 0 (fun c s' => decide (c.op = 4 ∧ bits c.w0 52 4 = 0 ∧ bits c.w0 16 32 = 0 ∧
      (s'.slot 0 0).pendReg (bits c.w0 48 4) = false)) = true ∧
    meets (prog 0 [enc 5 [(48, 15), (44, 15), (0, 2 ^ 31)]]) 0 (fun c s' => decide (c.op = 5 ∧ bits c.w0 52 4 = 0 ∧
      bits c.w0 32 12 = 0 ∧ (s'.slot 0 0).pendReg (bits c.w0 48 4) = false ∧ (s'.slot 0 0).pendReg (bits c.w0 44 4) = false)) = true ∧
    meets (prog 0 [enc 6 [(48, 1), (44, 2), (40, 3), (0, 12)]]) 0 (fun c s' => decide (c.op = 6 ∧ bits c.w0 52 4 = 0 ∧
      bits c.w0 4 36 = 0 ∧ bits c.w0 0 4 ≤ 0xC ∧ (s'.slot 0 0).pendReg 1 = false ∧ (s'.slot 0 0).pendReg 2 = false ∧
      (s'.slot 0 0).pendReg 3 = false)) = true := by and_intros <;> decide +kernel

theorem witness_AluIsSixtyFourBitArithmetic : (0xC : Nat) ≤ 0xC := by decide

theorem witness_WordsChangeOnlyTheirSlot : meets (prog 0 [enc 1 []]) 0 (fun _ _ => true) = true ∧ (1 < 2 ∧ 14 ≠ 15) := by
  and_intros <;> decide +kernel

theorem witness_BranchesLoopsAndEnd :
    let body := [enc 9 [(24, 1), (0, 1)], enc 1 []]
    let loop (c : Cmd) (s' : State) (n : Nat) : Prop :=
      let t := s'.slot 0 0
      c.op = 9 ∧ bits c.w0 52 4 = 0 ∧ bits c.w0 48 3 = 0 ∧ bits c.w0 40 4 = 0 ∧ (bit c.w0 51 = false → bits c.w0 44 4 = 0) ∧
      (bit c.w0 51 = true → bits c.w0 0 24 = 0 ∧ t.pendReg (bits c.w0 44 4) = false ∧ t.regMark (bits c.w0 44 4) = 0) ∧
      bits c.w0 24 16 ≠ 0 ∧ t.wi + 1 + bits c.w0 24 16 ≤ t.words ∧ t.loops.length < 4 ∧
      (let z := State.scanBody 0 0 (t.wi + 1 + bits c.w0 24 16) (bits c.w0 24 16) (t.scan.getD (t.wi + 1)) s'
       z.1 = t.wi + 1 + bits c.w0 24 16 ∧ z.2.1 = true) ∧
      (∀ l ∈ t.loops.head?, t.wi + 1 + bits c.w0 24 16 ≤ l.stop) ∧
      (if bit c.w0 51 then t.reg (bits c.w0 44 4) else bits c.w0 0 24) = n
    meets (prog 0 [enc 8 [(48, 1), (44, 1), (40, 2), (0, 1)], enc 1 []] [0, 1]) 0 (fun c s' => let t := s'.slot 0 0
      decide (c.op = 8 ∧ bits c.w0 52 4 = 0 ∧ bits c.w0 24 16 = 0 ∧ bits c.w0 48 4 ≤ 6 ∧ [1, 2].any t.pendReg = false ∧
        t.marks [1, 2] = 0 ∧ brCond (bits c.w0 48 4) (t.reg 1) (t.reg 2) = false)) = true ∧
    meets (prog 0 [enc 8 [(0, 1)], enc 1 []]) 0 (fun c s' => let t := s'.slot 0 0
      decide (c.op = 8 ∧ bits c.w0 40 16 = 0 ∧ bits c.w0 24 16 = 0 ∧ brCond 0 (t.reg 0) (t.reg 0) = true ∧
        (0 : Int) ≤ (t.wi : Int) + sgn 24 c.w0 ∧ (t.wi : Int) + sgn 24 c.w0 < (t.words : Int))) = true ∧
    meets (prog 0 [enc 9 []]) 0 (fun c _ => decide (c.op = 9 ∧ bits c.w0 0 56 = 0)) = true ∧
    meets (prog 0 body) 0 (fun c s' => decide (loop c s' 1)) = true ∧
    meets (prog 0 [enc 9 [(24, 1)], enc 1 []]) 0 (fun c s' => decide (loop c s' 0)) = true ∧
    meets (prog 0 [enc 9 [(51, 1), (44, 15), (24, 1)], enc 1 []] (List.replicate 16 7)) 0 (fun c s' => decide (loop c s' 7)) = true ∧
    ((prog 0 []).canRun 0 0 = true ∧ ((prog 0 []).slot 0 0).words ≤ ((prog 0 []).slot 0 0).wi) ∧
    meets (prog 0 [enc 2 []]) 0 (fun c _ => decide (c.op = 2 ∧ bits c.w0 0 56 = 0)) = true := by and_intros <;> decide +kernel

theorem witness_MemoryWordsIssue :
    meets (prog 0 [enc 0x10 [(42, 3)]]) 0 (fun c _ => decide (c.op = 0x10 ∧ bits c.w0 32 9 = 0 ∧
      ¬(bits c.w0 42 2 = 3 ∧ bit c.w0 41 = true) ∧ bits c.w0 52 4 = 0)) = true ∧
    meets (prog 0 [enc 0x12 [(48, 14)]]) 0 (fun c _ => decide (c.op = 0x12 ∧ bits c.w0 32 12 = 0 ∧ bit c.w0 48 = false)) = true ∧
    meets (prog 0 [enc 0x11 [(42, 2)]]) 0 (fun c _ => decide (c.op = 0x11 ∧ bits c.w0 32 10 = 0)) = true ∧
    meets (prog 0 [enc 0x13 []]) 0 (fun c _ => decide (c.op = 0x13 ∧ bits c.w0 32 12 = 0 ∧ bit c.w0 48 = false)) = true ∧
    meets (prog 0 [enc 0x14 []]) 0 (fun c _ => decide (c.op = 0x14 ∧ bits c.w0 32 12 = 0)) = true ∧
    meets (prog 0 [enc 0x15 [(40, 3)]]) 0 (fun c _ => decide (c.op = 0x15 ∧ bits c.w0 32 8 = 0)) = true ∧
    meets (prog 0 [enc 0x16 [(35, 9), (39, 1)]]) 0 (fun c _ => decide (c.op = 0x16 ∧ bits c.w0 32 3 = 0 ∧ bits c.w0 35 4 ≤ 9)) = true := by
  and_intros <;> decide +kernel

theorem witness_StoresEnterTheStoreBuffer :
    let s := prog 0 [enc 0x11 []] [0x100000078]
    let c : Cmd := { w0 := enc 0x11 [(42, 3), (40, 1)] }
    let t := s.slot 0 0
    let x := s.xlateRange t.ctx (memAddr t c) 8 false true
    c.op = 0x11 ∧ t.pendReg (bits c.w0 44 4) = false ∧ t.pendReg 1 = false ∧ t.regMark (bits c.w0 44 4) = 0 ∧ x.1 = 0 ∧
    x.2.2.2.isMmio ((cutLines x.2.1).headD (0, 0, 0)).1 = false ∧
    (x.2.2.2.seq 0).sb.length + (cutLines x.2.1).length ≤ t.sbDepth ∧ 0 < 2 := by and_intros <;> decide +kernel

theorem witness_FencesAndRandom :
    let fence (k : Nat) := prog 0 [enc 0x17 [(48, k)]]
    let loading (s : State) : State := s.setSlot 0 0 { s.slot 0 0 with loads := [{ tag := 0, rd := 1, n := 8, sx := false, kind := 0x10, word := 0 }] }
    let storing (s : State) : State := s.setSeq 0 { s.seq 0 with sb := [{ slot := 0, addr := 0, bytes := [0], replay := false, poison := 0, sent := false, tag := 0 }] }
    let busy (s : State) : State := s.setSlot 0 0 { s.slot 0 0 with ops := [0] }
    -- a request of the slot to the second line, sent by another route
    let other : Outst := { node := 0, tc := 1, tag := 9, agent := .slot 0 0, kind := .rdReq, line := 2, route := some 5 }
    let rand (os : List Outst) : State :=
      { prog 0 [enc 0x18 [(44, 1), (0, 256)]] [0, 0x100000000] with drbg := { seeded := true }, net := { outst := os } }
    let ok (c : Cmd) (k : Nat) : Prop := c.op = 0x17 ∧ bits c.w0 52 4 = 0 ∧ bits c.w0 0 48 = 0 ∧ bits c.w0 48 4 = k
    meets (fence 0) 0 (fun c s' => decide (ok c 0 ∧ s'.drained 0 0 = true)) = true ∧
    meets (fence 1) 0 (fun c s' => decide (ok c 1 ∧ (s'.slot 0 0).loads = [])) = true ∧
    meets (fence 2) 0 (fun c s' => decide (ok c 2 ∧ (s'.slot 0 0).loads = [] ∧ s'.drained 0 0 = true)) = true ∧
    meets (fence 3) 0 (fun c s' => decide (ok c 3 ∧ (s'.slot 0 0).loads = [] ∧ s'.drained 0 0 = true)) = true ∧
    meets (fence 4) 0 (fun c s' => decide (ok c 4 ∧ s'.opsDone 0 0 = true ∧ (s'.settle 0 0).1 = 0)) = true ∧
    meets (storing (fence 0)) 0 (fun c s' => decide (ok c 0 ∧ s'.drained 0 0 = false)) = true ∧
    meets (loading (fence 1)) 0 (fun c s' => decide (ok c 1 ∧ (s'.slot 0 0).loads ≠ [])) = true ∧
    meets (loading (fence 2)) 0 (fun c s' => decide (ok c 2 ∧ s'.released 0 0 = false)) = true ∧
    meets (storing (fence 3)) 0 (fun c s' => decide (ok c 3 ∧ s'.released 0 0 = false)) = true ∧
    meets (busy (fence 4)) 0 (fun c s' => decide (ok c 4 ∧ s'.opsDone 0 0 = false)) = true ∧
    meets (prog 0 [enc 0x18 []]) 0 (fun c _ => decide (c.op = 0x18 ∧ bits c.w0 48 8 = 0 ∧ bits c.w0 32 12 = 0 ∧
      bits c.w0 0 32 = 0)) = true ∧
    (∀ m ∈ [256, 128], meets (rand (if m = 128 then [other] else [])) 0 (fun c s' =>
      let t := s'.slot 0 0
      let n := bits c.w0 0 32
      let x := s'.xlateRange t.ctx (t.reg (bits c.w0 44 4)) n false true
      let v : State := { x.2.2.2 with drbg := { x.2.2.2.drbg with requests := x.2.2.2.drbg.requests + cdiv n 65536 } }
      let w := State.randLines 0 0 x.2.2.1 (cutLines x.2.1) v
      decide (c.op = 0x18 ∧ bits c.w0 48 8 = 0 ∧ bits c.w0 32 12 = 0 ∧ n = 256 ∧ n % 8 = 0 ∧ s'.drbgUp = true ∧
        t.pendReg (bits c.w0 44 4) = false ∧ t.regMark (bits c.w0 44 4) = 0 ∧ x.1 = 0 ∧ t.randPos = 0 ∧ w.1 = 0 ∧ w.2.1 = m)) = true) := by
  and_intros <;> decide +kernel

theorem witness_SemaphoreWordsAct :
    let s := { prog 0 [enc 0x20 [(51, 1), (40, 2047), (0, 1)]] with str := { jess := [(2047, { fill := 0, free := 1 })] } }
    let w : SemWaiting := { sem := semOf 2047 1, count := 1, who := .slot 0 0, sinceNs := 0, tmo := 1 }
    let held (s : State) : State := { s.setSlot 0 0 { s.slot 0 0 with semWait := some (semOf 2047 1) } with
      str := { s.str with waiters := [w] } }
    meets s 0 (fun c s' => decide (c.op = 0x20 ∧ bits c.w0 52 4 = 0 ∧ bits c.w0 24 16 = 0 ∧ bits c.w0 16 4 = 0 ∧
      (s'.slot 0 0).semWait = none ∧ s'.canTake (semOf (bits c.w0 40 11) (bits c.w0 51 1)) (bits c.w0 0 16) (.slot 0 0) = true)) = true ∧
    meets (prog 0 [enc 0x20 [(40, 2047), (0, 1)]]) 0 (fun c s' => let m := semOf (bits c.w0 40 11) (bits c.w0 51 1)
      decide (c.op = 0x20 ∧ (s'.slot 0 0).semWait = none ∧ s'.canTake m (bits c.w0 0 16) (.slot 0 0) = false ∧
        (s'.send (waitPacket (.slot 0 0) m (bits c.w0 0 16) (bits c.w0 20 4) false) (.post 0 0)).isSome = true)) = true ∧
    meets (prog 0 [enc 0x21 [(31, 1), (0, 65535)]]) 0 (fun c s' => decide (c.op = 0x21 ∧ bits c.w0 52 4 = 0 ∧ bits c.w0 16 15 = 0 ∧
      s'.released 0 0 = true ∧ (s'.opsDone 0 0 = true ∧ (s'.settle 0 0).1 = 0) ∧ bits c.w0 32 8 = (s'.settle 0 0).2.devId ∧
      (s'.settle 0 0).2.sem (semOf (bits c.w0 40 11) (bits c.w0 51 1)) + bits c.w0 0 16 ≤ 65535)) = true ∧
    meets (prog 0 [enc 0x22 [(40, 2047)]]) 0 (fun c s' => decide (c.op = 0x22 ∧ bits c.w0 51 5 = 0 ∧ bits c.w0 32 8 = 0 ∧
      s'.released 0 0 = true)) = true ∧
    ((held s).waitOf (.slot 0 0) = some w ∧ (held s).safety.safe = false ∧ (held s).canTake w.sem w.count (.slot 0 0) = true) ∧
    (∃ lim, tmoNs w.tmo = some lim ∧ w.sinceNs + lim ≤ ({ held s with timeNs := lim } : State).timeNs) := by
  refine ⟨by decide +kernel, by decide +kernel, by decide +kernel, by decide +kernel, by decide +kernel, ⟨_, rfl, by decide +kernel⟩⟩

theorem witness_EpochAndConfigWordsAct :
    let ed (s : State) : State := s.setObj (Obj.ED_SOURCE 31) 1
    let ep (k : Nat) := ed (prog 0 [enc 0x38 [(54, k), (48, 31)]])
    let epOk (c : Cmd) (s' : State) (k : Nat) : Prop := c.op = 0x38 ∧ bit c.w0 53 = false ∧ bits c.w0 0 40 = 0 ∧
      bits c.w0 40 8 = s'.devId ∧ bits c.w0 54 2 = k ∧ bits c.w0 48 5 = 31
    let cf (q reg stage : Nat) := prog q [enc 0x39 [(55, stage), (40, reg), (36, 1)]] [0, 1]
    let cfOk (q : Nat) (c : Cmd) (s' : State) (reg : Nat) (stage : Bool) : Prop :=
      let t := s'.slot q 0
      c.op = 0x39 ∧ bits c.w0 52 3 = 0 ∧ bits c.w0 0 36 = 0 ∧ (s'.cfgUnits q 0).all (fun u => decide (u < 64)) = true ∧
      t.pendReg (bits c.w0 36 4) = false ∧ t.regMark (bits c.w0 36 4) = 0 ∧ t.reg (bits c.w0 36 4) ≤ 1 ∧ opLegal q 0x39 = true ∧
      bits c.w0 40 12 = reg ∧ bit c.w0 55 = stage
    let uc (st : Nat) := prog 0 [enc 0x3A [(48, st), (32, 0x1000)]]
    let ucOk (c : Cmd) (s' : State) : Prop := c.op = 0x3A ∧ bits c.w0 52 4 = 0 ∧ bits c.w0 0 32 = 0 ∧
      targetLegal (bits c.w0 32 16) = true ∧ (targetUnits (bits c.w0 32 16)).all (fun u =>
        s'.present u && s'.unitSt u != .faulted && !(s'.ucb u).mgmtStop) = true
    meets (ep 0) 0 (fun c s' => decide (epOk c s' 0 ∧ s'.released 0 0 = true ∧ s'.edSource 31 = 1)) = true ∧
    meets (ep 1) 0 (fun c s' => decide (epOk c s' 1 ∧ (s'.slot 0 0).epochWait = none)) = true ∧
    meets ((ep 1).setSlot 0 0 { (ep 1).slot 0 0 with epochWait := some (31, 0) }) 0 (fun c s' =>
      let u := s'.setEpoch 31 { commits := 1 }
      decide (epOk c s' 1 ∧ (s'.slot 0 0).epochWait = some (31, 0) ∧ 0 < (u.epoch 31).commits)) = true ∧
    meets (ep 2) 0 (fun c s' => decide (epOk c s' 2 ∧ (s'.slot 0 0).epochWait = none ∧ s'.released 0 0 = true ∧ s'.edSource 31 = 1)) = true ∧
    meets (cf 63 1 1) 63 (fun c s' => decide (cfOk 63 c s' 1 true)) = true ∧
    meets (cf 63 1 0) 63 (fun c s' => decide (cfOk 63 c s' 1 false ∧ (s'.cfgUnits 63 0).all (fun u => !(s'.draining u)) = true)) = true ∧
    meets (cf 63 2 0) 63 (fun c s' => decide (cfOk 63 c s' 2 false ∧ seqClass 63 = 1)) = true ∧
    meets (cf 63 2 1) 63 (fun c s' => decide (cfOk 63 c s' 2 true ∧ seqClass 63 = 1)) = true ∧
    meets (uc 3) 0 (fun c s' => decide (ucOk c s' ∧ UState.ready.code = bits c.w0 48 4 ∧ UState.ready.code < 4)) = true ∧
    meets (uc 4) 0 (fun c s' => decide (ucOk c s' ∧ bits c.w0 48 4 = 4 ∧ targetUnits (bits c.w0 32 16) = [0] ∧ hasTest (unitClass 0) = true ∧
      (s'.requestTest 0 false).1 ≠ Sc.testDeferred)) = true := by and_intros <;> decide +kernel

theorem witness_UndefinedWordsEndTheProgram :
    let at_ (s : State) (q : Nat) (P : Nat → State → Bool) : Bool := match s.headAt q 0 with | some (w, s') => P w s' | none => false
    at_ (prog 0 [enc 0x31 []]) 0 (fun w s' => decide (opLegal 0 (bits w 56 8) = false ∧ (s'.slot 0 0).ending = 0 ∧ 0 < 2)) = true ∧
    at_ (prog 63 [enc 0x30 [(12, 1)], 0]) 63 (fun w s' => decide (isOp 63 0x30 w = true ∧
      (s'.slot 63 0).words < (s'.slot 63 0).wi + cmdWords 0x30 ∧ (s'.slot 63 0).headReserved w = true)) = true ∧
    at_ (prog 136 [enc 0x37 []]) 136 (fun w s' => decide (isOp 136 0x37 w = true ∧
      (s'.slot 136 0).words < (s'.slot 136 0).wi + cmdWords 0x37 ∧ (s'.slot 136 0).headReserved w = false)) = true ∧
    meets (prog 64 [enc 0x31 [(48, 6), (44, 1)], 0]) 64 (fun c _ => decide (isOp 64 0x31 c.w0 = true ∧ vxTypeOk c.func (bits c.w0 44 4) = false)) = true ∧
    meets (prog 96 [enc 0x32 [(48, 7)], 0]) 96 (fun c _ => decide (isOp 96 0x32 c.w0 = true ∧ cxDefined c.func = false)) = true := by
  and_intros <;> decide +kernel

/-- Registers of the tile programs below: offsets in the tile store. -/
def offs : List Nat := [0, 0, 0x1000, 0x2000, 0x3000, 0x4000]

/-- A VXT program of one operation, with a block at 0x3000 whose first byte is 1. -/
def vec (f ty imm : Nat) : State :=
  { prog 64 [enc 0x31 [(48, f), (44, ty), (40, 3), (36, 1), (32, if vxUsesXs2 f then 2 else 0), (0, 4)],
      (if vxUsesXp f then (if f = 0x13 then 5 else 4) else 0) * 2 ^ 60 + imm] offs with
    mem := { cells := [(storeBase 64 + 0x3000, 1)] } }

/-- A CAT program of one operation; chain 0 is valid, and objects and share vectors stand in its store. -/
def cx (f d a b p imm : Nat) : State :=
  let poly (form first count : Nat) : List Byte :=
    PHdr.bytes { magic := 0xCA700001, nLog2 := 10, lvl := 1, scale := 0, chain := 0, polys := 1, form := form, first := first,
                 count := count, flags := 0, user := 0, rsv := 0 }
  let share (mask : Nat) : List Byte :=
    SHdr.bytes { magic := 0xCA700002, ring := 0, parties := 2, mask := mask, rsv1 := 0, modulus := 0, count := 1, rsv2 := 0, user := 0 }
  let s := prog 96 [enc 0x32 [(48, f), (40, d), (36, a), (32, b), (0, 1)], p * 2 ^ 60 + imm]
    [0, 0x10000, 0x20000, 0x30000, 0x40000, 0x50000, 0x60000, 0x68000]
  let s : State := { s with
    drbg := { seeded := true }
    cat := { chains := [(0, { ctrl := 2 ^ 63 + 2 * 2 ^ 8 + 10, loadedN := 10 })] } }
  ((((s.rawWrite (storeBase 96 + 0x10000) (poly 0 0 2)).rawWrite (storeBase 96 + 0x20000) (poly 1 0 2)).rawWrite
    (storeBase 96 + 0x30000) (poly 0 1 1)).rawWrite (storeBase 96 + 0x60000) (share 1)).rawWrite (storeBase 96 + 0x68000) (share 3)

/-- Every function of Tables 12.1 and 14.4 has a word that may issue. -/
theorem witness_UnitOperationsIssue :
    (∀ f ∈ [(0x01, 1, 0), (0x02, 2, 0), (0x03, 3, 0), (0x04, 4, 0), (0x05, 5, 0), (0x08, 6, 0), (0x09, 4, 0), (0x10, 1, 0),
        (0x11, 1, 0), (0x12, 1, 0), (0x13, 4, 0), (0x14, 1, 0), (0x20, 1, 0), (0x21, 1, 0), (0x22, 1, 0), (0x23, 1, 0),
        (0x28, 1, 0), (0x29, 1, 0), (0x2A, 1, 0), (0x30, 1, 0x14), (0x31, 4, 0x10002), (0x40, 1, 4), (0x41, 1, 2),
        (0x42, 1, 1), (0x50, 1, 4), (0x51, 1, 3), (0x60, 0, 4), (0x61, 0, 4096), (0x70, 7, 0)],
      meets (vec f.1 f.2.1 f.2.2) 64 (fun c s' =>
        let t := s'.slot 64 0
        isOp 64 0x31 c.w0 && c.func == f.1 && vxTypeOk f.1 (bits c.w0 44 4) &&
        s'.mayIssue 64 0 (vxRegs f.1 c) (s'.vxCheck (seqUnit 64) t.reg c) (s'.vxZero (seqUnit 64) t c)) = true) ∧
    (∀ f ∈ [(0x01, 5, 1, 1, 0, 0), (0x02, 5, 1, 1, 0, 0), (0x03, 5, 2, 2, 0, 0), (0x04, 5, 2, 0, 4, 0), (0x05, 5, 1, 0, 0, 0),
        (0x06, 5, 1, 0, 0, 0x100), (0x08, 5, 1, 0, 4, 0), (0x09, 5, 2, 0, 4, 0), (0x0A, 5, 1, 0, 0, 1), (0x10, 5, 1, 3, 0, 0),
        (0x11, 5, 1, 0, 0, 0), (0x18, 5, 0, 0, 0, 0), (0x20, 5, 1, 0, 4, 0), (0x30, 5, 6, 6, 0, 0), (0x31, 5, 6, 6, 0, 0),
        (0x32, 5, 6, 7, 0, 0), (0x33, 5, 6, 7, 0, 0), (0x34, 6, 0, 0, 0, 0)],
      meets (cx f.1 f.2.1 f.2.2.1 f.2.2.2.1 f.2.2.2.2.1 f.2.2.2.2.2) 96 (fun c s' =>
        isOp 96 0x32 c.w0 && c.func == f.1 && s'.cxMayIssue 96 0 c) = true) ∧
    meets (prog 0 [enc 0x30 [(52, 1), (24, 1), (8, 1), (4, 2)], 2 ^ 52 + 2 ^ 40 + 2 ^ 18 + 1, 0] offs) 0 (fun c s' =>
      isOp 0 0x30 c.w0 && decide (4 ≤ s'.stage) && s'.mayIssue 0 0 (mxRegs c) (passCheck 0 c s' (s'.slot 0 0)) (mxZero c)) = true ∧
    meets ({ prog 120 [enc 0x33 [(36, 1), (32, 3), (0, 1)], 1] offs with tab := { desc := [(0, 1)] } }) 120 (fun c s' =>
      let t := s'.slot 120 0
      isOp 120 0x33 c.w0 && s'.mayIssue 120 0 (gxRegs c) (s'.gxCheck t.ctx t.reg c) (gBags c == 0 || gLookups c == 0)) = true ∧
    meets (prog 136 [enc 0x36 [(48, 1), (36, 1), (0, 1)], 0] offs) 136 (fun c s' =>
      isOp 136 0x36 c.w0 && s'.mayIssue 136 0 [cXs1 c] (collCheck (s'.slot 136 0).reg c) (cCount c == 0)) = true ∧
    meets (prog 136 [enc 0x37 [(44, 1), (0, 1)], 0] offs) 136 (fun c s' =>
      let t := s'.slot 136 0
      isOp 136 0x37 c.w0 && bits c.w0 32 12 == 0 && bits c.w1 0 32 == 0 && s'.mayIssue 136 0 [bits c.w0 44 4]
        (if t.reg (bits c.w0 44 4) % 32 = 0 then 0 else Sc.alignment) (bits c.w0 0 32 == 0)) = true := by
  and_intros <;> decide +kernel

theorem witness_IssuedOperationCaptures : (1 : Nat) < 2 := by decide

/-- A layer block: one neuron, port 0, threshold 1, a bin mode. -/
def layerBytes (mode : Nat) : List Byte :=
  padTo 1152 (zeros 4 ++ leBytes 2 1 ++ leBytes 2 1 ++ [2, 1, 1, 1, 0, 1, 0] ++ leBytes 1 mode ++ zeros 8 ++
    leBytes 4 (if mode = 2 then 0 else 1000) ++ zeros 4 ++ [0xFF] ++ zeros 3 ++ leBytes 2 16 ++ [7, 0] ++ leBytes 8 0x100000000 ++
    zeros 80 ++ [1])

theorem witness_StreamAndCoreWordsAct :
    let st (mode x : Nat) := prog 0 [enc 0x34 [(50, 3), (48, mode), (44, x)]] [0, 0x100000000]
    let ready (c : Cmd) (s' : State) : Prop := engOf 0 (s'.slot 0 0).target (bits c.w0 50 6) = some 3 ∧ bits c.w0 0 43 = 0 ∧
      (bits c.w0 48 2 ≠ 0 → bits c.w0 44 4 = 0 ∧ bit c.w0 43 = false)
    let sec (f imm xp : Nat) := prog 119 [enc 0x35 [(48, f), (0, 1)], xp * 2 ^ 60 + imm] [0, 0x74800]
    let secOk (c : Cmd) (s' : State) (f : Nat) : Prop := secReserved c = false ∧ bits c.w0 0 32 = 1 ∧ s'.leaderHolds 119 0 false = false ∧
      isOp 119 0x35 c.w0 = true ∧ c.func = f
    meets (st 0 1) 0 (fun c s' => decide (ready c s' ∧ isStream 0 0 c.w0 = true ∧ (s'.slot 0 0).pendReg (bits c.w0 44 4) = false ∧
      (s'.slot 0 0).regMark (bits c.w0 44 4) = 0 ∧ s'.leaderHolds 0 0 true = false ∧ (s'.engine 3).st = .idle)) = true ∧
    meets (st 1 0) 0 (fun c s' => decide (ready c s' ∧ isStream 0 1 c.w0 = true ∧ s'.leaderHolds 0 0 false = false)) = true ∧
    meets ((st 2 0).setSlot 0 0 { (st 2 0).slot 0 0 with engines := [3] }) 0 (fun c s' => decide (ready c s' ∧ isStream 0 2 c.w0 = true ∧
      s'.leaderHolds 0 0 false = false ∧ (s'.engine 3).st = .idle ∧ (s'.slot 0 0).engines.contains 3 = true ∧ (s'.takeStreams 0 0 [3]).1 = 0)) = true ∧
    meets (sec 2 1 0) 119 (fun c s' => decide (secOk c s' 2)) = true ∧ meets (sec 3 0 0) 119 (fun c s' => decide (secOk c s' 3)) = true ∧
    meets (sec 4 0 0) 119 (fun c s' => decide (secOk c s' 4)) = true ∧
    meets ({ sec 1 0 1 with mem := (up.rawWrite (storeBase 119 + 0x74800) (layerBytes 0)).mem }) 119 (fun c s' =>
      let t := s'.slot 119 0
      let rd := s'.ownRead (secUnit 15) (t.reg (secXp c)) 1152
      let l : Layer := { which := 1, bytes := rd.1, ctx := t.ctx, ring := t.ring }
      decide (secOk c s' 1 ∧ t.pendReg (secXp c) = false ∧ t.regMark (secXp c) = 0 ∧ t.reg (secXp c) = 0x74800 ∧ rd.2.1 = 0 ∧
        (rd.2.2.layerCheck l).1 = 0)) = true := by and_intros <;> decide +kernel

theorem witness_ProgramEventsTakeEffect :
    let p := prog 152 []
    let t := p.slot 152 0
    let ended := p.setSlot 152 0 { t with ending := 1 + Sc.timeout }
    let atEnd := p.setSlot 152 0 { t with wait := .ended }
    let hung : State := { p.setSlot 152 0 { t with hangMs := 1 } with timeNs := 1000001 }
    let rsv := p.setSlot 152 0 { t with resv := some 1 }
    let room := (prog 136 [enc 0x37 [(0, 1)], 0])
    let room := room.setSlot 136 0 { room.slot 136 0 with wait := .issueQueue }
    let e : SbEntry := { slot := 0, addr := 128, bytes := [1], replay := false, poison := 0, sent := false, tag := 0 }
    let sb := p.setSeq 0 { sb := [e] }
    (ended.safety.safe = false ∧ (ended.slot 152 0).role = .leader ∧ (ended.slot 152 0).stopping = false ∧ ended.mayComplete 152 0 = true ∧
      (ended.slot 152 0).ending ≠ 0) ∧
    ((atEnd.slot 152 0).ending = 0 ∧ (atEnd.slot 152 0).wait = .ended ∧ (atEnd.settle 152 0).1 = 0 ∧ atEnd.mayComplete 152 0 = true) ∧
    ((hung.slot 152 0).role = .leader ∧ (hung.slot 152 0).castOrigin = none ∧ (hung.slot 152 0).hang = false ∧ (hung.slot 152 0).hangMs ≠ 0 ∧
      (hung.slot 152 0).waitNs + (hung.slot 152 0).hangMs * 1000000 < hung.timeNs) ∧
    (rsv.slot 152 0).resv.isSome = true ∧
    (meets room 136 (fun _ _ => true) = true ∧ (room.slot 136 0).wait = .issueQueue ∧ (room.seq 136).queue.length < (room.slot 136 0).depth) ∧
    ((sb.seq 0).sb[0]? = some e ∧ sb.safety.safe = false ∧ (sb.slot 0 e.slot).loads = [] ∧ 
      (match sb.destOf 128 with | .node n => (sb.sendStore 0 e n).isSome | _ => false) = true) := by and_intros <;> decide +kernel

/-- A request on the mailbox. -/
def reqBytes (svc key len total : Nat) (value : List Byte) : List Byte :=
  leBytes 2 svc ++ leBytes 2 (key / 256) ++ leBytes 1 (key % 256) ++ [0] ++ leBytes 2 0 ++ leBytes 2 len ++ leBytes 2 total ++ value

/-- One request waits on the mailbox. -/
def asked (bs : List Byte) : State := { up with oap := { mbx := { queue := [{ bytes := bs, src := 0 }] } } }

theorem witness_RequestRowsExecute :
    (∀ p ∈ [(Instr.oapRead .mbx, 1, Obj.POWER_CAP, []), (.oapWrite .mbx, 2, Obj.FABRIC_BOOT, [1]), (.oapReadPending .mbx, 3, Obj.FABRIC_BOOT, []),
        (.oapDiscardPending .mbx, 4, Obj.FABRIC_BOOT, []), (.oapDescribe .mbx, 5, Obj.FABRIC_BOOT, []),
        (.sessionOpen .mbx, 6, 0, zeros 16), (.sessionProve .mbx, 7, 0, zeros 32), (.sessionClose .mbx, 8, 0, []),
        (.oapUndefinedService .mbx, 9, 0, []), (.oapUndefinedService .mbx, 0, 0, []),
        (.resetRequest .mbx, 2, Obj.RESET_REQUEST, [1]), (.expertKey .mbx, 2, Obj.EXPERT_KEY, zeros 32),
        (.profileApply .mbx, 2, Obj.PROFILE_APPLY, [1]), (.unitReq .mbx, 2, Obj.UNIT_REQ 0 63, [3]),
        (.deviceIdWrite .mbx, 2, Obj.DEVICE_ID, [1]), (.deviceIdLock .mbx, 2, Obj.DEVICE_ID_LOCK, [1]),
        (.powerCapWrite .mbx, 2, Obj.POWER_CAP, [1, 0]), (.stallSelect .mbx, 2, Obj.STALL_SELECT, [1, 0]),
        (.poisonInject .mbx, 2, Obj.POISON_INJECT, [1, 0]), (.pelletLogEntriesWrite .mbx, 2, Obj.PELLET_LOG_ENTRIES, [1, 0, 0, 0]),
        (.pelletReadSeqWrite .mbx, 2, Obj.PELLET_READ_SEQ, [1, 0, 0, 0]), (.statsSnapshot .mbx, 2, Obj.STATS_SNAPSHOT, [1]),
        (.statsSnapshotClear .mbx, 2, Obj.STATS_SNAPSHOT, [2]), (.eccInject .mbx, 2, Obj.ECC_INJECT, zeros 8),
        (.mxtRole .mbx, 2, Obj.MXT_ROLE 63, [1]), (.understudy .mbx, 2, Obj.UNDERSTUDY 0, [1]),
        (.repairRequest .mbx, 2, Obj.REPAIR_REQUEST 0, [1, 0]), (.faultInject .mbx, 2, Obj.FAULT_INJECT, zeros 4),
        (.mxtClkLimit .mbx, 2, Obj.MXT_CLK_LIMIT, [1, 0]), (.vxtExcInject .mbx, 2, Obj.VXT_EXC_INJECT, [1, 0]),
        (.hotCacheKib .mbx, 2, Obj.HOT_CACHE_KIB, [1, 0]), (.epochMarkMgmt .mbx, 2, Obj.EPOCH_MARK_MGMT, [31]),
        (.edSourceWrite .mbx, 2, Obj.ED_SOURCE 31, [1]), (.unitDomainWrite .mbx, 2, Obj.UNIT_DOMAIN 11 0, [1]),
        (.catInject .mbx, 2, Obj.CAT_INJECT, [1, 0]), (.spRuleWrite .mbx, 2, Obj.SP_RULE 7 15, zeros 24),
        (.spInject .mbx, 2, Obj.SP_INJECT, [1, 0]), (.cfgInject .mbx, 2, Obj.CFG_INJECT, zeros 4),
        (.fpCtxWrite .mbx, 2, Obj.FP_CTX 15, [1]), (.phLinkEnable .mbx, 2, Obj.PH_LINK_ENABLE 19, [1]),
        (.patternCtrl .mbx, 2, Obj.PATTERN_CTRL 159, [1]), (.laneInject .mbx, 2, Obj.INJECT 159, [1]),
        (.devRouteWrite .mbx, 2, Obj.DEV_ROUTE 255, [1]), (.errNClear .mbx, 2, Obj.ERR_N_CLEAR, [1]),
        (.errInject .mbx, 2, Obj.ERR_INJECT, [1, 0]), (.testRequest .mbx, 2, Obj.TEST_REQUEST, [1, 0]),
        (.testForce .mbx, 2, Obj.TEST_FORCE, [1, 0]), (.faultClear .mbx, 2, Obj.FAULT_CLEAR, [1, 0]),
        (.coolantInletWrite .mbx, 2, Obj.COOLANT_INLET_DC, zeros 4)],
      let s := asked (reqBytes p.2.1 p.2.2.1 p.2.2.2.length (if p.2.1 = 2 then p.2.2.2.length else 0) p.2.2.2)
      (s.headReq .mbx).map (fun h => some (Transport.mbx, h.2.1.kind)) = some (oapRow p.1)) := by decide +kernel

/-- What a whole write asks of a request, as WholeWrite states it. -/
def whole (s : State) (t : Transport) (r : Req) : Bool :=
  match objAt r.key with
  | none => false
  | some o =>
    decide (firstOf (r.frameChecks t ++ [r.tagCheck (s.tagOk t r)]) = 0) && decide (r.off = 0) && decide (r.len = r.total) &&
    decide (r.total ≠ 0) && (if o.ty.varSize then decide (r.total ≤ o.maxBytes ∧ (o.isFixed = true → r.total = o.maxBytes))
      else decide (r.total = o.ty.size)) &&
    decide (firstOf ((s.dropSegment t true).writeChecks t (s.tagOk t r) r.key o r.value) = 0)

theorem witness_AcceptedWritesAreCarriedOut :
    (∀ p ∈ [(Obj.FABRIC_BOOT, [1]), (Obj.EXPERT_KEY, zeros 32), (Obj.PROFILE_APPLY, [1]), (Obj.UNIT_REQ 0 63, [3]), (Obj.DEVICE_ID, [1]),
        (Obj.POWER_CAP, [150, 0]), (Obj.STALL_SELECT, [1, 0]), (Obj.STATS_SNAPSHOT, [1]), (Obj.MXT_ROLE 63, [1]),
        (Obj.HOT_CACHE_KIB, [0, 1]), (Obj.ED_SOURCE 31, [1]), (Obj.UNIT_DOMAIN 11 0, [1]), (Obj.PH_LINK_ENABLE 19, [1]),
        (Obj.ERR_N_CLEAR, [1]), (Obj.TEST_REQUEST, [1, 0]), (Obj.COOLANT_INLET_DC, zeros 4)],
      let s := asked (reqBytes 2 p.1 p.2.length p.2.length p.2)
      (match s.headReq .mbx with
       | some (_, r, rest) => whole (s.taken .mbx rest) .mbx r
       | none => false) = true) ∧
    (let s0 : State := { up with oap := { mbx := { sess := { isOpen := true, ks := zeros 32, ctr := 1 } } } }
     let hdr := padTo 5 (reqBytes 2 Obj.RESET_REQUEST 1 1 []) ++ [1] ++ (reqBytes 2 Obj.RESET_REQUEST 1 1 []).drop 6
     let bs := hdr ++ [1] ++ (Hash.hmac (zeros 32) (leBytes 4 1 ++ hdr ++ [1])).take 8
     let s := s0.setPort .mbx { s0.port .mbx with queue := [{ bytes := bs, src := 0 }] }
     (match s.headReq .mbx with
      | some (_, r, rest) => r.auth && whole (s.taken .mbx rest) .mbx r
      | none => false) = true) := by and_intros <;> decide +kernel

theorem witness_WritesReachTheirHome :
    (∀ k ∈ [(Obj.DOMAIN_POLICY 0 63), Obj.POWER_CAP, Obj.MXT_ROLE 0, Obj.SEC_EVT_CQ 15, Obj.INJECT 159], k ≠ Obj.PROFILE_APPLY ∧ k / 256 ≠ 0x4410) ∧
    (objAt (Obj.DOMAIN_POLICY 0 63)).any (fun r => r.acc == .rws && (keyHome (Obj.DOMAIN_POLICY 0 63)).all fun u => !(up.sleeps u)) = true ∧
    (objAt Obj.POWER_CAP).any (fun r => r.acc != .rws && (keyHome Obj.POWER_CAP).isNone) = true ∧
    (objAt (Obj.INJECT 159)).any (fun r => r.acc != .rws && actsAsleep r) = true ∧
    (objAt (Obj.SEC_EVT_CQ 15)).any (fun r => r.acc != .rws && keyHome (Obj.SEC_EVT_CQ 15) == some (unitOf 3 15) &&
      !(actsAsleep r) && !(up.sleeps (unitOf 3 15)) && (up.setUnitSt (unitOf 3 15) .off).sleeps (unitOf 3 15)) = true := by
  and_intros <;> decide +kernel

theorem witness_ObjectWritesAct :
    ofLE [1] ≠ 0 ∧ bit (ofLE [7, 128]) 15 = true ∧ (11 < 12 ∧ 0 < classCount 11) ∧ 63 < 64 ∧ 31 < 32 ∧ 19 < 20 ∧ 15 < 16 ∧ 159 < 160 ∧
    255 < 256 ∧ 7 < 8 ∧ OAcc.rw ≠ .rws := by and_intros <;> decide +kernel

theorem witness_ServicesAnswer :
    let r (svc key len : Nat) := parseReq (reqBytes svc key len 0 [])
    let ok (s : State) (q : Req) : Bool := decide (firstOf (q.frameChecks .mbx ++ [q.tagCheck (s.tagOk .mbx q)]) = 0) &&
      decide (s.unitCheck q.key = 0) && decide (q.off = 0)
    let st : State := { up with oap := { up.oap with staged := [((Obj.DOMAIN_POLICY 0 63), 2)] } }
    (ok up (r 1 Obj.POWER_CAP 2) && (objAt Obj.POWER_CAP).any fun o => !o.ty.varSize && decide (o.ty.size ≤ 2)) = true ∧
    (ok up (r 1 Obj.POWER_CAP 0)) = true ∧
    (ok up (r 3 (Obj.DOMAIN_POLICY 0 63) 1) && (objAt (Obj.DOMAIN_POLICY 0 63)).any (fun o => o.acc == .rws && decide (o.ty.size ≤ 1)) &&
      SMap.get 0 up.oap.staged (Obj.DOMAIN_POLICY 0 63) == 0 && SMap.get 0 st.oap.staged (Obj.DOMAIN_POLICY 0 63) == 1 + 1) = true ∧
    (ok st (r 4 (Obj.DOMAIN_POLICY 0 63) 0) && !(isExpert (Obj.DOMAIN_POLICY 0 63)) && st.isPending (Obj.DOMAIN_POLICY 0 63)) = true ∧
    (ok up (r 5 (Obj.DOMAIN_POLICY 0 63) 32) && decide (32 ≤ (r 5 (Obj.DOMAIN_POLICY 0 63) 32).len)) = true ∧
    ((r 0 0 0).svc = 0 ∧ 9 ≤ (r 9 0 0).svc) := by and_intros <;> decide +kernel

theorem witness_SessionsOpenAndClose :
    let k := zeros 32
    let o := parseReq (reqBytes 6 0 16 0 (zeros 16))
    let s : State := { up with oap := { up.oap with key := k }, drbg := { seeded := true } }
    let nd := zeros 16
    let p := parseReq (reqBytes 7 0 32 0 (Hash.hmac k (ascii "OAPC" ++ leBytes 1 3 ++ nd ++ nd)))
    let s2 := s.setSess .mbx { challenge := some (nd, nd) }
    let s3 := s.setSess .mbx { isOpen := true, ks := k, ctr := 1 }
    let hdr := padTo 5 (reqBytes 8 0 0 0 []) ++ [1] ++ (reqBytes 8 0 0 0 []).drop 6
    let c := parseReq (hdr ++ (Hash.hmac k (leBytes 4 1 ++ hdr)).take 8)
    (o.off = 0 ∧ o.svc = 6 ∧ firstOf (o.frameChecks .mbx) = 0 ∧ o.len = 16 ∧ s.drbgUp = true ∧ s.oap.key ≠ [] ∧ (s.port .mbx).sess.locked = false) ∧
    (p.off = 0 ∧ p.svc = 7 ∧ firstOf (p.frameChecks .mbx) = 0 ∧ p.len = 32 ∧ (s2.port .mbx).sess.challenge = some (nd, nd) ∧
      s2.timeNs ≤ (s2.port .mbx).sess.challengeNs + 1000000000 ∧
      Hash.hmac s2.oap.key (ascii "OAPC" ++ leBytes 1 (transportByte .mbx) ++ nd ++ nd) = p.value) ∧
    (c.off = 0 ∧ c.svc = 8 ∧ firstOf (c.frameChecks .mbx ++ [c.tagCheck (s3.tagOk .mbx c)]) = 0 ∧ c.len = 0 ∧ s3.tagOk .mbx c = true) := by
  and_intros <;> decide +kernel

theorem witness_TransportEventsTakeEffect :
    let s := up
    let f : CanFrame := { extended := false, ident := 0x400 + s.inEffect Obj.CAN_NODE_ID, fd := true, remote := false, data := zeros 64 }
    let e : EthFrame := { dst := s.obj Obj.MAC_ADDRESS, src := 1, etherType := s.inEffect Obj.OAP_ETHERTYPE, payload := zeros 12 }
    let p (x : Port) := s.setPort .mbx x
    (s.enabled .can = true ∧ f.extended = false ∧ f.ident = 0x400 + s.inEffect Obj.CAN_NODE_ID ∧ f.fd = true ∧ f.remote = false ∧
      s.oap.can.queue.length + (s.oap.waiting.filter fun w => w.t == Transport.can).length < 4) ∧
    (s.enabled .t1s = true ∧ e.etherType = s.inEffect Obj.OAP_ETHERTYPE ∧ e.dst = s.obj Obj.MAC_ADDRESS ∧ bit e.dst 40 = false ∧
      s.inEffect Obj.CLIENT_MAC = 0 ∧ s.oap.t1s.queue.length + (s.oap.waiting.filter fun w => w.t == Transport.t1s).length < 4) ∧
    (s.hostUp = true ∧ s.fnAnswers 0 = true ∧ s.hostWaits 0 = false ∧ s.oap.mbxBusy = false ∧ s.oap.mbxRspValid = false ∧ s.enabled .mbx = true) ∧
    ({ s with oap := { s.oap with evtQ := [[]] } } : State).oap.evtQ = [] :: [] ∧
    ((p { seg := some { key := 0, total := 2, auth := false, buf := [] } }).port .mbx).seg.isSome = true ∧
    ((p { snap := some (0, []) }).port .mbx).snap = some (0, []) ∧
    ((p { sess := { isOpen := true } }).port .mbx).sess.isOpen = true ∧ ((p { sess := { locked := true } }).port .mbx).sess.locked = true ∧
    (0x110000 ≤ Obj.CAN_NODE_ID ∧ Obj.CAN_NODE_ID < 0x120000 ∧ (objRow Obj.CAN_NODE_ID).isSome = true) := by
  and_intros <;> decide +kernel

theorem witness_KeeperFollowsItsUnits :
    let w : UnitWrite := { t := .mbx, src := 0, unit := 119, key := Obj.SEC_EVT_CQ 15, value := 0, bytes := zeros 2, header := [] }
    let s : State := { up with oap := { waiting := [w] } }
    let s1 : State := { s with oap := { s.oap with waiting := s.oap.waiting.filter fun x => x != w } }
    let differs : State := { up with oap := { mirrorDiff := [(200, 1)] }, timeNs := 1000000 }
    s.oap.waiting.find? (fun w => w.unit == 119) = some w ∧
    (objAt w.key).any (fun o => firstOf [s1.unitCheck w.key, s1.valueCheck w.key o w.bytes] == 0 && !(s1.sleeps w.unit)) = true ∧
    (1 ≤ up.stage ∧ SMap.get 0 up.oap.mirror 0 ≠ (up.unitSt 0).code) ∧
    (differs.present 200 = true ∧ SMap.get 0 differs.oap.mirrorDiff 200 ≠ 0 ∧ SMap.get 0 differs.oap.mirror 200 ≠ (differs.unitSt 200).code ∧
      SMap.get 0 differs.oap.mirrorDiff 200 - 1 + 1000000 ≤ differs.timeNs) := by and_intros <;> decide +kernel

/-- A comparison leaves a unit as the mirror shows it: a fault changes one unit at most. -/
theorem witness_KeeperFollowsItsUnits_differs :
    ∃ u, u < 201 ∧ SMap.get 0 up.upsetMirror.oap.mirror u ≠ (up.unitSt u).code := by
  by_cases h : up.upsetUnit = 0
  · exact ⟨200, by decide, by rw [State.upsetMirror_other _ _ (by omega)]; decide +kernel⟩
  · exact ⟨0, by decide, by rw [State.upsetMirror_other _ _ (by omega)]; decide +kernel⟩

theorem witness_KeeperFollowsItsUnits_agrees :
    let s := State.reset.setObj Obj.BRINGUP_STAGE 1
    1 ≤ s.stage ∧ ∃ u, u < 201 ∧ SMap.get 0 s.upsetMirror.oap.mirror u = (s.unitSt u).code := by
  refine ⟨by decide, ?_⟩
  by_cases h : (State.reset.setObj Obj.BRINGUP_STAGE 1).upsetUnit = 0
  · exact ⟨200, by decide, by rw [State.upsetMirror_other _ _ (by omega)]; decide +kernel⟩
  · exact ⟨0, by decide, by rw [State.upsetMirror_other _ _ (by omega)]; decide +kernel⟩

/-- The host has one ring of 16 slots bound to function 0, its CQ is itself, and context 0 is function 0's. -/
def hosted (r : Ring) (bound : Bool := true) : State :=
  { up with host := { linkUp := true, rings := [(0, r)], ctxBind := [(0, 2 ^ 63)], ringBind := if bound then [(0, 2 ^ 63)] else [] } }

theorem witness_DoorbellsHeadsAndRingResets :
    let s := hosted { st := .running }
    let q := s.ring 0
    let past (v : Nat) : Prop := q.cqSize ≤ v ∨ (q.cqTail + q.cqSize - q.cqHead) % q.cqSize < (v + q.cqSize - q.cqHead) % q.cqSize
    let waits : State := { s with host := { s.host with held := [(0, .bar0Read 0 4)] } }
    (waits.hostUp = true ∧ waits.fnAnswers 0 = true ∧ waits.hostWaits 0 = true) ∧ s.hostWaits 0 = false ∧
    s.hostUp = true ∧ s.seesRing 0 0 = true ∧ (q.st ≠ .resetting ∧ 15 < q.sqSize) ∧ q.sqSize ≤ 16 ∧ 65535 < 65536 ∧ ¬past 0 ∧ past 1 ∧
    ((hosted { st := .faulted }).ring 0).st = .faulted ∧ ((hosted { st := .resetting }).ring 0).st = .resetting ∧
    (∃ e ∈ s.host.rings, e.2.st ≠ .disabled ∧ e.2.cqId = 0) ∧
    (∀ e ∈ (hosted {}).host.rings, e.2.st ≠ .disabled → e.2.cqId ≠ 0) ∧
    s.seesRing 1 0 = false := by and_intros <;> decide +kernel

theorem witness_RingAndBindingConfiguration :
    let on := 2 ^ 63 + 0x10004
    let s := hosted { st := .disabled, cqCfg := 2 ^ 63 + 4 }
    let r := hosted { st := .running, sqCfg := on, cqCfg := 2 ^ 63 + 4 }
    let vf : State := { s with host := { s.host with vfEnable := true, numVfs := 63, ctxBind := [(0, 2 ^ 63 + 63)], bar2Ctx := [(0, 2 ^ 31 + 63)] } }
    (s.hostWaits 0 = false ∧ s.fnAnswers 0 = true ∧ vf.fnAnswers 63 = true ∧ vf.hostWaits 63 = false ∧ bit (s.ring 0).sqCfg 63 = false) ∧
    (s.hostUp = true ∧ s.seesRing 0 0 = true ∧ sqCfgBad on = false ∧ sqCfgBad 0x10004 = false ∧ cqCfgBad 4 = false ∧ cqCfgBad (1023 * 256 + 4) = false) ∧
    ((s.ring 0).st = .disabled ∧ bit 0x10004 63 = false ∧ bit on 63 = true ∧ s.mayEnable 0 on = true ∧
      (hosted {} false).mayEnable 0 on = false) ∧
    ((r.ring 0).st = .running ∧ bits 0x10004 32 6 = bits (r.ring 0).sqCfg 32 6 ∧ bits 0x10004 24 8 = bits (r.ring 0).sqCfg 24 8 ∧
      bits 0x10004 0 5 = bits (r.ring 0).sqCfg 0 5 ∧ bits 0x10005 0 5 ≠ bits (r.ring 0).sqCfg 0 5 ∧ sqCfgBad 0x10005 = false) ∧
    (bits (1023 * 256 + 4) 8 11 < s.vectorCount ((s.ringFn 0).getD 0) ∧ s.vectorCount ((s.ringFn 0).getD 0) ≤ bits (1024 * 256 + 4) 8 11 ∧
      cqCfgBad (1024 * 256 + 4) = false ∧ bit (r.ring 0).cqCfg 63 = true ∧ bit 4 63 = false ∧ r.cqNamed 0 = true ∧
      bit ((hosted {}).ring 0).cqCfg 63 = false) ∧
    (let z := hosted { st := .resetting }
     (z.ring 0).st = .resetting ∧ (z.ring 0).resetCqAfter = false ∧ (z.ring 0).perst = false ∧
     ∀ x ∈ z.ringSlots 0, (z.buffered x.1 x.2).isEmpty = true) ∧
    (bits (2 ^ 63 + 63) 6 57 = 0 ∧ (∀ e ∈ r.host.rings, e.2.st ≠ .disabled → e.2.ctxOf ≠ 63) ∧
      (∀ e ∈ r.host.bar2Ctx, bit e.2 31 = true → bits e.2 0 6 ≠ 63) ∧ bits (2 ^ 63 + 63) 0 6 ≤ vf.host.numVfs ∧
      (∃ e ∈ r.host.rings, e.2.st ≠ .disabled ∧ e.2.ctxOf = 0) ∧ (∃ e ∈ vf.host.bar2Ctx, bit e.2 31 = true ∧ bits e.2 0 6 = 63) ∧
      s.host.numVfs < bits (2 ^ 63 + 63) 0 6) ∧
    ((s.ring 255).st = .disabled ∧ bit (s.ring 255).cqCfg 63 = false ∧ 255 < 256) ∧
    (bits (63 * 2 ^ 32) 59 4 = 0 ∧ bits (63 * 2 ^ 32) 38 10 = 0 ∧ bits (63 * 2 ^ 32) 25 7 = 0 ∧ bits (63 * 2 ^ 32) 9 7 = 0 ∧
      bits (63 * 2 ^ 32) 32 6 ≤ vf.host.numVfs ∧ s.host.numVfs < bits (63 * 2 ^ 32) 32 6) ∧
    (vf.fnExists 63 = true ∧ bits (2 ^ 31) 6 25 = 0 ∧ bit (2 ^ 31) 31 = true ∧ vf.ctxOwned 0 63 = true ∧ vf.ctxOwned 1 63 = false ∧ 63 ≠ 0) := by
  and_intros <;> decide +kernel

theorem witness_LinkFunctionsAndVectors :
    let down : State := { up with host := {} }
    let early : State := { up with dict := [(Obj.BRINGUP_STAGE, 1)] }
    let p : State := { hosted { pend := 1, pendSince := 1, cqCfg := 2 ^ 32 + 4 } with timeNs := 1000 }
    (early.safety.safe = false ∧ early.stage < 2) ∧ (up.hostUp = true ∧ up.fnExists 0 = true ∧ up.host.linkUp = true ∧
      up.fnAnswers 0 = true ∧ up.hostWaits 0 = false ∧ up.seesRing 0 255 = true ∧ up.seesRing 1 255 = false) ∧
    (down.host.linkUp = false ∧ down.host.held = [] ∧ 2 ≤ down.stage ∧ down.sup.pciePerst = false ∧ down.sup.refPcie = true ∧ 16 ∈ [1, 2, 4, 8, 16] ∧
      6 ≤ down.obj Obj.PCIE_MAX_RATE ∧ 16 ≤ down.obj Obj.PCIE_MAX_WIDTH ∧ ¬(down.stage < 4)) ∧
    1023 < up.vectorCount 0 ∧
    (0 < (p.ring 0).pend ∧ bits (p.ring 0).cqCfg 32 16 ≠ 0 ∧
      p.passed ((p.ring 0).pendSince - 1) (bits (p.ring 0).cqCfg 32 16 * 1000) = true) ∧
    (0x100000 % 4 = 0 ∧ 2 ^ 32 - 1 < 2 ^ (8 * 4)) ∧ 255 < 256 ∧ 63 < 64 := by and_intros <;> decide +kernel

theorem witness_HostWindowAndReads :
    let s : State := { up with host := { up.host with bar2Ctx := [(0, 2 ^ 31)] } }
    let g := hosted { st := .running, sqTail := 1 }
    let h : State := { g with host := { g.host with reads := [(7, .entry 0 15)] } }
    (s.hostUp = true ∧ s.fnAnswers 0 = true ∧ s.hostWaits 0 = false ∧ s.host.held.any (·.1 == 0) = false ∧ s.hostWriting 0 = false) ∧
    (match s.bar2Pieces 0 0x100000080 128 true with
     | (some ps, u) => decide (ps.length ≤ u.tagsLeft (.host 0) 1) && ps.all fun p => !(u.lineHeld (.host 0) 1 p.1)
     | _ => false) = true ∧
    (s.bar2Pieces 0 0x140000000 1 true).1 = none ∧ (s.bar2Pieces 0 0x140000000 1 false).1 = none ∧
    (match s.bar2Pieces 0 0x100000040 128 false with
     | (some ps, u) => decide (ps.length ≤ u.tagsLeft (.host 0) 1) && ps.all fun p => !(u.lineHeld (.host 0) 1 p.1) && (u.destNode (p.1 / 2 ^ 56) (p.1 % 2 ^ 56)).isSome
     | _ => false) = true ∧
    (g.dispatches = true ∧ (g.ring 0).st = .running ∧ g.mayRead ((g.ringFn 0).getD 0) = true ∧ (g.ring 0).fetched.length + g.fetching 0 < ((g.ring 0).sqTail + (g.ring 0).sqSize -
      (g.ring 0).sqHead) % (g.ring 0).sqSize ∧ (g.ring 0).fetched.length + g.fetching 0 < g.obj Obj.DISPATCH_PREFETCH) ∧
    (h.host.reads.find? (·.1 == 7) = some (7, .entry 0 15) ∧ h.hostUp = true ∧ h.safety.safe = false ∧ (h.ring 0).st = .running ∧ 15 < 65536) := by
  and_intros <;> decide +kernel

/-- A submission entry. -/
def entryBytes (ty target words addr : Nat) : List Byte :=
  padTo 64 (leBytes 2 ty ++ leBytes 2 target ++ leBytes 4 words ++ leBytes 8 addr)

theorem witness_EntriesAreDispatchedInTurn :
    let s (bs : List Byte) := hosted { st := .running, sqTail := 1, fetched := [{ slot := 0, bytes := bs }] }
    let served (w : State) : State := { w with host := { w.host with lastServed := SMap.set 256 w.host.lastServed 1 0, used := SMap.set 0 w.host.used 1 1 } }
    let v (s : State) (bs : List Byte) := (served s.wakeHeads).verdict 0 bs
    let e1 := entryBytes 1 0x1000 1 0x100000000
    let faulted := (s (entryBytes 1 0x1000 1 0)).setUnitSt 0 .faulted
    ((hosted {}).dispatches = true ∧ ∀ e ∈ (hosted {}).wakeHeads.host.rings, (hosted {}).wakeHeads.ringReady e.1 = false) ∧
    (s e1).chooseRing.isSome = true ∧
    (∀ bs ∈ [e1, entryBytes 2 0 0 0, entryBytes 1 0x1000 0 0, entryBytes 0 0 0 0],
      (s bs).dispatches = true ∧ (s bs).wakeHeads.chooseRing.map (·.2.1) = some 0 ∧ ((s bs).wakeHeads.ring 0).head.isSome = true) ∧
    v (s e1) e1 = .run ∧ v (s (entryBytes 2 0 0 0)) (entryBytes 2 0 0 0) = .done Sc.ok ∧
    v (s (entryBytes 1 0x1000 0 0)) (entryBytes 1 0x1000 0 0) = .done Sc.okEmpty ∧
    (v faulted (entryBytes 1 0x1000 1 0) = .disabled ∧ faulted.wakeHeads.chooseRing.isSome = true) ∧
    (v (s (entryBytes 0 0 0 0)) (entryBytes 0 0 0 0) = .fail Sc.illegalOp 0 ∧ ((s (entryBytes 0 0 0 0)).wakeHeads.ring 0).st = .running ∧
      Sc.illegalOp < 256) := by and_intros <;> decide +kernel

/-- A descriptor that copies 256 bytes in two slots of 128, with its flags. -/
def descBytes (flags : Nat) : List Byte :=
  padTo 128 (leBytes 1 1 ++ leBytes 1 flags ++ [0, 1] ++ zeros 20 ++ leBytes 8 0x100000000 ++ zeros 24 ++ leBytes 4 128 ++ leBytes 4 2 ++
    leBytes 4 1 ++ leBytes 4 1 ++ zeros 4 ++ leBytes 8 0x100001000 ++ zeros 24 ++ leBytes 4 128 ++ leBytes 4 2 ++ leBytes 4 1 ++ leBytes 4 1)

theorem witness_StreamsMoveTheirSlots :
    let s (x : Engine) : State := { up with str := { engines := [(439, { x with st := .running })], jess := [(0, { fill := 1, free := 1 })] } }
    let bare (s : State) : State := { s with str := { s.str with jess := [] } }
    let x := { desc := descBytes 0, descRunning := true : Engine }
    let ofIn := { x with desc := descBytes 2 }
    let ofOut := { x with desc := descBytes 4 }
    let gated : Engine := { x with gateEpoch := some (0, 0) }
    let d := descBytes 0
    let f := s { descAddr := 0x100000080 }
    let w : SemWaiting := { sem := 0, count := 1, who := .engine 439, sinceNs := 0, tmo := 1 }
    let waiting (s : State) : State := { s with str := { s.str with waiters := [w] } }
    (s x).engLive 439 = true ∧ ((s { descSt := 2 }).engine 439).descSt = 2 ∧ ((s { descSt := 1 }).engine 439).descSt = 1 ∧ 0x100000001 % 128 ≠ 0 ∧
    (let t := f.xlate 0 0x100000080 true false
     f.engLive 439 = true ∧ t.1.status = 0 ∧ t.2.isMmio t.1.ga = false ∧
     (match t.2.destOf t.1.ga with
      | .node nd => (t.2.send (readPacket (.engine 439) 2 nd t.1.ga 128) (.engRead 439 0 [])).isSome
      | _ => false) = true) ∧
    ((s { x with wq := [{ slot := 0, ga := 0, bytes := [0], mark := 0, replay := false }] }).engine 439).wq ≠ [] ∧
    (((s x).engine 439).wq = [] ∧ dTotal d = 256 ∧ 0 < dTotal d ∧ (s gated).gateOpen 439 = false ∧ (s x).gateOpen 439 = true ∧
      0 < ({ x with slotsTaken := 1 } : Engine).slotsTaken * dSlotBytes d) ∧
    ((waiting (s x)).waitOf (.engine 439) = some w ∧ (s x).waitOf (.engine 439) = none ∧ (s x).engWaitsOn 439 = none ∧
      0 * dSlotBytes d ≤ 0) ∧
    (dIn d = false ∧ dOut d = false ∧ dIn ofIn.desc = true ∧ dOut ofIn.desc = false ∧ dIn ofOut.desc = false ∧ dOut ofOut.desc = true ∧
      ofIn.tookIn = false ∧ ofOut.tookOut = false) ∧
    ((s ofIn).canTake (semOf 0 0) 1 (.engine 439) = true ∧ (bare (s ofIn)).canTake (semOf 0 0) 1 (.engine 439) = false) ∧
    ((0 + 1) * dSlotBytes ofOut.desc ≤ 128 ∧ (s { ofOut with moved := 128 }).engSlotOut 439 1 true = false ∧
      (0 + 1) * dSlotBytes ofIn.desc ≤ 128 ∧ (s { ofIn with moved := 128 }).engSlotOut 439 1 false = false) ∧
    (tmoNs w.tmo).any (fun lim => decide (0 + lim ≤ ({ waiting (s ofIn) with timeNs := 2 ^ 63 } : State).timeNs)) = true ∧
    ((waiting (s ofIn)).engLive 439 = true ∧ (waiting (s ofIn)).safety.safe = false) ∧
    (dTotal d ≤ 256 ∧ (s { x with moved := 256 }).engOut 439 = false ∧ 2 = dTotal d / dSlotBytes ofOut.desc) := by
  and_intros <;> decide +kernel

theorem witness_EngineCountersAreSnapshot : 439 < 440 := by decide

theorem witness_SemaphoresCount :
    let s : State := { up with str := { jess := [(2047, { fill := 65534, free := 65535 })] } }
    s.sem (semOf 2047 0) + 1 ≤ 65535 ∧ 65535 < s.sem (semOf 2047 1) + 1 ∧ 2047 < 2048 ∧ 2 ^ 32 - 1 < 2 ^ 32 ∧ 1 < 2 := by
  and_intros <;> decide +kernel

/-- A packet at a node. -/
def pkt (kind : PKind) (at_ dst : Nat) : Packet :=
  { id := 0, kind := kind, tc := 1, src := 191, dst := dst, at_ := at_, agent := .slot 0 0, sentNs := 0 }

def carried (k : Packet) : State := { up with net := { packets := [k] } }

theorem witness_PacketsCrossTheMeshXY :
    let k : Packet := pkt .rdReq 0 191
    let o : Packet := { k with id := 1, tc := 0 }
    let two : State := { up with net := { packets := [k, o] } }
    (0 < 192 ∧ 191 < 192 ∧ 0 ≠ 191) ∧
    (∀ k ∈ [pkt .rdReq 0 191, pkt .rdReq 191 0, pkt .rdReq 0 15, pkt .rdRsp 176 0], (carried k).packet 0 = some k ∧ k.segs = none ∧
      k.at_ < 192 ∧ k.dst < 192 ∧ k.at_ ≠ k.dst ∧ (carried k).safety.safe = false ∧ k.dev = (carried k).devId ∧ (carried k).granted k = true) ∧
    (two.packet 0 = some k ∧ two.granted k = false ∧ two.granted o = true ∧ k ∈ two.rivals o ∧ o ∈ two.rivals o) := by
  and_intros <;> decide +kernel

theorem witness_RouteTablesAreGuarded :
    let set (c m : Nat) : State := { up with net := { nis := [(0, { ctrl := [(63, c)], moves := [(63, m)] })] } }
    let en := 2 ^ 63 + 1
    up.niUp 0 = true ∧ (set (2 ^ 63) 0).niUp 0 = true ∧ bit (SMap.get 0 ((set (2 ^ 63) 0).ni 0).ctrl 63) 63 = true ∧
    bit (SMap.get 0 (up.ni 0).ctrl 63) 63 = false ∧ 63 < 64 ∧ bit en 63 = true ∧
    routeCheck 67 (2 ^ 63 + 2 ^ 8 + 68) 0 = 0 ∧ routeCheck 0 (2 ^ 63 + 2 ^ 62) 0 ≠ 0 ∧ bit (2 ^ 63 + 2 ^ 62) 63 = true := by and_intros <;> decide +kernel

theorem witness_RequestsArePerformedAtTheirHome :
    let k (kind : PKind) : Packet := { pkt kind 68 68 with addr := 0x6000000000, len := 8, data := zeros 8 }
    let at_ (k : Packet) := carried k
    let ed : State := (at_ (pkt .epochMark 0 0)).setObj (Obj.ED_SOURCE 0) 1
    let jw : Packet := { pkt .jessWait 0 0 with count := 1, tmo := 1 }
    let w : SemWaiting := { sem := 0, count := 1, who := jw.waiter, sinceNs := 0, tmo := 1, reply := some (0, 0), packet := 0 }
    let late : State := { at_ jw with str := { waiters := [w] }, timeNs := 2 ^ 62 }
    (∀ kd ∈ [PKind.rdReq, .wr, .wrPoison, .amoReq], regionOf (k kd).addr ≠ .mmio ∧ ((at_ (k kd)).edge (k kd)).1 = true ∧
      ((at_ (k kd)).edge (k kd)).2.windowPort (k kd) = none ∧ (at_ (k kd)).arrived 0 kd = some (k kd)) ∧
    ((k .wr).pieces = [] ∧ (k .wr).len ≠ 0) ∧
    (oneGo (k .wr) = false ∧ oneGo { k .wr with whole := true } = true ∧
      (at_ { k .wr with whole := true }).arrived 0 .wr = some { k .wr with whole := true } ∧
      (((at_ (k .wr)).edge (k .wr)).2.writePiece (k .wr) 0).2.1 = true) ∧
    (let q : Packet := { pkt .gatherReq 46 46 with len := 1 }
     (at_ q).arrived 0 .gatherReq = some q ∧ ((at_ q).edge q).1 = true ∧ ((at_ q).edge q).2.reply (unitOf 5 0) = .deliver ∧
     (((at_ q).edge q).2.takeGather 0 q).isSome = true) ∧
    ((at_ (pkt .jessPost 0 0)).arrived 0 .jessPost = some (pkt .jessPost 0 0)) ∧
    (ed.arrived 0 .epochMark = some (pkt .epochMark 0 0) ∧ ed.edSource 0 = 1) ∧
    ((at_ jw).arrived 0 .jessWait = some jw ∧ jw.cancel = false ∧ ({ at_ jw with str := { jess := [(0, { fill := 1 })] } } : State).canTake
      (semOf jw.pair jw.which) jw.count jw.waiter = true ∧ (at_ jw).canTake (semOf jw.pair jw.which) jw.count jw.waiter = false ∧
      (at_ { jw with cancel := true }).arrived 0 .jessWait = some { jw with cancel := true }) ∧
    (late.safety.safe = false ∧ late.str.waiters.find? (fun w => w.packet == 0 && w.reply.isSome && (tmoNs w.tmo).any (late.passed w.sinceNs)) = some w) := by
  and_intros <;> decide +kernel

theorem witness_AnswersReachWhatAsked :
    let o : Outst := { node := 0, tc := 1, tag := 0, agent := .slot 0 0, kind := .rdReq }
    let s (o : Outst) (k : Packet) : State := { carried k with net := { packets := [k], outst := [o] }, timeNs := 2 ^ 62 }
    let r (kind : PKind) : Packet := pkt kind 0 0
    let g : Packet := { r .jessGrant with tc := 0 }
    let waits (s : State) : State := { s with seqs := (prog 0 []).seqs }.setSlot 0 0 { (prog 0 []).slot 0 0 with semWait := some 0 }
    let waiting (s : State) : State := { s with str := { engines := [(439, { desc := descBytes 2, descRunning := true, st := .running })] } }
    let q : Packet := { pkt .rdReq 0 0 with dev := 1 }
    let lost : Packet := { r .rdRsp with status := Sc.linkLost }
    (∀ kd ∈ [PKind.rdRsp, .wrAck, .amoRsp, .gatherRsp], (s { o with timedOut := true } (r kd)).arrived 0 kd = some (r kd) ∧
      (s { o with timedOut := true } (r kd)).outst 0 1 0 = some { o with timedOut := true }) ∧
    (∀ x ∈ [(PKind.rdReq, PKind.rdRsp), (.wr, .wrAck), (.wrPoison, .wrAck), (.amoReq, .amoRsp)],
      (s { o with kind := x.1 } (r x.2)).arrived 0 x.2 = some (r x.2) ∧ x.1.answer = x.2 ∧ (s { o with kind := x.1 } (r x.2)).packet 0 = some (r x.2)) ∧
    (((s o g).arrived 0 .jessGrant = some g ∧ g.status = Sc.ok) ∧
      (s o { g with status := Sc.okEmpty }).arrived 0 .jessGrant = some { g with status := Sc.okEmpty } ∧
      (s o { g with status := Sc.timeout }).arrived 0 .jessGrant = some { g with status := Sc.timeout } ∧
      (s { o with tc := 0 } g).outst g.dst 0 g.tag = some { o with tc := 0 } ∧
      (waits (s o g)).stillWaits { o with use := .post 0 0 } = true ∧ (waits (s o g)).canRun 0 0 = true ∧
      (waiting (s { o with use := .engWait 439 0 } g)).stillWaits { o with use := .engWait 439 0 } = true ∧ (s o g).stillWaits { o with use := .post 0 0 } = false) ∧
    ((s { o with timedOut := true } g).passed 0 ((s o g).obj Obj.NI_TIMEOUT_US * 1000) = true ∧ (s o g).safety.safe = false ∧
      ({ o with kind := .wr } : Outst).use = .plain ∧ (s o g).host.held = []) ∧
    ((s { o with pkt := some q } lost).packet 0 = some lost ∧ lost.kind.response = true ∧ ((s { o with pkt := some q } lost).arrived 0 lost.kind).isSome = true ∧
      (s { o with pkt := some q } lost).outst 0 1 0 = some { o with pkt := some q } ∧ q.repeats = true ∧ 0 < (s o g).obj Obj.REISSUE_LIMIT ∧
      ({ q with kind := .wr } : Packet).repeats = false) ∧
    (let p : State := { up with link := { ports := [(0, { step := 7, framing := true, partner := some (1, 0) })] } }
     let p := p.setObj (Obj.PH_LINK_ENABLE 0) 1
     p.portFor 1 0 = some 0) ∧
    (({ up with net := { copying := true, snapPending := some true } } : State).net.copying = true) := by and_intros <;> decide +kernel

theorem witness_MemoryHoldsWhatIsWritten :
    let a := storeBase 68
    up.holder a = some 68 ∧ regionOf a ≠ .mmio ∧ regionOf a ≠ .sec ∧ up.regionLate a = false ∧ up.inHotCache a = false ∧
    SMap.get 0 up.mem.redirect 68 = 0 ∧ up.reply 68 = .deliver ∧ up.eccErr a = [] ∧ up.inPelletLog a = false ∧ 128 ≤ 128 - a % 128 ∧
    (1 ≠ 0 ∧ unitClass 68 ≠ 7) ∧ (0 ≤ 127 ∧ 127 < 0 + 128) ∧
    (let b := 96 * gib
     up.holder b = none ∧ regionOf b ≠ .mmio ∧ up.regionLate b = false) ∧
    (up.aptMatches 0 0x140000000 = [] ∧ up.aptMatches 0 0x13FFFFFFF = [⟨0x100000009, 0xB⟩] ∧ bit 0xB 0 = true ∧ bit 0xB 1 = true ∧
      bit 0x9 1 = false) := by and_intros <;> decide +kernel

theorem witness_ApertureEntriesAndScrubbing :
    let s := up
    let v := 0x100000009
    (s.aptUp 63 4095 = true ∧ s.aptUp 0 4 = true ∧ (s.aptEntry 0 4).valid = true ∧ (s.aptEntry 63 4095).valid = false ∧ bits 0xB 4 12 = 0) ∧
    (bit v 0 = true ∧ bit 0x8 0 = false ∧ bits (v + 16) 4 12 ≠ 0 ∧ bits 0xD 2 2 = 3 ∧ bits v 4 12 = 0 ∧ bit v 1 = false ∧ bits v 2 2 = 2) ∧
    (bit (s.aptEntry 0 4).w1 3 = true ∧ s.rangeBacked 0 0x40000000 = true ∧ s.rangeBacked 0x2000000000 0x40000000 = false ∧
      0x100010000 % 0x40000000 ≠ 0 ∧ regionOf 0 = regionOf (0 + 0x40000000 - 1)) ∧
    (s.dramLine 0 = some (unitOf 8 0, 0) ∧ s.scrubs (unitOf 8 0) = true ∧ s.scrubRate ≠ 0 ∧ 0 = s.scrubAt (unitOf 8 0) ∧ s.mark 0 = 0 ∧
      s.eccErr 0 = [] ∧ s.codeOf 0 = .line) ∧
    (let six := (List.range 6).map fun i => (i * 24, 255)
     let seven := (List.range 7).map fun i => (i * 24, 255)
     six.length ≤ 6 ∧ (∀ x ∈ six, x.1 < 144 ∧ 0 < x.2 ∧ x.2 < 256) ∧ (∀ x ∈ seven, x.1 < 151 ∧ 0 < x.2 ∧ x.2 < 256) ∧
     mergeErrs seven = seven ∧ 7 ≤ seven.length ∧ 144 ≤ 150 ∧ 150 < 151) ∧
    (s.holder (storeBase 68) = some 68 ∧ regionOf (storeBase 68) ∈ [.mid, .mxt, .vxt, .cat, .sec] ∧ storeBase 68 % 8 = 0 ∧ s.scrubs 68 = true ∧
      (storeBase 68 - storeBase 68) / 8 = s.scrubAt 68 ∧ s.mark (storeBase 68) = 0 ∧ s.eccErr (storeBase 68) = [] ∧ 1150 < 1151 ∧ 1150 / 72 = 1151 / 72) ∧
    (let k : Packet := { pkt .rdReq 191 191 with addr := lpBase, len := 8 }
     let m : State := { carried k with mem := { lpMib := List.replicate 8 4096, lpHold := [(0, 2000)] } }
     m.available (unitOf 7 7) = true ∧ 3 ≤ m.stage ∧ 0 < m.lpUsable 7 ∧ m.safety.safe = false ∧ m.packet 0 = some k ∧
     k.kind.response = false ∧ regionOf k.addr = .lpddr ∧ (m.lpMap (k.addr - lpBase)).map (·.1) = some 0 ∧ m.timeNs < SMap.get 0 m.mem.lpHold 0) := by
  and_intros <;> decide +kernel

theorem witness_DomainsPowerDownAndUp :
    let s (d : Domain) : State := { up with net := { domains := [(200, d)] } }
    let drain := s { phase := .draining, target := .off }
    let ready := (drain.closeForStop 200).hoodPort 200
    let stuck : State := { drain with tab := { coll := { op := some 0 } }, timeNs := 20000 }
    let down := s { phase := .down, target := .off }
    let rise : State := (s { phase := .up, target := .ready }).setUnitSt 200 .off
    200 < 201 ∧ drain.safety.safe = false ∧ ((drain.dom 200).phase = .draining ∧ ready.domainDrained 200 = true ∧ ready.portHooded 200 = true) ∧
    (stuck.domainDrained 200 = false ∧ (stuck.dom 200).sinceNs + 20000 ≤ stuck.timeNs ∧ (stuck.dom 200).phase = .draining) ∧
    (((s { phase := .draining, target := .hooded }).dom 200).target = .hooded ∧ (up.ucb 200).beforeTest = none) ∧
    ((down.dom 200).phase = .down ∧ (down.dom 200).wakeAfter = false ∧ (down.dom 200).parked = [] ∧ unitClass 200 ≠ 6) ∧
    ((rise.dom 200).phase = .up ∧ (rise.dom 200).target = .ready ∧ (rise.ucb 200).beforeTest = none ∧ rise.unitSt 200 = .off) := by
  and_intros <;> decide +kernel

theorem witness_TestsHandOversAndRepairs :
    let asks (st : UState) (f : Bool) : State := up.setUcb 68 { st := st, testWaits := true, testForced := f }
    let busy : State := (asks .busy false).setEpoch 0 { commit := .applied }
    let crit : State := { (asks .ready false) with host := (hosted { st := .running, fetched := [{ slot := 0, bytes := entryBytes 0x401 0x3004 1 0 }] }).host }
    let stands (u : Nat) (st : UState) : State := up.setUcb u { st := st, testWaits := true }
    let spare (s : State) : State := (s.setObj (Obj.UNDERSTUDY 0) 63).setObj (Obj.MXT_ROLE 63) 1
    let inTest (u : Nat) (b : UState) (t : Option UState) (h : Hand) : State :=
      (up.setUcb u { st := .test, beforeTest := some b, target := t }).setHand u h
    let works (s : State) : State := { s with seqs := (prog 63 []).seqs }
    let hand (h : Hand) (st : UState) : State := (up.setHand 0 h).setUnitSt 0 st
    let rep (who : Option Asker) : State := { up with tiles := { mxt := [(63, { repair := some (1, who) })] } }
    (∀ f ∈ [true, false], ∀ st ∈ [UState.ready, .hooded, .off, .mews], (asks st f).live = true ∧ ((asks st f).ucb 68).testWaits = true ∧
      ((asks st f).ucb 68).beforeTest = none ∧ (asks st f).classTesting 68 = false ∧ ((asks st f).ucb 68).st = st ∧
      ((asks st f).dom 68).phase = .open_ ∧ ((asks st f).ucb 68).testForced = f) ∧
    ((busy.ucb 68).st = .busy ∧ (busy.ucb 68).testWaits = true ∧ (busy.epoch (busy.domainOf 68)).commit = .applied ∧ busy.classTesting 68 = false) ∧
    ((asks .ready false).testCritical 68 = false ∧ crit.testCritical 68 = true ∧ (crit.ucb 68).testForced = false ∧ crit.live = true) ∧
    (∀ st ∈ [UState.ready, .hooded, .off, .mews, .busy], ((stands 0 st).ucb 0).st = st) ∧
    ((stands 0 .hooded).handOf 0 = .none_ ∧ (stands 0 .hooded).freeUnderstudy 0 = none ∧
      (spare (stands 0 .hooded)).freeUnderstudy 0 = some 63 ∧ (spare (stands 0 .hooded)).handOf 0 = .none_ ∧
      (spare (stands 0 .hooded)).unitSt 63 = .ready ∧ ((spare (stands 0 .hooded)).ucb 0).st = .hooded) ∧
    (∀ b ∈ [UState.ready, .hooded, .off, .mews], ∀ t ∈ [none, some UState.mews], ∀ u ∈ [0, 68], let s := inTest u b t .none_
      s.unitSt u = .test ∧ s.safety.safe = false ∧ (s.ucb u).target = t ∧ (s.ucb u).beforeTest = some b ∧ (s.ucb u).testClears = false ∧
      (s.ucb u).testAgain = false ∧ s.handOf u = .none_ ∧ (s.dom u).phase = .open_ ∧ s.sup.inMews = false) ∧
    ((inTest 0 .ready none (.redirected 63)).handOf 0 = .redirected 63 ∧ (inTest 0 .ready none (.redirected 63)).unitSt 0 = .test ∧
      (works (inTest 0 .ready none (.redirected 63))).runningOn 63 = true ∧ (works (inTest 0 .ready none (.redirected 63))).unitSt 0 = .test ∧
      (works (inTest 0 .ready none (.redirected 63))).handOf 0 = .redirected 63) ∧
    (let s := inTest 0 .ready none .none_
     (s.setObj Obj.AUTO_REPAIR 0).flag Obj.AUTO_REPAIR = false ∧ (s.setObj Obj.AUTO_REPAIR 0).unitSt 0 = .test ∧ (s.setObj Obj.AUTO_REPAIR 1).flag Obj.AUTO_REPAIR = true ∧
     ((s.setObj Obj.AUTO_REPAIR 1).setUnitSt 0 .hooded).repairStatus 0 7 = 0 ∧ (s.setObj Obj.AUTO_REPAIR 1).unitSt 0 = .test) ∧
    (0 < 64 ∧ 63 < 64 ∧ up.mem.wf = true ∧ (hand (.waking 63) .hooded).mem = up.mem ∧ (hand (.waking 63) .hooded).handOf 0 = .waking 63 ∧
      (hand (.waking 63) .hooded).unitSt 63 = .ready ∧ (hand (.waking 63) .hooded).unitSt 0 = .hooded) ∧
    (let s := hand (.releasing 63) .hooded
     s.mem = up.mem ∧ s.handOf 0 = .releasing 63 ∧ s.runningOn 63 = false ∧ s.unitSt 63 ≠ .faulted ∧
     (s.setUnitSt 63 .faulted).handOf 0 = .releasing 63 ∧ (s.setUnitSt 63 .faulted).runningOn 63 = false ∧
     (s.setUnitSt 63 .faulted).unitSt 63 = .faulted ∧ (s.setUnitSt 63 .faulted).mem = up.mem) ∧
    (((rep (some (.mbx, 0, []))).tile 63).repair = some (1, some (.mbx, 0, [])) ∧ ((rep none).tile 63).repair = some (1, none) ∧
      ((rep none).tile 63).auto = []) := by and_intros <;> decide +kernel

theorem witness_UnitOperationsEnd :
    let o (q op : Nat) : UnitOp := { id := 0, seq := q, slot := 0, opcode := op, w0 := enc op [], w1 := 0, w2 := 0, x := [], ctx := 0, word := 0 }
    let s (o : UnitOp) : State := (prog o.seq []).setSeq o.seq { ((prog o.seq []).seq o.seq) with queue := [o] }
    let c := { s (o 136 0x36) with tab := { coll := { op := some 0 } } }
    let p := { o 63 0x30 with began := 1 }
    (∀ x ∈ [o 64 0x31, o 96 0x32, o 120 0x33, o 136 0x36], x.seq < 153 ∧ (s x).live = true ∧ (s x).headOp x.seq = some x ∧ x.opcode ≠ 0x30) ∧
    (c.headOp 136 = some (o 136 0x36) ∧ c.coll.op = some (o 136 0x36).id) ∧
    ((s p).headOp 63 = some p ∧ p.began ≠ 0 ∧ ∀ u ∈ (s p).passTiles p, ∀ x ∈ (s p).begunOn u, p.began ≤ x.began) ∧
    ((s (o 63 0x30)).held 63 = false ∧ ((s (o 63 0x30)).seq 63).queue.find? (fun x => x.began == 0) = some (o 63 0x30) ∧
      ∀ u ∈ (s (o 63 0x30)).passTiles (o 63 0x30), (((s (o 63 0x30)).begunOn u).filter fun x => bit x.w0 23).length < 2) := by
  and_intros <;> decide +kernel

theorem witness_IntegerArithmeticIsExact :
    (0xFF < 2 ^ (8 * tySize 6) ∧ sgn 8 0x7F + sgn 8 0x7F > 2 ^ 7 - 1 ∧ sgn 8 0x80 + sgn 8 0x80 < -2 ^ 7 ∧ sgn 8 1 + sgn 8 1 ≤ 2 ^ 7 - 1) ∧
    (let p := decodePass (2 ^ 51) 0 0 (fun _ => 0)
     p.accLo ≤ p.accLo ∧ p.accLo ≤ p.accHi ∧ (decodePass (2 ^ 49) 0 0 (fun _ => 0)).wrap = true ∧
     p.accLo ≤ 0 + (((([1] : List Int).zip [1]).take 1).map fun x => x.1 * x.2).sum) := by and_intros <;> decide +kernel

/-- A valid descriptor: four hot rows of 32 bytes at 4 GiB, served to every device. -/
def tableWords : List Nat := [7 + 32 * 2 ^ 16, 0x100000000, 4, 4, 0, 0, 0x100 + 255 * 2 ^ 24, 0]

/-- Table 1023 has that descriptor, its word 0 as given. -/
def tabled (w0 : Nat) : State :=
  { up with tab := { desc := (List.range 8).map fun w => (1023 * 8 + w, if w = 0 then w0 else tableWords.getD w 0) } }

theorem witness_TablesTagsAndGathers :
    let w0 := tableWords.getD 0 0
    let off := tabled 0
    let on : State := (tabled w0).setObj Obj.HOT_CACHE_KIB 32768
    let v := 2 ^ 63 + 1023 * 2 ^ 40 + 3
    let c : TagCopy := { slot := 16383, value := v, req := none }
    let read (ag : Agent) (job ga st : Nat) : BufLine := { ag := ag, job := job, ga := ga, n := 32, status := st, bytes := zeros 32, mark := 0 }
    let copy (c : TagCopy) (b : List BufLine) (o : List Outst) : State := { on with tab := { on.tab with copies := [c] }, net := { buf := b, outst := o } }
    let row (b : List BufLine) := (copy c b []).rowAt (.gather 0) (2 + 16383) ((copy c b []).desc (bits c.value 40 10)) (bits c.value 0 40)
    let hot : Outst := { node := 0, tc := 2, tag := 0, agent := .gather 0, kind := .wr, use := .hot 16383 }
    let o : UnitOp := { id := 5, seq := 135, slot := 0, opcode := 0x33, w0 := enc 0x33 [(46, 1023), (0, 1)], w1 := 1, w2 := 0, x := [], ctx := 0, word := 0 }
    let g (x : Gather) : State := { (on.setSeq 135 { queue := [o] }) with tab := { on.tab with ge := [(15, { x with op := some 5 })] } }
    let bag : Bag := { no := 0, lookups := 1, todo := [{ owner := 0, no := 0, slice := 0, rows := [(0, 0)] }], parts := [] }
    let q : Packet := { pkt .gatherReq 0 0 with table := 1023, pool := 1, len := 1, data := zeros 8 }
    let bad : Packet := { q with pool := 5 }
    let serve (q : Packet) (b : List BufLine) : State := { on with tab := { on.tab with ge := [(15, { serve := [q] })] }, net := { buf := b } }
    let m : UnitOp := { id := 6, seq := 136, slot := 0, opcode := 0x37, w0 := enc 0x37 [(48, 15), (0, 1)], w1 := 0, w2 := 0, x := [], ctx := 0, word := 0 }
    let run (x : Coll) : State := { (up.setSeq 136 { queue := [m] }) with tab := { coll := { x with op := some 6 } } }
    let st (post : Nat) : List Byte := padTo 32 (zeros 16 ++ leBytes 4 8 ++ leBytes 2 0 ++ leBytes 2 post ++ [0, 1])
    let step (post : Nat) (w : Bool) : StepRun := { idx := 0, bytes := st post, waiting := w, sinceNs := 0, pos := 8 }
    let full : State := { run { flying := [step (2 ^ 15) false] } with str := { jess := [(0, { fill := 65535 })] } }
    let late : State := { run { flying := [step 0 true] } with str := { waiters := [{ sem := 0, count := 1, who := .coll, tmo := 1 }] }, timeNs := 2 ^ 63 }
    (on.geUp = true ∧ 1023 < 1024 ∧ w0 < 2 ^ 64 ∧ bit (on.descWord 1023 0) 0 = true ∧ bit (off.descWord 1023 0) 0 = false ∧ bit 0 0 = false ∧
      bit w0 0 = true ∧ descCheckWords off.devId (fun w => if w = 0 then w0 else off.descWord 1023 w) = 0 ∧
      descCheckWords off.devId (fun w => if w = 0 then w0 + 16 else off.descWord 1023 w) ≠ 0 ∧ bit (w0 + 16) 0 = true) ∧
    (16383 < 16384 ∧ v < 2 ^ 64 ∧ bit v 63 = true ∧ bits v 50 13 = 0 ∧ bits (2 ^ 62) 50 13 ≠ 0 ∧ bit 0 63 = false ∧ bits 0 50 13 = 0 ∧ (on.hotTagWrite 16383 v none).1 = none ∧
      bit (({ on with tab := { on.tab with tags := [(16383, v)] } } : State).hotTag 16383) 63 = true) ∧
    ((copy c [] []).tab.copies.find? (fun c => c.slot == 16383) = some c ∧ (copy c [] []).reply (unitOf 5 0) = .deliver ∧
      (copy c [] []).safety.safe = false ∧ c.wrote = false ∧ (copy { c with wrote := true } [] []).writing (.hot 16383) = false ∧
      (copy { c with wrote := true } [] [hot]).writing (.hot 16383) = true ∧
      (copy { c with wrote := true } [] [hot]).tab.copies.find? (fun c => c.slot == 16383) = some { c with wrote := true } ∧
      (row []).1 = none ∧ (row [read (.gather 0) (2 + 16383) 96 Sc.accessDenied]).1.any (fun a => isFaultStatus a.status) = true ∧
      (row [read (.gather 0) (2 + 16383) 96 0]).1.any (fun a => !isFaultStatus a.status &&
        ((row [read (.gather 0) (2 + 16383) 96 0]).2.putPieces (.gather 0) 2 false
          ((row [read (.gather 0) (2 + 16383) 96 0]).2.hotPiece 16383 a.bytes.length) a.bytes a.mark (.hot 16383)).isSome) = true) ∧
    ((∀ x ∈ [{ stop := 1 }, { bags := [bag] }, ({} : Gather)], (g x).geLive 15 = true ∧ (g x).gxHead 15 = some o ∧ ((g x).ge 15).op = some o.id) ∧
      [bag].find? (fun b => !b.todo.isEmpty) = some bag ∧ ([] : List Bag).find? (fun b => !b.todo.isEmpty) = none ∧
      0 < gBags { w0 := o.w0, w1 := o.w1 }) ∧
    ((serve bad []).serveCheck bad ≠ 0 ∧ (serve q []).serveCheck q = 0 ∧ (serve q []).reply (unitOf 5 15) = .deliver ∧ ((serve q []).ge 15).serve = [q] ∧
      (((serve q []).setGe 15 { (serve q []).ge 15 with serve := [] }).chunkRows (.gather 15) 1 1023 [0]).1 = none ∧
      (serve q [read (.gather 15) 1 0 0]).serveCheck q = 0 ∧
      (((serve q [read (.gather 15) 1 0 0]).setGe 15 { (serve q []).ge 15 with serve := [] }).chunkRows (.gather 15) 1 1023 [0]).1.any
        (fun as => (as.find? fun a => isFaultStatus a.status).isNone) = true) ∧
    (let w := 2 ^ 63 + 4 * 2 ^ 24 + 255 * 2 ^ 8
     15 < 16 ∧ bit w 63 = true ∧ w < 2 ^ 64 ∧ bits w 27 36 = 0 ∧ bits w 22 2 = 0 ∧ bits w 24 3 ≤ 4 ∧ bits w 8 8 ≠ 0 ∧ up.moultNames 15 = false ∧
     (run {}).moultNames 15 = true ∧ (143 < 256 ∧ bits 143 4 3 = 0) ∧ up.moulting = false ∧ (run {}).moulting = true) ∧
    ((run {}).headOp 136 = some m ∧ (run {}).coll.op = some m.id ∧ (run {}).collLive = true ∧ (run { fail := some (0, 1) }).coll.flying = [] ∧ (run { done := [0] }).coll.flying = [] ∧ (run { done := [0] }).net.outst = [] ∧
      (∀ w ∈ [true, false], ∀ p ∈ [0, 2 ^ 15], (run { flying := [step p w] }).coll.flying.find? (fun r => r.idx == 0) = some (step p w) ∧
        (run { flying := [step p w] }).collLive = true ∧ (run { flying := [step p w] }).safety.safe = false ∧ stBytes (st p) ≤ 8 ∧
        (run { flying := [step p w] }).writing (.step 0) = false) ∧
      bit (stPost (st 0)) 15 = false ∧ bit (stPost (st (2 ^ 15))) 15 = true ∧ stPostDev (st (2 ^ 15)) = up.devId ∧
      (((run { flying := [step (2 ^ 15) false] }).counted .coll).post (stSem (stPost (st (2 ^ 15)))) 1).1 = true ∧
      ((full.counted .coll).post (stSem (stPost (st (2 ^ 15)))) 1).1 = false ∧
      (late.waitOf .coll).any (fun w => (tmoNs w.tmo).any fun lim => decide (w.sinceNs + lim ≤ late.timeNs)) = true ∧
      (late.coll.flying.find? (fun r => r.idx == 0)) = some (step 0 true) ∧
      (run { done := [0] }).coll.fail = none ∧ schedSteps m ≤ 1 ∧ isMoult m = true ∧ mTo m < 16) := by and_intros <;> decide +kernel

theorem witness_BoundaryCommitsRunInTurn :
    let s (x : EpochDom) : State := { up with ep := { doms := [(31, x)], moves := [(0, 31)], cfgw := [(0, 1, 1)] } }
    let mine (x : EpochDom) : State := (s x).setObj (Obj.UNIT_DOMAIN 0 0) 31
    let tick : State := { (up.setObj (Obj.ED_SOURCE 31) 2).setObj (Obj.ED_SOURCE_ARG 31) 10 with timeNs := 10000 }
    let pin := (up.setObj (Obj.ED_SOURCE 31) 5).setObj (Obj.ED_SOURCE_ARG 31) 3
    let low : State := { up with ep := { outLow := [(3, 1)] } }
    ((s {}).epoch 31).commit = .idle ∧ ((s { commit := .holding }).epoch 31).commit ≠ .idle ∧ ((s { commit := .holding, again := true }).epoch 31).again = true ∧
    (((s { commit := .applied }).epoch 31).commit = .applied ∧ ∀ m ∈ (s { commit := .applied }).ep.moves, m.1 < 201) ∧
    (((mine { commit := .holding }).epoch 31).commit = .holding ∧ (∀ e ∈ (mine { commit := .holding }).cfgwOf 31, e.2.1 = 1 →
      (mine { commit := .holding }).draining e.1 = false) ∧ (mine { commit := .holding }).cfgwOf 31 = [(0, 1, 1)]) ∧
    (2 ≤ tick.stage ∧ tick.edSource 31 = 2 ∧ tick.timeNs % (tick.edArg 31 * 1000) = 0 ∧ (tick.epoch 31).tickNs ≠ tick.timeNs ∧
      ((s { tickNs := 0 }).epoch 31).tickNs = (s {}).timeNs) ∧
    (3 < 4 ∧ 31 < 32 ∧ pin.edSource 31 = 5 ∧ pin.edArg 31 = 3 ∧ pin.edSource 0 ≠ 5) ∧
    (SMap.get 0 low.ep.outLow 3 ≠ 0 ∧ SMap.get 0 low.ep.outLow 3 ≤ low.timeNs + 1) := by and_intros <;> decide +kernel

/-- A modulus and a primitive root for a ring of 2^10. -/
def chained (x : Chain) : State :=
  { up with cat := { chains := [(15, { x with q := [(0, 2147493889)], psi := [(0, 1135516279)] })] } }

theorem witness_ChainsAreCheckedAndClosed :
    let v := 2 ^ 63 + 2 ^ 8 + 10
    let busy : State := (chained { ctrl := v }).setSeq 96 { queue := [{ id := 0, seq := 96, slot := 0, opcode := 0x32, w0 := enc 0x32 [(48, 0x18)], w1 := 15, w2 := 0, x := [], ctx := 0, word := 0 }] }
    let closing : State := chained { ctrl := v, closing := 1 }
    (2 ^ 31 < 2147493889 ∧ 2147493889 < 2 ^ 60 ∧ 2 ^ 63 < 2 ^ (2 * (Nat.log2 2147493889 + 1))) ∧
    (2 ≤ (chained {}).stage ∧ (chained {}).safety.safe = false ∧ bit v 63 = true ∧ (((chained {}).chain 15).check v).1 = Sc.ok) ∧
    (((chained {}).chain 15).check (v + 2 ^ 8)).1 ≠ Sc.ok ∧ (bit (2 ^ 22) 63 = false ∧ bits (2 ^ 22) 22 41 ≠ 0) ∧
    (bit 0 63 = false ∧ bits 0 22 41 = 0 ∧ bits 0 14 2 = 0 ∧ bits 0 5 3 = 0 ∧ (((chained {}).chain 15).valid && (chained {}).chainBusy 15) = false) ∧
    ((busy.chain 15).valid && busy.chainBusy 15) = true ∧
    ((closing.chain 15).closing ≠ 0 ∧ closing.chainBusy 15 = false) ∧
    (up.drbgUp = false ∧ up.sup.keeperHeld = false ∧ up.drbg.healthy = true) := by and_intros <;> decide +kernel

/-- Sensor port 7 in this mode, with this state. -/
def sensing (mode : Nat) (x : Sp := {}) : State := { up with ev := { sps := [(7, x)] } }.setObj (Obj.SP_MODE 7) mode

/-- Event core 15 with a layer of these leading bytes. -/
def spiking (x : Sec) (lead : List Byte) : State :=
  { up with ev := { secs := [(15, { x with running := true, layer := some { which := 0, bytes := padTo 1152 lead, ctx := 0, ring := 0 } })] } }

theorem witness_PortsAndCoresHandleEvents :
    let cfg := 2 ^ 63 + 7 * 2 ^ 48
    let sems (s : State) (f e : Nat) : State := { s with str := { jess := [(7, { fill := f, free := e })] } }
    let s3 := sensing 3 { frCfg := cfg }
    let faulted := s3.setUnitSt (unitOf 4 7) .faulted
    let e := 2 ^ 25 * 7
    let l0 (mode : Nat) : List Byte := zeros 4 ++ leBytes 2 1 ++ leBytes 2 1 ++ [2, 1, 1, 1, 0, 0x80, 0] ++ leBytes 1 mode
    let x : Sec := { queue := [(e, 0)] }
    let lay (mode : Nat) : Layer := { which := 0, bytes := padTo 1152 (l0 mode), ctx := 0, ring := 0 }
    let some_ : Neuron := { v := 5, ref := 0, tUpd := 0 }
    let b : BinOut := { todo := [], mark := 0, pair := 7, dev := 0, epoch := true, replay := false }
    let dom (src arg : Nat) (s : State) : State := (s.setObj (Obj.ED_SOURCE 31) src).setObj (Obj.ED_SOURCE_ARG 31) arg
    (faulted.spReceives 7 = false ∧ faulted.safety.safe = false ∧ (sensing 0).spReceives 7 = true ∧ (sensing 0).spMode 7 = 0 ∧
      s3.spReceives 7 = true ∧ s3.spMode 7 = 3 ∧ s3.obj (Obj.SP_VC 7) = 0 ∧ (1 : Nat) ≠ 0 ∧ 1 < 2) ∧
    ((dom 3 7 s3).edSource 31 = 3 ∧ (dom 3 7 s3).edArg 31 = 7 ∧ (dom 3 7 s3).edSource 0 ≠ 3) ∧
    ((s3.sp 7).inFrame = false ∧ bit (s3.sp 7).frCfg 63 = true ∧ (sems s3 0 1).sem (semOf (frPair cfg) 1) ≠ 0 ∧ s3.sem (semOf (frPair cfg) 1) = 0 ∧
      (((sensing 3 { inFrame := true }).sp 7)).inFrame = true ∧ (sensing 1).spMode 7 = 1 ∧ (sensing 1).inWidth 7 = 64) ∧
    (s3.obj (Obj.SP_DATA_TYPE 7) ≠ 2 ∧ s3.obj (Obj.SP_DATA_TYPE 7) ≠ 3 ∧ (s3.sp 7).armed = false) ∧
    (let m (s : State) (w : Nat) := (List.range 16).filter (fun r => bit (s.ruleWord 7 r 2) 63 && Nat.land w (s.ruleWord 7 r 0) == s.ruleWord 7 r 1)
     let k := (sensing 1).ruleWord 7 0 2
     m (sensing 1) 0 = [0] ∧ bits k 60 2 = 0 ∧ bits 0 (bits k 8 6) (bits k 16 4) < bits ((sensing 1).obj (Obj.SP_GEOMETRY 7)) 0 13 ∧
     bits 0 (bits k 24 6) (bits k 32 4) < bits ((sensing 1).obj (Obj.SP_GEOMETRY 7)) 16 13 ∧
     m ((sensing 1).setRule 7 0 0 0 0) 0 = [] ∧ m ((sensing 1).setRule 7 0 0 0 (2 ^ 63 + 2 ^ 60)) 0 = [0] ∧
     bits (((sensing 1).setRule 7 0 0 0 (2 ^ 63 + 2 ^ 60)).ruleWord 7 0 2) 60 2 = 1) ∧
    (let s : State := sensing 3 { frCfg := cfg, ended := [2 ^ 32 - 1] }
     (s.sp 7).todo = [] ∧ (s.sp 7).ended = [2 ^ 32 - 1] ∧ s.writing (.line 7 (2 ^ 32 - 1)) = false ∧ s.sem (semOf (frPair cfg) 0) < 65535 ∧ (s.sp 7).fifo = []) ∧
    (bit (2 ^ 62) 63 = false ∧ Nat.land (2 ^ 63 + 64) 0x780000000000F8C0 ≠ 0 ∧ bit cfg 63 = true) ∧
    (some_.tUpd < 2 ^ 32 ∧ some_.ref ≤ 2 ^ 31 - 1 ∧ 0 < ({ v := 5, ref := 1, tUpd := 0 } : Neuron).ref) ∧
    ((spiking x []).secRuns 15 = true ∧ ((spiking x []).sec 15).queue = [(e, 0)] ∧ ((spiking x []).sec 15).layer = some { which := 0, bytes := padTo 1152 [], ctx := 0, ring := 0 } ∧
      ({ which := 0, bytes := padTo 1152 [], ctx := 0, ring := 0 } : Layer).accepts e = false ∧ (lay 1).accepts e = true ∧ (lay 1).binMode ≠ 0 ∧
      (({ spiking x [] with ev := { secs := [(15, { x with running := true })] } } : State).sec 15).layer = none ∧
      ({ spiking x [] with ev := { secs := [(15, { x with running := true })] } } : State).secRuns 15 = true) ∧
    ((lay 0).accepts e = true ∧ atOrAfter (evTime e) (0 + 2 ^ 30) = false) ∧
    ((spiking { binOpen := true } (l0 0)).secUp 15 = true ∧ (lay 0).binMode = 0 ∧ (lay 1).binMode = 1 ∧ (lay 0).tensor = false ∧
      ((spiking { binOpen := true } (l0 0)).sec 15).batch = [] ∧ 255 < up.obj (Obj.SEC_EVT_CQ 15)) ∧
    (let s : State := spiking { outs := [b] } []
     (s.sec 15).outs = [b] ∧ b.todo = [] ∧ s.writing (.opWrite (.sec 15)) = false ∧ b.dev = s.devId ∧ s.sem (semOf b.pair 0) < 65535 ∧
     (dom 4 15 s).edSource 31 = 4 ∧ (dom 4 15 s).edArg 31 = 15) := by and_intros <;> decide +kernel

/-- An image header: a partial load of one region with this mask, all zero but the fixed fields. -/
def imageHeader (mask : Nat) : List Byte :=
  padTo 512 (leBytes 4 0xFAB10001 ++ [1, 1] ++ zeros 2 ++ leBytes 4 0 ++ leBytes 4 mask ++ leBytes 4 5242880)

/-- The configuration controller at this step of a load, region 15 running. -/
def loading (l : Load) (r : Region_ := { st := 2 }) (p : Fport := {}) : State :=
  { up with fab := { load := l, regions := [(15, r)], ports := [(15, p)] } }

theorem witness_LogicFabricLoadsAndServes :
    let h := imageHeader (2 ^ 15)
    let got : Load := { step := 1, header := h, got := 512 }
    let w : Packet := { pkt .wr 0 0 with len := 8 }
    let m : State := loading {} { st := 2, flags := 2, esig := 2 }
    let far (s : State) (cmd fl : Nat) : Bool :=
      let t := s.xlateRange (s.obj (Obj.FP_CTX 15)) 0x100000000 8 (cmd == 0) (cmd == 1)
      let ga := (t.2.1.headD (0, 0, 0)).1
      t.1 == 0 && regionOf (ga % 2 ^ 56) != .mmio && bits (t.2.2.2.region 15).flags 1 1 == fl &&
        (t.2.2.2.destNode (ga / 2 ^ 56) (ga % 2 ^ 56)).isSome
    let shut (st : UState) : State := m.setUnitSt (unitOf 9 15) st
    let low : State := { m with sup := { m.sup with band := .hold } }
    let busy : State := loading {} { st := 2 } { masters := List.replicate 1024 { oid := 0, tag := 0, mmio := false } }
    (bit 3 0 = true ∧ Nat.land 3 0xFFFFFFFFFFFFFECE ≠ 0 ∧ bits 0x31 4 2 = 3 ∧ ¬(Nat.land 0x21 0xFFFFFFFFFFFFFECE ≠ 0 ∨ bits 0x21 4 2 = 3) ∧
      bit 0x21 0 = true ∧ bit 0x21 8 = false ∧ bit 0x100 8 = true ∧ bit 0x100 0 = false ∧ ¬(Nat.land 0x100 0xFFFFFFFFFFFFFECE ≠ 0 ∨ bits 0x100 4 2 = 3) ∧
      (loading {}).fab.load.step = 0 ∧ (loading got).fab.load.step ≠ 0) ∧
    (15 ∈ loadRegions { got with step := 2 } ∧ 0 ∉ loadRegions { got with step := 2 } ∧ (loading got).fabPaused = false) ∧
    (¬(({} : Load).source = 0 ∧ (({} : Load).step = 1 ∨ ({} : Load).step = 2)) ∧ 504 < 512 ∧ 512 ≤ got.got ∧ got.got + 8 ≤ 512 + hdrBody h) ∧
    (hdrReserved (zeros 512) = true ∧ hdrReserved h = false ∧ hdrBound h = false ∧ hdrReserved (imageHeader 3) = false ∧ hdrBound (imageHeader 3) = true ∧
      (hdrTrusted h = true ∨ hdrTrusted h = false)) ∧
    (512 + hdrBody h = 5243392 ∧ (hdrRegions h)[0]? = some 15 ∧ bit (hdrMask h) 15 = true ∧
      bit (hdrMask (h.set 5 0)) 0 = false ∧ 0 ∈ loadRegions { got with header := h.set 5 0 }) ∧
    (m.obj Obj.CFG_SCRUB_PERIOD_MS ≠ 0 ∧ m.scrubNext = some (15, 0, false) ∧ (m.region 15).upset = [] ∧ ones72 (2 ^ 71) = 1 ∧
      m.obj Obj.FABRIC_UE_ACTION ≠ 1) ∧
    (low.fabPaused = true ∧ (loading got).fab.heldData = []) ∧
    ((m.region 15).st = 2 ∧ m.safety.safe = false ∧ (m.fport 15).waiting = []) ∧
    (busy.obj (Obj.FP_MAX_OUTSTANDING 15) ≤ (busy.fport 15).masters.length ∧ (m.fport 15).masters.length < m.obj (Obj.FP_MAX_OUTSTANDING 15) ∧ 2 < 3) ∧
    (∀ st ∈ [UState.faulted, .hooded], (shut st).unitSt (unitOf 9 15) = st ∧
      ((shut st).fport 15).masters.length < (shut st).obj (Obj.FP_MAX_OUTSTANDING 15)) ∧
    (m.unitSt (unitOf 9 15) = .ready ∧ (m.dom (unitOf 9 15)).phase = .open_ ∧ 128 < 129 ∧ 128 < 127 % 128 + 2 ∧ 0x100000000 % 128 + 8 ≤ 128 ∧
      ∀ cmd ∈ [0, 1], far m cmd 1 = true ∧ far (loading {}) cmd 0 = true) ∧
    (let s := loading {} {} { targets := [(1023, w)] }
     (s.fport 15).targets.find? (fun e => e.1 == 1023) = some (1023, w) ∧ w.kind = .wr ∧ ({ w with kind := .rdReq } : Packet).kind = .rdReq) ∧
    ((m.region (31 / 2)).st = 2 ∧ bit (m.region (31 / 2)).esig (31 % 2) = true ∧ bit (m.region (30 / 2)).esig (30 % 2) = false ∧
      (let d := (m.setObj (Obj.ED_SOURCE 31) 7).setObj (Obj.ED_SOURCE_ARG 31) 31
       d.edSource 31 = 7 ∧ d.edArg 31 = 31)) := by
  and_intros
  all_goals first
    | decide +kernel
    | exact (Bool.eq_false_or_eq_true _)

/-- Port 19 with this state, its lane 7 with that one. -/
def cabled (x : Phy) (y : Lane) : State := { up with link := { ports := [(19, x)], lanes := [(159, y)] } }

/-- A training header of step, rates, port and device, its CRC over bits 95:0. -/
def trainingHeader (step rates port dev : Nat) : Nat :=
  let w := 0xE81B3C96 + step * 2 ^ 32 + rates * 2 ^ 35 + port * 2 ^ 41 + dev * 2 ^ 49
  w + crc32 96 w * 2 ^ 96

theorem witness_LanesTrainAndReport :
    let h := trainingHeader 2 15 3 255
    let far : Lane := { step := 1, rx := 0, heard := 8, hdr := trainingHeader 1 15 3 255 }
    let here := cabled { step := 1 } far
    let lanes (y : Nat → Lane) (x : Phy) : State := { up with link := { ports := [(19, x)], lanes := (List.range 8).map fun l => (152 + l, y l) } }
    let ffe : Lane := { step := 4, main := 64, hdr := 3 * 2 ^ 32 + 2 ^ 57 }
    let idle (x : Phy) (m : Nat) : State := (cabled x { step := 2 }).setObj (Obj.PH_LANE_MASK 19) m
    let hooded := (cabled {} {}).setUnitSt (phUnit 19) .hooded
    (({ step := 1 } : Phy).step = 1 ∧ ({ step := 1 } : Phy).conflict = false ∧ bit 0xFF 7 = true ∧ bit 0x0F 7 = false ∧ up.obj (Obj.PH_LANE_MASK 19) < 256) ∧
    ((here.phy 19).framing = false ∧ (here.lane 19 7).rx = 0 ∧ (here.lane 19 7).step ≠ 0 ∧ (here.lane 19 7).step ≠ 2 ∧
      trainingValid 0 = false ∧ trainingValid h = true ∧ Th.step h = 2 ∧ commonRate ({ step := 3 } : Phy).rates (Th.rates h) = some 3) ∧
    (here.withPresence 19 = [7] ∧ here.idConflict 19 = false) ∧
    ((lanes (fun l => { far with hdr := trainingHeader 1 15 (3 + l / 4) 255 }) { step := 1 }).withPresence 19 = [0, 1, 2, 3, 4, 5, 6, 7] ∧
      Th.port (trainingHeader 1 15 4 255) ≠ Th.port (trainingHeader 1 15 3 255)) ∧
    (let s := lanes (fun _ => { step := 3, sawRate := true, sel := 8, partnerReady := true, good := 8 }) { step := 3, set := 0xFF, rateSel := some 3 }
     let keep := (lanesOf (s.phy 19).set).filter fun l => (s.lane 19 l).sawRate
     keep = lanesOf 0xFF ∧ setAcceptable ((keep.map fun l => 2 ^ l).sum) = true ∧ (∀ l ∈ keep, 8 ≤ (s.lane 19 l).sel ∧ (s.lane 19 l).partnerReady = true)) ∧
    (∀ l ∈ lanesOf 0xFF, let s := lanes (fun _ => { step := 6, partnerReady := true }) { step := 6, set := 0xFF }
      if (s.lane 19 l).step = 3 then 8 ≤ (s.lane 19 l).good ∧ (s.phy 19).switched = true else (s.lane 19 l).partnerReady = true) ∧
    (2 ≤ ({ fails := 2, rateSel := some 3, failSel := some 3 } : Phy).fails ∧ ({ rateSel := some 3 } : Phy).failSel ≠ some 3) ∧
    (ffe.step = 4 ∧ Th.step ffe.hdr = 3 ∧ bit ffe.ffeAt 31 = false ∧ bit ({ ffe with ffeAt := 2 ^ 31 } : Lane).ffeAt 31 = true ∧ ffeLegal ffe.pre ffe.main ffe.post = true ∧
      Th.reqPreset ffe.hdr = 0 ∧ Th.reqPre ffe.hdr = 1 ∧ ffe.stsPre = 0 ∧ Th.reqPreset (3 * 2 ^ 32 + 8 * 2 ^ 63) ≠ 0) ∧
    (∀ st ∈ [1, 2], ((idle { step := st } 0xFF).lane 19 7).step = 2 ∧ ((idle { step := st } 0xFF).phy 19).step = st) ∧
    ((idle { step := 2 } 0xFF).obj (Obj.PH_LANE_MASK 19) = 0xFF ∧ (idle { step := 2 } 0x0F).obj (Obj.PH_LANE_MASK 19) = 0x0F) ∧
    ((lanes (fun _ => { step := 3, sawRate := true }) { step := 3, set := 0xFF }).luring 19 = [] ∧
      (lanes (fun l => { step := if l < 4 then 3 else 1 }) { step := 3, set := 0x0F }).luring 19 = [4, 5, 6, 7]) ∧
    (let x : Phy := { step := 3, switched := true, switchNs := 5000 }
     let s (now : Nat) : State := { cabled x { step := 3, rx := 0 } with timeNs := now }
     (s 6999).timeNs < x.switchNs + 2000 ∧ x.switchNs + 2000 ≤ (s 7000).timeNs ∧ ((s 7000).lane 19 7).rx = 0 ∧ ((s 7000).lane 19 7).los = false) ∧
    ({ step := 7, recalDue := true, rx := 1 } : Lane).recalDue = true ∧
    (far.los = false ∧ far.lol = false ∧ (here.phy 19).step < 3 ∧ bit ({ running := 0x0F } : Phy).running 7 = false ∧ far.recalDue = false) ∧
    (hooded.unitSt (phUnit 19) = .hooded ∧ bits ((hooded.setObj (Obj.PATTERN_CTRL 159) 16).obj (Obj.PATTERN_CTRL 159)) 4 3 ≠ 0) ∧
    (3 < up.phPorts ∧ 5 ≤ up.stage ∧ (up.setObj (Obj.PH_REQUIRED 3) 1).flag (Obj.PH_REQUIRED 3) = true) := by and_intros <;> decide +kernel

/-- Port 19 in this state, its eight lanes in step UP and L0. -/
def lanes8 (x : Phy) : State :=
  { up with link := { ports := [(19, x)], lanes := (List.range 8).map fun l => (152 + l, { step := 7, tx := 0, rx := 0 }) } }

/-- The flits of a codeword: four write flits without data. -/
def fourFlits : Nat := ((List.range 4).map fun i => 2 ^ 125 * 2 ^ (1152 * i)).sum

/-- That codeword as lanes bring it, its check symbols left out. -/
def fourLanes : List (List Nat) :=
  stripe 4 (((List.range 514).map fun i => bits (codewordData fourFlits 0 0) (10 * i) 10) ++ List.replicate 30 0)

set_option maxRecDepth 100000 in
/-- It is read as it was made, its CRC sound. -/
theorem witness_LinkCarriesTransactions_sound :
    (readCodeword fourLanes).crcOk = true ∧ (readCodeword fourLanes).flits = fourFlits ∧ (readCodeword fourLanes).first = 0 ∧
    (readCodeword fourLanes).seq = 0 := by and_intros <;> decide +kernel

/-- What is read, its flits, and the port once it has taken them. -/
def fourRead : Codeword := { flits := fourFlits, first := 0, seq := 0, crcOk := true }
def fourTaken : List LinkFlit := (fourRead.straddling (some (0, 0))).toList ++ fourRead.whole
def fourPort : Phy :=
  Phy.takeFlits fourRead.seq fourTaken { step := 7, framing := true, running := 0xFF, set := 0xFF, part := some fourRead.rest }

theorem witness_LinkCarriesTransactions_wellFormed : fourRead.first ≤ 1151 ∧ (fourTaken.all fun f => !flitBad f.hdr) = true :=
  ⟨by decide, by decide +kernel⟩

theorem witness_LinkCarriesTransactions_taken : fourPort.accepted < up.obj Obj.ACK_INTERVAL := by decide +kernel

set_option maxRecDepth 100000 in
theorem witness_LinkCarriesTransactions :
    let on : Phy := { step := 7, framing := true, running := 0xFF, set := 0xFF }
    let s (x : Phy) : State := (lanes8 x).setObj (Obj.PH_LINK_ENABLE 19) 1
    let f (kind : Nat) : LinkFlit := { hdr := kind * 2 ^ 124, payload := zeros 128 }
    let ctl (op arg : Nat) : Nat := 0xE * 2 ^ 124 + op * 2 ^ 120 + arg * 2 ^ 64
    let c (op arg : Nat) (x : Phy) : Nat × State := ((s { x with ctl := [ctl op arg] }).ctlHead 19 [op]).getD (4096, s x)
    let hooded := (s on).setUnitSt (phUnit 19) .hooded
    ((s on).safety.safe = false ∧ (s on).phy 19 = on ∧ 7 ≤ ({ on with badCodewords := 7 } : Phy).badCodewords ∧ on.badCodewords < 7 ∧
      (s on).sup.inMews = false ∧ (readCodeword []).crcOk = false ∧ on.fullNs = 0) ∧
    (fourFlits < 2 ^ 5088 ∧ 0 < 2 ^ 11 ∧ 0 < 512) ∧
    (on.rxSeq < 512 ∧ bits (f 2).hdr 124 4 ≠ 0xE ∧ 511 ≠ on.rxSeq ∧ on.nakGiven = false) ∧
    (linkKind (f 15).hdr = none ∧ linkKind (f 9).hdr = some .rdRsp ∧ PKind.rdRsp.response = true ∧ linkKind (f 2).hdr = some .wr ∧
      PKind.wr.response = false) ∧
    ((s on).linkRequest 19 (f 5) .jessPost).isSome = true ∧
    (bit (ctl 0 0) 110 = false ∧ on.txq = []) ∧
    (∀ o ∈ [0, 8, 15], (c o 0 on).1 = 0) ∧
    ((c 1 2 on).1 = 2 ∧ ((c 1 2 on).2.phy 19).framing = true ∧ (c 1 3 on).1 = 3 ∧
      (c 2 2 { on with pmWait := some 2 }).1 = 2 ∧ ((c 2 2 { on with pmWait := some 2 }).2.phy 19).pmWait = some 2) ∧
    ((c 3 0x7F on).1 = 0x7F ∧ bits 0x7F 0 4 ≠ 0) ∧
    ((c 4 0xF0 on).1 = 0xF0 ∧ ((c 4 0xF0 on).2.phy 19).running = 0xFF ∧ ((c 4 0xF0 on).2.phy 19).laneReq = none ∧
      ((c 4 0xF0 { on with laneReq := some 0x0F }).2.phy 19).laneReq = some 0x0F) ∧
    ((c 5 0xFF { on with running := 0xF0 }).1 = 0xFF ∧ ((c 5 0xFF { on with running := 0xF0 }).2.phy 19).running ≠ 0xFF ∧
      (c 5 0xFF { on with running := 0xF0 }).2.halfOk 19 0xFF = true) ∧
    ((c 6 0 on).1 = 0 ∧ (c 7 0 on).1 = 0 ∧ hooded.unitSt (phUnit 19) ≠ .ready ∧
      (let r := (c 7 0 { on with openTx := true }).2
       r.obj (Obj.PH_LINK_ENABLE 19) = 1 ∧ r.unitSt (phUnit 19) = .ready ∧ (r.phy 19).txq = [] ∧ (r.phy 19).openTx = true)) ∧
    (on.laneReq = none ∧ on.freed.length = 8 ∧ 15 < 16 ∧ 4095 < 4096) ∧
    (0 < ({ on with accepted := 1 } : Phy).accepted ∧ on.unacked = [] ∧ ({ on with unacked := [(0, f 2)] } : Phy).unacked ≠ [] ∧
      on.replays + 1 ≤ (s on).obj Obj.REPLAY_LIMIT ∧ (s on).obj Obj.REPLAY_LIMIT < ({ on with replays := 4 } : Phy).replays + 1) ∧
    (((s on).lane 19 ((lanesOf on.running).headD 0)).tx = 0 ∧ bits ((s on).obj (Obj.IDLE_TIMERS 19)) 0 16 ≠ 0 ∧
      bits (((s on).setObj (Obj.IDLE_TIMERS 19) (10 + 10 * 2 ^ 16)).obj (Obj.IDLE_TIMERS 19)) 16 16 ≠ 0 ∧ on.pmWait = none) := by and_intros <;> decide +kernel

/-- A read that a port received waits behind an earlier one of its requester to the line that left by another route (R373). -/
theorem witness_LinkRequestWaits :
    let f : LinkFlit := { hdr := 1 * 2 ^ 124 + 1 * 2 ^ 122 + 8 * 2 ^ 17 + 1 * 2 ^ 109, payload := zeros 128 }
    let s : State := (lanes8 { step := 7, framing := true, running := 0xFF, rx := [f] })
    let u := s.setPhy 19 { s.phy 19 with rx := [] }
    let ag := (u.flitPacket 19 f .rdReq).1.agent
    let o : Outst := { node := 0, tc := 1, tag := 0, agent := ag, kind := .rdReq, line := 1, route := some 5 }
    (s.phy 19).rx = [f] ∧ linkKind f.hdr = some .rdReq ∧
    ({ u with net := { u.net with outst := [o] } } : State).linkRequest 19 f .rdReq = none := by and_intros <;> decide +kernel

theorem witness_CareCommandsAct :
    let scanMode := up.setObj Obj.BOOT_MODE_SAMPLED 4
    (2 ≤ up.stage ∧ up.safety.safe = false ∧ up.live = true ∧ hasTest 11 = true ∧ up.obj (Obj.TEST_INTERVAL_S 11) ≠ 0 ∧
      (up.scheduled 11).find? (fun u => SMap.get 0 up.safety.schedNext 11 ≤ unitIndex u) = some 200) ∧
    (up.safety.drift = [] ∧ 0 < up.obj Obj.AGING_WARN_MV - 1 ∧ up.safety.driftOver = []) ∧
    (up.sup.coldReset = false ∧ up.safety.hourBits < 2048 ∧ (up.setObj Obj.COOLANT_WATCH_S 600).obj Obj.COOLANT_WATCH_S ≠ 0 ∧ up.cool.fallback = false) ∧
    (scanMode.obj Obj.BOOT_MODE_SAMPLED = 4 ∧ 1 ≤ scanMode.stage ∧ up.obj Obj.BOOT_MODE_SAMPLED ≠ 4) := by and_intros <;> decide +kernel

/-! Ill-formed commands, one for each check of WellFormed. -/

theorem test_wf_supply_and_bringup : (Instr.powerOn 65536).wf = false ∧ (Instr.vinFastDrop 65536).wf = false ∧
    (Instr.coldResetRelease 8).wf = false ∧ (Instr.refclkLoss (.lane 5)).wf = false ∧ (Instr.vinBandEntry .hold { now := 7000, low := 7001 }).wf = false ∧ (Instr.refclkLaneReturn 5).wf = false ∧
    (Instr.thermalCompare []).wf = false ∧ (Instr.thermTrip 64).wf = false ∧ (Instr.thermTrip 63).wf = true ∧
    (Instr.stageReached { timeUs := 2 ^ 32, lpChannels := [], lpTrains := [], hbRepairs := [], hbFail := 0, unitFail := [], pcieRate := 6, pcieWidth := 16, pcieCommon := 6 }).wf = false := by and_intros <;> decide +kernel

theorem test_wf_transports : (Instr.canRequestRx { ident := 2 ^ 11, fd := true, extended := false, remote := false, data := [] }).wf = false ∧
    (Instr.canRequestRx { ident := 0, fd := false, extended := false, remote := false, data := zeros 9 }).wf = false ∧
    (Instr.t1sRequestRx { dst := 2 ^ 48, src := 0, etherType := 0, payload := [] }).wf = false ∧
    (Instr.transportConfigApply 0x120000).wf = false := by and_intros <;> decide +kernel

theorem test_wf_units : (Instr.unitObjectApply 201).wf = false ∧ (Instr.selftestComplete 201 .pass 0 0 []).wf = false ∧
    (Instr.selftestScheduleTick 12).wf = false ∧ (Instr.inputPowerCapControl 65536).wf = false ∧ (Instr.logReadWrite (2 ^ 32)).wf = false ∧
    (Instr.repairProgramDone 64).wf = false := by and_intros <;> decide +kernel

theorem test_wf_host : (Instr.pcieConfigRequest 64 .vendorId none).wf = false ∧ (Instr.pcieLinkUp { got := 5, common := 4 } 16).wf = false ∧ (Instr.pcieLinkUp { got := 5, common := 5 } 16).wf = true ∧ (Instr.functionLevelReset 64).wf = false ∧
    (Instr.registerWrite 0 0 0 (some 0)).wf = false ∧ (Instr.registerWrite 0 0 4 (some (2 ^ 32))).wf = false ∧ (Instr.registerWrite 0 0 513 none).wf = false ∧ (Instr.ctxBindWrite 0 64 0).wf = false ∧
    (Instr.irqRouteWrite 0 64 0).wf = false ∧ (Instr.bar2CtxWrite 0 (2 ^ 64)).wf = false ∧ (Instr.bar2Write 0 0 []).wf = false ∧
    (Instr.bar2Read 0 0 0).wf = false ∧ (Instr.sqDoorbell 0 256 0).wf = false ∧ (Instr.resume 0 256).wf = false ∧
    (Instr.ringResetDone 256).wf = false ∧ (Instr.msixUnmask 0 2048).wf = false := by and_intros <;> decide +kernel

theorem test_wf_programs : (Instr.nop 153 0).wf = false ∧ (Instr.nop 152 2).wf = false ∧ (Instr.nop 152 1).wf = true ∧
    (Instr.unitOpComplete 153 true).wf = false ∧ (Instr.descriptorStart 440).wf = false ∧ (Instr.jessValueWrite 2048 0).wf = false := by
  and_intros <;> decide +kernel

theorem test_wf_network_and_memory : (Instr.niRequestTimeout 192 0 0).wf = false ∧ (Instr.routeCtrlWrite 0 64 0).wf = false ∧ (Instr.lpRecal 8).wf = false ∧
    (Instr.aptWord0Write 64 0 0).wf = false ∧ (Instr.aptWord1Write 63 4096 0).wf = false ∧ (Instr.aptWord1Write 63 4095 0).wf = true := by
  and_intros <;> decide +kernel

theorem test_wf_tables_epochs_chains : (Instr.tableDescWord0Write 1024 0).wf = false ∧ (Instr.tableDescWordWrite 0 8 0).wf = false ∧
    (Instr.hotTagWrite 16384 0).wf = false ∧ (Instr.hotTagCopyDone 16384).wf = false ∧ (Instr.gatherServe 16).wf = false ∧
    (Instr.phaseMapWrite 16 0).wf = false ∧ (Instr.currentPhaseWrite (2 ^ 32)).wf = false ∧ (Instr.epochTimerTick 32).wf = false ∧
    (Instr.epochInEdge 4).wf = false ∧ (Instr.chainCtrlWrite 16 0).wf = false ∧ (Instr.chainInvalidateDone 16).wf = false := by
  and_intros <;> decide +kernel

theorem test_wf_events_and_fabric : (Instr.spFrameStart 8 0 0).wf = false ∧ (Instr.spLongPacket 0 0 64 0 [] true).wf = false ∧ (Instr.spBeatFlush 8).wf = false ∧
    (Instr.frCfgWrite 0 0x14 0).wf = false ∧ (Instr.secEventProcess 16).wf = false ∧ (Instr.cfgGo (2 ^ 64)).wf = false ∧
    (Instr.fpMasterRequest 16 0 0 0 0 0 false 0 []).wf = false ∧ (Instr.fpTargetAnswer 0 1024 0 false []).wf = false ∧
    (Instr.fabricEpochEdge 32).wf = false := by and_intros <;> decide +kernel

theorem test_wf_lanes_and_link : (Instr.presenceTimeout 20).wf = false ∧ (Instr.lureDetected 0 8).wf = false ∧ (Instr.trainingFrameRx 0 0 (2 ^ 128)).wf = false ∧
    (Instr.creanceStepComplete 20 0).wf = false ∧ (Instr.codewordRx 0 0 false [] [] [] [] [[]]).wf = false ∧
    (let l := List.replicate 136 1024; Instr.codewordRx 0 0 false l l l l []).wf = false ∧
    (let l := List.replicate 135 0; Instr.codewordRx 0 0 false l l l l []).wf = false ∧
    (let l := List.replicate 136 1023; Instr.codewordRx 0 0 false l l l l []).wf = true := by
  and_intros <;> decide +kernel

/-! Values that the spec's worked examples give. -/

/-- Table 10.11: half to even and half away from zero. -/
theorem test_requant_rounding :
    ([1536, 2560, -2560, 200000, -140000, 100, 0, -512].map fun v : Int => roundShift false (v * (2 ^ 30 : Nat)) 40) = [2, 2, -2, 195, -137, 0, 0, 0] ∧
    ([1536, 2560, -2560, 200000, -140000, 100, 0, -512].map fun v : Int => roundShift true (v * (2 ^ 30 : Nat)) 40) = [2, 3, -3, 195, -137, 0, 0, -1] ∧
    clampEv (-128) 127 195 = (127, 4) ∧ clampEv (-128) 127 (-137) = (-128, 5) := by decide +kernel

/-- Chapter 10, step 9. -/
theorem test_to_fp16 : fp16.round (Fv.ofInt 200000) = 0x7C00 ∧ fp16.round (Fv.ofInt (-140000)) = 0xFC00 := by decide +kernel

/-- Chapter 12: two elements of LIMBCOMB, modulo 2^64 and modulo 2^60 − 1. -/
theorem test_limbcomb :
    let blk (mode q : Nat) : List Byte := [8] ++ leBytes 1 mode ++ leBytes 4 4096 ++ zeros 2 ++ leBytes 8 q ++ [0, 8, 16, 24, 32, 40, 48, 56] ++ zeros 104
    limbComb (blk 0 0) [15, 0, 0, 0, 0, 0, 0, 640] = 0x800000000000000F ∧ limbComb (blk 0 0) [0xFFFFFFFF, 1, 0, 0, 0, 0, 0, 0] = 0x1000000FF ∧
    limbComb (blk 1 (2 ^ 60 - 1)) [15, 0, 0, 0, 0, 0, 0, 640] = 55 := by decide +kernel

/-- Chapter 14: MOD_K and MOD_MU of 0xC0000001, and (−1) × (−1). -/
theorem test_chain_modulus :
    let x : Chain := { loadedQ := [(0, 0xC0000001)] }
    x.regAt 0 2 = some 5726623059 ∧ x.regAt 0 5 = some 32 ∧ barrett 0xC0000001 (0xC0000000 * 0xC0000000) = 1 := by decide +kernel

/-- Chapter 7: the route of node 122 to node 44, and its segments; a step north then west is refused. -/
theorem test_route : routeCheck 122 0x800000000004072C 0x2A0A = Sc.ok ∧ segments 7 0x2A0A = [(2, 2), (0, 2), (2, 3)] ∧
    routeCheck 122 (2 ^ 63 + 2 * 256 + 105) 0b0110 = Sc.reservedNonzero := by decide +kernel

/-- Chapter 8: an HBM and an LPDDR offset. -/
theorem test_memory_interleave : up.hbmMap 0x40212340 = (3, 0x10084840) ∧
    ({ up with mem := { up.mem with lpMib := List.replicate 8 32768 } } : State).lpMap 0x12340 = some (2, 0x2340) := by decide +kernel

/-- Chapter 15: a time word and an event word by the two rules. -/
theorem test_event_word :
    let s := ((((sensing 1).setObj (Obj.SP_EVT_WORD 7) 0x10601).setObj (Obj.SP_GEOMETRY 7) (640 + 480 * 65536)).setRule 7 0 0xF0000000 0x80000000
      (2 ^ 63 + 2 ^ 60 + 28 * 2 ^ 50)).setRule 7 1 0xE0000000 0 (2 ^ 63 + 6 * 2 ^ 50 + 22 * 2 ^ 44 + 28 * 2 ^ 38 + 11 * 2 ^ 32 + 11 * 2 ^ 24 + 11 * 2 ^ 16)
    let t := (s.spWord 7 0x80001234 0 0)
    (t.sp 7).tHigh = 4660 ∧ (t.setSp 7 { t.sp 7 with inFrame := true } |>.spTime 7 5 0) = 298245 := by decide +kernel

/-- Chapter 15, step 5: neuron 1,380 reaches THRESH and spikes. -/
theorem test_neuron_spikes :
    let l : Layer := { which := 0, ctx := 0, ring := 0, bytes := padTo 1152 (zeros 128 ++ leBytes 2 100 ++ leBytes 2 0 ++ leBytes 2 1 ++ [3, 0] ++ leBytes 2 500) }
    updateNeuron l 0 { v := 70, tUpd := 298165, ref := 0 } 298245 40 = { n := { v := 0, tUpd := 298245, ref := 500 }, spiked := true } ∧
    updateNeuron l 0 { v := 0, tUpd := 298245, ref := 500 } 298545 40 = { n := { v := 0, tUpd := 298545, ref := 200 }, ignored := true } := by
  decide +kernel

/-- Table 5.15, word 0: SEMWAIT takes FILL of pair 40 from 1 to 0. -/
theorem test_semwait :
    (match exec (.semwait 0 0) { prog 0 [0x2000280000000001] with str := { jess := [(40, { fill := 1, free := 0 })] } } with
     | .next t => t.sem (semOf 40 0) == 0 && (t.slot 0 0).wi == 1
     | _ => false) = true := by decide +kernel

/-- Table 5.15, words 1 to 5 are the commands the table names, with its pair and count. -/
theorem test_table_words : isOp 0 0x30 0x304C001000A00012 = true ∧ isOp 0 0x21 0x2108280080000001 = true ∧ isOp 0 0x02 0x0200000000000000 = true ∧
    bits 0x304C001000A00012 24 24 = 4096 ∧ bits 0x2108280080000001 40 11 = 40 := by decide +kernel

/-- A subtraction of 1 from 0 wraps to all ones. -/
theorem test_addi_wraps :
    (match exec (.addi 0 0) (prog 0 [enc 0x05 [(48, 1), (0, 2 ^ 32 - 1)]] [0, 0]) with
     | .next t => (t.slot 0 0).x.getD 1 0 == BitVec.allOnes 64
     | _ => false) = true := by decide +kernel

end Sys2Proof.Tests
end

section
/-!
What each operation of the machine keeps: `Steady s₀ s` goes over to `Steady s₀` of the state after the operation, and so
over every command (`exec_continues`, `exec_keeps`) and every step (`step_keeps`). The lemmas stand in the model's own order.
-/
namespace Sys2Proof.Machine

open Sys2Proof

section
-- Elaborated one after another: side by side, these many proofs hold more thread stacks than the check has memory for.
set_option Elab.async false
variable {s₀ s : State}

/-- A command answers a next state, and that state is steady. -/
def Continues (s₀ : State) (r : Res) : Prop := ∃ t, r = .next t ∧ Steady s₀ t

theorem Continues.next {t : State} (h : Steady s₀ t) : Continues s₀ (.next t) := ⟨t, rfl, h⟩

theorem Continues.ite {c : Prop} [Decidable c] {r r' : Res} (h : Continues s₀ r) (h' : Continues s₀ r') :
    Continues s₀ (if c then r else r') := by split <;> assumption

theorem Continues.occ {c : Bool} {t u : State} (ht : Steady s₀ t) (hu : Steady s₀ u) :
    Continues s₀ (Sys2Proof.Machine.occ c u t) := .next (.ite ht hu)

/-! Branches and folds, where the state stands alone or is a component of what an operation gives (the map `π`). -/

theorem Steady.iteThrough {α : Type} (π : α → State) {c : Prop} [Decidable c] {x y : α} (hx : Steady s₀ (π x))
    (hy : Steady s₀ (π y)) : Steady s₀ (π (if c then x else y)) := by split <;> assumption

theorem Steady.ite2 {α : Type} {c : Prop} [Decidable c] {x y : α × State} (hx : Steady s₀ x.2) (hy : Steady s₀ y.2) :
    Steady s₀ (if c then x else y).2 := .iteThrough Prod.snd hx hy

theorem Steady.ite3 {α β : Type} {c : Prop} [Decidable c] {x y : α × β × State} (hx : Steady s₀ x.2.2)
    (hy : Steady s₀ y.2.2) : Steady s₀ (if c then x else y).2.2 := .iteThrough (fun z : α × β × State => z.2.2) hx hy

theorem Steady.ite4 {α β γ : Type} {c : Prop} [Decidable c] {x y : α × β × γ × State} (hx : Steady s₀ x.2.2.2)
    (hy : Steady s₀ y.2.2.2) : Steady s₀ (if c then x else y).2.2.2 := .iteThrough (fun z : α × β × γ × State => z.2.2.2) hx hy

theorem Steady.iteVxOut {c : Prop} [Decidable c] {x y : VxOut} (hx : Steady s₀ x.s) (hy : Steady s₀ y.s) :
    Steady s₀ (if c then x else y).s := .iteThrough VxOut.s hx hy

theorem Steady.iteCxRun {c : Prop} [Decidable c] {x y : CxRun} (hx : Steady s₀ x.s) (hy : Steady s₀ y.s) :
    Steady s₀ (if c then x else y).s := .iteThrough CxRun.s hx hy

theorem Steady.thenIf {t u : State} {c : Prop} [Decidable c] (h : Steady s₀ t) (hu : Steady s₀ t → Steady s₀ u) :
    Steady s₀ (if c then u else t) := .ite (hu h) h

theorem Steady.unless {t u : State} {c : Prop} [Decidable c] (h : Steady s₀ t) (hu : Steady s₀ t → Steady s₀ u) :
    Steady s₀ (if c then t else u) := .ite h (hu h)

/-- One proof for a state that several branches go on from. -/
theorem Steady.pipe {t : State} {p : Prop} (h : Steady s₀ t) (hp : Steady s₀ t → p) : p := hp h

theorem Steady.foldThrough {α β : Type} (π : α → State) {f : α → β → α} {l : List β} {x : α} (h : Steady s₀ (π x))
    (hf : ∀ {y b}, Steady s₀ (π y) → Steady s₀ (π (f y b))) : Steady s₀ (π (l.foldl f x)) := by
  induction l generalizing x with
  | nil => exact h
  | cons b l ih => exact ih (hf h)

theorem Steady.fold {β : Type} {f : State → β → State} {l : List β} (h : Steady s₀ s)
    (hf : ∀ {u b}, Steady s₀ u → Steady s₀ (f u b)) : Steady s₀ (l.foldl f s) := h.foldThrough id hf

theorem Steady.fold2 {α β : Type} {f : α × State → β → α × State} {l : List β} {x : α × State} (h : Steady s₀ x.2)
    (hf : ∀ {y b}, Steady s₀ y.2 → Steady s₀ (f y b).2) : Steady s₀ (l.foldl f x).2 := h.foldThrough Prod.snd hf

theorem Steady.fold3 {α α' β : Type} {f : α × α' × State → β → α × α' × State} {l : List β} {x : α × α' × State}
    (h : Steady s₀ x.2.2) (hf : ∀ {y b}, Steady s₀ y.2.2 → Steady s₀ (f y b).2.2) : Steady s₀ (l.foldl f x).2.2 :=
  h.foldThrough (fun z : α × α' × State => z.2.2) hf

theorem Steady.fold4 {α α' α'' β : Type} {f : α × α' × α'' × State → β → α × α' × α'' × State} {l : List β}
    {x : α × α' × α'' × State} (h : Steady s₀ x.2.2.2) (hf : ∀ {y b}, Steady s₀ y.2.2.2 → Steady s₀ (f y b).2.2.2) :
    Steady s₀ (l.foldl f x).2.2.2 := h.foldThrough (fun z : α × α' × α'' × State => z.2.2.2) hf

theorem Steady.foldCxRun {β : Type} {f : CxRun → β → CxRun} {l : List β} {x : CxRun} (h : Steady s₀ x.s)
    (hf : ∀ {y b}, Steady s₀ y.s → Steady s₀ (f y b).s) : Steady s₀ (l.foldl f x).s := h.foldThrough CxRun.s hf

theorem Steady.cxNext {x y : CxRun} (h : Steady s₀ y.s) : Steady s₀ (x.next y).s := h

theorem Steady.pair {α : Type} {a : α} {t : State} (h : Steady s₀ t) : Steady s₀ (a, t).2 := h

theorem Steady.snd {α : Type} {p : α × State} {a : α} {t : State} (h : Steady s₀ p.2) (e : p = (a, t)) : Steady s₀ t := by
  subst e; exact h

theorem Steady.getD {o : Option State} (h : Steady s₀ s) (ho : ∀ t, o = some t → Steady s₀ t) : Steady s₀ (o.getD s) := by
  cases o with
  | none => exact h
  | some t => exact ho t rfl

/-- The state that a fetch leaves. -/
def Fetch.state : Fetch → State
  | .blocked t | .fault _ _ t | .word _ t => t

theorem Steady.iteFetch {c : Prop} [Decidable c] {x y : Fetch} (hx : Steady s₀ x.state) (hy : Steady s₀ y.state) :
    Steady s₀ (if c then x else y).state := .iteThrough Fetch.state hx hy

theorem Steady.iteFetchCmd {c : Prop} [Decidable c] {x y : Fetch × Cmd} (hx : Steady s₀ x.1.state)
    (hy : Steady s₀ y.1.state) : Steady s₀ (if c then x else y).1.state := .iteThrough (fun z : Fetch × Cmd => z.1.state) hx hy

theorem Steady.fetched {x y : Fetch} (h : Steady s₀ x.state) (e : x = y) : Steady s₀ y.state := e ▸ h

theorem Steady.fetchedCmd {x y : Fetch × Cmd} (h : Steady s₀ x.1.state) (e : x = y) : Steady s₀ y.1.state := e ▸ h

/-! Updates of single fields. -/

theorem Steady.withAgg {x} (h : Steady s₀ s) : Steady s₀ { s with agg := x } := h.trans (.of_same rfl rfl rfl rfl rfl rfl)
theorem Steady.withCat {x} (h : Steady s₀ s) : Steady s₀ { s with cat := x } := h.trans (.of_same rfl rfl rfl rfl rfl rfl)
theorem Steady.withCool {x} (h : Steady s₀ s) : Steady s₀ { s with cool := x } := h.trans (.of_same rfl rfl rfl rfl rfl rfl)
theorem Steady.withDrbg {x} (h : Steady s₀ s) : Steady s₀ { s with drbg := x } := h.trans (.of_same rfl rfl rfl rfl rfl rfl)
theorem Steady.withEp {x} (h : Steady s₀ s) : Steady s₀ { s with ep := x } := h.trans (.of_same rfl rfl rfl rfl rfl rfl)
theorem Steady.withHost {x} (h : Steady s₀ s) : Steady s₀ { s with host := x } := h.trans (.of_same rfl rfl rfl rfl rfl rfl)
theorem Steady.withLink {x} (h : Steady s₀ s) : Steady s₀ { s with link := x } := h.trans (.of_same rfl rfl rfl rfl rfl rfl)
theorem Steady.withNet {x} (h : Steady s₀ s) : Steady s₀ { s with net := x } := h.trans (.of_same rfl rfl rfl rfl rfl rfl)
theorem Steady.withNextOp {x} (h : Steady s₀ s) : Steady s₀ { s with nextOp := x } :=
  h.trans (.of_same rfl rfl rfl rfl rfl rfl)
theorem Steady.withOap {x} (h : Steady s₀ s) : Steady s₀ { s with oap := x } := h.trans (.of_same rfl rfl rfl rfl rfl rfl)
theorem Steady.withSeqs {x} (h : Steady s₀ s) : Steady s₀ { s with seqs := x } := h.trans (.of_same rfl rfl rfl rfl rfl rfl)
theorem Steady.withStr {x} (h : Steady s₀ s) : Steady s₀ { s with str := x } := h.trans (.of_same rfl rfl rfl rfl rfl rfl)
theorem Steady.withSup {x} (h : Steady s₀ s) : Steady s₀ { s with sup := x } := h.trans (.of_same rfl rfl rfl rfl rfl rfl)
theorem Steady.withSupHost {x y} (h : Steady s₀ s) : Steady s₀ { s with sup := x, host := y } :=
  h.trans (.of_same rfl rfl rfl rfl rfl rfl)
theorem Steady.withSupOapHost {x y z} (h : Steady s₀ s) : Steady s₀ { s with sup := x, oap := y, host := z } :=
  h.trans (.of_same rfl rfl rfl rfl rfl rfl)
theorem Steady.withFreeCtrOap {x y} (h : Steady s₀ s) : Steady s₀ { s with freeCtr := x, oap := y } :=
  h.trans (.of_same rfl rfl rfl rfl rfl rfl)
theorem Steady.withTab {x} (h : Steady s₀ s) : Steady s₀ { s with tab := x } := h.trans (.of_same rfl rfl rfl rfl rfl rfl)
theorem Steady.withTiles {x} (h : Steady s₀ s) : Steady s₀ { s with tiles := x } :=
  h.trans (.of_same rfl rfl rfl rfl rfl rfl)

theorem Steady.withMem {x : Memory} (h : Steady s₀ s) (e : x.cells = s.mem.cells := by rfl) :
    Steady s₀ { s with mem := x } := h.trans (.of_same rfl rfl rfl rfl e rfl)

theorem Steady.withSafety {x : Safety} (h : Steady s₀ s) (hb : x.hourBits = s.safety.hourBits := by rfl)
    (hs : x.safe = s.safety.safe := by rfl) : Steady s₀ { s with safety := x } :=
  h.trans ⟨⟨rfl, rfl, rfl, hb.ge, id⟩, fun e => hs.trans e⟩

/-- A memory whose cells are well formed where the old ones were. -/
theorem Steady.withCells {x : Memory} (h : Steady s₀ s) (hx : s.mem.wf = true → x.wf = true) :
    Steady s₀ { s with mem := x } :=
  h.trans ⟨⟨rfl, rfl, rfl, Nat.le_refl _, fun hc => ⟨hx hc.1, hc.2⟩⟩, id⟩

theorem SMap.wf_moveKeys {α : Type} [DecidableEq α] {d : α} {m : SMap α} {src dst n : Nat} (h : SMap.wf d m = true) :
    SMap.wf d (moveKeys d m src dst n) = true := by
  unfold moveKeys
  generalize m.filter (fun e => decide (src ≤ e.1) && decide (e.1 < src + n)) = l
  exact List.foldlRecOn (motive := fun m => SMap.wf d m = true) l _ (SMap.wf_filter _ h) fun _ hm _ _ => SMap.wf_set _ _ hm

theorem State.dictWf_filter {t : State} {p : Nat × W64 → Bool} (h : s.dictWf = true) (hv : t.variant = s.variant)
    (hd : t.dict = s.dict.filter p) : t.dictWf = true := by
  simp only [State.dictWf, Bool.and_eq_true, keysRise_iff, List.all_eq_true, hd, hv] at h ⊢
  obtain ⟨hk, ha⟩ := h
  exact ⟨hk.filter p, fun e he => ha e (List.mem_filter.1 he).1⟩

/-! What a reset keeps. -/

theorem Kept.trans {s t u : State} (a : Kept s t) (b : Kept t u) : Kept s u :=
  ⟨b.pending.trans a.pending, b.variant.trans a.variant, b.fuses.trans a.fuses, a.hours.trans b.hours,
    b.canonical ∘ a.canonical⟩

theorem Kept.ite {t u : State} {c : Prop} [Decidable c] (a : Kept s₀ t) (b : Kept s₀ u) : Kept s₀ (if c then t else u) := by
  split <;> assumption

theorem Kept.withSup {x} (h : Kept s₀ s) : Kept s₀ { s with sup := x } := h.trans (Steady.refl s).withSup.toKept

/-- A command answers a next state, and what no command changes is kept. -/
def Keeps (s₀ : State) (r : Res) : Prop := ∃ t, r = .next t ∧ Kept s₀ t

theorem Keeps.next {t : State} (h : Kept s₀ t) : Keeps s₀ (.next t) := ⟨t, rfl, h⟩

theorem Keeps.occ {c : Bool} {t u : State} (ht : Kept s₀ t) (hu : Kept s₀ u) : Keeps s₀ (Sys2Proof.Machine.occ c u t) :=
  .next (.ite ht hu)

theorem Continues.keeps {r : Res} : Continues s₀ r → Keeps s₀ r
  | ⟨t, e, h⟩ => ⟨t, e, h.toKept⟩

/-! Operations that may not go through. -/

/-- Where an operation goes through, the state it leads to is steady. -/
def Lands (s₀ : State) (o : Option State) : Prop := ∀ t, o = some t → Steady s₀ t

theorem Lands.none : Lands s₀ none := fun _ e => (Option.some_ne_none _ e.symm).elim

theorem Lands.some {t : State} (h : Steady s₀ t) : Lands s₀ (some t) := fun _ e => Option.some.inj e ▸ h

theorem Lands.ite {c : Prop} [Decidable c] {x y : Option State} (hx : Lands s₀ x) (hy : Lands s₀ y) :
    Lands s₀ (if c then x else y) := by split <;> assumption

/-! Some proofs below first make `State.send` and what finds its destination variables (`generalize`, `revert`, `refine id ?_`,
`intro`). The kernel would otherwise evaluate what a `match` of the operation is on, down to the arithmetic of addresses, which
unrolls; `id` keeps the statement as it is over the variables. -/

/-! The operations of Machine/Ops. -/

theorem Steady.setObj {key v : Nat} (h : Steady s₀ s) : Steady s₀ (s.setObj key v) := h.trans (State.setObj_steady _ _ _)

theorem Steady.bump {key n : Nat} (h : Steady s₀ s) : Steady s₀ (s.bump key n) := h.trans (State.bump_steady _ _ _)

theorem Steady.bump64 {key n : Nat} (h : Steady s₀ s) : Steady s₀ (s.bump64 key n) := h.trans (State.bump64_steady _ _ _)

theorem Steady.bumpIf {c : Prop} [Decidable c] {key n : Nat} (h : Steady s₀ s) :
    Steady s₀ (if c then s.bump key n else s) :=
  h.thenIf fun h => h.bump

theorem Steady.bump64If {c : Prop} [Decidable c] {key n : Nat} (h : Steady s₀ s) :
    Steady s₀ (if c then s.bump64 key n else s) :=
  h.thenIf fun h => h.bump64

theorem Steady.setBlock {key : Nat} {v : List Byte} (h : Steady s₀ s) : Steady s₀ (s.setBlock key v) :=
  h.trans (State.setBlock_steady _ _ _)

theorem Steady.setUcb {u : Nat} {b : Ucb} (h : Steady s₀ s) : Steady s₀ (s.setUcb u b) :=
  h.trans (State.setUcb_steady _ _ _)

theorem Steady.setUnitSt {u : Nat} {st : UState} (h : Steady s₀ s) : Steady s₀ (s.setUnitSt u st) :=
  h.trans (State.setUnitSt_steady _ _ _)

theorem Steady.emit {o : Output} (h : Steady s₀ s) : Steady s₀ (s.emit o) := h.trans (State.emit_steady _ _)

theorem Steady.draw (h : Steady s₀ s) : Steady s₀ s.draw.2 := h.trans (State.draw_steady _)

theorem Steady.drawN {n : Nat} (h : Steady s₀ s) : Steady s₀ (State.drawN n s).2 := h.trans (State.drawN_steady _ _)

theorem Steady.drawBytes {n : Nat} (h : Steady s₀ s) : Steady s₀ (s.drawBytes n).2 := h.trans (State.drawBytes_steady _ _)

theorem Steady.setVec {fn v : Nat} {x : Vector_} (h : Steady s₀ s) : Steady s₀ (s.setVec fn v x) :=
  h.trans (State.setVec_steady _ _ _ _)

theorem Steady.raiseVector {fn v : Nat} (h : Steady s₀ s) : Steady s₀ (s.raiseVector fn v) :=
  h.trans (State.raiseVector_steady _ _ _)

theorem Steady.sendCan {ident : Nat} {pdu : List Byte} (h : Steady s₀ s) : Steady s₀ (s.sendCan ident pdu) := h.emit

theorem Steady.sendEth {dst : Nat} {pdu : List Byte} (h : Steady s₀ s) : Steady s₀ (s.sendEth dst pdu) := h.emit

theorem Steady.sendEvent {code cls sub data related relSub status : Nat} (h : Steady s₀ s) :
    Steady s₀ (s.sendEvent code cls sub data related relSub status) :=
  h.trans (State.sendEvent_steady _ _ _ _ _ _ _ _)

theorem Steady.abortTests (h : Steady s₀ s) : Steady s₀ s.abortTests := h.trans (State.abortTests_steady _)

theorem Steady.raise {src : Nat} {e : ErrInfo} (h : Steady s₀ s) : Steady s₀ (s.raise src e) :=
  h.trans (State.raise_steady _ _ _)

theorem Steady.unitFault {u cause : Nat} (h : Steady s₀ s) : Steady s₀ (s.unitFault u cause) :=
  h.trans (State.unitFault_steady _ _ _)

theorem Steady.rawWrite {a : Nat} {bs : List Byte} (h : Steady s₀ s) : Steady s₀ (s.rawWrite a bs) :=
  h.trans (State.rawWrite_steady _ _ _)

theorem Steady.pellet {p : PelletInfo} (h : Steady s₀ s) : Steady s₀ (s.pellet p).2 := h.trans (State.pellet_steady _ _)

/-! The operations of Machine/SecQueue. -/

theorem Steady.setSec {c : Nat} {x : Sec} (h : Steady s₀ s) : Steady s₀ (s.setSec c x) :=
  h.trans (State.setSec_steady _ _ _)

theorem Steady.secAppend {c w m : Nat} (h : Steady s₀ s) : Steady s₀ (s.secAppend c w m) := by
  simp only [State.secAppend]
  split
  · exact h.bump64
  · exact .ite h.bump64 (.ite h.setSec.bump h.setSec.setObj)

theorem Steady.secWindow {c off : Nat} {bs : List Byte} {m : Nat} (h : Steady s₀ s) :
    Steady s₀ (s.secWindow c off bs m).2 :=
  .ite2 h (h.fold fun hu => hu.secAppend)

/-! The operations of Machine/Mem. -/

theorem Steady.setDom {u : Nat} {d : Domain} (h : Steady s₀ s) : Steady s₀ (s.setDom u d) :=
  h.trans (State.setDom_steady _ _ _)

theorem Steady.powerUp {u : Nat} (h : Steady s₀ s) : Steady s₀ (s.powerUp u) := h.setDom

theorem Steady.wake {u : Nat} (h : Steady s₀ s) : Steady s₀ (s.wake u) := by
  simp only [State.wake]
  split
  · exact h.setDom.setUcb.bump
  · exact .ite h.setDom.setUcb.bump (.ite h h.setDom.bump)
  · exact h
  · exact .ite h h.powerUp.bump

theorem Steady.unbackedAt {ga : Nat} (h : Steady s₀ s) : Steady s₀ (s.unbackedAt ga) := h.bump.setObj

theorem Steady.unbackedHit {a : Nat} (h : Steady s₀ s) : Steady s₀ (s.unbackedHit a) := h.unbackedAt

theorem Steady.closedRead {u a n code status counter : Nat} (h : Steady s₀ s) :
    Steady s₀ (s.closedRead u a n code status counter).2 := by
  unfold State.closedRead
  exact h.bump.pellet.drawBytes

theorem Steady.setEcc {a : Nat} {e : List (Nat × Nat)} (h : Steady s₀ s) : Steady s₀ (s.setEcc a e) :=
  h.trans (State.setEcc_steady _ _ _)

theorem Steady.checkLine {u a : Nat} (h : Steady s₀ s) : Steady s₀ (s.checkLine u a) :=
  h.trans (State.checkLine_steady _ _ _)

theorem Steady.homeRead {gather : Bool} {a n : Nat} (h : Steady s₀ s) : Steady s₀ (s.homeRead gather a n).2 := by
  simp only [State.homeRead]
  refine .ite2 h ?_
  refine .ite2 h.closedRead ?_
  split
  · exact h.unbackedHit
  · refine .ite2 h ?_
    refine .ite2 h.checkLine ?_
    split
    · exact h.closedRead
    · exact h.closedRead
    · exact Steady.pipe (.ite h.wake h) fun h2 => .ite2 h2 h2.checkLine

theorem Steady.loseReservations {ag : Agent} {a : Nat} (h : Steady s₀ s) : Steady s₀ (s.loseReservations ag a) :=
  h.trans (State.loseReservations_steady _ _ _)

theorem Steady.dropHeld {a n : Nat} (h : Steady s₀ s) : Steady s₀ (s.dropHeld a n) := h.trans (State.dropHeld_steady _ _ _)

theorem Steady.storeLine {u a : Nat} {bs : List Byte} {m : Nat} (h : Steady s₀ s) : Steady s₀ (s.storeLine u a bs m) :=
  h.trans (State.storeLine_steady _ _ _ _ _)

theorem Steady.homeWrite {ag : Agent} {gather : Bool} {a : Nat} {bs : List Byte} {m : Nat} (h : Steady s₀ s) :
    Steady s₀ (s.homeWrite ag gather a bs m).2 := by
  simp only [State.homeWrite]
  refine .ite2 h ?_
  refine .ite2 h.bump ?_
  split
  · exact h.unbackedHit
  · refine .ite2 h ?_
    refine .ite2 h.loseReservations.storeLine ?_
    split
    · exact h.bump
    · exact h.bump
    · exact Steady.pipe (.ite h.wake h) fun h1 => .ite2 h1.secWindow (.ite2 h1 h1.loseReservations.storeLine)

theorem Steady.readRange {gather : Bool} {a n : Nat} (h : Steady s₀ s) : Steady s₀ (s.readRange gather a n).2 :=
  h.fold2 fun hu => hu.homeRead

theorem Steady.ownRead {u off n : Nat} (h : Steady s₀ s) : Steady s₀ (s.ownRead u off n).2.2 :=
  h.trans (State.ownRead_steady _ _ _ _)

theorem Steady.ownWrite {u off : Nat} {bs : List Byte} {m : Nat} (h : Steady s₀ s) : Steady s₀ (s.ownWrite u off bs m) :=
  h.trans (State.ownWrite_steady _ _ _ _ _)

theorem Steady.setAptCtl {c : Nat} {x : AptCtl} (h : Steady s₀ s) : Steady s₀ (s.setAptCtl c x) :=
  h.trans (State.setAptCtl_steady _ _ _)

theorem Steady.xlate {c ca : Nat} {r w : Bool} (h : Steady s₀ s) : Steady s₀ (s.xlate c ca r w).2 := by
  simp only [State.xlate]
  split
  · exact h.setAptCtl.bump
  · exact Steady.pipe (.ite h h.setAptCtl.bump) fun h1 => .ite2 h1.bump h1

theorem Steady.xlateRange {c ca n : Nat} {r w : Bool} (h : Steady s₀ s) : Steady s₀ (s.xlateRange c ca n r w).2.2.2 := by
  unfold State.xlateRange
  refine .ite4 (h.fold4 fun hu => .ite4 hu (.ite4 hu.xlate hu.xlate)) ?_
  refine .ite4 (h.fold4 fun hu => .ite4 hu (.ite4 hu.xlate hu.xlate)) ?_
  exact h.fold4 fun hu => .ite4 hu (.ite4 hu.xlate hu.xlate)

/-! The operations of Machine/Seq. -/

theorem Steady.setRing {n : Nat} {r : Ring} (h : Steady s₀ s) : Steady s₀ (s.setRing n r) :=
  h.trans (State.setRing_steady _ _ _)

theorem Steady.writeCpl {cq : Nat} {bs : List Byte} {irq : Bool} (h : Steady s₀ s) : Steady s₀ (s.writeCpl cq bs irq) :=
  h.emit.setRing.thenIf fun hi => hi.raiseVector

theorem Steady.countFull {cq : Nat} (h : Steady s₀ s) : Steady s₀ (s.countFull cq) := h.setRing

theorem Steady.postCpl {cq : Nat} {bs : List Byte} {irq : Bool} (h : Steady s₀ s) : Steady s₀ (s.postCpl cq bs irq) :=
  .ite h (.ite h.withHost.countFull (.ite h.withHost h.writeCpl))

theorem Steady.drainCpls (h : Steady s₀ s) : Steady s₀ s.drainCpls :=
  h.withHost.fold fun hu => .ite hu.withHost (.ite (.withHost (.ite hu hu.countFull)) hu.writeCpl)

theorem Steady.eventRecord {ring status : Nat} {value : List Byte} (h : Steady s₀ s) :
    Steady s₀ (s.eventRecord ring status value) := .ite h.setRing h.postCpl

theorem Steady.setSeq {q : Nat} {x : Sequencer} (h : Steady s₀ s) : Steady s₀ (s.setSeq q x) :=
  h.trans (State.setSeq_steady _ _ _)

theorem Steady.setSlot {q k : Nat} {t : Slot} (h : Steady s₀ s) : Steady s₀ (s.setSlot q k t) :=
  h.trans (State.setSlot_steady _ _ _ _)

theorem Steady.faultRing {n cause word sqIdx status : Nat} (h : Steady s₀ s) :
    Steady s₀ (s.faultRing n cause word sqIdx status) := .ite h h.bump.setRing

theorem Steady.endProgram {q k status : Nat} (h : Steady s₀ s) : Steady s₀ (s.endProgram q k status) := by
  unfold State.endProgram
  refine .ite h ?_
  exact .thenIf (.bumpIf (.bumpIf (.bumpIf (.bumpIf (.ite h.setSlot.setSlot.bump h.setSlot))))) fun h => h.faultRing

theorem Steady.finishOp {o : UnitOp} {e : OpEnd} (h : Steady s₀ s) : Steady s₀ (s.finishOp o e) :=
  .ite h.setSeq (h.setSeq.setSlot.thenIf fun hi => hi.endProgram)

/-! The operations of Machine/Net. -/

theorem Steady.setNi {n : Nat} {x : Ni} (h : Steady s₀ s) : Steady s₀ (s.setNi n x) := h.trans (State.setNi_steady _ _ _)

theorem Steady.setStat {i : Nat} {x : Stat} (h : Steady s₀ s) : Steady s₀ (s.setStat i x) :=
  h.trans (State.setStat_steady _ _ _)

theorem Steady.countSent {ag : Agent} {bytes : Nat} (h : Steady s₀ s) : Steady s₀ (s.countSent ag bytes) :=
  .ite h.setStat h

theorem Steady.countBytes {ag : Agent} {bytes : Nat} (h : Steady s₀ s) : Steady s₀ (s.countBytes ag bytes) :=
  .ite h.setStat h

theorem Steady.countLat {ag : Agent} {sentNs : Nat} (h : Steady s₀ s) : Steady s₀ (s.countLat ag sentNs) :=
  .ite h.setStat h

theorem Steady.chooseRoute {node dst tc : Nat} (h : Steady s₀ s) : Steady s₀ (s.chooseRoute node dst tc).2 := by
  simp only [State.chooseRoute]
  refine .ite2 ?_ h
  split
  · exact h.setNi
  · exact .ite h h.setNi.bump

theorem Steady.send {p : Packet} {use : Use} {t : State} (h : Steady s₀ s) (e : s.send p use = some t) : Steady s₀ t := by
  simp only [State.send] at e
  split at e
  · cases e
    exact h.chooseRoute.countSent.withNet
  · split at e
    · cases e
    · split at e
      · cases e
      · cases e
        exact h.chooseRoute.withNet.countSent.withNet

theorem Steady.respond {req : Packet} {kind : PKind} {status : Nat} {data : List Byte} {mark seg : Nat} (h : Steady s₀ s) :
    Steady s₀ (s.respond req kind status data mark seg) := h.withNet

theorem Steady.dropPacket {i : Nat} (h : Steady s₀ s) : Steady s₀ (s.dropPacket i) := h.trans (State.dropPacket_steady _ _)

theorem Steady.freeOutst {node tc tag : Nat} (h : Steady s₀ s) : Steady s₀ (s.freeOutst node tc tag) := h.withNet

theorem Steady.counted {ag : Agent} (h : Steady s₀ s) : Steady s₀ (s.counted ag) := h.chooseRoute.countSent

theorem Steady.linkAbsentData {ga n oClass oIndex : Nat} (h : Steady s₀ s) :
    Steady s₀ (s.linkAbsentData ga n oClass oIndex).2 := by
  unfold State.linkAbsentData
  exact h.pellet.drawBytes

/-! The operations of Machine/Jess. -/

theorem Steady.setJess {p : Nat} {j : Jess} (h : Steady s₀ s) : Steady s₀ (s.setJess p j) :=
  h.trans (State.setJess_steady _ _ _)

theorem Steady.setSem {m v : Nat} (h : Steady s₀ s) : Steady s₀ (s.setSem m v) := h.trans (State.setSem_steady _ _ _)

theorem Steady.post {m n : Nat} (h : Steady s₀ s) : Steady s₀ (s.post m n).2 := h.trans (State.post_steady _ _ _)

theorem Steady.addWaiter {w : SemWaiting} (h : Steady s₀ s) : Steady s₀ (s.addWaiter w) := .withStr (.ite h h.bump)

theorem Steady.dropWaiter {w : Waiter} (h : Steady s₀ s) : Steady s₀ (s.dropWaiter w) :=
  h.trans (State.dropWaiter_steady _ _)

theorem Steady.take {m n : Nat} {w : Waiter} (h : Steady s₀ s) : Steady s₀ (s.take m n w) := h.setSem.withStr

theorem Steady.answerWait {w : SemWaiting} {st : Nat} (h : Steady s₀ s) : Steady s₀ (s.answerWait w st) :=
  h.withStr.respond

theorem Steady.takeNow {ag : Agent} {m n : Nat} {w : Waiter} (h : Steady s₀ s) : Steady s₀ (s.takeNow ag m n w) :=
  h.counted.countLat.take

theorem Steady.cancelWait {w : Waiter} {m : Nat} (h : Steady s₀ s) : Steady s₀ (s.cancelWait w m) := by
  simp only [State.cancelWait]
  split
  · exact h
  · split
    · next t he => exact h.withNet.send he
    · exact h.withNet.dropWaiter.freeOutst

theorem Steady.setEngine {e : Nat} {x : Engine} (h : Steady s₀ s) : Steady s₀ (s.setEngine e x) :=
  h.trans (State.setEngine_steady _ _ _)

theorem Steady.endChain {e st : Nat} (h : Steady s₀ s) : Steady s₀ (s.endChain e st) :=
  .ite h (.thenIf (h.cancelWait.setEngine.bumpIf) fun hi => hi.bump.raise)

/-! The operations of Machine/Units. -/

theorem Steady.loadShadow {key v : Nat} (h : Steady s₀ s) : Steady s₀ (s.loadShadow key v) :=
  .thenIf (.ite h.setObj h.setBlock) fun hi => hi.withLink

theorem Steady.shadowLoad {u : Nat} (h : Steady s₀ s) : Steady s₀ (s.shadowLoad u) :=
  .ite h (.withOap (h.fold fun hu => hu.loadShadow))

theorem Steady.enterReady {u : Nat} (h : Steady s₀ s) : Steady s₀ (s.enterReady u) := h.setDom.setUcb.shadowLoad

theorem Steady.stateConflict {u target : Nat} {mgmt : Bool} (h : Steady s₀ s) : Steady s₀ (s.stateConflict u target mgmt) :=
  h.bump.sendEvent.fold fun hu => hu.eventRecord

theorem Steady.startDrain {u : Nat} {t : UState} (h : Steady s₀ s) : Steady s₀ (s.startDrain u t) :=
  .setDom (h.fold fun hu => .ite hu hu.endChain)

theorem Steady.setTile {t : Nat} {x : Tile} (h : Steady s₀ s) : Steady s₀ (s.setTile t x) :=
  h.trans (State.setTile_steady _ _ _)

theorem Steady.setHand {n : Nat} {h' : Hand} (h : Steady s₀ s) : Steady s₀ (s.setHand n h') := h.withTiles

theorem Steady.unhood {u : Nat} (h : Steady s₀ s) : Steady s₀ (s.unhood u) := by
  simp only [State.unhood]
  refine .ite ?_ h.enterReady
  split
  · exact h.setHand
  · exact h
  · exact h.enterReady

theorem Steady.startDown {u : Nat} {t : UState} (h : Steady s₀ s) : Steady s₀ (s.startDown u t) := h.setDom

theorem Steady.moveUnit {u : Nat} {t : UState} (h : Steady s₀ s) : Steady s₀ (s.moveUnit u t) := by
  simp only [State.moveUnit]
  refine .ite h.setUcb ?_
  split
  · split
    · exact .ite h.setDom h.wake
    · exact h.setDom.wake
    · exact h.setDom
    · split
      · exact h.unhood
      · exact h.powerUp
      · exact h.powerUp
      · exact h
  · split
    · exact h.setDom
    · exact .ite (.ite h.setDom.setUcb h.setDom) h.setDom
    · exact h.setDom
    · split
      · exact h.startDrain
      · exact .ite h h.startDown
      · exact .ite h (.ite h.startDown h.setDom)
      · exact .ite h (.ite h.startDown h.setDom)
      · exact h

theorem Steady.reached {u : Nat} {t : UState} (h : Steady s₀ s) : Steady s₀ (s.reached u t) := .ite h.setUcb h

theorem Steady.ucbRequest {u : Nat} {t : UState} {mgmt : Bool} (h : Steady s₀ s) : Steady s₀ (s.ucbRequest u t mgmt) := by
  unfold State.ucbRequest
  extract_lets b conflict t
  have ht : Steady s₀ t := .ite h.stateConflict h
  split
  · exact .ite ht.setUcb ht.setUcb
  · exact ht.setUcb
  · exact ht.setUcb
  · exact ht
  · exact ht.setUcb.moveUnit.reached

theorem Steady.setRedirect {t : Nat} {v : Option Nat} (h : Steady s₀ s) : Steady s₀ (s.setRedirect t v) := h.withMem

theorem Steady.restSpare {v : Nat} (h : Steady s₀ s) : Steady s₀ (s.restSpare v) := by
  simp only [State.restSpare]
  refine .ite ?_ h
  split <;> exact h.moveUnit

theorem Steady.endRedirect {t v : Nat} (h : Steady s₀ s) : Steady s₀ (s.endRedirect t v) :=
  h.setRedirect.setHand.setTile.restSpare

theorem Steady.settleHand {t : Nat} (h : Steady s₀ s) : Steady s₀ (s.settleHand t) := by
  simp only [State.settleHand]
  split
  · exact .ite h h.endRedirect
  · exact h

theorem Steady.unitIdle {u : Nat} (h : Steady s₀ s) : Steady s₀ (s.unitIdle u) := by
  unfold State.unitIdle
  extract_lets t b
  have ht : Steady s₀ t := by
    dsimp only [t]
    split
    · exact h.settleHand
    · exact h
  refine .ite h ?_
  split
  · exact ht.setUcb
  · split
    · exact ht.setUcb.setUcb
    · exact ht.setUcb.moveUnit
    · exact ht.setUcb
  · exact ht

theorem Steady.unitBusy {u : Nat} (h : Steady s₀ s) : Steady s₀ (s.unitBusy u) := .ite h.setUnitSt h

/-! The operations of Machine/LinkTx. -/

theorem Steady.setPhy {n : Nat} {x : Phy} (h : Steady s₀ s) : Steady s₀ (s.setPhy n x) :=
  h.trans (State.setPhy_steady _ _ _)

theorem Steady.sendCtl {n op arg : Nat} (h : Steady s₀ s) : Steady s₀ (s.sendCtl n op arg) := h.setPhy.emit

theorem Steady.txWake {n : Nat} (h : Steady s₀ s) : Steady s₀ (s.txWake n) := .ite h h.withLink.setPhy.sendCtl

theorem Steady.sendFlit {n : Nat} {p : Packet} (h : Steady s₀ s) : Steady s₀ (s.sendFlit n p) := h.txWake.setPhy.emit

theorem Steady.pumpQueue {n : Nat} {ps : List Packet} {stuck : List Nat} {left : List Packet} (h : Steady s₀ s) :
    Steady s₀ (State.pumpQueue n ps stuck left s) := by
  induction ps generalizing stuck left s with
  | nil => exact h.setPhy
  | cons p ps ih =>
    unfold State.pumpQueue
    exact .ite (ih h) (ih h.sendFlit)

theorem Steady.linkPump {n : Nat} (h : Steady s₀ s) : Steady s₀ (s.linkPump n) := .ite h.pumpQueue h

theorem Steady.dropNotice {n : Nat} {p : Packet} (h : Steady s₀ s) : Steady s₀ (s.dropNotice n p) := h.respond

theorem Steady.takeRequests {node : Nat} (h : Steady s₀ s) : Steady s₀ (s.takeRequests node) := by
  simp only [State.takeRequests]
  refine h.fold fun hu => ?_
  refine .ite hu ?_
  split
  · exact .ite (.ite hu hu.dropPacket.setPhy.linkPump) hu.dropPacket.dropNotice
  · exact hu.dropPacket.dropNotice

theorem Steady.serveNode {node : Nat} (h : Steady s₀ s) : Steady s₀ (s.serveNode node) :=
  h.takeRequests.fold fun hu => hu.linkPump

theorem Steady.endFull {n : Nat} (h : Steady s₀ s) : Steady s₀ (s.endFull n) := .ite h h.bump64.setPhy

theorem Steady.loseRemoteRsv {n : Nat} (h : Steady s₀ s) : Steady s₀ (s.loseRemoteRsv n) :=
  .unless (.withMem (.ite h h.withSeqs)) fun hi => hi.bump

theorem Steady.linkDrop {n : Nat} (h : Steady s₀ s) : Steady s₀ (s.linkDrop n) :=
  h.bump.loseRemoteRsv.endFull.setPhy.fold fun hu => hu.dropNotice

/-! The operations of Machine/Epoch. -/

theorem Steady.setEpoch {d : Nat} {x : EpochDom} (h : Steady s₀ s) : Steady s₀ (s.setEpoch d x) :=
  h.trans (State.setEpoch_steady _ _ _)

theorem Steady.trigger {d : Nat} (h : Steady s₀ s) : Steady s₀ (s.trigger d) := h.trans (State.trigger_steady _ _)

theorem Steady.triggerSource {src arg : Nat} (h : Steady s₀ s) : Steady s₀ (s.triggerSource src arg) :=
  h.trans (State.triggerSource_steady _ _ _)

/-! The operations of Machine/Program. -/

theorem Steady.fetch {q k i : Nat} (h : Steady s₀ s) : Steady s₀ (s.fetch q k i).state := by
  have hsend : ∀ {s t p use}, Steady s₀ s → s.send p use = some t → Steady s₀ t := .send
  unfold State.fetch
  generalize State.send = send at hsend ⊢
  generalize State.destOf = dest
  revert send dest
  refine id ?_
  intro send hsend dest
  dsimp only
  split
  · exact .iteFetch h h
  · refine .iteFetch h (.iteFetch h.xlate ?_)
    split
    · exact h.xlate.unbackedAt
    · exact h.xlate.linkAbsentData.setSlot
    · split
      · next v he => exact (hsend h.xlate he).setSlot
      · exact h

theorem Steady.endWith {q k st mark : Nat} (h : Steady s₀ s) : Steady s₀ (s.endWith q k st mark) := h.setSlot.endProgram

theorem Steady.fetchCmd {q k i w0 n : Nat} (h : Steady s₀ s) : Steady s₀ (s.fetchCmd q k i w0 n).1.state := by
  simp only [State.fetchCmd]
  refine .iteFetchCmd h ?_
  split
  · next a t he =>
    have ht : Steady s₀ t := h.fetch.fetched he
    refine .iteFetchCmd ht ?_
    split
    · next b u he' => exact (ht.fetch.fetched he' :)
    · next u he' => exact (ht.fetch.fetched he' :)
    · next st m u he' => exact (ht.fetch.fetched he' :)
  · next t he => exact (h.fetch.fetched he :)
  · next st m t he => exact (h.fetch.fetched he :)

theorem Steady.atWord {body : State → Cmd → State} {q k : Nat} {sel : Nat → Bool} (h : Steady s₀ s)
    (hbody : ∀ {u v}, Steady s₀ u → Steady s₀ (body u v)) :
    Continues s₀ (s.atWord q k sel body) := by
  simp only [State.atWord]
  refine .ite (.next h) ?_
  refine .ite (.next h) ?_
  split
  · next t he => exact .next (h.fetch.fetched he)
  · next st m t he => exact .next (h.fetch.fetched he).endWith
  · next w0 s' he =>
      refine .ite (.next h) ?_
      refine .ite (.next (h.fetch.fetched he).endProgram) ?_
      split
      · next t snd he1 => exact .next ((h.fetch.fetched he).fetchCmd.fetchedCmd he1)
      · next st m t snd he1 => exact .next ((h.fetch.fetched he).fetchCmd.fetchedCmd he1).endWith
      · next v t c he1 => exact .next (hbody ((h.fetch.fetched he).fetchCmd.fetchedCmd he1))

theorem Steady.atHead {body : State → State} {q k : Nat} {sel : Nat → Bool} (h : Steady s₀ s)
    (hbody : ∀ {u}, Steady s₀ u → Steady s₀ (body u)) :
    Continues s₀ (s.atHead q k sel body) := by
  simp only [State.atHead]
  refine .ite (.next h) ?_
  refine .ite (.next h) ?_
  split
  · next t he => exact .next (h.fetch.fetched he)
  · next st m t he => exact .next (h.fetch.fetched he).endWith
  · next w0 t he => exact .ite (.next (h.fetch.fetched he)) (.next (hbody (h.fetch.fetched he)))

theorem Steady.advance {q k n : Nat} (h : Steady s₀ s) : Steady s₀ (s.advance q k n) := h.setSlot.bump64

theorem Steady.waitAt {q k : Nat} {w : WaitKind} (h : Steady s₀ s) : Steady s₀ (s.waitAt q k w) := h.setSlot

theorem Steady.takeStatus {q k st mark : Nat} (h : Steady s₀ s) : Steady s₀ (s.takeStatus q k st mark).2 :=
  .ite2 h.setSlot h.setSlot

theorem Steady.takeStreams {q k : Nat} {es : List Nat} (h : Steady s₀ s) : Steady s₀ (s.takeStreams q k es).2 := by
  unfold State.takeStreams
  refine .fold2 (h.setSlot.fold2 fun hu => hu.takeStatus) fun hu => ?_
  exact .ite2 hu.setEngine.setSlot.takeStatus hu.setEngine.setSlot

theorem Steady.keepStatus {e : Nat} (h : Steady s₀ s) : Steady s₀ (s.keepStatus e) := .ite h.setSlot h

theorem Steady.settle {q k : Nat} (h : Steady s₀ s) : Steady s₀ (s.settle q k).2 :=
  .ite2 h.takeStreams.setSlot h.takeStreams

theorem Steady.loseRsv {q k : Nat} (h : Steady s₀ s) : Steady s₀ (s.loseRsv q k) := .ite h.setSlot.bump h

theorem Steady.vacate {q k : Nat} {t : Slot} (h : Steady s₀ s) : Steady s₀ (s.vacate q k t) :=
  .ite h.setSlot.setSlot h.setSlot

theorem Steady.vacateAll {q k : Nat} {halt : Bool} (h : Steady s₀ s) : Steady s₀ (s.vacateAll q k halt) :=
  h.fold fun hu => hu.vacate

theorem Steady.completeProgram {q k : Nat} (h : Steady s₀ s) : Steady s₀ (s.completeProgram q k) :=
  .fold (.unitIdle (.vacateAll (h.setRing.bump64.unless fun hi => hi.postCpl))) fun hu => hu.unitIdle

theorem Steady.endNormally {q k : Nat} (h : Steady s₀ s) : Steady s₀ (s.endNormally q k) := .ite h.setSlot.bump64 h.setSlot

theorem execProgramComplete_continues {q k : Nat} (h : Steady s₀ s) : Continues s₀ (execProgramComplete q k s) := by
  unfold execProgramComplete
  refine .ite ?_ (.next h)
  refine .ite (.next h.takeStreams.completeProgram) ?_
  exact .ite (.next h.settle.endProgram) (.next h.settle.endNormally.completeProgram)

/-! The operations of Machine/Words. -/

theorem Steady.plainWord {t : State → State} {q k : Nat} {c : Cmd} (h : Steady s₀ s)
    (ht : ∀ {u}, Steady s₀ u → Steady s₀ (t u)) :
    Steady s₀ (s.plainWord q k c t) := .ite h.endProgram (ht h)

theorem execNop_continues {q k : Nat} (h : Steady s₀ s) : Continues s₀ (execNop q k s) :=
  h.atWord fun hu => hu.plainWord fun hv => hv.advance

theorem Steady.releaseFollower {q k : Nat} (h : Steady s₀ s) : Steady s₀ (s.releaseFollower q k) := h.setSlot

theorem execOverlap_continues {q k : Nat} (h : Steady s₀ s) : Continues s₀ (execOverlap q k s) :=
  h.atWord fun hu => hu.plainWord fun hv => hv.releaseFollower.advance

theorem Steady.endWord {q k : Nat} (h : Steady s₀ s) : Steady s₀ (s.endWord q k) := by
  unfold State.endWord
  refine .ite ?_ h.releaseFollower.waitAt
  exact .ite h.releaseFollower.bump64.settle.endProgram h.releaseFollower.bump64.settle.endNormally

theorem execEndProgram_continues {q k : Nat} (h : Steady s₀ s) : Continues s₀ (execEndProgram q k s) :=
  .ite (.next h.endWord) (h.atWord fun hu => hu.plainWord fun hv => hv.endWord)

theorem Steady.scalar {q k rd : Nat} {srcs : List Nat} {v : Slot → Nat} (h : Steady s₀ s) :
    Steady s₀ (s.scalar q k rd srcs v) := .ite h h.setSlot.advance

theorem execMovi_continues {q k : Nat} (h : Steady s₀ s) : Continues s₀ (execMovi q k s) :=
  h.atWord fun hu => .ite hu.endProgram hu.scalar

theorem execMovhi_continues {q k : Nat} (h : Steady s₀ s) : Continues s₀ (execMovhi q k s) :=
  h.atWord fun hu => .ite hu.endProgram hu.scalar

theorem execAddi_continues {q k : Nat} (h : Steady s₀ s) : Continues s₀ (execAddi q k s) :=
  h.atWord fun hu => .ite hu.endProgram hu.scalar

theorem execAlu_continues {q k : Nat} (h : Steady s₀ s) : Continues s₀ (execAlu q k s) :=
  h.atWord fun hu => .ite hu.endProgram hu.scalar

theorem Steady.halted {q k m : Nat} (h : Steady s₀ s) : Steady s₀ (s.halted q k m) := h.endWith

theorem execBr_continues {q k : Nat} (h : Steady s₀ s) : Continues s₀ (execBr q k s) := by
  unfold execBr
  refine h.atWord fun hu => ?_
  exact .ite hu.endProgram (.ite hu (.ite hu.halted (.ite hu.advance (.ite hu.endProgram hu.setSlot.bump64))))

theorem Steady.scanBody {q k stop f i : Nat} (h : Steady s₀ s) : Steady s₀ (State.scanBody q k stop f i s).2.2 := by
  induction f generalizing i s with
  | zero => exact h
  | succ f ih =>
    unfold State.scanBody
    refine .ite3 h ?_
    split
    · next w t he => exact ih (h.fetch.fetched he)
    · next st m t he => exact ih (h.fetch.fetched he)
    · next t he => exact h.fetch.fetched he

theorem execLoop_continues {q k : Nat} (h : Steady s₀ s) : Continues s₀ (execLoop q k s) := by
  unfold execLoop
  refine h.atWord fun hu => ?_
  refine .ite hu.endProgram ?_
  refine .ite hu ?_
  refine .ite hu.halted ?_
  refine .ite hu.advance ?_
  refine .ite hu.endProgram ?_
  refine .ite hu.scanBody.setSlot ?_
  exact .ite hu.scanBody.endProgram (.ite hu.scanBody.advance hu.scanBody.setSlot.bump64)

theorem Steady.sendReads {q k : Nat} {l : PendLoad} {ps : List (Nat × Nat × Nat)} {t : State} (h : Steady s₀ s)
    (e : s.sendReads q k l ps = some t) : Steady s₀ t := by
  have hsend : ∀ {s t p use}, Steady s₀ s → s.send p use = some t → Steady s₀ t := .send
  revert e
  delta State.sendReads State.sendReads._f
  generalize State.send = send at hsend ⊢
  generalize State.destNode = dest
  revert send dest
  refine id ?_
  intro send hsend dest
  induction ps generalizing s with
  | nil => intro e; cases e; exact h
  | cons p ps ih =>
    dsimp only
    split
    · intro e; cases e
    · split
      · intro e; cases e
      · next u hu => exact ih (hsend h hu)

theorem Steady.loadWord {q k : Nat} {c : Cmd} {rd n : Nat} {sx : Bool} (h : Steady s₀ s) :
    Steady s₀ (s.loadWord q k c rd n sx) := by
  simp only [State.loadWord]
  refine .ite h ?_
  refine .ite h.halted ?_
  refine .ite h.xlateRange.endProgram ?_
  refine .ite ?_ ?_
  · refine .ite h.xlateRange.endProgram ?_
    refine .ite h.waitAt ?_
    split
    · next t he => exact (h.xlateRange.setSlot.sendReads he).withNextOp.bump64.advance
    · exact h
  · refine .ite h ?_
    refine .ite (.ite h.xlateRange.setSlot.bump64.advance h) ?_
    split
    · exact .ite h.xlateRange.unbackedAt.endProgram h.xlateRange.linkAbsentData.setSlot.advance
    · split
      · next t he => exact (h.xlateRange.setSlot.sendReads he).withNextOp.advance
      · exact h

theorem execLd_continues {q k : Nat} (h : Steady s₀ s) : Continues s₀ (execLd q k s) :=
  h.atWord fun hu => .ite hu.endProgram hu.loadWord

theorem execLdp_continues {q k : Nat} (h : Steady s₀ s) : Continues s₀ (execLdp q k s) :=
  h.atWord fun hu => .ite hu.endProgram hu.loadWord

theorem Steady.storeWord {q k : Nat} {c : Cmd} {xv n : Nat} (h : Steady s₀ s) : Steady s₀ (s.storeWord q k c xv n) := by
  simp only [State.storeWord]
  refine .ite h ?_
  refine .ite h.halted ?_
  refine .ite h.xlateRange.endProgram ?_
  refine .ite ?_ (.ite (.ite h h.setSlot.bump64) h.xlateRange.setSeq.withNextOp.advance)
  refine .ite h.xlateRange.endProgram ?_
  refine .ite h.waitAt ?_
  split
  · exact h
  · split
    · next t he => exact (h.xlateRange.setSlot.send he).withNextOp.bump64.advance
    · exact h

theorem execSt_continues {q k : Nat} (h : Steady s₀ s) : Continues s₀ (execSt q k s) :=
  h.atWord fun hu => .ite hu.endProgram hu.storeWord

theorem execStp_continues {q k : Nat} (h : Steady s₀ s) : Continues s₀ (execStp q k s) :=
  h.atWord fun hu => .ite hu.endProgram hu.storeWord

theorem Steady.atomicWord {q k : Nat} {c : Cmd} {rd n op : Nat} {data : Slot → List Byte} {uses : List Nat} {r w : Bool}
    (h : Steady s₀ s) :
    Steady s₀ (s.atomicWord q k c rd n op data uses r w) := by
  have hsend : ∀ {s t p use}, Steady s₀ s → s.send p use = some t → Steady s₀ t := .send
  unfold State.atomicWord
  generalize State.send = send at hsend ⊢
  generalize State.destNode = dest
  revert send dest
  refine id ?_
  intro send hsend dest
  dsimp only
  refine .ite h ?_
  refine .ite h.halted ?_
  refine .ite h.endProgram ?_
  refine .ite h.xlateRange.endProgram ?_
  refine .ite h.xlateRange.endProgram ?_
  refine .ite h ?_
  refine .ite h ?_
  refine .ite h.xlateRange.setSlot.bump.advance ?_
  split
  · exact .ite h.xlateRange.unbackedAt.endProgram h.xlateRange.linkAbsentData.setSlot.advance
  · split
    · next t he => exact (hsend h.xlateRange.setSlot he).withNextOp.advance
    · exact h

theorem execLr_continues {q k : Nat} (h : Steady s₀ s) : Continues s₀ (execLr q k s) :=
  h.atWord fun hu => .ite hu.endProgram hu.atomicWord

theorem execSc_continues {q k : Nat} (h : Steady s₀ s) : Continues s₀ (execSc q k s) :=
  h.atWord fun hu => .ite hu.endProgram hu.atomicWord

theorem execAmo_continues {q k : Nat} (h : Steady s₀ s) : Continues s₀ (execAmo q k s) :=
  h.atWord fun hu => .ite hu.endProgram hu.atomicWord

theorem Steady.fence {t : State → State} {q k : Nat} {c : Cmd} {done : Bool} (h : Steady s₀ s)
    (ht : ∀ {u}, Steady s₀ u → Steady s₀ (t u)) :
    Steady s₀ (s.fence q k c done t) := .ite h.endProgram (.ite (.advance (ht h)) h.waitAt)

theorem execFenceDrain_continues {q k : Nat} (h : Steady s₀ s) : Continues s₀ (execFenceDrain q k s) :=
  h.atWord fun hu => hu.fence fun hv => hv.loseRsv.bump64

theorem execFenceAcquire_continues {q k : Nat} (h : Steady s₀ s) : Continues s₀ (execFenceAcquire q k s) :=
  h.atWord fun hu => hu.fence fun hv => hv

theorem execFenceRelease_continues {q k : Nat} (h : Steady s₀ s) : Continues s₀ (execFenceRelease q k s) :=
  h.atWord fun hu => hu.fence fun hv => hv.bump64

theorem execFenceFull_continues {q k : Nat} (h : Steady s₀ s) : Continues s₀ (execFenceFull q k s) :=
  h.atWord fun hu => hu.fence fun hv => hv.setSlot.bump64

theorem Steady.afterOps {t : State → State} {q k : Nat} (h : Steady s₀ s) (ht : ∀ {u}, Steady s₀ u → Steady s₀ (t u)) :
    Steady s₀ (s.afterOps q k t) := .ite (.ite h.settle.endProgram (ht h.settle)) h.waitAt

theorem execFenceUnits_continues {q k : Nat} (h : Steady s₀ s) : Continues s₀ (execFenceUnits q k s) :=
  h.atWord fun hu => .ite hu.endProgram (hu.afterOps fun hv => hv.advance)

theorem Steady.randLines {q k : Nat} {replay : Bool} {ps : List (Nat × Nat × Nat)} (h : Steady s₀ s) :
    Steady s₀ (State.randLines q k replay ps s).2.2 := by
  have hsend : ∀ {s t p use}, Steady s₀ s → s.send p use = some t → Steady s₀ t := .send
  delta State.randLines State.randLines._f
  generalize State.send = send at hsend ⊢
  generalize State.destOf = dest
  revert send dest
  refine id ?_
  intro send hsend dest
  induction ps generalizing s with
  | nil => exact h
  | cons p ps ih =>
    dsimp only
    split
    · exact h.unbackedAt
    · exact ih h.setSlot
    · split
      · next t he => exact ih (hsend h.drawBytes he)
      · exact h

theorem execRand_continues {q k : Nat} (h : Steady s₀ s) : Continues s₀ (execRand q k s) := by
  unfold execRand
  refine h.atWord fun hu => ?_
  refine .ite hu.endProgram ?_
  refine .ite hu.advance ?_
  refine .ite hu.endProgram ?_
  refine .ite hu.endProgram ?_
  refine .ite hu ?_
  refine .ite hu.halted ?_
  refine .ite hu.xlateRange.endProgram ?_
  exact Steady.pipe (.ite hu hu.xlateRange.withDrbg) fun h3 =>
      .ite h3.randLines.endProgram (.ite hu (.ite h3.randLines.advance h3.randLines.setSlot))

theorem execSemwait_continues {q k : Nat} (h : Steady s₀ s) : Continues s₀ (execSemwait q k s) := by
  simp only [execSemwait]
  refine h.atWord fun hu => ?_
  refine .ite hu.endProgram ?_
  refine .ite hu ?_
  refine .ite hu.takeNow.advance ?_
  split
  · next t he => exact (hu.send he).setSlot
  · exact hu

theorem execSemwaitSatisfied_continues {q k : Nat} (h : Steady s₀ s) : Continues s₀ (execSemwaitSatisfied q k s) := by
  simp only [execSemwaitSatisfied]
  split
  · exact .ite (.next h) (.next h.take.answerWait)
  · exact .next h

theorem execSemwaitTimeout_continues {q k : Nat} (h : Steady s₀ s) : Continues s₀ (execSemwaitTimeout q k s) := by
  simp only [execSemwaitTimeout]
  split
  · exact .occ h.answerWait h
  · exact .next h

theorem execSempost_continues {q k : Nat} (h : Steady s₀ s) : Continues s₀ (execSempost q k s) := by
  simp only [execSempost]
  refine h.atWord fun hu => ?_
  refine .ite hu.endProgram ?_
  refine .ite hu.waitAt ?_
  refine .ite ?_ ?_
  · refine hu.afterOps fun hv => ?_
    refine .ite (.ite hv.bump64.counted.post.advance hv.bump64.counted.post.endProgram) ?_
    split
    · exact hv.bump64.setSlot.advance
    · split
      · next t he => exact (hv.bump64.send he).advance
      · exact hv.bump64
  · refine .ite (.ite hu.bump64.counted.post.advance hu.bump64.counted.post.endProgram) ?_
    split
    · exact hu.bump64.setSlot.advance
    · split
      · next t he => exact (hu.bump64.send he).advance
      · exact hu.bump64

theorem execSeminit_continues {q k : Nat} (h : Steady s₀ s) : Continues s₀ (execSeminit q k s) :=
  h.atWord fun hu => .ite hu.endProgram (.ite hu.waitAt hu.setJess.bump64.advance)

theorem Steady.markEpoch {next : State → State} {q k d dev : Nat} (h : Steady s₀ s)
    (hnext : ∀ {u}, Steady s₀ u → Steady s₀ (next u)) :
    Steady s₀ (s.markEpoch q k d dev next) := by
  simp only [State.markEpoch]
  refine .ite (.ite h.endProgram (hnext h.counted.trigger)) ?_
  split
  · exact hnext h.setSlot
  · split
    · next t he => exact hnext (h.send he)
    · exact h

theorem execEpochMarkCmd_continues {q k : Nat} (h : Steady s₀ s) : Continues s₀ (execEpochMarkCmd q k s) :=
  h.atWord fun hu => .ite hu.endProgram (.ite hu.waitAt (hu.bump64.markEpoch fun hv => hv.advance))

theorem Steady.beginEpochWait {q k d : Nat} (h : Steady s₀ s) : Steady s₀ (s.beginEpochWait q k d) := h.setSlot.waitAt

theorem Steady.epochWaitWord {begin_ : State → State} {q k d : Nat} (h : Steady s₀ s)
    (hbegin : ∀ {u}, Steady s₀ u → Steady s₀ (begin_ u)) :
    Steady s₀ (s.epochWaitWord q k d begin_) := by
  simp only [State.epochWaitWord]
  split
  · exact hbegin h
  · exact .ite h.setSlot.advance h

theorem execEpochWaitCmd_continues {q k : Nat} (h : Steady s₀ s) : Continues s₀ (execEpochWaitCmd q k s) :=
  h.atWord fun hu => .ite hu.endProgram (hu.epochWaitWord fun hv => hv.beginEpochWait)

theorem execEpochMarkWait_continues {q k : Nat} (h : Steady s₀ s) : Continues s₀ (execEpochMarkWait q k s) := by
  unfold execEpochMarkWait
  refine h.atWord fun hu => ?_
  refine .ite hu.endProgram ?_
  exact hu.epochWaitWord fun hv => .ite hv.waitAt (hv.bump64.markEpoch fun hw => hw.setSlot.waitAt)

theorem execIllegalOpcode_continues {q k : Nat} (h : Steady s₀ s) : Continues s₀ (execIllegalOpcode q k s) :=
  h.atHead fun hu => hu.endProgram

theorem execHangWatchHit_continues {q k : Nat} (h : Steady s₀ s) : Continues s₀ (execHangWatchHit q k s) :=
  .occ h.setSlot.bump h

theorem execReservationTimeout_continues {q k : Nat} (h : Steady s₀ s) : Continues s₀ (execReservationTimeout q k s) :=
  .occ h.setSlot.bump h

theorem execStoreBufferSend_continues {q i : Nat} (h : Steady s₀ s) : Continues s₀ (execStoreBufferSend q i s) := by
  simp only [execStoreBufferSend]
  split
  · exact .next h
  · refine .ite ?_ (.next h)
    split
    · exact .next h.setSeq.unbackedAt.bump.endProgram
    · exact .next h.setSeq.setSlot
    · split
      · next t he => exact .next (h.send he).setSeq
      · exact .next h

/-! The operations of Machine/Issue. -/

theorem Steady.pushOp {q k : Nat} {c : Cmd} (h : Steady s₀ s) : Steady s₀ (s.pushOp q k c) :=
  h.setSeq.withNextOp.setSlot.advance

theorem Steady.issue {q k : Nat} {c : Cmd} {regs : List Nat} {check : State → Slot → Nat} {zero : Bool} (h : Steady s₀ s) :
    Steady s₀ (s.issue q k c regs check zero) := by
  unfold State.issue
  refine .ite h ?_
  refine .ite h.endProgram ?_
  refine .ite h.endProgram ?_
  exact .ite h.advance (.ite h.halted (.ite h.endProgram (.ite h.waitAt (.ite h.waitAt h.pushOp))))

theorem execIssueQueueRoom_continues {q k : Nat} (h : Steady s₀ s) : Continues s₀ (execIssueQueueRoom q k s) := by
  simp only [execIssueQueueRoom]
  refine .ite ?_ (.next h)
  split
  · next w0 s' he =>
      split
      · next v t c he1 => exact .next ((h.fetch.fetched he).fetchCmd.fetchedCmd he1).pushOp
      · exact .next h
  · exact .next h

theorem Steady.checkerFault {u : Nat} (h : Steady s₀ s) : Steady s₀ (s.checkerFault u) := by
  simp only [State.checkerFault]
  refine .unitFault ?_
  refine .fold ?_ fun hu => .ite hu hu.endProgram
  split
  · exact h.setSeq
  · exact h

theorem Steady.countExc {r : List Byte} (h : Steady s₀ s) : Steady s₀ (s.countExc r) :=
  .ite h h.bump64.bump64.bump64.bump64.bump64.bump64

/-! The operations of Machine/Matrix. -/

theorem execMxpass_continues {q k : Nat} (h : Steady s₀ s) : Continues s₀ (execMxpass q k s) :=
  h.atWord fun hu => .ite (.waitAt (.ite hu hu.setSlot.bump)) hu.issue

theorem execMxpassStart_continues {q waited : Nat} (h : Steady s₀ s) : Continues s₀ (execMxpassStart q waited s) := by
  simp only [execMxpassStart]
  split
  · exact .next h
  · exact .ite (.next h.setSeq.withTiles.bump64) (.next h)

theorem Steady.readRows {tile off stride len rows w : Nat} {sg : Bool} {n : Nat} (h : Steady s₀ s) :
    Steady s₀ (s.readRows tile off stride len rows w sg n).2.2 := h.fold3 fun hu => hu.ownRead

theorem Steady.drainParams {p : Pass} {tile n : Nat} (h : Steady s₀ s) : Steady s₀ (s.drainParams p tile n).2.2 :=
  .ite3 h h.ownRead

theorem Steady.drainPart {p : Pass} {tile r0 c0 m n : Nat} {b : Bank} {ps : List (List Byte)} {mark : Nat}
    (h : Steady s₀ s) :
    Steady s₀ (s.drainPart p tile r0 c0 m n b ps mark).2 := h.fold2 fun hu => hu.ownWrite

theorem Steady.passAccumulate {p : Pass} {target : Nat} {tiles : List Nat} {w : Nat} (h : Steady s₀ s) :
    Steady s₀ (s.passAccumulate p target tiles w).2 :=
  h.fold2 fun hu => .ite2 hu (.setTile (hu.readRows.readRows.bumpIf))

theorem Steady.applyInject {tile : Nat} (h : Steady s₀ s) : Steady s₀ (s.applyInject tile) := .ite h.setTile.withTiles h

theorem Steady.passCompare {p : Pass} {tiles : List Nat} {w : Nat} (h : Steady s₀ s) :
    Steady s₀ (s.passCompare p tiles w).2 :=
  h.fold2 fun hu => .ite2 hu (.ite2 (.ite2 hu.applyInject.bump64.setTile.bump hu.applyInject.bump64) hu.bump)

theorem Steady.runPass {o : UnitOp} (h : Steady s₀ s) : Steady s₀ (s.runPass o) := by
  unfold State.runPass
  extract_lets p target tiles wh origin hold reuse s1 s2 acc s3 s4 bankMark mark setPoison s5 s6 prm s7 mark' toggle ints cmp
    s8 worst pel mark'' s9 parts evs rec_ s10 s11
  have hset {u m} (hu : Steady s₀ u) : Steady s₀ (setPoison u m) := hu.fold fun hv => hv.setTile
  have htoggle {u} (hu : Steady s₀ u) : Steady s₀ (toggle u) := hu.fold fun hv => hv.setTile
  have h2 : Steady s₀ s2 := .fold (.ite h.bump64 h) fun hu => .ite hu.setTile hu
  have h4 : Steady s₀ s4 := .fold h2.passAccumulate fun hu => hu.setTile
  have h5 : Steady s₀ s5 := hset h4
  have h6 : Steady s₀ s6 := h5.bump64.bump64
  have h7 : Steady s₀ s7 := .fold3 h6 fun hu => hu.drainParams
  have hpel : Steady s₀ pel.2 := by
    dsimp only [pel]
    clear_value worst
    split
    · exact h7.passCompare
    · exact h7.passCompare.pellet
  have h9 : Steady s₀ s9 := .ite (hset hpel) hpel
  have hparts : Steady s₀ parts.2 := .fold2 h9 fun hu => .ite2 hu hu.drainPart
  have h10 : Steady s₀ s10 := (htoggle hparts).countExc
  have h11 : Steady s₀ s11 := .bump64If h10
  exact .ite h6.finishOp (.ite (htoggle h7).finishOp h11.finishOp)

theorem execMxpassDrainDone_continues {q : Nat} {residueOk : Bool} (h : Steady s₀ s) :
    Continues s₀ (execMxpassDrainDone q residueOk s) := by
  simp only [execMxpassDrainDone]
  split
  · exact .next h
  · exact .ite (.next (.ite h.runPass h.checkerFault)) (.next h)

/-! The operations of Machine/Oap. -/

theorem Steady.setPort {t : Transport} {p : Port} (h : Steady s₀ s) : Steady s₀ (s.setPort t p) := by
  simp only [State.setPort]
  split <;> exact h.withOap

theorem Steady.sendPdu {t : Transport} {src : Nat} {pdu : List Byte} (h : Steady s₀ s) :
    Steady s₀ (s.sendPdu t src pdu) := by
  simp only [State.sendPdu]
  split
  · exact .ite h.sendCan h
  · exact .ite h.sendEth h
  · exact h.withOap.raiseVector

theorem Steady.answer {a : Asker} {status : Nat} {value : List Byte} {total : Nat} (h : Steady s₀ s) :
    Steady s₀ (s.answer a status value total) := .sendPdu (.ite h.bump.setObj.setObj h)

/-! The operations of Machine/Selftest. -/

theorem Steady.testHooded {u : Nat} (h : Steady s₀ s) : Steady s₀ (s.testHooded u) := by
  simp only [State.testHooded]
  refine .ite ?_ h.setUnitSt
  split
  · exact h.setUnitSt
  · exact h.setHand.setTile.unless fun hi => hi.moveUnit
  · exact h.setUnitSt

theorem Steady.startTest {u : Nat} (h : Steady s₀ s) : Steady s₀ (s.startTest u) := by
  simp only [State.startTest]
  split
  · exact h.setUcb.startDrain
  · exact h.setUcb.testHooded
  · exact h.setUcb.powerUp
  · exact h.setUcb.powerUp
  · exact h.setUcb
  · exact h.setUcb
  · exact h

theorem Steady.requestTest {u : Nat} {forced : Bool} (h : Steady s₀ s) : Steady s₀ (s.requestTest u forced).2 :=
  .ite2 h (.ite2 h (.ite2 h (.ite2 h.setUcb (.ite2 h.bump.setObj (.ite h.setUcb.startTest h.setUcb)))))

theorem execSelftestStart_continues {unit : Nat} (h : Steady s₀ s) : Continues s₀ (execSelftestStart unit s) :=
  .ite (.ite (.next h.setUcb.bump.setObj) (.next h.startTest)) (.next h)

theorem Steady.copyTile {a b : Nat} (h : Steady s₀ s) : Steady s₀ (s.copyTile a b) := h.setTile.withCells SMap.wf_moveKeys

theorem execHandoverCopyDone_continues {tile : Nat} (h : Steady s₀ s) : Continues s₀ (execHandoverCopyDone tile s) := by
  simp only [execHandoverCopyDone]
  split
  · exact .ite (.next h.copyTile.setRedirect.setHand.bump.setUnitSt) (.next h)
  · exact .next h

theorem execReleaseCopyDone_continues {tile : Nat} (h : Steady s₀ s) : Continues s₀ (execReleaseCopyDone tile s) := by
  simp only [execReleaseCopyDone]
  split
  · exact .ite (.next (.enterReady (.endRedirect (.ite h h.copyTile)))) (.next h)
  · exact .next h

theorem Steady.startRepair {n v : Nat} {who : Option Asker} (h : Steady s₀ s) : Steady s₀ (s.startRepair n v who) :=
  h.setTile

theorem Steady.autoRepair {n : Nat} (h : Steady s₀ s) : Steady s₀ (s.autoRepair n) := by
  simp only [State.autoRepair]
  split
  · exact h.setUcb
  · refine .ite h.setTile.startRepair ?_
    split
    · exact h.setTile.setTile.unitFault.setHand.settleHand
    · exact h.setTile.setTile.unitFault

theorem execRepairProgramDone_continues {tile : Nat} (h : Steady s₀ s) : Continues s₀ (execRepairProgramDone tile s) := by
  simp only [execRepairProgramDone]
  split
  · exact .next h
  · refine .ite (.next h) ?_
    split
    · exact .next h.setTile.answer
    · exact .next h.setTile.autoRepair

theorem Steady.leaveTest {u : Nat} (h : Steady s₀ s) : Steady s₀ (s.leaveTest u) := by
  simp only [State.leaveTest]
  split
  · exact h.setUcb
  · exact h.setUcb.unhood
  · exact h.setUcb.moveUnit

theorem execSelftestComplete_continues {unit : Nat} {r : TestResult} {phys : Nat} {column : Bool} {repairs : List Nat}
    (h : Steady s₀ s) :
    Continues s₀ (execSelftestComplete unit r phys column repairs s) := by
  simp only [execSelftestComplete]
  refine .ite (.next h) ?_
  split
  · exact .next (.leaveTest (.thenIf (h.bump.setObj.setObj.setUcb.bumpIf) fun hi => hi.setUcb))
  · refine .next ?_
    split
    · exact h.bump.setObj.setObj.bump.setUcb.unitFault.thenIf fun hi => hi.setHand.settleHand
    · exact h.bump.setObj.setObj.bump.setUcb.unitFault
  · refine .ite ?_ ?_
    · refine .next ?_
      split
      · exact h.bump.setObj.setObj.bump.setUcb.unitFault.thenIf fun hi => hi.setHand.settleHand
      · exact h.bump.setObj.setObj.bump.setUcb.unitFault
    · refine .ite (.next h.bump.setObj.setObj.bump.setUcb.unitFault.setTile.autoRepair) ?_
      exact .next h.bump.setObj.setObj.bump.setUcb.unitFault

theorem Steady.stopTests (h : Steady s₀ s) : Steady s₀ s.stopTests := by
  simp only [State.stopTests]
  refine h.abortTests.fold fun hu => ?_
  split
  · exact .ite hu.setUnitSt.setHand hu
  · exact hu

/-! The operations of Machine/TileCtl. -/

theorem Steady.cfgWrite {u reg v : Nat} (h : Steady s₀ s) : Steady s₀ (s.cfgWrite u reg v) :=
  .ite (.ite h.setTile (.ite h.setTile h)) h

theorem Steady.cfgForget {u reg : Nat} (h : Steady s₀ s) : Steady s₀ (s.cfgForget u reg) := h.withEp

theorem Steady.cfgStage {u reg v : Nat} (h : Steady s₀ s) : Steady s₀ (s.cfgStage u reg v) := h.cfgForget.withEp

theorem Steady.cfgWord {q k : Nat} {c : Cmd} {mayWrite : Bool} (h : Steady s₀ s) :
    Steady s₀ (s.cfgWord q k c mayWrite) := by
  unfold State.cfgWord
  refine .ite h ?_
  refine .ite h.endProgram ?_
  refine .ite h.halted ?_
  exact .ite (.advance (h.fold fun hu => hu.cfgStage)) (.ite (.advance (h.fold fun hu => hu.cfgForget.cfgWrite)) h)

theorem execCfgwCurBank_continues {q k : Nat} (h : Steady s₀ s) : Continues s₀ (execCfgwCurBank q k s) :=
  h.atWord fun hu => hu.cfgWord

theorem execCfgwStatDrop_continues {q k : Nat} (h : Steady s₀ s) : Continues s₀ (execCfgwStatDrop q k s) :=
  h.atWord fun hu => hu.cfgWord

theorem Steady.uctlWord {go : State → List Nat → State} {q k : Nat} {c : Cmd} (h : Steady s₀ s)
    (hgo : ∀ {u v}, Steady s₀ u → Steady s₀ (go u v)) :
    Steady s₀ (s.uctlWord q k c go) := .ite h.endProgram (.ite h.endProgram (.ite h.setSlot.advance (hgo h)))

theorem execUctl_continues {q k : Nat} (h : Steady s₀ s) : Continues s₀ (execUctl q k s) :=
  h.atWord fun hu => hu.uctlWord fun hv => .advance (hv.fold fun hw => hw.ucbRequest)

theorem execUctlTest_continues {q k : Nat} (h : Steady s₀ s) : Continues s₀ (execUctlTest q k s) := by
  unfold execUctlTest
  refine h.atWord fun hu => ?_
  refine hu.uctlWord fun hv => ?_
  exact .ite hv.endProgram (.advance (.thenIf (hv.fold2 fun hw => hw.requestTest) fun hi => hi.setSlot))

theorem Steady.applyRole {n v : Nat} (h : Steady s₀ s) : Steady s₀ (s.applyRole n v) := h.setObj.restSpare

theorem Steady.applySpareState {v : Nat} (h : Steady s₀ s) : Steady s₀ (s.applySpareState v) :=
  h.setObj.fold fun hu => hu.restSpare

theorem Steady.applyFaultInject {v : Nat} (h : Steady s₀ s) : Steady s₀ (s.applyFaultInject v) := h.withTiles

/-! The operations of Machine/Vector. -/

theorem Steady.vxRow {q k f : Nat} (h : Steady s₀ s) : Continues s₀ (vxRow q k f s) := h.atWord fun hu => hu.issue

theorem execVxopAdd_continues {q k : Nat} (h : Steady s₀ s) : Continues s₀ (execVxopAdd q k s) := h.vxRow

theorem execVxopSub_continues {q k : Nat} (h : Steady s₀ s) : Continues s₀ (execVxopSub q k s) := h.vxRow

theorem execVxopMul_continues {q k : Nat} (h : Steady s₀ s) : Continues s₀ (execVxopMul q k s) := h.vxRow

theorem execVxopMin_continues {q k : Nat} (h : Steady s₀ s) : Continues s₀ (execVxopMin q k s) := h.vxRow

theorem execVxopMax_continues {q k : Nat} (h : Steady s₀ s) : Continues s₀ (execVxopMax q k s) := h.vxRow

theorem execVxopAddSat_continues {q k : Nat} (h : Steady s₀ s) : Continues s₀ (execVxopAddSat q k s) := h.vxRow

theorem execVxopSubSat_continues {q k : Nat} (h : Steady s₀ s) : Continues s₀ (execVxopSubSat q k s) := h.vxRow

theorem execVxopAbs_continues {q k : Nat} (h : Steady s₀ s) : Continues s₀ (execVxopAbs q k s) := h.vxRow

theorem execVxopNeg_continues {q k : Nat} (h : Steady s₀ s) : Continues s₀ (execVxopNeg q k s) := h.vxRow

theorem execVxopRelu_continues {q k : Nat} (h : Steady s₀ s) : Continues s₀ (execVxopRelu q k s) := h.vxRow

theorem execVxopClamp_continues {q k : Nat} (h : Steady s₀ s) : Continues s₀ (execVxopClamp q k s) := h.vxRow

theorem execVxopAffine_continues {q k : Nat} (h : Steady s₀ s) : Continues s₀ (execVxopAffine q k s) := h.vxRow

theorem execVxopExp2_continues {q k : Nat} (h : Steady s₀ s) : Continues s₀ (execVxopExp2 q k s) := h.vxRow

theorem execVxopLog2_continues {q k : Nat} (h : Steady s₀ s) : Continues s₀ (execVxopLog2 q k s) := h.vxRow

theorem execVxopRecip_continues {q k : Nat} (h : Steady s₀ s) : Continues s₀ (execVxopRecip q k s) := h.vxRow

theorem execVxopRsqrt_continues {q k : Nat} (h : Steady s₀ s) : Continues s₀ (execVxopRsqrt q k s) := h.vxRow

theorem execVxopSigmoid_continues {q k : Nat} (h : Steady s₀ s) : Continues s₀ (execVxopSigmoid q k s) := h.vxRow

theorem execVxopTanh_continues {q k : Nat} (h : Steady s₀ s) : Continues s₀ (execVxopTanh q k s) := h.vxRow

theorem execVxopSilu_continues {q k : Nat} (h : Steady s₀ s) : Continues s₀ (execVxopSilu q k s) := h.vxRow

theorem execVxopConvert_continues {q k : Nat} (h : Steady s₀ s) : Continues s₀ (execVxopConvert q k s) := h.vxRow

theorem execVxopRequant_continues {q k : Nat} (h : Steady s₀ s) : Continues s₀ (execVxopRequant q k s) := h.vxRow

theorem execVxopRedSum_continues {q k : Nat} (h : Steady s₀ s) : Continues s₀ (execVxopRedSum q k s) := h.vxRow

theorem execVxopRedMax_continues {q k : Nat} (h : Steady s₀ s) : Continues s₀ (execVxopRedMax q k s) := h.vxRow

theorem execVxopRedMin_continues {q k : Nat} (h : Steady s₀ s) : Continues s₀ (execVxopRedMin q k s) := h.vxRow

theorem execVxopTopk_continues {q k : Nat} (h : Steady s₀ s) : Continues s₀ (execVxopTopk q k s) := h.vxRow

theorem execVxopSort_continues {q k : Nat} (h : Steady s₀ s) : Continues s₀ (execVxopSort q k s) := h.vxRow

theorem execVxopGather_continues {q k : Nat} (h : Steady s₀ s) : Continues s₀ (execVxopGather q k s) := h.vxRow

theorem execVxopScatter_continues {q k : Nat} (h : Steady s₀ s) : Continues s₀ (execVxopScatter q k s) := h.vxRow

theorem execVxopLimbcomb_continues {q k : Nat} (h : Steady s₀ s) : Continues s₀ (execVxopLimbcomb q k s) := h.vxRow

theorem execVxopUndefinedFunc_continues {q k : Nat} (h : Steady s₀ s) : Continues s₀ (execVxopUndefinedFunc q k s) :=
  h.atWord fun hu => hu.endProgram

theorem Steady.writeMarked {u off : Nat} {bs : List Byte} {mk : Nat → Nat → Nat} (h : Steady s₀ s) :
    Steady s₀ (s.writeMarked u off bs mk) := h.fold fun hu => hu.ownWrite

theorem Steady.vxElems {u : Nat} {o : UnitOp} {c : Cmd} {inj : Option Fmt} (h : Steady s₀ s) :
    Steady s₀ (s.vxElems u o c inj).s := by
  unfold State.vxElems
  exact .ownRead (.ite3 h.ownRead.ownRead h.ownRead)

theorem Steady.vxWhole {u : Nat} {o : UnitOp} {c : Cmd} {inj : Option Fmt} (h : Steady s₀ s) :
    Steady s₀ (s.vxWhole u o c inj).s := by
  unfold State.vxWhole
  refine .iteVxOut h.ownRead ?_
  refine .iteVxOut h.ownRead ?_
  refine .iteVxOut (.iteVxOut (.fold3 h.ownRead fun hu => hu.ownRead) (.fold3 h.ownRead fun hu => hu.ownRead)) ?_
  exact .fold3 h.ownRead fun hu => hu.ownRead

theorem Steady.runVx {o : UnitOp} (h : Steady s₀ s) : Steady s₀ (s.runVx o) := by
  unfold State.runVx
  extract_lets c u n f st blk cyc vt vt' _ s1 s2 inj _ s3 r s4 total s5 s6 s7 s8 s9 evs rec_ s10
  have h2 : Steady s₀ s2 := h.withTiles.bump64
  have h3 : Steady s₀ s3 := h2.thenIf fun hu => hu.withTiles
  have hr : Steady s₀ r.s := .iteVxOut h3.vxElems h3.vxWhole
  have h4 : Steady s₀ s4 := hr.fold fun hu => hu.writeMarked
  have h8 : Steady s₀ s8 := .bump64If (.bumpIf (.bump64If h4.bump64))
  have h9 : Steady s₀ s9 := h8.unless fun hu => hu.bump
  have h10 : Steady s₀ s10 := .bumpIf h9
  exact .ite h2.finishOp (.ite h2.finishOp h10.countExc.finishOp)

theorem Steady.applyExcInject {v : Nat} (h : Steady s₀ s) : Steady s₀ (s.applyExcInject v) := h.withTiles

/-! The operations of Machine/Streams. -/

theorem Steady.extentCheck {c : Nat} {p : Pat} {r w : Bool} (h : Steady s₀ s) : Steady s₀ (s.extentCheck c p r w).2 :=
  .ite2 h (h.fold3 fun hu => .ite3 hu.xlate hu.xlate)

theorem Steady.descCheck {x : Engine} {d : List Byte} (h : Steady s₀ s) : Steady s₀ (s.descCheck x d).2 :=
  .ite2 h (.ite2 h (.extentCheck (.ite2 h h.extentCheck)))

theorem Steady.stopChain {e st : Nat} (h : Steady s₀ s) : Steady s₀ (s.stopChain e st) :=
  .ite h.cancelWait.setEngine.setEngine h.cancelWait.setEngine.endChain

theorem Steady.engSettle {e : Nat} (h : Steady s₀ s) : Steady s₀ (s.engSettle e) := .ite h.endChain h

theorem Steady.noteBeat {e st mark : Nat} (h : Steady s₀ s) : Steady s₀ (s.noteBeat e st mark) := h.setEngine

theorem Steady.unbackedPellet {e ga : Nat} (h : Steady s₀ s) : Steady s₀ (s.unbackedPellet e ga).2 := by
  unfold State.unbackedPellet
  exact h.pellet

theorem Steady.countWr {e : Nat} (h : Steady s₀ s) : Steady s₀ (s.countWr e) := h.setEngine

theorem Steady.pumpEng {e n : Nat} (h : Steady s₀ s) : Steady s₀ (State.pumpEng e n s) := by
  induction n generalizing s with
  | zero => exact h
  | succ n ih =>
    unfold State.pumpEng
    split
    · exact h
    · dsimp only
      split
      · exact ih h.setEngine.unbackedAt.unbackedPellet.noteBeat
      · exact ih h.setEngine.noteBeat
      · split
        · next t he => exact ih (h.setEngine.send he).countWr.noteBeat
        · exact h

theorem Steady.beatWrite {e slot space a : Nat} {bs : List Byte} {m : Nat} (h : Steady s₀ s) :
    Steady s₀ (s.beatWrite e slot space a bs m).2 :=
  .ite2 h.emit.countWr (.ite2 h.xlate (.ite2 h.xlate h.xlate.setEngine.pumpEng))

theorem Steady.deliverBeat {e slot : Nat} {ps : List (Nat × Nat × Nat)} {bs : List Byte} {m : Nat} (h : Steady s₀ s) :
    Steady s₀ (s.deliverBeat e slot ps bs m) := h.fold fun hu => .ite hu (.ite hu.beatWrite.stopChain hu.beatWrite)

theorem Steady.injectBeat {e m ga : Nat} (h : Steady s₀ s) : Steady s₀ (s.injectBeat e m ga).2 :=
  .ite2 h.setEngine.pellet h

theorem Steady.countRd {e : Nat} (h : Steady s₀ s) : Steady s₀ (s.countRd e) := h.setEngine

theorem Steady.beatArrives {e slot : Nat} {ps : List (Nat × Nat × Nat)} {st : Nat} {bs : List Byte} {m ga : Nat}
    (h : Steady s₀ s) :
    Steady s₀ (s.beatArrives e slot ps st bs m ga) := h.injectBeat.countRd.noteBeat.deliverBeat

theorem Steady.moveBeats {e : Nat} {d : List Byte} {f stop : Nat} (h : Steady s₀ s) :
    Steady s₀ (s.moveBeats e d f stop) := by
  have hsend : ∀ {s t p use}, Steady s₀ s → s.send p use = some t → Steady s₀ t := .send
  delta State.moveBeats State.moveBeats._f
  generalize State.send = send at hsend ⊢
  generalize State.destOf = dest
  revert send dest
  refine id ?_
  intro send hsend dest
  induction f generalizing s stop with
  | zero => exact h
  | succ f ih =>
    dsimp only
    refine .ite h (.ite (ih h.setEngine.deliverBeat) (.ite h (.ite ?_ ?_)))
    · exact .ite h (ih h.withHost.setEngine.setEngine.emit)
    · refine .ite h.xlate.stopChain (.ite h.xlate.stopChain ?_)
      split
      · exact ih h.xlate.unbackedAt.unbackedPellet.drawBytes.setEngine.beatArrives
      · exact ih h.xlate.linkAbsentData.setEngine.beatArrives
      · split
        · next t he => exact ih (hsend h.xlate he).setEngine.setEngine
        · exact h

theorem Steady.streamWord {go : Nat → State} {q k : Nat} {c : Cmd} {start : Bool} (h : Steady s₀ s)
    (hgo : ∀ n, Steady s₀ (go n)) :
    Steady s₀ (s.streamWord q k c start go) := by
  simp only [State.streamWord]
  split
  · exact .ite h.endProgram (hgo _)
  · exact h.endProgram

theorem execStreamStart_continues {q k : Nat} (h : Steady s₀ s) : Continues s₀ (execStreamStart q k s) := by
  unfold execStreamStart
  refine h.atWord fun hu => ?_
  refine .ite hu.endProgram ?_
  refine hu.streamWord fun _ => ?_
  exact .ite hu (.ite hu.halted (.ite hu.waitAt (.ite hu.waitAt hu.keepStatus.setEngine.setSlot.advance)))

theorem execStreamStop_continues {q k : Nat} (h : Steady s₀ s) : Continues s₀ (execStreamStop q k s) :=
  h.atWord fun hu => hu.streamWord fun _ => .ite hu.waitAt (.advance (.ite hu.stopChain hu))

theorem execStreamWait_continues {q k : Nat} (h : Steady s₀ s) : Continues s₀ (execStreamWait q k s) := by
  unfold execStreamWait
  refine h.atWord fun hu => ?_
  refine hu.streamWord fun _ => ?_
  exact .ite hu.waitAt (.ite hu.waitAt (.ite hu.takeStreams.endProgram hu.takeStreams.advance))

theorem Steady.nextDesc {e : Nat} {d : List Byte} (h : Steady s₀ s) : Steady s₀ (s.nextDesc e d) :=
  .ite h.setEngine h.setEngine.stopChain

theorem Steady.beginDesc {e : Nat} {d : List Byte} (h : Steady s₀ s) : Steady s₀ (s.beginDesc e d) :=
  .ite h.descCheck.stopChain (.ite h.descCheck.nextDesc h.descCheck.setEngine)

theorem execDescriptorStart_continues {e : Nat} (h : Steady s₀ s) : Continues s₀ (execDescriptorStart e s) := by
  have hsend : ∀ {s t p use}, Steady s₀ s → s.send p use = some t → Steady s₀ t := .send
  unfold execDescriptorStart
  generalize State.send = send at hsend ⊢
  generalize State.destOf = dest
  revert send dest
  refine id ?_
  intro send hsend dest
  dsimp only
  refine .ite (.next h) ?_
  refine .ite (.next h.beginDesc) ?_
  refine .ite (.next h) ?_
  refine .ite (.next h.stopChain) ?_
  refine .ite (.next h.xlate.stopChain) ?_
  refine .ite (.next h.xlate.stopChain) ?_
  split
  · exact .next h.xlate.unbackedAt.stopChain
  · exact .next h.xlate.linkAbsentData.noteBeat.stopChain
  · split
    · next t he => exact .next (hsend h.xlate he).setEngine
    · exact .next h

theorem Steady.engWait {e m tmo : Nat} (h : Steady s₀ s) : Steady s₀ (s.engWait e m tmo) := h.getD fun _ => h.send

theorem execStreamSlotAcquire_continues {e : Nat} (h : Steady s₀ s) : Continues s₀ (execStreamSlotAcquire e s) := by
  simp only [execStreamSlotAcquire]
  refine .ite (.next h) ?_
  refine .ite (.next h.pumpEng) ?_
  refine .ite (.next h) ?_
  refine .ite (.next h.moveBeats) ?_
  split
  · exact .ite (.next h.take.answerWait) (.next h)
  · refine .ite (.next h) ?_
    refine .ite (.next h.engWait) ?_
    exact Steady.pipe (.ite h.takeNow.setEngine h) fun h1 =>
        .ite (.next h1.engWait) (.next (.moveBeats (.setEngine (.ite h1.takeNow h1))))

theorem Steady.engPost {e m dev : Nat} {done : Engine → Engine} (h : Steady s₀ s) : Steady s₀ (s.engPost e m dev done) := by
  simp only [State.engPost]
  refine .ite (.ite h.counted.post.setEngine h.counted.post.stopChain) ?_
  split
  · exact h.stopChain
  · split
    · next t he => exact (h.send he).setEngine
    · exact h

theorem execStreamFillPost_continues {e : Nat} (h : Steady s₀ s) : Continues s₀ (execStreamFillPost e s) :=
  .ite (.next h.engPost) (.next h)

theorem execStreamFreePost_continues {e : Nat} (h : Steady s₀ s) : Continues s₀ (execStreamFreePost e s) :=
  .ite (.next h.engPost) (.next h)

theorem execStreamWaitTimeout_continues {e : Nat} (h : Steady s₀ s) : Continues s₀ (execStreamWaitTimeout e s) := by
  simp only [execStreamWaitTimeout]
  split
  · exact .occ h.answerWait h
  · exact .next h

theorem execDescriptorComplete_continues {e : Nat} (h : Steady s₀ s) : Continues s₀ (execDescriptorComplete e s) :=
  .ite (.next h.nextDesc) (.next h)

theorem Steady.engSnap {e : Nat} (h : Steady s₀ s) : Steady s₀ (s.engSnap e) := .ite h.setEngine.withStr h.setEngine

theorem execEngSnap_continues {e : Nat} (h : Steady s₀ s) : Continues s₀ (execEngSnap e s) := .occ h.engSnap h

theorem execEngClear_continues {e : Nat} (h : Steady s₀ s) : Continues s₀ (execEngClear e s) := .occ h.setEngine h

theorem Steady.applyStallSelect {v : Nat} (h : Steady s₀ s) : Steady s₀ (s.applyStallSelect v) := h.setObj.withStr

theorem Steady.applyPoisonInject {v : Nat} (h : Steady s₀ s) : Steady s₀ (s.applyPoisonInject v) := .ite h.setEngine h

theorem execJessValueWrite_continues {pair value : Nat} (h : Steady s₀ s) :
    Continues s₀ (execJessValueWrite pair value s) :=
  .occ h.setJess h

theorem execJessPostRegister_continues {pair value : Nat} (h : Steady s₀ s) :
    Continues s₀ (execJessPostRegister pair value s) := .occ h.post h

/-! The operations of Machine/NoC. -/

theorem Steady.setPacket {p : Packet} (h : Steady s₀ s) : Steady s₀ (s.setPacket p) := h.trans (State.setPacket_steady _ _)

theorem Steady.discardFlit {p : Packet} {node : Nat} (h : Steady s₀ s) : Steady s₀ (s.discardFlit p node) :=
  h.dropPacket.bump.raise

theorem Steady.served {k : Packet} (h : Steady s₀ s) : Steady s₀ (s.served k) := h.withNet

theorem Steady.movePacket {p : Packet} (h : Steady s₀ s) : Steady s₀ (s.movePacket p) := h.withNet

theorem Steady.poisonFlit {k : Packet} (h : Steady s₀ s) : Steady s₀ (s.poisonFlit k) := by
  simp only [State.poisonFlit]
  split
  · exact .dropPacket (.ite2 h.bump h.bump.pellet)
  · exact .movePacket (.ite2 h.bump h.bump.pellet)
  · exact .movePacket (.ite2 h.bump h.bump.pellet)
  · exact .movePacket (.ite2 h.bump h.bump.pellet)

theorem execFlitArrival_continues {p : Nat} {c : FlitCheck} (h : Steady s₀ s) : Continues s₀ (execFlitArrival p c s) := by
  simp only [execFlitArrival]
  split
  · exact .next h
  · refine .ite (.next h) ?_
    split
    · exact .next (.ite h.discardFlit h)
    · refine .ite (.next h) ?_
      split
      · exact .next (.ite h.served.movePacket.serveNode h.served.movePacket)
      · exact .next (.ite h.served.movePacket.bump.raise.serveNode h.served.movePacket.bump.raise)
      · exact .next h.served.discardFlit
      · refine .next ?_
        refine .ite (.serveNode (.ite h.served.poisonFlit h.served.movePacket)) ?_
        exact .ite h.served.poisonFlit h.served.movePacket

theorem Steady.niReject {node off st : Nat} (h : Steady s₀ s) : Steady s₀ (s.niReject node off st) := h.setNi

theorem Steady.routeCtrlWrite {node e value : Nat} (h : Steady s₀ s) : Steady s₀ (s.routeCtrlWrite node e value).2 :=
  .ite2 h.setNi.bump.niReject h.setNi

theorem execRouteCtrlWrite_continues {node e value : Nat} (h : Steady s₀ s) :
    Continues s₀ (execRouteCtrlWrite node e value s) := .occ h.routeCtrlWrite h

theorem Steady.routeMovesWrite {node e value : Nat} (h : Steady s₀ s) : Steady s₀ (s.routeMovesWrite node e value).2 :=
  .ite2 h.niReject h.setNi

theorem execRouteMovesWrite_continues {node e value : Nat} (h : Steady s₀ s) :
    Continues s₀ (execRouteMovesWrite node e value s) := .occ h.routeMovesWrite h

theorem Steady.takeStats {clear : Bool} (h : Steady s₀ s) : Steady s₀ (s.takeStats clear) := h.withNet

theorem Steady.applyStatsSnapshot {v : Nat} (h : Steady s₀ s) : Steady s₀ (s.applyStatsSnapshot v) :=
  .ite h (.ite h.takeStats (.ite h.withNet h.bump))

theorem execStatsSnapshotDone_continues (h : Steady s₀ s) : Continues s₀ (execStatsSnapshotDone s) := by
  simp only [execStatsSnapshotDone]
  refine .ite (.next h) ?_
  split
  · exact .next h.withNet
  · exact .next h.withNet.takeStats

theorem execJessPost_continues {p : Nat} (h : Steady s₀ s) : Continues s₀ (execJessPost p s) := by
  simp only [execJessPost]
  split
  · refine .next ?_
    split
    · exact h.post.dropPacket.respond
    · exact h.post.dropPacket
  · exact .next h

theorem execJessWait_continues {p : Nat} (h : Steady s₀ s) : Continues s₀ (execJessWait p s) := by
  simp only [execJessWait]
  split
  · exact .next h
  · exact .ite (.next h) (.ite (.next h.dropPacket.take.respond) (.next h.dropPacket.addWaiter))

theorem execJessWaitCancel_continues {p : Nat} (h : Steady s₀ s) : Continues s₀ (execJessWaitCancel p s) := by
  simp only [execJessWaitCancel]
  split
  · exact .next h
  · exact .ite (.next h) (.next (.respond (.dropPacket (.withStr (h.fold fun hu => hu.freeOutst)))))

theorem execJessWaitTimeout_continues {p : Nat} (h : Steady s₀ s) : Continues s₀ (execJessWaitTimeout p s) := by
  simp only [execJessWaitTimeout]
  split
  · exact .next h
  · exact .occ h.answerWait h

/-! The operations of Machine/Apt. -/

theorem Steady.setScrubAt {u p : Nat} (h : Steady s₀ s) : Steady s₀ (s.setScrubAt u p) := h.withMem

theorem Steady.finds {a : Nat} {found : List (Nat × Nat)} (h : Steady s₀ s) : Steady s₀ (s.finds a found) :=
  .ite h h.setEcc

theorem execScrubLine_continues {line : Nat} {found : List (Nat × Nat)} {onDie : Bool} (h : Steady s₀ s) :
    Continues s₀ (execScrubLine line found onDie s) := by
  simp only [execScrubLine]
  split
  · exact .next h
  · refine .ite (.next h) ?_
    exact Steady.pipe (.ite h (.checkLine (.thenIf (.ite h.finds.bump.raise h.finds) fun hi => hi.bump))) fun h4 =>
        .ite (.next (.bump (h4.setScrubAt.fold fun hu => hu.setScrubAt))) (.next h4.setScrubAt)

theorem execSramScrubWord_continues {addr : Nat} {found : List (Nat × Nat)} (h : Steady s₀ s) :
    Continues s₀ (execSramScrubWord addr found s) := by
  simp only [execSramScrubWord]
  split
  · exact .next h
  · exact .ite (.next h) (.next (.setScrubAt (.ite h h.finds.checkLine)))

theorem execLpRecal_continues {port : Nat} (h : Steady s₀ s) : Continues s₀ (execLpRecal port s) := .occ h.draw.withMem h

theorem Steady.setApt {c i : Nat} {e : Apt} (h : Steady s₀ s) : Steady s₀ (s.setApt c i e) :=
  h.trans (State.setApt_steady _ _ _ _)

theorem Steady.aptReject {c i word st : Nat} (h : Steady s₀ s) : Steady s₀ (s.aptReject c i word st) := h.setAptCtl.bump

theorem Steady.aptWord0 {c i value : Nat} (h : Steady s₀ s) : Steady s₀ (s.aptWord0 c i value).2 :=
  .ite2 h.aptReject h.setApt

theorem Steady.aptWord1 {c i value : Nat} (h : Steady s₀ s) : Steady s₀ (s.aptWord1 c i value).2 :=
  .ite2 h.aptReject h.setApt

theorem execAptWord0Write_continues {ctx entry value : Nat} (h : Steady s₀ s) :
    Continues s₀ (execAptWord0Write ctx entry value s) := .occ h.aptWord0 h

theorem execAptWord1Write_continues {ctx entry value : Nat} (h : Steady s₀ s) :
    Continues s₀ (execAptWord1Write ctx entry value s) := .occ h.aptWord1 h

theorem Steady.bootApt (h : Steady s₀ s) : Steady s₀ s.bootApt := h.withMem

theorem Steady.applyEccInject {v : Nat} (h : Steady s₀ s) : Steady s₀ (s.applyEccInject v) :=
  .ite h (.ite h.setEcc h.setEcc)

theorem Steady.inbound {dev a : Nat} {r w : Bool} (h : Steady s₀ s) : Steady s₀ (s.inbound dev a r w).2 := by
  simp only [State.inbound]
  refine .ite2 h.bump ?_
  split
  · exact h
  · split
    · exact h.bump
    · exact Steady.pipe (.ite h h.bump) fun h1 => .ite2 h1.bump h1
  · exact h.bump

/-! The operations of Machine/Fetch. -/

theorem Steady.clearBuf {ag : Agent} {job : Nat} (h : Steady s₀ s) : Steady s₀ (s.clearBuf ag job) :=
  h.trans (State.clearBuf_steady _ _ _)

theorem Steady.unbackedBeat {ag : Agent} {ga : Nat} (h : Steady s₀ s) : Steady s₀ (s.unbackedBeat ag ga).2 := by
  unfold State.unbackedBeat
  exact h.unbackedAt.pellet

theorem Steady.askPiece {ag : Agent} {job tc ga n : Nat} (h : Steady s₀ s) : Steady s₀ (s.askPiece ag job tc ga n) := by
  simp only [State.askPiece]
  refine .ite h ?_
  split
  · exact h.getD fun _ => h.send
  · exact h

theorem Steady.fetchPieces {ag : Agent} {job tc : Nat} {ps : List (Nat × Nat × Nat)} (h : Steady s₀ s) :
    Steady s₀ (s.fetchPieces ag job tc ps).2 := by
  simp only [State.fetchPieces]
  refine .ite2 h ?_
  refine .ite2 (h.fold fun hu => hu.askPiece) ?_
  refine h.fold2 fun hu => ?_
  split
  · exact hu
  · exact .ite2 (.ite2 hu.unbackedBeat.drawBytes hu.unbackedAt) hu.linkAbsentData

theorem Steady.readCa {ag : Agent} {job tc ctx ca n : Nat} (h : Steady s₀ s) :
    Steady s₀ (s.readCa ag job tc ctx ca n).2 := by
  simp only [State.readCa]
  refine .ite2 h ?_
  refine .ite2 h.xlateRange ?_
  split
  · next t he => exact h.fetchPieces.snd he
  · exact h.xlateRange.fetchPieces

theorem Steady.putPieces {ag : Agent} {tc : Nat} {replay : Bool} {ps : List (Nat × Nat × Nat)} {bs : List Byte} {m : Nat}
    {use : Use} {w : Nat × State} (h : Steady s₀ s) (e : s.putPieces ag tc replay ps bs m use = some w) : Steady s₀ w.2 := by
  simp only [State.putPieces] at e
  split at e
  · cases e
    exact h
  · split at e
    · cases e
    · cases e
      refine h.fold2 fun hu => ?_
      split
      · exact .ite2 hu.unbackedBeat hu.unbackedAt
      · exact hu
      · exact hu.getD fun _ => hu.send

/-! The operations of Machine/Host. -/

theorem Steady.holdHost {fn : Nat} {op : HostOp} (h : Steady s₀ s) : Steady s₀ (s.holdHost fn op) := h.withHost

theorem Steady.inOrder {go : Res} {fn : Nat} {op : HostOp} (h : Steady s₀ s) (hgo : Continues s₀ go) :
    Continues s₀ (s.inOrder fn op go) := .ite (.next h.holdHost) hgo

theorem Steady.ringReject {n off st : Nat} (h : Steady s₀ s) : Steady s₀ (s.ringReject n off st) := h.setRing.bump

theorem Steady.fnReject {fn off st : Nat} (h : Steady s₀ s) : Steady s₀ (s.fnReject fn off st) := h.withHost.bump

theorem Steady.ringWrite {go : State → State} {fn n off : Nat} {checks : List (Bool × Nat)} (h : Steady s₀ s)
    (hgo : ∀ {u}, Steady s₀ u → Steady s₀ (go u)) :
    Continues s₀ (s.ringWrite fn n off checks go) := .ite (.next h) (.ite (.next h.ringReject) (.next (hgo h)))

theorem Steady.fnWrite {go : State → State} {fn off : Nat} {may : Bool} {checks : List (Bool × Nat)} (h : Steady s₀ s)
    (hgo : ∀ {u}, Steady s₀ u → Steady s₀ (go u)) :
    Continues s₀ (s.fnWrite fn off may checks go) := .ite (.next h) (.ite (.next h.fnReject) (.next (hgo h)))

theorem Steady.sendPending {fn : Nat} (h : Steady s₀ s) : Steady s₀ (s.sendPending fn) :=
  h.fold fun hu => .ite hu hu.setVec.emit

theorem Steady.stopRingChains {n : Nat} (h : Steady s₀ s) : Steady s₀ (s.stopRingChains n) := h.fold fun hu => hu.stopChain

theorem Steady.stopWait {q k : Nat} (h : Steady s₀ s) : Steady s₀ (s.stopWait q k) := by
  simp only [State.stopWait]
  split
  · exact h
  · exact h.setSlot.cancelWait

theorem Steady.resetSq {n : Nat} {andCq : Bool} (h : Steady s₀ s) : Steady s₀ (s.resetSq n andCq) :=
  .stopRingChains (h.setRing.withHost.fold fun hu => hu.stopWait.loseRsv.setSlot)

theorem Steady.resetCqNow {n : Nat} (h : Steady s₀ s) : Steady s₀ (s.resetCqNow n) := h.setRing.withHost

theorem Steady.freeSlot {q k : Nat} (h : Steady s₀ s) : Steady s₀ (s.freeSlot q k) :=
  h.vacateAll.unitIdle.fold fun hu => hu.unitIdle

theorem Steady.settleFlr (h : Steady s₀ s) : Steady s₀ s.settleFlr := h.fold fun hu => .ite hu.setRing.resetCqNow hu

theorem Steady.finishReset {n : Nat} (h : Steady s₀ s) : Steady s₀ (s.finishReset n) := by
  unfold State.finishReset
  refine .ite (.settleFlr (.setRing (h.fold fun hu => hu.freeSlot))) ?_
  refine .ite (.setRing (h.fold fun hu => hu.freeSlot)) ?_
  refine .ite (.ringReject (.setRing (h.fold fun hu => hu.freeSlot))) ?_
  exact .resetCqNow (.setRing (h.fold fun hu => hu.freeSlot))

theorem execRingResetDone_continues {n : Nat} (h : Steady s₀ s) : Continues s₀ (execRingResetDone n s) :=
  .occ h.finishReset h

theorem Steady.resetFunction {fn : Nat} (h : Steady s₀ s) : Steady s₀ (s.resetFunction fn) := by
  unfold State.resetFunction
  refine .withHost ?_
  refine .ite (.bootApt (h.fold fun hu => .ite hu.resetSq.setRing hu)) ?_
  exact .withMem (h.fold fun hu => .ite hu.resetSq.setRing hu)

theorem Steady.clearVfs (h : Steady s₀ s) : Steady s₀ s.clearVfs := .withHost (.ite (h.fold fun hu => hu.resetFunction) h)

theorem execFunctionLevelReset_continues {fn : Nat} (h : Steady s₀ s) : Continues s₀ (execFunctionLevelReset fn s) :=
  .ite (.next h) (.ite (.next h.clearVfs.resetFunction) (.next h.resetFunction))

theorem Steady.cfgValue {fn : Nat} {f : CfgField} (h : Steady s₀ s) : Steady s₀ (s.cfgValue fn f).2 := by
  simp only [State.cfgValue]
  split
  · exact h
  · exact h
  · exact h
  · exact h
  · exact h
  · exact h
  · exact h
  · exact h
  · exact h
  · exact h
  · exact h
  · exact h
  · exact h
  · exact h
  · exact h
  · exact h
  · exact h
  · exact h
  · exact h
  · exact h
  · exact h
  · exact h
  · exact h
  · exact h
  · exact h
  · exact h
  · exact h
  · exact h
  · exact h
  · exact h.draw

theorem Steady.cfgSet {fn : Nat} {f : CfgField} {v : Nat} (h : Steady s₀ s) : Steady s₀ (s.cfgSet fn f v) := by
  simp only [State.cfgSet]
  split
  · exact .ite h.withHost h
  · exact .ite h (.ite h.withHost h.clearVfs)
  · exact h.withHost.sendPending
  · exact h.withHost.sendPending
  · exact .ite h.withHost.sendPending.drainCpls (.ite h.withHost h)
  · exact h.withHost
  · exact .ite h.withHost h
  · exact .ite h.withHost h
  · exact h.withHost
  · exact h.withHost
  · exact h

theorem execPcieConfigRequest_continues {fn : Nat} {f : CfgField} {write : Option Nat} (h : Steady s₀ s) :
    Continues s₀ (execPcieConfigRequest fn f write s) := by
  simp only [execPcieConfigRequest]
  refine .ite (.next h) ?_
  refine .ite (.next h.emit) ?_
  refine .ite (.next h) ?_
  split
  · exact .next h.cfgSet.emit
  · exact .next h.cfgValue.emit

theorem execPcieLinkDown_continues (h : Steady s₀ s) : Continues s₀ (execPcieLinkDown s) := .occ h.withHost h

theorem Steady.linkReturns {rate width : Nat} (h : Steady s₀ s) : Steady s₀ (s.linkReturns rate width) :=
  .fold (.drainCpls (.withHost (.ite h h.bump))) fun hu => hu.sendPending

theorem Steady.pcieReduced {common : Nat} (h : Steady s₀ s) : Steady s₀ (s.pcieReduced common) := .ite h.setObj h.setObj

theorem execCtxBindWrite_continues {fn c value : Nat} (h : Steady s₀ s) : Continues s₀ (execCtxBindWrite fn c value s) :=
  h.inOrder (h.fnWrite fun hu => hu.withHost)

theorem execRingBindWrite_continues {fn n value : Nat} (h : Steady s₀ s) : Continues s₀ (execRingBindWrite fn n value s) :=
  h.inOrder (h.fnWrite fun hu => hu.withHost)

theorem execIrqRouteWrite_continues {fn e value : Nat} (h : Steady s₀ s) : Continues s₀ (execIrqRouteWrite fn e value s) :=
  h.inOrder (h.fnWrite fun hu => hu.withHost)

theorem execBar2CtxWrite_continues {fn value : Nat} (h : Steady s₀ s) : Continues s₀ (execBar2CtxWrite fn value s) :=
  h.inOrder (h.fnWrite fun hu => hu.withHost)

theorem Steady.bar2Pieces {fn addr len : Nat} {w : Bool} (h : Steady s₀ s) : Steady s₀ (s.bar2Pieces fn addr len w).2 := by
  simp only [State.bar2Pieces]
  refine .ite2 h ?_
  refine .ite2 h.xlateRange ?_
  split
  · exact h.xlateRange.unbackedAt
  · exact h.xlateRange

theorem execBar2Write_continues {fn addr : Nat} {data : List Byte} (h : Steady s₀ s) :
    Continues s₀ (execBar2Write fn addr data s) := by
  simp only [execBar2Write]
  refine .ite (.next h) ?_
  refine .ite (.next h.holdHost) ?_
  split
  · next t he => exact .next (h.bar2Pieces.snd he).bump
  · next ps t he =>
      refine .ite (.next h.holdHost) ?_
      refine .next ?_
      refine (h.bar2Pieces.snd he).fold fun hu => ?_
      split
      · exact hu.getD fun _ => hu.send
      · exact hu

theorem Steady.bar2Piece {id off status : Nat} {bs : List Byte} {mark : Nat} (h : Steady s₀ s) :
    Steady s₀ (s.bar2Piece id off status bs mark) := by
  simp only [State.bar2Piece]
  split
  · exact h
  · exact .ite h.withHost (.ite h.withHost.bump.emit (.emit (.ite h.withHost.setObj h.withHost)))

theorem execBar2Read_continues {fn addr len : Nat} (h : Steady s₀ s) : Continues s₀ (execBar2Read fn addr len s) := by
  simp only [execBar2Read]
  refine .ite (.next h) ?_
  refine .ite (.next h.holdHost) ?_
  split
  · next t he => exact .next (h.bar2Pieces.snd he).bump.emit
  · next ps t he =>
      refine .ite (.next h.holdHost) ?_
      refine .next ?_
      refine (h.bar2Pieces.snd he).withHost.fold fun hu => ?_
      split
      · exact hu.getD fun _ => hu.send
      · exact hu.linkAbsentData.bar2Piece

theorem execSqCfgWrite_continues {fn n value : Nat} (h : Steady s₀ s) : Continues s₀ (execSqCfgWrite fn n value s) :=
  h.inOrder (h.ringWrite fun hu => hu.setRing)

theorem execCqCfgWrite_continues {fn n value : Nat} (h : Steady s₀ s) : Continues s₀ (execCqCfgWrite fn n value s) :=
  h.inOrder (h.ringWrite fun hu => hu.setRing)

theorem execSqDoorbell_continues {fn n value : Nat} (h : Steady s₀ s) : Continues s₀ (execSqDoorbell fn n value s) :=
  h.inOrder (h.ringWrite fun hu => hu.setRing)

theorem execResetSq_continues {fn n : Nat} {andCq : Bool} (h : Steady s₀ s) : Continues s₀ (execResetSq fn n andCq s) :=
  h.inOrder (h.ringWrite fun hu => hu.resetSq)

theorem execResetCq_continues {fn n : Nat} (h : Steady s₀ s) : Continues s₀ (execResetCq fn n s) :=
  h.inOrder (h.ringWrite fun hu => hu.resetCqNow)

theorem execPause_continues {fn n : Nat} (h : Steady s₀ s) : Continues s₀ (execPause fn n s) :=
  h.inOrder (h.ringWrite fun hu => .ite hu.setRing hu)

theorem execResume_continues {fn n : Nat} (h : Steady s₀ s) : Continues s₀ (execResume fn n s) :=
  h.inOrder (h.ringWrite fun hu => .ite hu.setRing hu)

theorem execCqHeadWrite_continues {fn n value : Nat} (h : Steady s₀ s) : Continues s₀ (execCqHeadWrite fn n value s) :=
  h.inOrder (h.ringWrite fun hu => hu.setRing.drainCpls)

theorem execEntryFetch_continues {ring : Nat} (h : Steady s₀ s) : Continues s₀ (execEntryFetch ring s) :=
  .occ h.withHost.emit h

theorem Steady.entryDone {n slot tag status flags : Nat} (h : Steady s₀ s) :
    Steady s₀ (s.entryDone n slot tag status flags) :=
  .ite h h.postCpl

theorem Steady.entryFetchFailed {n slot : Nat} (h : Steady s₀ s) : Steady s₀ (s.entryFetchFailed n slot) :=
  h.entryDone.faultRing

theorem Steady.wakeForWork {u : Nat} (h : Steady s₀ s) : Steady s₀ (s.wakeForWork u) := .ite h.powerUp h

theorem Steady.wakeHeads (h : Steady s₀ s) : Steady s₀ s.wakeHeads := by
  simp only [State.wakeHeads]
  refine h.fold fun hu => ?_
  split
  · exact .ite (hu.fold fun hv => hv.wakeForWork) hu
  · exact hu

theorem Steady.passHead {n : Nat} (h : Steady s₀ s) : Steady s₀ (s.passHead n) := h.setRing.bump64

theorem Steady.startProgram {n sqIdx : Nat} {bs : List Byte} (h : Steady s₀ s) : Steady s₀ (s.startProgram n sqIdx bs) := by
  simp only [State.startProgram]
  refine .fold ?_ fun hu => hu.unitBusy
  refine .setRing ?_
  refine h.fold fun hu => ?_
  split
  · exact hu
  · exact .ite hu.setSlot hu.setSlot

theorem execDispatchDecision_continues (h : Steady s₀ s) : Continues s₀ (execDispatchDecision s) := by
  simp only [execDispatchDecision]
  refine .ite (.next h) ?_
  split
  · exact .next h.wakeHeads
  · split
    · exact .next h.wakeHeads.withHost
    · split
      · exact .next h.wakeHeads.withHost
      · exact .next (.faultRing (.entryDone (h.wakeHeads.withHost.thenIf fun hi => hi.xlate)))
      · exact .next h.wakeHeads.withHost.passHead.entryDone
      · exact .next h.wakeHeads.withHost.passHead.entryDone
      · exact .next h.wakeHeads.withHost.passHead.startProgram

theorem execModerationTimeout_continues {cq : Nat} (h : Steady s₀ s) : Continues s₀ (execModerationTimeout cq s) :=
  .occ h.setRing.raiseVector h

theorem execMsixUnmask_continues {fn vector : Nat} (h : Steady s₀ s) : Continues s₀ (execMsixUnmask fn vector s) :=
  h.inOrder (.occ h.setVec.sendPending h)

theorem Steady.engRead {e slot : Nat} {dst : List (Nat × Nat × Nat)} {st : Nat} {bs : List Byte} {mark ga : Nat}
    (h : Steady s₀ s) :
    Steady s₀ (s.engRead e slot dst st bs mark ga) :=
  .engSettle (.ite h.setEngine.beatArrives (.ite h.setEngine.countRd h.setEngine))

theorem Steady.hostErrorBeat {e slot : Nat} {dst : List (Nat × Nat × Nat)} (h : Steady s₀ s) :
    Steady s₀ (s.hostErrorBeat e slot dst) := h.pellet.drawBytes.engRead

theorem Steady.aerUncorrectable {fn b : Nat} (h : Steady s₀ s) : Steady s₀ (s.aerUncorrectable fn b) := h.withHost.bump

theorem Steady.logAnswer {fn : Nat} {a : HostAnswer} (h : Steady s₀ s) : Steady s₀ (s.logAnswer fn a).2 := by
  simp only [State.logAnswer]
  split
  · exact h.bump
  · exact h.aerUncorrectable
  · exact h

theorem execHostReadCompletion_continues {tag : Nat} {a : HostAnswer} (h : Steady s₀ s) :
    Continues s₀ (execHostReadCompletion tag a s) := by
  simp only [execHostReadCompletion]
  split
  · exact .next h
  · refine .ite (.next h) ?_
    split
    · exact .next h.withHost.logAnswer.setRing
    · exact .next h.withHost.logAnswer.entryFetchFailed
    · exact .next h.withHost.logAnswer.engRead
    · exact .next h.withHost.logAnswer.hostErrorBeat

theorem execPcieCompletionTimeout_continues {tag : Nat} (h : Steady s₀ s) :
    Continues s₀ (execPcieCompletionTimeout tag s) := by
  simp only [execPcieCompletionTimeout]
  split
  · exact .next h
  · refine .ite (.next h) ?_
    split
    · exact .next h.withHost.aerUncorrectable.entryFetchFailed
    · exact .next h.withHost.aerUncorrectable.hostErrorBeat

/-! The operations of Machine/Tables. -/

theorem Steady.setDescWord {t w v : Nat} (h : Steady s₀ s) : Steady s₀ (s.setDescWord t w v) := h.withTab

theorem Steady.geReject {off st : Nat} (h : Steady s₀ s) : Steady s₀ (s.geReject off st) := h.withTab.bump

theorem Steady.descWord0 {t v : Nat} (h : Steady s₀ s) : Steady s₀ (s.descWord0 t v).2 := by
  simp only [State.descWord0]
  refine .ite2 (.ite2 h.geReject h.setDescWord) ?_
  refine h.setDescWord.withTab.fold fun hu => ?_
  split
  · exact hu.respond
  · exact hu

theorem Steady.descWordN {t w v : Nat} (h : Steady s₀ s) : Steady s₀ (s.descWordN t w v).2 :=
  .ite2 h.geReject h.setDescWord

theorem execTableDescWord0Write_continues {d value : Nat} (h : Steady s₀ s) :
    Continues s₀ (execTableDescWord0Write d value s) := .occ h.descWord0 h

theorem execTableDescWordWrite_continues {d word value : Nat} (h : Steady s₀ s) :
    Continues s₀ (execTableDescWordWrite d word value s) := .occ h.descWordN h

theorem Steady.setHotTag {e v : Nat} (h : Steady s₀ s) : Steady s₀ (s.setHotTag e v) := h.withTab

theorem Steady.hotTagWrite {e v : Nat} {req : Option Packet} (h : Steady s₀ s) : Steady s₀ (s.hotTagWrite e v req).2 := by
  simp only [State.hotTagWrite]
  refine .ite2 h.geReject ?_
  refine .ite2 ?_ (.ite2 h.geReject h.withTab)
  refine h.setHotTag.withTab.fold fun hu => ?_
  split
  · exact hu.respond
  · exact hu

theorem execHotTagWrite_continues {slot value : Nat} (h : Steady s₀ s) : Continues s₀ (execHotTagWrite slot value s) :=
  .occ h.hotTagWrite h

theorem Steady.rowAt {ag : Agent} {job : Nat} {d : Desc} {l : Nat} (h : Steady s₀ s) :
    Steady s₀ (s.rowAt ag job d l).2 := by
  unfold State.rowAt
  exact h.readCa

theorem Steady.endCopy {slot st : Nat} (h : Steady s₀ s) : Steady s₀ (s.endCopy slot st) := by
  simp only [State.endCopy]
  refine .unless ?_ fun hi => hi.geReject
  refine h.withTab.clearBuf.fold fun hu => ?_
  split
  · exact hu.respond
  · exact hu

theorem execHotTagCopyDone_continues {slot : Nat} (h : Steady s₀ s) : Continues s₀ (execHotTagCopyDone slot s) := by
  simp only [execHotTagCopyDone]
  split
  · exact .next h
  · refine .ite (.next h) ?_
    refine .ite (.next (.ite h h.endCopy.setHotTag)) ?_
    split
    · next t he => exact .next (h.rowAt.snd he)
    · next a t he =>
        refine .ite (.next (h.rowAt.snd he).endCopy) ?_
        split
        · exact .next h
        · next w he1 => exact .next ((h.rowAt.snd he).putPieces he1).withTab

theorem Steady.lookupRow {ag : Agent} {job t l : Nat} (h : Steady s₀ s) : Steady s₀ (s.lookupRow ag job t l).2 := by
  simp only [State.lookupRow]
  split
  · exact h.rowAt
  · exact h.fetchPieces

theorem Steady.countLookup {t l : Nat} (h : Steady s₀ s) : Steady s₀ (s.countLookup t l) := by
  simp only [State.countLookup]
  refine .ite h ?_
  split
  · exact h.bump64
  · exact .ite h.bump64 h.bump64.bump

theorem Steady.setGe {g : Nat} {x : Gather} (h : Steady s₀ s) : Steady s₀ (s.setGe g x) :=
  h.trans (State.setGe_steady _ _ _)

theorem execGxop_continues {q k : Nat} (h : Steady s₀ s) : Continues s₀ (execGxop q k s) := h.atWord fun hu => hu.issue

theorem Steady.holdLimit {g : Nat} (h : Steady s₀ s) : Steady s₀ (s.holdLimit g) := .ite h.setGe h

theorem Steady.endLimit {g : Nat} (h : Steady s₀ s) : Steady s₀ (s.endLimit g) := .ite h h.bump64.setGe

theorem Steady.gxStop {g st : Nat} (h : Steady s₀ s) : Steady s₀ (s.gxStop g st) := .ite h h.setGe

theorem Steady.gxNote {g st : Nat} (h : Steady s₀ s) : Steady s₀ (s.gxNote g st) := h.setGe

theorem Steady.gxList {g ctx ca n : Nat} (h : Steady s₀ s) : Steady s₀ (s.gxList g ctx ca n).2 := by
  unfold State.gxList
  exact h.readCa

theorem Steady.openBag {g : Nat} {o : UnitOp} (h : Steady s₀ s) : Steady s₀ (s.openBag g o) := by
  simp only [State.openBag]
  refine .ite h.gxStop ?_
  split
  · exact h.gxList
  · refine .ite h.gxList.gxStop ?_
    refine .ite h.gxList.gxStop ?_
    split
    · exact h.gxList
    · refine .ite h.gxList.gxList.gxStop ?_
      refine .ite h.gxList.gxList.gxStop ?_
      split
      · exact h.gxList
      · exact .ite h.gxList.gxList.gxList.gxStop h.gxList.gxList.gxList.gxNote.gxNote.gxNote.clearBuf.setGe

theorem Steady.tableRows {ag : Agent} {job t : Nat} {ls : List Nat} (h : Steady s₀ s) :
    Steady s₀ (s.tableRows ag job t ls).2 := by
  induction ls generalizing s with
  | nil => exact h
  | cons l ls ih => exact ih h.lookupRow

theorem Steady.chunkRows {ag : Agent} {job t : Nat} {ls : List Nat} (h : Steady s₀ s) :
    Steady s₀ (s.chunkRows ag job t ls).2 := by
  simp only [State.chunkRows]
  refine .ite2 h.tableRows ?_
  refine h.fold fun hu => ?_
  split
  · next u he => exact hu.lookupRow.snd he
  · exact hu

theorem Steady.takeChunk {g : Nat} {o : UnitOp} {b : Bag} {k : Chunk} {rest : List Chunk} (h : Steady s₀ s) :
    Steady s₀ (s.takeChunk g o b k rest) := by
  unfold State.takeChunk
  extract_lets c t pool d n part
  refine .ite (.ite h.gxStop ?_) ?_
  · split
    · next u he => exact h.chunkRows.snd he
    · next as u he =>
      have hu : Steady s₀ u := h.chunkRows.snd he
      extract_lets u'
      have hu' : Steady s₀ u' := hu.thenIf fun hu => hu.fold fun hv => hv.countLookup
      split
      · exact hu'.gxStop
      · exact .setGe (.clearBuf (.bump64If (hu'.fold fun hv => hv.gxNote)))
  · split
    · exact h.pellet.drawBytes.gxNote.setGe
    · split
      · exact h
      · next u he => exact (h.send he).bump64.setGe

theorem Steady.issueChunk {g : Nat} {o : UnitOp} {b : Bag} {k : Chunk} {rest : List Chunk} (h : Steady s₀ s) :
    Steady s₀ (s.issueChunk g o b k rest) := .ite h.holdLimit h.endLimit.takeChunk

theorem Steady.writeBags {g : Nat} {o : UnitOp} (h : Steady s₀ s) : Steady s₀ (s.writeBags g o) := by
  simp only [State.writeBags]
  refine h.fold fun hu => ?_
  refine .ite hu.setGe (.ite hu.xlateRange.gxStop.setGe ?_)
  split
  · exact hu
  · next w he =>
    have hw : Steady s₀ w.2 := hu.xlateRange.putPieces he
    exact .setGe (.bumpIf (.ite hw.setGe.gxStop hw.setGe.gxNote))

theorem execGatherLookupIssue_continues {g : Nat} (h : Steady s₀ s) : Continues s₀ (execGatherLookupIssue g s) := by
  simp only [execGatherLookupIssue]
  split
  · exact .next h
  · refine .ite (.next h) ?_
    refine .ite (.next (.writeBags (.ite h h.setGe))) ?_
    split
    · split
      · exact .next (.writeBags (.issueChunk (.ite h h.setGe)))
      · exact .next (.ite h h.setGe)
    · exact .ite (.next (.writeBags (.openBag (.ite h h.setGe)))) (.next (.writeBags (.ite h h.setGe)))

theorem Steady.gxComplete {g : Nat} {o : UnitOp} (h : Steady s₀ s) : Steady s₀ (s.gxComplete g o) :=
  .ite h (.finishOp (.ite h.setGe.bump64 h.setGe.bump))

theorem Steady.answerGather {req : Packet} {status : Nat} {bs : List Byte} {m : Nat} (h : Steady s₀ s) :
    Steady s₀ (s.answerGather req status bs m) := h.fold fun hu => hu.respond

theorem Steady.refuseGather {g : Nat} {p : Packet} {st : Nat} (h : Steady s₀ s) : Steady s₀ (s.refuseGather g p st) :=
  h.draw.pellet.drawBytes.answerGather.bump

theorem execGatherServe_continues {g : Nat} (h : Steady s₀ s) : Continues s₀ (execGatherServe g s) := by
  simp only [execGatherServe]
  refine .ite (.next h) ?_
  split
  · exact .next h
  · refine .ite (.next h.setGe.refuseGather) ?_
    split
    · next t he => exact .next (h.setGe.chunkRows.snd he).setGe
    · next as t he =>
        split
        · exact .next (.refuseGather (.clearBuf ((h.setGe.chunkRows.snd he).fold fun hu => hu.countLookup)))
        · refine .next ?_
          exact .bump64 (.answerGather (.clearBuf ((h.setGe.chunkRows.snd he).fold fun hu => hu.countLookup)))

theorem Steady.takeGather {g : Nat} {p : Packet} {t : State} (h : Steady s₀ s) (e : s.takeGather g p = some t) :
    Steady s₀ t := by
  simp only [State.takeGather] at e
  split at e
  · cases e
    exact h.refuseGather
  · split at e
    · cases e
    · cases e
      exact h.setGe

theorem Steady.gatherArrives {g bag part seg status : Nat} {bs : List Byte} {m : Nat} (h : Steady s₀ s) :
    Steady s₀ (s.gatherArrives g bag part seg status bs m).2 := by
  simp only [State.gatherArrives]
  split
  · exact h
  · split
    · exact h
    · split
      · exact h
      · exact .writeBags (.ite h.setGe (.ite h.setGe.gxNote (.ite h.setGe.gxStop h.setGe.gxNote)))

/-! The operations of Machine/Moult. -/

theorem Steady.setColl {x : Coll} (h : Steady s₀ s) : Steady s₀ (s.setColl x) := h.trans (State.setColl_steady _ _)

theorem Steady.phaseMapWrite {m v : Nat} (h : Steady s₀ s) : Steady s₀ (s.phaseMapWrite m v).2 := .ite2 h h.setColl

theorem Steady.currentPhaseWrite {v : Nat} (h : Steady s₀ s) : Steady s₀ (s.currentPhaseWrite v).2 := .ite2 h h.setColl

theorem execPhaseMapWrite_continues {m value : Nat} (h : Steady s₀ s) : Continues s₀ (execPhaseMapWrite m value s) :=
  .occ h.phaseMapWrite h

theorem execCurrentPhaseWrite_continues {value : Nat} (h : Steady s₀ s) : Continues s₀ (execCurrentPhaseWrite value s) :=
  .occ h.currentPhaseWrite h

theorem execMoult_continues {q k : Nat} (h : Steady s₀ s) : Continues s₀ (execMoult q k s) := h.atWord fun hu => hu.issue

theorem execCollRun_continues {q k : Nat} (h : Steady s₀ s) : Continues s₀ (execCollRun q k s) :=
  h.atWord fun hu => hu.issue

theorem Steady.stepCheck {o : UnitOp} {b : List Byte} (h : Steady s₀ s) : Steady s₀ (s.stepCheck o b).2 := by
  unfold State.stepCheck
  refine .ite2 h ?_
  refine .ite2 h ?_
  refine .ite2 h ?_
  refine .ite2 h.xlateRange.xlateRange ?_
  exact .ite2 h.xlateRange.xlateRange (.ite2 h.xlateRange.xlateRange h.xlateRange.xlateRange)

theorem Steady.setFlying {r : StepRun} (h : Steady s₀ s) : Steady s₀ (s.setFlying r) := h.setColl

theorem Steady.stepFail {i st : Nat} (h : Steady s₀ s) : Steady s₀ (s.stepFail i st) := h.clearBuf.setColl

theorem Steady.collNote {st m : Nat} (h : Steady s₀ s) : Steady s₀ (s.collNote st m) := h.setColl

theorem Steady.moveStep {o : UnitOp} {f : Nat} {r : StepRun} (h : Steady s₀ s) : Steady s₀ (s.moveStep o f r) := by
  induction f generalizing s r with
  | zero => exact h.setFlying
  | succ f ih =>
    unfold State.moveStep
    refine .ite h.setFlying ?_
    dsimp only
    refine .ite h.xlateRange.stepFail ?_
    split
    · exact h.readCa.setFlying
    · exact h.readCa.setFlying
    · refine .ite h.readCa.readCa.collNote.stepFail (.ite h.readCa.readCa.collNote.stepFail ?_)
      split
      · exact h.setFlying
      · next p he =>
        have hp : Steady s₀ p.2 := h.readCa.readCa.putPieces he
        exact hp.collNote.collNote.collNote.clearBuf.pipe fun hr => .ite hr.stepFail (ih hr)

theorem Steady.markDomain {d : Nat} (h : Steady s₀ s) : Steady s₀ (s.markDomain d).2 := .ite2 h.trigger h

theorem Steady.settleColl {o : UnitOp} (h : Steady s₀ s) : Steady s₀ (s.settleColl o) := by
  simp only [State.settleColl]
  refine .ite h ?_
  split
  · exact .ite h (.finishOp (.ite h.setColl.setObj.setObj h.setColl))
  · exact .ite h (.ite (.finishOp (.bump (.ite2 h.setColl.counted.markDomain h.setColl))) h.setColl.finishOp)

theorem Steady.beginColl {o : UnitOp} (h : Steady s₀ s) : Steady s₀ (s.beginColl o) :=
  .ite h (.ite h.setColl.setColl h.setColl)

theorem Steady.runStep {o : UnitOp} {r : StepRun} (h : Steady s₀ s) : Steady s₀ (s.runStep o r) := by
  simp only [State.runStep]
  refine .ite ?_ h.moveStep
  split
  · exact .ite h.take.answerWait h
  · exact h

theorem Steady.stepWait {step : Nat} {b : List Byte} {w : Bool × State} (h : Steady s₀ s) (e : s.stepWait step b = some w) :
    Steady s₀ w.2 := by
  simp only [State.stepWait] at e
  split at e
  · cases e
    exact h
  · split at e
    · cases e
      exact h.takeNow
    · obtain ⟨t, ht, rfl⟩ := Option.map_eq_some_iff.1 e
      exact h.send ht

theorem execMoultStepStart_continues {step : Nat} (h : Steady s₀ s) : Continues s₀ (execMoultStepStart step s) := by
  simp only [execMoultStepStart]
  split
  · exact .next h
  · refine .ite (.next h) ?_
    split
    · exact .next h.beginColl.runStep.settleColl
    · refine .ite (.next h.beginColl.settleColl) ?_
      refine .ite (.next h.beginColl) ?_
      split
      · exact .next h.beginColl.readCa
      · refine .ite (.next h.beginColl.readCa.collNote.clearBuf.stepFail.settleColl) ?_
        refine .ite (.next h.beginColl.readCa.collNote.clearBuf.stepCheck.stepFail.settleColl) ?_
        refine .ite (.next h.beginColl.readCa.collNote.clearBuf.stepCheck.setColl.bump64.settleColl) ?_
        split
        · exact .next h.beginColl
        · next w he => exact .next (h.beginColl.readCa.collNote.clearBuf.stepCheck.stepWait he).setColl.runStep.settleColl

theorem Steady.endStep {o : UnitOp} {step : Nat} (h : Steady s₀ s) : Steady s₀ (s.endStep o step) :=
  h.setColl.bump64.settleColl

theorem Steady.stepAcked {step st mark : Nat} (h : Steady s₀ s) : Steady s₀ (s.stepAcked step st mark) := by
  simp only [State.stepAcked]
  refine .ite ?_ ?_
  · split
    · exact h.collNote.stepFail.settleColl
    · exact h.collNote.stepFail
  · split
    · exact .thenIf (.ite h h.collNote) fun hi => hi.endStep
    · exact .settleColl (.ite h h.collNote)
    · exact .ite h h.collNote

theorem execMoultStepDone_continues {step : Nat} (h : Steady s₀ s) : Continues s₀ (execMoultStepDone step s) := by
  simp only [execMoultStepDone]
  split
  · exact .next h
  · split
    · exact .next h
    · refine .ite (.next h) ?_
      refine .ite (.next h.endStep) ?_
      refine .ite (.ite (.next h.counted.post.endStep) (.next h.counted.post.stepFail.settleColl)) ?_
      split
      · exact .next h.stepFail.settleColl
      · split
        · next t he => exact .next (h.send he).setFlying
        · exact .next h

theorem execMoultStepTimeout_continues {step : Nat} (h : Steady s₀ s) : Continues s₀ (execMoultStepTimeout step s) := by
  simp only [execMoultStepTimeout]
  split
  · exact .occ h.answerWait h
  · exact .next h

theorem execEpochTimerTick_continues {d : Nat} (h : Steady s₀ s) : Continues s₀ (execEpochTimerTick d s) :=
  .occ h.setEpoch.trigger h

theorem execEpochInEdge_continues {n : Nat} (h : Steady s₀ s) : Continues s₀ (execEpochInEdge n s) :=
  .occ h.triggerSource h

theorem execEpochOutPulseEnd_continues {n : Nat} (h : Steady s₀ s) : Continues s₀ (execEpochOutPulseEnd n s) :=
  .occ h.withEp.emit h

theorem Steady.pulseOut {d : Nat} (h : Steady s₀ s) : Steady s₀ (s.pulseOut d) :=
  h.fold fun hu => .ite (.withEp (.ite hu.emit hu)) hu

theorem Steady.applyUnitDomain {u v : Nat} (h : Steady s₀ s) : Steady s₀ (s.applyUnitDomain u v) := .ite h.withEp h.setObj

/-! The operations of Machine/Cipher. -/

theorem Steady.setChain {c : Nat} {x : Chain} (h : Steady s₀ s) : Steady s₀ (s.setChain c x) :=
  h.trans (State.setChain_steady _ _ _)

theorem Steady.chainReject {c r st : Nat} (h : Steady s₀ s) : Steady s₀ (s.chainReject c r st) := h.withCat.bump

theorem Steady.chainCtrl {c v : Nat} (h : Steady s₀ s) : Steady s₀ (s.chainCtrl c v).2 :=
  .ite2 (.ite2 h.chainReject h.setChain) (.ite2 h.chainReject (.ite2 h.setChain h.setChain))

theorem Steady.chainModulus {c r : Nat} {psi : Bool} {v : Nat} (h : Steady s₀ s) : Steady s₀ (s.chainModulus c r psi v).2 :=
  .ite2 h.chainReject h.setChain

theorem execChainCtrlWrite_continues {c value : Nat} (h : Steady s₀ s) : Continues s₀ (execChainCtrlWrite c value s) :=
  .occ h.chainCtrl h

theorem execChainInvalidateDone_continues {c : Nat} (h : Steady s₀ s) : Continues s₀ (execChainInvalidateDone c s) :=
  .occ h.setChain h

theorem Steady.injectCat {n q v : Nat} (h : Steady s₀ s) : Steady s₀ (s.injectCat n q v).2 := .ite2 h.withCat h

theorem Steady.objData {u off size : Nat} (h : Steady s₀ s) : Steady s₀ (s.objData u off size).2.2 := by
  unfold State.objData
  exact h.ownRead

theorem Steady.runPoly {u f imm xd0 xp o : Nat} {a b : Nat × PHdr} {dst pm : Nat} (h : Steady s₀ s) :
    Steady s₀ (s.runPoly u f imm xd0 xp o a b dst pm).s := by
  unfold State.runPoly
  extract_lets x ra pa s1 rb pb s2 m un vals i blk ws out k vals' i' bytes tr
  have h2 : Steady s₀ s2 := .ite3 h.objData.objData h.objData
  refine .iteCxRun ?_ ?_ <;> dsimp only
  · exact .fold h2.injectCat fun hu => hu.ownWrite
  · exact h2.injectCat.ownWrite

theorem Steady.runShare {u f : Nat} {a b : Nat × SHdr} {dst : Nat} (h : Steady s₀ s) :
    Steady s₀ (s.runShare u f a b dst).s := by
  unfold State.runShare
  exact .ownWrite (.ite2 h.objData.objData h.objData.objData.injectCat)

theorem Steady.drbgUse {n : Nat} (h : Steady s₀ s) : Steady s₀ (s.drbgUse n) := h.withDrbg

theorem Steady.runRand {u : Nat} {d : Nat × SHdr} (h : Steady s₀ s) : Steady s₀ (s.runRand u d).s := by
  unfold State.runRand
  extract_lets w q vals r rej s1 i
  have hrej : Steady s₀ rej.2 := .ite2 (Steady.draw h.drawN) h.drawN
  have h1 : Steady s₀ s1 := hrej.bump64.bump64.drbgUse
  exact .unless (.ite2 h1 h1.injectCat) fun hu => hu.ownWrite

theorem Steady.runTwgen {u imm xd i : Nat} (h : Steady s₀ s) : Steady s₀ (s.runTwgen u imm xd i).s := by
  unfold State.runTwgen
  exact h.draw.injectCat.ownWrite

theorem Steady.runShareSplit {u xd xp o : Nat} {a : Nat × SHdr} {pm : Nat} (h : Steady s₀ s) :
    Steady s₀ (s.runShareSplit u xd xp o a pm).s := .fold (.ite2 h.objData h.objData.injectCat) fun hu => hu.ownWrite

theorem Steady.runCx {o : UnitOp} (h : Steady s₀ s) : Steady s₀ (s.runCx o) := by
  unfold State.runCx
  extract_lets c u f imm p st n last xd xp pr s1 z _ _ _ _ _ run s2 s3 s4 s5 m
  have hlast {t cyc} (ht : Steady s₀ t) : Steady s₀ (last t cyc) := ht.bump64.bump64.withCat
  have hz : Steady s₀ z.s := .fold2 h fun hu => hu.ownRead
  have hrun : Steady s₀ run.s := by
    refine .iteCxRun (hz.foldCxRun fun hu => hu.runTwgen.cxNext) ?_
    refine .iteCxRun (hz.foldCxRun fun hu => hu.runRand.cxNext) ?_
    refine .iteCxRun (hz.foldCxRun fun hu => hu.runShare.cxNext) ?_
    refine .iteCxRun (hz.foldCxRun fun hu => hu.runShareSplit.cxNext) ?_
    exact hz.foldCxRun fun hu => hu.runPoly.cxNext
  have h2 : Steady s₀ s2 := hlast hrun
  have h5 : Steady s₀ s5 := .bumpIf h2.bump64.bump64
  exact .ite (hlast h).finishOp (.ite h.finishOp h5.finishOp)

theorem Steady.cxWord {q k : Nat} {c : Cmd} (h : Steady s₀ s) : Steady s₀ (s.cxWord q k c) := by
  unfold State.cxWord
  refine .ite h.endProgram ?_
  refine .ite h.advance ?_
  refine .ite h ?_
  refine .ite h.halted ?_
  refine .ite h.endProgram ?_
  refine .ite (.halted (h.fold fun hu => hu.checkLine)) ?_
  refine .ite (.endProgram (.bump (h.fold fun hu => hu.checkLine))) ?_
  exact .ite (.endProgram (.bump (h.fold fun hu => hu.checkLine))) (.issue (h.fold fun hu => hu.checkLine))

theorem Steady.cxop {q k f : Nat} (h : Steady s₀ s) : Continues s₀ (s.cxop q k f) := h.atWord fun hu => hu.cxWord

theorem execPAdd_continues {q k : Nat} (h : Steady s₀ s) : Continues s₀ (execPAdd q k s) := h.cxop

theorem execPSub_continues {q k : Nat} (h : Steady s₀ s) : Continues s₀ (execPSub q k s) := h.cxop

theorem execPMul_continues {q k : Nat} (h : Steady s₀ s) : Continues s₀ (execPMul q k s) := h.cxop

theorem execPMulc_continues {q k : Nat} (h : Steady s₀ s) : Continues s₀ (execPMulc q k s) := h.cxop

theorem execPNeg_continues {q k : Nat} (h : Steady s₀ s) : Continues s₀ (execPNeg q k s) := h.cxop

theorem execPPart_continues {q k : Nat} (h : Steady s₀ s) : Continues s₀ (execPPart q k s) := h.cxop

theorem execNtt_continues {q k : Nat} (h : Steady s₀ s) : Continues s₀ (execNtt q k s) := h.cxop

theorem execIntt_continues {q k : Nat} (h : Steady s₀ s) : Continues s₀ (execIntt q k s) := h.cxop

theorem execAuto_continues {q k : Nat} (h : Steady s₀ s) : Continues s₀ (execAuto q k s) := h.cxop

theorem execRescale_continues {q k : Nat} (h : Steady s₀ s) : Continues s₀ (execRescale q k s) := h.cxop

theorem execModdrop_continues {q k : Nat} (h : Steady s₀ s) : Continues s₀ (execModdrop q k s) := h.cxop

theorem execTwgen_continues {q k : Nat} (h : Steady s₀ s) : Continues s₀ (execTwgen q k s) := h.cxop

theorem execLimbSplit_continues {q k : Nat} (h : Steady s₀ s) : Continues s₀ (execLimbSplit q k s) := h.cxop

theorem execShAdd_continues {q k : Nat} (h : Steady s₀ s) : Continues s₀ (execShAdd q k s) := h.cxop

theorem execShSub_continues {q k : Nat} (h : Steady s₀ s) : Continues s₀ (execShSub q k s) := h.cxop

theorem execShMul_continues {q k : Nat} (h : Steady s₀ s) : Continues s₀ (execShMul q k s) := h.cxop

theorem execShAddpub_continues {q k : Nat} (h : Steady s₀ s) : Continues s₀ (execShAddpub q k s) := h.cxop

theorem execShRand_continues {q k : Nat} (h : Steady s₀ s) : Continues s₀ (execShRand q k s) := h.cxop

theorem execCxopUndefinedFunc_continues {q k : Nat} (h : Steady s₀ s) : Continues s₀ (execCxopUndefinedFunc q k s) :=
  h.atWord fun hu => hu.endProgram

theorem execDrbgSeed_continues {ok : Bool} (h : Steady s₀ s) : Continues s₀ (execDrbgSeed ok s) :=
  .ite (.next h) (.ite (.next h.withDrbg) (.next h.raise))

theorem execDrbgHealthFail_continues (h : Steady s₀ s) : Continues s₀ (execDrbgHealthFail s) := .occ h.withDrbg.raise h

theorem Steady.applyCatInject {v : Nat} (h : Steady s₀ s) : Steady s₀ (s.applyCatInject v) := h.withCat

/-! The operations of Machine/Events. -/

theorem Steady.pumpWrites {ag : Agent} {replay : Bool} {use : Use} {ws : List (Nat × List Byte × Nat)} (h : Steady s₀ s) :
    Steady s₀ (State.pumpWrites ag replay use ws s).2.2 := by
  induction ws generalizing s with
  | nil => exact h
  | cons w ws ih =>
    unfold State.pumpWrites
    split
    · exact h
    · next st t he => exact ih (h.putPieces he)

theorem Steady.ringCheck {c base n : Nat} (h : Steady s₀ s) : Steady s₀ (s.ringCheck c base n).2.2 :=
  h.fold3 fun hu => hu.xlate

theorem Steady.unitPost {ag : Agent} {m dev : Nat} {t : State} (h : Steady s₀ s) (e : s.unitPost ag m dev = some t) :
    Steady s₀ t := by
  unfold State.unitPost at e
  split at e
  · cases e
    exact h.counted.post
  · split at e
    · cases e
      exact h
    · exact h.send e

theorem Steady.writeBatch {c : Nat} (h : Steady s₀ s) : Steady s₀ (s.writeBatch c) :=
  .ite h (.ite h.setSec (.ite h.setSec.setRing h.setSec.postCpl))

theorem Steady.pumpSpikes {c n : Nat} (h : Steady s₀ s) : Steady s₀ (State.pumpSpikes c n s) := by
  induction n generalizing s with
  | zero => exact h
  | succ n ih =>
    unfold State.pumpSpikes
    split
    · exact h
    · split
      · next w he => exact ih (h.putPieces he).setSec
      · exact h

theorem Steady.spike {c : Nat} {l : Layer} {ox oy co t : Nat} (h : Steady s₀ s) : Steady s₀ (s.spike c l ox oy co t) := by
  unfold State.spike
  exact Steady.pipe (.ite h.ownRead.bump.setSec h.ownRead.ownWrite) fun h3 =>
      .ite
        h3.bump64.setSec
        (Steady.pipe (h3.bump64.setSec.setSec.thenIf fun hi => hi.setSec.pumpSpikes) fun h6 =>
           .ite (.ite h6.setSec.writeBatch h6.setSec) h6)

theorem Steady.synapse {c : Nat} {l : Layer} {ch co ky kx ox oy t : Nat} (h : Steady s₀ s) :
    Steady s₀ (s.synapse c l ch co ky kx ox oy t) := by
  unfold State.synapse
  exact .thenIf (.bumpIf (.bump64If h.ownRead.ownRead.ownWrite.bump64.setSec)) fun h => h.spike

theorem Steady.eventUpdates {c : Nat} {l : Layer} {w : Nat} (h : Steady s₀ s) : Steady s₀ (s.eventUpdates c l w) :=
  h.fold fun hu => hu.fold fun hv => hv.synapse

theorem Steady.pumpBin {c : Nat} (h : Steady s₀ s) : Steady s₀ (s.pumpBin c) := by
  simp only [State.pumpBin]
  split
  · exact h
  · exact .setSec (.ite2 h.pumpWrites h.pumpWrites.pellet)

theorem Steady.binEnd {c : Nat} {epoch : Bool} (h : Steady s₀ s) : Steady s₀ (s.binEnd c epoch) := .ite h h.triggerSource

theorem Steady.closeBin {c : Nat} (h : Steady s₀ s) : Steady s₀ (s.closeBin c) := by
  simp only [State.closeBin]
  split
  · exact h
  · refine .ite h ?_
    exact Steady.pipe (.ite h.writeBatch.bump.drawN h.writeBatch.bump) fun h3 =>
        .ite
          h3.ownRead.setSec.ownWrite.binEnd
          (.ite
             h3.ownRead.setSec.ownWrite.bump.binEnd
             (.thenIf (.setSec (h3.ownRead.setSec.ownWrite.setSem.fold3 fun hu => .ite3 hu hu.xlateRange)) fun hi =>
                hi.pumpBin))

theorem Steady.clearCore {c : Nat} (h : Steady s₀ s) : Steady s₀ (s.clearCore c) := h.ownWrite.ownWrite

theorem Steady.applyLayer {c : Nat} {l : Layer} (h : Steady s₀ s) : Steady s₀ (s.applyLayer c l) :=
  h.closeBin.clearCore.setSec

theorem execSecEventProcess_continues {c : Nat} (h : Steady s₀ s) : Continues s₀ (execSecEventProcess c s) := by
  simp only [execSecEventProcess]
  refine .ite (.next h) ?_
  split
  · exact .next h
  · split
    · exact .next h.setSec.bump64
    · refine .ite (.next h.setSec.bump64) ?_
      exact .next (.eventUpdates (.bump64 (.setSec (.ite h.setSec.closeBin h.setSec))))

theorem execSecBinIdleClose_continues {c : Nat} (h : Steady s₀ s) : Continues s₀ (execSecBinIdleClose c s) := by
  simp only [execSecBinIdleClose]
  split
  · exact .occ h.closeBin h
  · exact .next h

theorem execSecBinArrivalClose_continues {c : Nat} (h : Steady s₀ s) : Continues s₀ (execSecBinArrivalClose c s) := by
  simp only [execSecBinArrivalClose]
  split
  · exact .occ h.closeBin h
  · exact .next h

theorem execSecBinFillPost_continues {c : Nat} (h : Steady s₀ s) : Continues s₀ (execSecBinFillPost c s) := by
  simp only [execSecBinFillPost]
  refine .ite (.next h) ?_
  split
  · exact .next h
  · refine .ite (.next h.pumpBin) ?_
    refine .ite (.next h) ?_
    split
    · exact .next h
    · next t he => exact .next (h.unitPost he).setSec.binEnd.pumpBin

theorem execSecBatchTimeout_continues {c : Nat} (h : Steady s₀ s) : Continues s₀ (execSecBatchTimeout c s) :=
  .occ h.writeBatch h

theorem Steady.layerCheck {l : Layer} (h : Steady s₀ s) : Steady s₀ (s.layerCheck l).2 := .ite2 h (.ite2 h h.ringCheck)

theorem Steady.secWord {body : State → Slot → Nat → State} {q k : Nat} {c : Cmd} (h : Steady s₀ s)
    (hbody : ∀ {u v w}, Steady s₀ u → Steady s₀ (body u v w)) :
    Steady s₀ (s.secWord q k c body) := .ite h.endProgram (.ite h.endProgram (.ite h.waitAt (.ite h.advance (hbody h))))

theorem execSecopLayer_continues {q k : Nat} (h : Steady s₀ s) : Continues s₀ (execSecopLayer q k s) := by
  unfold execSecopLayer
  refine h.atWord fun hu => ?_
  refine .ite hu ?_
  refine .ite hu.halted ?_
  refine .ite hu.endProgram ?_
  refine hu.secWord fun hv => ?_
  refine .ite hv.ownRead.layerCheck.halted ?_
  refine .ite hv.ownRead.layerCheck.endProgram ?_
  exact .ite hv.ownRead.layerCheck.setSec.advance hv.ownRead.layerCheck.applyLayer.advance

theorem execSecopRun_continues {q k : Nat} (h : Steady s₀ s) : Continues s₀ (execSecopRun q k s) :=
  h.atWord fun hu => hu.secWord fun hv => hv.setSec.advance

theorem execSecopFlush_continues {q k : Nat} (h : Steady s₀ s) : Continues s₀ (execSecopFlush q k s) :=
  h.atWord fun hu => hu.secWord fun hv => hv.closeBin.advance

theorem execSecopClear_continues {q k : Nat} (h : Steady s₀ s) : Continues s₀ (execSecopClear q k s) :=
  h.atWord fun hu => hu.secWord fun hv => hv.clearCore.advance

/-! The operations of Machine/Sensors. -/

theorem Steady.setSp {p : Nat} {x : Sp} (h : Steady s₀ s) : Steady s₀ (s.setSp p x) := h.trans (State.setSp_steady _ _ _)

theorem Steady.spLose {p n : Nat} (h : Steady s₀ s) : Steady s₀ (s.spLose p n) := h.bump.setSp

theorem Steady.spPellet {p src : Nat} (h : Steady s₀ s) : Steady s₀ (s.spPellet p src).2 := by
  unfold State.spPellet
  exact h.pellet

theorem Steady.spHeader {p vc ecc : Nat} {wanted : Bool} (h : Steady s₀ s) : Steady s₀ (s.spHeader p vc ecc wanted).2 := by
  unfold State.spHeader
  refine .ite2 h ?_
  refine .ite2 h.spLose ?_
  exact .ite2 h (.ite2 h.bump.spPellet.setSp (Steady.pipe (.ite h.bump h) fun h2 => .ite2 h2.bump h2.bump64))

theorem Steady.setRule {p r w0 w1 w2 : Nat} (h : Steady s₀ s) : Steady s₀ (s.setRule p r w0 w1 w2) := h.setBlock

theorem Steady.ruleWrite {p r w0 w1 w2 : Nat} (h : Steady s₀ s) : Steady s₀ (s.ruleWrite p r w0 w1 w2).2 :=
  .ite h.setRule h

theorem Steady.ruleWordWrite {p r w v : Nat} (h : Steady s₀ s) : Steady s₀ (s.ruleWordWrite p r w v).2 :=
  .ite2 h.ruleWrite (.ite2 h (.ite h.setRule h.setRule))

theorem Steady.sendBeat {p n : Nat} (h : Steady s₀ s) : Steady s₀ (s.sendBeat p n) :=
  .ite h (h.setSp.fold fun hu => hu.getD fun _ => hu.send)

theorem Steady.sendBeats {p n : Nat} (h : Steady s₀ s) : Steady s₀ (State.sendBeats p n s) := by
  induction n generalizing s with
  | zero => exact h
  | succ n ih =>
    unfold State.sendBeats
    exact .ite h (ih h.sendBeat)

theorem Steady.flushBeats {p : Nat} (h : Steady s₀ s) : Steady s₀ (s.flushBeats p) := .ite h.sendBeats.sendBeat h.sendBeats

theorem Steady.beatAck {p n st : Nat} (h : Steady s₀ s) : Steady s₀ (s.beatAck p n st) := .ite h h.spLose

theorem Steady.spEvent {p w m : Nat} (h : Steady s₀ s) : Steady s₀ (s.spEvent p w m) :=
  .ite h.bump64.spLose h.bump64.setSp.sendBeats

theorem Steady.spWord {p u m arrival : Nat} (h : Steady s₀ s) : Steady s₀ (s.spWord p u m arrival) := by
  simp only [State.spWord]
  split
  · exact h.bump
  · split
    · exact .setSp (.ite h h.bump)
    · exact .ite (.bump (.ite h h.bump)) (.spEvent (.ite h h.bump))
    · exact .ite h h.bump

theorem Steady.breakFrame {p f : Nat} (h : Steady s₀ s) : Steady s₀ (s.breakFrame p f) := .ite h.setSp.post.bump h

theorem Steady.lineRefused {p f st : Nat} (h : Steady s₀ s) : Steady s₀ (s.lineRefused p f st) := h.draw.setSp.breakFrame

theorem Steady.lineAck {p f st : Nat} (h : Steady s₀ s) : Steady s₀ (s.lineAck p f st) := .ite h h.lineRefused

theorem Steady.pumpLines {p n : Nat} (h : Steady s₀ s) : Steady s₀ (State.pumpLines p n s) := by
  induction n generalizing s with
  | zero => exact h
  | succ n ih =>
    unfold State.pumpLines
    split
    · exact h
    · split
      · exact h
      · next st t he => exact ih (h.putPieces he).setSp.lineAck

theorem Steady.spLine {p m : Nat} {bs : List Byte} (h : Steady s₀ s) : Steady s₀ (s.spLine p m bs) :=
  .ite h (.ite h.breakFrame (.ite h.setSp (.ite h.setSp.xlateRange.lineRefused h.setSp.xlateRange.setSp.pumpLines)))

theorem Steady.captureStart {p : Nat} (h : Steady s₀ s) : Steady s₀ (s.captureStart p) :=
  Steady.pipe (.ite h.breakFrame h) fun h1 => .ite h1.bump h1.setSem.setSp

theorem Steady.spItems {p mark vc dt m : Nat} {bs : List Byte} (h : Steady s₀ s) :
    Steady s₀ (s.spItems p mark vc dt m bs) := by
  simp only [State.spItems]
  split
  · exact .fold (.ite h h.setSp) fun hu => hu.emit
  · exact .ite h.spLose.bump h.spLose

theorem execSpFrameStart_continues {p vc ecc : Nat} (h : Steady s₀ s) : Continues s₀ (execSpFrameStart p vc ecc s) := by
  simp only [execSpFrameStart]
  refine .ite (.next h.spHeader) ?_
  refine .next ?_
  split
  · exact h.spHeader.triggerSource.spItems
  · exact h.spHeader.triggerSource.captureStart
  · exact h.spHeader.triggerSource

theorem execSpFrameEnd_continues {p vc ecc : Nat} (h : Steady s₀ s) : Continues s₀ (execSpFrameEnd p vc ecc s) := by
  simp only [execSpFrameEnd]
  refine .ite (.next h.spHeader) ?_
  refine .next ?_
  split
  · exact h.spHeader.flushBeats
  · exact h.spHeader.spItems
  · exact .ite h.spHeader.setSp h.spHeader
  · exact h.spHeader

theorem execSpLongPacket_continues {p vc dt ecc : Nat} {payload : List Byte} {crcOk : Bool} (h : Steady s₀ s) :
    Continues s₀ (execSpLongPacket p vc dt ecc payload crcOk s) := by
  simp only [execSpLongPacket]
  refine .ite (.next h.spHeader) ?_
  refine .ite (.next (.ite h.spHeader.spItems h.spHeader)) ?_
  refine .next ?_
  split
  · exact .unless (.fold (.ite2 h.spHeader.bump.setSp.spPellet h.spHeader) fun hu => hu.spWord) fun hi => hi.bump
  · exact .spItems (.ite2 h.spHeader.bump.setSp.spPellet h.spHeader)
  · exact .spLine (.ite2 h.spHeader.bump.setSp.spPellet h.spHeader)
  · exact .ite2 h.spHeader.bump.setSp.spPellet h.spHeader

theorem execSpBeatFlush_continues {p : Nat} (h : Steady s₀ s) : Continues s₀ (execSpBeatFlush p s) := .occ h.flushBeats h

theorem execSpFrameFillPost_continues {p : Nat} (h : Steady s₀ s) : Continues s₀ (execSpFrameFillPost p s) := by
  simp only [execSpFrameFillPost]
  refine .ite (.next h) ?_
  split
  · exact .next h.pumpLines
  · exact .ite (.next h.pumpLines) (.next h.pumpLines.setSp.post.bump)

theorem Steady.applySpMode {p v : Nat} (h : Steady s₀ s) : Steady s₀ (s.applySpMode p v) := .setObj (.ite h.breakFrame h)

theorem Steady.frWrite {p off v : Nat} (h : Steady s₀ s) : Steady s₀ (s.frWrite p off v).2 := by
  unfold State.frWrite
  refine .ite2 h.setSp ?_
  refine .ite2 h.setSp ?_
  refine .ite2 h.setSp ?_
  refine .ite2 (.setSp (.ite h.breakFrame h)) ?_
  exact .ite2 h.setSp (.ite2 (.setSp (.ite3 h h.ringCheck)) (.setSp (.ite3 h h.ringCheck)))

theorem execFrCfgWrite_continues {p offset value : Nat} (h : Steady s₀ s) :
    Continues s₀ (execFrCfgWrite p offset value s) :=
  .occ h.frWrite h

theorem Steady.applySpInject {v : Nat} (h : Steady s₀ s) : Steady s₀ (s.applySpInject v) := .ite h.setSp h

/-! The operations of Machine/Fabric. -/

theorem Steady.setFab {f : Fabric} (h : Steady s₀ s) : Steady s₀ (s.setFab f) := h.trans (State.setFab_steady _ _)

theorem Steady.setRegion {r : Nat} {x : Region_} (h : Steady s₀ s) : Steady s₀ (s.setRegion r x) :=
  h.trans (State.setRegion_steady _ _ _)

theorem Steady.setFport {n : Nat} {x : Fport} (h : Steady s₀ s) : Steady s₀ (s.setFport n x) :=
  h.trans (State.setFport_steady _ _ _)

theorem Steady.setLoad {l : Load} (h : Steady s₀ s) : Steady s₀ (s.setLoad l) := h.trans (State.setLoad_steady _ _)

theorem Steady.clearRegion {r : Nat} (h : Steady s₀ s) : Steady s₀ (s.clearRegion r) :=
  .ite h.setRegion.withMem h.setRegion

theorem Steady.failLoad {st : Nat} {src : Option Nat} (h : Steady s₀ s) : Steady s₀ (s.failLoad st src) := by
  simp only [State.failLoad]
  split
  · exact .raise (.setFab (.bump (.setObj (.ite (h.fold fun hu => hu.clearRegion) h))))
  · exact .setFab (.bump (.setObj (.ite (h.fold fun hu => hu.clearRegion) h)))

theorem Steady.startLoad {src addr len : Nat} {boot : Bool} (h : Steady s₀ s) : Steady s₀ (s.startLoad src addr len boot) :=
  h.setLoad

theorem Steady.cfgReject {off st : Nat} (h : Steady s₀ s) : Steady s₀ (s.cfgReject off st).2 := by
  unfold State.cfgReject
  exact h.setFab

theorem Steady.cfgCtrl {v : Nat} (h : Steady s₀ s) : Steady s₀ (s.cfgCtrl v).2 := by
  unfold State.cfgCtrl
  refine .ite2 (.ite2 h.cfgReject.setObj h.cfgReject) ?_
  exact Steady.pipe (.ite h.failLoad h) fun h1 => .ite2 (.ite2 h1.cfgReject h1.startLoad.setFab) h1

theorem execCfgGo_continues {value : Nat} (h : Steady s₀ s) : Continues s₀ (execCfgGo value s) := .occ h.cfgCtrl h

theorem execCfgAbort_continues {value : Nat} (h : Steady s₀ s) : Continues s₀ (execCfgAbort value s) := .occ h.cfgCtrl h

theorem Steady.cfgData {off n v : Nat} (h : Steady s₀ s) : Steady s₀ (s.cfgData off n v).2 :=
  .ite2 h.cfgReject (.ite2 h.cfgReject (.ite2 h.cfgReject h.setLoad))

theorem Steady.takeHeldData (h : Steady s₀ s) : Steady s₀ s.takeHeldData := .ite h (h.setFab.fold fun hu => hu.cfgData)

theorem execCfgDataWrite_continues {value : Nat} (h : Steady s₀ s) : Continues s₀ (execCfgDataWrite value s) :=
  .occ h.setFab.takeHeldData h

theorem Steady.hoodUnit {u : Nat} (h : Steady s₀ s) : Steady s₀ (s.hoodUnit u) := by
  simp only [State.hoodUnit]
  split
  · exact h.startDrain
  · exact h.setUcb
  · exact h

theorem execLoadHeaderCheck_continues {flash : List Byte} {flashBytes : Nat} (h : Steady s₀ s) :
    Continues s₀ (execLoadHeaderCheck flash flashBytes s) := by
  unfold execLoadHeaderCheck
  refine .ite (.next h) ?_
  refine .ite (.next (.failLoad (.setLoad (.ite2 h.readRange h)))) ?_
  refine .ite (.next (.failLoad (.setLoad (.ite2 h.readRange h)))) ?_
  exact .next (.fold (.setFab (.setLoad (.ite2 h.readRange h))) fun hu => .ite hu.setRegion.hoodUnit hu.setRegion)

theorem execLoadBodyComplete_continues {flash : List Byte} (h : Steady s₀ s) :
    Continues s₀ (execLoadBodyComplete flash s) := by
  unfold execLoadBodyComplete
  refine .ite (.next h) ?_
  refine .ite (.next (.failLoad (.ite2 h.readRange h))) ?_
  exact .next (.setLoad (.fold (.ite2 h.readRange h) fun hu => hu.setRegion))

theorem execLoadSignatureVerify_continues (h : Steady s₀ s) : Continues s₀ (execLoadSignatureVerify s) :=
  .ite (.next h) (.next h.setLoad)

theorem execLoadRelease_continues (h : Steady s₀ s) : Continues s₀ (execLoadRelease s) := by
  simp only [execLoadRelease]
  refine .ite (.next h) ?_
  split
  · exact .next h.failLoad
  · refine .next ?_
    refine .setLoad ?_
    refine .bump ?_
    refine .setObj ?_
    refine h.fold fun hu => ?_
    exact .ite hu.clearRegion (.ite (hu.setRegion.withMem.unless fun hi => hi.moveUnit) hu.setRegion)

theorem execCfgStreamTimeout_continues (h : Steady s₀ s) : Continues s₀ (execCfgStreamTimeout s) := .occ h.failLoad h

theorem execXspiTimeout_continues (h : Steady s₀ s) : Continues s₀ (execXspiTimeout s) := .occ h.failLoad h

theorem Steady.cfgUe {r : Nat} (h : Steady s₀ s) : Steady s₀ (s.cfgUe r) :=
  .ite h.bump.raise (.raise (h.bump.setRegion.thenIf fun hi => hi.setUcb))

theorem execCfgScrubFrame_continues {found : Nat} (h : Steady s₀ s) : Continues s₀ (execCfgScrubFrame found s) := by
  simp only [execCfgScrubFrame]
  refine .ite (.next h) ?_
  split
  · exact .next h
  · refine .next (.thenIf (.bumpIf (.setFab (.bumpIf ?_))) fun h => h.cfgUe)
    exact h.setRegion.fold fun hu => hu.bump.raise

theorem Steady.applyCfgInject {v : Nat} (h : Steady s₀ s) : Steady s₀ (s.applyCfgInject v) := h.setRegion

theorem execFabricRamError_continues {double : Bool} (h : Steady s₀ s) : Continues s₀ (execFabricRamError double s) :=
  .next (.ite h (.ite h.bump.raise h.bump))

theorem Steady.masterDone {n tag st m : Nat} {data : List Byte} (h : Steady s₀ s) :
    Steady s₀ (s.masterDone n tag st m data) :=
  h.setFport.fold fun hu => hu.emit

theorem Steady.masterRefuse {n oid st m : Nat} {data : List Byte} (h : Steady s₀ s) :
    Steady s₀ (s.masterRefuse n oid st m data) := h.setFport.masterDone

theorem Steady.masterTake {n : Nat} {q : FpReq} {t : State} (h : Steady s₀ s) (e : s.masterTake n q = some t) :
    Steady s₀ t := by
  have hsend : ∀ {s t p use}, Steady s₀ s → s.send p use = some t → Steady s₀ t := .send
  refine (?_ : Lands s₀ (s.masterTake n q)) t e
  unfold State.masterTake
  generalize State.send = send at hsend ⊢
  generalize State.destNode = dest
  revert send dest
  refine id ?_
  intro send hsend dest
  dsimp only
  refine .ite .none (.ite (.some h.masterRefuse) (.ite (.some (.masterRefuse (.ite2 h.pellet h))) ?_))
  refine .ite (.some h.masterRefuse) (.ite (.some h.xlateRange.masterRefuse) (.ite .none ?_))
  split
  · refine .ite (.some h.xlateRange.unbackedHit.masterRefuse) (.ite (.some h.xlateRange.masterRefuse) ?_)
    exact .some h.xlateRange.linkAbsentData.masterRefuse
  · split
    · next u hu => exact .some (hsend (.setFport (.ite2 h.xlateRange.bump.pellet h.xlateRange)) hu).bump64
    · exact .none

theorem Steady.masterPump {n k : Nat} (h : Steady s₀ s) : Steady s₀ (State.masterPump n k s) := by
  induction k generalizing s with
  | zero => exact h
  | succ k ih =>
    unfold State.masterPump
    split
    · exact h
    · split
      · next t he => exact ih (h.setFport.masterTake he)
      · exact h

theorem Steady.masterAnswer {n tag st m : Nat} {data : List Byte} (h : Steady s₀ s) :
    Steady s₀ (s.masterAnswer n tag st m data) := h.masterDone.masterPump

theorem execFpMasterRequest_continues {n cmd addr len oid tc : Nat} {poison : Bool} {op : Nat} {data : List Byte}
    (h : Steady s₀ s) :
    Continues s₀ (execFpMasterRequest n cmd addr len oid tc poison op data s) :=
  .ite (.next h) (.next h.setFport.masterPump)

theorem Steady.fabricTarget {n : Nat} {p : Packet} {t : State} (h : Steady s₀ s) (e : s.fabricTarget n p = some t) :
    Steady s₀ t := by
  simp only [State.fabricTarget] at e
  split at e
  · cases e
  · cases e
    exact h.setFport.bump64.emit

theorem execFpTargetAnswer_continues {n tag status : Nat} {poison : Bool} {data : List Byte} (h : Steady s₀ s) :
    Continues s₀ (execFpTargetAnswer n tag status poison data s) := by
  simp only [execFpTargetAnswer]
  refine .ite (.next h) ?_
  split
  · exact .next h
  · split
    · exact .next (.respond (.ite h.setFport.bump h.setFport))
    · exact .next (.respond (.ite h.setFport.bump h.setFport))
    · refine .next ?_
      refine .respond ?_
      exact .thenIf (.ite2 (.pellet (.ite h.setFport.bump h.setFport)) (.ite h.setFport.bump h.setFport)) fun hi =>
          hi.bump

theorem execFabricEpochEdge_continues {e : Nat} (h : Steady s₀ s) : Continues s₀ (execFabricEpochEdge e s) :=
  .occ h.triggerSource h

/-! The operations of Machine/Lanes. -/

theorem Steady.setLane {n l : Nat} {x : Lane} (h : Steady s₀ s) : Steady s₀ (s.setLane n l x) :=
  h.trans (State.setLane_steady _ _ _ _)

theorem Steady.mapLanes {n mask : Nat} {f : Nat → Lane → Lane} (h : Steady s₀ s) : Steady s₀ (s.mapLanes n mask f) :=
  h.fold fun hu => hu.setLane

theorem Steady.enterPresence {n : Nat} (h : Steady s₀ s) : Steady s₀ (s.enterPresence n) := h.setPhy.mapLanes.mapLanes

theorem Steady.enterWait {n : Nat} (h : Steady s₀ s) : Steady s₀ (s.enterWait n) := by
  unfold State.enterWait
  exact h.setPhy.mapLanes

theorem Steady.portOff {n step : Nat} (h : Steady s₀ s) : Steady s₀ (s.portOff n step) := h.setPhy.mapLanes

theorem Steady.creanceStart {n : Nat} (h : Steady s₀ s) : Steady s₀ (s.creanceStart n) :=
  .ite h (.ite h.portOff (.ite h.portOff h.enterPresence))

theorem Steady.trainFail {n : Nat} {timeout : Bool} (h : Steady s₀ s) : Steady s₀ (s.trainFail n timeout) := by
  simp only [State.trainFail]
  split
  · refine .ite (.creanceStart (.setPhy (.ite h.bump.bump h.bump))) ?_
    refine .ite (.enterWait (.setPhy (.bump (.ite h.bump.bump h.bump)))) ?_
    exact .creanceStart (.setPhy (.bump (.ite h.bump.bump h.bump)))
  · exact .creanceStart (.setPhy (.ite h.bump.bump h.bump))

theorem Steady.portDrop {n : Nat} (h : Steady s₀ s) : Steady s₀ (s.portDrop n) := h.linkDrop.bump.setPhy.creanceStart

theorem execPresenceTimeout_continues {n : Nat} (h : Steady s₀ s) : Continues s₀ (execPresenceTimeout n s) :=
  .occ (.ite h.bump.enterWait (h.bump.fold fun hu => hu.setLane)) h

theorem execPhRetryExpiry_continues {n : Nat} (h : Steady s₀ s) : Continues s₀ (execPhRetryExpiry n s) :=
  .occ (.ite h.bump.enterPresence (h.bump.fold fun hu => hu.setLane)) h

theorem execLureDetected_continues {n l : Nat} (h : Steady s₀ s) : Continues s₀ (execLureDetected n l s) :=
  .occ (.unless (.ite h.setPhy.mapLanes.mapLanes h) fun hi => hi.setLane) h

theorem Steady.noteConflict {n : Nat} (h : Steady s₀ s) : Steady s₀ (s.noteConflict n) :=
  .ite h (.unless (.ite h.bump h) fun hi => hi.setPhy)

theorem Steady.noteRates {n h' : Nat} (h : Steady s₀ s) : Steady s₀ (s.noteRates n h') := by
  simp only [State.noteRates]
  refine .ite ?_ h
  split
  · exact h.setPhy
  · exact h.trainFail

theorem execTrainingFrameRx_continues {n l hdr : Nat} (h : Steady s₀ s) : Continues s₀ (execTrainingFrameRx n l hdr s) :=
  .occ (.ite h.bump.setLane h.setLane.noteConflict.noteRates) h

theorem execPresenceComplete_continues {n : Nat} (h : Steady s₀ s) : Continues s₀ (execPresenceComplete n s) := by
  unfold execPresenceComplete
  refine .ite (.next (h.fold fun hu => hu.setLane)) ?_
  exact .occ (.setPhy (.fold (.fold (.ite h h.bump) fun hu => hu.setLane) fun hu => hu.setLane)) h

theorem execRateSwitch_continues {n : Nat} (h : Steady s₀ s) : Continues s₀ (execRateSwitch n s) := by
  simp only [execRateSwitch]
  refine .occ ?_ h
  refine .ite h.setPhy.trainFail ?_
  split
  · exact h
  · exact .ite (h.setPhy.fold fun hu => hu.setLane) h

theorem execFfeRequestApply_continues {n l : Nat} (h : Steady s₀ s) : Continues s₀ (execFfeRequestApply n l s) :=
  .occ (.ite h.setLane (.ite (.ite h.setLane h) h.setLane)) h

theorem Steady.chooseCtle {n l : Nat} (h : Steady s₀ s) : Steady s₀ (s.chooseCtle n l) := .ite h.setLane h.draw.setLane

theorem Steady.adaptDfe {n l : Nat} (h : Steady s₀ s) : Steady s₀ (s.adaptDfe n l) :=
  .ite h (h.drawN.setLane.unless fun hi => hi.bump)

theorem Steady.laneNext {n l : Nat} (h : Steady s₀ s) : Steady s₀ (s.laneNext n l) :=
  .ite h.setLane.chooseCtle.adaptDfe h.setLane

theorem Steady.laneBack {n l : Nat} (h : Steady s₀ s) : Steady s₀ (s.laneBack n l) :=
  .ite h.setLane.setPhy.sendCtl h.setLane

theorem execCreanceStepComplete_continues {n skew : Nat} (h : Steady s₀ s) :
    Continues s₀ (execCreanceStepComplete n skew s) := by
  unfold execCreanceStepComplete
  refine .ite (.occ (h.fold fun hu => .ite (.ite hu.bump.setLane hu.laneBack) hu.laneNext) h) ?_
  exact .occ (.ite h.trainFail (.fold (.setPhy (.ite (h.fold fun hu => hu.setLane) h)) fun hu => hu.laneNext)) h

theorem execCreanceStepTimeout_continues {n : Nat} (h : Steady s₀ s) : Continues s₀ (execCreanceStepTimeout n s) :=
  .occ (.ite (h.bump.fold fun hu => hu.setLane) h.trainFail) h

theorem execLinkFramingStart_continues {n : Nat} (h : Steady s₀ s) : Continues s₀ (execLinkFramingStart n s) :=
  .occ (.setPhy (h.fold fun hu => .ite hu.setLane hu.setLane)) h

theorem Steady.laneLost {n l : Nat} (h : Steady s₀ s) : Steady s₀ (s.laneLost n l) :=
  .ite h.setLane (.ite (.ite h.setLane h.setLane.setPhy.sendCtl) h.setLane.portDrop)

theorem Steady.detectorReport {n l : Nat} (h : Steady s₀ s) : Steady s₀ (s.detectorReport n l) :=
  .ite h.laneLost (.ite h.setLane (.ite h.trainFail h.setLane))

theorem execLosDetected_continues {n l : Nat} (h : Steady s₀ s) : Continues s₀ (execLosDetected n l s) :=
  .occ h.bump.setLane.detectorReport h

theorem execLolDetected_continues {n l : Nat} (h : Steady s₀ s) : Continues s₀ (execLolDetected n l s) :=
  .occ h.bump.setLane.detectorReport h

theorem execPhRequiredGrace_continues {n : Nat} (h : Steady s₀ s) : Continues s₀ (execPhRequiredGrace n s) :=
  .occ h.setPhy.raise h

theorem Steady.tryHood {n : Nat} (h : Steady s₀ s) : Steady s₀ (s.tryHood n) := .ite h.setPhy.sendCtl h

theorem Steady.settleOpen {n : Nat} (h : Steady s₀ s) : Steady s₀ (s.settleOpen n) := .ite h.setPhy.linkPump h

theorem Steady.sendOpen {n : Nat} (h : Steady s₀ s) : Steady s₀ (s.sendOpen n) := .ite h.setPhy.sendCtl.settleOpen h

theorem Steady.applyPhLinkEnable {n v : Nat} (h : Steady s₀ s) : Steady s₀ (s.applyPhLinkEnable n v) := by
  unfold State.applyPhLinkEnable
  refine .ite (.ite h.setObj.creanceStart (.ite h.setObj.sendOpen h.setObj)) ?_
  exact .ite h.setObj.tryHood (.ite h.setObj h.setObj.portOff)

theorem Steady.applyPhMaxRate {n v : Nat} (h : Steady s₀ s) : Steady s₀ (s.applyPhMaxRate n v) := h.setObj.setPhy

theorem execRecalDue_continues {n l : Nat} (h : Steady s₀ s) : Continues s₀ (execRecalDue n l s) := .occ h.setLane h

theorem Steady.askWindow {n l : Nat} (h : Steady s₀ s) : Steady s₀ (s.askWindow n l) := h.sendCtl

theorem execRecalPiece_continues {n l : Nat} {done : Bool} (h : Steady s₀ s) : Continues s₀ (execRecalPiece n l done s) :=
  .occ (.ite h.bump.setLane.chooseCtle.adaptDfe (.ite h.askWindow h)) h

theorem execRecalDeferred_continues {n l : Nat} (h : Steady s₀ s) : Continues s₀ (execRecalDeferred n l s) :=
  .occ h.bump.setLane.askWindow h

theorem Steady.countPattern {i : Nat} (h : Steady s₀ s) : Steady s₀ (s.countPattern i) :=
  .ite h h.draw.setObj.setObj.setLane

theorem Steady.applyPatternCtrl {i v : Nat} (h : Steady s₀ s) : Steady s₀ (s.applyPatternCtrl i v) :=
  .unless (.setObj (h.countPattern.thenIf fun hi => hi.setObj.setObj)) fun hi => hi.setLane

theorem Steady.applyLaneInject {i v : Nat} (h : Steady s₀ s) : Steady s₀ (s.applyLaneInject i v) :=
  .ite (.ite h.setObj.bump.setLane h.setObj.setLane) h.setObj.setLane

theorem execPatternCheckerLock_continues {n l : Nat} (h : Steady s₀ s) : Continues s₀ (execPatternCheckerLock n l s) :=
  .occ (.setLane (.ite h.bump h)) h

theorem execPatternCheckerLockLoss_continues {n l counted errors : Nat} (h : Steady s₀ s) :
    Continues s₀ (execPatternCheckerLockLoss n l counted errors s) := .occ h.setObj.setObj.setLane h

/-! The operations of Machine/Link. -/

theorem Steady.takeCodeword {n corrected : Nat} {uncorrectable : Bool} {c : Codeword} (h : Steady s₀ s) :
    Steady s₀ (s.takeCodeword n corrected uncorrectable c) := by
  unfold State.takeCodeword
  exact Steady.pipe (.ite h.bump64.bump (.thenIf (.ite h.bump64 h.bump64.bump64.bump64) fun hi => hi.bump)) fun h3 =>
      .ite (.ite h3.setPhy.portDrop h3.setPhy) (h3.mapLanes.setPhy.thenIf fun hi => hi.sendCtl)

theorem execCodewordRx_continues {n corrected : Nat} {uncorrectable : Bool} {l0 l1 l2 l3 : List Nat}
    {upper : List (List Nat)} (h : Steady s₀ s) :
    Continues s₀ (execCodewordRx n corrected uncorrectable l0 l1 l2 l3 upper s) := .occ h.takeCodeword h

theorem execAckTimer_continues {n : Nat} (h : Steady s₀ s) : Continues s₀ (execAckTimer n s) := .occ h.sendCtl h

theorem Steady.freePlace {n q : Nat} (h : Steady s₀ s) : Steady s₀ (s.freePlace n q) := .ite h.setPhy.sendCtl h.setPhy

theorem Steady.remotePellet {n : Nat} {pl : List Byte} (h : Steady s₀ s) : Steady s₀ (s.remotePellet n pl).2 := by
  unfold State.remotePellet
  exact h.pellet

theorem Steady.linkAnswer {n id : Nat} {kind : PKind} {status : Nat} {data : List Byte} {mark seg : Nat} {last : Bool}
    (h : Steady s₀ s) :
    Steady s₀ (s.linkAnswer n id kind status data mark seg last) := by
  simp only [State.linkAnswer]
  split
  · exact h
  · exact h.setPhy.linkPump.tryHood

theorem Steady.linkRefuse {n id : Nat} {kind : PKind} {len status : Nat} {code : Option Nat} (h : Steady s₀ s) :
    Steady s₀ (s.linkRefuse n id kind len status code) := by
  simp only [State.linkRefuse]
  split
  · exact .ite h.pellet.drawBytes.linkAnswer h.linkAnswer
  · exact h.linkAnswer

theorem Steady.flitPacket {n : Nat} {f : LinkFlit} {kind : PKind} (h : Steady s₀ s) : Steady s₀ (s.flitPacket n f kind).2 :=
  .ite2 (.drawBytes (.ite2 h.remotePellet h)) (.ite2 h.remotePellet h)

theorem Steady.linkTarget {p : Packet} (h : Steady s₀ s) : Steady s₀ (s.linkTarget p).2 := by
  simp only [State.linkTarget]
  split
  · refine .ite2 h.inbound ?_
    split
    · exact h.inbound
    · exact h.bump
  · refine .ite2 h.inbound ?_
    split
    · exact h.inbound
    · exact h.bump
  · refine .ite2 h.inbound ?_
    split
    · exact h.inbound
    · exact h.bump
  · refine .ite2 h.inbound ?_
    split
    · exact h.inbound
    · exact h.bump
  · exact h
  · exact h

theorem Steady.linkRequest {n : Nat} {f : LinkFlit} {kind : PKind} {t : State} (h : Steady s₀ s)
    (e : s.linkRequest n f kind = some t) : Steady s₀ t := by
  simp only [State.linkRequest] at e
  split at e
  · split at e
    · cases e
      exact h.flitPacket.setPhy.bump.linkRefuse
    · obtain ⟨u, hu, rfl⟩ := Option.map_eq_some_iff.1 e
      exact (h.flitPacket.setPhy.send hu).bump64.serveNode
  · split at e
    · cases e
      exact h.flitPacket.linkTarget.setPhy.linkRefuse
    · exact h.flitPacket.linkTarget.setPhy.send e

theorem Steady.linkResponse {n : Nat} {f : LinkFlit} {kind : PKind} (h : Steady s₀ s) :
    Steady s₀ (s.linkResponse n f kind) := by
  simp only [State.linkResponse]
  split
  · exact h.bump.setPhy
  · refine .tryHood ?_
    exact .serveNode (.respond (.setPhy (.ite2 (.drawBytes (.ite2 h.remotePellet h)) (.ite2 h.remotePellet h))))

theorem execLinkTransactionRx_continues {n : Nat} (h : Steady s₀ s) : Continues s₀ (execLinkTransactionRx n s) := by
  simp only [execLinkTransactionRx]
  split
  · exact .next h
  · refine .ite (.next h) ?_
    split
    · exact .next h.setPhy
    · refine .ite (.next h.setPhy.linkResponse.freePlace.tryHood) ?_
      split
      · exact .next h
      · next t he => exact .next (h.setPhy.linkRequest he).freePlace.tryHood

theorem Steady.replay {n : Nat} (h : Steady s₀ s) : Steady s₀ (s.replay n) :=
  .ite h (.ite h.portDrop (h.bump.setPhy.fold fun hu => hu.emit))

theorem Steady.takeCtl {n h' : Nat} (h : Steady s₀ s) : Steady s₀ (s.takeCtl n h') :=
  .linkPump (.thenIf (.ite h.setPhy.endFull h.setPhy) fun hi => hi.replay)

theorem Steady.ctlHead {n : Nat} {ops : List Nat} {w : Nat × State} (h : Steady s₀ s) (e : s.ctlHead n ops = some w) :
    Steady s₀ w.2 := by
  unfold State.ctlHead at e
  split at e
  · cases e
  · split at e
    · cases e
      exact h.setPhy.takeCtl
    · cases e

theorem execLctrlIdle_continues {n : Nat} (h : Steady s₀ s) : Continues s₀ (execLctrlIdle n s) := by
  simp only [execLctrlIdle]
  split
  · exact .next h
  · next fst t he => exact .next (h.ctlHead he)

theorem execPmReq_continues {n : Nat} (h : Steady s₀ s) : Continues s₀ (execPmReq n s) := by
  simp only [execPmReq]
  split
  · exact .next h
  · next arg t he => exact .ite (.next (h.ctlHead he)) (.next (h.ctlHead he).mapLanes.sendCtl)

theorem execPmAck_continues {n : Nat} (h : Steady s₀ s) : Continues s₀ (execPmAck n s) := by
  simp only [execPmAck]
  split
  · exact .next h
  · next arg t he => exact .ite (.next (h.ctlHead he).mapLanes.setPhy) (.next (h.ctlHead he))

theorem execRecalWin_continues {n : Nat} (h : Steady s₀ s) : Continues s₀ (execRecalWin n s) := by
  simp only [execRecalWin]
  split
  · exact .next h
  · next arg t he => exact .ite (.next (h.ctlHead he)) (.next (h.ctlHead he).setPhy)

theorem execLaneDown_continues {n : Nat} (h : Steady s₀ s) : Continues s₀ (execLaneDown n s) := by
  simp only [execLaneDown]
  split
  · exact .next h
  · next arg s he =>
      refine .ite (.next (h.ctlHead he)) ?_
      split
      · exact .ite (.next (h.ctlHead he).setPhy) (.next (h.ctlHead he).portDrop)
      · exact .next (h.ctlHead he).setPhy

theorem execLaneUp_continues {n : Nat} (h : Steady s₀ s) : Continues s₀ (execLaneUp n s) := by
  simp only [execLaneUp]
  split
  · exact .next h
  · next arg t he => exact .ite (.next (h.ctlHead he)) (.next (h.ctlHead he).setPhy.sendCtl)

theorem execHood_continues {n : Nat} (h : Steady s₀ s) : Continues s₀ (execHood n s) := by
  simp only [execHood]
  split
  · exact .next h
  · next fst t he => exact .next (h.ctlHead he).setPhy.tryHood

theorem execOpen_continues {n : Nat} (h : Steady s₀ s) : Continues s₀ (execOpen n s) := by
  simp only [execOpen]
  split
  · exact .next h
  · next fst s he =>
      refine .ite (.next (h.ctlHead he).setPhy) ?_
      exact .next (.settleOpen ((h.ctlHead he).setPhy.unless fun hi => hi.setPhy.sendCtl))

theorem execReplayTimeout_continues {n : Nat} (h : Steady s₀ s) : Continues s₀ (execReplayTimeout n s) := .occ h.replay h

theorem execLaneDegradeSwitch_continues {n : Nat} (h : Steady s₀ s) : Continues s₀ (execLaneDegradeSwitch n s) := by
  simp only [execLaneDegradeSwitch]
  split
  · exact .next h
  · exact .ite (.next h) (.next (h.mapLanes.setPhy.unless fun hi => hi.bump))

theorem execLinkIdleTimer_continues {n : Nat} (h : Steady s₀ s) : Continues s₀ (execLinkIdleTimer n s) :=
  .occ h.setPhy.sendCtl h

theorem execPmReqTimeout_continues {n : Nat} (h : Steady s₀ s) : Continues s₀ (execPmReqTimeout n s) := .occ h.setPhy h

/-! The operations of Machine/Mmio. -/

theorem Steady.logReadWrite {v : Nat} (h : Steady s₀ s) : Steady s₀ (s.logReadWrite v).2 := .ite2 h h.withAgg

theorem Steady.niPut {node b v : Nat} (h : Steady s₀ s) : Steady s₀ (s.niPut node b v).2 := by
  unfold State.niPut
  refine .ite2 (.ite2 h.niReject h.setNi) ?_
  exact .ite2 (.ite2 h.niReject (.ite2 h h.setNi)) (.ite2 (.ite2 h.routeMovesWrite h.routeCtrlWrite) h)

theorem Steady.mmioPut {ag : Agent} {req : Option Packet} {o v : Nat} (h : Steady s₀ s) :
    Steady s₀ (s.mmioPut ag req o v).2 := by
  unfold State.mmioPut
  generalize (HDiv.hDiv : Nat → Nat → Nat) = div
  revert div
  refine id ?_
  intro div
  dsimp only
  refine .ite2 h.niPut ?_
  refine .ite2 (.ite2 (.ite2 h h.setJess) (.ite2 h h.post)) ?_
  refine .ite2 (.ite2 h (.ite2 h (.thenIf (.ite h.engSnap h) fun hi => hi.setEngine))) ?_
  refine .ite2 h.logReadWrite ?_
  refine .ite2 (.ite2 h.aptWord0 h.aptWord1) ?_
  refine .ite2 h ?_
  split
  · exact .ite2 h (.ite2 h.chainCtrl (.ite2 h.chainModulus h))
  · exact .ite2 h.frWrite (.ite2 (.ite2 h.ruleWordWrite h.ruleWordWrite.setSp) h)
  · exact .ite2 (.ite2 h.descWord0 h.descWordN) (.ite2 h.hotTagWrite h)
  · exact .ite2 h (.ite2 h.cfgReject (.ite2 h.cfgCtrl (.ite2 h.setFab (.ite2 h.setFab h))))
  · exact .ite2 h.currentPhaseWrite (.ite2 h.phaseMapWrite h)
  · exact h

theorem Steady.mmioWrite {ag : Agent} {req : Option Packet} {o : Nat} {bs : List Byte} (h : Steady s₀ s) :
    Steady s₀ (s.mmioWrite ag req o bs).2 := by
  simp only [State.mmioWrite]
  refine .ite2 h ?_
  refine .ite2 ?_ ?_
  · split
    · exact h.cfgData
    · exact h.cfgReject
  · split
    · exact h
    · refine .ite2 h ?_
      refine .ite2 ?_ h.mmioPut
      split
      · exact h.mmioPut.mmioPut
      · exact h.mmioPut

/-! The operations of Machine/Packets. -/

theorem Steady.edge {k : Packet} (h : Steady s₀ s) : Steady s₀ (s.edge k).2 := by
  simp only [State.edge]
  split
  · exact h
  · exact .ite2 h (.ite2 h (.ite2 h (.ite2 h.wake (.ite2 (.ite h.wake.setDom h.wake) h.wake.dropPacket.setDom))))

theorem Steady.closedReg {u : Nat} {k : Packet} (h : Steady s₀ s) : Steady s₀ (s.closedReg u k).2 :=
  .ite2 h.closedRead h.closedRead

theorem Steady.closedRegWrite {u : Nat} (h : Steady s₀ s) : Steady s₀ (s.closedRegWrite u).2 := .ite2 h.bump h.bump

theorem execRdReq_continues {p : Nat} {found : List (Nat × Nat)} (h : Steady s₀ s) :
    Continues s₀ (execRdReq p found s) := by
  simp only [execRdReq]
  split
  · exact .next h
  · refine .ite (.next h.edge) ?_
    refine .ite ?_ ?_
    · split
      · exact .next h.edge.closedReg.dropPacket.respond
      · exact .next h.edge.dropPacket.respond
    · split
      · split
        · next t he => exact .next (h.edge.fabricTarget he).dropPacket
        · exact .next h.edge
      · exact .next (.respond (.dropPacket (.homeRead (.ite h.edge.finds h.edge))))

theorem Steady.acceptedWrite {k : Packet} {a : Nat} {bs : List Byte} (h : Steady s₀ s) :
    Steady s₀ (s.acceptedWrite k a bs).2 := by
  simp only [State.acceptedWrite]
  refine .ite2 h.homeWrite ?_
  split
  · exact .pair h.loseReservations.storeLine
  · exact h

theorem Steady.writePiece {k : Packet} {i : Nat} (h : Steady s₀ s) : Steady s₀ (s.writePiece k i).2.2 := by
  unfold State.writePiece
  refine .ite3 h ?_
  exact .ite3 (.ite3 h.acceptedWrite (.ite3 h.acceptedWrite h.loseReservations.dropHeld.rawWrite)) h.acceptedWrite

theorem execWr_continues {p piece : Nat} (h : Steady s₀ s) : Continues s₀ (execWr p piece s) := by
  simp only [execWr]
  split
  · exact .next h
  · refine .ite (.next (.ite2 h.edge h)) ?_
    refine .ite ?_ ?_
    · refine .ite (.next (.ite2 h.edge h)) ?_
      split
      · exact .next (.respond (.dropPacket (.closedRegWrite (.ite2 h.edge h))))
      · refine .next ?_
        split
        · exact .respond (.dropPacket (.mmioWrite (.ite2 h.edge h)))
        · exact .dropPacket (.mmioWrite (.ite2 h.edge h))
    · split
      · split
        · next t he => exact .next (.dropPacket (.fabricTarget (.ite2 h.edge h) he))
        · exact .next (.ite2 h.edge h)
      · refine .ite (.next (.respond (.dropPacket (.homeWrite (.ite2 h.edge h))))) ?_
        refine .ite (.next (.respond (.dropPacket (.writePiece (.ite2 h.edge h))))) ?_
        exact .ite (.next (.ite2 h.edge h)) (.next (.setPacket (.writePiece (.ite2 h.edge h))))

theorem execWrPoison_continues {p : Nat} (h : Steady s₀ s) : Continues s₀ (execWrPoison p s) := by
  simp only [execWrPoison]
  split
  · exact .next h
  · refine .ite (.next h.edge) ?_
    refine .ite ?_ ?_
    · split
      · exact .next h.edge.closedRegWrite.dropPacket.respond
      · exact .next h.edge.dropPacket.respond
    · split
      · split
        · next t he => exact .next (h.edge.fabricTarget he).dropPacket
        · exact .next h.edge
      · exact .next h.edge.homeWrite.dropPacket.respond

theorem Steady.setReservation {ag : Agent} {a : Nat} (h : Steady s₀ s) : Steady s₀ (s.setReservation ag a) := by
  simp only [State.setReservation]
  split
  · exact h.setSlot
  · exact .ite h.withMem.bump h.withMem
  · exact .ite h.withMem.bump h.withMem
  · exact h

theorem Steady.takeReservation {ag : Agent} {a : Nat} (h : Steady s₀ s) : Steady s₀ (s.takeReservation ag a).2 := by
  simp only [State.takeReservation]
  split
  · exact h.setSlot
  · exact h.withMem

theorem Steady.performAmo {k : Packet} (h : Steady s₀ s) : Steady s₀ (s.performAmo k).2.2.2 := by
  simp only [State.performAmo]
  refine .ite4 h ?_
  refine .ite4 (.ite h.homeRead.takeReservation.bump h.homeRead.takeReservation) ?_
  refine .ite4 h.homeRead ?_
  refine .ite4 h.homeRead.setReservation ?_
  refine .ite4 ?_ ?_
  · refine .ite4 ?_ (h.homeRead.takeReservation.bumpIf)
    refine .ite4 (h.homeRead.takeReservation.homeWrite.bumpIf) ?_
    exact h.homeRead.takeReservation.homeWrite.bumpIf
  · split
    · exact h.homeRead
    · exact h.homeRead.homeWrite

theorem execAmoReq_continues {p : Nat} (h : Steady s₀ s) : Continues s₀ (execAmoReq p s) := by
  simp only [execAmoReq]
  split
  · exact .next h
  · refine .ite (.next h.edge) ?_
    refine .ite ?_ ?_
    · split
      · exact .next h.edge.closedReg.dropPacket.respond
      · exact .next h.edge.dropPacket.respond
    · split
      · refine .ite (.next h.edge.dropPacket.respond) ?_
        split
        · next t he => exact .next (h.edge.fabricTarget he).dropPacket
        · exact .next h.edge
      · exact .next h.edge.performAmo.dropPacket.respond

theorem execEpochMark_continues {p : Nat} (h : Steady s₀ s) : Continues s₀ (execEpochMark p s) := by
  simp only [execEpochMark]
  split
  · exact .next h
  · split
    · exact .ite (.next h.dropPacket.trigger.respond) (.next h.dropPacket.bump.respond)
    · exact .next (.ite h.dropPacket.trigger h.dropPacket)

theorem Steady.closedGather {u : Nat} {k : Packet} (h : Steady s₀ s) : Steady s₀ (s.closedGather u k) :=
  h.bump.pellet.drawBytes.answerGather

theorem execGatherReq_continues {p : Nat} (h : Steady s₀ s) : Continues s₀ (execGatherReq p s) := by
  simp only [execGatherReq]
  split
  · exact .next h
  · refine .ite (.next h.edge) ?_
    refine .ite (.next h.edge.dropPacket.closedGather) ?_
    split
    · next t he => exact .next (h.edge.takeGather he).dropPacket
    · exact .next h.edge

theorem Steady.remoteStatus {o : Outst} {st mark : Nat} (h : Steady s₀ s) : Steady s₀ (s.remoteStatus o st mark).2.2 :=
  .ite3 h (.ite3 h (.ite3 h h.pellet))

theorem Steady.loadAnswered {q k : Nat} {l : PendLoad} {o : Outst} {st : Nat} {bs : List Byte} {mark off : Nat}
    (h : Steady s₀ s) :
    Steady s₀ (s.loadAnswered q k l o st bs mark off) :=
  .ite h.setSlot (.ite (.ite h.setSlot h.setSlot.endWith) (.ite h.setSlot.bump h.setSlot))

theorem Steady.fetchAnswered {q k line st : Nat} {bs : List Byte} {mark : Nat} (h : Steady s₀ s) :
    Steady s₀ (s.fetchAnswered q k line st bs mark) := .ite h (.ite h.setSlot (.ite h.setSlot.endWith h.setSlot.setSlot))

theorem Steady.storeAnswered {q tag st mark : Nat} (h : Steady s₀ s) : Steady s₀ (s.storeAnswered q tag st mark) := by
  simp only [State.storeAnswered]
  split
  · exact h
  · exact Steady.pipe (.ite h.setSeq.bump h.setSeq) fun h2 => .ite h2 (.ite h2.endWith h2.setSlot)

theorem Steady.engAnswered {e slot : Nat} {dst : List (Nat × Nat × Nat)} {st : Nat} {bs : List Byte} {mark ga : Nat}
    (h : Steady s₀ s) :
    Steady s₀ (s.engAnswered e slot dst st bs mark ga) := by
  unfold State.engAnswered
  refine .ite ?_ (.ite (.ite h.engRead.stopChain h.engRead) h.engRead)
  exact .ite h.engSettle (.ite h.noteBeat.stopChain.engSettle (.ite h.stopChain.engSettle h.setEngine))

theorem Steady.engAcked {e st mark : Nat} (h : Steady s₀ s) : Steady s₀ (s.engAcked e st mark) :=
  .engSettle (.pumpEng (.thenIf (.ite h h.noteBeat) fun hi => hi.stopChain))

theorem Steady.engWaited {e m st : Nat} (h : Steady s₀ s) : Steady s₀ (s.engWaited e m st) :=
  .ite h (.ite h.stopChain.engSettle (.ite h.setEngine h.setEngine))

theorem Steady.stepWaited {i st : Nat} (h : Steady s₀ s) : Steady s₀ (s.stepWaited i st) := by
  simp only [State.stepWaited]
  refine .ite h ?_
  refine .ite ?_ h.setColl
  split
  · exact h.stepFail.settleColl
  · exact h.stepFail

theorem Steady.wordAnswered {q k st mark : Nat} (h : Steady s₀ s) : Steady s₀ (s.wordAnswered q k st mark) :=
  .ite h (.ite h.endWith h.setSlot)

theorem Steady.bagFlit {g bag part seg st : Nat} {bs : List Byte} {mark : Nat} (h : Steady s₀ s) :
    Steady s₀ (s.bagFlit g bag part seg st bs mark).2 := by
  unfold State.bagFlit
  exact h.gatherArrives

theorem Steady.fillPart {g bag part st mark f seg : Nat} (h : Steady s₀ s) :
    Steady s₀ (State.fillPart g bag part st mark f seg s) := by
  induction f generalizing seg s with
  | zero => exact h
  | succ f ih =>
    unfold State.fillPart
    exact .ite h.drawBytes.bagFlit (ih h.drawBytes.bagFlit)

theorem Steady.complete {o : Outst} {kind : PKind} {st : Nat} {bs : List Byte} {mark seg ga : Nat} {last : Bool}
    (h : Steady s₀ s) :
    Steady s₀ (s.complete o kind st bs mark seg ga last) := by
  simp only [State.complete]
  split
  · split
    · exact h.loadAnswered
    · exact h
  · exact h.fetchAnswered
  · exact h.storeAnswered
  · exact h.engAnswered
  · exact h.engAcked
  · exact h.engAcked
  · exact h.wordAnswered
  · exact h.wordAnswered
  · exact h.fillPart
  · exact h.wordAnswered
  · exact .ite h.gxStop (.ite h h.gxNote.setGe)
  · exact h
  · exact h.withNet
  · exact .ite h h.endCopy
  · exact h.engWaited
  · exact h.stepWaited
  · exact h.stepAcked
  · exact h.masterAnswer
  · exact .ite (.ite h.bump h) h.bar2Piece
  · exact h.linkAnswer
  · exact h.beatAck
  · exact h.lineAck
  · exact h

theorem Steady.respondTo {p : Nat} {kind : PKind} (h : Steady s₀ s) : Steady s₀ (s.respondTo p kind) := by
  unfold State.respondTo
  split
  · exact h
  · split
    · exact h.dropPacket
    · extract_lets t m s2 r s3 last s4
      have h2 : Steady s₀ s2 := by
        dsimp only [s2]
        split
        · exact h.dropPacket.countBytes
        · exact h.dropPacket.countBytes
        · exact h.dropPacket
      have h3 : Steady s₀ s3 := h2.remoteStatus
      refine .ite (.ite h.dropPacket h.dropPacket.bump) (.ite h (.ite h.dropPacket ?_))
      split
      · exact h3.bagFlit.thenIf fun h => h.freeOutst.countLat
      · exact .complete (h3.thenIf fun h => h.freeOutst.countLat)

theorem Steady.gatherSettled {k : Packet} (h : Steady s₀ s) : Steady s₀ (s.gatherSettled k) := by
  simp only [State.gatherSettled]
  refine .ite h ?_
  refine h.fold fun hu => ?_
  split
  · exact hu.setPhy.tryHood
  · exact hu

theorem Steady.slotWaited {q k st : Nat} (h : Steady s₀ s) : Steady s₀ (s.slotWaited q k st) :=
  .ite h.setSlot.advance h.setSlot.endProgram

theorem execJessGrant_continues {p : Nat} (h : Steady s₀ s) : Continues s₀ (execJessGrant p s) := by
  simp only [execJessGrant]
  split
  · exact .next h
  · split
    · exact .next h.dropPacket
    · refine .ite (.next h.dropPacket.freeOutst.countLat) ?_
      refine .ite (.next (h.dropPacket.freeOutst.countLat.thenIf fun hi => hi.post.bump)) ?_
      split
      · exact .next (.ite h.dropPacket.freeOutst.countLat.slotWaited h)
      · exact .next h.dropPacket.freeOutst.countLat.complete

theorem execAmoRsp_continues {p : Nat} (h : Steady s₀ s) : Continues s₀ (execAmoRsp p s) := .next h.respondTo

theorem execGatherRsp_continues {p : Nat} (h : Steady s₀ s) : Continues s₀ (execGatherRsp p s) := by
  simp only [execGatherRsp]
  split
  · exact .next h.respondTo.gatherSettled
  · exact .next h

theorem Steady.requestTimeout {node tc tag : Nat} (h : Steady s₀ s) : Steady s₀ (s.requestTimeout node tc tag) := by
  simp only [State.requestTimeout]
  split
  · exact h
  · exact .ite h (.complete (.drawBytes (.ite2 h.withNet.bump.pellet h.withNet.bump)))

theorem Steady.reissue {o : Outst} {k : Packet} {port : Nat} (h : Steady s₀ s) : Steady s₀ (s.reissue o k port) := by
  simp only [State.reissue]
  refine .withNet ?_
  refine .chooseRoute ?_
  split
  · split
    · split
      · exact .setGe (.ite h.bump.bump h.bump)
      · exact .ite h.bump.bump h.bump
    · exact .ite h.bump.bump h.bump
  · exact .ite h.bump.bump h.bump

theorem Steady.noticeArrived {p : Nat} (h : Steady s₀ s) : Steady s₀ (s.noticeArrived p) := by
  simp only [State.noticeArrived]
  split
  · exact h
  · refine .ite h ?_
    split
    · exact h.dropPacket
    · split
      · exact h
      · refine .ite h.dropPacket.bump ?_
        split
        · exact h.dropPacket.freeOutst.linkAnswer
        · split
          · exact h.dropPacket.reissue.serveNode
          · exact h.dropPacket.freeOutst.bump.pellet.drawBytes.complete

/-! The operations of Machine/Complete. -/

theorem execUnitOpComplete_continues {q : Nat} {residueOk : Bool} (h : Steady s₀ s) :
    Continues s₀ (execUnitOpComplete q residueOk s) := by
  simp only [execUnitOpComplete]
  split
  · exact .next h
  · refine .ite (.next h) ?_
    refine .ite (.next h.checkerFault) ?_
    refine .next ?_
    split
    · exact h.runVx
    · exact h.runCx
    · exact h.gxComplete
    · exact .ite h.settleColl h
    · exact .ite h.settleColl h
    · exact h

theorem Steady.applyStaged {key v : Nat} (h : Steady s₀ s) : Steady s₀ (s.applyStaged key v) :=
  .ite h.withOap.applySpMode h.withOap.setObj

theorem Steady.commitCore {c : Nat} (h : Steady s₀ s) : Steady s₀ (s.commitCore c) := by
  simp only [State.commitCore]
  split
  · exact h.setSec.applyLayer
  · exact .ite h.closeBin h
  · exact h

theorem execEpochCommitApply_continues {d : Nat} (h : Steady s₀ s) : Continues s₀ (execEpochCommitApply d s) := by
  unfold execEpochCommitApply
  refine .ite (.next h) ?_
  refine .next ?_
  refine .setEpoch ?_
  refine .fold (.withEp (.fold (h.fold fun hu => hu.applyStaged) fun hu => hu.cfgWrite)) fun hu => ?_
  exact .ite hu.commitCore hu

theorem execEpochCommitRelease_continues {d : Nat} (h : Steady s₀ s) : Continues s₀ (execEpochCommitRelease d s) :=
  .ite (.next h) (.next (.sendEvent (.pulseOut (.setEpoch (.setObj (.bump (h.withEp.fold fun hu => hu.setObj)))))))

/-! The operations of Machine/Power. -/

theorem Steady.closeForStop {u : Nat} (h : Steady s₀ s) : Steady s₀ (s.closeForStop u) := .ite h.setDom.closeBin h

theorem Steady.hoodPort {u : Nat} (h : Steady s₀ s) : Steady s₀ (s.hoodPort u) := .ite h.tryHood h

theorem Steady.openPort {u : Nat} (h : Steady s₀ s) : Steady s₀ (s.openPort u) := .ite h.sendOpen h

theorem Steady.endDrain {u : Nat} (h : Steady s₀ s) : Steady s₀ (s.endDrain u) := by
  simp only [State.endDrain]
  split
  · exact h.setDom.setUcb.thenIf fun hi => hi.testHooded
  · exact h.setDom.setUcb.unhood.openPort
  · exact h.setDom

theorem execDomainDrainComplete_continues {unit : Nat} (h : Steady s₀ s) : Continues s₀ (execDomainDrainComplete unit s) :=
  .ite (.next h) (.ite (.next h.closeForStop.hoodPort.endDrain) (.next h.closeForStop.hoodPort))

theorem Steady.abandon {u : Nat} (h : Steady s₀ s) : Steady s₀ (s.abandon u) := by
  unfold State.abandon
  extract_lets _ s1 held s2 s3 n
  have h2 : Steady s₀ s2 := h.withNet.fold fun hu => hu.dropPacket.bump.respond
  have h3 : Steady s₀ s3 := h2.fold fun hu => .ite hu.endChain hu
  split
  · exact h3.setGe.fold fun hu => hu.closedGather
  · refine .fold (h3.setFport.fold fun hu => ?_) fun hu => hu.masterAnswer
    split
    · exact hu.bump.respond
    · exact hu.bump.respond
    · exact hu.closedRead.respond
  · exact h3.setSec
  · exact h3.setSp
  · exact h3

theorem execDomainDrainTimeout_continues {unit : Nat} (h : Steady s₀ s) : Continues s₀ (execDomainDrainTimeout unit s) :=
  .ite (.next h) (.next h.closeForStop.bump.abandon.hoodPort.endDrain)

theorem Steady.nextMove {u : Nat} {t : UState} (h : Steady s₀ s) : Steady s₀ (s.nextMove u t) := h.setUcb.moveUnit.reached

theorem execPowerDownComplete_continues {unit : Nat} (h : Steady s₀ s) : Continues s₀ (execPowerDownComplete unit s) := by
  unfold execPowerDownComplete
  extract_lets d _ s1 n _ s2 stay t
  have h1 : Steady s₀ s1 := h.setDom.setUcb
  have h2 : Steady s₀ s2 := .ite h1 (.ite h1.portOff (h1.thenIf fun hu => hu.setPhy.sendCtl))
  refine .ite (.next h) (.next ?_)
  split
  · exact h2.nextMove
  · exact .ite (h2.powerUp.unless fun hu => hu.bump) h2

theorem Steady.resetUnit {u : Nat} (h : Steady s₀ s) : Steady s₀ (s.resetUnit u) := by
  unfold State.resetUnit
  extract_lets lo hi out m t n
  have ht : Steady s₀ t := .ite h (h.withCells (SMap.wf_filter _))
  split
  · exact ht.setTile
  · exact ht.withTiles
  · exact ht.withCat
  · exact ht.setSec
  · exact ht.setSp
  · exact ht.setGe
  · exact ht

theorem Steady.unpark {u : Nat} (h : Steady s₀ s) : Steady s₀ (s.unpark u) := .withNet (.setDom (.ite h h.bump64))

theorem execPowerUpComplete_continues {unit : Nat} (h : Steady s₀ s) : Continues s₀ (execPowerUpComplete unit s) := by
  unfold execPowerUpComplete
  extract_lets d was n s1 role s2 s3 s4
  have h1 : Steady s₀ s1 := .setDom (.ite h.resetUnit h)
  refine .ite (.next h) ?_
  split
  · have h2 : Steady s₀ s2 := h1.enterReady.unpark
    have h3 : Steady s₀ s3 :=
      .ite h2 (.ite h2.creanceStart (.openPort (.applyPhLinkEnable (h2.thenIf fun hu => hu.txWake))))
    have h4 : Steady s₀ s4 := h3.thenIf fun hu => hu.restSpare
    refine .ite (.next h4.startDrain) (.next ?_)
    split
    · exact h4.nextMove
    · exact h4
  · refine .next ?_
    split
    · exact h1.setDom.setUcb.unpark.nextMove
    · exact h1.setDom.setUcb.unpark

/-! The operations of Machine/Reset. -/

theorem Steady.forgetInlet (h : Steady s₀ s) : Steady s₀ s.forgetInlet := .ite h h.withCool

theorem Steady.bootDefaults (h : Steady s₀ s) : Steady s₀ s.bootDefaults := .ite (h.fold fun hu => hu.setObj) h

theorem Kept.coldReset {cause : Nat} (h : Kept s₀ s) : Kept s₀ (s.coldReset cause) := by
  refine h.trans ?_
  dsimp only [State.coldReset]
  refine .trans ?_ (Steady.refl _).setObj.forgetInlet.toKept
  exact ⟨rfl, rfl, rfl, Nat.le_refl _, fun hc => ⟨rfl, State.dictWf_filter hc.2 rfl rfl⟩⟩

theorem Steady.dropToS1 (h : Steady s₀ s) : Steady s₀ s.dropToS1 :=
  .unless (h.fold fun hu => hu.setObj) fun hi => hi.setObj.sendEvent

theorem Kept.warmReset {cause : Nat} (h : Kept s₀ s) : Kept s₀ (s.warmReset cause) := by
  refine h.trans ?_
  dsimp only [State.warmReset]
  refine .trans ?_ (Steady.refl _).bootDefaults.setObj.dropToS1.toKept
  exact ⟨rfl, rfl, rfl, Nat.le_refl _, fun hc => ⟨SMap.wf_filter _ hc.1, State.dictWf_filter hc.2 rfl rfl⟩⟩

theorem Steady.dropLoad (h : Steady s₀ s) : Steady s₀ s.dropLoad := .setLoad (.ite (h.fold fun hu => hu.clearRegion) h)

theorem Kept.keeperReset {cause : Nat} (h : Kept s₀ s) : Kept s₀ (s.keeperReset cause) := by
  refine .ite h.warmReset (h.trans ?_)
  dsimp only
  refine .trans ?_ (Steady.refl _).dropLoad.stopTests.setObj.forgetInlet.toKept
  exact ⟨rfl, rfl, rfl, Nat.le_refl _, fun hc => ⟨hc.1, State.dictWf_filter hc.2 rfl rfl⟩⟩

theorem Steady.lanesSleep (h : Steady s₀ s) : Steady s₀ s.lanesSleep := h.fold fun hu => .ite hu.setPhy.sendCtl hu

theorem Steady.startEntry (h : Steady s₀ s) : Steady s₀ s.startEntry := h.stopTests.withSup.lanesSleep

theorem Steady.followBand (h : Steady s₀ s) : Steady s₀ s.followBand := .ite h (.ite h.startEntry h.withSup)

theorem Steady.setVin {mv : Nat} (h : Steady s₀ s) : Steady s₀ (s.setVin mv) := h.setObj.withSup

theorem execVinBandEntry_continues {band : VinBand} {vin : VinLevel} (h : Steady s₀ s) :
    Continues s₀ (execVinBandEntry band vin s) := by
  simp only [execVinBandEntry]
  refine .occ ?_ h
  refine .takeHeldData ?_
  refine .followBand ?_
  split
  · exact h.setVin.setVin.withSup
  · exact h.setVin.setVin.withSup.bump
  · exact h.setVin.setVin.withSup.bump
  · exact h.setVin.setVin.withSup.bump.raise

theorem Steady.bandMews {u : Nat} (h : Steady s₀ s) : Steady s₀ (s.bandMews u) := .setUcb (.setDom (.ite h.resetUnit h))

theorem Steady.lanesTo {st : Nat} (h : Steady s₀ s) : Steady s₀ (s.lanesTo st) :=
  h.fold fun hu => .ite hu (hu.mapLanes.setPhy.thenIf fun hi => hi.sendCtl)

theorem execMewsEntryComplete_continues (h : Steady s₀ s) : Continues s₀ (execMewsEntryComplete s) :=
  .occ (.followBand (.lanesTo (.withSup (h.fold fun hu => hu.bandMews)))) h

theorem Steady.bandWake {u : Nat} (h : Steady s₀ s) : Steady s₀ (s.bandWake u) := by
  simp only [State.bandWake]
  split
  · exact .ite h.powerUp.bump h
  · split
    · exact h.setUcb.enterReady.setUcb.unpark
    · exact h.setUcb.enterReady.setUcb.unpark
    · exact .ite h.setUcb.enterReady.unpark.setUnitSt h.setUcb.enterReady.unpark.openPort
    · refine .ite h.setUcb.enterReady.setUcb.unpark ?_
      exact .ite h.setUcb.setUcb (.ite h.setUcb.setUcb.moveUnit h.setUcb.setUcb.unpark)
    · refine .ite h.setUcb.enterReady.setUcb.unpark ?_
      exact .ite h.setUcb.setUcb (.ite h.setUcb.setUcb.moveUnit h.setUcb.setUcb.unpark)
    · refine .ite h.setUcb.enterReady.setUcb.unpark ?_
      exact .ite h.setUcb.setUcb (.ite h.setUcb.setUcb.moveUnit h.setUcb.setUcb.unpark)
    · exact h.setUcb

theorem execMewsExitComplete_continues (h : Steady s₀ s) : Continues s₀ (execMewsExitComplete s) :=
  .occ (.followBand (.lanesTo (h.withSup.fold fun hu => hu.bandWake))) h

theorem execPowerOn_keeps {mv : Nat} (h : Kept s₀ s) : Keeps s₀ (execPowerOn mv s) := .occ h.withSup.coldReset h

theorem execVinLoss_keeps {collapse : Bool} {mv : Nat} (h : Kept s₀ s) : Keeps s₀ (execVinLoss collapse mv s) :=
  .occ (.ite h.withSup h.withSup.coldReset) h

theorem execVinFastDrop_keeps {mv : Nat} (h : Kept s₀ s) : Keeps s₀ (execVinFastDrop mv s) :=
  .occ (.ite (h.trans (Steady.refl s).setVin.toKept) h.withSup.coldReset) h

theorem execPorstN_keeps (h : Kept s₀ s) : Keeps s₀ (execPorstN s) := .next h.coldReset

theorem execColdResetRelease_continues {bootPins : Nat} (h : Steady s₀ s) :
    Continues s₀ (execColdResetRelease bootPins s) :=
  .occ h.withSup.setObj.bootDefaults h

theorem execWrstN_keeps (h : Kept s₀ s) : Keeps s₀ (execWrstN s) := .occ h.warmReset h

theorem execKrstN_keeps (h : Kept s₀ s) : Keeps s₀ (execKrstN s) := .next (.ite h.withSup (.withSup (.ite h h.keeperReset)))

theorem execResetRequestApply_keeps (h : Kept s₀ s) : Keeps s₀ (execResetRequestApply s) := by
  simp only [execResetRequestApply]
  split
  · exact .next (.ite h (.ite h.warmReset h.keeperReset))
  · exact .next h

theorem Steady.resetEndpoint (h : Steady s₀ s) : Steady s₀ s.resetEndpoint :=
  h.trans ⟨⟨rfl, rfl, rfl, Nat.le_refl _, fun hc => ⟨hc.1, State.dictWf_filter hc.2 rfl rfl⟩⟩, id⟩

theorem Steady.closeMbx (h : Steady s₀ s) : Steady s₀ s.closeMbx := .ite h.sendEvent h

theorem execPciePerstN_continues (h : Steady s₀ s) : Continues s₀ (execPciePerstN s) :=
  .occ h.closeMbx.resetEndpoint.withSupOapHost h

theorem execPciePerstRelease_continues (h : Steady s₀ s) : Continues s₀ (execPciePerstRelease s) := .occ h.withSupHost h

/-! The operations of Machine/Bringup. -/

theorem Steady.unitUp {fail : Bool} {u : Nat} (h : Steady s₀ s) : Steady s₀ (s.unitUp fail u) :=
  .ite h (.ite h.setUcb (.ite h.setUcb h.enterReady))

theorem Steady.clockSaid {i src : Nat} (h : Steady s₀ s) : Steady s₀ (s.clockSaid i src) := h.withSup.bump.raise

theorem Steady.clockNeeded {i src : Nat} {present : Bool} (h : Steady s₀ s) : Steady s₀ (s.clockNeeded i src present) :=
  .ite h h.clockSaid

theorem Steady.stageField {lo w v : Nat} (h : Steady s₀ s) : Steady s₀ (s.stageField lo w v) := h.setObj

theorem Steady.stageFault {bits_ : Nat} (h : Steady s₀ s) : Steady s₀ (s.stageFault bits_) := h.setObj

theorem Steady.reachS1 (h : Steady s₀ s) : Steady s₀ s.reachS1 :=
  .clockNeeded (.thenIf (.ite h h.raise.withSafety) fun hi => hi.raise.withSafety)

theorem Steady.reachS2 {fail : List Nat} (h : Steady s₀ s) : Steady s₀ (s.reachS2 fail) := by
  simp only [State.reachS2]
  split
  · exact h.clockNeeded.fold fun hu => hu.unitUp
  · exact .setFab (h.clockNeeded.fold fun hu => hu.unitUp)
  · exact .startLoad (h.clockNeeded.fold fun hu => hu.unitUp)

theorem Steady.reachS3 {r : StageReport} (h : Steady s₀ s) : Steady s₀ (s.reachS3 r) :=
  h.withMem.stageField.fold fun hu => hu.unitUp

theorem Steady.reachS4 {r : StageReport} (h : Steady s₀ s) : Steady s₀ (s.reachS4 r) := by
  unfold State.reachS4
  extract_lets _ s1 s2 s3 late s4 s5 _ s6 s7
  have h2 : Steady s₀ s2 := h.withMem.fold fun hu => hu.clockNeeded
  have h4 : Steady s₀ s4 := h2.stageField.fold fun hu => hu.unitUp
  have h6 : Steady s₀ s6 := .withSup (h4.fold fun hu => hu.restSpare)
  have h7 : Steady s₀ s7 := h6.thenIf fun hu => hu.linkReturns.pcieReduced
  exact h7.fold fun hu => hu.creanceStart

theorem Steady.reachS5 {fail : List Nat} (h : Steady s₀ s) : Steady s₀ (s.reachS5 fail) := by
  unfold State.reachS5
  refine .fold (.thenIf (h.fold fun hu => .ite hu.unitUp.setUnitSt hu.unitUp) fun hi => hi.stageFault) fun hu => ?_
  exact hu.setPhy.stageFault.raise

theorem execStageReached_continues {r : StageReport} (h : Steady s₀ s) : Continues s₀ (execStageReached r s) := by
  simp only [execStageReached]
  refine .occ ?_ h
  refine .sendEvent ?_
  split
  · exact h.setObj.setObj.reachS1
  · exact h.setObj.setObj.reachS2
  · exact h.setObj.setObj.reachS3
  · exact h.setObj.setObj.reachS4
  · exact h.setObj.setObj.reachS5

theorem execBringupLate_continues (h : Steady s₀ s) : Continues s₀ (execBringupLate s) := .occ h.stageFault.raise h

theorem execSafeInNAssert_continues (h : Steady s₀ s) : Continues s₀ (execSafeInNAssert s) :=
  .occ (.ite h.withSup.raise h.withSup) h

theorem execSafeInNRelease_continues (h : Steady s₀ s) : Continues s₀ (execSafeInNRelease s) := .next h.withSup

theorem execRefclkLoss_continues {c : Refclk} (h : Steady s₀ s) : Continues s₀ (execRefclkLoss c s) := by
  simp only [execRefclkLoss]
  split
  · exact .occ (.ite h.withSup.clockSaid h.withSup) h
  · exact .occ (h.withSupHost.thenIf fun hi => hi.clockSaid) h
  · refine .occ ?_ h
    refine .ite h.withSup ?_
    exact .thenIf (h.withSup.fold fun hu => .ite hu.portDrop hu.creanceStart) fun hi => hi.clockSaid
  · exact .occ (.ite h.withSup.raise h.withSup) h

theorem Steady.laneClockBack {g : Nat} (h : Steady s₀ s) : Steady s₀ (s.laneClockBack g) :=
  h.withSup.fold fun hu => .ite hu.creanceStart hu

theorem execRefclkLaneReturn_continues {g : Nat} (h : Steady s₀ s) : Continues s₀ (execRefclkLaneReturn g s) :=
  .occ h.laneClockBack h

theorem execRefclkReturn_continues {c : Refclk} (h : Steady s₀ s) : Continues s₀ (execRefclkReturn c s) := by
  simp only [execRefclkReturn]
  split
  · exact .next h.withSup
  · exact .next h.withSup
  · exact .next h.withSup
  · exact .occ h.laneClockBack h

theorem execInputPowerCapControl_continues {watts : Nat} (h : Steady s₀ s) :
    Continues s₀ (execInputPowerCapControl watts s) :=
  .occ (.ite (.ite h.setObj h.setObj.withSup) (.ite h.setObj.withSup h.setObj)) h

theorem Steady.setObjInt {key : Nat} {v : Int} (h : Steady s₀ s) : Steady s₀ (s.setObjInt key v) := h.setObj

theorem Steady.countBand {t : Int} (h : Steady s₀ s) : Steady s₀ (s.countBand t) := h.withSafety

theorem execThermalCompare_continues {readings : List Int} (h : Steady s₀ s) :
    Continues s₀ (execThermalCompare readings s) := by
  unfold execThermalCompare
  extract_lets rs out _ s1 s2
  have h2 : Steady s₀ s2 := .bump64If h.withCool
  refine .occ ?_ h
  split
  · exact h2.raise
  · extract_lets s3 s4 s5 lim n _ s6
    have h4 : Steady s₀ s4 := h2.setObjInt.setObj.thenIf fun hu => hu.setObjInt
    have h6 : Steady s₀ s6 := h4.countBand.withCool
    exact .ite (h6.unless fun hu => hu.withSup) (h6.thenIf fun hu => hu.withSup)

theorem execThermTrip_continues {sensor : Nat} (h : Steady s₀ s) : Continues s₀ (execThermTrip sensor s) := .occ h.raise h

/-! The operations of Machine/Care. -/

theorem execLogReadWrite_continues {value : Nat} (h : Steady s₀ s) : Continues s₀ (execLogReadWrite value s) :=
  .occ h.logReadWrite h

theorem execPathTest_continues {returned : Bool} (h : Steady s₀ s) : Continues s₀ (execPathTest returned s) :=
  .occ (.ite h.bump h.raise) h

theorem execMonitorCompareFail_continues (h : Steady s₀ s) : Continues s₀ (execMonitorCompareFail s) :=
  .occ h.withSafety.raise h

theorem execSelftestScheduleTick_continues {cls : Nat} (h : Steady s₀ s) :
    Continues s₀ (execSelftestScheduleTick cls s) := by
  simp only [execSelftestScheduleTick]
  split
  · exact .occ h.withSafety.requestTest h
  · exact .next h

theorem Steady.ageDomain {r : AgeReading} (h : Steady s₀ s) : Steady s₀ (s.ageDomain r) := by
  simp only [State.ageDomain]
  refine .ite h.withSafety.withSafety ?_
  refine .ite h.withSafety ?_
  split
  · exact h.withSafety.withSafety.thenIf fun hi => hi.unitFault
  · exact h.withSafety.withSafety.raise

theorem execAgingSample_continues {rs : List AgeReading} (h : Steady s₀ s) : Continues s₀ (execAgingSample rs s) :=
  .occ (.setObj (.setObj (.setObj (h.fold fun hu => hu.ageDomain)))) h

theorem execAgeHourBurn_continues (h : Steady s₀ s) : Continues s₀ (execAgeHourBurn s) :=
  .occ (h.trans ⟨⟨rfl, rfl, rfl, Nat.le_succ _, id⟩, id⟩) h

theorem execCoolantWatchExpiry_continues (h : Steady s₀ s) : Continues s₀ (execCoolantWatchExpiry s) :=
  .occ h.forgetInlet.bump h

theorem Steady.select {i : JInstr} (h : Steady s₀ s) : Steady s₀ (s.select i) := h.withCool

theorem Steady.selectTest {i : JInstr} (h : Steady s₀ s) : Steady s₀ (s.selectTest i) := .ite h.select h.select.bump

theorem execExtest_continues (h : Steady s₀ s) : Continues s₀ (execExtest s) := .occ h.selectTest h

theorem execExtestPulse_continues (h : Steady s₀ s) : Continues s₀ (execExtestPulse s) := .occ h.selectTest h

theorem execExtestTrain_continues (h : Steady s₀ s) : Continues s₀ (execExtestTrain s) := .occ h.selectTest h

theorem execHighz_continues (h : Steady s₀ s) : Continues s₀ (execHighz s) := .occ h.selectTest h

theorem execClamp_continues (h : Steady s₀ s) : Continues s₀ (execClamp s) := .occ h.selectTest h

theorem execIdcode_continues (h : Steady s₀ s) : Continues s₀ (execIdcode s) := .occ h.select h

theorem execBypass_continues (h : Steady s₀ s) : Continues s₀ (execBypass s) := .occ h.select h

theorem execSamplePreload_continues {sample preload : List Bool} (h : Steady s₀ s) :
    Continues s₀ (execSamplePreload sample preload s) := .occ h.withCool h

/-! The operations of Machine/Objects. -/

theorem Steady.readObj {key : Nat} {r : ORow} (h : Steady s₀ s) : Steady s₀ (s.readObj key r).2 :=
  .ite2 h (.ite2 h (.ite2 h (.ite2 h.draw (.ite2 h.draw h))))

/-! The operations of Machine/Dict. -/

theorem Steady.settleOverride {key v : Nat} (h : Steady s₀ s) : Steady s₀ (s.settleOverride key v) := by
  unfold State.settleOverride
  extract_lets replaced _ s1 s2 s3 _ s4
  have h2 : Steady s₀ s2 := h.withOap.fold fun hu => hu.setObj
  have h3 : Steady s₀ s3 := h2.thenIf fun hu => hu.fold fun hv => hv.setBlock
  have h4 : Steady s₀ s4 := h3.thenIf fun hu => hu.withOap.sendEvent
  split
  · exact h4
  · exact h4.withOap.sendEvent

theorem Steady.applyUnitReq {u v : Nat} (h : Steady s₀ s) : Steady s₀ (s.applyUnitReq u v) :=
  .ite h.setObj.ucbRequest.openPort h.setObj.setUcb

theorem Steady.faultClear {u : Nat} (h : Steady s₀ s) : Steady s₀ (s.faultClear u).2 := by
  unfold State.faultClear
  refine .ite2 h ?_
  refine .ite2 h ?_
  refine .ite2 h ?_
  exact .ite2 h.enterReady (.ite2 (.ite2 h.enterReady h) (.ite2 h.enterReady.portOff.creanceStart h.startTest))

theorem Steady.applyErrInject {v : Nat} (h : Steady s₀ s) : Steady s₀ (s.applyErrInject v) := .ite h.raise h

theorem Steady.applyInlet {v : Nat} (h : Steady s₀ s) : Steady s₀ (s.applyInlet v) := h.setObj.withCool

theorem Steady.applyStageHold {v : Nat} (h : Steady s₀ s) : Steady s₀ (s.applyStageHold v) :=
  .ite h.setObj h.setObj.withSup

theorem Steady.effect {key v : Nat} {bs : List Byte} (h : Steady s₀ s) : Steady s₀ (s.effect key v bs).2 := by
  simp only [State.effect]
  refine .ite2 h.applyUnitReq ?_
  refine .ite2 h.applyRole ?_
  refine .ite2 (.pair h.applySpareState) ?_
  refine .ite2 h.trigger ?_
  refine .ite2 h.applyUnitDomain ?_
  refine .ite2 h.applyStallSelect ?_
  refine .ite2 h.applyStatsSnapshot ?_
  refine .ite2 h.applyPhMaxRate ?_
  refine .ite2 h.applyPhLinkEnable ?_
  refine .ite2 h.applyInlet ?_
  refine .ite2 h.applyStageHold ?_
  refine .ite2 (.ite h h.withSup) ?_
  refine .ite2 h.applyFaultInject ?_
  refine .ite2 h.applyExcInject ?_
  refine .ite2 h.applyCatInject ?_
  refine .ite2 h.ruleWrite ?_
  refine .ite2 h.applySpInject ?_
  refine .ite2 h.applyPoisonInject ?_
  refine .ite2 h.applyEccInject ?_
  refine .ite2 h.applyCfgInject ?_
  refine .ite2 h.applyPatternCtrl ?_
  refine .ite2 h.setBlock ?_
  refine .ite2 h.applyLaneInject ?_
  refine .ite2 (.ite h.withSafety h) ?_
  refine .ite2 h.requestTest ?_
  refine .ite2 h.requestTest ?_
  exact .ite2 h.faultClear (.ite2 h.applyErrInject (.ite2 h.withOap (.ite2 h.setBlock h.setObj)))

theorem Steady.applyObj {key : Nat} {bs : List Byte} (h : Steady s₀ s) : Steady s₀ (s.applyObj key bs).2 :=
  .ite2 h.withOap.effect.settleOverride h.withOap.effect

theorem Steady.stageValue {key v : Nat} (h : Steady s₀ s) : Steady s₀ (s.stageValue key v) := h.withOap

theorem Steady.profileApply {n : Nat} (h : Steady s₀ s) : Steady s₀ (s.profileApply n).2 := by
  unfold State.profileApply
  exact .setObj (.ite (h.fold fun hu => hu.stageValue) h)

theorem Steady.carryOut {who : Asker} {key : Nat} {r : ORow} {bs : List Byte} (h : Steady s₀ s) :
    Steady s₀ (s.carryOut who key r bs) := by
  simp only [State.carryOut]
  refine .ite h.profileApply.answer ?_
  refine .ite h.startRepair ?_
  split
  · exact .ite h.stageValue.answer h.applyObj.answer
  · exact .ite h.applyObj.answer (.ite h.withOap.settleOverride.answer (.ite h.stageValue.answer h.withOap))

/-! The operations of Machine/Transport. -/

theorem Steady.setSess {t : Transport} {x : Session} (h : Steady s₀ s) : Steady s₀ (s.setSess t x) := h.setPort

theorem Steady.closeSession {t : Transport} (h : Steady s₀ s) : Steady s₀ (s.closeSession t) := .ite h.setSess.sendEvent h

theorem Steady.settleTag {t : Transport} {r : Req} {ok : Bool} {st : Nat} (h : Steady s₀ s) :
    Steady s₀ (s.settleTag t r ok st) := .ite h (.ite h.setSess h.bump.closeSession)

theorem Steady.finish {t : Transport} {who : Asker} {r : Req} {ok : Bool} {st : Nat} {value : List Byte} {total : Nat}
    (h : Steady s₀ s) :
    Steady s₀ (s.finish t who r ok st value total) := h.settleTag.answer

theorem Steady.dropChallenge {t : Transport} (h : Steady s₀ s) : Steady s₀ (s.dropChallenge t) := h.setSess

theorem Steady.sessionOpen {t : Transport} {who : Asker} {r : Req} (h : Steady s₀ s) :
    Steady s₀ (s.sessionOpen t who r) := by
  unfold State.sessionOpen
  refine .ite h.dropChallenge.answer ?_
  refine .ite h.settleTag.dropChallenge.answer ?_
  refine .ite h.settleTag.closeSession.dropChallenge.answer ?_
  exact h.settleTag.closeSession.drawBytes.drbgUse.setSess.answer

theorem Steady.sessionProveFailed {t : Transport} {who : Asker} {x : Session} (h : Steady s₀ s) :
    Steady s₀ (State.sessionProve.failed t who s x) := h.setSess.bump.answer

theorem Steady.sessionProve {t : Transport} {who : Asker} {r : Req} (h : Steady s₀ s) :
    Steady s₀ (s.sessionProve t who r) := by
  simp only [State.sessionProve]
  refine .ite h.answer ?_
  refine .ite h.settleTag.answer ?_
  split
  · exact .ite h.setSess.bump.answer h.sessionProveFailed
  · exact h.sessionProveFailed

theorem Steady.serveRead {t : Transport} {who : Asker} {r : Req} {pre : List Nat} {ok : Bool} (h : Steady s₀ s) :
    Steady s₀ (s.serveRead t who r pre ok) := by
  simp only [State.serveRead]
  split
  · exact h.finish
  · refine .ite h.finish ?_
    refine .ite (.ite h.finish h.readObj.setPort.finish) ?_
    refine .ite (.ite h.finish h.readObj.setPort.finish) ?_
    split
    · exact .ite h.finish h.finish
    · exact h.finish

theorem Steady.dropSegment {t : Transport} {count : Bool} (h : Steady s₀ s) : Steady s₀ (s.dropSegment t count) :=
  .ite (.ite h.setPort.bump h.setPort) h

theorem Steady.wholeWrite {t : Transport} {who : Asker} {r : Req} {pre : List Nat} {ok auth : Bool} {o : ORow}
    {bs : List Byte} (h : Steady s₀ s) :
    Steady s₀ (s.wholeWrite t who r pre ok auth o bs) := .ite h.settleTag.answer h.settleTag.carryOut

theorem Steady.serveWrite {t : Transport} {who : Asker} {r : Req} {pre : List Nat} {ok : Bool} (h : Steady s₀ s) :
    Steady s₀ (s.serveWrite t who r pre ok) := by
  simp only [State.serveWrite]
  split
  · exact .finish (.ite h.dropSegment h)
  · refine .ite h.finish ?_
    refine .ite (.ite h.dropSegment.wholeWrite (.finish (h.dropSegment.thenIf fun hi => hi.setPort))) ?_
    split
    · exact h.finish
    · exact .ite h.dropSegment.finish (.ite h.setPort.finish h.dropSegment.wholeWrite)

theorem Steady.servePending {t : Transport} {who : Asker} {r : Req} {pre : List Nat} {ok : Bool} (h : Steady s₀ s) :
    Steady s₀ (s.servePending t who r pre ok) := by
  simp only [State.servePending]
  split
  · exact h.finish
  · refine .ite h.finish ?_
    split <;> exact h.finish

theorem Steady.serveDiscard {t : Transport} {who : Asker} {r : Req} {pre : List Nat} {ok : Bool} (h : Steady s₀ s) :
    Steady s₀ (s.serveDiscard t who r pre ok) := by
  simp only [State.serveDiscard]
  split
  · exact h.finish
  · exact .ite h.finish (.ite h.withOap.finish h.finish)

theorem Steady.serveDescribe {t : Transport} {who : Asker} {r : Req} {pre : List Nat} {ok : Bool} (h : Steady s₀ s) :
    Steady s₀ (s.serveDescribe t who r pre ok) := by
  simp only [State.serveDescribe]
  split
  · exact h.finish
  · exact .ite h.finish h.finish

theorem Steady.serveClose {t : Transport} {who : Asker} {r : Req} {pre : List Nat} {ok : Bool} (h : Steady s₀ s) :
    Steady s₀ (s.serveClose t who r pre ok) := .answer (.ite h.settleTag.closeSession h.settleTag)

theorem Steady.execute {t : Transport} {who : Asker} {r : Req} (h : Steady s₀ s) : Steady s₀ (s.execute t who r) := by
  simp only [State.execute]
  split
  · exact h.serveRead
  · exact h.servePending
  · exact h.serveDescribe
  · exact h.serveDiscard
  · exact h.sessionOpen
  · exact h.sessionProve
  · exact h.serveClose
  · exact h.answer
  · exact h.serveWrite
  · exact h.serveWrite

theorem Steady.serve {t : Transport} {k : OapKind} (h : Steady s₀ s) : Continues s₀ (s.serve t k) := by
  simp only [State.serve]
  split
  · exact .next h
  · exact .occ (h.setPort.withOap.bump.execute) h

theorem execOapRead_continues {t : Transport} (h : Steady s₀ s) : Continues s₀ (execOapRead t s) := h.serve

theorem execOapWrite_continues {t : Transport} (h : Steady s₀ s) : Continues s₀ (execOapWrite t s) := h.serve

theorem execOapReadPending_continues {t : Transport} (h : Steady s₀ s) : Continues s₀ (execOapReadPending t s) := h.serve

theorem execOapDiscardPending_continues {t : Transport} (h : Steady s₀ s) : Continues s₀ (execOapDiscardPending t s) :=
  h.serve

theorem execOapDescribe_continues {t : Transport} (h : Steady s₀ s) : Continues s₀ (execOapDescribe t s) := h.serve

theorem execSessionOpen_continues {t : Transport} (h : Steady s₀ s) : Continues s₀ (execSessionOpen t s) := h.serve

theorem execSessionProve_continues {t : Transport} (h : Steady s₀ s) : Continues s₀ (execSessionProve t s) := h.serve

theorem execSessionClose_continues {t : Transport} (h : Steady s₀ s) : Continues s₀ (execSessionClose t s) := h.serve

theorem execOapUndefinedService_continues {t : Transport} (h : Steady s₀ s) : Continues s₀ (execOapUndefinedService t s) :=
  h.serve

theorem execResetRequest_continues {t : Transport} (h : Steady s₀ s) : Continues s₀ (execResetRequest t s) := h.serve

theorem execExpertKey_continues {t : Transport} (h : Steady s₀ s) : Continues s₀ (execExpertKey t s) := h.serve

theorem execProfileApply_continues {t : Transport} (h : Steady s₀ s) : Continues s₀ (execProfileApply t s) := h.serve

theorem execUnitReq_continues {t : Transport} (h : Steady s₀ s) : Continues s₀ (execUnitReq t s) := h.serve

theorem execDeviceIdWrite_continues {t : Transport} (h : Steady s₀ s) : Continues s₀ (execDeviceIdWrite t s) := h.serve

theorem execDeviceIdLock_continues {t : Transport} (h : Steady s₀ s) : Continues s₀ (execDeviceIdLock t s) := h.serve

theorem execPowerCapWrite_continues {t : Transport} (h : Steady s₀ s) : Continues s₀ (execPowerCapWrite t s) := h.serve

theorem execStallSelect_continues {t : Transport} (h : Steady s₀ s) : Continues s₀ (execStallSelect t s) := h.serve

theorem execPoisonInject_continues {t : Transport} (h : Steady s₀ s) : Continues s₀ (execPoisonInject t s) := h.serve

theorem execPelletLogEntriesWrite_continues {t : Transport} (h : Steady s₀ s) :
    Continues s₀ (execPelletLogEntriesWrite t s) :=
  h.serve

theorem execPelletReadSeqWrite_continues {t : Transport} (h : Steady s₀ s) : Continues s₀ (execPelletReadSeqWrite t s) :=
  h.serve

theorem execStatsSnapshot_continues {t : Transport} (h : Steady s₀ s) : Continues s₀ (execStatsSnapshot t s) := h.serve

theorem execStatsSnapshotClear_continues {t : Transport} (h : Steady s₀ s) : Continues s₀ (execStatsSnapshotClear t s) :=
  h.serve

theorem execEccInject_continues {t : Transport} (h : Steady s₀ s) : Continues s₀ (execEccInject t s) := h.serve

theorem execMxtRole_continues {t : Transport} (h : Steady s₀ s) : Continues s₀ (execMxtRole t s) := h.serve

theorem execUnderstudy_continues {t : Transport} (h : Steady s₀ s) : Continues s₀ (execUnderstudy t s) := h.serve

theorem execRepairRequest_continues {t : Transport} (h : Steady s₀ s) : Continues s₀ (execRepairRequest t s) := h.serve

theorem execFaultInject_continues {t : Transport} (h : Steady s₀ s) : Continues s₀ (execFaultInject t s) := h.serve

theorem execMxtClkLimit_continues {t : Transport} (h : Steady s₀ s) : Continues s₀ (execMxtClkLimit t s) := h.serve

theorem execVxtExcInject_continues {t : Transport} (h : Steady s₀ s) : Continues s₀ (execVxtExcInject t s) := h.serve

theorem execHotCacheKib_continues {t : Transport} (h : Steady s₀ s) : Continues s₀ (execHotCacheKib t s) := h.serve

theorem execEpochMarkMgmt_continues {t : Transport} (h : Steady s₀ s) : Continues s₀ (execEpochMarkMgmt t s) := h.serve

theorem execEdSourceWrite_continues {t : Transport} (h : Steady s₀ s) : Continues s₀ (execEdSourceWrite t s) := h.serve

theorem execUnitDomainWrite_continues {t : Transport} (h : Steady s₀ s) : Continues s₀ (execUnitDomainWrite t s) := h.serve

theorem execCatInject_continues {t : Transport} (h : Steady s₀ s) : Continues s₀ (execCatInject t s) := h.serve

theorem execSpRuleWrite_continues {t : Transport} (h : Steady s₀ s) : Continues s₀ (execSpRuleWrite t s) := h.serve

theorem execSpInject_continues {t : Transport} (h : Steady s₀ s) : Continues s₀ (execSpInject t s) := h.serve

theorem execCfgInject_continues {t : Transport} (h : Steady s₀ s) : Continues s₀ (execCfgInject t s) := h.serve

theorem execFpCtxWrite_continues {t : Transport} (h : Steady s₀ s) : Continues s₀ (execFpCtxWrite t s) := h.serve

theorem execPhLinkEnable_continues {t : Transport} (h : Steady s₀ s) : Continues s₀ (execPhLinkEnable t s) := h.serve

theorem execPatternCtrl_continues {t : Transport} (h : Steady s₀ s) : Continues s₀ (execPatternCtrl t s) := h.serve

theorem execLaneInject_continues {t : Transport} (h : Steady s₀ s) : Continues s₀ (execLaneInject t s) := h.serve

theorem execDevRouteWrite_continues {t : Transport} (h : Steady s₀ s) : Continues s₀ (execDevRouteWrite t s) := h.serve

theorem execErrNClear_continues {t : Transport} (h : Steady s₀ s) : Continues s₀ (execErrNClear t s) := h.serve

theorem execErrInject_continues {t : Transport} (h : Steady s₀ s) : Continues s₀ (execErrInject t s) := h.serve

theorem execTestRequest_continues {t : Transport} (h : Steady s₀ s) : Continues s₀ (execTestRequest t s) := h.serve

theorem execTestForce_continues {t : Transport} (h : Steady s₀ s) : Continues s₀ (execTestForce t s) := h.serve

theorem execFaultClear_continues {t : Transport} (h : Steady s₀ s) : Continues s₀ (execFaultClear t s) := h.serve

theorem execCoolantInletWrite_continues {t : Transport} (h : Steady s₀ s) : Continues s₀ (execCoolantInletWrite t s) :=
  h.serve

theorem Steady.enqueue {t : Transport} {src : Nat} {bs : List Byte} (h : Steady s₀ s) : Steady s₀ (s.enqueue t src bs) :=
  .ite h.setPort h.bump.answer

theorem execCanRequestRx_continues {f : CanFrame} (h : Steady s₀ s) : Continues s₀ (execCanRequestRx f s) :=
  .occ (.ite h.bump h.enqueue) h

theorem execT1sRequestRx_continues {f : EthFrame} (h : Steady s₀ s) : Continues s₀ (execT1sRequestRx f s) :=
  .occ h.setPort.enqueue h

theorem Steady.mbxGo (h : Steady s₀ s) : Steady s₀ s.mbxGo := .ite h.bump (.ite h h.withOap.setPort)

theorem execMbxReqGo_continues (h : Steady s₀ s) : Continues s₀ (execMbxReqGo s) := h.inOrder (.occ h.mbxGo h)

theorem Steady.mbxRspClear (h : Steady s₀ s) : Steady s₀ s.mbxRspClear := h.withOap

theorem execMbxRspClear_continues (h : Steady s₀ s) : Continues s₀ (execMbxRspClear s) := h.inOrder (.occ h.mbxRspClear h)

theorem Steady.mbxEvtClear (h : Steady s₀ s) : Steady s₀ s.mbxEvtClear := by
  simp only [State.mbxEvtClear]
  split
  · exact h
  · exact .ite h.withOap h.withOap.raiseVector

theorem execMbxEvtClear_continues (h : Steady s₀ s) : Continues s₀ (execMbxEvtClear s) := h.inOrder (.occ h.mbxEvtClear h)

theorem execSegmentTimeout_continues {t : Transport} (h : Steady s₀ s) : Continues s₀ (execSegmentTimeout t s) :=
  .next h.dropSegment

theorem execSnapshotExpiry_continues {t : Transport} (h : Steady s₀ s) : Continues s₀ (execSnapshotExpiry t s) :=
  .next h.setPort

theorem execSessionIdleTimeout_continues {t : Transport} (h : Steady s₀ s) : Continues s₀ (execSessionIdleTimeout t s) :=
  .next h.closeSession

theorem execLockoutExpiry_continues {t : Transport} (h : Steady s₀ s) : Continues s₀ (execLockoutExpiry t s) :=
  .next h.setSess

theorem execTransportConfigApply_continues {key : Nat} (h : Steady s₀ s) : Continues s₀ (execTransportConfigApply key s) :=
  .occ h.withOap h

theorem Steady.unitApply {w : UnitWrite} (h : Steady s₀ s) : Steady s₀ (s.unitApply w) := by
  simp only [State.unitApply]
  split
  · exact h.withOap.answer
  · exact .ite h.withOap.answer (.ite h.withOap.carryOut h.withOap.applyObj.answer)

theorem execUnitObjectApply_continues {unit : Nat} (h : Steady s₀ s) : Continues s₀ (execUnitObjectApply unit s) := by
  simp only [execUnitObjectApply]
  split
  · exact .next h
  · exact .next h.unitApply

theorem Steady.upsetMirror (h : Steady s₀ s) : Steady s₀ s.upsetMirror := h.withFreeCtrOap

theorem execUcbMirrorCompare_continues (h : Steady s₀ s) : Continues s₀ (execUcbMirrorCompare s) :=
  Steady.pipe (.ite h h.upsetMirror) fun h1 => .occ h1.withOap h1

theorem execStateDivergence_continues {unit : Nat} (h : Steady s₀ s) : Continues s₀ (execStateDivergence unit s) :=
  .occ h.raise.setUcb h

/-! The operations of Machine/HostRegs. -/

theorem Steady.after {r : Res} (_ : Steady s₀ s) (hr : Continues s₀ r) : Steady s₀ (after s r) := by
  obtain ⟨t, rfl, ht⟩ := hr
  exact ht

theorem Steady.sqCtrlWrite {fn n v : Nat} (h : Steady s₀ s) : Steady s₀ (s.sqCtrlWrite fn n v) := by
  unfold State.sqCtrlWrite
  refine .ite (h.after (h.ringWrite fun hu => hu)) ?_
  refine .ite (h.after (execPause_continues h)) ?_
  refine .ite (h.after (execResume_continues h)) ?_
  exact .ite (h.after (execResetCq_continues h)) (.ite h (h.after (execResetSq_continues h)))

theorem Steady.sqBaseWrite {fn n v : Nat} (h : Steady s₀ s) : Steady s₀ (s.sqBaseWrite fn n v) :=
  h.after (h.ringWrite fun hu => hu.setRing)

theorem Steady.cqBaseWrite {fn n v : Nat} (h : Steady s₀ s) : Steady s₀ (s.cqBaseWrite fn n v) :=
  h.after (h.ringWrite fun hu => hu.setRing)

theorem Steady.ringWrite4 {fn n o v : Nat} (h : Steady s₀ s) : Steady s₀ (s.ringWrite4 fn n o v) := by
  simp only [State.ringWrite4]
  split
  · exact h.after (execSqDoorbell_continues h)
  · exact h.sqCtrlWrite
  · exact h.after (execCqHeadWrite_continues h)
  · exact h

theorem Steady.ringWrite8 {fn n o v : Nat} (h : Steady s₀ s) : Steady s₀ (s.ringWrite8 fn n o v) := by
  simp only [State.ringWrite8]
  split
  · exact h.sqBaseWrite
  · exact h.after (execSqCfgWrite_continues h)
  · exact h.cqBaseWrite
  · exact h.after (execCqCfgWrite_continues h)
  · exact h

theorem Steady.mbxCtrlWrite {v : Nat} (h : Steady s₀ s) : Steady s₀ (s.mbxCtrlWrite v) :=
  .ite h.fnReject (.thenIf (.thenIf (.ite h.mbxRspClear h) fun hi => hi.mbxEvtClear) fun hi => hi.mbxGo)

theorem Steady.mbxWrite4 {o v : Nat} (h : Steady s₀ s) : Steady s₀ (s.mbxWrite4 o v) :=
  .ite h.mbxCtrlWrite (.ite h.withOap h)

theorem Steady.msixWrite4 {fn v word x : Nat} (h : Steady s₀ s) : Steady s₀ (s.msixWrite4 fn v word x) := by
  simp only [State.msixWrite4]
  refine .ite h ?_
  split
  · exact h.setVec
  · exact h.setVec
  · exact h.setVec
  · exact .ite h.setVec (h.after (execMsixUnmask_continues h))

theorem Steady.bindWrite8 {fn o v : Nat} (h : Steady s₀ s) : Steady s₀ (s.bindWrite8 fn o v) := by
  unfold State.bindWrite8
  refine .ite (h.after (execCtxBindWrite_continues h)) ?_
  refine .ite (h.after (execRingBindWrite_continues h)) ?_
  exact .ite (h.after (execIrqRouteWrite_continues h)) (h.after (h.fnWrite fun hu => hu))

theorem Steady.bar0Write8 {fn o v : Nat} (h : Steady s₀ s) : Steady s₀ (s.bar0Write8 fn o v) :=
  .ite h.ringWrite8 h.bindWrite8

theorem Steady.bar0Write4 {fn o v : Nat} (h : Steady s₀ s) : Steady s₀ (s.bar0Write4 fn o v) := by
  simp only [State.bar0Write4]
  split
  · exact h.bar0Write8
  · refine .ite h.ringWrite4 ?_
    refine .ite (h.after (h.fnWrite fun hu => hu)) ?_
    refine .ite (h.after (execBar2CtxWrite_continues h)) ?_
    exact .ite (h.after (h.fnWrite fun hu => hu)) (.ite h.mbxWrite4 (.ite h.msixWrite4 h))

theorem Steady.bar0Write {fn o size v : Nat} (h : Steady s₀ s) : Steady s₀ (s.bar0Write fn o size v) :=
  .ite h.bar0Write4 (.ite h.bar0Write8 h.bar0Write4.bar0Write4)

theorem Steady.bar0Access {fn offset size : Nat} {value : Option Nat} (h : Steady s₀ s) :
    Steady s₀ (s.bar0Access fn offset size value) := by
  simp only [State.bar0Access]
  split
  · exact .ite h.bar0Write h
  · exact h.emit

theorem execRegisterWrite_continues {fn offset size : Nat} {value : Option Nat} (h : Steady s₀ s) :
    Continues s₀ (execRegisterWrite fn offset size value s) := h.inOrder (.occ h.bar0Access h)

theorem Steady.run {fn : Nat} {o : HostOp} (h : Steady s₀ s) : Steady s₀ (o.run fn s) := by
  cases o <;> simp only [HostOp.run]
  case bar0Write => exact h.bar0Access
  case bar0Read => exact h.bar0Access
  case bar2Write => exact h.after (execBar2Write_continues h)
  case bar2Read => exact h.after (execBar2Read_continues h)

theorem Steady.hostGoFn {fn f : Nat} (h : Steady s₀ s) : Steady s₀ (State.hostGoFn fn f s) := by
  induction f generalizing s with
  | zero => exact h
  | succ f ih =>
    unfold State.hostGoFn
    split
    · exact h
    · next op rest _ =>
      have ht : Steady s₀ (op.2.run fn { s with host := { s.host with held := s.host.held.filter (·.1 != fn) } }) :=
        h.withHost.run
      exact .ite h (.ite h (ih ht.withHost))

theorem Steady.hostGo (h : Steady s₀ s) : Steady s₀ s.hostGo := .ite h (h.fold fun hu => hu.hostGoFn)

theorem execRdRsp_continues {p : Nat} (h : Steady s₀ s) : Continues s₀ (execRdRsp p s) := .next h.respondTo.hostGo

theorem execWrAck_continues {p : Nat} (h : Steady s₀ s) : Continues s₀ (execWrAck p s) := .next h.respondTo.hostGo

theorem execNiRequestTimeout_continues {node tc tag : Nat} (h : Steady s₀ s) :
    Continues s₀ (execNiRequestTimeout node tc tag s) := .next h.requestTimeout.hostGo

theorem execTimedOutTagRelease_continues {node tc tag : Nat} (h : Steady s₀ s) :
    Continues s₀ (execTimedOutTagRelease node tc tag s) := by
  simp only [execTimedOutTagRelease]
  split
  · exact .occ h.freeOutst.hostGo h
  · exact .next h

theorem execDropNoticeRx_continues {p : Nat} (h : Steady s₀ s) : Continues s₀ (execDropNoticeRx p s) :=
  .next h.noticeArrived.hostGo

theorem execPcieLinkUp_continues {rate : LinkRate} {width : Nat} (h : Steady s₀ s) :
    Continues s₀ (execPcieLinkUp rate width s) := .occ (.ite h.linkReturns.hostGo.pcieReduced h.linkReturns.hostGo) h

/-! Commands and steps. -/

/-- Every command but a reset goes on, and keeps what `Steady` says. -/
theorem exec_continues {c : Instr} (h : Steady s₀ s) (hc : endsSafe c = false) : Continues s₀ (exec c s) := by
  cases c with
  | powerOn => cases hc
  | vinBandEntry => exact execVinBandEntry_continues h
  | mewsEntryComplete => exact execMewsEntryComplete_continues h
  | mewsExitComplete => exact execMewsExitComplete_continues h
  | vinLoss => cases hc
  | vinFastDrop => cases hc
  | porstN => cases hc
  | coldResetRelease => exact execColdResetRelease_continues h
  | wrstN => cases hc
  | krstN => cases hc
  | pciePerstN => exact execPciePerstN_continues h
  | pciePerstRelease => exact execPciePerstRelease_continues h
  | resetRequest => exact execResetRequest_continues h
  | resetRequestApply => cases hc
  | stageReached => exact execStageReached_continues h
  | bringupLate => exact execBringupLate_continues h
  | safeInNAssert => exact execSafeInNAssert_continues h
  | safeInNRelease => exact execSafeInNRelease_continues h
  | refclkLoss => exact execRefclkLoss_continues h
  | refclkLaneReturn => exact execRefclkLaneReturn_continues h
  | thermalCompare => exact execThermalCompare_continues h
  | thermTrip => exact execThermTrip_continues h
  | canRequestRx => exact execCanRequestRx_continues h
  | t1sRequestRx => exact execT1sRequestRx_continues h
  | mbxReqGo => exact execMbxReqGo_continues h
  | mbxRspClear => exact execMbxRspClear_continues h
  | mbxEvtClear => exact execMbxEvtClear_continues h
  | oapRead => exact execOapRead_continues h
  | oapWrite => exact execOapWrite_continues h
  | oapReadPending => exact execOapReadPending_continues h
  | oapDiscardPending => exact execOapDiscardPending_continues h
  | oapDescribe => exact execOapDescribe_continues h
  | sessionOpen => exact execSessionOpen_continues h
  | sessionProve => exact execSessionProve_continues h
  | sessionClose => exact execSessionClose_continues h
  | oapUndefinedService => exact execOapUndefinedService_continues h
  | segmentTimeout => exact execSegmentTimeout_continues h
  | snapshotExpiry => exact execSnapshotExpiry_continues h
  | sessionIdleTimeout => exact execSessionIdleTimeout_continues h
  | lockoutExpiry => exact execLockoutExpiry_continues h
  | transportConfigApply => exact execTransportConfigApply_continues h
  | expertKey => exact execExpertKey_continues h
  | unitObjectApply => exact execUnitObjectApply_continues h
  | profileApply => exact execProfileApply_continues h
  | unitReq => exact execUnitReq_continues h
  | ucbMirrorCompare => exact execUcbMirrorCompare_continues h
  | stateDivergence => exact execStateDivergence_continues h
  | deviceIdWrite => exact execDeviceIdWrite_continues h
  | deviceIdLock => exact execDeviceIdLock_continues h
  | powerCapWrite => exact execPowerCapWrite_continues h
  | pcieConfigRequest => exact execPcieConfigRequest_continues h
  | pcieLinkDown => exact execPcieLinkDown_continues h
  | pcieLinkUp => exact execPcieLinkUp_continues h
  | functionLevelReset => exact execFunctionLevelReset_continues h
  | registerWrite => exact execRegisterWrite_continues h
  | ctxBindWrite => exact execCtxBindWrite_continues h
  | ringBindWrite => exact execRingBindWrite_continues h
  | irqRouteWrite => exact execIrqRouteWrite_continues h
  | bar2CtxWrite => exact execBar2CtxWrite_continues h
  | bar2Write => exact execBar2Write_continues h
  | bar2Read => exact execBar2Read_continues h
  | sqCfgWrite => exact execSqCfgWrite_continues h
  | cqCfgWrite => exact execCqCfgWrite_continues h
  | sqDoorbell => exact execSqDoorbell_continues h
  | resetSq => exact execResetSq_continues h
  | ringResetDone => exact execRingResetDone_continues h
  | resetCq => exact execResetCq_continues h
  | pause => exact execPause_continues h
  | resume => exact execResume_continues h
  | cqHeadWrite => exact execCqHeadWrite_continues h
  | entryFetch => exact execEntryFetch_continues h
  | dispatchDecision => exact execDispatchDecision_continues h
  | moderationTimeout => exact execModerationTimeout_continues h
  | msixUnmask => exact execMsixUnmask_continues h
  | nop => exact execNop_continues h
  | endProgram => exact execEndProgram_continues h
  | movi => exact execMovi_continues h
  | movhi => exact execMovhi_continues h
  | addi => exact execAddi_continues h
  | alu => exact execAlu_continues h
  | overlap => exact execOverlap_continues h
  | br => exact execBr_continues h
  | loop => exact execLoop_continues h
  | ld => exact execLd_continues h
  | st => exact execSt_continues h
  | ldp => exact execLdp_continues h
  | stp => exact execStp_continues h
  | lr => exact execLr_continues h
  | sc => exact execSc_continues h
  | amo => exact execAmo_continues h
  | fenceDrain => exact execFenceDrain_continues h
  | fenceAcquire => exact execFenceAcquire_continues h
  | fenceRelease => exact execFenceRelease_continues h
  | fenceFull => exact execFenceFull_continues h
  | fenceUnits => exact execFenceUnits_continues h
  | rand => exact execRand_continues h
  | semwait => exact execSemwait_continues h
  | semwaitSatisfied => exact execSemwaitSatisfied_continues h
  | semwaitTimeout => exact execSemwaitTimeout_continues h
  | sempost => exact execSempost_continues h
  | seminit => exact execSeminit_continues h
  | mxpass => exact execMxpass_continues h
  | vxopAdd => exact execVxopAdd_continues h
  | vxopSub => exact execVxopSub_continues h
  | vxopMul => exact execVxopMul_continues h
  | vxopMin => exact execVxopMin_continues h
  | vxopMax => exact execVxopMax_continues h
  | vxopAddSat => exact execVxopAddSat_continues h
  | vxopSubSat => exact execVxopSubSat_continues h
  | vxopAbs => exact execVxopAbs_continues h
  | vxopNeg => exact execVxopNeg_continues h
  | vxopRelu => exact execVxopRelu_continues h
  | vxopClamp => exact execVxopClamp_continues h
  | vxopAffine => exact execVxopAffine_continues h
  | vxopExp2 => exact execVxopExp2_continues h
  | vxopLog2 => exact execVxopLog2_continues h
  | vxopRecip => exact execVxopRecip_continues h
  | vxopRsqrt => exact execVxopRsqrt_continues h
  | vxopSigmoid => exact execVxopSigmoid_continues h
  | vxopTanh => exact execVxopTanh_continues h
  | vxopSilu => exact execVxopSilu_continues h
  | vxopConvert => exact execVxopConvert_continues h
  | vxopRequant => exact execVxopRequant_continues h
  | vxopRedSum => exact execVxopRedSum_continues h
  | vxopRedMax => exact execVxopRedMax_continues h
  | vxopRedMin => exact execVxopRedMin_continues h
  | vxopTopk => exact execVxopTopk_continues h
  | vxopSort => exact execVxopSort_continues h
  | vxopGather => exact execVxopGather_continues h
  | vxopScatter => exact execVxopScatter_continues h
  | vxopLimbcomb => exact execVxopLimbcomb_continues h
  | vxopUndefinedFunc => exact execVxopUndefinedFunc_continues h
  | pAdd => exact execPAdd_continues h
  | pSub => exact execPSub_continues h
  | pMul => exact execPMul_continues h
  | pMulc => exact execPMulc_continues h
  | pNeg => exact execPNeg_continues h
  | pPart => exact execPPart_continues h
  | ntt => exact execNtt_continues h
  | intt => exact execIntt_continues h
  | auto => exact execAuto_continues h
  | rescale => exact execRescale_continues h
  | moddrop => exact execModdrop_continues h
  | twgen => exact execTwgen_continues h
  | limbSplit => exact execLimbSplit_continues h
  | shAdd => exact execShAdd_continues h
  | shSub => exact execShSub_continues h
  | shMul => exact execShMul_continues h
  | shAddpub => exact execShAddpub_continues h
  | shRand => exact execShRand_continues h
  | cxopUndefinedFunc => exact execCxopUndefinedFunc_continues h
  | gxop => exact execGxop_continues h
  | streamStart => exact execStreamStart_continues h
  | streamStop => exact execStreamStop_continues h
  | streamWait => exact execStreamWait_continues h
  | secopLayer => exact execSecopLayer_continues h
  | secopRun => exact execSecopRun_continues h
  | secopFlush => exact execSecopFlush_continues h
  | secopClear => exact execSecopClear_continues h
  | collRun => exact execCollRun_continues h
  | moult => exact execMoult_continues h
  | epochMarkCmd => exact execEpochMarkCmd_continues h
  | epochWaitCmd => exact execEpochWaitCmd_continues h
  | epochMarkWait => exact execEpochMarkWait_continues h
  | cfgwCurBank => exact execCfgwCurBank_continues h
  | cfgwStatDrop => exact execCfgwStatDrop_continues h
  | uctl => exact execUctl_continues h
  | uctlTest => exact execUctlTest_continues h
  | illegalOpcode => exact execIllegalOpcode_continues h
  | programComplete => exact execProgramComplete_continues h
  | unitOpComplete => exact execUnitOpComplete_continues h
  | hangWatchHit => exact execHangWatchHit_continues h
  | issueQueueRoom => exact execIssueQueueRoom_continues h
  | storeBufferSend => exact execStoreBufferSend_continues h
  | reservationTimeout => exact execReservationTimeout_continues h
  | descriptorStart => exact execDescriptorStart_continues h
  | streamSlotAcquire => exact execStreamSlotAcquire_continues h
  | streamFillPost => exact execStreamFillPost_continues h
  | streamFreePost => exact execStreamFreePost_continues h
  | streamWaitTimeout => exact execStreamWaitTimeout_continues h
  | descriptorComplete => exact execDescriptorComplete_continues h
  | engSnap => exact execEngSnap_continues h
  | engClear => exact execEngClear_continues h
  | stallSelect => exact execStallSelect_continues h
  | jessValueWrite => exact execJessValueWrite_continues h
  | jessPostRegister => exact execJessPostRegister_continues h
  | poisonInject => exact execPoisonInject_continues h
  | pelletLogEntriesWrite => exact execPelletLogEntriesWrite_continues h
  | pelletReadSeqWrite => exact execPelletReadSeqWrite_continues h
  | flitArrival => exact execFlitArrival_continues h
  | rdReq => exact execRdReq_continues h
  | wr => exact execWr_continues h
  | wrPoison => exact execWrPoison_continues h
  | amoReq => exact execAmoReq_continues h
  | jessPost => exact execJessPost_continues h
  | jessWait => exact execJessWait_continues h
  | jessWaitCancel => exact execJessWaitCancel_continues h
  | jessWaitTimeout => exact execJessWaitTimeout_continues h
  | epochMark => exact execEpochMark_continues h
  | gatherReq => exact execGatherReq_continues h
  | gatherServe => exact execGatherServe_continues h
  | rdRsp => exact execRdRsp_continues h
  | wrAck => exact execWrAck_continues h
  | amoRsp => exact execAmoRsp_continues h
  | jessGrant => exact execJessGrant_continues h
  | gatherRsp => exact execGatherRsp_continues h
  | niRequestTimeout => exact execNiRequestTimeout_continues h
  | routeCtrlWrite => exact execRouteCtrlWrite_continues h
  | routeMovesWrite => exact execRouteMovesWrite_continues h
  | statsSnapshot => exact execStatsSnapshot_continues h
  | statsSnapshotClear => exact execStatsSnapshotClear_continues h
  | statsSnapshotDone => exact execStatsSnapshotDone_continues h
  | domainDrainComplete => exact execDomainDrainComplete_continues h
  | domainDrainTimeout => exact execDomainDrainTimeout_continues h
  | powerDownComplete => exact execPowerDownComplete_continues h
  | powerUpComplete => exact execPowerUpComplete_continues h
  | scrubLine => exact execScrubLine_continues h
  | sramScrubWord => exact execSramScrubWord_continues h
  | lpRecal => exact execLpRecal_continues h
  | aptWord0Write => exact execAptWord0Write_continues h
  | aptWord1Write => exact execAptWord1Write_continues h
  | eccInject => exact execEccInject_continues h
  | mxpassStart => exact execMxpassStart_continues h
  | mxpassDrainDone => exact execMxpassDrainDone_continues h
  | mxtRole => exact execMxtRole_continues h
  | understudy => exact execUnderstudy_continues h
  | repairRequest => exact execRepairRequest_continues h
  | repairProgramDone => exact execRepairProgramDone_continues h
  | faultInject => exact execFaultInject_continues h
  | mxtClkLimit => exact execMxtClkLimit_continues h
  | handoverCopyDone => exact execHandoverCopyDone_continues h
  | releaseCopyDone => exact execReleaseCopyDone_continues h
  | vxtExcInject => exact execVxtExcInject_continues h
  | tableDescWord0Write => exact execTableDescWord0Write_continues h
  | tableDescWordWrite => exact execTableDescWordWrite_continues h
  | hotTagWrite => exact execHotTagWrite_continues h
  | hotTagCopyDone => exact execHotTagCopyDone_continues h
  | hotCacheKib => exact execHotCacheKib_continues h
  | gatherLookupIssue => exact execGatherLookupIssue_continues h
  | phaseMapWrite => exact execPhaseMapWrite_continues h
  | currentPhaseWrite => exact execCurrentPhaseWrite_continues h
  | moultStepStart => exact execMoultStepStart_continues h
  | moultStepDone => exact execMoultStepDone_continues h
  | moultStepTimeout => exact execMoultStepTimeout_continues h
  | epochTimerTick => exact execEpochTimerTick_continues h
  | epochInEdge => exact execEpochInEdge_continues h
  | epochMarkMgmt => exact execEpochMarkMgmt_continues h
  | epochCommitApply => exact execEpochCommitApply_continues h
  | epochCommitRelease => exact execEpochCommitRelease_continues h
  | epochOutPulseEnd => exact execEpochOutPulseEnd_continues h
  | edSourceWrite => exact execEdSourceWrite_continues h
  | unitDomainWrite => exact execUnitDomainWrite_continues h
  | chainCtrlWrite => exact execChainCtrlWrite_continues h
  | chainInvalidateDone => exact execChainInvalidateDone_continues h
  | drbgSeed => exact execDrbgSeed_continues h
  | drbgHealthFail => exact execDrbgHealthFail_continues h
  | catInject => exact execCatInject_continues h
  | spFrameStart => exact execSpFrameStart_continues h
  | spFrameEnd => exact execSpFrameEnd_continues h
  | spLongPacket => exact execSpLongPacket_continues h
  | spBeatFlush => exact execSpBeatFlush_continues h
  | spFrameFillPost => exact execSpFrameFillPost_continues h
  | secEventProcess => exact execSecEventProcess_continues h
  | secBinIdleClose => exact execSecBinIdleClose_continues h
  | secBinArrivalClose => exact execSecBinArrivalClose_continues h
  | secBinFillPost => exact execSecBinFillPost_continues h
  | secBatchTimeout => exact execSecBatchTimeout_continues h
  | spRuleWrite => exact execSpRuleWrite_continues h
  | frCfgWrite => exact execFrCfgWrite_continues h
  | spInject => exact execSpInject_continues h
  | cfgGo => exact execCfgGo_continues h
  | cfgAbort => exact execCfgAbort_continues h
  | cfgDataWrite => exact execCfgDataWrite_continues h
  | loadHeaderCheck => exact execLoadHeaderCheck_continues h
  | loadBodyComplete => exact execLoadBodyComplete_continues h
  | loadSignatureVerify => exact execLoadSignatureVerify_continues h
  | loadRelease => exact execLoadRelease_continues h
  | cfgStreamTimeout => exact execCfgStreamTimeout_continues h
  | xspiTimeout => exact execXspiTimeout_continues h
  | cfgScrubFrame => exact execCfgScrubFrame_continues h
  | cfgInject => exact execCfgInject_continues h
  | fabricRamError => exact execFabricRamError_continues h
  | fpMasterRequest => exact execFpMasterRequest_continues h
  | fpTargetAnswer => exact execFpTargetAnswer_continues h
  | fpCtxWrite => exact execFpCtxWrite_continues h
  | fabricEpochEdge => exact execFabricEpochEdge_continues h
  | presenceTimeout => exact execPresenceTimeout_continues h
  | phRetryExpiry => exact execPhRetryExpiry_continues h
  | lureDetected => exact execLureDetected_continues h
  | trainingFrameRx => exact execTrainingFrameRx_continues h
  | presenceComplete => exact execPresenceComplete_continues h
  | rateSwitch => exact execRateSwitch_continues h
  | ffeRequestApply => exact execFfeRequestApply_continues h
  | creanceStepComplete => exact execCreanceStepComplete_continues h
  | creanceStepTimeout => exact execCreanceStepTimeout_continues h
  | linkFramingStart => exact execLinkFramingStart_continues h
  | losDetected => exact execLosDetected_continues h
  | lolDetected => exact execLolDetected_continues h
  | phRequiredGrace => exact execPhRequiredGrace_continues h
  | phLinkEnable => exact execPhLinkEnable_continues h
  | recalDue => exact execRecalDue_continues h
  | recalPiece => exact execRecalPiece_continues h
  | recalDeferred => exact execRecalDeferred_continues h
  | patternCtrl => exact execPatternCtrl_continues h
  | laneInject => exact execLaneInject_continues h
  | codewordRx => exact execCodewordRx_continues h
  | linkTransactionRx => exact execLinkTransactionRx_continues h
  | lctrlIdle => exact execLctrlIdle_continues h
  | pmReq => exact execPmReq_continues h
  | pmAck => exact execPmAck_continues h
  | recalWin => exact execRecalWin_continues h
  | laneDown => exact execLaneDown_continues h
  | laneUp => exact execLaneUp_continues h
  | hood => exact execHood_continues h
  | open_ => exact execOpen_continues h
  | ackTimer => exact execAckTimer_continues h
  | replayTimeout => exact execReplayTimeout_continues h
  | laneDegradeSwitch => exact execLaneDegradeSwitch_continues h
  | linkIdleTimer => exact execLinkIdleTimer_continues h
  | pmReqTimeout => exact execPmReqTimeout_continues h
  | dropNoticeRx => exact execDropNoticeRx_continues h
  | devRouteWrite => exact execDevRouteWrite_continues h
  | errNClear => exact execErrNClear_continues h
  | errInject => exact execErrInject_continues h
  | logReadWrite => exact execLogReadWrite_continues h
  | pathTest => exact execPathTest_continues h
  | monitorCompareFail => exact execMonitorCompareFail_continues h
  | testRequest => exact execTestRequest_continues h
  | testForce => exact execTestForce_continues h
  | faultClear => exact execFaultClear_continues h
  | selftestScheduleTick => exact execSelftestScheduleTick_continues h
  | selftestStart => exact execSelftestStart_continues h
  | selftestComplete => exact execSelftestComplete_continues h
  | agingSample => exact execAgingSample_continues h
  | ageHourBurn => exact execAgeHourBurn_continues h
  | coolantInletWrite => exact execCoolantInletWrite_continues h
  | coolantWatchExpiry => exact execCoolantWatchExpiry_continues h
  | extest => exact execExtest_continues h
  | idcode => exact execIdcode_continues h
  | samplePreload => exact execSamplePreload_continues h
  | extestPulse => exact execExtestPulse_continues h
  | extestTrain => exact execExtestTrain_continues h
  | highz => exact execHighz_continues h
  | clamp => exact execClamp_continues h
  | bypass => exact execBypass_continues h
  | inputPowerCapControl => exact execInputPowerCapControl_continues h
  | refclkReturn => exact execRefclkReturn_continues h
  | hostReadCompletion => exact execHostReadCompletion_continues h
  | pcieCompletionTimeout => exact execPcieCompletionTimeout_continues h
  | timedOutTagRelease => exact execTimedOutTagRelease_continues h
  | patternCheckerLock => exact execPatternCheckerLock_continues h
  | patternCheckerLockLoss => exact execPatternCheckerLockLoss_continues h

/-- Every command goes on, and keeps what `Kept` says. -/
theorem exec_keeps (c : Instr) (s : State) : Keeps s (exec c s) := by
  have h : Steady s s := .refl s
  cases hc : endsSafe c with
  | false => exact (exec_continues h hc).keeps
  | true =>
    unfold endsSafe at hc
    split at hc
    · exact execPowerOn_keeps h.toKept
    · exact execVinLoss_keeps h.toKept
    · exact execVinFastDrop_keeps h.toKept
    · exact execPorstN_keeps h.toKept
    · exact execWrstN_keeps h.toKept
    · exact execKrstN_keeps h.toKept
    · exact execResetRequestApply_keeps h.toKept
    · cases hc

/-- A step goes on, and keeps what `Kept` says of the state without its front command. -/
theorem step_keeps (s : State) : Keeps { s with pending := s.pending.tail } (step s) := by
  unfold step
  split
  · next hp =>
    have hs : Kept { s with pending := s.pending.tail } s := ⟨by simp [hp], rfl, rfl, Nat.le_refl _, id⟩
    exact .next (hs.trans s.idle_steady.toKept)
  · next c rest hp =>
    rw [hp]
    exact exec_keeps c _

end

/-- Settles O5: a step keeps what `Kept` says of the state without its front command. -/
theorem stepKeepsFusesAndQueue : Obligations.StepKeepsFusesAndQueue := by
  intro s t ht
  obtain ⟨u, hu, hk⟩ := step_keeps s
  obtain rfl : u = t := Host.Outcome.next.inj (hu.symm.trans ht)
  exact ⟨hk.pending, hk.variant, hk.fuses, hk.hours⟩

end Sys2Proof.Machine
end

section
/-!
What memory holds: the byte, mark and recorded errors of an address under each operation that a read or a write at its home is
made of, the answers of an open home and of an address that nothing holds, and the answers of a translation (R22, R290, R346,
R352, R353).
-/
namespace Sys2Proof.Machine

open Sys2Proof

/-! Bytes, marks and recorded errors under the operations of an access. -/

/-- A byte after a stored range: the range's own byte inside it, what stood there outside it. -/
theorem State.byteAt_rawWrite (s : State) (a b : Nat) (bs : List Byte) :
    (s.rawWrite a bs).byteAt b = if a ≤ b ∧ b < a + bs.length then bs.getD (b - a) 0 else s.byteAt b := by
  split
  · next h =>
    have := s.rawWrite_byteAt_inside a bs (b - a) (by omega)
    rwa [Nat.add_sub_cancel' h.1] at this
  · next h => exact s.rawWrite_byteAt_outside a bs b (by omega)

theorem State.rawRead_getD (s : State) {n i : Nat} (a : Nat) (h : i < n) : (s.rawRead a n).getD i 0 = s.byteAt (a + i) := by
  simp [State.rawRead, State.byteAt, List.getD_eq_getElem?_getD, h]

@[simp] theorem State.byteAt_setObj (s : State) (key v b : Nat) : (s.setObj key v).byteAt b = s.byteAt b := rfl
@[simp] theorem State.byteAt_bump (s : State) (key n b : Nat) : (s.bump key n).byteAt b = s.byteAt b := rfl
@[simp] theorem State.mark_bump (s : State) (key n b : Nat) : (s.bump key n).mark b = s.mark b := rfl
@[simp] theorem State.byteAt_setEcc (s : State) (a : Nat) (e : List (Nat × Nat)) (b : Nat) : (s.setEcc a e).byteAt b = s.byteAt b := rfl
@[simp] theorem State.byteAt_setMark (s : State) (a m b : Nat) : (s.setMark a m).byteAt b = s.byteAt b := rfl
@[simp] theorem State.byteAt_setAptCtl (s : State) (c : Nat) (x : AptCtl) (b : Nat) : (s.setAptCtl c x).byteAt b = s.byteAt b := rfl
@[simp] theorem State.byteAt_unbackedHit (s : State) (a b : Nat) : (s.unbackedHit a).byteAt b = s.byteAt b := by
  rw [State.unbackedHit, State.unbackedAt, State.byteAt_setObj, State.byteAt_bump]

@[simp] theorem State.dropHeld_mem (s : State) (a n : Nat) : (s.dropHeld a n).mem = s.mem := by
  unfold State.dropHeld
  dsimp only
  split <;> rfl

/-- Of memory, a store's effect on reservations changes the list of those kept for other agents, and nothing else. -/
theorem State.loseReservations_mem (s : State) (ag : Agent) (a : Nat) :
    ∃ kept, (s.loseReservations ag a).mem = { s.mem with remoteRsv := kept } := by
  unfold State.loseReservations
  dsimp only
  split_ifs <;> exact ⟨_, rfl⟩

/-- What a store does beside its line leaves every byte, mark and recorded error. -/
theorem State.loseReservations_dropHeld_line (s : State) (ag : Agent) (a n b : Nat) :
    ((s.loseReservations ag a).dropHeld a n).byteAt b = s.byteAt b ∧ ((s.loseReservations ag a).dropHeld a n).mark b = s.mark b ∧
      ((s.loseReservations ag a).dropHeld a n).eccErr b = s.eccErr b := by
  obtain ⟨kept, h⟩ := s.loseReservations_mem ag a
  simp only [State.byteAt, State.mark, State.eccErr, State.dropHeld_mem, h, and_self]

/-! The line of an access: decoding, storing and poisoning. -/

/-- Decoding a line of which no error is recorded changes nothing. -/
theorem State.checkLine_of_clean {s : State} {a : Nat} (u : Nat) (h : s.eccErr a = []) : s.checkLine u a = s := by
  simp only [State.checkLine, h, if_true, ite_self]

theorem State.drawN_mem (n : Nat) (s : State) : (s.drawN n).2.mem = s.mem := by
  induction n generalizing s with
  | zero => rfl
  | succ n ih => exact ih s.draw.2

theorem State.drawBytes_mem (s : State) (n : Nat) : (s.drawBytes n).2.mem = s.mem := s.drawN_mem _

theorem State.drawBytes_length_le (s : State) (n : Nat) : (s.drawBytes n).1.length ≤ n := List.length_take_le _ _

@[simp] theorem State.mark_scramble (s : State) (a b : Nat) : (s.scramble a).mark b = s.mark b := by
  rw [State.scramble, State.mark_rawWrite, State.mark, State.drawBytes_mem]
  rfl

/-- Undefined data stays within its line. -/
theorem State.byteAt_scramble_other (s : State) {a b : Nat} (h : b / 128 ≠ a / 128) : (s.scramble a).byteAt b = s.byteAt b := by
  have hl := s.drawBytes_length_le 128
  rw [State.scramble, State.rawWrite_byteAt_outside _ _ _ _ (by omega), State.byteAt, State.drawBytes_mem]
  rfl

/-- Outside LPDDR, whose ports can hold too many poisoned lines, a poisoned line has its data undefined and its mark set. -/
theorem State.poisonLine_of_class (s : State) {u : Nat} (a m : Nat) (h : unitClass u ≠ 7) :
    s.poisonLine u a m = ((s.setEcc a []).scramble a).setMark a m := by
  simp [State.poisonLine, h]

/-- A poisoned store marks its line. -/
theorem State.mark_storeLine_poison (s : State) {u m : Nat} (a : Nat) (bs : List Byte) (hm : m ≠ 0) (hu : unitClass u ≠ 7) :
    (s.storeLine u a bs m).mark a = m := by
  simp [State.storeLine, hm, State.poisonLine_of_class _ _ _ hu]

/-- A poisoned store leaves every other line. -/
theorem State.storeLine_poison_other (s : State) {u m a b : Nat} (bs : List Byte) (hm : m ≠ 0) (hu : unitClass u ≠ 7)
    (hb : b / 128 ≠ a / 128) :
    (s.storeLine u a bs m).byteAt b = (s.dropHeld a bs.length).byteAt b ∧
      (s.storeLine u a bs m).mark b = (s.dropHeld a bs.length).mark b := by
  simp [State.storeLine, hm, State.poisonLine_of_class _ _ _ hu, State.byteAt_scramble_other _ hb,
    State.mark_setMark_other _ _ _ _ hb]

/-- A sound store in a line without a recorded error stores its bytes. -/
theorem State.byteAt_storeLine_sound (s : State) (u : Nat) {a : Nat} (bs : List Byte) (b : Nat)
    (he : (s.dropHeld a bs.length).eccErr a = []) : (s.storeLine u a bs 0).byteAt b =
      if a ≤ b ∧ b < a + bs.length then bs.getD (b - a) 0 else (s.dropHeld a bs.length).byteAt b := by
  simp only [State.storeLine, ne_eq, not_true_eq_false, if_false]
  split
  · split <;> simp [State.byteAt_rawWrite]
  · rw [State.checkLine_of_clean u he, State.byteAt_rawWrite]

/-- A sound store in a line without a recorded error clears the line's mark only as a whole line. -/
theorem State.mark_storeLine_sound (s : State) (u : Nat) {a : Nat} (bs : List Byte)
    (he : (s.dropHeld a bs.length).eccErr a = []) : (s.storeLine u a bs 0).mark a =
      if bs.length = 128 then 0 else (s.dropHeld a bs.length).mark a := by
  simp only [State.storeLine, ne_eq, not_true_eq_false, if_false]
  split
  · split
    · simp
    · next hm => simpa using hm
  · rw [State.checkLine_of_clean u he, State.mark_rawWrite]

/-! Accesses at a home. -/

/-- An open home: unit `u` holds the address, outside MMIO, the security windows and the hot-row cache, no understudy answers
for it, and its domain delivers the request. -/
structure State.HomeOpen (s : State) (u a : Nat) : Prop where
  held : s.holder a = some u
  notMmio : regionOf a ≠ .mmio
  notSec : regionOf a ≠ .sec
  served : s.regionLate a = false
  notHot : s.inHotCache a = false
  direct : SMap.get 0 s.mem.redirect u = 0 ∨ 64 ≤ u
  delivers : s.reply u = .deliver

/-- No understudy answers for an open home. -/
theorem State.HomeOpen.not_redirected {s : State} {u a : Nat} (h : s.HomeOpen u a) :
    (SMap.get 0 s.mem.redirect u ≠ 0 && u < 64) = false := by
  have hd := h.direct
  simp only [Bool.and_eq_false_iff, decide_eq_false_iff_not]
  omega

/-- A read of an open home decodes the line and answers what is stored, with the line's mark. -/
theorem State.HomeOpen.homeRead {s : State} {u a : Nat} (h : s.HomeOpen u a) (g : Bool) (n : Nat) :
    s.homeRead g a n = ({ bytes := (s.checkLine u a).rawRead a n, mark := (s.checkLine u a).mark a }, s.checkLine u a) := by
  simp only [State.homeRead, h.not_redirected, h.held, beq_eq_false_iff_ne.2 h.notMmio,
    beq_eq_false_iff_ne.2 h.notSec, h.served, h.notHot, h.delivers, Bool.false_and, Bool.false_eq_true, if_false, beq_iff_eq,
    reduceCtorEq]

/-- A write at an open home, outside the pellet log, answers OK and stores in the line. -/
theorem State.HomeOpen.homeWrite {s : State} {u a : Nat} (h : s.HomeOpen u a) (hp : s.inPelletLog a = false) (ag : Agent)
    (g : Bool) (bs : List Byte) (m : Nat) :
    s.homeWrite ag g a bs m = (Sc.ok, (s.loseReservations ag a).storeLine u a bs m) := by
  simp only [State.homeWrite, h.not_redirected, h.held, beq_eq_false_iff_ne.2 h.notMmio,
    beq_eq_false_iff_ne.2 h.notSec, h.served, h.notHot, hp, h.delivers, Bool.false_and, Bool.or_self, Bool.false_eq_true, if_false,
    beq_iff_eq, reduceCtorEq]

/-- A sound write at an open home, in a line of which no error is recorded. -/
theorem State.HomeOpen.homeWrite_sound {s : State} {u a : Nat} (h : s.HomeOpen u a) (hp : s.inPelletLog a = false)
    (he : s.eccErr a = []) (ag : Agent) (g : Bool) (bs : List Byte) :
    (s.homeWrite ag g a bs 0).1 = Sc.ok ∧
      (s.homeWrite ag g a bs 0).2.mark a = (if bs.length = 128 then 0 else s.mark a) ∧
      ∀ b, (s.homeWrite ag g a bs 0).2.byteAt b = if a ≤ b ∧ b < a + bs.length then bs.getD (b - a) 0 else s.byteAt b := by
  have hl := s.loseReservations_dropHeld_line ag a bs.length
  have hc : ((s.loseReservations ag a).dropHeld a bs.length).eccErr a = [] := (hl a).2.2.trans he
  rw [h.homeWrite hp]
  refine ⟨rfl, ?_, fun b => ?_⟩
  · rw [State.mark_storeLine_sound _ u bs hc, (hl a).2.1]
  · rw [State.byteAt_storeLine_sound _ u bs b hc, (hl b).1]

/-- A poisoned write at an open home, outside LPDDR. -/
theorem State.HomeOpen.homeWrite_poison {s : State} {u a m : Nat} (h : s.HomeOpen u a) (hp : s.inPelletLog a = false)
    (hm : m ≠ 0) (hu : unitClass u ≠ 7) (ag : Agent) (g : Bool) (bs : List Byte) :
    (s.homeWrite ag g a bs m).1 = Sc.ok ∧ (s.homeWrite ag g a bs m).2.mark a = m ∧
      ∀ b, b / 128 ≠ a / 128 →
        (s.homeWrite ag g a bs m).2.byteAt b = s.byteAt b ∧ (s.homeWrite ag g a bs m).2.mark b = s.mark b := by
  rw [h.homeWrite hp]
  refine ⟨rfl, State.mark_storeLine_poison _ a bs hm hu, fun b hb => ?_⟩
  obtain ⟨hbyte, hmark⟩ := State.storeLine_poison_other (s.loseReservations ag a) bs hm hu hb
  obtain ⟨lbyte, lmark, -⟩ := s.loseReservations_dropHeld_line ag a bs.length b
  exact ⟨hbyte.trans lbyte, hmark.trans lmark⟩

/-- A read of an address that nothing holds is refused and recorded. -/
theorem State.homeRead_unheld {s : State} {a : Nat} (hh : s.holder a = none) (hm : regionOf a ≠ .mmio)
    (hr : s.regionLate a = false) (g : Bool) (n : Nat) :
    s.homeRead g a n = ({ status := Sc.accessDenied }, s.unbackedHit a) := by
  simp [State.homeRead, hh, hm, hr]

/-- A write at an address that nothing holds is refused and recorded. -/
theorem State.homeWrite_unheld {s : State} {a : Nat} (hh : s.holder a = none) (hm : regionOf a ≠ .mmio)
    (hr : s.regionLate a = false) (ag : Agent) (g : Bool) (bs : List Byte) (m : Nat) :
    s.homeWrite ag g a bs m = (Sc.accessDenied, s.unbackedHit a) := by
  simp [State.homeWrite, hh, hm, hr]

/-! Translation of a context address. -/

/-- An aperture entry refuses an access that it does not permit. -/
def Apt.refuses (e : Apt) (r w : Bool) : Bool := (r && !bit e.w1 0) || (w && !bit e.w1 1)

theorem Apt.refuses_eq_true_iff (e : Apt) (r w : Bool) :
    e.refuses r w = true ↔ r = true ∧ bit e.w1 0 = false ∨ w = true ∧ bit e.w1 1 = false := by
  simp [Apt.refuses]

theorem Apt.refuses_eq_false {e : Apt} {r w : Bool} (hr : r = true → bit e.w1 0 = true) (hw : w = true → bit e.w1 1 = true) :
    e.refuses r w = false := by
  rw [Bool.eq_false_iff, Ne, Apt.refuses_eq_true_iff]
  rintro (⟨h, hb⟩ | ⟨h, hb⟩)
  · exact Bool.false_ne_true (hb.symm.trans (hr h))
  · exact Bool.false_ne_true (hb.symm.trans (hw h))

theorem State.xlate_miss {s : State} {c ca : Nat} (h : s.aptMatches c ca = []) (r w : Bool) :
    (s.xlate c ca r w).1.status = Sc.apertureMiss := by
  simp only [State.xlate, h]

/-- A context address that one entry covers is refused, or goes where that entry maps it. -/
theorem State.xlate_of_single {s : State} {c ca : Nat} {e : Apt} (h : s.aptMatches c ca = [e]) (r w : Bool) :
    s.xlate c ca r w = if e.refuses r w then ({ status := Sc.accessDenied }, s.bump Obj.APERTURE_DENIALS)
      else ({ ga := s.aptTarget e ca, replay := bit e.w1 2 }, s) := by
  simp only [State.xlate, h, List.isEmpty_nil, if_true]
  rfl

/-- A translation changes no byte of memory, however many entries cover the address. -/
theorem State.byteAt_xlate (s : State) (c ca : Nat) (r w : Bool) (b : Nat) : (s.xlate c ca r w).2.byteAt b = s.byteAt b := by
  unfold State.xlate
  split
  · rfl
  · dsimp only
    split_ifs <;> rfl

/-- Settles O47: an access at an open home comes down to its line's decoding or store, of which each part's effect on bytes and
marks is known; elsewhere and in a translation only counters and registers change. -/
theorem memoryHoldsWhatIsWritten : Obligations.MemoryHoldsWhatIsWritten := by
  refine ⟨fun s a b bs => s.byteAt_rawWrite a b bs, fun s a n i h => s.rawRead_getD a h, ?_, ?_, ?_⟩
  · intro s u a held notMmio notSec served notHot direct delivers clean
    have home : s.HomeOpen u a := ⟨held, notMmio, notSec, served, notHot, direct, delivers⟩
    refine ⟨fun g n => ?_, fun ag g bs hp _ => home.homeWrite_sound hp clean ag g bs,
      fun ag g bs m hp hm hu => home.homeWrite_poison hp hm hu ag g bs⟩
    rw [home.homeRead, State.checkLine_of_clean u clean]
  · intro s a held notMmio served
    refine ⟨fun g n => ?_, fun ag g bs m => State.homeWrite_unheld held notMmio served ag g bs m, fun b => s.byteAt_unbackedHit a b⟩
    rw [State.homeRead_unheld held notMmio served]
    exact ⟨rfl, rfl⟩
  · intro s c ca r w
    refine ⟨fun h => State.xlate_miss h r w, fun e h hr hw => ?_, fun e h hrw => ?_, s.byteAt_xlate c ca r w⟩
    · rw [State.xlate_of_single h, Apt.refuses_eq_false hr hw, if_neg Bool.false_ne_true]
    · rw [State.xlate_of_single h, if_pos ((e.refuses_eq_true_iff r w).2 hrw)]

end Sys2Proof.Machine
end

section
/-!
The state at reset, and what a cold reset leaves: maps of which a reset keeps a part, the state after a cold reset, and the
changes that an event or a settled write makes (R37, R40, R53, R56).
-/
namespace Sys2Proof

variable {α : Type}

/-! Maps of which a reset keeps a part. -/

theorem SMap.get_of_fresh (d : α) {m : SMap α} {i : Nat} (h : SMap.fresh m i) : SMap.get d m i = d := by
  induction m with
  | nil => rfl
  | cons e m ih =>
    have hk : i ≠ e.1 := fun hi => h e List.mem_cons_self hi.symm
    simpa [SMap.get, hk] using ih fun e' he => h e' (List.mem_cons_of_mem _ he)

theorem SMap.get_filter_keep (d : α) (m : SMap α) {p : Nat × α → Bool} {i : Nat} (h : ∀ v, p (i, v) = true) :
    SMap.get d (m.filter p) i = SMap.get d m i := by
  induction m with
  | nil => rfl
  | cons e m ih =>
    obtain ⟨k, v⟩ := e
    by_cases hk : i = k
    · subst hk; simp [List.filter, h v, SMap.get]
    · cases hp : p (k, v) <;> simp [List.filter, hp, SMap.get, hk, ih]

theorem SMap.get_filter_drop (d : α) (m : SMap α) {p : Nat × α → Bool} {i : Nat} (h : ∀ v, p (i, v) = false) :
    SMap.get d (m.filter p) i = d :=
  SMap.get_of_fresh d fun e he hi => by
    have := (List.mem_filter.1 he).2
    rw [← hi] at h
    exact Bool.false_ne_true ((h e.2).symm.trans this)

/-- What holds of every listed value and of the default holds of whatever is read. -/
theorem SMap.get_induction {P : α → Prop} {d : α} {m : SMap α} (hd : P d) (hm : ∀ e ∈ m, P e.2) (i : Nat) : P (SMap.get d m i) := by
  induction m with
  | nil => exact hd
  | cons e m ih =>
    simp only [SMap.get]
    split
    · exact hm e List.mem_cons_self
    · exact ih fun e' he => hm e' (List.mem_cons_of_mem _ he)

/-- A map of which each value is replaced by its image, and images that are the default are left out. -/
theorem SMap.get_filterMap_image {β : Type} [DecidableEq β] {f : α → β} {d : α} {m : SMap α}
    (hm : m.Pairwise fun a b => a.1 < b.1) (i : Nat) :
    SMap.get (f d) (m.filterMap fun e => if f e.2 = f d then none else some (e.1, f e.2)) i = f (SMap.get d m i) := by
  induction m with
  | nil => rfl
  | cons e m ih =>
    obtain ⟨k, v⟩ := e
    obtain ⟨hk, hm⟩ := List.pairwise_cons.1 hm
    have hi := ih hm
    by_cases hv : f v = f d
    · simp only [List.filterMap_cons, if_pos hv, hi, SMap.get]
      split
      · next h =>
        have hf : SMap.fresh m i := fun e he => h ▸ (hk e he).ne'
        rw [SMap.get_of_fresh d hf, hv]
      · rfl
    · simp only [List.filterMap_cons, if_neg hv, hi, SMap.get]
      split <;> rfl

end Sys2Proof

namespace Sys2Proof.Machine

open Sys2Proof

/-! Objects whose default counts here. -/

theorem objDefault_bringupStage (vr : Variant) : objDefault vr Obj.BRINGUP_STAGE = 0 := by cases vr <;> decide +kernel

/-- An object that a filtered dictionary does not list has its default. -/
theorem State.obj_of_filter_drop {s : State} {m : SMap W64} {p : Nat × W64 → Bool} {key : Nat} (hd : s.dict = m.filter p)
    (h : ∀ v, p (key, v) = false) : s.obj key = objDefault s.variant key % 2 ^ 64 := by
  rw [State.obj, hd, SMap.get_filter_drop _ _ h, BitVec.toNat_ofNat]

/-- A command whose occasion holds completes with its effect. -/
theorem Completes.of_occ {i : Instr} {s t : State} {c : Bool} {P : State → Prop} (he : exec i s = occ c s t) (hc : c = true)
    (ht : P t) : Completes i s P := ⟨t, by rw [he, occ, if_pos hc], ht⟩

/-! The state at reset. -/

/-- Settles O2: each map of the reset state is empty, so that whatever is read is its default. -/
theorem resetValues : Obligations.ResetValues := by
  have hs : State.reset.stage = 0 := by
    rw [State.stage, State.obj, show State.reset.dict = [] from rfl, SMap.get, objDefault_bringupStage]; rfl
  refine ⟨rfl, hs, rfl, fun _ => rfl, fun _ => rfl, ⟨rfl, rfl⟩, rfl, rfl, rfl, fun _ => rfl, fun q k => ?_, fun _ => rfl, fun p => ?_,
    fun _ => rfl, fun _ => rfl, fun t => ?_⟩
  · simp only [State.slot]; split <;> rfl
  · simp only [State.sem]; split <;> rfl
  · cases t <;> rfl

/-! Cold resets. -/

/-- Of the state, forgotten inlet writes change the cooling record alone. -/
theorem State.forgetInlet_eq (s : State) : ∃ c, s.forgetInlet = { s with cool := c } := by
  simp only [State.forgetInlet]
  split
  · exact ⟨s.cool, rfl⟩
  · exact ⟨_, rfl⟩

theorem State.obj_forgetInlet (s : State) (key : Nat) : s.forgetInlet.obj key = s.obj key := by
  obtain ⟨c, hc⟩ := s.forgetInlet_eq
  rw [hc]
  rfl

/-- A tile that a reset keeps has its repairs and is as after reset else. -/
def keptTile (t : Tile) : Tile := { ({} : Tile) with spares := t.spares }

/-- Fuses and antifuses hold: every tile has its repairs after a reset (R470). -/
theorem get_keptTiles_spares {m : SMap Tile} (hm : keysRise m = true) (n : Nat) :
    (SMap.get {} (keptTiles m) n).spares = (SMap.get {} m n).spares := by
  have h : SMap.get {} (keptTiles m) n = keptTile (SMap.get {} m n) :=
    SMap.get_filterMap_image (f := keptTile) (d := {}) ((keysRise_iff m).1 hm) n
  rw [h, keptTile]

/-- What a cold reset leaves, whatever stood before (R53, Table 2.8). -/
structure Fresh (s : State) (cause mv : Nat) (t : State) : Prop where
  stage : t.stage = 0
  held : t.sup.coldReset = true
  cause : t.obj Obj.RESET_CAUSE = cause
  live : t.safety.safe = false
  empty : ∀ a, t.byteAt a = 0
  off : ∀ u, t.unitSt u = .off
  rings : t.host.rings = []
  seqs : t.seqs = []
  hours : t.safety.hourBits = s.safety.hourBits
  key : t.oap.key = s.oap.key
  variant : t.variant = s.variant
  spares : keysRise s.tiles.mxt = true → ∀ n, (t.tile n).spares = (s.tile n).spares
  vin : t.sup.vinMv = mv

theorem Fresh.forgetInlet {s t : State} {cause mv : Nat} (h : Fresh s cause mv t) : Fresh s cause mv t.forgetInlet := by
  obtain ⟨c, hc⟩ := t.forgetInlet_eq
  rw [hc]
  exact ⟨h.stage, h.held, h.cause, h.live, h.empty, h.off, h.rings, h.seqs, h.hours, h.key, h.variant, h.spares, h.vin⟩

theorem State.coldReset_fresh (s : State) {cause : Nat} (hc : cause < 2 ^ 64) : Fresh s cause s.sup.vinMv (s.coldReset cause) := by
  refine Fresh.forgetInlet ?_
  exact {
    stage := by
      rw [State.stage, State.obj_setObj_other _ _ _ _ (by decide), State.obj_of_filter_drop rfl fun _ => rfl,
        objDefault_bringupStage, Nat.zero_mod]
    held := rfl
    cause := (State.obj_setObj_same _ _ _).trans (Nat.mod_eq_of_lt hc)
    live := rfl
    empty := fun _ => rfl
    off := fun _ => rfl
    rings := rfl
    seqs := rfl
    hours := rfl
    key := rfl
    variant := rfl
    spares := fun hk n => get_keptTiles_spares hk n
    vin := rfl }

/-! Events and settled writes. -/

/-- `t` is `s` but for what events and settled writes change: what has left the chip, events and interrupts that wait, the
shadow, the overridden objects, BLOCK values, and objects of `K`. -/
def Noted (K : Nat → Prop) (s t : State) : Prop :=
  ∃ o d bl sh ov q vs, t = { s with
      out := o, dict := d, blocks := bl, oap := { s.oap with shadow := sh, overridden := ov, evtQ := q }
      host := { s.host with vectors := vs } } ∧
    ∀ k, ¬ K k → t.obj k = s.obj k

section
variable {K : Nat → Prop} {s t u : State}

theorem Noted.refl (s : State) : Noted K s s := ⟨_, _, _, _, _, _, _, rfl, fun _ _ => rfl⟩

theorem Noted.trans (h : Noted K s t) (h' : Noted K t u) : Noted K s u := by
  obtain ⟨o, d, bl, sh, ov, q, vs, ht, hk⟩ := h
  obtain ⟨o', d', bl', sh', ov', q', vs', hu, hk'⟩ := h'
  refine ⟨o', d', bl', sh', ov', q', vs', ?_, fun k hn => (hk' k hn).trans (hk k hn)⟩
  rw [hu, ht]

theorem Noted.mono {L : Nat → Prop} (h : Noted K s t) (hl : ∀ k, K k → L k) : Noted L s t := by
  obtain ⟨o, d, bl, sh, ov, q, vs, ht, hk⟩ := h
  exact ⟨o, d, bl, sh, ov, q, vs, ht, fun k hn => hk k fun hK => hn (hl k hK)⟩

theorem Noted.ite {c : Prop} [Decidable c] (h : Noted K s t) (h' : Noted K s u) : Noted K s (if c then t else u) := by
  split <;> assumption

theorem Noted.foldl {β : Type} {f : State → β → State} {l : List β} (h : Noted K s t)
    (hf : ∀ u, ∀ b ∈ l, Noted K u (f u b)) : Noted K s (l.foldl f t) := by
  induction l generalizing t with
  | nil => exact h
  | cons b l ih => exact ih (h.trans (hf t b List.mem_cons_self)) fun u b hb => hf u b (List.mem_cons_of_mem _ hb)

theorem Noted.setObj {key v : Nat} (h : Noted K s t) (hK : K key) : Noted K s (t.setObj key v) :=
  h.trans ⟨_, _, _, _, _, _, _, rfl, fun k hn => t.obj_setObj_other key k v fun e => hn (e ▸ hK)⟩

theorem Noted.setBlock {key : Nat} {v : List Byte} (h : Noted K s t) : Noted K s (t.setBlock key v) :=
  h.trans ⟨_, _, _, _, _, _, _, rfl, fun _ _ => rfl⟩

theorem Noted.emit {x : Output} (h : Noted K s t) : Noted K s (t.emit x) := h.trans ⟨_, _, _, _, _, _, _, rfl, fun _ _ => rfl⟩

theorem Noted.raiseVector {fn v : Nat} (h : Noted K s t) : Noted K s (t.raiseVector fn v) := by
  simp only [State.raiseVector]
  exact .ite (.ite (h.trans ⟨_, _, _, _, _, _, _, rfl, fun _ _ => rfl⟩) h.emit) h

theorem Noted.mbxEvent {pdu : List Byte} (h : Noted K s t) (hK : K Obj.OAP_OVERRUNS) : Noted K s (t.mbxEvent pdu) := by
  simp only [State.mbxEvent]
  have hq : Noted K s { t with oap := { t.oap with evtQ := t.oap.evtQ ++ [pdu] } } :=
    h.trans ⟨_, _, _, _, _, _, _, rfl, fun _ _ => rfl⟩
  exact .ite (.ite hq.raiseVector hq) (h.setObj hK)

/-- Of the objects, an event changes only the count of events lost. -/
theorem Noted.sendEvent {code cls sub data related relSub status : Nat} (h : Noted K s t) (hK : K Obj.OAP_OVERRUNS) :
    Noted K s (t.sendEvent code cls sub data related relSub status) := by
  unfold State.sendEvent
  extract_lets bitNo unit pdu t1 t2
  have h1 : Noted K s t1 := .ite h.emit h
  have h2 : Noted K s t2 := by
    refine .ite (.ite h1.emit ?_) h1
    split
    · exact h1.emit
    · exact h1
  exact .ite (h2.mbxEvent hK) h2

end


/-! Cold resets, their causes and their release. -/

theorem State.coldReset_at (s : State) (mv : Nat) {cause : Nat} (hc : cause < 2 ^ 64) :
    Fresh s cause mv (State.coldReset { s with sup := { s.sup with vinMv := mv } } cause) := by
  have h := State.coldReset_fresh { s with sup := { s.sup with vinMv := mv } } hc
  exact ⟨h.stage, h.held, h.cause, h.live, h.empty, h.off, h.rings, h.seqs, h.hours, h.key, h.variant, h.spares, h.vin⟩

/-- Of the objects, the defaults of BOOT_MODE 0b101 change the link enables. -/
theorem State.bootDefaults_noted (s : State) : Noted (fun k => k / 256 = 0x2E80) s s.bootDefaults := by
  unfold State.bootDefaults
  refine .ite (Noted.foldl (.refl s) fun u n hn => (Noted.refl u).setObj ?_) (.refl s)
  have := List.mem_range.1 hn
  show (0x2E8001 + n) / 256 = 0x2E80
  omega

theorem Noted.obj {K : Nat → Prop} {s t : State} (h : Noted K s t) {k : Nat} (hk : ¬ K k) : t.obj k = s.obj k := by
  obtain ⟨_, _, _, _, _, _, _, -, ho⟩ := h
  exact ho k hk

theorem Noted.sup {K : Nat → Prop} {s t : State} (h : Noted K s t) : t.sup = s.sup := by
  obtain ⟨_, _, _, _, _, _, _, rfl, -⟩ := h
  rfl

theorem Noted.mem {K : Nat → Prop} {s t : State} (h : Noted K s t) : t.mem = s.mem := by
  obtain ⟨_, _, _, _, _, _, _, rfl, -⟩ := h
  rfl

/-- Settles O7: each of the four causes leads to one cold reset, and its release changes the supply and two objects. -/
theorem coldResetsBeginAtS0 : Obligations.ColdResetsBeginAtS0 := by
  unfold Obligations.ColdResetsBeginAtS0
  intro fresh
  have fresh_of {s t : State} {cause mv : Nat} (h : Fresh s cause mv t) : fresh s cause t :=
    ⟨h.stage, h.held, h.cause, h.live, h.empty, h.off, h.rings, h.seqs, h.hours, h.key, h.variant, h.spares⟩
  refine ⟨fun s mv hlow hmv => ?_, fun s => ?_, fun s collapse mv hmv hheld => ?_, fun s mv hmv hheld hband => ?_,
    fun s pins hheld hvin => ?_⟩
  · have h := s.coldReset_at mv (cause := 0) (by decide)
    exact .of_occ rfl (by simp [hlow, hmv]) ⟨fresh_of h, h.vin⟩
  · exact ⟨_, rfl, fresh_of (s.coldReset_fresh (by decide))⟩
  · have h := s.coldReset_at mv (cause := if collapse then 3 else 2) (by cases collapse <;> decide)
    refine .of_occ rfl (decide_eq_true hmv) ?_
    simp only [hheld, Bool.false_eq_true, if_false]
    exact ⟨fresh_of h, h.vin⟩
  · have h := s.coldReset_at mv (cause := 4) (by decide)
    refine .of_occ rfl (by simp [hmv, hheld]) ?_
    rw [if_neg (by simp [hband])]
    exact ⟨fresh_of h, h.vin⟩
  · refine .of_occ rfl (by simp [hheld, hvin]) ?_
    have h := State.bootDefaults_noted (State.setObj { s with
      sup := { s.sup with
        vinMv := max s.sup.vinMv 6000, band := levelBand (max s.sup.vinMv 6000), coldReset := false, bootPins := pins % 8 } }
      Obj.BOOT_MODE_SAMPLED (pins % 8))
    refine ⟨by rw [h.sup]; rfl, by rw [h.sup]; rfl, ?_, by rw [h.sup]; exact Nat.le_max_right _ _, by rw [h.mem]; rfl⟩
    rw [h.obj (by decide), State.obj_setObj_same]
    omega

end Sys2Proof.Machine
end

section
/-!
Warm resets, keeper resets, and the fundamental reset of the link (R52, R54, R73, R142, R757).
-/
namespace Sys2Proof.Machine
open Sys2Proof

/-! Warm resets. -/

theorem State.dropToS1_noted (s : State) : Noted (· ≠ Obj.RESET_CAUSE) s s.dropToS1 := by
  unfold State.dropToS1
  have h : Noted (· ≠ Obj.RESET_CAUSE) s ([2, 3, 4, 5].foldl (fun s k => s.setObj (Obj.STAGE_TIME k) 0) s) := by
    refine Noted.foldl (.refl s) fun u k hk => (Noted.refl u).setObj ?_
    have hk5 : k ≤ 5 := by simp at hk; omega
    show 0x600002 + k ≠ 0x600009
    omega
  exact .ite h ((h.setObj (by decide)).sendEvent (by decide))

theorem State.stage_dropToS1 (s : State) : s.dropToS1.stage ≤ 1 := by
  simp only [State.dropToS1]
  split
  · assumption
  · generalize [2, 3, 4, 5].foldl (fun s k => s.setObj (Obj.STAGE_TIME k) 0) s = u
    have h : Noted (· = Obj.OAP_OVERRUNS) (u.setObj Obj.BRINGUP_STAGE 1)
        ((u.setObj Obj.BRINGUP_STAGE 1).sendEvent 3 0xFF 0 1 0 0 0) := (Noted.refl _).sendEvent rfl
    rw [State.stage, h.obj (by decide), State.obj_setObj_same]
    decide

/-- A warm reset keeps the bytes of HBM where its map stays the one in effect (R52, R347). -/
theorem State.warmMemory_hbm {s : State} (h : (s.obj Obj.HBM_MAP == 1) = s.mem.hbmLinear) {a : Nat} (ha : regionOf a = .hbm) :
    SMap.get 0 s.warmMemory.cells a = s.byteAt a :=
  SMap.get_filter_keep 0 _ fun _ => by simp [ha, h]

/-- What a warm reset leaves of a state, its stage and its cause apart (R52, R53, R757, Table 2.8). -/
structure Warm (s t : State) : Prop where
  live : t.safety.safe = false
  off : ∀ u, t.unitSt u = .off
  seqs : t.seqs = []
  rings : t.host.rings = []
  str : t.str = {}
  net : t.net = {}
  agg : t.agg = s.agg
  hours : t.safety.hourBits = s.safety.hourBits
  time : t.timeNs = s.timeNs
  hbm : (s.obj Obj.HBM_MAP == 1) = s.mem.hbmLinear → ∀ a, regionOf a = .hbm → t.byteAt a = s.byteAt a

theorem Warm.of_noted {K : Nat → Prop} {s t u : State} (h : Warm s t) (hn : Noted K t u) : Warm s u := by
  obtain ⟨_, _, _, _, _, _, _, rfl, -⟩ := hn
  exact ⟨h.live, h.off, h.seqs, h.rings, h.str, h.net, h.agg, h.hours, h.time, h.hbm⟩

/-- A warm reset puts units, programs, rings, engines and network back and goes on with the boot defaults, its cause and S1. -/
theorem State.warmReset_eq (s : State) (cause : Nat) :
    ∃ t, Warm s t ∧ s.warmReset cause = (t.bootDefaults.setObj Obj.RESET_CAUSE cause).dropToS1 := by
  refine ⟨_, ?_, rfl⟩
  exact {
    live := rfl
    off := fun u => SMap.get_induction (P := fun b : Ucb => b.st = .off) rfl (fun e he => by
      obtain ⟨a, -, ha⟩ := List.mem_filterMap.1 he
      split at ha <;> cases ha
      rfl) u
    seqs := rfl
    rings := rfl
    str := rfl
    net := rfl
    agg := rfl
    hours := rfl
    time := rfl
    hbm := fun h _ ha => State.warmMemory_hbm h ha }

theorem State.warmReset_warm (s : State) (cause : Nat) : Warm s (s.warmReset cause) := by
  obtain ⟨t, ht, h⟩ := s.warmReset_eq cause
  rw [h]
  have hb : Noted (fun _ => True) t t.bootDefaults := t.bootDefaults_noted.mono fun _ _ => trivial
  exact ht.of_noted ((hb.setObj trivial).trans ((State.dropToS1_noted _).mono fun _ _ => trivial))

theorem State.stage_warmReset (s : State) (cause : Nat) : (s.warmReset cause).stage ≤ 1 := State.stage_dropToS1 _

theorem State.cause_warmReset (s : State) {cause : Nat} (hc : cause < 2 ^ 64) :
    (s.warmReset cause).obj Obj.RESET_CAUSE = cause := by
  obtain ⟨t, -, h⟩ := s.warmReset_eq cause
  rw [h, (State.dropToS1_noted _).obj (by simp), State.obj_setObj_same, Nat.mod_eq_of_lt hc]

/-! Keeper resets. -/

/-- A fold of operations that keep a view of the state keeps it. -/
theorem foldl_keeps {α β : Type} (π : State → α) {f : State → β → State} (hf : ∀ u b, π (f u b) = π u) (l : List β) (s : State) :
    π (l.foldl f s) = π s := by
  induction l generalizing s with
  | nil => rfl
  | cons b l ih => exact (ih (f s b)).trans (hf s b)

/-- A view of the state that control blocks, objects and redirections do not enter is kept when the tests are aborted. -/
theorem State.stopTests_keeps {α : Type} (π : State → α) (hu : ∀ s u b, π (State.setUcb s u b) = π s)
    (ho : ∀ s key v, π (State.setObj s key v) = π s) (hh : ∀ s n x, π (State.setHand s n x) = π s) (s : State) :
    π s.stopTests = π s := by
  have ha : π s.abortTests = π s := by
    refine foldl_keeps π (fun u n => ?_) _ _
    dsimp only
    split
    · exact (ho _ _ _).trans ((ho _ _ _).trans (hu _ _ _))
    · rfl
  refine (foldl_keeps π (fun u n => ?_) _ _).trans ha
  split
  · split
    · exact (hh _ _ _).trans (hu _ _ _)
    · rfl
  · rfl

/-- A view of the state that the fabric's regions, its load and its windows do not enter is kept when a load is dropped. -/
theorem State.dropLoad_keeps {α : Type} (π : State → α) (hf : ∀ s : State, ∀ f, π { s with fab := f } = π s)
    (hm : ∀ s : State, ∀ w, π { s with mem := { s.mem with fabricWin := w } } = π s) (s : State) : π s.dropLoad = π s := by
  unfold State.dropLoad
  refine (hf _ _).trans ?_
  split
  · refine foldl_keeps π (fun u r => ?_) _ _
    simp only [State.clearRegion]
    split
    · exact (hm _ _).trans (hf _ _)
    · exact hf _ _
  · rfl

/-- Of a state, what the claims about keeper resets name: transports, the ERR_N latch, programs, the host link, memory's bytes. -/
def keeperView (s : State) := (s.oap.can, s.oap.t1s, s.oap.mbx, s.safety.errN, s.seqs, s.host, s.mem.cells)

/-- A keeper reset outside the safe state resets the transports and ERR_N, drops a load of the fabric and the tests, and stores its
cause (Table 2.8). -/
theorem State.keeperReset_eq {s : State} (hs : s.safety.safe = false) (cause : Nat) :
    ∃ t, keeperView t = ({}, {}, {}, false, s.seqs, s.host, s.mem.cells) ∧
      s.keeperReset cause = (t.dropLoad.stopTests.setObj Obj.RESET_CAUSE cause).forgetInlet := by
  refine ⟨_, ?_, (if_neg (by simp [hs])).trans rfl⟩
  rfl

theorem State.keeperView_keeperReset {s : State} (hs : s.safety.safe = false) (cause : Nat) :
    keeperView (s.keeperReset cause) = ({}, {}, {}, false, s.seqs, s.host, s.mem.cells) := by
  obtain ⟨t, ht, h⟩ := State.keeperReset_eq hs cause
  obtain ⟨c, hc⟩ := (t.dropLoad.stopTests.setObj Obj.RESET_CAUSE cause).forgetInlet_eq
  have hk (u : State) (v : Nat) : keeperView { u.setObj Obj.RESET_CAUSE v with cool := c } = keeperView u := rfl
  rw [h, hc, hk]
  calc keeperView t.dropLoad.stopTests
    _ = keeperView t.dropLoad := State.stopTests_keeps _ (fun _ _ _ => rfl) (fun _ _ _ => rfl) (fun _ _ _ => rfl) _
    _ = keeperView t := State.dropLoad_keeps _ (fun _ _ => rfl) (fun _ _ => rfl) _
    _ = _ := ht

theorem State.cause_keeperReset {s : State} {cause : Nat} (hc : cause < 2 ^ 64) (hs : s.safety.safe = false) :
    (s.keeperReset cause).obj Obj.RESET_CAUSE = cause := by
  obtain ⟨t, -, h⟩ := State.keeperReset_eq hs cause
  rw [h, State.obj_forgetInlet, State.obj_setObj_same, Nat.mod_eq_of_lt hc]

/-- In the safe state a keeper reset is a warm one (R757). -/
theorem State.keeperReset_of_safe {s : State} (hs : s.safety.safe = true) (cause : Nat) : s.keeperReset cause = s.warmReset cause := by
  rw [State.keeperReset, if_pos hs]

/-- Settles O8: the pin, the request and the safe state choose between the warm reset and the keeper reset. -/
theorem warmAndKeeperResets : Obligations.WarmAndKeeperResets := by
  unfold Obligations.WarmAndKeeperResets
  intro warm keeper
  have warm_of {s t : State} {cause : Nat} (h : Warm s t) (hc : t.obj Obj.RESET_CAUSE = cause) (hs : t.stage ≤ 1) :
      warm s cause t :=
    ⟨hc, h.live, hs, h.off, h.seqs, h.rings, h.str, h.net, h.agg, h.hours, h.time, h.hbm⟩
  have warm_withSup {s t : State} {cause : Nat} (h : warm s cause t) (x : Supply) : warm s cause { t with sup := x } := h
  have keeper_of {s t : State} {cause : Nat} (hc : t.obj Obj.RESET_CAUSE = cause)
      (h : keeperView t = ({}, {}, {}, false, s.seqs, s.host, s.mem.cells)) : keeper s cause t := by
    simp only [keeperView, Prod.mk.injEq] at h
    obtain ⟨hcan, ht1s, hmbx, herr, hseqs, hhost, hcells⟩ := h
    exact ⟨hc, hcan, ht1s, hmbx, herr, hseqs, hhost, fun a => by rw [State.byteAt, hcells]; rfl⟩
  have keeper_withSup {s t : State} {cause : Nat} (h : keeper s cause t) (x : Supply) : keeper s cause { t with sup := x } := h
  have warmReset (s : State) {cause : Nat} (hc : cause < 2 ^ 64) : warm s cause (s.warmReset cause) :=
    warm_of (s.warmReset_warm cause) (s.cause_warmReset hc) (s.stage_warmReset cause)
  have keeperReset {s : State} {cause : Nat} (hc : cause < 2 ^ 64) (hs : s.safety.safe = false) :
      keeper s cause (s.keeperReset cause) :=
    keeper_of (State.cause_keeperReset hc hs) (State.keeperView_keeperReset hs cause)
  refine ⟨fun s hcold => ?_, fun s hcold hheld hsafe => ?_, fun s hcold hheld hsafe => ?_, fun s hheld => ?_, fun s hcold hheld => ?_,
    fun s hcold hw => ?_, fun s v hcold hw hv hsafe => ?_⟩
  · exact .of_occ rfl (by simp [hcold]) (warmReset s (by decide))
  · refine ⟨_, ?_, warm_withSup (warmReset s (by decide)) { (s.warmReset 7).sup with keeperHeld := true }, rfl⟩
    show execKrstN s = _
    simp only [execKrstN, hheld, hcold, Bool.false_eq_true, if_false, State.keeperReset_of_safe hsafe]
  · refine ⟨_, ?_, keeper_withSup (keeperReset (by decide) hsafe) { (s.keeperReset 7).sup with keeperHeld := true }, rfl⟩
    show execKrstN s = _
    simp only [execKrstN, hheld, hcold, Bool.false_eq_true, if_false]
  · show execKrstN s = _
    simp only [execKrstN, hheld, if_true]
  · show execKrstN s = _
    simp only [execKrstN, hheld, hcold, Bool.false_eq_true, if_false, if_true]
  · refine ⟨_, ?_, warmReset s (by decide)⟩
    show execResetRequestApply s = _
    simp only [execResetRequestApply, hw, hcold, Bool.false_eq_true, if_false, if_true]
  · refine ⟨_, ?_, keeperReset (by decide) hsafe⟩
    show execResetRequestApply s = _
    simp only [execResetRequestApply, hw, hcold, hv, Bool.false_eq_true, if_false]

/-! The fundamental reset of the link. -/

theorem State.closeMbx_noted (s : State) : Noted (· = Obj.OAP_OVERRUNS) s s.closeMbx := .ite ((Noted.refl s).sendEvent rfl) (.refl s)

/-- Settles O9: the assertion rewrites the endpoint and each ring, and the release three registers. -/
theorem fundamentalResetOfTheLink : Obligations.FundamentalResetOfTheLink := by
  refine ⟨fun s hcold hperst => .of_occ rfl (by simp [hcold, hperst]) ?_, fun s hperst => .of_occ rfl hperst ?_⟩
  · have hn := s.closeMbx_noted
    generalize s.closeMbx = t at hn
    obtain ⟨_, _, _, _, _, _, _, rfl, -⟩ := hn
    refine ⟨rfl, rfl, rfl, rfl, rfl, rfl, rfl, fun n r hr => ?_, ?_⟩
    · obtain ⟨⟨m, x⟩, -, hx⟩ := List.mem_map.1 hr
      cases hx
      refine ⟨rfl, ?_⟩
      dsimp only
      split
      · exact .inl rfl
      · exact .inr rfl
    · exact (List.map_map ..).trans (List.map_congr_left fun _ _ => rfl)
  · exact ⟨rfl, rfl, rfl, rfl, rfl, rfl⟩

end Sys2Proof.Machine
end

section
/-!
The supply's bands: the view of the state that domains, engines, ports and lanes keep, and the steps that reach the supply's
record (R36, R38, R39, R41).
-/
namespace Sys2Proof.Machine
open Sys2Proof

/-! A view of the state that most operations keep: the supply, the bytes of memory, and VF Enable. -/

/-- The supply's record, the listed bytes of memory, and VF Enable. -/
def State.ground (s : State) : Supply × SMap Byte × Bool := (s.sup, s.mem.cells, s.host.vfEnable)

theorem State.ground_eq_iff {s t : State} :
    t.ground = s.ground ↔ t.sup = s.sup ∧ t.mem.cells = s.mem.cells ∧ t.host.vfEnable = s.host.vfEnable := by
  simp only [State.ground, Prod.mk.injEq]

/-- A branch keeps what both of its sides keep. -/
theorem State.ground_ite {s t u : State} {c : Prop} [Decidable c] (ht : t.ground = s.ground) (hu : u.ground = s.ground) :
    (if c then t else u).ground = s.ground := by split <;> assumption

@[simp] theorem State.ground_setObj (s : State) (key v : Nat) : (s.setObj key v).ground = s.ground := rfl
@[simp] theorem State.ground_bump (s : State) (key n : Nat) : (s.bump key n).ground = s.ground := rfl
@[simp] theorem State.ground_bump64 (s : State) (key n : Nat) : (s.bump64 key n).ground = s.ground := rfl
@[simp] theorem State.ground_setBlock (s : State) (key : Nat) (v : List Byte) : (s.setBlock key v).ground = s.ground := rfl
@[simp] theorem State.ground_setUcb (s : State) (u : Nat) (b : Ucb) : (s.setUcb u b).ground = s.ground := rfl
@[simp] theorem State.ground_setUnitSt (s : State) (u : Nat) (st : UState) : (s.setUnitSt u st).ground = s.ground := rfl
@[simp] theorem State.ground_emit (s : State) (o : Output) : (s.emit o).ground = s.ground := rfl
@[simp] theorem State.ground_setDom (s : State) (u : Nat) (d : Domain) : (s.setDom u d).ground = s.ground := rfl
@[simp] theorem State.ground_powerUp (s : State) (u : Nat) : (s.powerUp u).ground = s.ground := rfl
@[simp] theorem State.ground_setHand (s : State) (n : Nat) (h : Hand) : (s.setHand n h).ground = s.ground := rfl
@[simp] theorem State.ground_setEngine (s : State) (e : Nat) (x : Engine) : (s.setEngine e x).ground = s.ground := rfl
@[simp] theorem State.ground_setSlot (s : State) (q k : Nat) (t : Slot) : (s.setSlot q k t).ground = s.ground := rfl
@[simp] theorem State.ground_setRing (s : State) (n : Nat) (r : Ring) : (s.setRing n r).ground = s.ground := rfl
@[simp] theorem State.ground_setNi (s : State) (n : Nat) (x : Ni) : (s.setNi n x).ground = s.ground := rfl
@[simp] theorem State.ground_setStat (s : State) (i : Nat) (x : Stat) : (s.setStat i x).ground = s.ground := rfl
@[simp] theorem State.ground_setPhy (s : State) (n : Nat) (x : Phy) : (s.setPhy n x).ground = s.ground := rfl
@[simp] theorem State.ground_setLane (s : State) (n l : Nat) (x : Lane) : (s.setLane n l x).ground = s.ground := rfl
@[simp] theorem State.ground_setFab (s : State) (f : Fabric) : (s.setFab f).ground = s.ground := rfl
@[simp] theorem State.ground_sendCtl (s : State) (n op arg : Nat) : (s.sendCtl n op arg).ground = s.ground := rfl
@[simp] theorem State.ground_dropWaiter (s : State) (w : Waiter) : (s.dropWaiter w).ground = s.ground := rfl
@[simp] theorem State.ground_freeOutst (s : State) (node tc tag : Nat) : (s.freeOutst node tc tag).ground = s.ground := rfl

theorem State.ground_foldl {β : Type} {f : State → β → State} (hf : ∀ u b, (f u b).ground = u.ground) (l : List β) (s : State) :
    (l.foldl f s).ground = s.ground := foldl_keeps State.ground hf l s

theorem Noted.ground {K : Nat → Prop} {s t : State} (h : Noted K s t) : t.ground = s.ground := by
  obtain ⟨_, _, _, _, _, _, _, rfl, -⟩ := h
  rfl

/-! Errors that are not FATAL, and tests. -/

@[simp] theorem State.ground_raiseVector (s : State) (fn v : Nat) : (s.raiseVector fn v).ground = s.ground :=
  ((Noted.refl (K := fun _ => True) s).raiseVector).ground

@[simp] theorem State.ground_sendEvent (s : State) (code cls sub data related relSub status : Nat) :
    (s.sendEvent code cls sub data related relSub status).ground = s.ground :=
  ((Noted.refl (K := fun _ => True) s).sendEvent trivial).ground

@[simp] theorem State.ground_routeError (s : State) (src : Nat) : (s.routeError src).ground = s.ground := by
  simp only [State.routeError]
  split
  · rfl
  · rw [State.ground_raiseVector]
    exact State.ground_ite rfl rfl

@[simp] theorem State.ground_reportError (s : State) (src : Nat) (e : ErrInfo) : (s.reportError src e).ground = s.ground := by
  simp only [State.reportError]
  refine State.ground_ite ?_ rfl
  rw [State.ground_routeError, State.ground_sendEvent]
  rfl

/-- Only a FATAL error enters the safe state, which puts the memories into self-refresh (R755). -/
theorem State.ground_raise (s : State) {src : Nat} (e : ErrInfo) (h : sourceClass src ≠ .fatal) :
    (s.raise src e).ground = s.ground := by
  simp only [State.raise, beq_eq_false_iff_ne.2 h, Bool.false_eq_true, if_false]
  have hr : (((s.recordError src e).bump (classCounter (sourceClass src))).reportError src e).ground = s.ground :=
    (State.ground_reportError _ _ _).trans rfl
  exact State.ground_ite hr hr

@[simp] theorem State.ground_stopTests (s : State) : s.stopTests.ground = s.ground :=
  State.stopTests_keeps _ (fun _ _ _ => rfl) (fun _ _ _ => rfl) (fun _ _ _ => rfl) s

/-! Sending, chains and moves of units. -/

@[simp] theorem State.ground_countSent (s : State) (ag : Agent) (n : Nat) : (s.countSent ag n).ground = s.ground :=
  State.ground_ite rfl rfl

@[simp] theorem State.ground_chooseRoute (s : State) (node dst tc : Nat) : (s.chooseRoute node dst tc).2.ground = s.ground := by
  simp only [State.chooseRoute]
  split
  · split
    · rfl
    · exact State.ground_ite rfl rfl
  · rfl

theorem State.ground_send {s t : State} {p : Packet} {use : Use} (h : s.send p use = some t) : t.ground = s.ground := by
  simp only [State.send] at h
  have hr := s.ground_chooseRoute (agentNode p.agent) p.dst p.tc
  split at h
  · cases h
    exact (State.ground_countSent _ _ _).trans hr
  · split at h
    · cases h
    · split at h
      · cases h
      · cases h
        exact (State.ground_countSent _ _ _).trans hr

@[simp] theorem State.ground_cancelWait (s : State) (w : Waiter) (m : Nat) : (s.cancelWait w m).ground = s.ground := by
  simp only [State.cancelWait]
  split
  · rfl
  · split
    · next h => exact (State.ground_send h).trans rfl
    · rfl

@[simp] theorem State.ground_endChain (s : State) (e st : Nat) : (s.endChain e st).ground = s.ground := by
  unfold State.endChain
  extract_lets x st1 st2 s1 y s2 s3
  have h2 : s2.ground = s.ground := s.ground_cancelWait _ _
  have h3 : s3.ground = s.ground := State.ground_ite h2 h2
  refine State.ground_ite rfl (State.ground_ite ?_ h3)
  rw [State.ground_raise _ _ (by decide), State.ground_bump, h3]

@[simp] theorem State.ground_startDrain (s : State) (u : Nat) (t : UState) : (s.startDrain u t).ground = s.ground := by
  refine (State.ground_setDom _ _ _).trans (State.ground_foldl (fun v e => ?_) _ _)
  exact State.ground_ite rfl (v.ground_endChain _ _)

@[simp] theorem State.ground_loadShadow (s : State) (key v : Nat) : (s.loadShadow key v).ground = s.ground := by
  have h : (if blockBytes key = 0 then s.setObj key v else s.setBlock key (leBytes (blockBytes key) v)).ground = s.ground :=
    State.ground_ite rfl rfl
  exact State.ground_ite h h

@[simp] theorem State.ground_enterReady (s : State) (u : Nat) : (s.enterReady u).ground = s.ground := by
  simp only [State.enterReady, State.shadowLoad]
  exact State.ground_ite rfl (State.ground_foldl (fun v e => v.ground_loadShadow _ _) _ _)

@[simp] theorem State.ground_wake (s : State) (u : Nat) : (s.wake u).ground = s.ground := by
  simp only [State.wake]
  split
  · rfl
  · exact State.ground_ite rfl (State.ground_ite rfl rfl)
  · rfl
  · exact State.ground_ite rfl rfl

@[simp] theorem State.ground_unhood (s : State) (u : Nat) : (s.unhood u).ground = s.ground := by
  simp only [State.unhood]
  split
  · split
    · rfl
    · rfl
    · exact s.ground_enterReady u
  · exact s.ground_enterReady u

/-- A unit's move toward a state is a matter of its domain, its control block and its engines. -/
@[simp] theorem State.ground_moveUnit (s : State) (u : Nat) (t : UState) : (s.moveUnit u t).ground = s.ground := by
  simp only [State.moveUnit]
  refine State.ground_ite rfl ?_
  split
  · split
    · exact State.ground_ite rfl (s.ground_wake u)
    · exact State.ground_wake _ u
    · rfl
    · split
      · exact s.ground_unhood u
      · rfl
      · rfl
      · rfl
  · split
    · rfl
    · exact State.ground_ite (State.ground_ite rfl rfl) rfl
    · rfl
    · split
      · exact s.ground_startDrain u _
      · exact State.ground_ite rfl rfl
      · exact State.ground_ite rfl (State.ground_ite rfl rfl)
      · exact State.ground_ite rfl (State.ground_ite rfl rfl)
      · rfl

@[simp] theorem State.ground_unpark (s : State) (u : Nat) : (s.unpark u).ground = s.ground := by
  have h : (if (s.dom u).fullNs = 0 then s
      else s.bump64 Obj.WAKE_FULL_CYCLES (s.nclk (s.timeNs - ((s.dom u).fullNs - 1)))).ground = s.ground := State.ground_ite rfl rfl
  exact h

/-! Ports and lanes. -/

@[simp] theorem State.ground_txWake (s : State) (n : Nat) : (s.txWake n).ground = s.ground := State.ground_ite rfl rfl

@[simp] theorem State.ground_sendFlit (s : State) (n : Nat) (p : Packet) : (s.sendFlit n p).ground = s.ground := s.ground_txWake n

@[simp] theorem State.ground_pumpQueue (n : Nat) (ps : List Packet) (stuck : List Nat) (left : List Packet) (s : State) :
    (State.pumpQueue n ps stuck left s).ground = s.ground := by
  induction ps generalizing stuck left s with
  | nil => rfl
  | cons p ps ih =>
    unfold State.pumpQueue
    exact State.ground_ite (ih _ _ _) ((ih _ _ _).trans (s.ground_sendFlit n p))

@[simp] theorem State.ground_linkPump (s : State) (n : Nat) : (s.linkPump n).ground = s.ground :=
  State.ground_ite (State.ground_pumpQueue _ _ _ _ _) rfl

@[simp] theorem State.ground_openPort (s : State) (u : Nat) : (s.openPort u).ground = s.ground := by
  refine State.ground_ite (State.ground_ite ?_ rfl) rfl
  exact State.ground_ite (State.ground_linkPump _ _) rfl

@[simp] theorem State.ground_lanesSleep (s : State) : s.lanesSleep.ground = s.ground := by
  unfold State.lanesSleep
  refine State.ground_foldl (fun u n => ?_) _ s
  exact State.ground_ite rfl rfl

@[simp] theorem State.ground_mapLanes (s : State) (n mask : Nat) (f : Nat → Lane → Lane) : (s.mapLanes n mask f).ground = s.ground := by
  unfold State.mapLanes
  refine State.ground_foldl (fun u l => ?_) _ s
  exact u.ground_setLane _ _ _

@[simp] theorem State.ground_lanesTo (s : State) (st : Nat) : (s.lanesTo st).ground = s.ground := by
  refine State.ground_foldl (fun u n => State.ground_ite rfl ?_) _ s
  exact State.ground_ite (u.ground_mapLanes _ _ _) (u.ground_mapLanes _ _ _)

/-! The supply's bands. -/

@[simp] theorem State.ground_takeHeldData (s : State) : s.takeHeldData.ground = s.ground := by
  refine State.ground_ite rfl (State.ground_foldl (fun u v => ?_) _ _)
  simp only [State.cfgData]
  split
  · rfl
  · split
    · rfl
    · split <;> rfl

@[simp] theorem State.ground_bandWake (s : State) (u : Nat) : (s.bandWake u).ground = s.ground := by
  simp only [State.bandWake]
  split
  · exact State.ground_ite rfl rfl
  · split
    · simp
    · simp
    · refine State.ground_ite ?_ ?_ <;> simp
    · refine State.ground_ite (by simp) (State.ground_ite (by simp) (State.ground_ite ?_ ?_)) <;> simp
    · refine State.ground_ite (by simp) (State.ground_ite (by simp) (State.ground_ite ?_ ?_)) <;> simp
    · refine State.ground_ite (by simp) (State.ground_ite (by simp) (State.ground_ite ?_ ?_)) <;> simp
    · rfl

/-- What the band in effect asks for: nothing, the MEWS entry where the device is not in MEWS, or the exit where it is (R41). -/
theorem State.ground_followBand (s : State) :
    s.followBand.ground = s.ground ∨
      (s.sup.inMews = false ∧ s.followBand.ground = State.ground { s with sup := { s.sup with entryRunning := true } }) ∨
      (s.sup.inMews = true ∧ s.followBand.ground = State.ground { s with sup := { s.sup with exitRunning := true } }) := by
  simp only [State.followBand]
  split
  · exact .inl rfl
  · next h =>
    have hm : s.sup.inMews ≠ (s.sup.band == .hold || s.sup.band == .over) := by
      intro hm
      simp [hm] at h
    split
    · next hw =>
      refine .inr (.inl ⟨by simpa [hw] using hm, ?_⟩)
      have ht := s.ground_stopTests
      simp only [State.ground_eq_iff] at ht
      obtain ⟨-, hcells, hvf⟩ := ht
      simp only [State.startEntry, State.ground_lanesSleep]
      simp only [State.ground, hcells, hvf]
    · next hw => exact .inr (.inr ⟨by simpa [hw] using hm, rfl⟩)

/-- A band that is entered is kept, with the level and the cold reset, and no byte of memory changes. -/
theorem State.followBand_entered (s : State) :
    s.followBand.sup.band = s.sup.band ∧ s.followBand.sup.vinMv = s.sup.vinMv ∧
      s.followBand.sup.coldReset = s.sup.coldReset ∧ s.followBand.mem.cells = s.mem.cells := by
  rcases s.ground_followBand with h | ⟨-, h⟩ | ⟨-, h⟩ <;> obtain ⟨hs, hc, -⟩ := State.ground_eq_iff.1 h <;> simp [hs, hc]

@[simp] theorem State.sup_resetUnit (s : State) (u : Nat) : (s.resetUnit u).sup = s.sup := by
  unfold State.resetUnit
  extract_lets lo hi out m t n
  have ht : t.sup = s.sup := by
    dsimp only [t]
    split <;> rfl
  split <;> exact ht

@[simp] theorem State.sup_bandMews (s : State) (u : Nat) : (s.bandMews u).sup = s.sup := by
  have h : (if (s.dom u).phase == .up && (s.ucb u).st == .off then s.resetUnit u else s).sup = s.sup := by
    split <;> simp
  exact h

/-- The state of a band that is entered, before the device follows it. -/
def State.inBand (s : State) (band : VinBand) (vin : VinLevel) : State :=
  let s := (s.setVin (min vin.low vin.now)).setVin vin.now
  { s with sup := { s.sup with band := band } }

/-- What counts the entry into a band. -/
def State.countEntry (s : State) : VinBand → State
  | .full => s
  | .reduced => s.bump Obj.REDUCED_ENTRIES
  | .hold => s.bump Obj.HOLD_ENTRIES
  | .over => (s.bump Obj.OVER_ENTRIES).raise Es.vinOv

@[simp] theorem State.ground_countEntry (s : State) (band : VinBand) : (s.countEntry band).ground = s.ground :=
  match band with
  | .over => (State.ground_raise _ {} (by decide)).trans rfl
  | .full | .reduced | .hold => rfl

theorem execVinBandEntry_eq (s : State) (band : VinBand) (vin : VinLevel) :
    execVinBandEntry band vin s =
      occ (!s.sup.coldReset && bandCrossed s.sup.band band vin.now) s ((s.inBand band vin).countEntry band).followBand.takeHeldData := by
  cases band <;> rfl

/-- The domains in MEWS: the supply's record and the lanes follow (R38). -/
def State.mewsEntered (s : State) : State :=
  ({ s with sup := { s.sup with entryRunning := false, inMews := true, selfRefresh := true } } : State).lanesTo 2

/-- The supply's record at the end of MEWS, before the domains return (R39). -/
def State.mewsLeft (s : State) : State :=
  { s with sup := { s.sup with exitRunning := false, inMews := false, selfRefresh := false } }

theorem State.sup_mewsEntered (s : State) :
    s.mewsEntered.sup = { s.sup with entryRunning := false, inMews := true, selfRefresh := true } :=
  (State.ground_eq_iff.1 (State.ground_lanesTo _ 2)).1

/-- The domains of the units that the device has. -/
def State.ownDomains (s : State) : List Nat := (List.range 201).filter fun u => s.available u

theorem execMewsEntryComplete_eq (s : State) : execMewsEntryComplete s =
    occ s.sup.entryRunning s (s.ownDomains.foldl State.bandMews s).mewsEntered.followBand := rfl

theorem execMewsExitComplete_eq (s : State) : execMewsExitComplete s =
    occ s.sup.exitRunning s ((s.mewsLeft.ownDomains.foldl State.bandWake s.mewsLeft).lanesTo 0).followBand := rfl

/-- Settles O10: of what a band, an entry or an exit does, only the supply's own steps reach its record. -/
theorem supplyBandsTakeEffect : Obligations.SupplyBandsTakeEffect := by
  refine ⟨fun s band vin hcold hb => .of_occ (execVinBandEntry_eq s band vin) (by simp [hcold, hb]) ?_,
    fun s hrun => .of_occ (execMewsEntryComplete_eq s) hrun ?_, fun s hrun => .of_occ (execMewsExitComplete_eq s) hrun ?_⟩
  · obtain ⟨hsup, hcells, -⟩ := State.ground_eq_iff.1 ((s.inBand band vin).ground_countEntry band)
    generalize (s.inBand band vin).countEntry band = x at hsup hcells ⊢
    obtain ⟨hsup', hcells', -⟩ := State.ground_eq_iff.1 x.followBand.ground_takeHeldData
    obtain ⟨hband, hmv, hc, hm⟩ := x.followBand_entered
    refine ⟨?_, ?_, fun a => ?_, ?_⟩
    · rw [hsup', hband, hsup]
      rfl
    · rw [hsup', hmv, hsup]
      rfl
    · rw [State.byteAt, hcells', hm, hcells]
      rfl
    · rw [hsup', hc, hsup]
      exact hcold
  · have hsup := foldl_keeps State.sup State.sup_bandMews s.ownDomains s
    generalize s.ownDomains.foldl State.bandMews s = x at hsup ⊢
    have hx : x.mewsEntered.sup = { s.sup with entryRunning := false, inMews := true, selfRefresh := true } :=
      hsup ▸ x.sup_mewsEntered
    generalize x.mewsEntered = y at hx ⊢
    rcases y.ground_followBand with h | ⟨hm, -⟩ | ⟨-, h⟩
    · simp [(State.ground_eq_iff.1 h).1, hx]
    · simp [hx] at hm
    · simp [(State.ground_eq_iff.1 h).1, hx]
  · have hsup := State.ground_eq_iff.1 ((State.ground_lanesTo _ 0).trans
      (State.ground_foldl State.ground_bandWake s.mewsLeft.ownDomains s.mewsLeft))
    obtain ⟨hy, -, -⟩ := hsup
    generalize (s.mewsLeft.ownDomains.foldl State.bandWake s.mewsLeft).lanesTo 0 = y at hy ⊢
    rcases y.ground_followBand with h | ⟨-, h⟩ | ⟨hm, -⟩
    · simp [(State.ground_eq_iff.1 h).1, hy, State.mewsLeft]
    · simp [(State.ground_eq_iff.1 h).1, hy, State.mewsLeft]
    · simp [hy, State.mewsLeft] at hm

end Sys2Proof.Machine
end

section
/-!
Writes of objects: what settles a write, and the effect of each object of an index (R104, R453).
-/
namespace Sys2Proof.Machine
open Sys2Proof

/-! Writes of objects: what they derive, and the objects of an index. -/

section
variable {K : Nat → Prop} {s t : State}

theorem Noted.safety (h : Noted K s t) : t.safety = s.safety := by
  obtain ⟨_, _, _, _, _, _, _, rfl, -⟩ := h
  rfl

theorem Noted.tiles (h : Noted K s t) : t.tiles = s.tiles := by
  obtain ⟨_, _, _, _, _, _, _, rfl, -⟩ := h
  rfl

theorem Noted.cat (h : Noted K s t) : t.cat = s.cat := by
  obtain ⟨_, _, _, _, _, _, _, rfl, -⟩ := h
  rfl

theorem Noted.str (h : Noted K s t) : t.str = s.str := by
  obtain ⟨_, _, _, _, _, _, _, rfl, -⟩ := h
  rfl

theorem Noted.ev (h : Noted K s t) : t.ev = s.ev := by
  obtain ⟨_, _, _, _, _, _, _, rfl, -⟩ := h
  rfl

theorem Noted.cool (h : Noted K s t) : t.cool = s.cool := by
  obtain ⟨_, _, _, _, _, _, _, rfl, -⟩ := h
  rfl

theorem Noted.expertKey (h : Noted K s t) : t.oap.key = s.oap.key ∧ t.oap.programs = s.oap.programs := by
  obtain ⟨_, _, _, _, _, _, _, rfl, -⟩ := h
  exact ⟨rfl, rfl⟩

end

/-- The objects that a settled write of `key` changes: those it derives, and the count of events lost. -/
def SettledWith (key v k : Nat) : Prop := k = Obj.OAP_OVERRUNS ∨ k ∈ (derived key v).map Prod.fst

/-- The state with the derived values of a write in place (R104). -/
def State.derive (s : State) (key v : Nat) : State := (derived key v).foldl (fun s e => s.setObj e.1 e.2) s

/-- Settling a write derives its values, and of the objects changes nothing more but the count of events lost. -/
theorem State.settleOverride_derive (s : State) (key v : Nat) :
    ∃ sh, Noted (· = Obj.OAP_OVERRUNS) (State.derive { s with oap := { s.oap with shadow := sh } } key v) (s.settleOverride key v) := by
  unfold State.settleOverride
  extract_lets oap replaced s1 s2 s3 oap' s4
  refine ⟨s1.oap.shadow, ?_⟩
  show Noted _ s2 _
  have h3 : Noted (· = Obj.OAP_OVERRUNS) s2 s3 := .ite (.foldl (.refl s2) fun u r _ => (Noted.refl u).setBlock) (.refl s2)
  have h4 : Noted (· = Obj.OAP_OVERRUNS) s2 s4 := .ite (Noted.sendEvent (h3.trans ⟨_, _, _, _, _, _, _, rfl, fun _ _ => rfl⟩) rfl) h3
  split
  · exact h4
  · exact Noted.sendEvent (h4.trans ⟨_, _, _, _, _, _, _, rfl, fun _ _ => rfl⟩) rfl

theorem State.settleOverride_noted (s : State) (key v : Nat) : Noted (SettledWith key v) s (s.settleOverride key v) := by
  obtain ⟨sh, h⟩ := s.settleOverride_derive key v
  have hs : Noted (SettledWith key v) s { s with oap := { s.oap with shadow := sh } } := ⟨_, _, _, _, _, _, _, rfl, fun _ _ => rfl⟩
  exact (hs.foldl fun u e he => (Noted.refl u).setObj (.inr (List.mem_map_of_mem he))).trans (h.mono fun _ => .inl)

/-- The state in which an applied write has its effect: an older value in the shadow is gone. -/
def State.unshadow (s : State) (key : Nat) : State := { s with oap := { s.oap with shadow := SMap.set 0 s.oap.shadow key 0 } }

theorem State.applyObj_eq (s : State) (key : Nat) (bs : List Byte) : s.applyObj key bs =
    if ((s.unshadow key).effect key (ofLE bs) bs).1 < 0x10 then
      (((s.unshadow key).effect key (ofLE bs) bs).1, ((s.unshadow key).effect key (ofLE bs) bs).2.settleOverride key (ofLE bs))
    else (s.unshadow key).effect key (ofLE bs) bs := rfl

/-- An applied write is its object's effect, and what settles it. -/
theorem State.applyObj_noted {s t : State} {key : Nat} {bs : List Byte}
    (h : (s.unshadow key).effect key (ofLE bs) bs = (Sc.ok, t)) : Noted (SettledWith key (ofLE bs)) t (s.applyObj key bs).2 := by
  have he : s.applyObj key bs = (Sc.ok, t.settleOverride key (ofLE bs)) := by
    rw [s.applyObj_eq key bs, h]
    rfl
  rw [he]
  exact t.settleOverride_noted key _

/-- A plain object holds what a write of it names, where the write derives nothing in its place. -/
theorem State.obj_applyObj {s : State} {key : Nat} {bs : List Byte}
    (h : (s.unshadow key).effect key (ofLE bs) bs = (Sc.ok, (s.unshadow key).setObj key (ofLE bs)))
    (hk : ¬ SettledWith key (ofLE bs) key) : (s.applyObj key bs).2.obj key = ofLE bs % 2 ^ 64 := by
  rw [(State.applyObj_noted h).obj hk, State.obj_setObj_same]

/-- The write of POWER_CAP settles with what it derives: the cap of REDUCED and the window (R104). -/
theorem State.settleOverride_powerCap (s : State) (v : Nat) :
    (s.settleOverride Obj.POWER_CAP v).obj Obj.REDUCED_CAP_W = min v 250 ∧
      (s.settleOverride Obj.POWER_CAP v).obj Obj.CAP_WINDOW_US = 1000 := by
  obtain ⟨sh, h⟩ := s.settleOverride_derive Obj.POWER_CAP v
  rw [h.obj (by decide), h.obj (by decide)]
  refine ⟨(State.obj_setObj_other _ _ _ _ (by decide)).trans ((State.obj_setObj_same _ _ _).trans ?_),
    (State.obj_setObj_same _ _ _).trans ?_⟩ <;> omega

/-! Objects of an index. -/

theorem ne_of_index {key i : Nat} (hi : key / 256 = i) {x : Nat} (hx : x / 256 ≠ i) : ¬ key = x := fun h => hx (h ▸ hi)

theorem classCount_le {cls : Nat} (h : cls < 12) : classCount cls ≤ 64 := by
  revert cls
  decide

section
variable (s : State) {key n : Nat} (v : Nat) (bs : List Byte)

theorem effect_unitReq {c : Nat} (hi : key / 256 = 0x2300 + c) (hn : key % 256 - 1 = n) (hc : c < 12) :
    s.effect key v bs = (Sc.ok, s.applyUnitReq (unitOf c n) v) := by
  have hd : (0x2300 + c) / 256 = 0x23 := by omega
  have hm : (0x2300 + c) % 256 = c := by omega
  simp only [State.effect, hi, hn, hd, hm, if_true]

theorem effect_unitDomain {c : Nat} (hi : key / 256 = 0x2820 + c) (hn : key % 256 - 1 = n) (hc : c < 12) :
    s.effect key v bs = (Sc.ok, s.applyUnitDomain (unitOf c n) v) := by
  have hd : (0x2820 + c) / 256 = 0x28 := by omega
  have h1 : ¬ key = Obj.SPARE_STATE := ne_of_index hi (by unfold Obj.SPARE_STATE; omega)
  have h2 : ¬ key = Obj.EPOCH_MARK_MGMT := ne_of_index hi (by unfold Obj.EPOCH_MARK_MGMT; omega)
  have h3 : ¬ 0x2820 + c = 0x2401 := by omega
  simp [State.effect, hi, hn, hd, h1, h2, h3]

theorem effect_mxtRole (hi : key / 256 = 0x2401) (hn : key % 256 - 1 = n) : s.effect key v bs = (Sc.ok, s.applyRole n v) := by
  simp [State.effect, hi, hn]

theorem effect_phLinkEnable (hi : key / 256 = 0x2E80) (hn : key % 256 - 1 = n) :
    s.effect key v bs = (Sc.ok, s.applyPhLinkEnable n v) := by
  have h : ∀ x, x / 256 ≠ 0x2E80 → ¬ key = x := fun _ => ne_of_index hi
  simp (disch := decide) [State.effect, hi, hn, h]

theorem effect_spRule {p : Nat} (hi : key / 256 = 0x4710 + p) (hn : key % 256 - 1 = n) (hp : p < 8) :
    s.effect key v bs = s.ruleWrite p n (fieldLE bs 0 8) (fieldLE bs 8 8) (fieldLE bs 16 8) := by
  have h : ∀ x, x / 256 < 0x4710 → ¬ key = x := fun x hx => ne_of_index hi (by omega)
  have hd : (0x4710 + p) / 256 = 0x47 := by omega
  have hr : 0x4710 + p ≤ 0x4717 := by omega
  have h1 : ¬ 0x4710 + p = 0x2401 := by omega
  have h2 : ¬ 0x4710 + p = 0x2E00 := by omega
  have h3 : ¬ 0x4710 + p = 0x2E80 := by omega
  simp (disch := decide) [State.effect, hi, hn, h, hd, hr, h1, h2, h3]

theorem effect_patternCtrl (hi : key / 256 = 0x4E07) (hn : key % 256 - 1 = n) :
    s.effect key v bs = (Sc.ok, s.applyPatternCtrl n v) := by
  have h : ∀ x, x / 256 ≠ 0x4E07 → ¬ key = x := fun _ => ne_of_index hi
  simp (disch := decide) [State.effect, hi, hn, h]

theorem effect_laneInject (hi : key / 256 = 0x4E09) (hn : key % 256 - 1 = n) :
    s.effect key v bs = (Sc.ok, s.applyLaneInject n v) := by
  have h : ∀ x, x / 256 ≠ 0x4E09 → ¬ key = x := fun _ => ne_of_index hi
  simp (disch := decide) [State.effect, hi, hn, h]

/-- UNDERSTUDY, ED_SOURCE, FP_CTX and DEV_ROUTE have no effect beyond their value. -/
theorem effect_plain {i : Nat} (hi : key / 256 = i) (h : i ∈ [0x2402, 0x2810, 0x2D01, 0x2E81, 0x2E82]) :
    s.effect key v bs = (Sc.ok, s.setObj key v) := by
  have hne : ∀ x, x / 256 ≠ i → ¬ key = x := fun _ => ne_of_index hi
  simp only [List.mem_cons, List.not_mem_nil, or_false] at h
  rcases h with rfl | rfl | rfl | rfl | rfl <;> simp (disch := decide) [State.effect, hi, hne]

end

/-- A repair that is asked for waits in its tile for the keeper (R453). -/
theorem tile_carryOut_repair (s : State) (who : Asker) {n key : Nat} (row : ORow) (bs : List Byte) (hi : key / 256 = 0x4410)
    (hn : key % 256 - 1 = n) : (s.carryOut who key row bs).tile n = { s.tile n with repair := some (ofLE bs, some who) } := by
  have h : ¬ key = Obj.PROFILE_APPLY := ne_of_index hi (by decide)
  simp [State.carryOut, hi, hn, h, State.startRepair]

/-- A write of an object that derives nothing in its own place. -/
theorem not_settledWith_self {key v : Nat} (h : derived key v = []) (hk : key ≠ Obj.OAP_OVERRUNS) : ¬ SettledWith key v key := by
  simp [SettledWith, h, hk]

/-- Settles O30: a written object has its effect, and settling the write changes what it derives and what an event changes. -/
theorem objectWritesAct : Obligations.ObjectWritesAct := by
  unfold Obligations.ObjectWritesAct
  intro s bs v after
  have plain (key : Nat) (h : (s.unshadow key).effect key v bs = (Sc.ok, (s.unshadow key).setObj key v))
      (hd : derived key v = []) (hk : key ≠ Obj.OAP_OVERRUNS) : (after key).obj key = v % 2 ^ 64 :=
    State.obj_applyObj h (not_settledWith_self hd hk)
  have acts (key : Nat) {t : State} (h : (s.unshadow key).effect key v bs = (Sc.ok, t)) : Noted (SettledWith key v) t (after key) :=
    State.applyObj_noted h
  refine ⟨?identity, ?powerCap, (acts Obj.EXPERT_KEY rfl).expertKey, fun hv => ?reset, ?limits, fun hv => ?errN, ?injected,
    fun hv => ?armed, ?stall, ?inlet, ⟨rfl, rfl, rfl, rfl, rfl, rfl, rfl, rfl⟩, fun c n hc hn => ?units, fun n hn => ?tiles,
    fun d hd => ?source, fun n hn => ?link, fun n hn => ?port, fun i hi => ?lanes, fun d hd => ?route, fun p hp r hr => ?rule,
    fun who row => rfl, fun who row n hn _ => ?repair⟩
  case identity => exact ⟨plain _ rfl rfl (by decide), plain _ rfl rfl (by decide)⟩
  case powerCap =>
    have hcap := State.settleOverride_powerCap ((s.unshadow Obj.POWER_CAP).setObj Obj.POWER_CAP v) v
    exact ⟨State.obj_applyObj rfl (by simp [SettledWith, derived]), hcap.2, hcap.1⟩
  case reset =>
    refine (congrArg Supply.resetWaits (acts Obj.RESET_REQUEST rfl).sup).trans ?_
    rw [if_neg hv]
  case limits =>
    exact ⟨plain _ rfl rfl (by decide), plain _ rfl rfl (by decide), plain _ rfl rfl (by decide), plain _ rfl rfl (by decide)⟩
  case errN =>
    refine (congrArg Safety.errN (acts Obj.ERR_N_CLEAR rfl).safety).trans ?_
    rw [if_pos hv]
  case injected =>
    exact ⟨congrArg Tiles.inject (acts Obj.FAULT_INJECT rfl).tiles, congrArg Tiles.vxInject (acts Obj.VXT_EXC_INJECT rfl).tiles,
      congrArg Cipher.inject (acts Obj.CAT_INJECT rfl).cat⟩
  case armed =>
    constructor
    · refine (congrArg (fun e : Events => (SMap.get {} e.sps (bits v 0 3)).armed) (acts Obj.SP_INJECT rfl).ev).trans ?_
      simp [State.applySpInject, hv, State.setSp]
    · refine (congrArg (fun e : Streams => (SMap.get {} e.engines (bits v 0 9)).armed) (acts Obj.POISON_INJECT rfl).str).trans ?_
      simp [State.applyPoisonInject, hv, State.setEngine]
  case stall => exact congrArg Streams.stallSnap (acts Obj.STALL_SELECT rfl).str
  case inlet =>
    have h := (acts Obj.COOLANT_INLET_DC rfl).cool
    exact ⟨congrArg Cooling.inletInUse h, congrArg Cooling.fallback h⟩
  case units =>
    dsimp only [Obj.UNIT_REQ, Obj.UNIT_DOMAIN]
    have hn' := hn.trans_le (classCount_le hc)
    exact ⟨effect_unitReq s v bs (by omega) (by omega) hc, effect_unitDomain s v bs (by omega) (by omega) hc⟩
  case tiles =>
    dsimp only [Obj.MXT_ROLE, Obj.UNDERSTUDY]
    exact ⟨effect_mxtRole s v bs (by omega) (by omega), effect_plain s v bs (i := 0x2402) (by omega) (by decide)⟩
  case source =>
    dsimp only [Obj.ED_SOURCE]
    exact effect_plain s v bs (i := 0x2810) (by omega) (by decide)
  case link =>
    dsimp only [Obj.PH_LINK_ENABLE]
    exact effect_phLinkEnable s v bs (by omega) (by omega)
  case port =>
    dsimp only [Obj.FP_CTX]
    exact effect_plain s v bs (i := 0x2D01) (by omega) (by decide)
  case lanes =>
    dsimp only [Obj.PATTERN_CTRL, Obj.INJECT]
    exact ⟨effect_patternCtrl s v bs (by omega) (by omega), effect_laneInject s v bs (by omega) (by omega)⟩
  case route =>
    by_cases h : d < 128
    · exact effect_plain s v bs (i := 0x2E81) (by simp only [if_pos h]; omega) (by decide)
    · exact effect_plain s v bs (i := 0x2E82) (by simp only [if_neg h]; omega) (by decide)
  case rule =>
    dsimp only [Obj.SP_RULE]
    exact effect_spRule s v bs (by omega) (by omega) hp
  case repair =>
    dsimp only [Obj.REPAIR_REQUEST]
    exact tile_carryOut_repair s who row bs (by omega) (by omega)

end Sys2Proof.Machine
end

section
/-!
The host link: the configuration header, the link's return, function resets, and register accesses in their turn (R55, R141,
R143, R172, R180).
-/
namespace Sys2Proof.Machine
open Sys2Proof

/-! The host link: the configuration header, the link's return, and what waits for it. -/

theorem State.hostUp_iff {s : State} : s.hostUp = true ↔ s.host.linkUp = true ∧ 2 ≤ s.stage ∧ s.safety.safe = false := by
  simp [State.hostUp, and_assoc]

section
variable {s : State} {fn : Nat} (f : CfgField)

theorem execPcieConfigRequest_write (v : Nat) (hup : s.hostUp = true) (hfn : s.fnExists fn = true) :
    execPcieConfigRequest fn f (some v) s = .next ((s.cfgSet fn f v).emit (.cfgAnswer false 0)) := by
  obtain ⟨hlink, hstage, hsafe⟩ := State.hostUp_iff.1 hup
  simp [execPcieConfigRequest, hsafe, hlink, hfn, Nat.not_lt.2 hstage]

theorem execPcieConfigRequest_read (hup : s.hostUp = true) (hfn : s.fnExists fn = true) :
    execPcieConfigRequest fn f none s = .next ((s.cfgValue fn f).2.emit (.cfgAnswer false (s.cfgValue fn f).1)) := by
  obtain ⟨hlink, hstage, hsafe⟩ := State.hostUp_iff.1 hup
  simp [execPcieConfigRequest, hsafe, hlink, hfn, Nat.not_lt.2 hstage]

end

/-- `t` is `s` but for what completions and messages change: what has left the chip, the rings, the completions that wait, and
the vectors. -/
def Delivered (s t : State) : Prop :=
  ∃ o rs cb vs, t = { s with out := o, host := { s.host with rings := rs, cplBuf := cb, vectors := vs } }

section
variable {s t u : State}

theorem Delivered.refl (s : State) : Delivered s s := ⟨_, _, _, _, rfl⟩

theorem Delivered.trans (h : Delivered s t) (h' : Delivered t u) : Delivered s u := by
  obtain ⟨o, rs, cb, vs, rfl⟩ := h
  obtain ⟨o', rs', cb', vs', rfl⟩ := h'
  exact ⟨o', rs', cb', vs', rfl⟩

theorem Delivered.ite {c : Prop} [Decidable c] (h : Delivered s t) (h' : Delivered s u) : Delivered s (if c then t else u) := by
  split <;> assumption

theorem Delivered.foldl {β : Type} {f : State → β → State} {l : List β} (h : Delivered s t) (hf : ∀ u b, Delivered u (f u b)) :
    Delivered s (l.foldl f t) := by
  induction l generalizing t with
  | nil => exact h
  | cons b l ih => exact ih (h.trans (hf t b))

theorem Delivered.emit (s : State) (x : Output) : Delivered s (s.emit x) := ⟨_, _, _, _, rfl⟩
theorem Delivered.setVec (s : State) (fn v : Nat) (x : Vector_) : Delivered s (s.setVec fn v x) := ⟨_, _, _, _, rfl⟩
theorem Delivered.setRing (s : State) (n : Nat) (r : Ring) : Delivered s (s.setRing n r) := ⟨_, _, _, _, rfl⟩

theorem Delivered.raiseVector (s : State) (fn v : Nat) : Delivered s (s.raiseVector fn v) :=
  .ite (.ite (.setVec ..) (.emit ..)) (.refl s)

theorem Delivered.writeCpl (s : State) (cq : Nat) (bs : List Byte) (irq : Bool) : Delivered s (s.writeCpl cq bs irq) :=
  .ite (((Delivered.emit ..).trans (.setRing ..)).trans (.raiseVector ..)) ((Delivered.emit ..).trans (.setRing ..))

theorem Delivered.drainCpls (s : State) : Delivered s s.drainCpls := by
  unfold State.drainCpls
  extract_lets keep
  have hkeep (u : State) (w : WaitingCpl) : Delivered u (keep u w) := ⟨_, _, _, _, rfl⟩
  refine .foldl ⟨_, _, _, _, rfl⟩ fun u w => ?_
  exact .ite (hkeep u w) (.ite ((Delivered.ite (.refl u) (.setRing ..)).trans (hkeep _ _)) (.writeCpl ..))

theorem Delivered.sendPending (s : State) (fn : Nat) : Delivered s (s.sendPending fn) :=
  .foldl (.refl s) fun u _ => .ite (.refl u) ((Delivered.setVec ..).trans (.emit ..))

end

/-- The link up, before what has waited goes out (R172). -/
def State.linked (s : State) (rate width : Nat) : State :=
  { s with host := { s.host with linkUp := true, rate := rate, width := width, fresh := false } }

/-- The count of the link's returns. -/
def State.countReturn (s : State) : State := if s.host.fresh then s else s.bump Obj.PCIE_RETRAINS

theorem State.countReturn_noted (s : State) : Noted (· = Obj.PCIE_RETRAINS) s s.countReturn :=
  .ite (.refl s) ((Noted.refl s).setObj rfl)

theorem State.linkReturns_delivered (s : State) (rate width : Nat) : Delivered (s.countReturn.linked rate width) (s.linkReturns rate width) :=
  .foldl (.drainCpls _) fun u fn => .sendPending u fn

/-- The link's return shows its rate and width, and keeps what waits in turn, the programs, memory and the limits of the link. -/
theorem State.linkReturns_kept (s : State) (rate width : Nat) :
    let t := s.linkReturns rate width
    t.host.linkUp = true ∧ t.host.rate = rate ∧ t.host.width = width ∧ t.host.held = s.host.held ∧ t.seqs = s.seqs ∧
      t.mem = s.mem ∧ t.obj Obj.PCIE_MAX_RATE = s.obj Obj.PCIE_MAX_RATE := by
  intro t
  have ht : Delivered (s.countReturn.linked rate width) t := s.linkReturns_delivered rate width
  obtain ⟨o, rs, cb, vs, ht⟩ := ht
  obtain ⟨_, _, _, _, _, _, _, hu, hobj⟩ := s.countReturn_noted
  generalize s.countReturn = u at ht hu hobj
  rw [ht]
  refine ⟨rfl, rfl, rfl, ?_, ?_, ?_, hobj _ (by decide)⟩ <;> rw [hu] <;> rfl

theorem bit_setBits_low (v x : Nat) : bit (setBits v 12 1 x % 2 ^ 64) 12 = (x % 2 == 1) := by
  have h : setBits v 12 1 x % 2 ^ 64 / 2 ^ 12 % 2 = x % 2 := by
    unfold setBits
    omega
  rw [bit, h]

/-- PCIE_REDUCED says that the link is below sixteen lanes, or below the rate that both its ends and PCIE_MAX_RATE allow. -/
theorem State.pcieReduced_spec (s : State) (common : Nat) :
    (bit ((s.pcieReduced common).obj Obj.STAGE_FAULTS) 12 = true ↔
      s.host.width < 16 ∨ s.host.rate < min common (s.obj Obj.PCIE_MAX_RATE)) ∧
      (s.pcieReduced common).host = s.host ∧ (s.pcieReduced common).seqs = s.seqs ∧ (s.pcieReduced common).mem = s.mem := by
  simp only [State.pcieReduced]
  split
  · next h => exact ⟨by rw [State.obj_setObj_same, bit_setBits_low]; simpa using h, rfl, rfl, rfl⟩
  · next h => exact ⟨by rw [State.obj_setObj_same, bit_setBits_low]; simpa using h, rfl, rfl, rfl⟩

theorem State.hostGo_of_held_nil {s : State} (h : s.host.held = []) : s.hostGo = s := by simp [State.hostGo, h]

/-! A function's reset. -/

@[simp] theorem State.ground_loseRsv (s : State) (q k : Nat) : (s.loseRsv q k).ground = s.ground := State.ground_ite rfl rfl

@[simp] theorem State.ground_stopWait (s : State) (q k : Nat) : (s.stopWait q k).ground = s.ground := by
  simp only [State.stopWait]
  split
  · rfl
  · rw [State.ground_cancelWait]
    rfl

@[simp] theorem State.ground_stopChain (s : State) (e st : Nat) : (s.stopChain e st).ground = s.ground := by
  simp only [State.stopChain]
  refine State.ground_ite ?_ ?_ <;> simp

@[simp] theorem State.ground_resetSq (s : State) (n : Nat) (andCq : Bool) : (s.resetSq n andCq).ground = s.ground := by
  unfold State.resetSq State.stopRingChains
  refine (State.ground_foldl (fun u e => u.ground_stopChain _ _) _ _).trans
    ((State.ground_foldl (fun u x => ?_) _ _).trans rfl)
  simp

@[simp] theorem State.ground_resetFunction (s : State) (fn : Nat) : (s.resetFunction fn).ground = s.ground := by
  unfold State.resetFunction
  extract_lets s1 mine cut keep mem s2
  have h1 : s1.ground = s.ground := State.ground_foldl (fun u n => State.ground_ite (by simp) rfl) _ s
  clear_value s1
  have h2 : s2.ground = s.ground := State.ground_ite h1 h1
  exact h2

/-- A function reset leaves the function's vectors, its BAR2_CTX and its masks at reset (R55). -/
theorem State.resetFunction_clears (s : State) (fn : Nat) :
    (∀ v, (s.resetFunction fn).vec fn v = {} ∨ 2048 ≤ v) ∧ SMap.get 0 (s.resetFunction fn).host.bar2Ctx fn = 0 ∧
      SMap.get false (s.resetFunction fn).host.msixOn fn = false ∧ SMap.get false (s.resetFunction fn).host.fnMask fn = false := by
  refine ⟨fun v => ?_, SMap.get_set_same 0 _ fn 0, SMap.get_set_same false _ fn false, SMap.get_set_same false _ fn false⟩
  by_cases hv : 2048 ≤ v
  · exact .inr hv
  · refine .inl (SMap.get_filter_drop _ _ fun x => ?_)
    have h : (fn * 2048 + v) / 2048 = fn := by omega
    simp [h]

theorem State.clearVfs_cells (s : State) : s.clearVfs.mem.cells = s.mem.cells ∧ s.clearVfs.host.vfEnable = false := by
  refine ⟨?_, rfl⟩
  have h : (if s.host.vfEnable then (List.range s.host.numVfs).foldl (fun s i => s.resetFunction (i + 1)) s else s).ground = s.ground :=
    State.ground_ite (State.ground_foldl (fun u i => u.ground_resetFunction _) _ s) rfl
  exact (State.ground_eq_iff.1 h).2.1

/-! Register accesses. -/

theorem State.inOrder_of_first {s : State} {fn : Nat} (op : HostOp) (go : Res) (h : s.hostWaits fn = false) :
    s.inOrder fn op go = go := by simp [State.inOrder, h]

theorem State.inOrder_of_waits {s : State} {fn : Nat} (op : HostOp) (go : Res) (hup : s.hostUp = true) (hfn : s.fnAnswers fn = true)
    (h : s.hostWaits fn = true) : s.inOrder fn op go = .next (s.holdHost fn op) := by simp [State.inOrder, hup, hfn, h]

theorem next_after_ringWrite (s : State) (fn n off : Nat) (checks : List (Bool × Nat)) (go : State → State) :
    .next (after s (s.ringWrite fn n off checks go)) = s.ringWrite fn n off checks go := by
  unfold State.ringWrite
  split
  · rfl
  · dsimp only
    split <;> rfl

theorem next_after_fnWrite (s : State) (fn off : Nat) (may : Bool) (checks : List (Bool × Nat)) (go : State → State) :
    .next (after s (s.fnWrite fn off may checks go)) = s.fnWrite fn off may checks go := by
  unfold State.fnWrite
  split
  · rfl
  · dsimp only
    split <;> rfl

theorem execRegisterWrite_turn {s : State} {fn off sz : Nat} (v : Option Nat) (hup : s.hostUp = true) (hfn : s.fnAnswers fn = true)
    (hw : s.hostWaits fn = false) : execRegisterWrite fn off sz v s = .next (s.bar0Access fn off sz v) := by
  simp [execRegisterWrite, State.inOrder_of_first, hup, hfn, hw, occ]

/-- A register's own row and the write of its offset are one access, in its turn or kept until then. -/
theorem execRegisterWrite_eq_row {s : State} {fn off sz v : Nat} {go : Res} (hup : s.hostUp = true) (hfn : s.fnAnswers fn = true)
    (hgo : .next (after s go) = go)
    (hacc : s.bar0Access fn off sz (some v) = after s (s.inOrder fn (.bar0Write off sz v) go)) :
    execRegisterWrite fn off sz (some v) s = s.inOrder fn (.bar0Write off sz v) go := by
  cases hw : s.hostWaits fn
  · rw [execRegisterWrite_turn _ hup hfn hw, hacc, State.inOrder_of_first _ _ hw, hgo]
  · rw [execRegisterWrite, State.inOrder_of_waits _ _ hup hfn hw, State.inOrder_of_waits _ _ hup hfn hw]

theorem State.bar0Access_write {s : State} {fn off sz v : Nat} (hsz : sz = 4 ∨ sz = 8) (ho : off % sz = 0) (hv : v < 2 ^ (8 * sz)) :
    s.bar0Access fn off sz (some v) = s.bar0Write fn off sz v := by
  simp only [State.bar0Access, ho, hv]
  rcases hsz with rfl | rfl <;> rfl

theorem State.bar0Reg8_ring (s : State) {n o : Nat} (hn : n < 256) (ho : o < 0x1000) :
    s.bar0Reg8 (ringOff n o) = s.ringReg8 n o := by
  have h1 : 0x100000 ≤ ringOff n o ∧ ringOff n o < 0x200000 := by unfold ringOff; omega
  have h2 : ringOff n o / 0x1000 - 0x100 = n := by unfold ringOff; omega
  have h3 : ringOff n o % 0x1000 = o := by unfold ringOff; omega
  simp [State.bar0Reg8, h1, h2, h3]

theorem State.bar0Write_sqCfg (s : State) (fn : Nat) {n : Nat} (v : Nat) (hn : n < 256) :
    s.bar0Write fn (ringOff n 8) 8 v = after s (execSqCfgWrite fn n v s) := by
  have h1 : 0x100000 ≤ ringOff n 8 := by unfold ringOff; omega
  have h2 : ringOff n 8 / 0x1000 - 0x100 = n := by unfold ringOff; omega
  have h3 : ringOff n 8 % 0x1000 = 8 := by unfold ringOff; omega
  simp [State.bar0Write, s.bar0Reg8_ring hn, State.ringReg8, State.bar0Write8, h1, h2, h3, State.ringWrite8]

theorem State.bar0Write_sqDoorbell (s : State) (fn : Nat) {n v : Nat} (hn : n < 256) (hv : v < 2 ^ 32) :
    s.bar0Write fn (ringOff n 0x10) 4 v = after s (execSqDoorbell fn n v s) := by
  have h1 : 0x100000 ≤ ringOff n 0x10 ∧ ringOff n 0x10 < 0x200000 := by unfold ringOff; omega
  have h2 : ringOff n 0x10 / 0x1000 - 0x100 = n := by unfold ringOff; omega
  have h3 : ringOff n 0x10 % 0x1000 = 0x10 := by unfold ringOff; omega
  have h4 : ringOff n 0x10 / 8 * 8 = ringOff n 0x10 := by unfold ringOff; omega
  rw [State.bar0Write, if_pos rfl, Nat.mod_eq_of_lt hv]
  simp [State.bar0Write4, h4, s.bar0Reg8_ring hn, State.ringReg8, h1, h2, h3, State.ringWrite4]

theorem State.bar0Write_ctxBind (s : State) (fn : Nat) {c : Nat} (v : Nat) (hc : c < 64) :
    s.bar0Write fn (0x1000 + 8 * c) 8 v = after s (execCtxBindWrite fn c v s) := by
  have h1 : ¬ 0x100000 ≤ 0x1000 + 8 * c := by omega
  have h2 : 0x1000 ≤ 0x1000 + 8 * c ∧ 0x1000 + 8 * c < 0x1200 := by omega
  have h3 : 0x1000 + 8 * c < 0x2000 := by omega
  have h4 : (0x1000 + 8 * c - 0x1000) / 8 = c := by omega
  simp only [State.bar0Write, State.bar0Reg8, State.bindReg8, State.bar0Write8, State.bindWrite8, h1, h2, h3, h4]
  rfl

/-- A function that does not see a ring's page reads 0 from it (R150). -/
theorem State.bar0Read_unseen {s : State} {fn n o : Nat} (hn : n < 256) (ho : o < 0x1000) (h : s.seesRing fn n = false) :
    s.bar0Read fn (ringOff n o) 4 = 0 := by
  have h1 : 0x100000 ≤ ringOff n o ∧ ringOff n o < 0x200000 := by unfold ringOff; omega
  have h2 : ringOff n o / 0x1000 - 0x100 = n := by unfold ringOff; omega
  simp [State.bar0Read, State.bar0Read4, h1, h2, h]

theorem State.raiseVector_vectors (s : State) (fn v : Nat) :
    ∃ o vs, s.raiseVector fn v = { s with out := o, host := { s.host with vectors := vs } } := by
  simp only [State.raiseVector]
  split
  · split
    · exact ⟨_, _, rfl⟩
    · exact ⟨_, _, rfl⟩
  · exact ⟨_, _, rfl⟩

/-- Settles O37: each access, reset and change of the link is its command's one effect, seen in its turn. -/
theorem linkFunctionsAndVectors : Obligations.LinkFunctionsAndVectors := by
  refine ⟨fun s fn f w hsafe hstage => ?early, fun s fn hup hfn => ?header, fun s hlink => ?down,
    fun s rate width hlink hheld hstage hsafe hperst href hrate hwidth hmax hwide hboot => ?up, fun s fn hup hfn => ?flr,
    fun s fn v hup hfn hw hv => ?unmask, fun s cq hpend htime hpassed => ?moderation, fun s fn off sz hup hfn hw => ?access,
    fun s fn n o hn ho hsees => State.bar0Read_unseen hn ho hsees, fun s fn n v hn hv hup hfn => ?sqCfg,
    fun s fn n v hn hv hup hfn => ?doorbell, fun s fn c v hc hv hup hfn => ?ctxBind⟩
  case early =>
    show execPcieConfigRequest fn f w s = _
    simp [execPcieConfigRequest, hsafe, hstage]
  case header =>
    refine ⟨execPcieConfigRequest_read _ hup hfn, execPcieConfigRequest_read _ hup hfn, execPcieConfigRequest_read _ hup hfn, ?_,
      fun f v => execPcieConfigRequest_write f v hup hfn⟩
    refine (execPcieConfigRequest_read _ hup hfn).trans ?_
    cases hv : s.variant <;> cases fn <;> simp [State.cfgValue, hv]
  case down =>
    exact .of_occ rfl hlink ⟨rfl, rfl, rfl, by simp [State.dispatches, State.hostUp], rfl, rfl, rfl, rfl, rfl⟩
  case up =>
    have htop : rate.got ≤ if s.stage < 4 then min 3 (s.obj Obj.PCIE_MAX_RATE) else s.obj Obj.PCIE_MAX_RATE := by
      split <;> omega
    have hlanes : width ≤ if s.stage < 4 then min 4 (s.obj Obj.PCIE_MAX_WIDTH) else s.obj Obj.PCIE_MAX_WIDTH := by
      split <;> omega
    refine .of_occ rfl (by simpa [hlink, hstage, hsafe, hperst, href, hrate, htop, hlanes] using hwidth) ?_
    obtain ⟨hup, hr, hw, hheld', hseqs, hmem, hmaxRate⟩ := s.linkReturns_kept rate.got width
    generalize s.linkReturns rate.got width = u at hup hr hw hheld' hseqs hmem hmaxRate ⊢
    rw [State.hostGo_of_held_nil (hheld'.trans hheld)]
    by_cases h4 : 4 ≤ s.stage
    · rw [if_pos h4]
      obtain ⟨hbit, hh, hs, hm⟩ := u.pcieReduced_spec rate.common
      rw [hh, hs, hm]
      exact ⟨hup, hr, hw, hseqs, hmem, fun _ => by rw [hbit, hw, hr, hmaxRate]⟩
    · rw [if_neg h4]
      exact ⟨hup, hr, hw, hseqs, hmem, fun h => absurd h h4⟩
  case flr =>
    by_cases h0 : fn = 0
    · subst h0
      obtain ⟨hcells, hvf⟩ := s.clearVfs_cells
      refine ⟨s.clearVfs.resetFunction 0, by show execFunctionLevelReset 0 s = _; simp [execFunctionLevelReset, hup, hfn], ?_⟩
      obtain ⟨-, hc, hv⟩ := State.ground_eq_iff.1 (s.clearVfs.ground_resetFunction 0)
      obtain ⟨hvec, hctx, hon, hmask⟩ := s.clearVfs.resetFunction_clears 0
      exact ⟨hvec, hctx, hon, hmask, fun _ => hv.trans hvf, fun a => congrArg (SMap.get 0 · a) (hc.trans hcells)⟩
    · refine ⟨s.resetFunction fn, by show execFunctionLevelReset fn s = _; simp [execFunctionLevelReset, hup, hfn, h0], ?_⟩
      obtain ⟨-, hc, -⟩ := State.ground_eq_iff.1 (s.ground_resetFunction fn)
      obtain ⟨hvec, hctx, hon, hmask⟩ := s.resetFunction_clears fn
      exact ⟨hvec, hctx, hon, hmask, fun h => absurd h h0, fun a => congrArg (SMap.get 0 · a) hc⟩
  case unmask =>
    show execMsixUnmask fn v s = _
    simp [execMsixUnmask, State.inOrder_of_first, hw, occ, hup, hfn, hv]
  case moderation =>
    refine .of_occ rfl (by simp [hpend, htime, hpassed]) ?_
    obtain ⟨o, vs, h⟩ := State.raiseVector_vectors (s.setRing cq { s.ring cq with pend := 0, pendSince := 0 })
      ((s.ringFn cq).getD 0) (bits (s.ring cq).cqCfg 8 11)
    rw [h]
    exact ⟨SMap.get_set_same _ _ _ _, rfl, rfl, rfl⟩
  case access =>
    refine ⟨execRegisterWrite_turn none hup hfn hw, fun v hsz ho hv => (execRegisterWrite_turn (some v) hup hfn hw).trans ?_⟩
    rw [State.bar0Access_write hsz ho hv]
  case sqCfg =>
    refine execRegisterWrite_eq_row hup hfn (next_after_ringWrite ..) ?_
    rw [State.bar0Access_write (.inr rfl) (by omega) hv]
    exact s.bar0Write_sqCfg fn v hn
  case doorbell =>
    refine execRegisterWrite_eq_row hup hfn (next_after_ringWrite ..) ?_
    rw [State.bar0Access_write (.inl rfl) (by omega) hv]
    exact s.bar0Write_sqDoorbell fn hn hv
  case ctxBind =>
    refine execRegisterWrite_eq_row hup hfn (next_after_fnWrite ..) ?_
    rw [State.bar0Access_write (.inr rfl) (by omega) hv]
    exact s.bar0Write_ctxBind fn v hc

end Sys2Proof.Machine
end

section
/-!
Object-access requests: the transports' ports, the row that executes a request, the checks of a request, and where a write goes
(R80, R82, R85, R88, R93, R118).
-/
namespace Sys2Proof.Machine
open Sys2Proof

/-! The ports of the transports. -/

section
variable (s : State) (t : Transport) (p : Port)

@[simp] theorem State.port_setPort : (s.setPort t p).port t = p := by cases t <;> rfl
@[simp] theorem State.setPort_dict : (s.setPort t p).dict = s.dict := by cases t <;> rfl
@[simp] theorem State.setPort_mem : (s.setPort t p).mem = s.mem := by cases t <;> rfl
theorem State.expertKey_setPort : (s.setPort t p).oap.key = s.oap.key := by cases t <;> rfl
@[simp] theorem State.obj_setPort (key : Nat) : (s.setPort t p).obj key = s.obj key := by cases t <;> rfl
@[simp] theorem State.port_bump (key n : Nat) : (s.bump key n).port t = s.port t := by cases t <;> rfl

end

/-! The row that executes a request. -/

/-- A request row serves its transport, for its kind of request. -/
theorem exec_oapRow {i : Instr} {t : Transport} {k : OapKind} (h : oapRow i = some (t, k)) (s : State) : exec i s = s.serve t k := by
  unfold oapRow at h
  split at h <;> cases h <;> rfl

section
variable {s : State} {t : Transport} {src : Nat} {r : Req} {rest : List RxReq}

/-- The request at the head of a transport whose turn it is, read off its queue. -/
theorem State.headReq_eq_some (h : s.headReq t = some (src, r, rest)) :
    ∃ q, (s.port t).queue = q :: rest ∧ q.src = src ∧ parseReq q.bytes = r ∧
      (s.oap.waiting.isEmpty && s.nextTransport == some t) = true := by
  unfold State.headReq at h
  split at h
  · cases h
  · next q rest' hq =>
    split at h
    · next hturn => cases h; exact ⟨q, hq, rfl, rfl, hturn⟩
    · cases h

theorem State.serve_headReq (h : s.headReq t = some (src, r, rest)) :
    s.serve t r.kind = .next ((s.taken t rest).execute t (t, src, r.hdr) r) := by
  obtain ⟨q, hq, rfl, rfl, hturn⟩ := State.headReq_eq_some h
  simp only [State.serve, hq, hturn, beq_self_eq_true, Bool.and_self, occ, if_true]
  rfl

end

/-- Settles O27: each row serves its transport, and what it takes leaves the queue, passes the turn and is counted. -/
theorem requestRowsExecute : Obligations.RequestRowsExecute := by
  unfold Obligations.RequestRowsExecute
  intro i t k s src r rest hrow hhead hk
  refine ⟨?executed, ?queue, ?turn, ?counted, ?memory⟩
  case executed => rw [exec_oapRow hrow, ← hk, State.serve_headReq hhead]
  case queue => cases t <;> rfl
  case turn => rfl
  case counted => exact (State.obj_bump_same _ _ _).trans (congrArg (satBump 32 · 1) (State.obj_setPort s t _ _))
  case memory => exact State.setPort_mem s t _

/-! The first failure of several checks. -/

/-- No check fails just when every status is one of success. -/
theorem firstOf_eq_zero_iff (l : List Nat) : firstOf l = 0 ↔ ∀ st ∈ l, st < 0x10 := by
  unfold firstOf
  induction l with
  | nil => simp
  | cons st l ih =>
    by_cases hst : st < 0x10
    · simpa [hst] using ih
    · refine iff_of_false ?_ fun h => hst (h st List.mem_cons_self)
      simp only [List.foldl_cons, hst, decide_true, Bool.true_or, if_true, if_false]
      -- a failure found stays, or an earlier one in the order of R85 takes its place
      refine List.foldlRecOn (motive := (· ≠ 0)) l _ (by omega) fun b hb st' _ => ?_
      split_ifs <;> omega

theorem firstOf_append_eq_zero_iff (l m : List Nat) : firstOf (l ++ m) = 0 ↔ firstOf l = 0 ∧ firstOf m = 0 := by
  simp only [firstOf_eq_zero_iff, List.mem_append, or_imp, forall_and]

/-! Writes. -/

/-- A request of service 2 is a write, of its object's own row or of the common one. -/
theorem State.execute_write (s : State) (t : Transport) (who : Asker) {r : Req} (h : r.svc = 2) :
    s.execute t who r = s.serveWrite t who r (r.frameChecks t ++ [r.tagCheck (s.tagOk t r)]) (s.tagOk t r) := by
  have hk : r.kind = .write ∨ ∃ o, r.kind = .own o := by
    simp only [Req.kind, h]
    split
    · exact .inr ⟨_, rfl⟩
    · exact .inl rfl
  obtain hk | ⟨o, hk⟩ := hk <;> simp only [State.execute, hk]

/-- A whole value that passes its checks is carried out, once its tag is settled. -/
theorem State.wholeWrite_of_checked {s : State} {t : Transport} {r : Req} {pre : List Nat} {auth : Bool} {o : ORow} {bs : List Byte}
    (who : Asker) (ok : Bool) (hpre : firstOf pre = 0) (hchk : firstOf (s.writeChecks t auth r.key o bs) = 0) :
    s.wholeWrite t who r pre ok auth o bs = (s.settleTag t r ok 0).carryOut who r.key o bs := by
  have h : firstOf (pre ++ s.writeChecks t auth r.key o bs) = 0 := (firstOf_append_eq_zero_iff _ _).2 ⟨hpre, hchk⟩
  simp [State.wholeWrite, h]

theorem State.serveWrite_whole {s : State} {t : Transport} {r : Req} {o : ORow} (who : Asker) (h : WholeWrite s t r o) :
    s.serveWrite t who r (r.frameChecks t ++ [r.tagCheck (s.tagOk t r)]) (s.tagOk t r) =
      ((s.dropSegment t true).settleTag t r (s.tagOk t r) 0).carryOut who r.key o r.value := by
  obtain ⟨hsound, hobj, hoff, hlen, htotal, hsized, hchk⟩ := h
  have hfit : ((if o.ty.varSize then decide (r.total ≤ o.maxBytes) && (!o.isFixed || r.total == o.maxBytes)
      else r.off == 0 && r.len == o.ty.size && r.total == o.ty.size) && decide (r.off + r.len ≤ r.total)) = true := by
    rw [hoff, hlen]
    cases hv : o.ty.varSize with
    | true =>
      rw [hv, if_pos rfl] at hsized
      obtain ⟨hmax, hfix⟩ := hsized
      simpa [hmax, Decidable.imp_iff_not_or] using hfix
    | false => simpa [hv] using hsized
  simp only [State.serveWrite, hobj, if_neg htotal, if_pos hoff, hfit]
  rw [if_pos (by simp [hlen])]
  exact State.wholeWrite_of_checked who _ ((firstOf_append_eq_zero_iff _ _).2 ⟨hsound, rfl⟩) hchk

/-- Settles O28: a row that executes a write finds no failing check, and carries the write out. -/
theorem acceptedWritesAreCarriedOut : Obligations.AcceptedWritesAreCarriedOut := by
  unfold Obligations.AcceptedWritesAreCarriedOut
  intro i t k s src r rest o hrow hhead hk hsvc s1 hw
  rw [exec_oapRow hrow, ← hk, State.serve_headReq hhead, State.execute_write _ _ _ hsvc, State.serveWrite_whole _ hw]

/-- Settles O29: the access code, the home and the home's state choose among the four ways of a write. -/
theorem writesReachTheirHome : Obligations.WritesReachTheirHome := by
  unfold Obligations.WritesReachTheirHome
  intro s who key r bs hprofile hrepair v
  refine ⟨fun hacc hawake => ⟨?staged, SMap.get_set_same 0 s.oap.staged key (v + 1)⟩, fun hacc hhome => ?now,
    fun u hacc hhome hset hawake => ?waits, fun u hhome hset hsleep => ?shadow⟩
  case staged =>
    have hset : actsAsleep r = false := by simp [actsAsleep, hacc]
    cases hhome : keyHome key with
    | none => simp [State.carryOut, hprofile, hrepair, hhome, hacc, v]
    | some u => simp [State.carryOut, hprofile, hrepair, hhome, hset, hawake u hhome, hacc, v]
  case now =>
    cases hu : keyHome key with
    | none => simp [State.carryOut, hprofile, hrepair, hu, hacc]
    | some u =>
      have hset : actsAsleep r = true := hhome.resolve_left (by simp [hu])
      simp [State.carryOut, hprofile, hrepair, hu, hset]
  case waits => simp [State.carryOut, hprofile, hrepair, hhome, hset, hawake, hacc, v]
  case shadow => simp [State.carryOut, hprofile, hrepair, hhome, hset, hsleep, v]

end Sys2Proof.Machine
end

section
/-!
Services and sessions: the services that read or describe an object, and the opening, proof and closing of a session (R84, R86,
R109, R110, R111, R115, R119).
-/
namespace Sys2Proof.Machine
open Sys2Proof

/-! The services of objects. -/

@[simp] theorem need_true (st : Nat) : need true st = 0 := rfl

/-- The checks of a sound request on an object whose unit is in order fail only where one behind these does. -/
theorem Req.sound.firstOf_eq_zero {s : State} {t : Transport} {r : Req} (h : r.sound s t) (hu : s.unitCheck r.key = 0) {l : List Nat}
    (hl : firstOf l = 0) : firstOf (r.frameChecks t ++ [r.tagCheck (s.tagOk t r)] ++ s.unitCheck r.key :: l) = 0 :=
  (firstOf_append_eq_zero_iff _ _).2 ⟨h, by rw [hu]; exact hl⟩

/-- Settles O31: a request that passes the checks of its service finds no failure, and is answered with what the service gives. -/
theorem servicesAnswer : Obligations.ServicesAnswer := by
  unfold Obligations.ServicesAnswer
  intro s t who r o hsound hobj hunit hoff ok
  refine ⟨fun hsvc hfix hsize hlen => ?read, fun hsvc hlen => ?readEmpty, fun hsvc hacc hsize => ?readPending,
    fun hsvc hlen hacc hright hpend => ?discard, fun hsvc hlen => ?describe, fun u q hsvc => ?undefined⟩
  case read =>
    have hst := hsound.firstOf_eq_zero hunit (l := [need (r.off == 0 && decide (o.ty.size ≤ r.len)) Sc.boundViolation])
      (by simp [hoff, hsize, firstOf])
    simp only [State.execute, Req.kind, hsvc, State.serveRead, hobj, hlen.ne', hfix, Bool.not_false, if_true, if_false]
    exact if_neg (not_not.2 hst)
  case readEmpty =>
    have hst := hsound.firstOf_eq_zero hunit (l := []) rfl
    simp only [State.execute, Req.kind, hsvc, State.serveRead, hobj, hlen, hst, if_true]
    rfl
  case readPending =>
    have hst := hsound.firstOf_eq_zero hunit (l := [need (r.off == 0 && decide (o.ty.size ≤ r.len)) Sc.boundViolation,
      need (o.acc == .rws) Sc.accessDenied]) (by simp [hoff, hsize, hacc, firstOf])
    simp only [State.execute, Req.kind, hsvc, State.servePending, hobj, hst, ne_eq, not_true, if_false]
    exact ⟨fun hnone => by rw [hnone], fun v hv => by rw [hv]⟩
  case discard =>
    have hst := hsound.firstOf_eq_zero hunit (l := [need (r.off == 0 && r.len == 0) Sc.boundViolation,
      need (o.acc == .rws && (ok || !isExpert r.key)) Sc.accessDenied])
      (by obtain h | h := hright <;> simp [hoff, hlen, hacc, h, firstOf])
    refine ⟨{ s with oap := { s.oap with staged := SMap.set 0 s.oap.staged r.key 0 } }, ?_, ?_, rfl, rfl⟩
    · simp only [State.execute, Req.kind, hsvc, State.serveDiscard, hobj, hst, hpend, ne_eq, not_true, if_false, if_true, ok]
    · simp [State.isPending]
  case describe =>
    have hst := hsound.firstOf_eq_zero hunit (l := [need (r.off == 0 && decide (32 ≤ r.len)) Sc.boundViolation])
      (by simp [hoff, hlen, firstOf])
    simp only [State.execute, Req.kind, hsvc, State.serveDescribe, hobj, hst, ne_eq, not_true, if_false, ok]
  case undefined =>
    have hk : q.kind = .undefined := by
      obtain h | h := hsvc
      · simp [Req.kind, h]
      · obtain ⟨n, hn⟩ := Nat.exists_eq_add_of_le' h
        simp [Req.kind, hn]
    simp only [State.execute, hk]

/-! Drawn bytes. -/

theorem length_leBytes (n v : Nat) : (leBytes n v).length = n := by
  induction n generalizing v with
  | zero => rfl
  | succ n ih => rw [leBytes, List.length_cons, ih]

/-- Of the state, draws change the count of free words alone. -/
theorem State.drawN_eq (n : Nat) (s : State) : ∃ c, (s.drawN n).2 = { s with freeCtr := c } := by
  induction n generalizing s with
  | zero => exact ⟨_, rfl⟩
  | succ n ih => exact ih s.draw.2

theorem State.drawN_length (n : Nat) (s : State) : (s.drawN n).1.length = n := by
  induction n generalizing s with
  | zero => rfl
  | succ n ih => exact congrArg (· + 1) (ih s.draw.2)

theorem State.drawBytes_length (s : State) (n : Nat) : (s.drawBytes n).1.length = n := by
  simp only [State.drawBytes, List.length_take, List.length_flatMap, length_leBytes, List.map_const', List.sum_replicate,
    State.drawN_length, smul_eq_mul, cdiv]
  omega

theorem State.port_drawBytes (s : State) (n : Nat) (t : Transport) : (s.drawBytes n).2.port t = s.port t := by
  obtain ⟨c, hc⟩ := s.drawN_eq (cdiv n 8)
  show ((s.drawN (cdiv n 8)).2).port t = _
  rw [hc]
  cases t <;> rfl

/-! Sessions. -/

theorem Noted.port {K : Nat → Prop} {s t : State} (h : Noted K s t) (tr : Transport) : t.port tr = s.port tr := by
  obtain ⟨_, _, _, _, _, _, _, rfl, -⟩ := h
  cases tr <;> rfl

section
variable (s : State) (t : Transport)

@[simp] theorem State.port_setSess (x : Session) : (s.setSess t x).port t = { s.port t with sess := x } := s.port_setPort t _
@[simp] theorem State.obj_setSess (x : Session) (key : Nat) : (s.setSess t x).obj key = s.obj key := s.obj_setPort t _ key

/-- A session that closes leaves its event and its own record changed (R116). -/
theorem State.closeSession_noted (h : (s.port t).sess.isOpen = true) : Noted (· = Obj.OAP_OVERRUNS)
    (s.setSess t { (s.port t).sess with isOpen := false, ks := [], ctr := 0 }) (s.closeSession t) := by
  simp only [State.closeSession, h, if_true]
  exact Noted.sendEvent (.refl _) rfl

theorem State.closeSession_kept : (s.closeSession t).oap.key = s.oap.key ∧
    ((s.closeSession t).port t).sess.locked = (s.port t).sess.locked := by
  cases h : (s.port t).sess.isOpen with
  | true =>
    have hn := s.closeSession_noted t h
    exact ⟨hn.expertKey.1.trans (s.expertKey_setPort t _), by rw [hn.port, State.port_setSess]⟩
  | false => simp [State.closeSession, h]

theorem State.isOpen_closeSession : ((s.closeSession t).port t).sess.isOpen = false := by
  cases h : (s.port t).sess.isOpen with
  | true => rw [(s.closeSession_noted t h).port, State.port_setSess]
  | false => simp [State.closeSession, h]

end

/-- What a tag that verifies, or a request without one, leaves: the counter of the session, and nothing else, may change. -/
theorem State.settleTag_of_verified {s : State} {t : Transport} {r : Req} (h : r.auth = true → s.tagOk t r = true) (st : Nat) :
    ∃ c, s.settleTag t r (s.tagOk t r) st = s.setSess t { (s.port t).sess with ctr := c } := by
  have hsame : s.setSess t (s.port t).sess = s := by cases t <;> rfl
  cases hok : s.tagOk t r with
  | false =>
    have hauth : r.auth = false := by simpa [hok] using h
    exact ⟨(s.port t).sess.ctr, by simp [State.settleTag, hauth, hsame]⟩
  | true =>
    simp only [State.settleTag, if_true]
    split
    · exact ⟨(s.port t).sess.ctr, hsame.symm⟩
    · exact ⟨_, rfl⟩

/-- An accepted tag and the closing of a session keep the device's key, and whether the session is locked out. -/
theorem State.settleTag_closeSession_kept {s : State} {t : Transport} {r : Req} (h : r.auth = true → s.tagOk t r = true) (st : Nat) :
    let u := (s.settleTag t r (s.tagOk t r) st).closeSession t
    u.oap.key = s.oap.key ∧ (u.port t).sess.locked = (s.port t).sess.locked := by
  obtain ⟨c, hc⟩ := State.settleTag_of_verified h st
  obtain ⟨hkey, hlocked⟩ := (s.setSess t { (s.port t).sess with ctr := c }).closeSession_kept t
  rw [hc]
  exact ⟨hkey.trans (s.expertKey_setPort t _), hlocked.trans (by rw [State.port_setSess])⟩

/-- Settles O32: a request that passes its checks opens, proves or closes, and its tag has moved the counter at most. -/
theorem sessionsOpenAndClose : Obligations.SessionsOpenAndClose := by
  unfold Obligations.SessionsOpenAndClose
  intro s t who r hoff htag x
  have htag' : (r.auth && !s.tagOk t r) = false := by
    cases ha : r.auth with
    | false => rfl
    | true => simp [htag ha]
  refine ⟨fun hsvc hframe hlen hup hkey hlocked => ?opens, fun hsvc hframe hlen nd nc hch htime hproof => ?proves,
    fun hsvc hsound hlen hok => ?closes⟩
  case opens =>
    have hearly : firstOf (r.frameChecks t ++
        [need s.drbgUp Sc.unitDisabled, need (r.len == 16 && r.off == 0) Sc.boundViolation]) = 0 :=
      (firstOf_append_eq_zero_iff _ _).2 ⟨hframe, by simp [hup, hlen, hoff, firstOf]⟩
    obtain ⟨hkey', hlocked'⟩ := State.settleTag_closeSession_kept htag 0
    simp only [State.execute, Req.kind, hsvc, State.sessionOpen, hearly, ne_eq, not_true, if_false, htag', Bool.false_eq_true]
    rw [if_neg (by simp [hkey', hlocked', hkey, hlocked, x])]
    refine ⟨_, _, rfl, ?_, ?_, State.drawBytes_length _ _⟩
    · rw [State.port_setSess]
    · rw [State.port_setSess]
      exact (congrArg (·.sess.isOpen) (State.port_drawBytes _ 16 t)).trans (State.isOpen_closeSession _ t)
  case proves =>
    have hearly : firstOf (r.frameChecks t ++ [need (r.len == 32 && r.off == 0) Sc.boundViolation]) = 0 :=
      (firstOf_append_eq_zero_iff _ _).2 ⟨hframe, by simp [hlen, hoff, firstOf]⟩
    simp only [State.execute, Req.kind, hsvc, State.sessionProve, hearly, ne_eq, not_true, if_false, htag', Bool.false_eq_true]
    rw [hch]
    dsimp only
    rw [if_pos (Bool.and_eq_true_iff.2 ⟨decide_eq_true htime, beq_iff_eq.2 hproof⟩)]
    refine ⟨_, rfl, ?isOpen, ?ctr, ?challenge, ?key, ?counted⟩
    case counted => rw [State.obj_bump_same, State.obj_setSess]
    all_goals rw [State.port_bump, State.port_setSess]
  case closes =>
    have hst : firstOf (r.frameChecks t ++ [r.tagCheck (s.tagOk t r)] ++
        [need (r.off == 0 && r.len == 0) Sc.boundViolation, need (s.tagOk t r) Sc.accessDenied]) = 0 :=
      (firstOf_append_eq_zero_iff _ _).2 ⟨hsound, by simp [hoff, hlen, hok, firstOf]⟩
    simp only [State.execute, Req.kind, hsvc, State.serveClose, hst, if_true]
    exact ⟨_, rfl, State.isOpen_closeSession _ t⟩

end Sys2Proof.Machine
end

section
/-!
The transports' own events and the keeper's mirror: arrivals, the mailbox, timers, the boundary of a unit, comparisons of the
mirror, and a divergence that has lasted (R82, R90, R94, R103, R131, R135).
-/
namespace Sys2Proof.Machine
open Sys2Proof

/-! Arrivals and timers. -/

/-- A request joins a queue that has room (R94). -/
theorem State.enqueue_of_room {s : State} {t : Transport} {src : Nat} {bs : List Byte}
    (h : (s.port t).queue.length + (s.oap.waiting.filter fun w => w.t == t).length < 4) :
    s.enqueue t src bs = s.setPort t { s.port t with queue := (s.port t).queue ++ [{ bytes := bs, src := src }] } := if_pos h

/-- What the PF asks of the mailbox acts in its turn. -/
theorem Completes.of_mailbox {i : Instr} {s t : State} {op : HostOp} {P : State → Prop} (hup : s.hostUp = true)
    (hfn : s.fnAnswers 0 = true) (hw : s.hostWaits 0 = false)
    (he : exec i s = s.inOrder 0 op (occ (s.hostUp && s.fnAnswers 0) s t)) (ht : P t) : Completes i s P :=
  .of_occ (he.trans (State.inOrder_of_first _ _ hw)) (by simp [hup, hfn]) ht

/-- Settles O33: each arrival and each timer changes the one port, queue or value that it is about. -/
theorem transportEventsTakeEffect : Obligations.TransportEventsTakeEffect := by
  unfold Obligations.TransportEventsTakeEffect
  intro s t
  refine ⟨fun f hen hext hid hfd hrem hroom => ?can, fun f hen hty hdst hmulti hsrc hroom => ?t1s,
    fun hup hfn hw hbusy hrsp hen => ?go, fun hup hfn hw => ?response, fun e rest hup hfn hw hq => ?event, fun g hg => ?segment,
    fun b hb => ⟨_, rfl, ?snapshot⟩, fun hopen => ⟨_, rfl, ?idle⟩, fun hlocked => ⟨_, rfl, ?lockout⟩,
    fun key hlo hhi hrow => ?config⟩
  case can =>
    refine .of_occ rfl (by simp [hen, hext, hid]) ?_
    simp only [hfd, hrem, Bool.not_true, Bool.or_self, Bool.false_eq_true, if_false]
    rw [State.enqueue_of_room (s := s) (t := .can) hroom]
    exact ⟨rfl, rfl, rfl⟩
  case t1s =>
    refine .of_occ rfl (by obtain h | h := hsrc <;> simp [hen, hty, hdst, h, hdst ▸ hmulti]) ?_
    rw [State.enqueue_of_room (s := s.setPort .t1s { s.port .t1s with lastSrc := some f.src }) (t := .t1s) hroom]
    exact ⟨rfl, rfl, rfl⟩
  case go =>
    refine .of_mailbox hup hfn hw rfl ?_
    simp only [State.mbxGo, hbusy, hrsp, hen, Bool.or_self, Bool.not_true, Bool.false_eq_true, if_false]
    exact ⟨rfl, List.length_append, rfl⟩
  case response => exact .of_mailbox hup hfn hw rfl ⟨rfl, rfl⟩
  case event =>
    refine .of_mailbox hup hfn hw rfl ?_
    simp only [State.mbxEvtClear, hq]
    split
    · rfl
    · obtain ⟨_, _, h⟩ := State.raiseVector_vectors { s with oap := { s.oap with evtQ := rest } } 0 0
      rw [h]
  case segment =>
    have he : exec (.segmentTimeout t) s = .next ((s.setPort t { s.port t with seg := none }).bump Obj.SEG_DISCARDS) := by
      show Host.Outcome.next (s.dropSegment t true) = _
      simp [State.dropSegment, hg]
    refine ⟨_, he, ?_, ?_, ?_⟩
    · rw [State.port_bump, State.port_setPort]
    · rw [State.port_bump, State.port_setPort]
    · rw [State.obj_bump_same, State.obj_setPort]
  case snapshot => simp
  case idle =>
    have h := s.closeSession_noted t hopen
    have hp := (h.port t).trans (State.port_setSess s t _)
    exact ⟨by rw [hp], by rw [hp], h.mem.trans (s.setPort_mem t _)⟩
  case lockout => exact ⟨by rw [State.port_setSess], by rw [State.port_setSess], s.setPort_dict t _⟩
  case config =>
    refine .of_occ rfl (by simp [hlo, hhi, hrow]) ⟨?_, rfl⟩
    simp [State.inEffect, State.obj]

/-! Comparisons of the mirror. -/

/-- What a comparison notes of a unit: the moment from which it differs, + 1, and 0 where it does not. -/
def differsSince (differs : Bool) (now old : Nat) : Nat := if differs then (if old = 0 then now else old) else 0

/-- One unit's part of a comparison. -/
def noteUnit (differs : Nat → Bool) (now : Nat) (m : SMap Nat) (u : Nat) : SMap Nat :=
  if !differs u then SMap.set 0 m u 0 else if SMap.get 0 m u = 0 then SMap.set 0 m u now else m

theorem get_noteUnit_same (differs : Nat → Bool) (now : Nat) (m : SMap Nat) (u : Nat) :
    SMap.get 0 (noteUnit differs now m u) u = differsSince (differs u) now (SMap.get 0 m u) := by
  cases hd : differs u with
  | false => simp [noteUnit, differsSince, hd]
  | true => by_cases h0 : SMap.get 0 m u = 0 <;> simp [noteUnit, differsSince, hd, h0]

theorem get_noteUnit_other (differs : Nat → Bool) (now : Nat) (m : SMap Nat) {u v : Nat} (hv : v ≠ u) :
    SMap.get 0 (noteUnit differs now m u) v = SMap.get 0 m v := by
  unfold noteUnit
  split_ifs
  · exact SMap.get_set_other _ _ _ hv
  · exact SMap.get_set_other _ _ _ hv
  · rfl

/-- A comparison of the first `n` units notes each of them once, and no other. -/
theorem get_foldl_noteUnit (differs : Nat → Bool) (now : Nat) (m : SMap Nat) (n v : Nat) :
    SMap.get 0 ((List.range n).foldl (noteUnit differs now) m) v =
      if v < n then differsSince (differs v) now (SMap.get 0 m v) else SMap.get 0 m v := by
  induction n with
  | zero => simp
  | succ n ih =>
    rw [List.range_succ, List.foldl_append, List.foldl_cons, List.foldl_nil]
    by_cases hv : v = n
    · subst hv
      rw [get_noteUnit_same, ih, if_neg (Nat.lt_irrefl v), if_pos (Nat.lt_succ_self v)]
    · have hlt : v < n + 1 ↔ v < n := by omega
      simp only [get_noteUnit_other differs now _ hv, ih, hlt]

/-- Whether the mirror of a unit shows another state than the unit has. -/
def State.mirrorDiffers (s : State) (u : Nat) : Bool := SMap.get 0 s.oap.mirror u != (s.unitSt u).code

/-- A comparison from S1 on notes every unit, against the mirror as it stands then. -/
theorem execUcbMirrorCompare_eq {s : State} (h : 1 ≤ s.stage) : execUcbMirrorCompare s =
    .next { s.upsetMirror with oap := { s.upsetMirror.oap with
      mirrorDiff := (List.range 201).foldl (noteUnit s.upsetMirror.mirrorDiffers (s.timeNs + 1)) s.oap.mirrorDiff } } := by
  have h0 : s.stage ≠ 0 := by omega
  have h1 : (1 ≤ s.upsetMirror.stage) = True := eq_true h
  simp only [execUcbMirrorCompare, if_neg h0, occ, h1, decide_true, if_true]
  rfl

/-! A divergence that has lasted. -/

theorem Noted.agg {K : Nat → Prop} {s t : State} (h : Noted K s t) : t.agg = s.agg := by
  obtain ⟨_, _, _, _, _, _, _, rfl, -⟩ := h
  rfl

section
variable (s : State) (src : Nat) (e : ErrInfo)

theorem State.agg_routeError : (s.routeError src).agg = s.agg := by
  simp only [State.routeError]
  split
  · rfl
  · rw [(Noted.raiseVector (K := fun _ => False) (.refl _)).agg]
    split <;> rfl

/-- A report leaves the records of the sources. -/
theorem State.srcRecs_reportError : (s.reportError src e).agg.src = s.agg.src := by
  simp only [State.reportError]
  split
  · rw [State.agg_routeError, (Noted.sendEvent (.refl _) rfl).agg]
  · rfl

theorem State.srcCount_recordError :
    (SMap.get {} (s.recordError src e).agg.src src).count = satBump 32 (SMap.get {} s.agg.src src).count 1 := by
  have h : (s.recordError src e).agg.src = SMap.set {} s.agg.src src
      { count := satBump 32 (SMap.get {} s.agg.src src).count 1, oClass := e.oClass, oIndex := e.oIndex,
        firstNs := if (SMap.get {} s.agg.src src).count = 0 then s.timeNs else (SMap.get {} s.agg.src src).firstNs,
        lastNs := s.timeNs, lastInfo := e.info } := by
    simp only [State.recordError]
    split_ifs <;> rfl
  rw [h, SMap.get_set_same]

/-- A raised error that is not FATAL is counted once in its source's record (R748). -/
theorem State.srcCount_raise {src : Nat} (h : sourceClass src ≠ .fatal) :
    (SMap.get {} (s.raise src e).agg.src src).count = satBump 32 (SMap.get {} s.agg.src src).count 1 := by
  have hr : (s.raise src e).agg.src = (s.recordError src e).agg.src := by
    simp only [State.raise, beq_eq_false_iff_ne.2 h, Bool.false_eq_true, if_false]
    have := State.srcRecs_reportError ((s.recordError src e).bump (classCounter (sourceClass src))) src e
    split <;> exact this
  rw [hr, State.srcCount_recordError]

end

/-- Settles O34: a waiting write is checked and applied, a comparison notes each unit by itself, and a divergence is raised as a
CONTAINED error before its unit is FAULTED. -/
theorem keeperFollowsItsUnits : Obligations.KeeperFollowsItsUnits := by
  unfold Obligations.KeeperFollowsItsUnits
  refine ⟨?applied, ?compared, ?diverged⟩
  case applied =>
    intro s u w o hw hobj s1 hchk hawake
    show execUnitObjectApply u s = _
    simp only [execUnitObjectApply, hw, State.unitApply, hobj]
    rw [if_neg (not_not.2 hchk), if_neg (by simp [s1, hawake])]
  case compared =>
    intro s hstage m
    refine ⟨_, execUcbMirrorCompare_eq hstage, rfl, fun u hu => s.upsetMirror_other u hu, fun u hu hsame => ?_,
      fun u hu hne => ?_, rfl⟩
    · have hd : s.upsetMirror.mirrorDiffers u = false := bne_eq_false_iff_eq.2 hsame
      rw [get_foldl_noteUnit, if_pos hu, hd]
      rfl
    · have hd : s.upsetMirror.mirrorDiffers u = true := bne_iff_ne.2 hne
      rw [get_foldl_noteUnit, if_pos hu, hd, differsSince, if_pos rfl]
      split <;> omega
  case diverged =>
    intro s u hstage hpresent hdiff hmirror hsince
    have hu : u < 201 := by
      simp only [State.present, Bool.and_eq_true, decide_eq_true_eq] at hpresent
      exact hpresent.1
    have hcls : sourceClass (Es.stateDivergence u) ≠ .fatal := by
      have : Es.stateDivergence u < 0x192 := by unfold Es.stateDivergence; omega
      simp [sourceClass, this]
    refine .of_occ rfl (by simp [hstage, hpresent, hdiff, hmirror, State.passed, hsince]) ⟨?_, ?_⟩
    · simp [State.unitSt]
    · exact State.srcCount_raise s _ hcls

end Sys2Proof.Machine
end

section
/-!
Registers of rings and functions: what a write does in its turn, where it is seen (R143, R144, R391), and the doorbell, CQ_HEAD,
RESET_CQ, PAUSE and RESUME (R168, R170, R178).
-/
namespace Sys2Proof.Machine
open Sys2Proof

/-! Commands that write a register, in their turn. -/

section
variable {i : Instr} {s t : State} {fn n off st : Nat} {op : HostOp} {checks : List (Bool × Nat)} {go : State → State}

/-- A write of a ring's register that passes its checks takes effect. -/
theorem exec_of_ringAccepted (he : exec i s = s.inOrder fn op (s.ringWrite fn n off checks go)) (hw : s.hostWaits fn = false)
    (hup : s.hostUp = true) (hsees : s.seesRing fn n = true) (hc : firstFail checks = 0) (ht : go s = t := by rfl) :
    exec i s = .next t := by
  subst ht
  rw [he, State.inOrder_of_first _ _ hw]
  simp [State.ringWrite, hup, hsees, hc]

/-- A write of a ring's register whose first failing check has a status is rejected with it (R144). -/
theorem exec_of_ringRejected (he : exec i s = s.inOrder fn op (s.ringWrite fn n off checks go)) (hw : s.hostWaits fn = false)
    (hup : s.hostUp = true) (hsees : s.seesRing fn n = true) (hc : firstFail checks = st) (hst : st ≠ 0) :
    exec i s = .next (s.ringReject n off st) := by
  rw [he, State.inOrder_of_first _ _ hw]
  simp [State.ringWrite, hup, hsees, hc, hst]

/-- A write of a page that the function does not see is discarded (R143). -/
theorem exec_of_ringUnseen (he : exec i s = s.inOrder fn op (s.ringWrite fn n off checks go)) (hw : s.hostWaits fn = false)
    (hsees : s.seesRing fn n = false) : exec i s = .next s := by
  rw [he, State.inOrder_of_first _ _ hw]
  simp [State.ringWrite, hsees]

end

/-! Rings under their registers. -/

theorem State.cqNamed_iff (s : State) (n : Nat) :
    s.cqNamed n = true ↔ ∃ e ∈ s.host.rings, e.2.st ≠ .disabled ∧ e.2.cqId = n := by
  simp [State.cqNamed]

theorem State.cqNamed_eq_false_iff (s : State) (n : Nat) :
    s.cqNamed n = false ↔ ∀ e ∈ s.host.rings, e.2.st ≠ .disabled → e.2.cqId ≠ n := by
  simp [State.cqNamed]

/-- A ring in one state goes to another (PAUSE and RESUME, R170). -/
def State.ringFromTo (s : State) (n : Nat) (a b : RingState) : State :=
  if (s.ring n).st == a then s.setRing n { s.ring n with st := b } else s

theorem State.ringFromTo_spec (s : State) (n : Nat) (a b : RingState) :
    (s.ringFromTo n a b).ring n = { s.ring n with st := if (s.ring n).st = a then b else (s.ring n).st } ∧
      (∀ m, m ≠ n → (s.ringFromTo n a b).ring m = s.ring m) ∧ (s.ringFromTo n a b).seqs = s.seqs ∧
      (s.ringFromTo n a b).dict = s.dict ∧ (s.ringFromTo n a b).mem = s.mem := by
  by_cases h : (s.ring n).st = a
  · simp only [State.ringFromTo, h, beq_self_eq_true, if_true]
    exact ⟨State.ring_setRing_same _ _ _, fun m hm => State.ring_setRing_other _ _ _ _ hm, rfl, rfl, rfl⟩
  · simp [State.ringFromTo, h]

theorem State.ring_resetCqNow_same (s : State) (n : Nat) :
    (s.resetCqNow n).ring n = { s.ring n with cqHead := 0, cqTail := 0, phase := true, pend := 0, pendSince := 0 } :=
  s.ring_setRing_same n _

theorem State.ring_resetCqNow_other (s : State) {n m : Nat} (h : m ≠ n) : (s.resetCqNow n).ring m = s.ring m :=
  s.ring_setRing_other n m _ h

/-- A ring is ready only while it is RUNNING (R161). -/
theorem State.ringReady_of_not_running {s : State} {n : Nat} (h : (s.ring n).st ≠ .running) : s.ringReady n = false := by
  simp [State.ringReady, h]

/-- Settles O35: each write waits, is discarded, is rejected by its first failing check, or changes the one ring it is about. -/
theorem doorbellsHeadsAndRingResets : Obligations.DoorbellsHeadsAndRingResets := by
  unfold Obligations.DoorbellsHeadsAndRingResets
  refine ⟨fun s fn n v hup hfn hw => ?waits, fun s fn n v hup hw => ?turn⟩
  case waits =>
    exact ⟨State.inOrder_of_waits _ _ hup hfn hw, State.inOrder_of_waits _ _ hup hfn hw, State.inOrder_of_waits _ _ hup hfn hw,
      State.inOrder_of_waits _ _ hup hfn hw, State.inOrder_of_waits _ _ hup hfn hw⟩
  case turn =>
    dsimp only
    refine ⟨fun hsees hv => ⟨fun hst hlt => ⟨?doorbell, fun hidle => ?notReady⟩, fun hlt hst => ?resetting, fun hle => ?bound,
      fun hin => ?head, fun hpast => ?past⟩, fun hsees => ⟨fun hnamed => ?named, fun hfree => ?resetCq, ?pause, ?resume⟩,
      fun hsees => ?unseen, fun off st => ?reject⟩
    case doorbell =>
      refine exec_of_ringAccepted rfl hw hup hsees ?_
      simp [firstFail, hv.not_ge, hlt.not_ge, hst]
    case notReady =>
      refine State.ringReady_of_not_running ?_
      rw [State.ring_setRing_same]
      obtain h | h := hidle <;> simp [h]
    case resetting =>
      refine exec_of_ringRejected rfl hw hup hsees ?_ (by decide)
      simp [firstFail, hv.not_ge, hlt.not_ge, hst]
    case bound =>
      refine exec_of_ringRejected rfl hw hup hsees ?_ (by decide)
      simp [firstFail, hv.not_ge, hle]
    case head =>
      refine exec_of_ringAccepted rfl hw hup hsees ?_
      rw [not_or] at hin
      simp [firstFail, hv.not_ge, hin]
    case past =>
      refine exec_of_ringRejected rfl hw hup hsees ?_ (by decide)
      simp [firstFail, hv.not_ge, hpast]
    case named =>
      refine exec_of_ringRejected rfl hw hup hsees ?_ (by decide)
      simp [firstFail, (s.cqNamed_iff n).2 hnamed]
    case resetCq =>
      have hchk : firstFail [(s.cqNamed n, Sc.accessDenied)] = 0 := by simp [firstFail, (s.cqNamed_eq_false_iff n).2 hfree]
      refine ⟨s.resetCqNow n, exec_of_ringAccepted rfl hw hup hsees hchk, ?_⟩
      dsimp only
      rw [State.ring_resetCqNow_same]
      refine ⟨rfl, rfl, rfl, fun w hin => ?_, fun w hne => ?_, fun m hm => s.ring_resetCqNow_other hm, rfl⟩
      · simpa using (List.mem_filter.1 hin).2
      · simp [State.resetCqNow, hne, State.setRing]
    case pause => exact ⟨s.ringFromTo n .running .paused, exec_of_ringAccepted rfl hw hup hsees rfl, s.ringFromTo_spec n _ _⟩
    case resume => exact ⟨s.ringFromTo n .paused .running, exec_of_ringAccepted rfl hw hup hsees rfl, s.ringFromTo_spec n _ _⟩
    case unseen =>
      simp only [List.forall_mem_cons, List.not_mem_nil, false_implies, implies_true, and_true]
      exact ⟨exec_of_ringUnseen rfl hw hsees, exec_of_ringUnseen rfl hw hsees, exec_of_ringUnseen rfl hw hsees,
        exec_of_ringUnseen rfl hw hsees, exec_of_ringUnseen rfl hw hsees, exec_of_ringUnseen rfl hw hsees,
        exec_of_ringUnseen rfl hw hsees, exec_of_ringUnseen rfl hw hsees, exec_of_ringUnseen rfl hw hsees⟩
    case reject =>
      exact ⟨State.ring_setRing_same _ _ _, fun m hm => State.ring_setRing_other _ _ _ _ hm, State.obj_bump_same _ _ _⟩

end Sys2Proof.Machine
end

section
/-!
The background of work: what units, programs, engines, the network and messages leave as it is, and that each of their operations
leaves it (R29, R125, R167, R260, R292).
-/
namespace Sys2Proof.Machine
open Sys2Proof

/-- The state without what work changes: outputs, objects, transports, error records, control blocks, programs, engines, the network,
tiles and lanes, the vectors of the host link, and the redirections of tile stores. -/
def State.background (s : State) : State :=
  { s with
    out := [], dict := [], blocks := [], oap := {}, agg := {}, safety := { s.safety with errN := false }, ucbs := [], captured := []
    seqs := [], str := {}, net := {}, tiles := {}, link := {}, host := { s.host with vectors := [], irqMultihit := 0 }
    mem := { s.mem with redirect := [] } }

section
variable {s t u : State}

theorem State.ring_of_background (h : t.background = s.background) (n : Nat) : t.ring n = s.ring n :=
  show t.background.ring n = s.background.ring n by rw [h]

theorem State.byteAt_of_background (h : t.background = s.background) (a : Nat) : t.byteAt a = s.byteAt a :=
  show t.background.byteAt a = s.background.byteAt a by rw [h]

/-- A branch keeps what both of its sides keep. -/
theorem State.background_ite {c : Prop} [Decidable c] (ht : t.background = s.background) (hu : u.background = s.background) :
    (if c then t else u).background = s.background := by split <;> assumption

end

theorem State.background_foldl {β : Type} {f : State → β → State} (hf : ∀ u b, (f u b).background = u.background) (l : List β)
    (s : State) : (l.foldl f s).background = s.background := foldl_keeps State.background hf l s

theorem Noted.background {K : Nat → Prop} {s t : State} (h : Noted K s t) : t.background = s.background := by
  obtain ⟨_, _, _, _, _, _, _, rfl, -⟩ := h
  rfl

section
variable (s : State)

@[simp] theorem State.background_setObj (key v : Nat) : (s.setObj key v).background = s.background := rfl
@[simp] theorem State.background_bump (key n : Nat) : (s.bump key n).background = s.background := rfl
@[simp] theorem State.background_setBlock (key : Nat) (v : List Byte) : (s.setBlock key v).background = s.background := rfl
@[simp] theorem State.background_setUcb (u : Nat) (b : Ucb) : (s.setUcb u b).background = s.background := rfl
@[simp] theorem State.background_setDom (u : Nat) (d : Domain) : (s.setDom u d).background = s.background := rfl
@[simp] theorem State.background_powerUp (u : Nat) : (s.powerUp u).background = s.background := rfl
@[simp] theorem State.background_setHand (n : Nat) (h : Hand) : (s.setHand n h).background = s.background := rfl
@[simp] theorem State.background_setTile (n : Nat) (x : Tile) : (s.setTile n x).background = s.background := rfl
@[simp] theorem State.background_setRedirect (t : Nat) (v : Option Nat) : (s.setRedirect t v).background = s.background := rfl
@[simp] theorem State.background_setEngine (e : Nat) (x : Engine) : (s.setEngine e x).background = s.background := rfl
@[simp] theorem State.background_setSlot (q k : Nat) (t : Slot) : (s.setSlot q k t).background = s.background := rfl

/-! Errors that are not FATAL. -/

theorem State.background_raiseVector (fn v : Nat) : (s.raiseVector fn v).background = s.background :=
  ((Noted.refl (K := fun _ => True) s).raiseVector).background

theorem State.background_routeError (src : Nat) : (s.routeError src).background = s.background := by
  simp only [State.routeError]
  split
  · rfl
  · rw [State.background_raiseVector]
    exact State.background_ite rfl rfl

theorem State.background_reportError (src : Nat) (e : ErrInfo) : (s.reportError src e).background = s.background := by
  simp only [State.reportError]
  refine State.background_ite ?_ rfl
  rw [State.background_routeError, ((Noted.refl (K := fun _ => True) _).sendEvent trivial).background]
  rfl

/-- Only a FATAL error stops the host link and the work (R755). -/
theorem State.background_raise {src : Nat} (e : ErrInfo) (h : sourceClass src ≠ .fatal) :
    (s.raise src e).background = s.background := by
  simp only [State.raise, beq_eq_false_iff_ne.2 h, Bool.false_eq_true, if_false]
  have hr : (((s.recordError src e).bump (classCounter (sourceClass src))).reportError src e).background = s.background := by
    rw [State.background_reportError, State.background_bump]
    rfl
  exact State.background_ite hr hr

end

/-! Requests on the network. -/

/-- `t` is `s` but for what a request's way changes: the packets, the tags, the tables and statistics of the NIs, and the count of
routes with several entries. -/
def Routed (s t : State) : Prop :=
  ∃ nis st ps out next d,
    t = { s with net := { s.net with nis := nis, stats := st, packets := ps, outst := out, nextId := next }, dict := d } ∧
    ∀ k, k ≠ Obj.ROUTE_MULTIHIT_TOTAL → t.obj k = s.obj k

section
variable {s t u : State}

theorem Routed.refl (s : State) : Routed s s := ⟨_, _, _, _, _, _, rfl, fun _ _ => rfl⟩

theorem Routed.trans (h : Routed s t) (h' : Routed t u) : Routed s u := by
  obtain ⟨_, _, _, _, _, _, ht, hk⟩ := h
  obtain ⟨_, _, _, _, _, _, hu, hk'⟩ := h'
  exact ⟨_, _, _, _, _, _, by rw [hu, ht], fun k hn => (hk' k hn).trans (hk k hn)⟩

theorem Routed.ite {c : Prop} [Decidable c] (h : Routed s t) (h' : Routed s u) : Routed s (if c then t else u) := by
  split <;> assumption

theorem Routed.background (h : Routed s t) : t.background = s.background := by
  obtain ⟨_, _, _, _, _, _, rfl, -⟩ := h
  rfl

theorem Routed.setNi (s : State) (n : Nat) (x : Ni) : Routed s (s.setNi n x) := ⟨_, _, _, _, _, _, rfl, fun _ _ => rfl⟩

theorem Routed.countSent (s : State) (ag : Agent) (n : Nat) : Routed s (s.countSent ag n) :=
  .ite ⟨_, _, _, _, _, _, rfl, fun _ _ => rfl⟩ (.refl s)

theorem Routed.chooseRoute (s : State) (node dst tc : Nat) : Routed s (s.chooseRoute node dst tc).2 := by
  simp only [State.chooseRoute]
  split
  · split
    · exact .setNi ..
    · exact .ite (.refl s) ((Routed.setNi ..).trans ⟨_, _, _, _, _, _, rfl, fun k hk => State.obj_bump_other _ _ _ _ hk⟩)
  · exact .refl s

/-- A request that is sent changes the network, and of the objects one count at most. -/
theorem Routed.of_send {p : Packet} {use : Use} (h : s.send p use = some t) : Routed s t := by
  simp only [State.send] at h
  have hr := Routed.chooseRoute s (agentNode p.agent) p.dst p.tc
  have hq (x : State) (ps : List Packet) (next : Nat) :
      Routed x { x with net := { x.net with packets := ps, nextId := next } } := ⟨_, _, _, _, _, _, rfl, fun _ _ => rfl⟩
  split at h
  · cases h
    exact hr.trans ((Routed.countSent ..).trans (hq ..))
  · split at h
    · cases h
    · split at h
      · cases h
      · cases h
        refine hr.trans (Routed.trans ?_ ((Routed.countSent ..).trans (hq ..)))
        exact ⟨_, _, _, _, _, _, rfl, fun _ _ => rfl⟩

end

/-! Chains and programs that stop. -/

section
variable (s : State)

theorem State.background_cancelWait (w : Waiter) (m : Nat) : (s.cancelWait w m).background = s.background := by
  simp only [State.cancelWait]
  split
  · rfl
  · split
    · next h => exact (Routed.of_send h).background.trans rfl
    · rfl

theorem State.background_endChain (e st : Nat) : (s.endChain e st).background = s.background := by
  unfold State.endChain
  extract_lets x st1 st2 s1 y s2 s3
  have h2 : s2.background = s.background := s.background_cancelWait _ _
  have h3 : s3.background = s.background := State.background_ite h2 h2
  refine State.background_ite rfl (State.background_ite ?_ h3)
  rw [State.background_raise _ _ (by decide), State.background_bump, h3]

theorem State.background_stopChain (e st : Nat) : (s.stopChain e st).background = s.background := by
  simp only [State.stopChain]
  refine State.background_ite ?_ ?_ <;> simp [State.background_cancelWait, State.background_endChain]

theorem State.background_stopRingChains (n : Nat) : (s.stopRingChains n).background = s.background := by
  unfold State.stopRingChains
  exact State.background_foldl (fun u e => u.background_stopChain _ _) _ s

theorem State.background_loseRsv (q k : Nat) : (s.loseRsv q k).background = s.background := by
  simp only [State.loseRsv]
  exact State.background_ite (by simp) rfl

theorem State.background_stopWait (q k : Nat) : (s.stopWait q k).background = s.background := by
  simp only [State.stopWait]
  split
  · rfl
  · simp [State.background_cancelWait]

/-! Moves of units. -/

theorem State.background_startDrain (u : Nat) (t : UState) : (s.startDrain u t).background = s.background := by
  refine (State.background_setDom _ _ _).trans (State.background_foldl (fun v e => ?_) _ _)
  exact State.background_ite rfl (v.background_endChain _ _)

theorem State.background_loadShadow (key v : Nat) : (s.loadShadow key v).background = s.background := by
  have h : (if blockBytes key = 0 then s.setObj key v else s.setBlock key (leBytes (blockBytes key) v)).background = s.background :=
    State.background_ite (s.background_setObj _ _) (s.background_setBlock _ _)
  exact State.background_ite h h

theorem State.background_shadowLoad (u : Nat) : (s.shadowLoad u).background = s.background :=
  State.background_ite rfl (State.background_foldl (fun v _ => v.background_loadShadow _ _) _ _)

theorem State.background_enterReady (u : Nat) : (s.enterReady u).background = s.background := by
  rw [State.enterReady, State.background_shadowLoad, State.background_setUcb, State.background_setDom]

theorem State.background_wake (u : Nat) : (s.wake u).background = s.background := by
  simp only [State.wake]
  split
  · simp
  · exact State.background_ite (by simp) (State.background_ite rfl (by simp))
  · rfl
  · exact State.background_ite rfl (by simp)

theorem State.background_unhood (u : Nat) : (s.unhood u).background = s.background := by
  simp only [State.unhood]
  split
  · split
    · rfl
    · rfl
    · exact s.background_enterReady u
  · exact s.background_enterReady u

/-- A unit's move toward a state is a matter of its domain, its control block and its engines. -/
theorem State.background_moveUnit (u : Nat) (t : UState) : (s.moveUnit u t).background = s.background := by
  simp only [State.moveUnit]
  refine State.background_ite rfl ?_
  split
  · split
    · exact State.background_ite rfl (s.background_wake u)
    · exact State.background_wake _ u
    · rfl
    · split
      · exact s.background_unhood u
      · rfl
      · rfl
      · rfl
  · split
    · rfl
    · exact State.background_ite (State.background_ite rfl rfl) rfl
    · rfl
    · split
      · exact s.background_startDrain u _
      · exact State.background_ite rfl rfl
      · exact State.background_ite rfl (State.background_ite rfl rfl)
      · exact State.background_ite rfl (State.background_ite rfl rfl)
      · rfl

/-! Slots that are freed. -/

theorem State.background_restSpare (v : Nat) : (s.restSpare v).background = s.background := by
  simp only [State.restSpare]
  split
  · split <;> exact s.background_moveUnit v _
  · rfl

theorem State.background_settleHand (t : Nat) : (s.settleHand t).background = s.background := by
  simp only [State.settleHand]
  split
  · exact State.background_ite rfl ((State.background_restSpare _ _).trans (by simp))
  · rfl

/-- The unit of a program that has left goes on (R29). -/
theorem State.background_unitIdle (u : Nat) : (s.unitIdle u).background = s.background := by
  unfold State.unitIdle
  extract_lets s1 b s2
  have h1 : s1.background = s.background := by
    dsimp only [s1]
    split
    · exact s.background_settleHand _
    · rfl
  have hucb (x : Ucb) : (s1.setUcb u x).background = s.background := (State.background_setUcb _ _ _).trans h1
  refine State.background_ite rfl ?_
  split
  · exact hucb _
  · split
    · exact (State.background_setUcb _ _ _).trans (hucb _)
    · exact (State.background_moveUnit _ _ _).trans (hucb _)
    · exact hucb _
  · exact h1

theorem State.background_vacate (q k : Nat) (t : Slot) : (s.vacate q k t).background = s.background := by
  simp only [State.vacate]
  exact State.background_ite (by simp) (by simp)

theorem State.background_freeSlot (q k : Nat) : (s.freeSlot q k).background = s.background := by
  refine (State.background_foldl (fun u _ => u.background_unitIdle _) _ _).trans ((State.background_unitIdle _ _).trans ?_)
  exact State.background_foldl (fun u m => u.background_vacate _ _ _) _ _

end

end Sys2Proof.Machine
end

section
/-!
Resets of rings, and the registers that configure rings and bind contexts, rings and routes (R144 to R146, R151 to R153, R167, R171).
-/
namespace Sys2Proof.Machine
open Sys2Proof

/-! The reset of a ring. -/

/-- A ring whose reset begins, with the reads of its entries called off, before its programs and chains stop (R167). -/
def State.ringCalledOff (s : State) (n : Nat) (andCq : Bool) : State :=
  let t := s.setRing n { s.ring n with st := .resetting, fetched := [], resetCqAfter := (s.ring n).resetCqAfter || andCq }
  { t with host := { t.host with reads := t.host.reads.filter fun x => match x.2 with | .entry m _ => m != n | _ => true } }

/-- That programs and chains stop leaves the background as the beginning of the reset made it. -/
theorem State.background_resetSq (s : State) (n : Nat) (andCq : Bool) :
    (s.resetSq n andCq).background = (s.ringCalledOff n andCq).background := by
  unfold State.resetSq
  extract_lets r t host u v
  have hv : v.background = u.background := State.background_foldl (fun w x => by
    rw [State.background_setSlot, State.background_loseRsv, State.background_stopWait]) _ u
  exact (v.background_stopRingChains n).trans hv

theorem State.ring_resetSq_same (s : State) (n : Nat) (andCq : Bool) :
    (s.resetSq n andCq).ring n =
      { s.ring n with st := .resetting, fetched := [], resetCqAfter := (s.ring n).resetCqAfter || andCq } :=
  (State.ring_of_background (s.background_resetSq n andCq) n).trans (s.ring_setRing_same n _)

theorem State.ring_resetSq_other (s : State) {n m : Nat} (andCq : Bool) (h : m ≠ n) : (s.resetSq n andCq).ring m = s.ring m :=
  (State.ring_of_background (s.background_resetSq n andCq) m).trans (s.ring_setRing_other n m _ h)

/-- A ring that awaits no RESET_CQ keeps all of its page when those of a Function Level Reset that do are reset. -/
theorem State.ring_settleFlr {s : State} {n : Nat} (h : (s.ring n).resetCqAfter = false) : s.settleFlr.ring n = s.ring n := by
  unfold State.settleFlr
  refine List.foldlRecOn (motive := fun u : State => u.ring n = s.ring n) _ _ rfl fun u hu e _ => ?_
  dsimp only
  split
  · next hc =>
    have hne : n ≠ e.1 := by
      rintro rfl
      simp [hu, h] at hc
    rw [State.ring_resetCqNow_other _ hne, State.ring_setRing_other _ _ _ _ hne, hu]
  · exact hu

@[simp] theorem State.ground_resetCqNow (s : State) (n : Nat) : (s.resetCqNow n).ground = s.ground := rfl

theorem State.ground_settleFlr (s : State) : s.settleFlr.ground = s.ground := by
  unfold State.settleFlr
  exact State.ground_foldl (fun u e => State.ground_ite (by simp) rfl) _ _

/-- The page of a ring after its reset (R167). -/
def Ring.afterReset (r : Ring) : Ring :=
  { r with
    sqHead := 0, sqTail := 0, regStatus := 0, faultInfo := 0, sqCfg := setBits r.sqCfg 63 1 0, st := .disabled, fetched := []
    inFlight := 0, resetCqAfter := r.resetCqAfter && r.flr, perst := false, lastTarget := 0 }

/-- The end of the reset of a ring of which RESET_CQ was not asked rewrites its page, and changes no byte of memory. -/
theorem State.finishReset_spec {s : State} {n : Nat} (h : (s.ring n).resetCqAfter = false) :
    (s.finishReset n).ring n = (s.ring n).afterReset ∧ ∀ a, (s.finishReset n).byteAt a = s.byteAt a := by
  unfold State.finishReset
  extract_lets u r v
  have hu : u.background = s.background := State.background_foldl (fun w x => w.background_freeSlot _ _) _ s
  have hr : r = s.ring n := State.ring_of_background hu n
  have hv : v.ring n = (s.ring n).afterReset := (u.ring_setRing_same n _).trans (by rw [hr]; rfl)
  have hbyte : ∀ a, v.byteAt a = s.byteAt a := State.byteAt_of_background (t := u) hu
  clear_value u v
  have hcq : (v.ring n).resetCqAfter = false := by rw [hv, Ring.afterReset, h, Bool.false_and]
  split
  · have hcells : v.settleFlr.mem.cells = v.mem.cells := (State.ground_eq_iff.1 v.ground_settleFlr).2.1
    exact ⟨(State.ring_settleFlr hcq).trans hv, fun a => (congrArg (SMap.get 0 · a) hcells).trans (hbyte a)⟩
  · simp only [hr, h, Bool.not_false, if_true]
    exact ⟨hv, hbyte⟩

theorem bit_setBits_enable (v : Nat) : bit (setBits v 63 1 0) 63 = false := by
  have h : setBits v 63 1 0 / 2 ^ 63 % 2 = 0 := by
    unfold setBits
    omega
  rw [bit, h]
  rfl

/-! Commands that write a binding or function register, in their turn. -/

section
variable {i : Instr} {s t : State} {fn off st : Nat} {op : HostOp} {may : Bool} {checks : List (Bool × Nat)} {go : State → State}

/-- A write of a function's register that passes its checks takes effect. -/
theorem exec_of_fnAccepted (he : exec i s = s.inOrder fn op (s.fnWrite fn off may checks go)) (hw : s.hostWaits fn = false)
    (hup : s.hostUp = true) (hfn : s.fnAnswers fn = true) (hmay : may = true) (hc : firstFail checks = 0) (ht : go s = t := by rfl) :
    exec i s = .next t := by
  subst ht
  rw [he, State.inOrder_of_first _ _ hw]
  simp [State.fnWrite, hup, hfn, hmay, hc]

/-- A write of a function's register whose first failing check has a status is rejected with it (R144). -/
theorem exec_of_fnRejected (he : exec i s = s.inOrder fn op (s.fnWrite fn off may checks go)) (hw : s.hostWaits fn = false)
    (hup : s.hostUp = true) (hfn : s.fnAnswers fn = true) (hmay : may = true) (hc : firstFail checks = st) (hst : st ≠ 0) :
    exec i s = .next (s.fnReject fn off st) := by
  rw [he, State.inOrder_of_first _ _ hw]
  simp [State.fnWrite, hup, hfn, hmay, hc, hst]

/-- A write of a register that is not the function's is discarded (R143). -/
theorem exec_of_fnForeign (he : exec i s = s.inOrder fn op (s.fnWrite fn off may checks go)) (hw : s.hostWaits fn = false)
    (hmay : may = false) : exec i s = .next s := by
  rw [he, State.inOrder_of_first _ _ hw]
  simp [State.fnWrite, hmay]

end

/-! What names a context. -/

/-- A context is in use: a ring that is not DISABLED or an enabled window names it (R145). -/
def State.ctxNamed (s : State) (c : Nat) : Bool :=
  (s.host.rings.any fun e => e.2.st != .disabled && e.2.ctxOf == c) || (s.host.bar2Ctx.any fun e => bit e.2 31 && bits e.2 0 6 == c)

theorem State.ctxNamed_iff (s : State) (c : Nat) : s.ctxNamed c = true ↔
    (∃ e ∈ s.host.rings, e.2.st ≠ .disabled ∧ e.2.ctxOf = c) ∨
      ∃ e ∈ s.host.bar2Ctx, bit e.2 31 = true ∧ bits e.2 0 6 = c := by
  simp [State.ctxNamed]

theorem State.ctxNamed_eq_false_iff (s : State) (c : Nat) : s.ctxNamed c = false ↔
    (∀ e ∈ s.host.rings, e.2.st ≠ .disabled → e.2.ctxOf ≠ c) ∧
      ∀ e ∈ s.host.bar2Ctx, bit e.2 31 = true → bits e.2 0 6 ≠ c := by
  simp [State.ctxNamed]

theorem execCtxBindWrite_eq (fn c v : Nat) (s : State) : execCtxBindWrite fn c v s =
    s.inOrder fn (.bar0Write (0x1000 + 8 * c) 8 v) (s.fnWrite fn (0x1000 + 8 * c) (fn == 0 && decide (c < 64))
      [(bits v 6 57 ≠ 0 || decide (2 ^ 64 ≤ v), Sc.reservedNonzero),
        (s.ctxNamed c || decide (s.host.numVfs < bits v 0 6), Sc.accessDenied)]
      fun s => { s with host := { s.host with ctxBind := SMap.set 0 s.host.ctxBind c v } }) := rfl

/-- Settles O36: each write is kept, discarded or rejected by its first failing check, and of a ring's reset only its own steps
reach the rings. -/
theorem ringAndBindingConfiguration : Obligations.RingAndBindingConfiguration := by
  unfold Obligations.RingAndBindingConfiguration
  refine ⟨fun s fn n v hup hsees hw => ?config, fun s n hst hcq hperst hdrained => ?resetDone,
    fun s i v hup hfn hw hv => ?bindings, fun s i v hup hfn hw => ?bar2⟩
  case config =>
    dsimp only
    refine ⟨fun hsound hst hoff => ?disabled, fun hsound hst hon hmay => ?enabled, fun hsound hwas hon hmay => ?mayNot,
      fun hsound hst hdiff => ?fixed, fun hsound hst hsame hoff => ?stopped, fun hsound hvec hoff => ?cq,
      fun hsound hvec => ?vector, fun hsound hvec hwas hoff hnamed => ?cqNamed, fun b => ?reset⟩
    case disabled =>
      refine exec_of_ringAccepted rfl hw hup hsees ?_ ?_
      · simp [firstFail, hsound, hst, hoff]
      · simp [hst, hoff]
    case enabled =>
      refine exec_of_ringAccepted rfl hw hup hsees ?_ ?_
      · simp [firstFail, hsound, hst, hmay]
      · simp [hst, hon]
    case mayNot =>
      refine exec_of_ringRejected rfl hw hup hsees ?_ (by decide)
      simp [firstFail, hsound, hwas, hon, hmay]
    case fixed =>
      refine exec_of_ringRejected rfl hw hup hsees ?_ (by decide)
      simp only [not_and_or] at hdiff
      simp [firstFail, hsound, hst, hdiff, or_assoc]
    case stopped =>
      obtain ⟨hctx, hcq, hsize⟩ := hsame
      refine exec_of_ringAccepted rfl hw hup hsees ?_ ?_
      · simp [firstFail, hsound, hctx, hcq, hsize, hoff]
      · simp [hst, hoff]
    case cq =>
      refine exec_of_ringAccepted rfl hw hup hsees ?_
      simp [firstFail, hsound, hvec.not_ge, hoff]
    case vector =>
      refine exec_of_ringRejected rfl hw hup hsees ?_ (by decide)
      simp [firstFail, hsound, hvec]
    case cqNamed =>
      refine exec_of_ringRejected rfl hw hup hsees ?_ (by decide)
      simp [firstFail, hsound, hvec.not_ge, hwas, hoff, hnamed]
    case reset =>
      refine ⟨s.resetSq n b, exec_of_ringAccepted rfl hw hup hsees rfl, ?_⟩
      dsimp only
      rw [State.ring_resetSq_same]
      have hcells : (s.resetSq n b).mem.cells = s.mem.cells := (State.ground_eq_iff.1 (s.ground_resetSq n b)).2.1
      exact ⟨rfl, rfl, fun m hm => s.ring_resetSq_other b hm, fun a => congrArg (SMap.get 0 · a) hcells⟩
  case resetDone =>
    refine .of_occ rfl (by simpa [hst, hperst] using hdrained) ?_
    obtain ⟨hring, hbyte⟩ := State.finishReset_spec hcq
    rw [hring]
    exact ⟨rfl, rfl, rfl, rfl, rfl, bit_setBits_enable _, hbyte⟩
  case bindings =>
    refine ⟨fun hi hsound hrings hbar2 hvf => ?ctx, fun hi hsound hbad => ?ctxBad, fun hi hsound hst hcq hvf => ?ring,
      fun hi hsound hbad => ?ringBad, fun hi h59 h38 h25 h9 hvf => ?route, fun hi h59 h38 h25 h9 hvf => ?routeBad⟩
    case ctx =>
      have hfree : s.ctxNamed i = false := (s.ctxNamed_eq_false_iff i).2 ⟨hrings, hbar2⟩
      refine exec_of_fnAccepted (execCtxBindWrite_eq 0 i v s) hw hup hfn (by simp [hi]) ?_
      simp [firstFail, hsound, hv.not_ge, hfree, hvf.not_gt, -Nat.reducePow]
    case ctxBad =>
      rw [← or_assoc, ← State.ctxNamed_iff] at hbad
      refine exec_of_fnRejected (execCtxBindWrite_eq 0 i v s) hw hup hfn (by simp [hi]) ?_ (by decide)
      simp [firstFail, hsound, hv.not_ge, hbad, -Nat.reducePow]
    case ring =>
      refine exec_of_fnAccepted rfl hw hup hfn (by simp [hi]) ?_
      simp [firstFail, hsound, hv.not_ge, hst, hcq, hvf.not_gt, -Nat.reducePow]
    case ringBad =>
      refine exec_of_fnRejected rfl hw hup hfn (by simp [hi]) ?_ (by decide)
      simp [firstFail, hsound, hv.not_ge, hbad, or_assoc, -Nat.reducePow]
    case route =>
      refine exec_of_fnAccepted rfl hw hup hfn (by simp [hi]) ?_
      simp [firstFail, h59, h38, h25, h9, hv.not_ge, hvf.not_gt, -Nat.reducePow]
    case routeBad =>
      refine exec_of_fnRejected rfl hw hup hfn (by simp [hi]) ?_ (by decide)
      simp [firstFail, h59, h38, h25, h9, hv.not_ge, hvf, -Nat.reducePow]
  case bar2 =>
    refine ⟨fun hv hsound howned => ?kept, fun hv hsound hon howned => ?foreign, fun hi j => ?notPf⟩
    case kept =>
      refine exec_of_fnAccepted rfl hw hup hfn rfl ?_
      cases hon : bit v 31 with
      | false => simp [firstFail, hsound, hv.not_ge, -Nat.reducePow]
      | true => simp [firstFail, hsound, hv.not_ge, howned hon, -Nat.reducePow]
    case foreign =>
      refine exec_of_fnRejected rfl hw hup hfn rfl ?_ (by decide)
      simp [firstFail, hsound, hv.not_ge, hon, howned, -Nat.reducePow]
    case notPf =>
      exact ⟨exec_of_fnForeign rfl hw (by simp [hi]), exec_of_fnForeign rfl hw (by simp [hi]), exec_of_fnForeign rfl hw (by simp [hi])⟩

end Sys2Proof.Machine
end

section
/-!
Dispatch: the ring that a decision serves, what a completion and a translation leave of the rings, and what becomes of an entry at the
head of its ring (R158, R159, R161, R162, R164).
-/
namespace Sys2Proof.Machine
open Sys2Proof

/-! The ring that a decision serves. -/

/-- The largest value over a list that is not empty is taken in it. -/
theorem foldl_max_spec (f : Nat → Nat) {l : List Nat} (h : l ≠ []) :
    (∃ n ∈ l, f n = l.foldl (fun m n => max m (f n)) 0) ∧ ∀ n ∈ l, f n ≤ l.foldl (fun m n => max m (f n)) 0 := by
  obtain ⟨x, xs, rfl⟩ := List.exists_cons_of_ne_nil h
  have hmax : ((x :: xs).map f).max? = some ((x :: xs).foldl (fun m n => max m (f n)) 0) := by
    rw [List.map_cons, List.max?_cons', List.foldl_map, List.foldl_cons, Nat.zero_max]
  obtain ⟨hin, hle⟩ := List.max?_eq_some_iff.1 hmax
  exact ⟨List.mem_map.1 hin, fun n hn => hle _ (List.mem_map_of_mem hn)⟩

theorem find?_getD_headD_mem {l : List Nat} (q : Nat → Bool) (h : l ≠ []) : (l.find? q).getD (l.headD 0) ∈ l := by
  cases hf : l.find? q with
  | some n => exact List.mem_of_find?_eq_some hf
  | none =>
    obtain ⟨x, xs, rfl⟩ := List.exists_cons_of_ne_nil h
    exact List.mem_cons_self

/-- The rings that are ready. -/
def State.readyRings (s : State) : List Nat := (s.host.rings.map (·.1)).filter fun n => s.ringReady n

theorem State.mem_readyRings {s : State} {n : Nat} :
    n ∈ s.readyRings ↔ (∃ e ∈ s.host.rings, e.1 = n) ∧ s.ringReady n = true := by
  simp only [State.readyRings, List.mem_filter, List.mem_map]

theorem State.chooseRing_of_none_ready {s : State} (h : s.readyRings = []) : s.chooseRing = none := by
  simp only [State.chooseRing]
  rw [show (s.host.rings.map (·.1)).filter (fun n => s.ringReady n) = [] from h]

/-- The ring that a decision serves is ready, and none that is ready has a higher priority (R161, R162). -/
theorem State.chooseRing_spec {s : State} {p n used : Nat} (h : s.chooseRing = some (p, n, used)) :
    n ∈ s.readyRings ∧ (s.ring n).prio = p ∧ ∀ m ∈ s.readyRings, (s.ring m).prio ≤ p := by
  unfold State.chooseRing at h
  extract_lets ready at h
  show n ∈ ready ∧ (s.ring n).prio = p ∧ ∀ m ∈ ready, (s.ring m).prio ≤ p
  clear_value ready
  split at h
  · cases h
  · next top cand pos last count after _ hne =>
    have hcand : ∀ m ∈ cand, m ∈ ready ∧ (s.ring m).prio = top := fun m hm => by simpa [cand] using hm
    have hpos : ∀ m ∈ pos, m ∈ cand := fun m hm => (List.mem_filter.1 hm).1
    obtain ⟨⟨m, hm, htop⟩, hle⟩ := foldl_max_spec (fun n => (s.ring n).prio) hne
    have hcne : cand ≠ [] := List.ne_nil_of_mem (List.mem_filter.2 ⟨hm, beq_iff_eq.2 htop⟩)
    have hserved : n ∈ cand ∧ p = top := by
      split_ifs at h with hempty hlast <;> simp only [Option.some.injEq, Prod.mk.injEq] at h <;> obtain ⟨hp, hn, -⟩ := h <;>
        refine ⟨hn ▸ ?_, hp.symm⟩
      · exact find?_getD_headD_mem _ hcne
      · simp only [Bool.and_eq_true, List.contains_iff_mem] at hlast
        exact hpos _ hlast.1
      · exact hpos _ (find?_getD_headD_mem _ (by simpa using hempty))
    obtain ⟨hn, hp⟩ := hserved
    rw [hp]
    exact ⟨(hcand n hn).1, (hcand n hn).2, hle⟩

/-! What a completion leaves of the rings. -/

/-- A ring without what a completion in its CQ changes (R174, R177, R179). -/
def Ring.submission (r : Ring) : Ring :=
  { r with cqTail := 0, phase := true, cqWritten := 0, cqFullEvents := 0, pend := 0, pendSince := 0 }

/-- Every ring of `t` is the one of `s` but for what completions change. -/
def Submitted (s t : State) : Prop := ∀ n, (t.ring n).submission = (s.ring n).submission

section
variable {s t : State}

theorem Submitted.refl (s : State) : Submitted s s := fun _ => rfl

theorem Submitted.of_background (h : t.background = s.background) : Submitted s t :=
  fun n => congrArg Ring.submission (State.ring_of_background h n)

theorem Submitted.ite {c : Prop} [Decidable c] {u : State} (ht : Submitted s t) (hu : Submitted s u) :
    Submitted s (if c then t else u) := by split <;> assumption

theorem Submitted.trans {u : State} (ht : Submitted s t) (hu : Submitted t u) : Submitted s u := fun n => (hu n).trans (ht n)

theorem Submitted.setRing {cq : Nat} {r : Ring} (h : r.submission = (s.ring cq).submission) : Submitted s (s.setRing cq r) := by
  intro n
  by_cases hn : n = cq
  · subst hn
    rw [State.ring_setRing_same, h]
  · rw [State.ring_setRing_other _ _ _ _ hn]

theorem Submitted.st (h : Submitted s t) (n : Nat) : (t.ring n).st = (s.ring n).st :=
  show (t.ring n).submission.st = (s.ring n).submission.st by rw [h n]

theorem Submitted.sqHead (h : Submitted s t) (n : Nat) : (t.ring n).sqHead = (s.ring n).sqHead := 
  show (t.ring n).submission.sqHead = (s.ring n).submission.sqHead by rw [h n]

theorem Submitted.writeCpl (s : State) (cq : Nat) (bs : List Byte) (irq : Bool) : Submitted s (s.writeCpl cq bs irq) := by
  unfold State.writeCpl
  extract_lets r fn bs bs' u tail count fire v
  have hv : Submitted s v := Submitted.setRing (s := u) rfl
  exact .ite (hv.trans (.of_background (v.background_raiseVector _ _))) hv

theorem Submitted.countFull (s : State) (cq : Nat) : Submitted s (s.countFull cq) := .setRing rfl

theorem Submitted.postCpl (s : State) (cq : Nat) (bs : List Byte) (irq : Bool) : Submitted s (s.postCpl cq bs irq) := by
  unfold State.postCpl
  extract_lets r host wait
  have hwait : Submitted s wait := fun _ => rfl
  exact .ite (.refl s) (.ite (hwait.trans (.countFull _ _)) (.ite hwait (.writeCpl _ _ _ _)))

theorem Submitted.entryDone (s : State) (n slot tag status flags : Nat) : Submitted s (s.entryDone n slot tag status flags) :=
  .ite (.refl s) (.postCpl _ _ _ _)

/-- A RUNNING ring that meets a fault is FAULTED, with its FAULT_INFO (R164). -/
theorem State.ring_faultRing {n : Nat} (cause word idx status : Nat) (h : (s.ring n).st = .running) :
    (s.faultRing n cause word idx status).ring n = { s.ring n with
      st := .faulted, faultInfo := cause * 2 ^ 56 + word % 2 ^ 32 * 2 ^ 24 + idx * 2 ^ 8 + status } := by
  simp [State.faultRing, h]

end

/-- The cause and the status that FAULT_INFO shows (Table 4.5). -/
theorem faultInfo_fields {cause idx status : Nat} (word : Nat) (hc : cause < 256) (hi : idx < 65536) (hs : status < 256) :
    bits (cause * 2 ^ 56 + word % 2 ^ 32 * 2 ^ 24 + idx * 2 ^ 8 + status) 56 8 = cause ∧
      bits (cause * 2 ^ 56 + word % 2 ^ 32 * 2 ^ 24 + idx * 2 ^ 8 + status) 0 8 = status := by
  unfold bits
  omega

/-! Translations. -/

/-- `t` is `s` but for what translations change: the aperture controls and the counts of misses, multiple hits and denials. -/
def Translated (s t : State) : Prop :=
  ∃ ctl d, t = { s with mem := { s.mem with aptCtl := ctl }, dict := d } ∧
    ∀ k, k ∉ [Obj.APERTURE_MISSES, Obj.APERTURE_MULTIHIT, Obj.APERTURE_DENIALS] → t.obj k = s.obj k

section
variable {s t u : State}

theorem Translated.refl (s : State) : Translated s s := ⟨_, _, rfl, fun _ _ => rfl⟩

theorem Translated.trans (h : Translated s t) (h' : Translated t u) : Translated s u := by
  obtain ⟨_, _, ht, hk⟩ := h
  obtain ⟨_, _, hu, hk'⟩ := h'
  exact ⟨_, _, by rw [hu, ht], fun k hn => (hk' k hn).trans (hk k hn)⟩

theorem Translated.bump (s : State) {key : Nat} (n : Nat)
    (h : key ∈ [Obj.APERTURE_MISSES, Obj.APERTURE_MULTIHIT, Obj.APERTURE_DENIALS]) : Translated s (s.bump key n) :=
  ⟨_, _, rfl, fun _ hk => State.obj_bump_other _ _ _ _ fun e => hk (e ▸ h)⟩

theorem Translated.setAptCtl (s : State) (c : Nat) (x : AptCtl) : Translated s (s.setAptCtl c x) := ⟨_, _, rfl, fun _ _ => rfl⟩

theorem Translated.host (h : Translated s t) : t.host = s.host := by
  obtain ⟨_, _, rfl, -⟩ := h
  rfl

theorem Translated.byteAt (h : Translated s t) (b : Nat) : t.byteAt b = s.byteAt b := by
  obtain ⟨_, _, rfl, -⟩ := h
  rfl

theorem Translated.devId (h : Translated s t) : t.devId = s.devId := by
  obtain ⟨_, _, -, hk⟩ := h
  exact hk _ (by decide)

theorem Translated.xlate (s : State) (c ca : Nat) (r w : Bool) : Translated s (s.xlate c ca r w).2 := by
  unfold State.xlate
  split
  · exact (Translated.setAptCtl ..).trans (.bump _ _ (by decide))
  · extract_lets x u
    have hu : Translated s u := by
      dsimp only [u]
      split
      · exact .refl s
      · exact (Translated.setAptCtl ..).trans (.bump _ _ (by decide))
    split
    · exact hu.trans (.bump _ _ (by decide))
    · exact hu

end

/-! A decision. -/

/-- The state in which a decision serves a ring: its round remembers the ring and the dispatches used of its WEIGHT (R162). -/
def State.serving (s : State) (p n used : Nat) : State :=
  { s with host := { s.host with lastServed := SMap.set 256 s.host.lastServed p n, used := SMap.set 0 s.host.used p used } }

/-- A translation that an entry's check makes where a range is not mapped, or not for reads, counts (R158). -/
def State.countXlate (s : State) (n : Nat) (f : Fetched) (st a : Nat) : State :=
  if st = Sc.apertureMiss || st = Sc.accessDenied then
    (s.xlate (s.ring n).ctxOf (if st = Sc.apertureMiss then a else fieldLE f.bytes 8 8) true false).2
  else s

theorem State.ring_countXlate (s : State) (n m : Nat) (f : Fetched) (st a : Nat) : (s.countXlate n f st a).ring m = s.ring m := by
  unfold State.countXlate
  split
  · rw [State.ring, (Translated.xlate ..).host]
    rfl
  · rfl

/-- What a verdict makes of the head entry of the ring that is served (R158, R159, R164). -/
def State.follow (s : State) (n : Nat) (f : Fetched) (v : Verdict) : State :=
  let tag := fieldLE f.bytes 16 8
  let flags := fieldLE f.bytes 1 1
  match v with
  | .hold => s
  | .fail st a => ((s.countXlate n f st a).entryDone n f.slot tag st flags).faultRing n 1 0 f.slot st
  | .disabled => (s.passHead n).entryDone n f.slot tag Sc.unitDisabled flags
  | .done st => (s.passHead n).entryDone n f.slot tag st flags
  | .run => (s.passHead n).startProgram n f.slot f.bytes

/-- A decision that serves a ring whose head entry has been read follows the entry's verdict. -/
theorem execDispatchDecision_of_head {s : State} {p n used : Nat} {f : Fetched} (hd : s.dispatches = true)
    (hc : s.wakeHeads.chooseRing = some (p, n, used)) (hf : (s.wakeHeads.ring n).head = some f) :
    execDispatchDecision s =
      .next ((s.wakeHeads.serving p n used).follow n f ((s.wakeHeads.serving p n used).verdict n f.bytes)) := by
  have hf' : ((s.wakeHeads.serving p n used).ring n).head = some f := hf
  simp only [execDispatchDecision, hd, Bool.not_true, Bool.false_eq_true, if_false, hc]
  simp only [State.serving] at hf' ⊢
  simp only [hf']
  generalize State.verdict _ n f.bytes = v
  cases v <;> rfl

/-- An entry that fails its checks faults its RUNNING ring with SQ_HEAD at it (R164). -/
theorem State.follow_fail_spec {s : State} {n st : Nat} {f : Fetched} (a : Nat) (hrun : (s.ring n).st = .running) (hst : st < 256)
    (hslot : f.slot < 65536) :
    let r := (s.follow n f (.fail st a)).ring n
    r.st = .faulted ∧ r.sqHead = (s.ring n).sqHead ∧ bits r.faultInfo 56 8 = 1 ∧ bits r.faultInfo 0 8 = st := by
  have hring := s.ring_countXlate n n f st a
  have hsub := Submitted.entryDone (s.countXlate n f st a) n f.slot (fieldLE f.bytes 16 8) st (fieldLE f.bytes 1 1)
  have hrun' := (hsub.st n).trans ((congrArg Ring.st hring).trans hrun)
  dsimp only [State.follow]
  rw [State.ring_faultRing 1 0 f.slot st hrun']
  exact ⟨rfl, (hsub.sqHead n).trans (congrArg Ring.sqHead hring), faultInfo_fields 0 (by decide) hslot hst⟩

/-- Settles O39: a decision wakes, chooses a ready ring of the highest priority, and follows its head entry's verdict. -/
theorem entriesAreDispatchedInTurn : Obligations.EntriesAreDispatchedInTurn := by
  unfold Obligations.EntriesAreDispatchedInTurn
  refine ⟨fun s hd hnone => ?idle, fun s p n used hc => ?chosen, fun s p n used f hd => ?served, fun s n => ?passed⟩
  case idle =>
    have hready : s.wakeHeads.readyRings = [] := by
      refine List.eq_nil_iff_forall_not_mem.2 fun n hn => ?_
      obtain ⟨⟨e, he, rfl⟩, hr⟩ := State.mem_readyRings.1 hn
      exact Bool.false_ne_true ((hnone e he).symm.trans hr)
    show execDispatchDecision s = _
    simp only [execDispatchDecision, hd, State.chooseRing_of_none_ready hready, Bool.not_true, Bool.false_eq_true, if_false]
  case chosen =>
    obtain ⟨hn, hp, hle⟩ := State.chooseRing_spec hc
    exact ⟨(State.mem_readyRings.1 hn).2, hp.symm, fun e he hr => hle _ (State.mem_readyRings.2 ⟨⟨e, he, rfl⟩, hr⟩)⟩
  case served =>
    intro w hc hf u tag flags
    refine ⟨fun hv => ?run, fun st hv => ?done, fun hv => ?disabled, fun st a hv hrun hst hslot => ?fail⟩
    case run => exact (execDispatchDecision_of_head hd hc hf).trans (congrArg _ (congrArg (u.follow n f) hv))
    case done => exact (execDispatchDecision_of_head hd hc hf).trans (congrArg _ (congrArg (u.follow n f) hv))
    case disabled => exact (execDispatchDecision_of_head hd hc hf).trans (congrArg _ (congrArg (u.follow n f) hv))
    case fail =>
      exact ⟨_, (execDispatchDecision_of_head hd hc hf).trans (congrArg _ (congrArg (u.follow n f) hv)),
        State.follow_fail_spec a hrun hst hslot⟩
  case passed =>
    exact s.ring_setRing_same n _

end Sys2Proof.Machine
end

section
/-!
The host's window onto the device and the device's reads of host memory: the pieces of an access, the way of their requests, and the
answers that a read of an entry brings (R147, R148, R155, R163, R166).
-/
namespace Sys2Proof.Machine
open Sys2Proof

/-! Where a request goes while others are sent. -/

section
variable {s t : State}

theorem Routed.host (h : Routed s t) : t.host = s.host := by
  obtain ⟨_, _, _, _, _, _, rfl, -⟩ := h
  rfl

theorem Routed.byteAt (h : Routed s t) (b : Nat) : t.byteAt b = s.byteAt b := State.byteAt_of_background h.background b

theorem Routed.devId (h : Routed s t) : t.devId = s.devId := by
  obtain ⟨_, _, _, _, _, _, -, hobj⟩ := h
  exact hobj _ (by decide)

theorem Routed.member (h : Routed s t) (n : Nat) : t.member n = s.member n := by
  obtain ⟨_, _, _, _, _, _, ht, hobj⟩ := h
  by_cases hn : n < 20
  · have hen : t.obj (Obj.PH_LINK_ENABLE n) = s.obj (Obj.PH_LINK_ENABLE n) :=
      hobj _ (by unfold Obj.PH_LINK_ENABLE Obj.ROUTE_MULTIHIT_TOTAL; omega)
    simp only [State.member, hen]
    rw [ht]
    rfl
  · simp [State.member, hn]

theorem Routed.bundle (h : Routed s t) (dev : Nat) : t.bundle dev = s.bundle dev := by
  have hphy : ∀ n, t.phy n = s.phy n := by
    obtain ⟨_, _, _, _, _, _, rfl, -⟩ := h
    exact fun _ => rfl
  simp only [State.bundle, h.member, hphy]

theorem Routed.portFor (h : Routed s t) {dev : Nat} (hdev : dev < 256) (sel : Nat) : t.portFor dev sel = s.portFor dev sel := by
  have hroute : t.devRoute dev = s.devRoute dev := by
    obtain ⟨_, _, _, _, _, _, -, hobj⟩ := h
    refine hobj _ ?_
    unfold Obj.DEV_ROUTE Obj.ROUTE_MULTIHIT_TOTAL
    split <;> omega
  have hb : t.bundleFor dev = s.bundleFor dev := by
    unfold State.bundleFor
    rw [hroute]
    simp only [h.bundle]
  simp only [State.portFor, hb]

/-- Sending a request leaves where a request to this device, or to another one that an address names, goes. -/
theorem Routed.destNode (h : Routed s t) {dev : Nat} (hdev : dev = s.devId ∨ dev < 256) (a : Nat) :
    t.destNode dev a = s.destNode dev a := by
  have hid : t.devId = s.devId := h.devId
  have hport (hne : dev ≠ s.devId) (sel : Nat) : t.portFor dev sel = s.portFor dev sel := h.portFor (hdev.resolve_left hne) sel
  have hedge : t.edgeUnit a = s.edgeUnit a ∧ ∀ u, t.edgeNode a u = s.edgeNode a u := by
    obtain ⟨_, _, _, _, _, _, ht, hobj⟩ := h
    have hstage : t.stage = s.stage := hobj _ (by decide)
    simp only [State.edgeUnit, State.regionLate, hstage]
    rw [ht]
    exact ⟨rfl, fun _ => rfl⟩
  have hdest : t.dest dev a = s.dest dev a := by
    by_cases hne : dev ≠ s.devId
    · simp only [State.dest, hid, if_pos hne, hport hne]
    · simp only [State.dest, hid, if_neg hne, hedge.1, hedge.2]
  simp only [State.destNode, hdest]

end

/-! The pieces of an access through the window. -/

/-- A piece of a line lies in the range that is cut. -/
theorem mem_linePieces {f a n : Nat} {x : Nat × Nat} (h : x ∈ linePieces f a n) : a ≤ x.1 ∧ x.1 < a + n := by
  induction f generalizing a n with
  | zero => cases h
  | succ f ih =>
    unfold linePieces at h
    split at h
    · cases h
    · next hn =>
      extract_lets k at h
      have hk : k ≤ n := Nat.min_le_left _ _
      rcases List.mem_cons.1 h with rfl | h
      · exact ⟨Nat.le_refl _, by dsimp only; omega⟩
      · have := ih h
        omega

/-- A range of global addresses in one device, which is this one or one that a 64-bit address names. -/
def inDevice (own : Nat) (p : Nat × Nat × Nat) : Prop :=
  (p.1 + p.2.2 - 1) / 2 ^ 56 = p.1 / 2 ^ 56 ∧ (p.1 / 2 ^ 56 = own ∨ p.1 / 2 ^ 56 < 256)

theorem inDevice_of_mem_cutLines {own : Nat} {ps : List (Nat × Nat × Nat)} (h : ∀ p ∈ ps, inDevice own p) {q : Nat × Nat × Nat}
    (hq : q ∈ cutLines ps) : q.1 / 2 ^ 56 = own ∨ q.1 / 2 ^ 56 < 256 := by
  obtain ⟨p, hp, hq⟩ := List.mem_flatMap.1 hq
  obtain ⟨x, hx, rfl⟩ := List.mem_map.1 hq
  obtain ⟨hsame, hdev⟩ := h p hp
  obtain ⟨hlo, hhi⟩ := mem_linePieces hx
  have hle : x.1 / 2 ^ 56 ≤ (p.1 + p.2.2 - 1) / 2 ^ 56 := Nat.div_le_div_right (by omega)
  have hge : p.1 / 2 ^ 56 ≤ x.1 / 2 ^ 56 := Nat.div_le_div_right hlo
  rwa [show x.1 / 2 ^ 56 = p.1 / 2 ^ 56 by omega]

theorem State.xlate_device (s : State) (c ca : Nat) (r w : Bool) :
    (s.xlate c ca r w).1.ga / 2 ^ 56 = s.devId ∨ (s.xlate c ca r w).1.ga / 2 ^ 56 < 256 := by
  unfold State.xlate
  split
  · exact .inr (by simp)
  · extract_lets x u
    have hu : u.devId = s.devId := by
      dsimp only [u]
      split
      · rfl
      · exact ((Translated.setAptCtl ..).trans (.bump _ _ (by decide))).devId
    split
    · exact .inr (by simp)
    · dsimp only [State.aptTarget]
      split
      · left
        rw [hu]
        omega
      · right
        omega

/-- A range that is translated has its pieces each in one device; the translations change nothing but their counts. -/
theorem State.xlateRange_spec (s : State) (c ca n : Nat) (r w : Bool) :
    Translated s (s.xlateRange c ca n r w).2.2.2 ∧
      ((s.xlateRange c ca n r w).1 = 0 → ∀ p ∈ (s.xlateRange c ca n r w).2.1, inDevice s.devId p) := by
  unfold State.xlateRange
  extract_lets gs res places
  have hres : Translated s res.2.2.2 ∧ ∀ p ∈ res.2.1, p.1 / 2 ^ 56 = s.devId ∨ p.1 / 2 ^ 56 < 256 := by
    refine List.foldlRecOn (motive := fun acc : Nat × List (Nat × Nat × Nat) × Bool × State =>
      Translated s acc.2.2.2 ∧ ∀ p ∈ acc.2.1, p.1 / 2 ^ 56 = s.devId ∨ p.1 / 2 ^ 56 < 256) gs _
      ⟨.refl s, fun p hp => nomatch hp⟩ fun acc hacc g _ => ?_
    obtain ⟨ht, hp⟩ := hacc
    have hx := ht.trans (.xlate acc.2.2.2 c g r w)
    dsimp only
    split
    · exact ⟨ht, hp⟩
    · split
      · exact ⟨hx, hp⟩
      · refine ⟨hx, fun p hmem => ?_⟩
        rcases List.mem_append.1 hmem with hmem | hmem
        · exact hp p hmem
        · rw [List.mem_singleton.1 hmem, ← ht.devId]
          exact State.xlate_device _ _ _ _ _
  split
  · next hne => exact ⟨hres.1, fun h0 => absurd h0 hne⟩
  · split
    · next hall =>
      refine ⟨hres.1, fun _ p hp => ⟨?_, hres.2 p hp⟩⟩
      have hplace (ga : Nat) (hga : ga = p.1 ∨ ga = p.1 + p.2.2 - 1) : s.placeOf ga = places.headD (0, .reserved) := by
        refine beq_iff_eq.1 (List.all_eq_true.1 hall _ (List.mem_flatMap.2 ⟨p, hp, ?_⟩))
        obtain rfl | rfl := hga <;> simp
      exact congrArg Prod.fst ((hplace _ (.inr rfl)).trans (hplace _ (.inl rfl)).symm)
    · exact ⟨hres.1, fun h0 => absurd h0 (Nat.succ_ne_zero _)⟩

theorem State.byteAt_unbackedAt (s : State) (ga b : Nat) : (s.unbackedAt ga).byteAt b = s.byteAt b := by
  rw [State.unbackedAt, State.byteAt_setObj, State.byteAt_bump]

/-- The pieces of an access through BAR2 leave every byte of memory, and each is in a device that an address names. -/
theorem State.bar2Pieces_spec (s : State) (fn addr len : Nat) (w : Bool) :
    (∀ b, (s.bar2Pieces fn addr len w).2.byteAt b = s.byteAt b) ∧ ∀ ps, (s.bar2Pieces fn addr len w).1 = some ps →
      ∀ p ∈ ps, p.1 / 2 ^ 56 = (s.bar2Pieces fn addr len w).2.devId ∨ p.1 / 2 ^ 56 < 256 := by
  unfold State.bar2Pieces
  extract_lets c size x ps
  split
  · exact ⟨fun _ => rfl, fun ps h => nomatch h⟩
  · obtain ⟨ht, hdev⟩ := s.xlateRange_spec (bits c 0 6) addr len (!w) w
    split
    · exact ⟨ht.byteAt, fun ps h => nomatch h⟩
    · next hok =>
      split
      · exact ⟨fun b => (State.byteAt_unbackedAt _ _ b).trans (ht.byteAt b), fun ps h => nomatch h⟩
      · refine ⟨ht.byteAt, fun qs h q hq => ?_⟩
        cases h
        rw [ht.devId]
        exact inDevice_of_mem_cutLines (hdev (not_not.1 hok)) hq

/-! Accesses through the window. -/

section
variable {s t u : State} {fn a : Nat} {ps : List (Nat × Nat × Nat)}

theorem Routed.foldl {β : Type} {f : State → β → State} {l : List β} (h : Routed s t)
    (hf : ∀ u, Routed s u → ∀ b ∈ l, Routed u (f u b)) : Routed s (l.foldl f t) :=
  List.foldlRecOn (motive := fun u => Routed s u) l f h fun u hu b hb => hu.trans (hf u hu b hb)

/-- A request that goes out where it can, and else is none. -/
theorem Routed.getD_send (s : State) (k : Packet) (use : Use) : Routed s ((s.send k use).getD s) := by
  cases h : s.send k use with
  | none => exact .refl s
  | some t => exact .of_send h

theorem State.bar2Packet_isSome {kind : PKind} {p : Nat × Nat × Nat} {d : Nat} (data : List Byte)
    (h : s.destNode (p.1 / 2 ^ 56) (p.1 % 2 ^ 56) = some d) : ∃ k, s.bar2Packet fn kind p data = some k := by
  rw [State.bar2Packet, h]
  exact ⟨_, rfl⟩

/-- A read through BAR2 whose answers are awaited. -/
def State.awaitBar2 (s : State) (fn a n pieces : Nat) : State :=
  { s with host := { s.host with
    nextBar2 := s.host.nextBar2 + 1
    bar2 := { id := s.host.nextBar2, fn := fn, addr := a, left := pieces, buf := zeros n } :: s.host.bar2 } }

/-- A read whose pieces may all leave is awaited, and its requests go out (R147). -/
theorem execBar2Read_of_pieces {n : Nat} (hup : s.hostUp = true) (hfn : s.fnAnswers fn = true) (hn : n ≤ 4096)
    (hw : s.hostWaits fn = false) (hp : s.bar2Pieces fn a n false = (some ps, u)) (htags : ps.length ≤ u.tagsLeft (.host fn) 1)
    (hfree : ∀ p ∈ ps, u.lineHeld (.host fn) 1 p.1 = false)
    (hdest : ∀ p ∈ ps, ∃ d, u.destNode (p.1 / 2 ^ 56) (p.1 % 2 ^ 56) = some d) :
    ∃ t, execBar2Read fn a n s = .next t ∧ Routed (u.awaitBar2 fn a n ps.length) t := by
  have hdev : ∀ p ∈ ps, p.1 / 2 ^ 56 = u.devId ∨ p.1 / 2 ^ 56 < 256 := by
    have h := (s.bar2Pieces_spec fn a n false).2 ps
    rw [hp] at h
    exact h rfl
  unfold execBar2Read
  rw [if_neg (by simp [hup, hfn, hn]), if_neg (by simp [hw]), hp]
  dsimp only
  rw [if_neg (by simpa [htags] using hfree)]
  refine ⟨_, rfl, Routed.foldl (.refl _) fun v hv p hmem => ?_⟩
  obtain ⟨d, hd⟩ := hdest p hmem
  have hd' : v.destNode (p.1 / 2 ^ 56) (p.1 % 2 ^ 56) = some d := (hv.destNode (hdev p hmem) _).trans hd
  obtain ⟨k, hk⟩ := v.bar2Packet_isSome (fn := fn) (kind := .rdReq) [] hd'
  rw [hk]
  exact .getD_send ..

end

/-! Reads of host memory. -/

/-- The read of a tag has its answer, or none will come. -/
def State.readEnded (s : State) (tag : Nat) : State :=
  { s with host := { s.host with reads := s.host.reads.filter (·.1 != tag) } }

/-- An entry that has been read joins those its ring has read ahead (R163). -/
def State.entryRead (s : State) (n slot : Nat) (bs : List Byte) : State :=
  s.setRing n { s.ring n with fetched := (s.ring n).fetched ++ [{ slot := slot, bytes := padTo 64 bs }] }

theorem State.fetched_entryRead (s : State) (n slot : Nat) (bs : List Byte) :
    ((s.entryRead n slot bs).ring n).fetched = (s.ring n).fetched ++ [{ slot := slot, bytes := padTo 64 bs }] := by
  rw [State.entryRead, State.ring_setRing_same]

/-- What an answer, once its errors are logged, brings to the ring of an entry. -/
def State.answerEntry (s : State) (n slot : Nat) : HostAnswer → State
  | .data bs => s.entryRead n slot bs
  | _ => s.entryFetchFailed n slot

/-- The answer to a read of an entry comes to its ring, its errors logged (R166). -/
theorem execHostReadCompletion_entry {s : State} {tag n slot : Nat} (h : s.host.reads.find? (·.1 == tag) = some (tag, .entry n slot))
    (hup : s.hostUp = true) (a : HostAnswer) : execHostReadCompletion tag a s =
      .next (((s.readEnded tag).logAnswer ((s.readEnded tag).readFn (.entry n slot)) a).2.answerEntry n slot
        ((s.readEnded tag).logAnswer ((s.readEnded tag).readFn (.entry n slot)) a).1) := by
  simp only [execHostReadCompletion, h, hup, Bool.not_true, Bool.false_eq_true, if_false]
  cases a <;> rfl

/-- An entry that cannot be read faults its RUNNING ring (R166). -/
theorem State.ring_entryFetchFailed {s : State} {n : Nat} (slot : Nat) (h : (s.ring n).st = .running) (hslot : slot < 65536) :
    ((s.entryFetchFailed n slot).ring n).st = .faulted ∧ bits ((s.entryFetchFailed n slot).ring n).faultInfo 56 8 = 3 := by
  have hrun := ((Submitted.entryDone s n slot 0 Sc.accessDenied 0).st n).trans h
  rw [State.entryFetchFailed, State.ring_faultRing 3 0 slot Sc.accessDenied hrun]
  exact ⟨rfl, (faultInfo_fields 0 (by decide) hslot (by decide)).1⟩

/-- Settles O38: an access that translates sends its pieces and awaits the answers of a read; an entry's answer comes to its ring. -/
theorem hostWindowAndReads : Obligations.HostWindowAndReads := by
  unfold Obligations.HostWindowAndReads
  refine ⟨fun s u fn a d ps hup hfn hlen hheld hp htags hfree hmmio => ?write, fun s u fn a d hup hfn hlen hheld hp => ?discarded,
    fun s u fn a n ps hup hfn hn hw hp htags hfree hdest => ?read, fun s u fn a n hup hfn hn hw hp => ?aborted,
    fun s n hd hn hst => ?fetch, fun s tag n slot hread => ?answered⟩
  case write =>
    show execBar2Write fn a d s = _
    unfold execBar2Write
    rw [if_neg (by simp [hup, hfn, hlen]), if_neg (by simp [hheld]), hp]
    dsimp only
    refine if_neg ?_
    have hfree' : (ps.any fun p => u.lineHeld (.host fn) 1 p.1) = false := by simpa using hfree
    have hmmio' : (s.hostWriting fn && ps.any fun p => s.isMmio p.1) = false := by simpa [Decidable.imp_iff_not_or] using hmmio
    simp [htags.not_gt, hfree', hmmio']
  case discarded =>
    show execBar2Write fn a d s = _
    unfold execBar2Write
    rw [if_neg (by simp [hup, hfn, hlen]), if_neg (by simp [hheld]), hp]
  case read =>
    obtain ⟨t, ht, hr⟩ := execBar2Read_of_pieces hup hfn hn hw hp htags hfree hdest
    have hbyte := (s.bar2Pieces_spec fn a n false).1
    rw [hp] at hbyte
    exact ⟨t, ht, by rw [hr.host]; rfl, by rw [hr.host]; rfl, fun b => (hr.byteAt b).trans (hbyte b)⟩
  case aborted =>
    have hbyte := (s.bar2Pieces_spec fn a n false).1
    rw [hp] at hbyte
    refine ⟨?_, hbyte⟩
    show execBar2Read fn a n s = _
    unfold execBar2Read
    rw [if_neg (by simp [hup, hfn, hn]), if_neg (by simp [hw]), hp]
  case fetch =>
    intro r ahead hsubmitted hprefetch hmay
    exact .of_occ rfl (by simp [hd, hn, hst, hmay, hsubmitted, hprefetch, ahead, r]) ⟨rfl, rfl, rfl, rfl, rfl⟩
  case answered =>
    intro u
    refine ⟨fun bs hup => ?data, fun bs c hup => ?corrected, fun hup => ⟨?unsupported, ?completerAbort, ?poisoned⟩,
      fun hsafe => ?timeout,
      fun hrun hslot => ?failed⟩
    case data => exact ⟨_, execHostReadCompletion_entry hread hup (.data bs), State.fetched_entryRead u n slot bs, rfl⟩
    case corrected =>
      exact ⟨_, execHostReadCompletion_entry hread hup (.corrected c bs), State.fetched_entryRead (u.bump _ c) n slot bs,
        State.obj_bump_same u _ c⟩
    case unsupported => exact execHostReadCompletion_entry hread hup .unsupported
    case completerAbort => exact execHostReadCompletion_entry hread hup .aborted
    case poisoned => exact execHostReadCompletion_entry hread hup .poisoned
    case timeout =>
      show execPcieCompletionTimeout tag s = _
      simp only [execPcieCompletionTimeout, hread, hsafe, Bool.false_eq_true, if_false]
      rfl
    case failed => exact State.ring_entryFetchFailed (s := u) slot hrun hslot

end Sys2Proof.Machine
end

section
/-!
Command words: what fetching a word and a whole command gives, the command at which a slot stands and its row, the slot after an
update and after its word (R192 to R198, R203).
-/
namespace Sys2Proof.Machine

open Sys2Proof

/-! Fetching. -/

/-- A fetch that gives a word gives it in state `s`. -/
def Fetch.Still (s : State) : Fetch → Prop
  | .word _ t => t = s
  | _ => True

theorem Fetch.Still.ite {s : State} {c : Prop} [Decidable c] {x y : Fetch} (hx : x.Still s) (hy : y.Still s) :
    (if c then x else y).Still s := by
  split <;> assumption

/-- A word comes from a line that the slot holds, so its fetch changes nothing. What else a fetch calls is left abstract. -/
theorem State.fetch_still (s : State) (q k i : Nat) : (s.fetch q k i).Still s := by
  unfold State.fetch
  generalize State.send = send
  generalize State.destOf = dest
  generalize State.xlate = xlate
  revert send dest xlate
  refine id fun send dest xlate => ?_
  dsimp only
  split
  · exact .ite trivial rfl
  · refine .ite trivial (.ite trivial ?_)
    split
    · trivial
    · trivial
    · split <;> trivial

section
variable {s s' : State} {q k : Nat}

theorem State.fetch_word {i v : Nat} (h : s.fetch q k i = .word v s') : s' = s := by
  have hs := s.fetch_still q k i
  rwa [h] at hs

theorem State.fetchCmd_word {i w0 n v : Nat} {c : Cmd} (h : s.fetchCmd q k i w0 n = (.word v s', c)) : s' = s ∧ c.w0 = w0 := by
  unfold State.fetchCmd at h
  split at h
  · cases h
    exact ⟨rfl, rfl⟩
  · split at h
    · next hfirst =>
      obtain rfl := State.fetch_word hfirst
      split at h
      · cases h
        exact ⟨rfl, rfl⟩
      · split at h
        · next hsecond =>
          obtain rfl := State.fetch_word hsecond
          cases h
          exact ⟨rfl, rfl⟩
        · cases h
        · cases h
    · cases h
    · cases h

/-- The first word of the next command is here: the slot may run and stands inside its program (R194, R195). -/
structure State.HeadAt (s : State) (q k w0 : Nat) : Prop where
  run : s.canRun q k = true
  inside : (s.slot q k).wi < (s.slot q k).words
  fetched : s.fetch q k (s.slot q k).wi = .word w0 s

/-- The whole command is here. -/
structure State.CommandAt (s : State) (q k : Nat) (c : Cmd) : Prop extends State.HeadAt s q k c.w0 where
  whole : (s.slot q k).wi + cmdWords c.op ≤ (s.slot q k).words
  words : ∃ v, s.fetchCmd q k (s.slot q k).wi c.w0 (cmdWords c.op) = (.word v s, c)

theorem State.headAt_eq_some {w0 : Nat} (h : s.headAt q k = some (w0, s')) : s' = s ∧ s.HeadAt q k w0 := by
  unfold State.headAt at h
  split at h
  · cases h
  · next hr =>
    simp only [Bool.or_eq_true, Bool.not_eq_true', decide_eq_true_eq, not_or, Bool.not_eq_false, Nat.not_le] at hr
    obtain ⟨hrun, hin⟩ := hr
    split at h
    · next hf =>
      cases h
      obtain rfl := State.fetch_word hf
      exact ⟨rfl, hrun, hin, hf⟩
    · cases h

theorem State.wordAt_eq_some {c : Cmd} (h : s.wordAt q k = some (c, s')) : s' = s ∧ s.CommandAt q k c := by
  unfold State.wordAt at h
  dsimp only at h
  split at h
  · cases h
  · next hr =>
    simp only [Bool.or_eq_true, Bool.not_eq_true', decide_eq_true_eq, not_or, Bool.not_eq_false, Nat.not_le] at hr
    obtain ⟨hrun, hin⟩ := hr
    split at h
    · next hf =>
      obtain rfl := State.fetch_word hf
      split at h
      · cases h
      · next hn =>
        split at h
        · next hc =>
          cases h
          obtain ⟨rfl, rfl⟩ := State.fetchCmd_word hc
          exact ⟨rfl, ⟨hrun, hin, hf⟩, Nat.not_lt.1 hn, _, hc⟩
        · cases h
    · cases h

theorem State.wordAt_state {c : Cmd} (h : s.wordAt q k = some (c, s')) : s' = s := (State.wordAt_eq_some h).1

/-- The row of the command at which the slot stands runs it. -/
theorem State.atWord_of_wordAt {c : Cmd} {sel : Nat → Bool} {body : State → Cmd → State} (h : s.wordAt q k = some (c, s'))
    (hs : sel c.w0 = true) : s.atWord q k sel body = .next (body s' c) := by
  obtain ⟨rfl, hc⟩ := State.wordAt_eq_some h
  obtain ⟨v, hw⟩ := hc.words
  have hwhole : ¬ (s'.slot q k).words < (s'.slot q k).wi + cmdWords (bits c.w0 56 8) := Nat.not_lt.2 hc.whole
  rw [Cmd.op] at hw
  simp only [State.atWord, hc.run, Nat.not_le.2 hc.inside, hc.fetched, hs, hwhole, hw, Bool.not_true, Bool.false_eq_true, if_false]

/-- The row of a word that alone is fetched runs it (R199). -/
theorem State.atHead_of_headAt {w0 : Nat} {sel : Nat → Bool} {body : State → State} (h : s.headAt q k = some (w0, s'))
    (hs : sel w0 = true) : s.atHead q k sel body = .next (body s') := by
  obtain ⟨rfl, hh⟩ := State.headAt_eq_some h
  simp only [State.atHead, hh.run, Nat.not_le.2 hh.inside, hh.fetched, hs, Bool.not_true, Bool.false_eq_true, if_false]

/-- A command that reaches beyond the program ends it (R194, R198). -/
theorem State.atWord_of_headAt_short {w0 : Nat} {sel : Nat → Bool} {body : State → Cmd → State} (h : s.headAt q k = some (w0, s'))
    (hs : sel w0 = true) (hshort : (s.slot q k).words < (s.slot q k).wi + cmdWords (bits w0 56 8)) :
    s.atWord q k sel body =
      .next (s'.endProgram q k (if (s'.slot q k).headReserved w0 then Sc.reservedNonzero else Sc.boundViolation)) := by
  obtain ⟨rfl, hh⟩ := State.headAt_eq_some h
  simp only [State.atWord, hh.run, Nat.not_le.2 hh.inside, hh.fetched, hs, hshort, Bool.not_true, Bool.false_eq_true, if_false,
    if_true]

end

/-! Opcodes. -/

theorem opcode_of_isOp {q op w : Nat} (h : isOp q op w = true) : bits w 56 8 = op := by
  simp only [isOp, Bool.and_eq_true, beq_iff_eq] at h
  exact h.1

/-- The opcodes that every sequencer runs (Table 5.3). -/
theorem isOp_of_op {c : Cmd} {op : Nat} (q : Nat) (h : c.op = op)
    (hop : op ∈ [1, 2, 3, 4, 5, 6, 7, 8, 9, 0x10, 0x11, 0x12, 0x13, 0x14, 0x15, 0x16, 0x17, 0x18, 0x20, 0x21, 0x22, 0x38, 0x39, 0x3A]) :
    isOp q op c.w0 = true := by
  have hlegal : opLegal q op = true := by
    simp only [List.mem_cons, List.not_mem_nil, or_false] at hop
    rcases hop with rfl | rfl | rfl | rfl | rfl | rfl | rfl | rfl | rfl | rfl | rfl | rfl | rfl | rfl | rfl | rfl | rfl | rfl |
      rfl | rfl | rfl | rfl | rfl | rfl <;> rfl
  rw [Cmd.op] at h
  simp only [isOp, h, hlegal, beq_self_eq_true, Bool.and_self]

/-! Slots. -/

section
variable (s : State) (q k : Nat) (t : Slot)

@[simp] theorem State.slot_setSlot_same : (s.setSlot q k t).slot q k = t := by
  simp only [State.slot, State.setSlot, State.seq_setSeq_same]
  split <;> rfl

theorem State.slot_setSlot_other {q' k' : Nat} (hk : k < 2) (hk' : k' < 2) (h : (q', k') ≠ (q, k)) :
    (s.setSlot q k t).slot q' k' = s.slot q' k' := by
  by_cases hq : q' = q
  · subst hq
    have hne : k' ≠ k := fun e => h (by rw [e])
    simp only [State.slot, State.setSlot, State.seq_setSeq_same]
    split <;> split <;> grind
  · simp only [State.slot, State.setSlot, State.seq_setSeq_other _ _ _ _ hq]

/-- An update of a slot leaves each sequencer's queue and store buffer. -/
theorem State.seq_setSlot (q' : Nat) :
    ((s.setSlot q k t).seq q').queue = (s.seq q').queue ∧ ((s.setSlot q k t).seq q').sb = (s.seq q').sb := by
  by_cases hq : q' = q
  · subst hq
    simp only [State.setSlot, State.seq_setSeq_same]
    split <;> exact ⟨rfl, rfl⟩
  · simp only [State.setSlot, State.seq_setSeq_other _ _ _ _ hq, and_self]

/-- Of the state, an update of a slot changes the sequencers. -/
theorem State.setSlot_eq : ∃ m, s.setSlot q k t = { s with seqs := m } := ⟨_, rfl⟩

@[simp] theorem State.slot_bump (key n : Nat) : (s.bump key n).slot q k = s.slot q k := rfl
@[simp] theorem State.slot_bump64 (key n : Nat) : (s.bump64 key n).slot q k = s.slot q k := rfl

@[simp] theorem State.slot_advance (n : Nat) : (s.advance q k n).slot q k = (s.slot q k).goto ((s.slot q k).wi + n) s.timeNs := by
  rw [State.advance, State.slot_bump64, State.slot_setSlot_same]

theorem State.slot_advance_other {q' k' : Nat} (n : Nat) (hk : k < 2) (hk' : k' < 2) (h : (q', k') ≠ (q, k)) :
    (s.advance q k n).slot q' k' = s.slot q' k' := by
  rw [State.advance, State.slot_bump64, State.slot_setSlot_other _ _ _ _ hk hk' h]

theorem State.seq_advance (n q' : Nat) :
    ((s.advance q k n).seq q').queue = (s.seq q').queue ∧ ((s.advance q k n).seq q').sb = (s.seq q').sb :=
  s.seq_setSlot q k _ q'

/-- Of the state, going on changes the sequencers and the objects. -/
theorem State.advance_eq (n : Nat) : ∃ m d, s.advance q k n = { s with seqs := m, dict := d } := ⟨_, _, rfl⟩

end

@[simp] theorem Slot.reg_goto (t : Slot) (i now r : Nat) : (t.goto i now).reg r = t.reg r := rfl
@[simp] theorem Slot.regMark_goto (t : Slot) (i now r : Nat) : (t.goto i now).regMark r = t.regMark r := rfl

theorem Slot.reg_setReg_other (t : Slot) {rd r : Nat} (v m : Nat) (h : r ≠ rd) : (t.setReg rd v m).reg r = t.reg r := by
  simp [Slot.reg, Slot.setReg, List.getD_eq_getElem?_getD, List.getElem?_set_ne h.symm]

theorem Slot.regMark_setReg_other (t : Slot) {rd r : Nat} (v m : Nat) (h : r ≠ rd) : (t.setReg rd v m).regMark r = t.regMark r := by
  simp [Slot.regMark, Slot.setReg, List.getD_eq_getElem?_getD, List.getElem?_set_ne h.symm]

theorem Slot.reg_lt (t : Slot) (r : Nat) : t.reg r < 2 ^ 64 := BitVec.isLt _

/-! Scalar words. -/

/-- A scalar word whose registers are performed writes its register and goes on (R275). -/
theorem State.scalar_of_performed (s : State) {q k rd : Nat} {srcs : List Nat} (v : Slot → Nat)
    (hrd : (s.slot q k).pendReg rd = false) (hsrcs : ∀ r ∈ srcs, (s.slot q k).pendReg r = false) :
    s.scalar q k rd srcs v = (s.setSlot q k ((s.slot q k).setReg rd (v (s.slot q k)) ((s.slot q k).marks srcs))).advance q k 1 := by
  have hany : srcs.any (s.slot q k).pendReg = false := by simpa using hsrcs
  simp only [State.scalar, hrd, hany, Bool.or_self, Bool.false_eq_true, if_false]

theorem setBits_top (v x : Nat) (hv : v < 2 ^ 64) : setBits v 48 16 x = v % 2 ^ 48 + x % 2 ^ 16 * 2 ^ 48 := by
  rw [setBits, Nat.div_eq_of_lt hv, Nat.zero_mul, Nat.add_zero]

theorem bits_mod (v lo w : Nat) : bits v lo w % 2 ^ w = bits v lo w := Nat.mod_mod _ _

/-- Settles O13: the row of a scalar word runs it, and with its reserved bits 0 and its registers performed only the writing of
the result is left. -/
theorem scalarWordsCompute : Obligations.ScalarWordsCompute := by
  unfold Obligations.ScalarWordsCompute
  intro s s' q k c h t rd xs xt
  refine ⟨fun hop hz => ?nop, fun hop hz => ?overlap, fun hop hz hrd => ?movi, fun hop hz hz' hrd => ?movhi,
    fun hop hz hz' hrd hxs => ?addi, fun hop hz hz' hfn hrd hxs hxt => ?alu⟩
  case nop =>
    refine (State.atWord_of_wordAt h (isOp_of_op q hop (by decide))).trans ?_
    rw [State.plainWord, if_neg (not_not.2 hz)]
  case overlap =>
    refine (State.atWord_of_wordAt h (isOp_of_op q hop (by decide))).trans ?_
    rw [State.plainWord, if_neg (not_not.2 hz), State.releaseFollower]
  case movi =>
    refine (State.atWord_of_wordAt h (isOp_of_op q hop (by decide))).trans ?_
    rw [if_neg (not_not.2 hz), s'.scalar_of_performed _ hrd (List.forall_mem_nil _)]
    rfl
  case movhi =>
    refine (State.atWord_of_wordAt h (isOp_of_op q hop (by decide))).trans ?_
    rw [if_neg (by simp [hz, hz']), s'.scalar_of_performed _ hrd (List.forall_mem_singleton.2 hrd),
      setBits_top _ _ (Slot.reg_lt _ _), bits_mod]
    rfl
  case addi =>
    refine (State.atWord_of_wordAt h (isOp_of_op q hop (by decide))).trans ?_
    rw [if_neg (by simp [hz, hz']), s'.scalar_of_performed _ hrd (List.forall_mem_singleton.2 hxs)]
    rfl
  case alu =>
    refine (State.atWord_of_wordAt h (isOp_of_op q hop (by decide))).trans ?_
    rw [if_neg (by simp [hz, hz', hfn]),
      s'.scalar_of_performed _ hrd (List.forall_mem_cons.2 ⟨hxs, List.forall_mem_singleton.2 hxt⟩)]
    rfl

/-- Settles O15: a fetched word changes nothing, and going on writes one slot and one object. -/
theorem wordsChangeOnlyTheirSlot : Obligations.WordsChangeOnlyTheirSlot := by
  refine ⟨fun s s' q k c h => ?_, fun s q k n rd v m hk => ?_⟩
  · obtain rfl := State.wordAt_state h
    exact ⟨⟨_, rfl⟩, fun _ _ _ _ => rfl, fun _ => ⟨rfl, rfl⟩, fun _ => rfl, rfl, rfl, rfl, rfl⟩
  · intro t
    obtain ⟨seqs, hset⟩ := s.setSlot_eq q k ((s.slot q k).setReg rd v m)
    obtain ⟨seqs', dict, ht⟩ := (s.setSlot q k ((s.slot q k).setReg rd v m)).advance_eq q k n
    have hframe : t = { s with seqs := seqs', dict := dict } := ht.trans (by rw [hset])
    refine ⟨fun r hr => ?reg, fun q' k' hk' hne => ?slots, fun q' => ?queues, fun key hkey => ?objects, ?frame⟩
    case reg =>
      rw [State.slot_advance, State.slot_setSlot_same, Slot.reg_goto, Slot.regMark_goto]
      exact ⟨Slot.reg_setReg_other _ v m hr, Slot.regMark_setReg_other _ v m hr⟩
    case slots => exact (State.slot_advance_other _ q k n hk hk' hne).trans (State.slot_setSlot_other s q k _ hk hk' hne)
    case queues =>
      obtain ⟨hq, hsb⟩ := s.seq_setSlot q k ((s.slot q k).setReg rd v m) q'
      obtain ⟨hq', hsb'⟩ := (s.setSlot q k ((s.slot q k).setReg rd v m)).seq_advance q k n q'
      exact ⟨hq'.trans hq, hsb'.trans hsb⟩
    case objects => exact State.obj_bump64_other _ _ _ _ hkey
    case frame =>
      rw [hframe]
      exact ⟨fun _ => rfl, rfl, rfl, rfl, rfl⟩

/-! The arithmetic unit (Table 5.5). -/

theorem sgn_toNat (a : BitVec 64) : sgn 64 a.toNat = a.toInt := by
  have := a.isLt
  unfold sgn
  rw [BitVec.toInt_eq_toNat_cond, Nat.mod_eq_of_lt this]
  split <;> split <;> grind

theorem unsgn_eq_toNat (i : Int) : unsgn 64 i = (BitVec.ofInt 64 i).toNat := (BitVec.toNat_ofInt _).symm

section
variable (a b : BitVec 64)

theorem aluOp_add : aluOp 0x0 a.toNat b.toNat = (a + b).toNat := (BitVec.toNat_add a b).symm

theorem aluOp_sub : aluOp 0x1 a.toNat b.toNat = (a - b).toNat := by
  have hb := b.isLt
  rw [BitVec.toNat_sub]
  delta aluOp
  simp only
  omega

theorem aluOp_and : aluOp 0x2 a.toNat b.toNat = (a &&& b).toNat := (BitVec.toNat_and a b).symm
theorem aluOp_or : aluOp 0x3 a.toNat b.toNat = (a ||| b).toNat := (BitVec.toNat_or a b).symm
theorem aluOp_xor : aluOp 0x4 a.toNat b.toNat = (a ^^^ b).toNat := (BitVec.toNat_xor a b).symm

theorem aluOp_shl : aluOp 0x5 a.toNat b.toNat = (a <<< (b.toNat % 64)).toNat := by
  rw [BitVec.toNat_shiftLeft, Nat.shiftLeft_eq]
  rfl

theorem aluOp_shr : aluOp 0x6 a.toNat b.toNat = (a >>> (b.toNat % 64)).toNat := by
  rw [BitVec.toNat_ushiftRight, Nat.shiftRight_eq_div_pow]
  rfl

theorem aluOp_sar : aluOp 0x7 a.toNat b.toNat = (a.sshiftRight (b.toNat % 64)).toNat := by
  rw [BitVec.sshiftRight, ← unsgn_eq_toNat, Int.shiftRight_eq_div_pow, ← sgn_toNat]
  rfl

theorem aluOp_mul : aluOp 0x8 a.toNat b.toNat = (a * b).toNat := (BitVec.toNat_mul a b).symm

theorem aluOp_minS : aluOp 0x9 a.toNat b.toNat = (if a.sle b then a else b).toNat := by
  show (if sgn 64 a.toNat ≤ sgn 64 b.toNat then a.toNat else b.toNat) = _
  simp only [sgn_toNat, BitVec.sle, decide_eq_true_eq, apply_ite BitVec.toNat]

theorem aluOp_maxS : aluOp 0xA a.toNat b.toNat = (if a.sle b then b else a).toNat := by
  show (if sgn 64 a.toNat ≤ sgn 64 b.toNat then b.toNat else a.toNat) = _
  simp only [sgn_toNat, BitVec.sle, decide_eq_true_eq, apply_ite BitVec.toNat]

theorem aluOp_minU : aluOp 0xB a.toNat b.toNat = (if a.ule b then a else b).toNat := by
  show min a.toNat b.toNat = _
  simp only [BitVec.ule, decide_eq_true_eq, apply_ite BitVec.toNat, Nat.min_def]

theorem aluOp_maxU : aluOp 0xC a.toNat b.toNat = (if a.ule b then b else a).toNat := by
  show max a.toNat b.toNat = _
  simp only [BitVec.ule, decide_eq_true_eq, apply_ite BitVec.toNat, Nat.max_def]

end

/-- Settles O14: each operation's result is a 64-bit word, that of its operation on the words of the operands. -/
theorem aluIsSixtyFourBitArithmetic : Obligations.AluIsSixtyFourBitArithmetic := by
  unfold Obligations.AluIsSixtyFourBitArithmetic
  intro a b f sh
  have hword {op : Nat} {r : BitVec 64} (h : aluOp op a.toNat b.toNat = r.toNat) : f op = r := by
    show BitVec.ofNat 64 (aluOp op a.toNat b.toNat) = r
    rw [h, BitVec.ofNat_toNat, BitVec.setWidth_eq]
  have hlt {op : Nat} {r : BitVec 64} (h : aluOp op a.toNat b.toNat = r.toNat) : aluOp op a.toNat b.toNat < 2 ^ 64 := h ▸ r.isLt
  refine ⟨hword (aluOp_add a b), hword (aluOp_sub a b), hword (aluOp_and a b), hword (aluOp_or a b), hword (aluOp_xor a b),
    hword (aluOp_shl a b), hword (aluOp_shr a b), hword (aluOp_sar a b), hword (aluOp_mul a b), hword (aluOp_minS a b),
    hword (aluOp_maxS a b), hword (aluOp_minU a b), hword (aluOp_maxU a b), fun op hop => ?_⟩
  interval_cases op
  exacts [hlt (aluOp_add a b), hlt (aluOp_sub a b), hlt (aluOp_and a b), hlt (aluOp_or a b), hlt (aluOp_xor a b),
    hlt (aluOp_shl a b), hlt (aluOp_shr a b), hlt (aluOp_sar a b), hlt (aluOp_mul a b), hlt (aluOp_minS a b),
    hlt (aluOp_maxS a b), hlt (aluOp_minU a b), hlt (aluOp_maxU a b)]

end Sys2Proof.Machine
end

section
/-!
Unit operations: what issuing one changes (R218). The row of a cipher word reads its header lines before it issues, so that a
recorded error of one is gone after it.
-/
namespace Sys2Proof.Machine

open Sys2Proof

section
variable (s : State) (q k : Nat)

/-- A slot of a sequencer that is written with its slots as they are. -/
theorem State.slot_setSeq (x : Sequencer) (h0 : x.s0 = (s.seq q).s0) (h1 : x.s1 = (s.seq q).s1) : (s.setSeq q x).slot q k = s.slot q k := by
  simp only [State.slot, State.seq_setSeq_same, h0, h1]

/-- Of the state, an update of a slot that then goes on changes the sequencers and the objects. -/
theorem State.setSlot_advance_eq (t : Slot) (n : Nat) : ∃ m d, (s.setSlot q k t).advance q k n = { s with seqs := m, dict := d } := by
  obtain ⟨m, hset⟩ := s.setSlot_eq q k t
  obtain ⟨m', d, hadv⟩ := (s.setSlot q k t).advance_eq q k n
  exact ⟨m', d, hadv.trans (by rw [hset])⟩

/-- Of the state, issuing changes the sequencers, the next operation's name and the objects. -/
theorem State.pushOp_eq (c : Cmd) : ∃ m d, s.pushOp q k c = { s with seqs := m, nextOp := s.nextOp + 1, dict := d } :=
  State.setSlot_advance_eq { s.setSeq q _ with nextOp := s.nextOp + 1 } q k _ _

/-- The operation that issuing puts at the tail of a unit's queue. -/
def State.issued (c : Cmd) : UnitOp :=
  { id := s.nextOp, seq := q, slot := k, opcode := c.op, w0 := c.w0, w1 := c.w1, w2 := c.w2, x := (s.slot q k).x, ctx := (s.slot q k).ctx,
    word := (s.slot q k).wi }

theorem State.queue_pushOp (c : Cmd) : ((s.pushOp q k c).seq q).queue = (s.seq q).queue ++ [s.issued q k c] := by
  rw [State.pushOp, (State.seq_advance _ q k _ q).1, (State.seq_setSlot _ q k _ q).1]
  exact congrArg Sequencer.queue (s.seq_setSeq_same q _)

theorem State.slot_pushOp (c : Cmd) : (s.pushOp q k c).slot q k =
    ({ s.slot q k with ops := (s.slot q k).ops ++ [s.nextOp] } : Slot).goto ((s.slot q k).wi + cmdWords c.op) s.timeNs := by
  rw [State.pushOp, State.slot_advance, State.slot_setSlot_same]
  exact congrArg (fun t : Slot => ({ t with ops := (s.slot q k).ops ++ [s.nextOp] } : Slot).goto (t.wi + cmdWords c.op) s.timeNs)
    (s.slot_setSeq q k _ rfl rfl)

end

/-- Settles O24: the operation at the queue's tail is made of the command and the slot as it stands. -/
theorem issuedOperationCaptures : Obligations.IssuedOperationCaptures := by
  intro s q k c _ u t
  obtain ⟨m, d, hframe⟩ := s.pushOp_eq q k c
  have hslot : u.slot q k = _ := s.slot_pushOp q k c
  refine ⟨⟨s.issued q k c, s.queue_pushOp q k c, rfl, rfl, rfl, rfl, rfl, rfl, rfl, rfl, rfl, rfl⟩, ?_, ?_, ?_, ?_, ?_, fun a => ?_⟩
  · rw [hslot]; rfl
  · rw [hslot]; rfl
  · rw [hslot]; rfl
  · rw [hslot]; rfl
  · exact congrArg State.nextOp hframe
  · exact (congrArg (State.byteAt · a) hframe :)

/-- The first word of SH_RAND with its destination in X0 and a count of 1. -/
def randWord : Nat := 0x32 * 2 ^ 56 + 0x34 * 2 ^ 48 + 1

/-- Slot 0 of CAT 0's sequencer stands at SH_RAND on an additive share header in the tile's store. One bit of the header's line
is wrong. -/
def randOnWrongLine : State :=
  { seqs := [(96, { s0 := { role := .leader, words := 2, lines := [{ line := 0, bytes := padTo 128 (leBytes 8 randWord), poison := 0 }] } })]
    ucbs := [(96, { st := .ready })]
    dict := [(Obj.BRINGUP_STAGE, 5)]
    sup := { coldReset := false, band := .full }
    host := { linkUp := true }
    drbg := { seeded := true }
    mem := { cells := [(catBase, 0x02), (catBase + 2, 0x70), (catBase + 3, 0xCA), (catBase + 5, 2), (catBase + 6, 1)]
             ecc := [(catBase / 128, [(0, 1)])] } }

/-- What the tile's first line holds of recorded errors after a command. -/
def errorsOfCat0 : Res → List (Nat × Nat)
  | .next t => t.eccErr catBase
  | _ => []

/-- The command at which slot 0 stands may issue. -/
theorem randOnWrongLine_mayIssue : randOnWrongLine.wordAt 96 0 = some (⟨randWord, 0, 0⟩, randOnWrongLine) ∧
    randOnWrongLine.cxMayIssue 96 0 ⟨randWord, 0, 0⟩ = true := by
  have hword : (randOnWrongLine.wordAt 96 0).map (·.1) = some ⟨randWord, 0, 0⟩ := by decide +kernel
  obtain ⟨⟨c, s'⟩, h, rfl⟩ := Option.map_eq_some_iff.1 hword
  refine ⟨?_, by decide +kernel⟩
  rwa [State.wordAt_state h] at h

/-- Its row has read the line of the header. -/
theorem errorsOfCat0_shRand : errorsOfCat0 (exec (.shRand 96 0) randOnWrongLine) = [] := by decide +kernel

/-- Issuing alone reads no line. -/
theorem eccErr_pushOp (s : State) (q k : Nat) (c : Cmd) (a : Nat) : (s.pushOp q k c).eccErr a = s.eccErr a := by
  obtain ⟨m, d, h⟩ := s.pushOp_eq q k c
  exact (congrArg (State.eccErr · a) h :)

/-- Refutes O23: where the line of a header that SH_RAND reads has a recorded error, the row corrects the line before it issues the
operation, and issuing alone leaves the error. -/
theorem not_unitOperationsIssue : ¬ Obligations.UnitOperationsIssue := by
  unfold Obligations.UnitOperationsIssue
  intro h
  obtain ⟨hword, hmay⟩ := randOnWrongLine_mayIssue
  obtain ⟨-, hcx, -⟩ := h _ _ 96 0 _ hword
  have hexec := hcx (.shRand 96 0, 0x34) (by simp [cxRows]) (by decide +kernel) (by decide +kernel) hmay
  have hleft := errorsOfCat0_shRand
  rw [show exec (.shRand 96 0) randOnWrongLine = _ from hexec, errorsOfCat0, eccErr_pushOp] at hleft
  exact absurd hleft (by decide +kernel)

end Sys2Proof.Machine
end

section
/-!
Semaphores: what a post, a take and the jess table's registers change (R213, R215, R217, R265, R267).
-/
namespace Sys2Proof.Machine

open Sys2Proof

/-- A command whose occasion holds has its effect. -/
theorem exec_of_occ {i : Instr} {s t : State} {c : Bool} (he : exec i s = occ c s t) (hc : c = true) : exec i s = .next t := by
  rw [he, occ, if_pos hc]

section
variable (s : State) (m n : Nat)

theorem State.post_of_le (h : s.sem m + n ≤ 65535) : s.post m n = (true, s.setSem m (s.sem m + n)) := if_pos h

theorem State.post_of_lt (h : 65535 < s.sem m + n) : s.post m n = (false, s.bump Obj.JESS_OVERFLOWS) := if_neg (Nat.not_le.2 h)

theorem State.sem_take_same (w : Waiter) : (s.take m n w).sem m = s.sem m - n := s.sem_setSem_same m _

theorem State.sem_take_other (w : Waiter) {m' : Nat} (h : m' ≠ m) : (s.take m n w).sem m' = s.sem m' := s.sem_setSem_other m m' _ h

end

/-- A pair's semaphores read as the pair holds them. -/
theorem State.sem_semOf_setJess (s : State) (p : Nat) (j : Jess) :
    (s.setJess p j).sem (semOf p 0) = j.fill ∧ (s.setJess p j).sem (semOf p 1) = j.free := by
  have h0 : semOf p 0 / 2 = p ∧ semOf p 0 % 2 = 0 := by unfold semOf; omega
  have h1 : semOf p 1 / 2 = p ∧ semOf p 1 % 2 = 1 := by unfold semOf; omega
  simp [State.sem, h0, h1]

theorem State.sem_setJess_other (s : State) {p m : Nat} (j : Jess) (h : m / 2 ≠ p) : (s.setJess p j).sem m = s.sem m := by
  simp only [State.sem, State.jess_setJess_other _ _ _ _ h]

/-- Settles O42: a post or a take writes one semaphore, and a value written to JESS_VALUE holds those of a pair. -/
theorem semaphoresCount : Obligations.SemaphoresCount := by
  intro s
  refine ⟨fun m n h => ?post, fun m n h => ?overflow, fun m n w => ?take, fun p v hp hv => ?value, fun p n w hp hn hw => ?register⟩
  case post =>
    rw [State.post_of_le s m n h]
    exact ⟨rfl, s.sem_setSem_same m _, fun m' h' => s.sem_setSem_other m m' _ h', rfl, rfl⟩
  case overflow =>
    rw [State.post_of_lt s m n h]
    exact ⟨rfl, fun _ => rfl, s.obj_bump_same _ _, rfl⟩
  case take =>
    refine ⟨s.sem_take_same m n w, fun m' h => s.sem_take_other m n w h, fun x hx ⟨hsem, hwho⟩ => ?_⟩
    have hkept := (List.mem_filter.1 hx).2
    simp [hsem, hwho] at hkept
  case value =>
    have hhigh : bits v 32 32 = 0 := by rw [bits, Nat.div_eq_of_lt hv, Nat.zero_mod]
    have hfree : bits v 16 16 = v / 2 ^ 16 := Nat.mod_eq_of_lt (by omega)
    have hfill : bits v 0 16 = v % 2 ^ 16 := by rw [bits, Nat.pow_zero, Nat.div_one]
    obtain ⟨h0, h1⟩ := s.sem_semOf_setJess p { fill := bits v 0 16, free := bits v 16 16 }
    refine .of_occ rfl ?_ ⟨h0.trans hfill, h1.trans hfree, fun m hm => s.sem_setJess_other _ hm, rfl, rfl⟩
    simp only [hp, hhigh, decide_true, beq_self_eq_true, Bool.and_true, Bool.true_and, decide_eq_true_eq]
    omega
  case register =>
    have hhigh : bits (n + 65536 * w) 17 47 = 0 := by
      rw [bits, Nat.div_eq_of_lt (by omega), Nat.zero_mod]
    have hwhich : bits (n + 65536 * w) 16 1 = w := by unfold bits; omega
    have hcount : bits (n + 65536 * w) 0 16 = n := by unfold bits; omega
    refine (exec_of_occ rfl ?_).trans (by rw [hwhich, hcount])
    simp only [hp, hhigh, decide_true, beq_self_eq_true, Bool.and_true, Bool.true_and, decide_eq_true_eq]
    omega

end Sys2Proof.Machine
end

section
/-!
Control words: branches, loops and the end of a program (R194, R202, R203, R204).
-/
namespace Sys2Proof.Machine

open Sys2Proof

/-- The row of END at the end of the words (R194). -/
theorem State.execEndProgram_of_words_le {s : State} {q k : Nat} (hrun : s.canRun q k = true)
    (hend : (s.slot q k).words ≤ (s.slot q k).wi) : exec (.endProgram q k) s = .next (s.endWord q k) :=
  if_pos (by rw [hrun, decide_eq_true hend, Bool.true_and])

/-- Inside a program the row of END is that of its word. -/
theorem State.execEndProgram_of_wordAt {s s' : State} {q k : Nat} {c : Cmd} (h : s.wordAt q k = some (c, s')) :
    exec (.endProgram q k) s = s.atWord q k (isOp q 0x02) fun s c => s.plainWord q k c fun s => s.endWord q k := by
  obtain ⟨-, hc⟩ := State.wordAt_eq_some h
  exact if_neg (by rw [decide_eq_false (Nat.not_le.2 hc.inside), Bool.and_false]; exact Bool.false_ne_true)

/-- Settles O16: the row of a control word runs it, and what is left of its checks is the branch that its statement names. -/
theorem branchesLoopsAndEnd : Obligations.BranchesLoopsAndEnd := by
  refine ⟨fun s s' q k c h => ?_, fun s q k => State.execEndProgram_of_words_le, fun s s' q k c h hop hz => ?_⟩
  · intro t xs xt cond rs i n body stop
    refine ⟨fun hop hz hz' hcond hregs hpend hmarks => ?br, fun hop hz hz' hz'' himm hreg => ?loop⟩
    case br =>
      have hlegal : ¬ (bits c.w0 52 4 ≠ 0 || bits c.w0 24 16 ≠ 0 || 6 < cond || (cond = 0 && (xs ≠ 0 || xt ≠ 0))) = true := by
        simp only [hz, hz', Nat.not_lt.2 hcond, ne_eq, not_true_eq_false, decide_false, Bool.false_or, Bool.and_eq_true,
          decide_eq_true_eq, Bool.or_eq_true]
        rintro ⟨hc, hne⟩
        obtain ⟨hxs, hxt⟩ := hregs hc
        simp [hxs, hxt] at hne
      have hrow : exec (.br q k) s = _ := State.atWord_of_wordAt h (isOp_of_op q hop (by decide))
      rw [if_neg hlegal, if_neg (Bool.eq_false_iff.1 hpend), if_neg (not_not.2 hmarks)] at hrow
      refine ⟨fun hfalse => hrow.trans (by rw [hfalse]; rfl), fun htrue hlow hhigh => ?_⟩
      have hin : ¬ (i < 0 || (t.words : Int) ≤ i) = true := by
        simp [Int.not_lt.2 hlow, Int.not_le.2 hhigh]
      rw [htrue, if_neg (by simp), if_neg hin] at hrow
      refine ⟨_, hrow, ?_⟩
      beta_reduce
      rw [State.slot_bump64, State.slot_setSlot_same]
      exact ⟨rfl, rfl, rfl, rfl⟩
    case loop =>
      have hlegal : ¬ (bits c.w0 52 4 ≠ 0 || bits c.w0 48 3 ≠ 0 || bits c.w0 40 4 ≠ 0 || (!bit c.w0 51 && xs ≠ 0) ||
          (bit c.w0 51 && bits c.w0 0 24 ≠ 0)) = true := by
        cases hmode : bit c.w0 51 with
        | false => simp [hz, hz', hz'', himm hmode]
        | true =>
          obtain ⟨hcount, -, -⟩ := hreg hmode
          simp [hz, hz', hz'', hcount]
      have hready : ¬ (bit c.w0 51 && t.pendReg xs) = true ∧ ¬ (bit c.w0 51 && t.regMark xs ≠ 0) = true := by
        cases hmode : bit c.w0 51 with
        | false => simp
        | true =>
          obtain ⟨-, hpend, hmark⟩ := hreg hmode
          simp [hpend, hmark]
      have hrow : exec (.loop q k) s = _ := State.atWord_of_wordAt h (isOp_of_op q hop (by decide))
      rw [if_neg hlegal, if_neg hready.1, if_neg hready.2] at hrow
      refine ⟨fun hbody => hrow.trans (by rw [if_pos hbody]), fun hbody hstop hdepth hinner v hscan => ?_⟩
      have hfits : ¬ (t.words < stop || (match t.loops with | l :: _ => decide (l.stop < stop) | [] => false) ||
          4 ≤ t.loops.length) = true := by
        have hinside : (match t.loops with | l :: _ => decide (l.stop < stop) | [] => false) = false := by
          match hl : t.loops with
          | [] => rfl
          | l :: _ => exact decide_eq_false (Nat.not_lt.2 (hinner l (by rw [hl]; rfl)))
        rw [hinside]
        simp only [Nat.not_lt.2 hstop, Nat.not_le.2 hdepth, decide_false, Bool.or_self, Bool.false_eq_true, not_false_eq_true]
      rw [if_neg hbody] at hrow
      replace hrow := hrow.trans (congrArg Host.Outcome.next (if_neg hfits))
      rw [show State.scanBody q k _ _ _ s' = _ from hscan] at hrow
      replace hrow := hrow.trans (congrArg Host.Outcome.next ((if_neg Bool.false_ne_true).trans (if_neg (not_not.2 rfl))))
      refine ⟨fun hn => hrow.trans (congrArg Host.Outcome.next (if_pos hn)),
        fun hn => ⟨_, hrow.trans (congrArg Host.Outcome.next (if_neg hn)), ?_⟩⟩
      beta_reduce
      rw [State.slot_bump64, State.slot_setSlot_same]
      exact ⟨rfl, rfl, rfl⟩
  · refine ((State.execEndProgram_of_wordAt h).trans (State.atWord_of_wordAt h (isOp_of_op q hop (by decide)))).trans ?_
    rw [State.plainWord, if_neg (not_not.2 hz)]

end Sys2Proof.Machine
end

section
/-!
Memory words, fences, RAND and semaphore words: each row past its checks (R206 to R211, R213 to R215, R385).
-/
namespace Sys2Proof.Machine

open Sys2Proof

/-- Settles O17: the row of a memory word runs it, and with its reserved bits 0 the access that its fields name is left. -/
theorem memoryWordsIssue : Obligations.MemoryWordsIssue := by
  intro s s' q k c h hz rd xv
  refine ⟨fun hop hoff hsize => ?ld, fun hop hoff heven => ?ldp, fun hop hoff => ?st, fun hop hoff heven => ?stp,
    fun hop hoff => ?lr, fun hop hoff => ?sc, fun hop hoff haop => ?amo⟩
  case ld =>
    refine (State.atWord_of_wordAt h (isOp_of_op q hop (by decide))).trans (congrArg _ (if_neg ?_))
    simpa [hz, hoff] using hsize
  case ldp => exact (State.atWord_of_wordAt h (isOp_of_op q hop (by decide))).trans (congrArg _ (if_neg (by simp [hz, hoff, heven])))
  case st => exact (State.atWord_of_wordAt h (isOp_of_op q hop (by decide))).trans (congrArg _ (if_neg (by simp [hz, hoff])))
  case stp => exact (State.atWord_of_wordAt h (isOp_of_op q hop (by decide))).trans (congrArg _ (if_neg (by simp [hz, hoff, heven])))
  case lr => exact (State.atWord_of_wordAt h (isOp_of_op q hop (by decide))).trans (congrArg _ (if_neg (by simp [hz, hoff])))
  case sc => exact (State.atWord_of_wordAt h (isOp_of_op q hop (by decide))).trans (congrArg _ (if_neg (by simp [hz, hoff])))
  case amo => exact (State.atWord_of_wordAt h (isOp_of_op q hop (by decide))).trans (congrArg _ (if_neg (by simp [hz, hoff, haop])))

/-! Fences. -/

section
variable {s : State} {q k : Nat} {c : Cmd}

/-- A fence of a defined kind without a reserved bit goes on once its wait is over (R385). -/
theorem State.fence_of_legal {done : Bool} (t : State → State) (hz : bits c.w0 52 4 = 0) (hz' : bits c.w0 0 48 = 0)
    (hkind : bits c.w0 48 4 ≤ 4) :
    s.fence q k c done t = if done then (t s).advance q k 1 else s.waitAt q k .fence :=
  if_neg (by simp [hz, hz', hkind])

theorem State.afterOps_of_done {t : State → State} (hdone : s.opsDone q k = true) (hok : (s.settle q k).1 = 0) :
    s.afterOps q k t = t (s.settle q k).2 := by
  rw [State.afterOps, if_pos hdone, if_neg (not_not.2 hok)]

theorem State.afterOps_of_not_done {t : State → State} (h : s.opsDone q k = false) : s.afterOps q k t = s.waitAt q k .fence :=
  if_neg (by simp [h])

end

theorem isFence_of_op {q kind : Nat} {c : Cmd} (hop : c.op = 0x17) (hkind : bits c.w0 48 4 = kind) : isFence q kind c.w0 = true := by
  rw [isFence, isOp_of_op q hop (by decide), hkind, beq_self_eq_true]
  rfl

/-- Every piece of a RAND lies at offset 0 or above. -/
theorem filter_zero_le_offset (ps : List (Nat × Nat × Nat)) : ps.filter (fun p => decide (0 ≤ p.2.1)) = ps :=
  List.filter_eq_self.2 fun _ _ => decide_eq_true (Nat.zero_le _)

/-- Settles O19: a fence's kind selects its row and its wait, and a first RAND starts with all of its lines. -/
theorem fencesAndRandom : Obligations.FencesAndRandom := by
  intro s s' q k c h t
  refine ⟨fun hop hz hz' => ?fence, fun hop hz hz' => ?rand⟩
  case fence =>
    have hrow {sel : Nat → Bool} {done : State → Bool} {eff : State → State} (hsel : sel c.w0 = true) (hkind : bits c.w0 48 4 ≤ 4) :
        (s.atWord q k sel fun s c => s.fence q k c (done s) eff) =
          .next (if done s' then (eff s').advance q k 1 else s'.waitAt q k .fence) :=
      (State.atWord_of_wordAt h hsel).trans (congrArg _ (State.fence_of_legal eff hz hz' hkind))
    have hdrain (hkind : bits c.w0 48 4 = 0) :
        exec (.fenceDrain q k) s =
          .next (if s'.drained q k then ((s'.loseRsv q k).bump64 Obj.DRAINS).advance q k 1 else s'.waitAt q k .fence) :=
      hrow (by rw [isFence_of_op hop hkind, Bool.true_or]) (by omega)
    have hacquire (hkind : bits c.w0 48 4 = 1) :
        exec (.fenceAcquire q k) s = .next (if t.loads.isEmpty then s'.advance q k 1 else s'.waitAt q k .fence) :=
      hrow (isFence_of_op hop hkind) (by omega)
    have hrelease (hkind : bits c.w0 48 4 = 2) : exec (.fenceRelease q k) s =
        .next (if s'.released q k then (s'.bump64 Obj.DRAINS).advance q k 1 else s'.waitAt q k .fence) :=
      hrow (isFence_of_op hop hkind) (by omega)
    have hfull (hkind : bits c.w0 48 4 = 3) : exec (.fenceFull q k) s = .next (if s'.released q k then
        ((s'.setSlot q k { t with lines := [] }).bump64 Obj.DRAINS).advance q k 1 else s'.waitAt q k .fence) :=
      hrow (isFence_of_op hop hkind) (by omega)
    have hunits (hkind : bits c.w0 48 4 = 4) : exec (.fenceUnits q k) s = .next (s'.afterOps q k fun s => s.advance q k 1) :=
      (State.atWord_of_wordAt h (isFence_of_op hop hkind)).trans (congrArg _ (if_neg (by simp [hz, hz'])))
    have hreleased (hloads : t.loads = []) (hd : s'.drained q k = true) : s'.released q k = true := by
      rw [State.released, hd, Bool.and_true]
      exact List.isEmpty_iff.2 hloads
    refine ⟨fun hk hd => ?_, fun hk hl => ?_, fun hk hl hd => ?_, fun hk hl hd => ?_, fun hk hd hok => ?_, fun hk hd => ?_,
      fun hk hl => ?_, fun hk hr => ?_, fun hk hr => ?_, fun hk hd => ?_⟩
    · rw [hdrain hk, if_pos hd]
    · rw [hacquire hk, if_pos (List.isEmpty_iff.2 hl)]
    · rw [hrelease hk, if_pos (hreleased hl hd)]
    · rw [hfull hk, if_pos (hreleased hl hd)]
    · rw [hunits hk, State.afterOps_of_done hd hok]
    · rw [hdrain hk, hd, if_neg Bool.false_ne_true]
    · rw [hacquire hk, if_neg (mt List.isEmpty_iff.1 hl)]
    · rw [hrelease hk, hr, if_neg Bool.false_ne_true]
    · rw [hfull hk, hr, if_neg Bool.false_ne_true]
    · rw [hunits hk, State.afterOps_of_not_done hd]
  case rand =>
    intro n xs x
    have hrow : exec (.rand q k) s = _ := State.atWord_of_wordAt h (isOp_of_op q hop (by decide))
    replace hrow := hrow.trans (congrArg _ (if_neg (by simp [hz, hz'])))
    refine ⟨fun hn => hrow.trans (congrArg _ (if_pos hn)), ?_⟩
    intro hn hwhole hup hpend hmark hx hpos v w hw
    replace hrow := hrow.trans (congrArg _ ((if_neg hn).trans ((if_neg (by rw [hup]; simp)).trans ((if_neg (not_not.2 hwhole)).trans
      ((if_neg (Bool.eq_false_iff.1 hpend)).trans ((if_neg (not_not.2 hmark)).trans (if_neg (not_not.2 hx))))))))
    rw [show (s'.slot q k).randPos = 0 from hpos, if_neg (not_not.2 rfl), filter_zero_le_offset] at hrow
    extract_lets _ _ u r at hrow
    have hr : r = w := rfl
    clear_value r
    subst hr
    rw [if_neg (not_not.2 hw), Nat.zero_add] at hrow
    refine ⟨fun hall => ?_, fun hall hsome => ?_⟩
    · have hsome : w.2.1 ≠ 0 := fun h0 => hn (hall.symm.trans h0)
      rwa [if_neg hsome, show bits c.w0 0 32 = n from rfl, if_pos hall] at hrow
    · rwa [if_neg hsome, show bits c.w0 0 32 = n from rfl, if_neg hall] at hrow

/-! Semaphore words. -/

theorem Routed.counted (s : State) (ag : Agent) : Routed s (s.counted ag) := (Routed.chooseRoute ..).trans (.countSent ..)

theorem Routed.countLat (s : State) (ag : Agent) (since : Nat) : Routed s (s.countLat ag since) :=
  .ite ⟨_, _, _, _, _, _, rfl, fun _ _ => rfl⟩ (.refl s)

theorem Routed.sem {s t : State} (h : Routed s t) (m : Nat) : t.sem m = s.sem m := by
  obtain ⟨_, _, _, _, _, _, rfl, -⟩ := h
  rfl

/-- Of the semaphores, a take that nothing keeps waiting lowers its own. -/
theorem State.sem_takeNow_same (s : State) (ag : Agent) (m n : Nat) (w : Waiter) : (s.takeNow ag m n w).sem m = s.sem m - n := by
  rw [State.takeNow, State.sem_take_same, ((Routed.counted s ag).trans (.countLat ..)).sem]

theorem State.devId_bump64_drains (s : State) : (s.bump64 Obj.DRAINS).devId = s.devId := State.obj_bump64_other _ _ _ _ (by decide)

section
variable {s s' : State} {q k : Nat} {c : Cmd}

/-- The row of a SEMWAIT whose slot waits for no semaphore (R213). -/
theorem State.execSemwait_of_wordAt (h : s.wordAt q k = some (c, s')) (hop : c.op = 0x20) (hz : bits c.w0 52 4 = 0)
    (hz' : bits c.w0 24 16 = 0) (hz'' : bits c.w0 16 4 = 0) (hwait : (s'.slot q k).semWait = none) :
    let m := semOf (bits c.w0 40 11) (bits c.w0 51 1)
    let n := bits c.w0 0 16
    exec (.semwait q k) s = .next (if s'.canTake m n (.slot q k) then (s'.takeNow (.slot q k) m n (.slot q k)).advance q k 1
      else match s'.send (waitPacket (.slot q k) m n (bits c.w0 20 4) false) (.post q k) with
        | some u => u.setSlot q k ((({ s'.slot q k with semWait := some m } : Slot)).waitOn .semwait)
        | none => s') :=
  (State.atWord_of_wordAt h (isOp_of_op q hop (by decide))).trans (congrArg _ ((if_neg (by simp [hz, hz', hz''])).trans
    (if_neg (by rw [hwait]; exact Bool.false_ne_true))))

end

/-- Settles O20: a word's take or post is that of the table, and a slot's wait is answered once its semaphore holds the count or its
limit has passed. -/
theorem semaphoreWordsAct : Obligations.SemaphoreWordsAct := by
  refine ⟨fun s s' q k c h => ?word, fun s q k w hw hsafe => ?wait⟩
  case word =>
    intro m n
    refine ⟨fun hop hz hz' hz'' hwait htake => ?now, fun hop hz hz' hz'' hwait htake u hu => ?later, fun hop hz hz' hrel => ?post,
      fun hop hz hz' hrel => ?init⟩
    case now =>
      refine ⟨(State.execSemwait_of_wordAt h hop hz hz' hz'' hwait).trans (congrArg _ (if_pos htake)), ?_⟩
      exact s'.sem_takeNow_same _ m n _
    case later =>
      refine (State.execSemwait_of_wordAt h hop hz hz' hz'' hwait).trans (congrArg _ ((if_neg (Bool.eq_false_iff.1 htake)).trans ?_))
      rw [show s'.send (waitPacket (.slot q k) (semOf _ _) _ _ false) _ = some u from hu]
    case post =>
      intro r hops hdev hroom
      have hrow : exec (.sempost q k) s = _ := State.atWord_of_wordAt h (isOp_of_op q hop (by decide))
      replace hrow := hrow.trans (congrArg _ ((if_neg (by simp [hz, hz'])).trans (if_neg (by simp [hrel]))))
      have hsem : ((r.bump64 Obj.DRAINS).counted (.slot q k)).sem m = r.sem m := (Routed.counted ..).sem m
      have hpost : ((r.bump64 Obj.DRAINS).counted (.slot q k)).post m n =
          (true, ((r.bump64 Obj.DRAINS).counted (.slot q k)).setSem m (r.sem m + n)) := by
        rw [← hsem]
        exact State.post_of_le _ _ _ (hsem.symm ▸ hroom)
      have hadvance := (congrArg (fun p : Bool × State => if p.1 = true then p.2.advance q k 1 else p.2.endProgram q k Sc.overrun)
        hpost).trans (if_pos rfl)
      replace hdev : bits c.w0 32 8 = (r.bump64 Obj.DRAINS).devId := hdev.trans (State.devId_bump64_drains r).symm
      cases hbit : bit c.w0 31 with
      | false =>
        have hr : r = s' := if_neg (by rw [hbit]; exact Bool.false_ne_true)
        rw [hr] at hadvance hdev ⊢
        rw [hbit, if_neg Bool.false_ne_true] at hrow
        exact hrow.trans (congrArg _ ((if_pos hdev).trans hadvance))
      | true =>
        obtain ⟨hdone, hok⟩ := hops hbit
        have hr : r = (s'.settle q k).2 := if_pos hbit
        rw [hr] at hadvance hdev ⊢
        rw [hbit, if_pos rfl, State.afterOps_of_done hdone hok] at hrow
        exact hrow.trans (congrArg _ ((if_pos hdev).trans hadvance))
    case init =>
      exact (State.atWord_of_wordAt h (isOp_of_op q hop (by decide))).trans (congrArg _ ((if_neg (by simp [hz, hz'])).trans
        (if_neg (by simp [hrel]))))
  case wait =>
    refine ⟨fun htake => ?_, fun lim hlim hpast => ?_⟩
    · show execSemwaitSatisfied q k s = _
      rw [execSemwaitSatisfied, hw]
      exact if_neg (by rw [hsafe, htake]; exact Bool.false_ne_true)
    · show execSemwaitTimeout q k s = _
      rw [execSemwaitTimeout, hw]
      have hpassed : s.passed w.sinceNs lim = true := decide_eq_true hpast
      simp [occ, hsafe, hlim, hpassed]

end Sys2Proof.Machine
end

section
/-!
System words: EPOCH, CFGW and UCTL past their checks (R227 to R230).
-/
namespace Sys2Proof.Machine

open Sys2Proof

/-! EPOCH. -/

theorem isEpoch_of_op {q mode : Nat} {c : Cmd} (hop : c.op = 0x38) (hmode : bits c.w0 54 2 = mode) : isEpoch q mode c.w0 = true := by
  rw [isEpoch, isOp_of_op q hop (by decide), hmode, beq_self_eq_true]
  rfl

section
variable (s : State) (q k d : Nat)

theorem State.edSource_bump64_drains (hd : d < 32) : (s.bump64 Obj.DRAINS).edSource d = s.edSource d :=
  State.obj_bump64_other _ _ _ _ (by unfold Obj.ED_SOURCE Obj.DRAINS; omega)

theorem Routed.slot {s t : State} (h : Routed s t) (q k : Nat) : t.slot q k = s.slot q k := by
  obtain ⟨_, _, _, _, _, _, rfl, -⟩ := h
  rfl

@[simp] theorem State.slot_trigger : (s.trigger d).slot q k = s.slot q k := by
  unfold State.trigger
  extract_lets x
  split
  · rfl
  · split <;> rfl

/-- A mark of a local domain whose source is COMMAND triggers it (R227). -/
theorem State.markEpoch_of_local {s : State} {d : Nat} (next : State → State) (hsource : s.edSource d = 1) :
    s.markEpoch q k d s.devId next = next ((s.counted (.slot q k)).trigger d) := by
  rw [State.markEpoch, if_pos rfl, if_neg (not_not.2 hsource)]

theorem State.epochWaitWord_of_none {s : State} {q k : Nat} (begin_ : State → State) (h : (s.slot q k).epochWait = none) :
    s.epochWaitWord q k d begin_ = begin_ s := by
  rw [State.epochWaitWord, h]

theorem State.epochWaitWord_of_commit {s : State} {q k d n : Nat} (begin_ : State → State)
    (h : (s.slot q k).epochWait = some (d, n)) (hn : n < (s.epoch d).commits) :
    s.epochWaitWord q k d begin_ = (s.setSlot q k { s.slot q k with epochWait := none }).advance q k 1 := by
  rw [State.epochWaitWord, h]
  exact if_pos (by simp [hn])

theorem State.slot_waitAt (w : WaitKind) : (s.waitAt q k w).slot q k = (s.slot q k).waitOn w := State.slot_setSlot_same ..

end

/-! CFGW. -/

/-- A CFGW of a register of matrix tiles past its checks (R229). -/
theorem State.cfgWord_of_legal {s : State} {q k : Nat} {c : Cmd} (mayWrite : Bool) (hz : bits c.w0 52 3 = 0) (hz' : bits c.w0 0 36 = 0)
    (hus : (s.cfgUnits q k).all (fun u => decide (u < 64)) = true) (hreg : bits c.w0 40 12 = 1 ∨ bits c.w0 40 12 = 2)
    (hpend : (s.slot q k).pendReg (bits c.w0 36 4) = false) (hmark : (s.slot q k).regMark (bits c.w0 36 4) = 0)
    (hv : (s.slot q k).reg (bits c.w0 36 4) ≤ 1) :
    s.cfgWord q k c mayWrite =
      if bit c.w0 55 then
        ((s.cfgUnits q k).foldl (fun t u => t.cfgStage u (bits c.w0 40 12) ((s.slot q k).reg (bits c.w0 36 4))) s).advance q k 1
      else if mayWrite then
        ((s.cfgUnits q k).foldl (fun t u => (t.cfgForget u (bits c.w0 40 12)).cfgWrite u (bits c.w0 40 12)
          ((s.slot q k).reg (bits c.w0 36 4))) s).advance q k 1
      else s := by
  have hknown : (bits c.w0 40 12 == 1 || bits c.w0 40 12 == 2) = true := by simpa using hreg
  have hvalue : ¬ 1 < (s.slot q k).reg (bits c.w0 36 4) := Nat.not_lt.2 hv
  simp only [State.cfgWord, firstFail, hz, hz', hus, hknown, hpend, hmark, hvalue, decide_false, Bool.not_true, Bool.or_self, Bool.and_false,
    ne_eq, not_true_eq_false, Bool.false_eq_true, if_false]

/-! UCTL. -/

/-- A UCTL without a reserved value whose units are present, not FAULTED and free of MGMT_STOP (R230). -/
theorem State.uctlWord_of_legal {s : State} {q k : Nat} {c : Cmd} (go : State → List Nat → State) (hz : bits c.w0 52 4 = 0)
    (hz' : bits c.w0 0 32 = 0) (htarget : targetLegal (bits c.w0 32 16) = true) (hstate : bits c.w0 48 4 < 5)
    (hus : (targetUnits (bits c.w0 32 16)).all (fun u => s.present u && s.unitSt u != .faulted && !(s.ucb u).mgmtStop) = true) :
    s.uctlWord q k c go = go s (targetUnits (bits c.w0 32 16)) := by
  have hready : ((targetUnits (bits c.w0 32 16)).any fun u => !(s.present u) || s.unitSt u == .faulted) = false := by
    refine List.any_eq_false.2 fun u hu => ?_
    have := List.all_eq_true.1 hus u hu
    simp_all
  have hfree : ((targetUnits (bits c.w0 32 16)).any fun u => (s.ucb u).mgmtStop) = false := by
    refine List.any_eq_false.2 fun u hu => ?_
    have := List.all_eq_true.1 hus u hu
    simp_all
  simp only [State.uctlWord, uctlState, hz, hz', htarget, hready, hfree, Nat.not_le.2 hstate, ne_eq, not_true_eq_false, decide_false,
    Bool.not_true, Bool.or_self, Bool.false_eq_true, if_false]

/-- Settles O21: past its checks an EPOCH word marks, waits or both, and a CFGW or UCTL acts on each unit that it names. -/
theorem epochAndConfigWordsAct : Obligations.EpochAndConfigWordsAct := by
  intro s s' q k c h t d us xs tg
  refine ⟨fun hop hz hz' hdev => ?epoch, fun hop hz hz' hus hpend hmark hv hlegal => ?cfgw, fun hop hz hz' htarget hunits => ?uctl⟩
  case epoch =>
    have hd : d < 32 := Nat.mod_lt _ (by decide)
    refine ⟨fun hmode hrel hsource => ?mark, fun hmode hnone => ?wait, fun hmode n hsome hn => ?committed,
      fun hmode hnone hrel hsource => ?both⟩
    case mark =>
      have hrow : exec (.epochMarkCmd q k) s = _ := State.atWord_of_wordAt h (by rw [isEpoch_of_op hop hmode, Bool.true_or])
      refine hrow.trans (congrArg _ ((if_neg (by simp [hmode, hz, hz'])).trans ((if_neg (by simp [hrel])).trans ?_)))
      rw [hdev, ← s'.devId_bump64_drains]
      exact State.markEpoch_of_local q k _ ((s'.edSource_bump64_drains d hd).trans hsource)
    case wait =>
      have hrow : exec (.epochWaitCmd q k) s = _ := State.atWord_of_wordAt h (isEpoch_of_op hop hmode)
      exact hrow.trans (congrArg _ ((if_neg (by simp [hz, hz', hdev])).trans (State.epochWaitWord_of_none _ _ hnone)))
    case committed =>
      have hrow : exec (.epochWaitCmd q k) s = _ := State.atWord_of_wordAt h (isEpoch_of_op hop hmode)
      exact hrow.trans (congrArg _ ((if_neg (by simp [hz, hz', hdev])).trans (State.epochWaitWord_of_commit _ hsome hn)))
    case both =>
      have hrow : exec (.epochMarkWait q k) s = _ := State.atWord_of_wordAt h (isEpoch_of_op hop hmode)
      replace hrow := hrow.trans (congrArg _ ((if_neg (by simp [hz, hz'])).trans ((State.epochWaitWord_of_none _ _ hnone).trans
        (if_neg (by simp [hrel])))))
      have hmark := State.markEpoch_of_local q k (fun s : State => (s.setSlot q k { s.slot q k with
        epochWait := some (d, (s.epoch d).commits) }).waitAt q k .epoch) ((s'.edSource_bump64_drains d hd).trans hsource)
      rw [s'.devId_bump64_drains, ← hdev] at hmark
      refine ⟨_, hrow.trans (congrArg _ hmark), ?_⟩
      beta_reduce
      rw [State.slot_waitAt, State.slot_setSlot_same, State.slot_trigger, (Routed.counted ..).slot]
      exact ⟨rfl, rfl, rfl⟩
  case cfgw =>
    have hop' : isOp q 0x39 c.w0 = true := isOp_of_op q hop (by decide)
    have hbank (hreg : bits c.w0 40 12 = 1) : exec (.cfgwCurBank q k) s = _ :=
      State.atWord_of_wordAt h (by rw [hop', isStatDrop, hreg]; simp)
    have hdrop (hreg : bits c.w0 40 12 = 2) (hclass : seqClass q = 1) : exec (.cfgwStatDrop q k) s = _ :=
      State.atWord_of_wordAt h (by rw [isStatDrop, hop', hclass, hreg]; rfl)
    have hword (m : Bool) (hreg : bits c.w0 40 12 = 1 ∨ bits c.w0 40 12 = 2) := State.cfgWord_of_legal m hz hz' hus hreg hpend hmark hv
    refine ⟨fun hreg hstage => ?_, fun hreg hstage hidle => ?_, fun hreg hclass hstage => ?_, fun hreg hclass hstage => ?_⟩
    · rw [hbank hreg, hword _ (.inl hreg), if_pos hstage, hreg]
    · rw [hbank hreg, hword _ (.inl hreg), if_neg (Bool.eq_false_iff.1 hstage), if_pos hidle, hreg]
    · rw [hdrop hreg hclass, hword _ (.inr hreg), if_pos hstage, hreg]
    · rw [hdrop hreg hclass, hword _ (.inr hreg), if_neg (Bool.eq_false_iff.1 hstage), if_pos rfl, hreg]
  case uctl =>
    have hop' : isOp q 0x3A c.w0 = true := isOp_of_op q hop (by decide)
    refine ⟨fun st hcode hst => ?state, fun hcode htests u htg hdefer => ?test⟩
    case state =>
      have hrow : exec (.uctl q k) s = _ := State.atWord_of_wordAt h (by rw [hop', uctlState, ← hcode]; simp; omega)
      refine hrow.trans (congrArg _ ((State.uctlWord_of_legal _ hz hz' htarget (by omega) hunits).trans ?_))
      rw [uctlState, ← hcode]
      match st, hst with
      | .off, _ | .mews, _ | .hooded, _ | .ready, _ => rfl
    case test =>
      have hrow : exec (.uctlTest q k) s = _ := State.atWord_of_wordAt h (by rw [hop', uctlState, hcode]; rfl)
      refine hrow.trans (congrArg _ ((State.uctlWord_of_legal _ hz hz' htarget (by omega) hunits).trans ?_))
      replace htg : targetUnits (bits c.w0 32 16) = [u] := htg
      have hall : ((targetUnits (bits c.w0 32 16)).any fun u => !hasTest (unitClass u)) = false := by
        rw [← List.not_all_eq_any_not, show (targetUnits (bits c.w0 32 16)).all (fun u => hasTest (unitClass u)) = true from htests]
        rfl
      have hnot : (false || (s'.requestTest u false).1 == Sc.testDeferred) = false := by simpa using hdefer
      rw [if_neg (Bool.eq_false_iff.1 hall), htg, List.foldl_cons, List.foldl_nil]
      exact congrArg (fun w : State => w.advance q k 1) (if_neg (Bool.eq_false_iff.1 hnot))

end Sys2Proof.Machine
end

section
/-!
The end of a program: what it changes, and the words that lead to it by themselves (R194, R198, R199, R471, R557).
-/
namespace Sys2Proof.Machine

open Sys2Proof

/-- `t` is `s` but for objects and the host link's rings. -/
def Tallied (s t : State) : Prop := ∃ d r, t = { s with dict := d, host := r }

section
variable {s t u : State}

theorem Tallied.refl (s : State) : Tallied s s := ⟨_, _, rfl⟩

theorem Tallied.trans (h : Tallied s t) (h' : Tallied t u) : Tallied s u := by
  obtain ⟨_, _, rfl⟩ := h
  obtain ⟨_, _, rfl⟩ := h'
  exact ⟨_, _, rfl⟩

theorem Tallied.ite {c : Prop} [Decidable c] (h : Tallied s t) (h' : Tallied s u) : Tallied s (if c then t else u) := by
  split <;> assumption

theorem Tallied.bump (s : State) (key n : Nat) : Tallied s (s.bump key n) := ⟨_, _, rfl⟩

theorem Tallied.bumpIf {c : Prop} [Decidable c] (s : State) (key n : Nat) : Tallied s (if c then s.bump key n else s) :=
  .ite (.bump ..) (.refl s)

theorem Tallied.faultRing (s : State) (n cause word idx st : Nat) : Tallied s (s.faultRing n cause word idx st) :=
  .ite (.refl s) ⟨_, _, rfl⟩

theorem Tallied.slot (h : Tallied s t) (q k : Nat) : t.slot q k = s.slot q k := by
  obtain ⟨_, _, rfl⟩ := h
  rfl

end

/-- The end of a running program writes its slot, and else changes objects and rings (R237). -/
theorem State.endProgram_of_running (s : State) (q k st : Nat) (h : (s.slot q k).ending = 0) :
    ∃ t : State, (∃ m d, t = { s with seqs := m, dict := d }) ∧ (t.slot q k).ending = st + 1 ∧ Tallied t (s.endProgram q k st) := by
  rw [State.endProgram, if_neg (not_not.2 h)]
  extract_lets fault t₁ x t₂ t₃ t₄ t₅ t₆
  refine ⟨t₂, ?_, ?_, ?_⟩
  · obtain ⟨m, h₁⟩ : ∃ m, t₁ = { s with seqs := m } := s.setSlot_eq q k _
    obtain ⟨m', h₂⟩ := t₁.setSlot_eq q k { x with resv := none }
    show ∃ m d, (if (s.slot q k).resv.isSome = true then (t₁.setSlot q k { x with resv := none }).bump Obj.RSV_LOST_OTHER
      else t₁) = _
    split
    · exact ⟨m', _, by rw [h₂, h₁]; rfl⟩
    · exact ⟨m, _, h₁⟩
  · have hend : x.ending = st + 1 := congrArg Slot.ending (s.slot_setSlot_same q k _)
    show (State.slot (if (s.slot q k).resv.isSome = true then (t₁.setSlot q k { x with resv := none }).bump Obj.RSV_LOST_OTHER
      else t₁) q k).ending = _
    split
    · rw [State.slot_bump, State.slot_setSlot_same]
      exact hend
    · exact hend
  · have h₃ : Tallied t₂ t₃ := .bumpIf ..
    have h₄ : Tallied t₃ t₄ := .bumpIf ..
    have h₅ : Tallied t₄ t₅ := .bumpIf ..
    have h₆ : Tallied t₅ t₆ := .bumpIf ..
    exact (((h₃.trans h₄).trans h₅).trans h₆).trans (.ite (.faultRing ..) (.refl _))

theorem State.ending_endProgram (s : State) (q k st : Nat) (h : (s.slot q k).ending = 0) :
    ((s.endProgram q k st).slot q k).ending = st + 1 := by
  obtain ⟨t, -, hend, htail⟩ := s.endProgram_of_running q k st h
  rwa [htail.slot]

/-- Of the state, the end of a program changes sequencers, objects and rings. -/
theorem State.endProgram_eq (s : State) (q k st : Nat) : ∃ m d r, s.endProgram q k st = { s with seqs := m, dict := d, host := r } := by
  by_cases h : (s.slot q k).ending = 0
  · obtain ⟨t, ⟨m, d, rfl⟩, -, d', r, hr⟩ := s.endProgram_of_running q k st h
    exact ⟨m, d', r, hr⟩
  · exact ⟨_, _, _, if_pos h⟩

/-- Settles O22: a word of no legal opcode, or of no defined function, has a row that ends the program, and so has a command that is
not whole. -/
theorem undefinedWordsEndTheProgram : Obligations.UndefinedWordsEndTheProgram := by
  refine ⟨fun s s' q k w0 h => ?_, fun s s' q k c h => ⟨fun hop htype => ?_, fun hop hfunc => ?_⟩⟩
  · intro t
    refine ⟨fun hop => ?_, fun p hp hop hshort => ?_, fun hrun _ st _ => State.ending_endProgram s' q k st hrun⟩
    · exact State.atHead_of_headAt h (by rw [hop]; rfl)
    · have hwords : (s.slot q k).words < (s.slot q k).wi + cmdWords (bits w0 56 8) := by rwa [opcode_of_isOp hop]
      simp only [List.mem_cons, List.not_mem_nil, or_false] at hp
      obtain rfl | rfl | rfl | rfl := hp
      · exact State.atWord_of_headAt_short h hop hwords
      · exact State.atWord_of_headAt_short h hop hwords
      · exact State.atWord_of_headAt_short h hop hwords
      · exact State.atWord_of_headAt_short h hop hwords
  · exact State.atWord_of_wordAt h (by rw [hop, show bits c.w0 48 8 = c.func from rfl, htype]; rfl)
  · exact State.atWord_of_wordAt h (by rw [hop, show bits c.w0 48 8 = c.func from rfl, hfunc]; rfl)

end Sys2Proof.Machine
end

section
/-!
STREAM and SECOP words past their checks (R225, R259, R260, R611, R613, R614).
-/
namespace Sys2Proof.Machine

open Sys2Proof

/-! STREAM. -/

section
variable {s : State} {q k e : Nat} {c : Cmd}

/-- A slot after the update of one: the slot as updated where it is that one, else as it was. -/
theorem State.slot_setSlot_cases (s : State) (q k q' k' : Nat) (t : Slot) :
    (s.setSlot q' k' t).slot q k = s.slot q k ∨ (s.setSlot q' k' t).slot q k = t ∧ s.slot q' k' = s.slot q k := by
  by_cases hq : q = q'
  · subst hq
    simp only [State.slot, State.setSlot, State.seq_setSeq_same]
    by_cases hk : k = 0 <;> by_cases hk' : k' = 0 <;> simp [hk, hk']
  · exact .inl (by simp only [State.slot, State.setSlot, State.seq_setSeq_other _ _ _ _ hq])

/-- A kept status changes at most what a slot names of engines and chains (R259). -/
theorem State.slot_keepStatus (s : State) (e q k : Nat) :
    ∃ es cs, (s.keepStatus e).slot q k = { s.slot q k with engines := es, chains := cs } := by
  unfold State.keepStatus
  extract_lets x t
  split
  · obtain h | ⟨h, ht⟩ := s.slot_setSlot_cases q k x.seq x.slot
      { t with engines := t.engines.filter (· ≠ e), chains := t.chains ++ [(e, x.lastStatus, x.mark)] }
    · exact ⟨_, _, h⟩
    · exact ⟨_, _, by rw [h, show t = s.slot q k from ht]⟩
  · exact ⟨_, _, rfl⟩

/-- A STREAM word that names engine e and has no reserved bit set acts on it (R225). -/
theorem State.streamWord_of_ready {start : Bool} {go : Nat → State} (h : streamReady s q k c e)
    (hstart : start = true ∨ bits c.w0 48 2 ≠ 0) : s.streamWord q k c start go = go e := by
  obtain ⟨hengine, hz, hunused⟩ := h
  rw [State.streamWord, hengine]
  refine if_neg ?_
  obtain rfl | hmode := hstart
  · simp [hz]
  · obtain ⟨hxs, hdetached⟩ := hunused hmode
    simp [hz, hxs, hdetached]

theorem mode_of_isStream {mode w : Nat} (h : isStream q mode w = true) : bits w 48 2 = mode := by
  simp only [isStream, Bool.and_eq_true, beq_iff_eq] at h
  exact h.2

@[simp] theorem State.engine_setSlot (s : State) (q k : Nat) (t : Slot) : (s.setSlot q k t).engine e = s.engine e := rfl

@[simp] theorem State.engine_advance (s : State) (q k n : Nat) : (s.advance q k n).engine e = s.engine e := by
  obtain ⟨_, _, h⟩ := s.advance_eq q k n
  rw [h]
  rfl

end

/-! SECOP. -/

/-- A SECOP word of count 1 without a reserved value acts (R611). -/
theorem State.secWord_of_legal {s : State} {q k : Nat} {c : Cmd} (body : State → Slot → Nat → State) (hz : secReserved c = false)
    (hone : bits c.w0 0 32 = 1) (hfree : s.leaderHolds q k false = false) :
    s.secWord q k c body = body s (s.slot q k) (q - 104) := by
  simp only [State.secWord, hz, hone, hfree, Nat.lt_irrefl, Nat.one_ne_zero, Bool.false_eq_true, if_false]

theorem isSec_of_isOp {q f : Nat} {c : Cmd} (hop : isOp q 0x35 c.w0 = true) (g : Nat) (hfunc : c.func = f) : isSec q g c.w0 = (f == g) := by
  rw [isSec, hop, Bool.true_and, show bits c.w0 48 8 = f from hfunc]

/-- Settles O25: past its checks a STREAM word acts on the engine that it names, and a SECOP word on its core. -/
theorem streamAndCoreWordsAct : Obligations.StreamAndCoreWordsAct := by
  refine ⟨fun s s' q k e c h hready hk => ?stream, fun s s' q k c h hz hone hfree => ?secop⟩
  case stream =>
    intro t x
    refine ⟨fun hop hpend hmark hfree hidle => ?start, fun hop hfree => ?stop, fun hop hfree hidle hok => ?wait⟩
    case start =>
      have hmode : bits c.w0 48 2 = 0 := mode_of_isStream hop
      have hrow : exec (.streamStart q k) s = _ := State.atWord_of_wordAt h (by rw [hop, Bool.true_or])
      replace hrow := hrow.trans (congrArg _ ((if_neg (by rw [hmode]; decide)).trans ((State.streamWord_of_ready hready (.inl rfl)).trans
        ((if_neg (Bool.eq_false_iff.1 hpend)).trans ((if_neg (not_not.2 hmark)).trans ((if_neg (Bool.eq_false_iff.1 hfree)).trans
          (if_neg (by rw [show (s'.engine e).st = .idle from hidle]; decide))))))))
      refine ⟨_, hrow, ?_⟩
      obtain ⟨es, cs, hslot⟩ := s'.slot_keepStatus e q k
      rw [State.engine_advance, State.engine_setSlot, State.engine_setEngine_same, State.slot_advance, State.slot_setSlot_same, hslot]
      refine ⟨rfl, rfl, rfl, rfl, rfl, fun hdetached => ?_, rfl⟩
      show e ∈ (if bit c.w0 43 then es else es.filter (· ≠ e) ++ [e])
      rw [hdetached]
      simp
    case stop =>
      have hrow : exec (.streamStop q k) s = _ := State.atWord_of_wordAt h hop
      refine hrow.trans (congrArg _ ((State.streamWord_of_ready hready (.inr (by rw [mode_of_isStream hop]; decide))).trans
        ((if_neg (Bool.eq_false_iff.1 hfree)).trans ?_)))
      simp only [beq_iff_eq]
      rfl
    case wait =>
      have hrow : exec (.streamWait q k) s = _ := State.atWord_of_wordAt h hop
      exact hrow.trans (congrArg _ ((State.streamWord_of_ready hready (.inr (by rw [mode_of_isStream hop]; decide))).trans
        ((if_neg (Bool.eq_false_iff.1 hfree)).trans ((if_neg (by rw [show (s'.engine e).st = .idle from hidle]; decide)).trans
          (if_neg (not_not.2 hok))))))
  case secop =>
    intro core t
    refine ⟨fun hop hfunc => ?run, fun hop hfunc => ?flush, fun hop hfunc => ?clear, fun hop hfunc hpend hmark hoff => ?layer⟩
    case run =>
      have hsel : (isOp q 0x35 c.w0 && !(isSec q 1 c.w0 || isSec q 3 c.w0 || isSec q 4 c.w0)) = true := by
        rw [hop, isSec_of_isOp hop 1 hfunc, isSec_of_isOp hop 3 hfunc, isSec_of_isOp hop 4 hfunc]
        rfl
      exact (State.atWord_of_wordAt h hsel).trans (congrArg _ (State.secWord_of_legal _ hz hone hfree))
    case flush => exact (State.atWord_of_wordAt h (isSec_of_isOp hop 3 hfunc)).trans (congrArg _ (State.secWord_of_legal _ hz hone hfree))
    case clear => exact (State.atWord_of_wordAt h (isSec_of_isOp hop 4 hfunc)).trans (congrArg _ (State.secWord_of_legal _ hz hone hfree))
    case layer =>
      intro rd l z hread hcheck
      have hrow : exec (.secopLayer q k) s = _ := State.atWord_of_wordAt h (isSec_of_isOp hop 1 hfunc)
      have hinside : ¬ (t.reg (secXp c) ≠ 0x74000 && t.reg (secXp c) ≠ 0x74800) = true := by
        obtain hoff | hoff := hoff <;> simp [hoff]
      replace hrow := hrow.trans (congrArg _ ((if_neg (by rw [show (s'.slot q k).pendReg (secXp c) = false from hpend]; simp)).trans
        ((if_neg (by rw [show (s'.slot q k).regMark (secXp c) = 0 from hmark]; simp)).trans
          ((if_neg (by rw [Bool.and_eq_true]; exact fun h => hinside h.2)).trans (State.secWord_of_legal _ hz hone hfree)))))
      exact hrow.trans (congrArg _ ((if_neg (not_not.2 hread)).trans (if_neg (not_not.2 hcheck))))

end Sys2Proof.Machine
end

section
/-!
What happens to a program beside its words: its completion, HANG_WATCH, its reservation, its unit operation that waits for room, and
its buffered stores (R218, R237, R240, R376, R396).
-/
namespace Sys2Proof.Machine

open Sys2Proof

section
variable {s : State} {q k : Nat}

theorem Slot.running_of_role {t : Slot} (h : t.role = .leader ∨ t.role = .follower) :
    (t.role == .leader || t.role == .follower) = true := by
  obtain h | h := h <;> rw [h] <;> rfl

/-- The occasion of a completion (R237). -/
theorem State.execProgramComplete_of_done (hq : q < 153) (hk : k < 2) (hsafe : s.safety.safe = false)
    (hrole : (s.slot q k).role = .leader ∨ (s.slot q k).role = .follower) (hstop : (s.slot q k).stopping = false)
    (hdone : s.mayComplete q k = true) (hend : (s.slot q k).ending ≠ 0 ∨ (s.slot q k).wait = .ended) :
    exec (.programComplete q k) s =
      if (s.slot q k).ending ≠ 0 then .next (((s.takeStreams q k (s.slot q k).untaken).2).completeProgram q k)
      else if (s.settle q k).1 ≠ 0 then .next ((s.settle q k).2.endProgram q k (s.settle q k).1)
      else .next (((s.settle q k).2.endNormally q k).completeProgram q k) := by
  refine if_pos ?_
  have hended : ((s.slot q k).ending ≠ 0 || (s.slot q k).wait == .ended) = true := by simpa using hend
  simp only [hq, hk, hsafe, Slot.running_of_role hrole, hstop, hdone, hended, decide_true, Bool.not_false, Bool.and_self]

/-- A word whose command is here is fetched whole, and again gives its command. -/
theorem State.CommandAt.fetchCmd {c : Cmd} (h : s.CommandAt q k c) : s.fetch q k (s.slot q k).wi = .word c.w0 s ∧
    ∃ v, s.fetchCmd q k (s.slot q k).wi c.w0 (cmdWords (bits c.w0 56 8)) = (.word v s, c) := ⟨h.fetched, h.words⟩

/-- A word that waits for room in its unit's queue issues when there is room (R218). -/
theorem State.execIssueQueueRoom_of_wordAt {s' : State} {c : Cmd} (h : s.wordAt q k = some (c, s'))
    (hwait : (s.slot q k).wait = .issueQueue) (hroom : (s.seq q).queue.length < (s.slot q k).depth) :
    exec (.issueQueueRoom q k) s = .next (s'.pushOp q k c) := by
  obtain ⟨rfl, hc⟩ := State.wordAt_eq_some h
  obtain ⟨hfetch, v, hcmd⟩ := hc.fetchCmd
  show execIssueQueueRoom q k s' = _
  rw [execIssueQueueRoom, if_pos (by simp [hc.run, hwait, hroom]), hfetch]
  dsimp only
  rw [hcmd]

/-- A buffered store whose turn has come is sent to its node (R376). -/
theorem State.execStoreBufferSend_of_turn {i n : Nat} {e : SbEntry} {u : State} (hq : q < 153) (hentry : (s.seq q).sb[i]? = some e)
    (hunsent : e.sent = false) (hsafe : s.safety.safe = false) (hloads : (s.slot q e.slot).loads = [])
    (hfirst : ∀ o ∈ (s.seq q).sb.take i, ¬ (o.slot = e.slot ∧ o.addr / 128 = e.addr / 128)) (hdest : s.destOf e.addr = .node n)
    (hsend : s.sendStore q e n = some u) :
    exec (.storeBufferSend q i) s = .next (u.setSeq q { s.seq q with sb := (s.seq q).sb.set i { e with sent := true } }) := by
  have hturn : ((s.seq q).sb.take i).all (fun o => !(o.slot == e.slot && o.addr / 128 == e.addr / 128)) = true := by
    simpa [imp_iff_not_or] using hfirst
  show execStoreBufferSend q i s = _
  rw [execStoreBufferSend, hentry]
  dsimp only
  rw [hturn, if_pos (by simp [hq, hsafe, hunsent, hloads]), hdest]
  dsimp only
  rw [show State.send s _ _ = _ from hsend]

end

/-- Settles O26: in each of these commands the occasion that the statement names leaves its effect. -/
theorem programEventsTakeEffect : Obligations.ProgramEventsTakeEffect := by
  intro s q k hq hk t
  refine ⟨fun hsafe hrole hstop hdone hend => ?ended, fun hsafe hrole hstop hdone hend hwait hok => ?done,
    fun hrole hown hhang hlimit hlong => ?hang, fun hresv => ?reservation, fun s' c h hwait hroom => ?room,
    fun i n e u hentry hunsent hsafe hloads hfirst hdest hsend => ?store⟩
  case ended => rw [State.execProgramComplete_of_done hq hk hsafe hrole hstop hdone (.inl hend), if_pos hend]
  case done =>
    rw [State.execProgramComplete_of_done hq hk hsafe hrole hstop hdone (.inr hwait), if_neg (not_not.2 hend), if_neg (not_not.2 hok)]
  case hang =>
    refine .of_occ rfl ?_ ⟨?_, State.obj_bump_same _ _ _, ?_, rfl⟩
    · show (decide (q < 153) && decide (k < 2) && (t.role == .leader || t.role == .follower) && t.castOrigin.isNone && !t.hang &&
        decide (t.hangMs ≠ 0) && decide (t.waitNs + t.hangMs * 1000000 < s.timeNs)) = true
      rw [Slot.running_of_role hrole, hown, hhang, decide_eq_true hq, decide_eq_true hk, decide_eq_true hlimit, decide_eq_true hlong]
      rfl
    · rw [State.slot_bump, State.slot_setSlot_same]
    · rw [State.slot_bump, State.slot_setSlot_same]
  case reservation =>
    refine .of_occ rfl (by simp [hq, hk, show (s.slot q k).resv.isSome = true from hresv]) ⟨?_, State.obj_bump_same _ _ _, ?_, rfl⟩
    · rw [State.slot_bump, State.slot_setSlot_same]
    · rw [State.slot_bump, State.slot_setSlot_same]
  case room => exact State.execIssueQueueRoom_of_wordAt h hwait hroom
  case store => exact State.execStoreBufferSend_of_turn hq hentry hunsent hsafe hloads hfirst hdest hsend

end Sys2Proof.Machine
end

section
/-!
Requests at their home, and what the jess table does with its packets (R209, R215, R290, R292, R371, R374, R514, R535).
-/
namespace Sys2Proof.Machine

open Sys2Proof

section
variable {s u : State} {p : Nat} {k : Packet}

/-! Requests whose edge is open, outside device space and fabric windows. -/

/-- A read is performed at its home (R371). -/
theorem State.execRdReq_of_home {f : List (Nat × Nat)} (ha : s.arrived p .rdReq = some k) (hmmio : regionOf k.addr ≠ .mmio)
    (hedge : s.edge k = (true, u)) (hwindow : u.windowPort k = none) :
    exec (.rdReq p f) s =
      let open_ := match u.holder k.addr with | some h => u.redirected k.addr != k.addr || u.reply h == .deliver | none => false
      let v := if open_ && u.mark (u.redirected k.addr) = 0 then u.finds (u.redirected k.addr) f else u
      let r := v.homeRead (isGather k.agent) k.addr k.len
      .next ((r.2.dropPacket p).respond k .rdRsp r.1.status (padTo k.len r.1.bytes) r.1.mark 0) := by
  have hregion : ¬ (regionOf k.addr == .mmio) = true := by simpa using hmmio
  show execRdReq p f s = _
  simp only [execRdReq, ha, hedge, Bool.not_true, Bool.false_eq_true, if_false, if_neg hregion, hwindow] <;> rfl

/-- A write's first row at its home: in one piece, or by the pieces of R374. -/
theorem State.execWr_of_home {n : Nat} (ha : s.arrived p .wr = some k) (hfirst : k.pieces = []) (hmmio : regionOf k.addr ≠ .mmio)
    (hedge : s.edge k = (true, u)) (hwindow : u.windowPort k = none) :
    exec (.wr p n) s =
      if oneGo k || k.len = 0 then
        .next (((u.homeWrite k.agent (isGather k.agent) k.addr k.data 0).2.dropPacket p).respond k .wrAck
          (u.homeWrite k.agent (isGather k.agent) k.addr k.data 0).1 [] 0 0)
      else if (u.writePiece k n).2.1 then
        .next (((u.writePiece k n).2.2.dropPacket p).respond k .wrAck (u.writePiece k n).1 [] 0 0)
      else if decide (k.pieces.contains n) || (k.addr + k.len - 1) / 8 - k.addr / 8 < n then .next u
      else .next ((u.writePiece k n).2.2.setPacket { k with pieces := k.pieces ++ [n] }) := by
  have hregion : ¬ (regionOf k.addr == .mmio) = true := by simpa using hmmio
  have hnone : k.pieces.isEmpty = true := List.isEmpty_iff.2 hfirst
  show execWr p n s = _
  simp only [execWr, ha, hnone, if_true, hedge, Bool.not_true, Bool.false_eq_true, if_false, if_neg hregion, hwindow]

/-- A poisoned write is performed at its home. -/
theorem State.execWrPoison_of_home (ha : s.arrived p .wrPoison = some k) (hmmio : regionOf k.addr ≠ .mmio)
    (hedge : s.edge k = (true, u)) (hwindow : u.windowPort k = none) :
    exec (.wrPoison p) s =
      let r := u.homeWrite k.agent (isGather k.agent) k.addr k.data (k.pseq + 1)
      .next ((r.2.dropPacket p).respond k .wrAck r.1 [] 0 0) := by
  have hregion : ¬ (regionOf k.addr == .mmio) = true := by simpa using hmmio
  show execWrPoison p s = _
  simp only [execWrPoison, ha, hedge, Bool.not_true, Bool.false_eq_true, if_false, if_neg hregion, hwindow]

/-- An atomic is performed at its home (R209). -/
theorem State.execAmoReq_of_home (ha : s.arrived p .amoReq = some k) (hmmio : regionOf k.addr ≠ .mmio)
    (hedge : s.edge k = (true, u)) (hwindow : u.windowPort k = none) :
    exec (.amoReq p) s =
      let r := u.performAmo k
      .next ((r.2.2.2.dropPacket p).respond k .amoRsp r.1 (leBytes 8 r.2.1) r.2.2.1 0) := by
  have hregion : ¬ (regionOf k.addr == .mmio) = true := by simpa using hmmio
  show execAmoReq p s = _
  simp only [execAmoReq, ha, hedge, Bool.not_true, Bool.false_eq_true, if_false, if_neg hregion, hwindow]

/-! Posts, marks and gathers. -/

theorem State.execJessPost_of_local (ha : s.arrived p .jessPost = some k) (hlocal : ∀ d r, k.agent ≠ .remote d r) :
    exec (.jessPost p) s = .next ((s.post (semOf k.pair k.which) k.count).2.dropPacket p) := by
  show execJessPost p s = _
  simp only [execJessPost, ha]

theorem State.execEpochMark_of_local (ha : s.arrived p .epochMark = some k) (hlocal : ∀ d r, k.agent ≠ .remote d r)
    (hsource : s.edSource k.ed = 1) : exec (.epochMark p) s = .next ((s.dropPacket p).trigger k.ed) := by
  show execEpochMark p s = _
  simp only [execEpochMark, ha, if_pos (show (s.dropPacket p).edSource k.ed = 1 from hsource)]

theorem State.execGatherReq_of_deliver {v : State} (ha : s.arrived p .gatherReq = some k) (hedge : s.edge k = (true, u))
    (hreply : u.reply (unitOf 5 (k.table % 16)) = .deliver) (htake : u.takeGather (k.table % 16) k = some v) :
    exec (.gatherReq p) s = .next (v.dropPacket p) := by
  have hopen : ¬ (u.reply (unitOf 5 (k.table % 16)) != .deliver) = true := by simp [hreply]
  show execGatherReq p s = _
  simp only [execGatherReq, ha, hedge, Bool.not_true, Bool.false_eq_true, if_false, if_neg hopen, htake]

/-! Waits at the jess table. -/

/-- A wait that comes to the table is granted at once or joins its semaphore's line (R213, R266). -/
theorem State.execJessWait_of_arrived (ha : s.arrived p .jessWait = some k) (hcancel : k.cancel = false) :
    exec (.jessWait p) s =
      let m := semOf k.pair k.which
      let u := s.dropPacket p
      if u.canTake m k.count k.waiter then .next ((u.take m k.count k.waiter).respond k .jessGrant Sc.ok [] 0 0)
      else .next (u.addWaiter
        { sem := m, count := k.count, who := k.waiter, sinceNs := u.timeNs, tmo := k.tmo, reply := some (k.src, k.tag), packet := p }) := by
  show execJessWait p s = _
  simp only [execJessWait, ha, hcancel, Bool.false_eq_true, if_false]

theorem State.addWaiter_keeps (s : State) (w : SemWaiting) :
    (s.addWaiter w).str.waiters = s.str.waiters ++ [w] ∧ ∀ i, (s.addWaiter w).sem i = s.sem i := by
  simp only [State.addWaiter]
  split <;> exact ⟨rfl, fun _ => rfl⟩

theorem State.mem_packets_respond (s : State) (req : Packet) (kind : PKind) (st : Nat) (bs : List Byte) (m seg : Nat) :
    ∃ r ∈ (s.respond req kind st bs m seg).net.packets, r.kind = kind ∧ r.status = st ∧ r.dst = req.src :=
  ⟨_, List.mem_append_right _ (List.mem_singleton_self _), rfl, rfl, rfl⟩

/-- Freed tags change no semaphore. -/
theorem State.foldl_freeOutst_eq (rs : List (Nat × Nat)) (s : State) :
    ∃ n, rs.foldl (fun s r => s.freeOutst r.1 0 r.2) s = { s with net := n } := by
  induction rs generalizing s with
  | nil => exact ⟨_, rfl⟩
  | cons r rs ih =>
    obtain ⟨n, hn⟩ := ih (s.freeOutst r.1 0 r.2)
    exact ⟨n, hn⟩

/-- A cancel withdraws the waits that it matches and is answered (R292). -/
theorem State.jessWaitCancel_completes (ha : s.arrived p .jessWait = some k) (hcancel : k.cancel = true) :
    Completes (.jessWaitCancel p) s fun t => (∀ i, t.sem i = s.sem i) ∧
      (∀ w ∈ t.str.waiters, ¬ (w.sem = semOf k.pair k.which ∧ w.who = k.waiter)) ∧
      ∃ r ∈ t.net.packets, r.kind = .jessGrant ∧ r.status = Sc.okEmpty ∧ r.dst = k.src := by
  let mine (w : SemWaiting) : Bool := w.sem == semOf k.pair k.which && w.who == k.waiter
  obtain ⟨n, hn⟩ := State.foldl_freeOutst_eq ((s.str.waiters.filter mine).filterMap (·.reply)) s
  have hrow : exec (.jessWaitCancel p) s =
      .next ((State.dropPacket { s with net := n, str := { s.str with waiters := s.str.waiters.filter fun w => !mine w } } p).respond k
        .jessGrant Sc.okEmpty [] 0 0) := by
    show execJessWaitCancel p s = _
    simp only [execJessWaitCancel, ha, hcancel, Bool.not_true, Bool.false_eq_true, if_false]
    rw [show ((s.str.waiters.filter mine).filterMap (·.reply)).foldl _ s = _ from hn]
  refine ⟨_, hrow, fun _ => rfl, fun w hw => ?_, State.mem_packets_respond ..⟩
  rintro ⟨hsem, hwho⟩
  have hkept : (!mine w) = true := (List.mem_filter.1 hw).2
  simp [mine, hsem, hwho] at hkept

/-- A table's answer to a wait ends it and leaves the semaphores (R292). -/
theorem State.answerWait_keeps (s : State) (w : SemWaiting) (st : Nat) :
    (∀ i, (s.answerWait w st).sem i = s.sem i) ∧ w ∉ (s.answerWait w st).str.waiters ∧
      ∃ r ∈ (s.answerWait w st).net.packets, r.kind = .jessGrant ∧ r.status = st ∧ r.dst = (w.reply.getD (hostNode, 0)).1 := by
  refine ⟨fun _ => rfl, fun hw => ?_, State.mem_packets_respond ..⟩
  have hkept : (!(w == w)) = true := (List.mem_filter.1 hw).2
  simp at hkept

end

/-- Settles O45: each request's row at an open home performs it, and the table's rows act on its semaphores and its line. -/
theorem requestsArePerformedAtTheirHome : Obligations.RequestsArePerformedAtTheirHome := by
  refine ⟨fun s u p k hmmio hedge hwindow => ?home, fun s p k => State.execJessPost_of_local, fun s p k => State.execEpochMark_of_local,
    fun s u v p k => State.execGatherReq_of_deliver, fun s p k ha => ?wait, fun s p w hsafe hw => ?timeout⟩
  case home =>
    refine ⟨fun f ha => State.execRdReq_of_home ha hmmio hedge hwindow, fun n ha hfirst hone => ?_, fun n ha hfirst hone hlen hdone => ?_,
      fun ha => State.execWrPoison_of_home ha hmmio hedge hwindow, fun ha => State.execAmoReq_of_home ha hmmio hedge hwindow⟩
    · exact (State.execWr_of_home ha hfirst hmmio hedge hwindow).trans (if_pos (by rw [hone, Bool.true_or]))
    · exact (State.execWr_of_home ha hfirst hmmio hedge hwindow).trans ((if_neg (by simp [hone, hlen])).trans (if_pos hdone))
  case wait =>
    intro m u
    refine ⟨fun hcancel htake => (State.execJessWait_of_arrived ha hcancel).trans (if_pos htake), fun hcancel htake => ?_,
      State.jessWaitCancel_completes ha⟩
    exact ⟨_, (State.execJessWait_of_arrived ha hcancel).trans (if_neg (Bool.eq_false_iff.1 htake)), u.addWaiter_keeps _⟩
  case timeout =>
    obtain ⟨hsem, hgone, hanswer⟩ := s.answerWait_keeps w Sc.timeout
    have hreply : w.reply.isSome = true := by
      have := List.find?_some hw
      simp only [Bool.and_eq_true] at this
      exact this.1.2
    obtain ⟨r, hr⟩ := Option.isSome_iff_exists.1 hreply
    refine ⟨_, ?_, hsem, hgone, ?_⟩
    · show execJessWaitTimeout p s = _
      rw [execJessWaitTimeout, hw]
      simp only [occ, hsafe, Bool.not_false, if_true]
    · rw [hr] at hanswer ⊢
      exact hanswer

end Sys2Proof.Machine
end

section
/-!
Queued unit operations: how their rows begin and end them, and what a checker's fault leaves (R218, R219, R434, R435, R743).
-/
namespace Sys2Proof.Machine

open Sys2Proof

/-! The fault of a checker. -/

section
variable (s : State) (a : Nat)

theorem State.byteAt_endProgram (q k st : Nat) : (s.endProgram q k st).byteAt a = s.byteAt a := by
  obtain ⟨_, _, _, h⟩ := s.endProgram_eq q k st
  rw [h]
  rfl

theorem State.background_abortTests : s.abortTests.background = s.background := by
  refine foldl_keeps State.background (fun u n => ?_) _ _
  dsimp only
  split
  · rw [State.background_bump, State.background_setObj, State.background_setUcb]
  · rfl

/-- The safe state keeps memory. The state in which the tests have ended is left abstract. -/
theorem State.byteAt_enterSafe : s.enterSafe.byteAt a = s.byteAt a := by
  unfold State.enterSafe
  split
  · rfl
  · have hkept := State.byteAt_of_background s.background_abortTests a
    revert hkept
    generalize s.abortTests = t
    exact id

/-- No error source writes memory. -/
theorem State.byteAt_raise (src : Nat) (e : ErrInfo) : (s.raise src e).byteAt a = s.byteAt a := by
  unfold State.raise
  extract_lets c t₁ t₂ t₃ _ t₄
  have hreport : t₃.background = s.background := (State.background_reportError t₂ src e).trans rfl
  have hlatch : t₄.background = s.background := State.background_ite hreport hreport
  have hbyte : t₄.byteAt a = s.byteAt a := State.byteAt_of_background hlatch a
  split
  · exact (t₄.byteAt_enterSafe a).trans hbyte
  · exact hbyte

theorem State.byteAt_unitFault (u cause : Nat) : (s.unitFault u cause).byteAt a = s.byteAt a := by
  unfold State.unitFault
  extract_lets t
  split
  · exact s.byteAt_raise a ..
  · exact s.byteAt_raise a ..

/-- A unit whose fault is not repairable is FAULTED (R758). -/
theorem State.unitSt_unitFault (u : Nat) {cause : Nat} (h : cause ≠ 3) : (s.unitFault u cause).unitSt u = .faulted := by
  rw [State.unitFault, if_neg h, State.unitSt, State.ucb_setUcb_same]

theorem State.unitSt_checkerFault (u : Nat) : (s.checkerFault u).unitSt u = .faulted := by
  unfold State.checkerFault
  exact State.unitSt_unitFault _ u (by decide)

/-- A checker's fault ends what names the unit and writes no memory (R743). -/
theorem State.byteAt_checkerFault (u : Nat) : (s.checkerFault u).byteAt a = s.byteAt a := by
  unfold State.checkerFault
  extract_lets t₁ t₂
  have hqueue : t₁.byteAt a = s.byteAt a := by
    unfold t₁
    split <;> rfl
  have hends : t₂.byteAt a = t₁.byteAt a := by
    refine foldl_keeps (State.byteAt · a) (fun t x => ?_) _ t₁
    split
    · rfl
    · exact t.byteAt_endProgram a ..
  exact (t₂.byteAt_unitFault a u 1).trans (hends.trans hqueue)

end

/-! The rows. -/

section
variable {s : State} {q : Nat} {o : UnitOp}

/-- The row of the operation at a queue's head (R218). -/
theorem State.execUnitOpComplete_of_head (ok : Bool) (hq : q < 153) (hlive : s.live = true) (hhead : s.headOp q = some o)
    (hop : o.opcode ≠ 0x30) :
    exec (.unitOpComplete q ok) s =
      if !ok then .next (s.checkerFault (seqUnit q))
      else .next (match o.opcode with
        | 0x31 => s.runVx o
        | 0x32 => s.runCx o
        | 0x33 => s.gxComplete (q - 120) o
        | 0x36 => if s.coll.op == some o.id then s.settleColl o else s
        | 0x37 => if s.coll.op == some o.id then s.settleColl o else s
        | _ => s) := by
  have hready : ¬ (!s.live || 153 ≤ q || o.opcode == 0x30) = true := by simp [hlive, hq, hop]
  show execUnitOpComplete q ok s = _
  rw [execUnitOpComplete, hhead]
  exact if_neg hready

/-- The oldest pass begun of a queue, once it is the oldest on each of its tiles (R443). -/
theorem State.execMxpassDrainDone_of_oldest (ok : Bool) (hq : q < 64) (hlive : s.live = true) (hhead : s.headOp q = some o)
    (hop : o.opcode = 0x30) (hbegan : o.began ≠ 0) (hfirst : ∀ u ∈ s.passTiles o, ∀ x ∈ s.begunOn u, o.began ≤ x.began) :
    exec (.mxpassDrainDone q ok) s = .next (if ok then s.runPass o else s.checkerFault q) := by
  have hoccasion : (q < 64 && s.live && o.opcode == 0x30 && o.began ≠ 0 &&
      (s.passTiles o).all fun u => (s.begunOn u).all fun x => decide (o.began ≤ x.began)) = true := by
    simpa [hq, hlive, hop, hbegan] using hfirst
  show execMxpassDrainDone q ok s = _
  rw [execMxpassDrainDone, hhead]
  exact if_pos hoccasion

/-- The oldest pass not begun begins where fewer than two drains hold the banks of each of its tiles (R434, R435). -/
theorem State.execMxpassStart_of_banks (w : Nat) (hq : q < 64) (hlive : s.live = true) (hheld : s.held q = false)
    (hnext : (s.seq q).queue.find? (fun x => x.began == 0) = some o) (hop : o.opcode = 0x30)
    (hbanks : ∀ u ∈ s.passTiles o, ((s.begunOn u).filter fun x => bit x.w0 23).length < 2) :
    let n := s.tiles.started + 1
    let t := s.setSeq q { s.seq q with queue := (s.seq q).queue.map fun y => if y.id = o.id then { y with began := n } else y }
    exec (.mxpassStart q w) s = .next (({ t with tiles := { t.tiles with started := n } } : State).bump64 Obj.BANK_WAIT_CYCLES w) := by
  have hoccasion : (q < 64 && s.live && o.opcode == 0x30 && !(s.held q) &&
      (s.passTiles o).all (fun u => decide (((s.begunOn u).filter fun x => bit x.w0 23).length < 2))) = true := by
    simpa [hq, hlive, hop, hheld] using hbanks
  show execMxpassStart q w s = _
  rw [execMxpassStart, hnext]
  exact if_pos hoccasion

end

/-- Settles O51: a queue's head has a row that runs it to its end, a pass has those of its start and drain, and a checker's fault comes
in place of the end. -/
theorem unitOperationsEnd : Obligations.UnitOperationsEnd := by
  refine ⟨fun s q o hq hlive hhead => ?_, fun s q w o hq hlive hheld hnext hop hbanks => ?_, fun s u => ?_⟩
  · have hend (hop : o.opcode ≠ 0x30) := State.execUnitOpComplete_of_head true hq hlive hhead hop
    refine ⟨fun hop => (State.execUnitOpComplete_of_head false hq hlive hhead hop).trans (if_pos rfl), fun hop => ?_,
      fun hop => ?_, fun hop => ?_, fun hop hown => ?_,
      fun hq hop hbegan hfirst => ?_⟩
    · rw [hend (by rw [hop]; decide), hop]; rfl
    · rw [hend (by rw [hop]; decide), hop]; rfl
    · rw [hend (by rw [hop]; decide), hop]; rfl
    · have hcoll : (s.coll.op == some o.id) = true := by rw [hown, beq_self_eq_true]
      obtain hop | hop := hop
      · rw [hend (by rw [hop]; decide), hop, hcoll]; rfl
      · rw [hend (by rw [hop]; decide), hop, hcoll]; rfl
    · have hdrain (ok : Bool) := State.execMxpassDrainDone_of_oldest ok hq hlive hhead hop hbegan hfirst
      exact ⟨(hdrain true).trans (congrArg _ (if_pos rfl)), (hdrain false).trans (congrArg _ (if_neg Bool.false_ne_true))⟩
  · refine ⟨_, State.execMxpassStart_of_banks w hq hlive hheld hnext hop hbanks, ?_, rfl, State.obj_bump64_same _ _ _, rfl⟩
    exact congrArg Sequencer.queue (s.seq_setSeq_same q _)
  · exact ⟨s.unitSt_checkerFault u, fun a => s.byteAt_checkerFault a u⟩

end Sys2Proof.Machine
end

section
/-!
An engine's counters: what a snapshot copies and what a clear sets to 0 (R271, Table 6.14).
-/
namespace Sys2Proof.Machine

open Sys2Proof

section
variable (s : State) (e : Nat)

/-- A snapshot writes its engine's record, and the copy that STALL_SELECT shows where that object names the engine. -/
theorem State.engSnap_eq : ∃ c, s.engSnap e =
    let t := s.setEngine e { s.engine e with snap := { (s.engine e).live with timeNs := s.timeNs } }
    { t with str := { t.str with stallSnap := c } } := by
  simp only [State.engSnap]
  split
  · exact ⟨_, rfl⟩
  · exact ⟨s.str.stallSnap, rfl⟩

theorem State.engine_engSnap_same :
    (s.engSnap e).engine e = { s.engine e with snap := { (s.engine e).live with timeNs := s.timeNs } } := by
  obtain ⟨c, h⟩ := s.engSnap_eq e
  rw [h]
  exact s.engine_setEngine_same e _

theorem State.engine_engSnap_other {f : Nat} (hf : f ≠ e) : (s.engSnap e).engine f = s.engine f := by
  obtain ⟨c, h⟩ := s.engSnap_eq e
  rw [h]
  exact s.engine_setEngine_other e f _ hf

/-- A snapshot changes no semaphore, no memory, no object and no time. -/
theorem State.engSnap_keeps : (∀ m, (s.engSnap e).sem m = s.sem m) ∧ (s.engSnap e).mem = s.mem ∧
    (s.engSnap e).dict = s.dict ∧ (s.engSnap e).timeNs = s.timeNs := by
  obtain ⟨c, h⟩ := s.engSnap_eq e
  rw [h]
  exact ⟨fun _ => rfl, rfl, rfl, rfl⟩

end

/-- Settles O41: a snapshot and a clear each write one field of one engine's record, and STALL_SELECT writes its own copy. -/
theorem engineCountersAreSnapshot : Obligations.EngineCountersAreSnapshot := by
  intro s e he
  refine ⟨.of_occ rfl (decide_eq_true he) ?snap, .of_occ rfl (decide_eq_true he) ?clear, rfl, fun f => rfl⟩
  case snap =>
    rw [State.engine_engSnap_same]
    exact ⟨rfl, rfl, fun f hf => s.engine_engSnap_other e hf, s.engSnap_keeps e⟩
  case clear =>
    rw [State.engine_setEngine_same]
    exact ⟨rfl, rfl, fun f hf => s.engine_setEngine_other e f _ hf, fun m => s.sem_setEngine e _ m, rfl, rfl⟩

end Sys2Proof.Machine
end

section
/-!
Descriptors, slots and posts of a running engine (R251, R252, R257, R258, R261 to R264).
-/
namespace Sys2Proof.Machine

open Sys2Proof

/-! Descriptors. -/

theorem State.engine_running_of_engLive {s : State} {e : Nat} (h : s.engLive e = true) : (s.engine e).st = .running := by
  simp only [State.engLive, Bool.and_eq_true, beq_iff_eq] at h
  exact h.2

section
variable {s : State} {e : Nat} (hlive : s.engLive e = true)
include hlive

section
variable (hidle : (s.engine e).descRunning = false)
include hidle

/-- A descriptor whose line is here begins (R251). -/
theorem State.execDescriptorStart_of_here (hst : (s.engine e).descSt = 2) :
    exec (.descriptorStart e) s = .next (s.beginDesc e (s.engine e).desc) :=
  (if_neg (by simp [hlive, hidle])).trans (if_pos hst)

theorem State.execDescriptorStart_of_unaligned (hst : (s.engine e).descSt = 0) (haddr : (s.engine e).descAddr % 128 ≠ 0) :
    exec (.descriptorStart e) s = .next (s.stopChain e Sc.alignment) :=
  (if_neg (by simp [hlive, hidle])).trans ((if_neg (by simp [hst])).trans ((if_neg (by simp [hst])).trans (if_pos haddr)))

/-- A descriptor's line that lies at a home is asked for there (R251). -/
theorem State.execDescriptorStart_of_node {t : Xlat × State} {nd : Nat} {u : State} (hst : (s.engine e).descSt = 0)
    (haddr : (s.engine e).descAddr % 128 = 0) (hx : s.xlate (s.engine e).ctx (s.engine e).descAddr true false = t)
    (hok : t.1.status = 0) (hmmio : t.2.isMmio t.1.ga = false) (hdest : t.2.destOf t.1.ga = .node nd)
    (hsend : t.2.send (readPacket (.engine e) 2 nd t.1.ga 128) (.engRead e 0 []) = some u) :
    exec (.descriptorStart e) s = .next (u.setEngine e { u.engine e with descSt := 1 }) := by
  refine (if_neg (by simp [hlive, hidle])).trans ((if_neg (by simp [hst])).trans ((if_neg (by simp [hst])).trans
    ((if_neg (not_not.2 haddr)).trans ?_)))
  rw [hx]
  refine (if_neg (not_not.2 hok)).trans ((if_neg (Bool.eq_false_iff.1 hmmio)).trans ?_)
  -- the kernel is to check the two matches without unfolding what they match on
  generalize State.send = send at hsend ⊢
  revert send
  refine id ?_
  intro send hsend
  simp only [hdest, hsend]

end

/-- The line that comes for a waiting descriptor is kept as the descriptor (R251). -/
theorem State.engAnswered_of_waiting (hst : (s.engine e).descSt = 1) (slot : Nat) (bs : List Byte) (ga : Nat) :
    s.engAnswered e slot [] 0 bs 0 ga = s.setEngine e { s.engine e with descSt := 2, desc := padTo 128 bs } := by
  have hrun := State.engine_running_of_engLive hlive
  have hexpected : ¬ ((s.engine e).st != .running || decide ((s.engine e).descSt ≠ 1)) = true := by simp [hrun, hst]
  rw [State.engAnswered]
  exact if_neg hexpected

/-- A descriptor is done once its bytes are moved, nothing of it is out and its slots are posted (R258). -/
theorem State.execDescriptorComplete_of_done (hrun : (s.engine e).descRunning = true)
    (hmoved : dTotal (s.engine e).desc ≤ (s.engine e).moved) (hout : s.engOut e = false)
    (hfilled : dOut (s.engine e).desc = true → (s.engine e).slotsFilled = dTotal (s.engine e).desc / dSlotBytes (s.engine e).desc)
    (hfreed : dIn (s.engine e).desc = true → (s.engine e).slotsFreed = dTotal (s.engine e).desc / dSlotBytes (s.engine e).desc) :
    exec (.descriptorComplete e) s = .next (s.nextDesc e (s.engine e).desc) := by
  have himp {b c : Bool} (h : b = true → c = true) : (!b || c) = true := by
    cases b with
    | false => rfl
    | true => exact h rfl
  refine if_pos ?_
  rw [hlive, hrun, hout, decide_eq_true hmoved, himp fun h => beq_iff_eq.2 (hfilled h), himp fun h => beq_iff_eq.2 (hfreed h)]
  rfl

/-! Posts. -/

/-- The next slot of OUT_PAIR whose writes are done is posted to FILL (R261). -/
theorem State.execStreamFillPost_of_done (hrun : (s.engine e).descRunning = true) (hout : dOut (s.engine e).desc = true)
    (hmoved : ((s.engine e).slotsFilled + 1) * dSlotBytes (s.engine e).desc ≤ (s.engine e).moved)
    (hdone : s.engSlotOut e ((s.engine e).slotsFilled + 1) true = false) :
    exec (.streamFillPost e) s = .next (s.engPost e (semOf (dOutPair (s.engine e).desc) 0) (dOutDev (s.engine e).desc)
      fun y => { y with slotsFilled := (s.engine e).slotsFilled + 1 }) :=
  if_pos (by rw [hlive, hrun, hout, decide_eq_true hmoved, hdone]; rfl)

/-- The next slot of IN_PAIR whose reads have returned is posted to FREE (R262). -/
theorem State.execStreamFreePost_of_done (hrun : (s.engine e).descRunning = true) (hin : dIn (s.engine e).desc = true)
    (hmoved : ((s.engine e).slotsFreed + 1) * dSlotBytes (s.engine e).desc ≤ (s.engine e).moved)
    (hdone : s.engSlotOut e ((s.engine e).slotsFreed + 1) false = false) :
    exec (.streamFreePost e) s = .next (s.engPost e (semOf (dInPair (s.engine e).desc) 1) (dInDev (s.engine e).desc)
      fun y => { y with slotsFreed := (s.engine e).slotsFreed + 1 }) :=
  if_pos (by rw [hlive, hrun, hin, decide_eq_true hmoved, hdone]; rfl)

end

/-- An engine's wait at its limit is answered TIMEOUT (R264). -/
theorem State.execStreamWaitTimeout_of_passed {s : State} {e lim : Nat} {q : SemWaiting} (hwait : s.waitOf (.engine e) = some q)
    (hlim : tmoNs q.tmo = some lim) (hpast : q.sinceNs + lim ≤ s.timeNs) (hsafe : s.safety.safe = false) :
    exec (.streamWaitTimeout e) s = .next (s.answerWait q Sc.timeout) := by
  have hpassed : s.passed q.sinceNs lim = true := decide_eq_true hpast
  show execStreamWaitTimeout e s = _
  simp only [execStreamWaitTimeout, hwait, occ, hsafe, hlim, Option.any_some, hpassed, Bool.not_false, Bool.and_self, if_true]

/-! Slots. -/

/-- An engine moves the bytes of the slots it has taken that are not moved yet. -/
def State.moveTaken (s : State) (e : Nat) (d : List Byte) : State :=
  let stop := min (dTotal d) ((s.engine e).slotsTaken * dSlotBytes d)
  s.moveBeats e d (stop - (s.engine e).moved) stop

/-- An engine that holds its semaphores goes on to its `n`-th slot. -/
def State.moveSlot (s : State) (e : Nat) (d : List Byte) (n : Nat) : State :=
  (s.setEngine e { s.engine e with slotsTaken := n, tookIn := false, tookOut := false, gateEpoch := none }).moveTaken e d

section
variable {s : State} {e : Nat} (hlive : s.engLive e = true) (hrun : (s.engine e).descRunning = true)
include hlive hrun

/-- Writes that waited for tags go on before any slot (R268). -/
theorem State.execStreamSlotAcquire_of_writes (hwq : (s.engine e).wq ≠ []) :
    exec (.streamSlotAcquire e) s = .next (State.pumpEng e (s.engine e).wq.length s) := by
  have hsome : (!(s.engine e).wq.isEmpty) = true := by simpa using hwq
  show execStreamSlotAcquire e s = _
  simp only [execStreamSlotAcquire, hlive, hrun, hsome, Bool.not_true, Bool.or_self, Bool.false_eq_true, if_false, if_true]

variable (hwq : (s.engine e).wq = []) (hmore : (s.engine e).moved < dTotal (s.engine e).desc)
include hwq

/-- Before its epoch gate an engine waits (R257). -/
theorem State.execStreamSlotAcquire_of_gateShut (hgate : s.gateOpen e = false) : exec (.streamSlotAcquire e) s = .next s := by
  show execStreamSlotAcquire e s = _
  simp only [execStreamSlotAcquire, hlive, hrun, hwq, hgate, List.isEmpty_nil, Bool.not_true, Bool.not_false, Bool.or_true, Bool.or_self,
    Bool.false_eq_true, if_false, if_true]

variable (hgate : s.gateOpen e = true)
include hmore hgate

/-- A slot that is taken and not moved goes on (R268). -/
theorem State.execStreamSlotAcquire_of_taken
    (htaken : (s.engine e).moved < (s.engine e).slotsTaken * dSlotBytes (s.engine e).desc) :
    exec (.streamSlotAcquire e) s = .next (s.moveTaken e (s.engine e).desc) := by
  show execStreamSlotAcquire e s = _
  simp only [execStreamSlotAcquire, hlive, hrun, hwq, hgate, hmore.not_ge, htaken, List.isEmpty_nil, Bool.not_true, Bool.or_self,
    decide_false, Bool.false_eq_true, if_false, if_true]
  rfl

/-- A wait that the table holds is granted once its take succeeds (R292). -/
theorem State.execStreamSlotAcquire_of_waiting {q : SemWaiting}
    (hdue : (s.engine e).slotsTaken * dSlotBytes (s.engine e).desc ≤ (s.engine e).moved) (hwait : s.waitOf (.engine e) = some q) :
    exec (.streamSlotAcquire e) s = .next
      (if s.canTake q.sem 1 (.engine e) then (s.take q.sem 1 (.engine e)).answerWait q Sc.ok else s) := by
  show execStreamSlotAcquire e s = _
  simp only [execStreamSlotAcquire, hlive, hrun, hwq, hgate, hmore.not_ge, hdue.not_gt, hwait, List.isEmpty_nil, Bool.not_true,
    Bool.or_self, decide_false, Bool.false_eq_true, if_false]
  exact (apply_ite Host.Outcome.next _ _ _).symm

end

/-- The engine's next slot is due: its descriptor runs past its gate, the slots it took are moved, and it waits for no semaphore. -/
structure SlotDue (s : State) (e : Nat) : Prop where
  live : s.engLive e = true
  running : (s.engine e).descRunning = true
  noWrites : (s.engine e).wq = []
  more : (s.engine e).moved < dTotal (s.engine e).desc
  gate : s.gateOpen e = true
  moved : (s.engine e).slotsTaken * dSlotBytes (s.engine e).desc ≤ (s.engine e).moved
  noWait : s.waitOf (.engine e) = none
  noAsk : s.engWaitsOn e = none

section
variable {s : State} {e : Nat} (h : SlotDue s e)
include h

/-- An engine that nothing keeps waiting takes FILL of IN_PAIR, then FREE of OUT_PAIR, and moves its next slot (R261 to R263). -/
theorem SlotDue.acquire_eq :
    exec (.streamSlotAcquire e) s =
      let x := s.engine e
      let d := x.desc
      let w := Waiter.engine e
      let mi := semOf (dInPair d) 0
      let mo := semOf (dOutPair d) 1
      let t := if dIn d && !x.tookIn then (s.takeNow (.engine e) mi 1 w).setEngine e { x with tookIn := true } else s
      let u := if dOut d && !x.tookOut then t.takeNow (.engine e) mo 1 w else t
      if dIn d && !x.tookIn && !s.canTake mi 1 w then .next (s.engWait e mi (dTmo d))
      else if dOut d && !x.tookOut && !t.canTake mo 1 w then .next (t.engWait e mo (dTmo d))
      else .next (u.moveSlot e d (x.slotsTaken + 1)) := by
  obtain ⟨hlive, hrun, hwq, hmore, hgate, hdue, hwait, hasks⟩ := h
  show execStreamSlotAcquire e s = _
  simp only [execStreamSlotAcquire, hlive, hrun, hwq, hgate, hmore.not_ge, hdue.not_gt, hwait, hasks, List.isEmpty_nil, Bool.not_true,
    Bool.or_self, decide_false, Option.isSome_none, Bool.false_eq_true, if_false]
  rfl

/-- IN_PAIR's FILL, where it cannot be taken, is waited for (R261). -/
theorem SlotDue.acquire_of_inEmpty (hin : dIn (s.engine e).desc = true) (htook : (s.engine e).tookIn = false)
    (htake : s.canTake (semOf (dInPair (s.engine e).desc) 0) 1 (.engine e) = false) :
    exec (.streamSlotAcquire e) s = .next (s.engWait e (semOf (dInPair (s.engine e).desc) 0) (dTmo (s.engine e).desc)) :=
  h.acquire_eq.trans (if_pos (by simp [hin, htook, htake]))

/-- A descriptor without pairs moves its bytes, as one slot, without a take. -/
theorem SlotDue.acquire_of_unpaired (hin : dIn (s.engine e).desc = false) (hout : dOut (s.engine e).desc = false) :
    exec (.streamSlotAcquire e) s = .next (s.moveSlot e (s.engine e).desc ((s.engine e).slotsTaken + 1)) := by
  rw [h.acquire_eq]
  simp [hin, hout]

/-- Without IN_PAIR, OUT_PAIR's FREE is taken for the slot, or waited for (R262). -/
theorem SlotDue.acquire_of_outOnly (hin : dIn (s.engine e).desc = false) (hout : dOut (s.engine e).desc = true)
    (htook : (s.engine e).tookOut = false) :
    exec (.streamSlotAcquire e) s = .next
      (if s.canTake (semOf (dOutPair (s.engine e).desc) 1) 1 (.engine e) then
        (s.takeNow (.engine e) (semOf (dOutPair (s.engine e).desc) 1) 1 (.engine e)).moveSlot e (s.engine e).desc
          ((s.engine e).slotsTaken + 1)
      else s.engWait e (semOf (dOutPair (s.engine e).desc) 1) (dTmo (s.engine e).desc)) := by
  rw [h.acquire_eq]
  cases htake : s.canTake (semOf (dOutPair (s.engine e).desc) 1) 1 (.engine e) with
  | false => simp [hin, hout, htook, htake]
  | true => simp [hin, hout, htook, htake]

/-- Without OUT_PAIR, a FILL of IN_PAIR that can be taken is taken for the slot (R261). -/
theorem SlotDue.acquire_of_inOnly (hin : dIn (s.engine e).desc = true) (hout : dOut (s.engine e).desc = false)
    (htook : (s.engine e).tookIn = false) (htake : s.canTake (semOf (dInPair (s.engine e).desc) 0) 1 (.engine e) = true) :
    exec (.streamSlotAcquire e) s = .next
      (((s.takeNow (.engine e) (semOf (dInPair (s.engine e).desc) 0) 1 (.engine e)).setEngine e
        { s.engine e with tookIn := true }).moveSlot e (s.engine e).desc ((s.engine e).slotsTaken + 1)) := by
  rw [h.acquire_eq]
  simp [hin, hout, htook, htake]

end

/-- Settles O40: each command of a live engine's descriptor has its row, which the descriptor's state and flags select. -/
theorem streamsMoveTheirSlots : Obligations.StreamsMoveTheirSlots := by
  intro s e hlive
  refine ⟨State.execDescriptorStart_of_here hlive, State.execDescriptorStart_of_unaligned hlive,
    fun hidle hst haddr hok hmmio nd u => State.execDescriptorStart_of_node hlive hidle hst haddr rfl hok hmmio,
    fun _ => State.engAnswered_of_waiting hlive, State.execStreamSlotAcquire_of_writes hlive, fun hrun hwq hmore => ?slot,
    State.execStreamFillPost_of_done hlive, State.execStreamFreePost_of_done hlive,
    fun q lim hwait hlim hpast hsafe => ⟨State.execStreamWaitTimeout_of_passed hwait hlim hpast hsafe, fun _ => rfl⟩,
    State.execDescriptorComplete_of_done hlive⟩
  case slot =>
    exact ⟨State.execStreamSlotAcquire_of_gateShut hlive hrun hwq, State.execStreamSlotAcquire_of_taken hlive hrun hwq hmore,
      fun q hgate hdue => State.execStreamSlotAcquire_of_waiting hlive hrun hwq hmore hgate hdue, fun hgate hdue hwait hasks =>
        have h : SlotDue s e := ⟨hlive, hrun, hwq, hmore, hgate, hdue, hwait, hasks⟩
        ⟨h.acquire_of_inEmpty, h.acquire_of_unpaired, h.acquire_of_outOnly, h.acquire_of_inOnly⟩⟩

end Sys2Proof.Machine
end

section
/-!
The mesh: one link of a packet without a route of its own, the packet that a clean flit brings across it, and what the arbiter of its
output serves (R295, R297).
-/
namespace Sys2Proof.Machine

open Sys2Proof

/-! One link of XY routing. -/

section
variable {a d : Nat}

theorem linkFrom_xyDir_east (h : a % 16 < d % 16) : linkFrom a (xyDir a d) = some (a + 1) := by
  rw [xyDir, if_pos h]
  exact if_pos (by omega)

theorem linkFrom_xyDir_west (h : d % 16 < a % 16) : linkFrom a (xyDir a d) = some (a - 1) := by
  rw [xyDir, if_neg (by omega), if_pos h]
  exact if_pos (by omega)

theorem linkFrom_xyDir_north (hcol : a % 16 = d % 16) (h : d < a) : linkFrom a (xyDir a d) = some (a - 16) := by
  rw [xyDir, if_neg (by omega), if_neg (by omega), if_pos h]
  exact if_pos (by omega)

theorem linkFrom_xyDir_south (hd : d < 192) (hcol : a % 16 = d % 16) (h : a < d) : linkFrom a (xyDir a d) = some (a + 16) := by
  rw [xyDir, if_neg (by omega), if_neg (by omega), if_neg (by omega)]
  exact if_pos (by omega)

/-- Toward another node the link stays in the mesh: along the row until the columns agree, and then along the column (R297). -/
theorem linkFrom_xyDir (ha : a < 192) (hd : d < 192) (hne : a ≠ d) : ∃ n, linkFrom a (xyDir a d) = some n ∧ n < 192 ∧
    (a % 16 < d % 16 → n = a + 1) ∧ (d % 16 < a % 16 → n + 1 = a) ∧
    (a % 16 = d % 16 → n % 16 = d % 16 ∧ (a < d → n = a + 16) ∧ (d < a → n + 16 = a)) := by
  obtain hx | hcol | hx := Nat.lt_trichotomy (a % 16) (d % 16)
  · exact ⟨_, linkFrom_xyDir_east hx, by omega⟩
  · obtain hy | hy := Nat.lt_or_gt_of_ne hne
    · exact ⟨_, linkFrom_xyDir_south hd hcol hy, by omega⟩
    · exact ⟨_, linkFrom_xyDir_north hcol hy, by omega⟩
  · exact ⟨_, linkFrom_xyDir_west hx, by omega⟩

end

/-! The packets of the network. -/

section
variable {s : State} {p : Nat} {k o : Packet}

theorem State.id_of_packet (h : s.packet p = some k) : k.id = p := by
  simpa using List.find?_some h

/-- A packet that is moved on is found as it is then. -/
theorem State.packet_movePacket_same (s : State) (k : Packet) : (s.movePacket k).packet k.id = some k := by
  have hgone : (s.net.packets.filter fun o => o.id ≠ k.id).find? (·.id == k.id) = none := by simp
  rw [State.packet, State.movePacket, List.find?_append, hgone]
  simp

/-- A clean flit of a packet without a route crosses the link of XY routing once its output grants it (R295, R297). No port takes it up
there, since it is for this device or a response. -/
theorem State.execFlitArrival_of_unrouted {n : Nat} (hp : s.packet p = some k) (hsegs : k.segs = none) (hne : k.at_ ≠ k.dst)
    (hsafe : s.safety.safe = false) (hlink : linkFrom k.at_ (xyDir k.at_ k.dst) = some n)
    (hhere : k.dev = s.devId ∨ k.kind.response = true) :
    exec (.flitArrival p .clean) s = .next (if s.granted k then
      (s.served k).movePacket { k with at_ := n, via := inputOf (xyDir k.at_ k.dst), segs := none } else s) := by
  have hon : (k.ended || s.safety.safe) = false := by simp [Packet.ended, hsegs, hne, hsafe]
  have hhop : k.hop = (xyDir k.at_ k.dst, none) := by rw [Packet.hop, hsegs]
  have hstays (t : State) (ended : Bool) (hid : t.devId = s.devId) :
      (ended && k.dev != t.devId && !k.kind.response) = false := by
    obtain h | h := hhere <;> simp [h, hid]
  show execFlitArrival p .clean s = _
  simp only [execFlitArrival, hp, hon, hhop, hlink, Bool.false_eq_true, if_false]
  cases hgrant : s.granted k with
  | false => rfl
  | true => exact congrArg Host.Outcome.next (if_neg (Bool.eq_false_iff.1 (hstays ((s.served k).movePacket _) _ rfl)))

/-! What an output serves (R295). -/

/-- Another class is served only while no packet of TC0 stands ready for the output. -/
theorem State.tc_ne_zero_of_granted (h : s.granted k = true) (ho : o ∈ s.rivals k) (hk : k.tc ≠ 0) : o.tc ≠ 0 := by
  simp only [State.granted, Bool.and_eq_true] at h
  obtain ⟨⟨⟨-, hurgent⟩, -⟩, -⟩ := h
  simp only [Bool.or_eq_true, beq_iff_eq, hk, false_or, Bool.not_eq_true', List.any_eq_false] at hurgent
  exact hurgent o ho

/-- Of the ready packets of one class, the one served enters by the first input in turn after the last served. -/
theorem State.turn_le_of_granted (h : s.granted k = true) (ho : o ∈ s.rivals k) (htc : o.tc = k.tc) :
    (k.via + 4 - (SMap.get {} s.net.arbs k.arbiter : Arbiter).last.getD k.tc 4) % 5 ≤
      (o.via + 4 - (SMap.get {} s.net.arbs k.arbiter : Arbiter).last.getD k.tc 4) % 5 := by
  simp only [State.granted, Bool.and_eq_true] at h
  obtain ⟨-, hturn⟩ := h
  simpa [htc] using List.all_eq_true.1 hturn o ho

end

/-- Settles O43: another node is one link away along the row or column, the flit of a granted packet crosses that link, and an output's
grant is the first in its class's turn. -/
theorem packetsCrossTheMeshXY : Obligations.PacketsCrossTheMeshXY := by
  refine ⟨fun a d => linkFrom_xyDir, fun s p k hp hsegs ha hd hne hsafe hhere => ?cross, fun s k o h ho => ?serve,
    fun s k kind st bs m g => ⟨_, rfl, rfl, rfl, rfl, rfl, rfl, rfl⟩⟩
  case cross =>
    obtain ⟨n, hlink, -⟩ := linkFrom_xyDir ha hd hne
    have hexec := State.execFlitArrival_of_unrouted hp hsegs hne hsafe hlink hhere
    refine ⟨fun hwait => ?_, fun hgrant => ⟨_, hexec.trans (congrArg _ (if_pos hgrant)), ?_, rfl, rfl⟩⟩
    · rw [hexec, hwait]
      rfl
    · rw [hlink, ← State.id_of_packet hp, Option.map_some, ← hsegs]
      exact State.packet_movePacket_same (s.served k) { k with at_ := n, via := inputOf (xyDir k.at_ k.dst) }
  case serve => exact ⟨State.tc_ne_zero_of_granted h ho, State.turn_le_of_granted h ho⟩

end Sys2Proof.Machine
end

section
/-!
Route tables: what a write of an entry keeps, and what its check admits (R300, R301).
-/
namespace Sys2Proof.Machine

open Sys2Proof

/-! The value of an entry. -/

/-- The fields of ROUTE_CTRL that an entry keeps of a value (R300). -/
def keptCtrl (v : Nat) : Nat := b2n (bit v 63) * 2 ^ 63 + bits v 16 4 * 2 ^ 16 + bits v 8 5 * 2 ^ 8 + bits v 0 8

theorem bit_keptCtrl_of_clear {v : Nat} (h : bit v 63 = false) : bit (keptCtrl v) 63 = false := by
  have hlow : keptCtrl v < 2 ^ 63 := by
    simp only [keptCtrl, h, b2n, bits, Bool.false_eq_true, if_false]
    omega
  rw [bit, Nat.div_eq_of_lt hlow]
  rfl

/-- An entry keeps a whole value whose reserved bits are 0. -/
theorem keptCtrl_of_valid {v : Nat} (hset : bit v 63 = true) (hv : v < 2 ^ 64) (hhigh : bits v 20 43 = 0) (hmid : bits v 13 3 = 0) :
    keptCtrl v = v := by
  rw [keptCtrl, hset]
  rw [bit, beq_iff_eq] at hset
  simp only [bits, b2n, if_true] at hhigh hmid ⊢
  omega

theorem firstFail_cons_eq_zero {b : Bool} {st : Nat} {r : List (Bool × Nat)} (hst : st ≠ 0) :
    firstFail ((b, st) :: r) = 0 ↔ b = false ∧ firstFail r = 0 := by
  cases b <;> simp [firstFail, hst]

/-- A valid value that the check admits has its reserved bits 0, and its moves lead to its destination. -/
theorem walk_of_routeCheck {n v moves : Nat} (hset : bit v 63 = true) (h : routeCheck n v moves = 0) :
    bits v 20 43 = 0 ∧ bits v 13 3 = 0 ∧ walk (movesOf (bits v 8 5) moves) n = some (bits v 0 8) := by
  rw [routeCheck, if_neg (by simp [hset]), firstFail_cons_eq_zero (by decide), firstFail_cons_eq_zero (by decide)] at h
  obtain ⟨hform, hway, -⟩ := h
  simp only [Bool.or_eq_false_iff, decide_eq_false_iff_not, not_not] at hform
  obtain ⟨⟨⟨⟨⟨hhigh, hmid⟩, -⟩, -⟩, -⟩, -⟩ := hform
  simp only [Bool.or_eq_false_iff, bne_eq_false_iff_eq] at hway
  obtain ⟨hwalk, -⟩ := hway
  exact ⟨hhigh, hmid, hwalk⟩

/-! The four ways of a write. -/

section
variable {s : State} {n e v : Nat}

theorem State.routeMovesWrite_of_inUse (hv : v < 2 ^ 48) (h : bit (SMap.get 0 (s.ni n).ctrl e) 63 = true) :
    s.routeMovesWrite n e v = (Sc.accessDenied, s.niReject n (0x100 + e * 16) Sc.accessDenied) := by
  have hhigh : bits v 48 16 = 0 := by rw [bits, Nat.div_eq_of_lt hv, Nat.zero_mod]
  simp [State.routeMovesWrite, firstFail, hhigh, h]

theorem State.routeMovesWrite_of_free (hv : v < 2 ^ 48) (h : bit (SMap.get 0 (s.ni n).ctrl e) 63 = false) :
    s.routeMovesWrite n e v = (Sc.ok, s.setNi n { s.ni n with moves := SMap.set 0 (s.ni n).moves e v }) := by
  have hhigh : bits v 48 16 = 0 := by rw [bits, Nat.div_eq_of_lt hv, Nat.zero_mod]
  have hlow : bits v 0 48 = v := by rw [bits, Nat.pow_zero, Nat.div_one, Nat.mod_eq_of_lt hv]
  simp [State.routeMovesWrite, firstFail, hhigh, hlow, h]

theorem State.routeCtrlWrite_of_bad (h : routeCheck n v (SMap.get 0 (s.ni n).moves e) ≠ 0) :
    s.routeCtrlWrite n e v = (routeCheck n v (SMap.get 0 (s.ni n).moves e),
      ((s.setNi n { s.ni n with routeRejects := satBump 32 (s.ni n).routeRejects 1 }).bump Obj.ROUTE_REJECTS_TOTAL).niReject n
        (0x108 + e * 16) (routeCheck n v (SMap.get 0 (s.ni n).moves e))) := if_pos h

theorem State.routeCtrlWrite_of_sound (h : routeCheck n v (SMap.get 0 (s.ni n).moves e) = 0) :
    s.routeCtrlWrite n e v = (Sc.ok, s.setNi n { s.ni n with ctrl := SMap.set 0 (s.ni n).ctrl e (keptCtrl v) }) := if_neg (not_not.2 h)

@[simp] theorem State.ni_bump (s : State) (key k m : Nat) : (s.bump key k).ni m = s.ni m := rfl

/-- A rejection writes the NI's status register alone (R144). -/
@[simp] theorem State.ni_niReject_same (s : State) (n off st : Nat) :
    (s.niReject n off st).ni n = { s.ni n with regStatus := st + off * 2 ^ 8 } := s.ni_setNi_same n _

/-- A write of ROUTE_MOVES of an entry that an NI in service has takes its way. -/
theorem Completes.routeMovesWrite {P : State → Prop} {r : Nat × State} (hup : s.niUp n = true) (he : e < 64)
    (hr : s.routeMovesWrite n e v = r) (h : P r.2) : Completes (.routeMovesWrite n e v) s P := by
  subst hr
  exact .of_occ rfl (by simp [hup, he]) h

/-- And so does a write of its ROUTE_CTRL. -/
theorem Completes.routeCtrlWrite {P : State → Prop} {r : Nat × State} (hup : s.niUp n = true) (he : e < 64)
    (hr : s.routeCtrlWrite n e v = r) (h : P r.2) : Completes (.routeCtrlWrite n e v) s P := by
  subst hr
  exact .of_occ rfl (by simp [hup, he]) h

end

/-- Settles O44: an entry in use or a value that fails the check leaves the tables, and another write sets one register of its entry. -/
theorem routeTablesAreGuarded : Obligations.RouteTablesAreGuarded := by
  intro s n e v hup he ctrl moves
  refine ⟨fun huse hv => ?inUse, fun hfree hv => ?free, fun hclear => ?clear, fun hset hbad => ?bad, fun hset hv hsound => ?sound⟩
  case inUse =>
    have hw := State.routeMovesWrite_of_inUse hv huse
    refine .routeMovesWrite hup he hw ⟨congrArg Prod.fst hw, ?_, ?_, rfl⟩ <;> rw [State.ni_niReject_same]
  case free =>
    refine .routeMovesWrite hup he (State.routeMovesWrite_of_free hv hfree)
      ⟨?_, fun f hf => ?_, fun m => State.ni_setNi_other _ _ _ _, rfl⟩
    · rw [State.ni_setNi_same, SMap.get_set_same]
    · rw [State.ni_setNi_same, SMap.get_set_other _ _ _ hf]
  case clear =>
    have hw : s.routeCtrlWrite n e v = _ := State.routeCtrlWrite_of_sound (if_pos (by simp [hclear]))
    refine .routeCtrlWrite hup he hw ⟨congrArg Prod.fst hw, ?_, ?_, fun m => State.ni_setNi_other _ _ _ _, rfl⟩
    · rw [State.ni_setNi_same, SMap.get_set_same]
      exact bit_keptCtrl_of_clear hclear
    · rw [State.ni_setNi_same]
  case bad =>
    have hw := State.routeCtrlWrite_of_bad hbad
    refine .routeCtrlWrite hup he hw ⟨congrArg Prod.fst hw, ?_, ?_, rfl⟩ <;>
      rw [State.ni_niReject_same, State.ni_bump, State.ni_setNi_same]
  case sound =>
    obtain ⟨hhigh, hmid, hwalk⟩ := walk_of_routeCheck hset hsound
    refine .routeCtrlWrite hup he (State.routeCtrlWrite_of_sound hsound) ⟨?_, hwalk, fun m => State.ni_setNi_other _ _ _ _, rfl⟩
    rw [State.ni_setNi_same, SMap.get_set_same]
    exact keptCtrl_of_valid hset hv hhigh hmid

end Sys2Proof.Machine
end

section
/-!
A stop that waits for the end of a power-down (R129, Table 7.12).
-/
namespace Sys2Proof.Machine

open Sys2Proof

/-- The collective unit's domain powers down to OFF, 2 µs after its drain. -/
def poweringDown : State :=
  { ucbs := [(200, { st := .ready, target := some .off })]
    dict := [(Obj.BRINGUP_STAGE, 5)]
    sup := { coldReset := false, band := .full }
    net := { domains := [(200, { phase := .down, target := .off })] }
    timeNs := 2000 }

/-- Past the point of no return the unit is stopped again, to MEWS. -/
def stoppedAgain : State := poweringDown.moveUnit 200 .mews

/-- The phase of unit 200's domain after a command. -/
def phaseOf200 : Res → Option Phase
  | .next t => some (t.dom 200).phase
  | _ => none

/-- The second stop waits, and nothing else does. -/
theorem dom_stoppedAgain : stoppedAgain.dom 200 = { phase := .down, target := .off, next := some .mews } := by decide +kernel

/-- At the end of its power-down the domain powers up, toward MEWS. -/
theorem phase_powerDownComplete : phaseOf200 (exec (.powerDownComplete 200) stoppedAgain) = some .up := by decide +kernel

/-- Refutes O49: where a stop to MEWS came past the point of no return of a power-down to OFF, the end of the power-down applies it, and
the domain is not open but on its way up. -/
theorem not_domainsPowerDownAndUp : ¬ Obligations.DomainsPowerDownAndUp := by
  unfold Obligations.DomainsPowerDownAndUp
  intro h
  obtain ⟨-, -, -, -, hdown, -⟩ := h stoppedAgain 200 (by decide) (by decide +kernel)
  rw [dom_stoppedAgain] at hdown
  obtain ⟨t, ht, -, hopen, -⟩ := hdown rfl rfl rfl (by decide)
  have hphase := phase_powerDownComplete
  rw [ht, phaseOf200, hopen] at hphase
  exact absurd hphase (by decide)

end Sys2Proof.Machine
end

section
/-!
Errors of a stored line: the form they have when combined, and what the codes of memory make of them (R342, R343).
-/
namespace Sys2Proof

/-! Maps in canonical form. -/

theorem SMap.ins_of_last {α : Type} {m : SMap α} {i : Nat} (v : α) (h : ∀ e ∈ m, e.1 < i) : SMap.ins m i v = m ++ [(i, v)] := by
  induction m with
  | nil => rfl
  | cons e m ih =>
    obtain ⟨hk, hm⟩ := List.forall_mem_cons.1 h
    simp only [SMap.ins, Nat.not_lt.2 (Nat.le_of_lt hk), if_false, ih hm, List.cons_append]

theorem SMap.erase_of_fresh {α : Type} {m : SMap α} {i : Nat} (h : SMap.fresh m i) : SMap.erase m i = m := by
  rw [SMap.erase_eq_filter]
  exact List.filter_eq_self.2 fun e he => decide_eq_true (h e he)

theorem SMap.mem_set {α : Type} [DecidableEq α] {d v : α} {m : SMap α} {i : Nat} {e : Nat × α} (h : e ∈ SMap.set d m i v) :
    e = (i, v) ∨ e ∈ m := by
  rw [SMap.set, SMap.erase_eq_filter] at h
  split at h
  · exact .inr (List.mem_filter.1 h).1
  · exact (SMap.mem_ins.1 h).imp_right fun he => (List.mem_filter.1 he).1

theorem SMap.length_ins {α : Type} (m : SMap α) (i : Nat) (v : α) : (SMap.ins m i v).length = m.length + 1 := by
  induction m with
  | nil => rfl
  | cons e m ih =>
    simp only [SMap.ins]
    split <;> simp [ih]

theorem SMap.length_set_le {α : Type} [DecidableEq α] (d : α) (m : SMap α) (i : Nat) (v : α) :
    (SMap.set d m i v).length ≤ m.length + 1 := by
  have he : (SMap.erase m i).length ≤ m.length := by
    rw [SMap.erase_eq_filter]
    exact List.length_filter_le _ _
  rw [SMap.set]
  split
  · omega
  · rw [SMap.length_ins]
    omega

/-! Combined errors. -/

/-- One error added to those of a line. -/
def addErr (m : SMap Nat) (e : Nat × Nat) : SMap Nat := SMap.set 0 m e.1 (Nat.xor (SMap.get 0 m e.1) e.2)

theorem mergeErrs_eq (es : List (Nat × Nat)) : mergeErrs es = es.foldl addErr [] := rfl

theorem mergeErrs_append (es fs : List (Nat × Nat)) : mergeErrs (es ++ fs) = fs.foldl addErr (mergeErrs es) := by
  rw [mergeErrs_eq, mergeErrs_eq, List.foldl_append]

theorem wf_mergeErrs (es : List (Nat × Nat)) : SMap.wf 0 (mergeErrs es) = true := by
  induction es using List.reverseRecOn with
  | nil => rfl
  | append_singleton es e ih =>
    rw [mergeErrs_append]
    exact SMap.wf_set _ _ ih

theorem length_mergeErrs_le (es : List (Nat × Nat)) : (mergeErrs es).length ≤ es.length := by
  induction es using List.reverseRecOn with
  | nil => exact Nat.le_refl 0
  | append_singleton es e ih =>
    rw [mergeErrs_append, List.length_append]
    exact (SMap.length_set_le _ _ _ _).trans (Nat.succ_le_succ ih)

/-- Combining errors names no symbol that was not named. -/
theorem mergeErrs_keys (P : Nat → Prop) {es : List (Nat × Nat)} (h : ∀ e ∈ es, P e.1) : ∀ e ∈ mergeErrs es, P e.1 := by
  induction es using List.reverseRecOn with
  | nil => exact h
  | append_singleton es e ih =>
    simp only [List.mem_append, List.mem_singleton, or_imp, forall_and, forall_eq] at h
    obtain ⟨hes, he⟩ := h
    rw [mergeErrs_append]
    intro x hx
    rcases SMap.mem_set hx with rfl | hx
    · exact he
    · exact ih hes x hx

/-- Errors in canonical form at symbols above those of a map are added at its end. -/
theorem foldl_addErr_of_above {es : List (Nat × Nat)} (hes : SMap.wf 0 es = true) {m : SMap Nat} (h : ∀ a ∈ m, ∀ e ∈ es, a.1 < e.1) :
    es.foldl addErr m = m ++ es := by
  induction es generalizing m with
  | nil => exact (List.append_nil m).symm
  | cons e es ih =>
    obtain ⟨hrise, hne⟩ := (SMap.wf_iff _ _).1 hes
    obtain ⟨hfirst, hrest⟩ := List.pairwise_cons.1 hrise
    obtain ⟨hv, hvs⟩ := List.forall_mem_cons.1 hne
    have hlast : ∀ a ∈ m, a.1 < e.1 := fun a ha => h a ha e List.mem_cons_self
    have hfresh : SMap.fresh m e.1 := fun a ha => (hlast a ha).ne
    have hadd : addErr m e = m ++ [e] := by
      rw [addErr, SMap.get_of_fresh 0 hfresh, show Nat.xor 0 e.2 = e.2 from Nat.zero_xor e.2, SMap.set, if_neg hv,
        SMap.erase_of_fresh hfresh, SMap.ins_of_last _ hlast]
    rw [List.foldl_cons, hadd, ih ((SMap.wf_iff _ _).2 ⟨hrest, hvs⟩), List.append_assoc, List.singleton_append]
    intro a ha x hx
    rcases List.mem_append.1 ha with ha | ha
    · exact h a ha x (List.mem_cons_of_mem _ hx)
    · exact List.mem_singleton.1 ha ▸ hfirst x hx

/-- Errors in canonical form are what combining them gives. -/
theorem mergeErrs_of_wf {es : List (Nat × Nat)} (h : SMap.wf 0 es = true) : mergeErrs es = es :=
  foldl_addErr_of_above h fun _ ha => nomatch ha

theorem mergeErrs_single {i m : Nat} (hm : m ≠ 0) : mergeErrs [(i, m)] = [(i, m)] := mergeErrs_of_wf (by simp [SMap.wf, hm])

@[simp] theorem mergeErrs_mergeErrs (es : List (Nat × Nat)) : mergeErrs (mergeErrs es) = mergeErrs es := mergeErrs_of_wf (wf_mergeErrs es)

/-- Errors in canonical form added once more cancel. -/
theorem foldl_addErr_self {es : List (Nat × Nat)} (h : SMap.wf 0 es = true) : es.foldl addErr es = [] := by
  induction es with
  | nil => rfl
  | cons e es ih =>
    obtain ⟨hrise, hne⟩ := (SMap.wf_iff _ _).1 h
    obtain ⟨hfirst, hrest⟩ := List.pairwise_cons.1 hrise
    have hfresh : SMap.fresh es e.1 := fun a ha => (hfirst a ha).ne'
    have hadd : addErr (e :: es) e = es := by
      simp only [addErr, SMap.get, if_true]
      rw [show Nat.xor e.2 e.2 = 0 from Nat.xor_self e.2]
      simp only [SMap.set, if_true, SMap.erase, SMap.erase_of_fresh hfresh]
    rw [List.foldl_cons, hadd]
    exact ih ((SMap.wf_iff _ _).2 ⟨hrest, (List.forall_mem_cons.1 hne).2⟩)

theorem mergeErrs_self_append (es : List (Nat × Nat)) : mergeErrs (mergeErrs es ++ mergeErrs es) = [] := by
  rw [mergeErrs_append, mergeErrs_mergeErrs]
  exact foldl_addErr_self (wf_mergeErrs es)

/-! What the line code corrects. -/

/-- Up to 6 erroneous symbols, none of them of the address, are found as they are. -/
theorem lineDecode_of_few {es : List (Nat × Nat)} (hlen : es.length ≤ 6) (hkey : ∀ e ∈ es, e.1 < 144) :
    lineDecode es = some (mergeErrs es) := by
  have hall : ((mergeErrs es).all fun e => decide (e.1 < 144)) = true :=
    List.all_eq_true.2 fun e he => decide_eq_true (mergeErrs_keys (· < 144) hkey e he)
  simp only [lineDecode, (length_mergeErrs_le es).trans hlen, hall, if_true]

/-- 7 to 10 erroneous symbols are uncorrectable. -/
theorem lineDecode_of_many {es : List (Nat × Nat)} (hes : mergeErrs es = es) (hlow : 7 ≤ es.length) (hhigh : es.length ≤ 10) :
    lineDecode es = none := by
  simp only [lineDecode, hes, Nat.not_le.2 hlow, hhigh, if_false, if_true]

/-- And so is an error in a symbol of the address. -/
theorem lineDecode_of_address {i m : Nat} (hi : 144 ≤ i) (hm : m ≠ 0) : lineDecode [(i, m)] = none := by
  simp [lineDecode, mergeErrs_single hm, Nat.not_lt.2 hi]

/-! What the code of the on-die stores finds. -/

/-- The words of an on-die line with errors in canonical form. -/
theorem mem_wordErrors {es : List (Nat × Nat)} (hes : SMap.wf 0 es = true) {w n : Nat} :
    (w, n) ∈ wordErrors es ↔ w < 16 ∧ n ≠ 0 ∧ (es.filter fun e => e.1 / 72 == w).length = n := by
  simp only [wordErrors, mergeErrs_of_wf hes, List.mem_filterMap, List.mem_range]
  constructor
  · rintro ⟨x, hx, hsome⟩
    split at hsome
    · cases hsome
    · next hn =>
      obtain ⟨rfl, rfl⟩ := Prod.mk.inj (Option.some.inj hsome)
      exact ⟨hx, hn, rfl⟩
  · rintro ⟨hw, hn, rfl⟩
    exact ⟨w, hw, if_neg hn⟩

/-- No word has more erroneous bits than the line. -/
theorem wordErrors_le {es : List (Nat × Nat)} (hes : SMap.wf 0 es = true) {w : Nat × Nat} (hw : w ∈ wordErrors es) : w.2 ≤ es.length := by
  obtain ⟨-, -, hn⟩ := (mem_wordErrors hes).1 hw
  exact hn ▸ List.length_filter_le _ _

end Sys2Proof
end

section
/-!
Patrol scrub: a line that its code corrects, one that it cannot correct, and the turn of the scrubber (R342 to R350).
-/
namespace Sys2Proof.Machine

open Sys2Proof

/-! What memory stores. -/

/-- What memory stores of its lines: their bytes, their marks and their errors. -/
def State.stored (s : State) : SMap Byte × SMap Nat × SMap (List (Nat × Nat)) := (s.mem.cells, s.mem.poison, s.mem.ecc)

section
variable {s t : State}

theorem State.stored_of_mem (h : t.mem = s.mem) : t.stored = s.stored := by rw [State.stored, State.stored, h]

theorem State.byteAt_of_stored (h : t.stored = s.stored) (b : Nat) : t.byteAt b = s.byteAt b := by
  rw [State.byteAt, State.byteAt, (Prod.mk.inj h).1]

theorem State.mark_of_stored (h : t.stored = s.stored) (b : Nat) : t.mark b = s.mark b := by
  rw [State.mark, State.mark, (Prod.mk.inj (Prod.mk.inj h).2).1]

theorem State.eccErr_of_stored (h : t.stored = s.stored) (b : Nat) : t.eccErr b = s.eccErr b := by
  rw [State.eccErr, State.eccErr, (Prod.mk.inj (Prod.mk.inj h).2).2]

theorem State.stored_of_background (h : t.background = s.background) : t.stored = s.stored :=
  show t.background.stored = s.background.stored by rw [h]

end

section
variable (s : State)

@[simp] theorem State.stored_bump (key n : Nat) : (s.bump key n).stored = s.stored := rfl

@[simp] theorem State.stored_setScrubAt (u p : Nat) : (s.setScrubAt u p).stored = s.stored := rfl

@[simp] theorem State.scrubAt_setScrubAt_same (u p : Nat) : (s.setScrubAt u p).scrubAt u = p := SMap.get_set_same _ _ _ _

/-- No memory's correctable errors are FATAL (Table 19.3). -/
theorem eccReport_not_fatal (a : Nat) : sourceClass (eccReport a).1.2 ≠ .fatal := by
  unfold eccReport
  split <;> decide

/-! The line as it is read. -/

variable {s} {a u : Nat}

theorem State.decodeLine_of_clean (h : s.eccErr a = []) (free : Nat) : s.decodeLine a free = (0, 0, []) := by
  cases hc : s.codeOf a <;> simp only [State.decodeLine, hc, h] <;> rfl

theorem State.decodeLine_of_decoded (hcode : s.codeOf a = .line) {fix : List (Nat × Nat)} (h : lineDecode (s.eccErr a) = some fix)
    (free : Nat) : s.decodeLine a free = (b2n !fix.isEmpty, 0, mergeErrs (s.eccErr a ++ fix)) := by
  simp only [State.decodeLine, hcode, h]

theorem State.decodeLine_of_undecodable (hcode : s.codeOf a = .line) (h : lineDecode (s.eccErr a) = none) (free : Nat) :
    s.decodeLine a free = (0, 1, []) := by
  simp only [State.decodeLine, hcode, h]

/-- Words of at most two erroneous bits leave nothing open. -/
theorem State.decodeLine_of_secded (hcode : s.codeOf a = .secded) (h : ∀ w ∈ wordErrors (s.eccErr a), w.2 ≤ 2) (free : Nat) :
    s.decodeLine a free = (((wordErrors (s.eccErr a)).filter fun w => w.2 = 1).length,
      ((wordErrors (s.eccErr a)).filter fun w => w.2 = 2).length, []) := by
  have hfar : ((wordErrors (s.eccErr a)).filter fun w => decide (3 ≤ w.2)) = [] :=
    List.filter_eq_nil_iff.2 fun w hw => by simpa using Nat.lt_succ_of_le (h w hw)
  simp only [State.decodeLine, hcode, hfar, List.isEmpty_nil, if_true]

@[simp] theorem State.errsStand_nil : s.errsStand a [] = s := rfl

/-- A line whose errors its code takes away keeps its bytes and mark. -/
theorem State.checkLine_of_corrected (u : Nat) (h : ∀ free, ∃ k, s.decodeLine a free = (k, 0, [])) :
    (∀ b, (s.checkLine u a).byteAt b = s.byteAt b) ∧ (∀ b, (s.checkLine u a).mark b = s.mark b) ∧
      (s.mark a = 0 → (s.checkLine u a).eccErr a = []) := by
  by_cases hm : s.mark a = 0
  · by_cases he : s.eccErr a = []
    · rw [State.checkLine_of_clean u he]
      exact ⟨fun _ => rfl, fun _ => rfl, fun _ => he⟩
    · obtain ⟨k, hk⟩ := h ((s.drawN 1).1.headD 0).toNat
      have hdraw : (s.drawN 1).2.stored = s.stored := State.stored_of_mem (State.drawN_mem _ _)
      have hcheck : (s.checkLine u a).stored = ((s.drawN 1).2.setEcc a []).stored := by
        simp only [State.checkLine, hm, he, hk, ne_eq, not_true_eq_false, if_false, if_true, State.errsStand_nil]
        split
        · rfl
        · exact (State.stored_of_background (State.background_raise _ _ (eccReport_not_fatal a))).trans (State.stored_bump _ _ _)
      refine ⟨fun b => ?_, fun b => ?_, fun _ => ?_⟩
      · rw [State.byteAt_of_stored hcheck, State.byteAt_setEcc, State.byteAt_of_stored hdraw]
      · rw [State.mark_of_stored hcheck, State.mark_setEcc, State.mark_of_stored hdraw]
      · rw [State.eccErr_of_stored hcheck, State.eccErr_setEcc_same]
  · have hcheck : s.checkLine u a = s := if_pos hm
    rw [hcheck]
    exact ⟨fun _ => rfl, fun _ => rfl, fun h0 => absurd h0 hm⟩

/-- A line that its code cannot correct is marked. -/
theorem State.mark_checkLine_of_failed (u : Nat) (hm : s.mark a = 0) (he : s.eccErr a ≠ [])
    (h : ∀ free, (s.decodeLine a free).2.1 ≠ 0) : (s.checkLine u a).mark a ≠ 0 := by
  simp only [State.checkLine, hm, he, h, ne_eq, not_true_eq_false, if_false, State.mark_setMark_same]
  exact Nat.succ_ne_zero _

/-! Errors that a read finds beyond those recorded. -/

variable {found : List (Nat × Nat)}

/-- What a read finds changes the recorded errors and nothing else. -/
theorem State.finds_eq (s : State) (a : Nat) (found : List (Nat × Nat)) : ∃ m, s.finds a found = { s with mem := { s.mem with ecc := m } } := by
  unfold State.finds
  extract_lets es
  split <;> exact ⟨_, rfl⟩

theorem State.finds_keeps (s : State) (a : Nat) (found : List (Nat × Nat)) :
    (∀ b, (s.finds a found).byteAt b = s.byteAt b) ∧ (∀ b, (s.finds a found).mark b = s.mark b) ∧
      (s.finds a found).codeOf a = s.codeOf a := by
  obtain ⟨m, h⟩ := s.finds_eq a found
  rw [h]
  exact ⟨fun _ => rfl, fun _ => rfl, rfl⟩

theorem State.finds_nil : s.finds a [] = s := by
  unfold State.finds
  split <;> rfl

/-- Errors found in a clean line are recorded as combined. -/
theorem State.eccErr_ite_setEcc (h : s.eccErr a = []) (es : List (Nat × Nat)) :
    (if es.isEmpty then s else s.setEcc a (mergeErrs (s.eccErr a ++ es))).eccErr a = mergeErrs es := by
  cases es with
  | nil => exact h
  | cons e es => rw [if_neg (by simp), State.eccErr_setEcc_same, h, List.nil_append]

theorem State.eccErr_finds_line (hcode : s.codeOf a = .line) (h : s.eccErr a = []) (hf : ∀ e ∈ found, e.1 < 151 ∧ e.2 < 256) :
    (s.finds a found).eccErr a = mergeErrs found := by
  have hall : (found.filter fun e => decide (e.1 < 151) && decide (e.2 < 256)) = found :=
    List.filter_eq_self.2 fun e he => by simpa using hf e he
  simp only [State.finds, hcode, hall]
  exact State.eccErr_ite_setEcc h found

theorem State.eccErr_finds_secded (hcode : s.codeOf a = .secded) (h : s.eccErr a = []) (hf : ∀ e ∈ found, e.1 < 1152) :
    (s.finds a found).eccErr a = mergeErrs (found.map fun e => (e.1, 1)) := by
  have hall : (found.filter fun e => decide (e.1 < 1152)) = found :=
    List.filter_eq_self.2 fun e he => decide_eq_true (hf e he)
  simp only [State.finds, hcode, hall]
  exact State.eccErr_ite_setEcc h _

/-- A line without a mark, corrected of what a read finds, keeps every byte. -/
theorem State.checkLine_of_found {t : State} (hm : s.mark a = 0) (u : Nat) (ht : t.stored = (s.finds a found).stored)
    (h : ∀ free, ∃ k, t.decodeLine a free = (k, 0, [])) : (∀ b, (t.checkLine u a).byteAt b = s.byteAt b) ∧
      (∀ b, (t.checkLine u a).mark b = s.mark b) ∧ (t.checkLine u a).eccErr a = [] := by
  obtain ⟨fbyte, fmark, -⟩ := s.finds_keeps a found
  obtain ⟨cbyte, cmark, cecc⟩ := State.checkLine_of_corrected u h
  have tmark (b : Nat) : t.mark b = s.mark b := (State.mark_of_stored ht b).trans (fmark b)
  exact ⟨fun b => (cbyte b).trans ((State.byteAt_of_stored ht b).trans (fbyte b)), fun b => (cmark b).trans (tmark b),
    cecc ((tmark a).trans hm)⟩

/-! The scrubber's read. -/

/-- The scrubber's read of a DRAM line without a report of on-die ECC. -/
def State.scrubRead (s : State) (u a : Nat) (found : List (Nat × Nat)) : State :=
  if s.mark a ≠ 0 then s else
    (if (s.finds a found).corrects a then (s.finds a found).bump Obj.SCRUB_CORRECTED else s.finds a found).checkLine u a

/-- Every unit has had its last line. -/
def State.passDone (s : State) : Bool := s.scrubUnits.all fun x => decide (x.2 ≤ s.scrubAt x.1)

/-- A pass ends and the next begins. -/
def State.newPass (s : State) : State := (s.scrubUnits.foldl (fun t x => t.setScrubAt x.1 0) s).bump Obj.SCRUB_PASSES

/-- The scrubber goes past line `n` of a unit. -/
def State.scrubPast (s : State) (u n : Nat) : State :=
  if (s.setScrubAt u (n + 1)).passDone then (s.setScrubAt u (n + 1)).newPass else s.setScrubAt u (n + 1)

/-- Line `line` is the next that the scrubber reads of unit `u`, at place `n`. -/
structure State.ScrubTurn (s : State) (line u n : Nat) : Prop where
  place : s.dramLine line = some (u, n)
  runs : s.scrubs u = true
  rate : s.scrubRate ≠ 0
  next : n = s.scrubAt u

theorem State.ScrubTurn.exec_eq {line n : Nat} (h : s.ScrubTurn line u n) (found : List (Nat × Nat)) :
    exec (.scrubLine line found false) s = .next ((s.scrubRead u (line * 128) found).scrubPast u n) := by
  have hexec : exec (.scrubLine line found false) s = execScrubLine line found false s := rfl
  rw [hexec, State.scrubPast, State.scrubRead]
  simp only [execScrubLine, h.place, h.runs, beq_eq_false_iff_ne.2 h.rate, ← h.next, Bool.not_true, Bool.or_self, ne_eq,
    not_true_eq_false, decide_false, Bool.false_and, Bool.false_eq_true, if_false]
  exact (apply_ite Host.Outcome.next _ _ _).symm

theorem State.stored_newPass (s : State) : s.newPass.stored = s.stored := by
  rw [State.newPass, State.stored_bump]
  exact foldl_keeps State.stored (fun t x => t.stored_setScrubAt x.1 0) s.scrubUnits s

theorem State.stored_scrubPast (s : State) (u n : Nat) : (s.scrubPast u n).stored = s.stored := by
  unfold State.scrubPast
  split
  · exact State.stored_newPass _
  · rfl

/-- The end of a pass is counted. -/
theorem State.obj_newPass (s : State) : s.newPass.obj Obj.SCRUB_PASSES = satBump 32 (s.obj Obj.SCRUB_PASSES) 1 := by
  have hfold := foldl_keeps (State.obj · Obj.SCRUB_PASSES) (f := fun t x => t.setScrubAt x.1 0) (fun _ _ => rfl) s.scrubUnits s
  rw [State.newPass, State.obj_bump_same, hfold]

/-- A scrubbed line holds what the scrubber's read left of it. -/
theorem State.ScrubTurn.completes {line n : Nat} {P : State → Prop} (h : s.ScrubTurn line u n) (found : List (Nat × Nat))
    (hP : ∀ t, t.stored = (s.scrubRead u (line * 128) found).stored → P t) : Completes (.scrubLine line found false) s P :=
  ⟨_, h.exec_eq found, hP _ (State.stored_scrubPast _ u n)⟩

theorem State.scrubPast_progress (s : State) (u n : Nat) :
    (s.scrubPast u n).scrubAt u = n + 1 ∨ (s.scrubPast u n).obj Obj.SCRUB_PASSES = satBump 32 (s.obj Obj.SCRUB_PASSES) 1 := by
  unfold State.scrubPast
  split
  · exact .inr (State.obj_newPass _)
  · exact .inl (s.scrubAt_setScrubAt_same u (n + 1))

/-- A scrubbed line that is poisoned already, or sound, changes nothing. -/
theorem State.scrubRead_of_sound (u : Nat) (h : s.mark a ≠ 0 ∨ s.eccErr a = []) : s.scrubRead u a [] = s := by
  rcases h with hm | he
  · exact if_pos hm
  · have hcorrects : s.corrects a = false := by simp only [State.corrects, State.decodeLine_of_clean he, bne_self_eq_false, Bool.false_and]
    rw [State.scrubRead, State.finds_nil, hcorrects, if_neg Bool.false_ne_true, State.checkLine_of_clean u he, ite_self]

@[simp] theorem State.decodeLine_bump (s : State) (key n a free : Nat) : (s.bump key n).decodeLine a free = s.decodeLine a free := rfl

/-- Of a line that is not poisoned the scrubber's read is the line's decoding with what it finds. -/
theorem State.scrubRead_eq (u : Nat) (hm : s.mark a = 0) (found : List (Nat × Nat)) :
    ∃ t : State, t.stored = (s.finds a found).stored ∧ (∀ free, t.decodeLine a free = (s.finds a found).decodeLine a free) ∧
      s.scrubRead u a found = t.checkLine u a := by
  rw [State.scrubRead, if_neg (not_not.2 hm)]
  generalize s.finds a found = f
  split
  · exact ⟨_, f.stored_bump _ _, f.decodeLine_bump _ _ a, rfl⟩
  · exact ⟨f, rfl, fun _ => rfl, rfl⟩

section
variable (hm : s.mark a = 0)
include hm

/-- A scrubbed line that its code corrects keeps every byte. -/
theorem State.scrubRead_of_corrected (u : Nat) (h : ∀ free, ∃ k, (s.finds a found).decodeLine a free = (k, 0, [])) :
    (∀ b, (s.scrubRead u a found).byteAt b = s.byteAt b) ∧ (∀ b, (s.scrubRead u a found).mark b = s.mark b) ∧
      (s.scrubRead u a found).eccErr a = [] := by
  obtain ⟨t, ht, hdecode, hread⟩ := State.scrubRead_eq u hm found
  rw [hread]
  exact State.checkLine_of_found hm u ht fun free => hdecode free ▸ h free

/-- A scrubbed line that its code cannot correct is marked. -/
theorem State.mark_scrubRead_of_failed (u : Nat) (he : (s.finds a found).eccErr a ≠ [])
    (h : ∀ free, ((s.finds a found).decodeLine a free).2.1 ≠ 0) : (s.scrubRead u a found).mark a ≠ 0 := by
  obtain ⟨t, ht, hdecode, hread⟩ := State.scrubRead_eq u hm found
  rw [hread]
  refine State.mark_checkLine_of_failed u ?_ ?_ fun free => ?_
  · rw [State.mark_of_stored ht, (s.finds_keeps a found).2.1, hm]
  · rwa [State.eccErr_of_stored ht]
  · rw [hdecode]
    exact h free

end

/-! A line of HBM, or of LPDDR with inline ECC. -/

section
variable (hcode : s.codeOf a = .line) (hclean : s.eccErr a = [])
include hcode hclean

/-- Up to 6 symbols of a line's data and check bytes are corrected. -/
theorem State.decodeLine_finds_few (hlen : found.length ≤ 6) (hkey : ∀ e ∈ found, e.1 < 144) (hval : ∀ e ∈ found, e.2 < 256) (free : Nat) :
    ∃ k, (s.finds a found).decodeLine a free = (k, 0, []) := by
  have hecc : (s.finds a found).eccErr a = mergeErrs found :=
    State.eccErr_finds_line hcode hclean fun e he => ⟨(hkey e he).trans (by decide), hval e he⟩
  have hdecode : lineDecode (mergeErrs found) = some (mergeErrs found) := by
    rw [lineDecode_of_few ((length_mergeErrs_le found).trans hlen) (mergeErrs_keys (· < 144) hkey), mergeErrs_mergeErrs]
  rw [State.decodeLine_of_decoded ((s.finds_keeps a found).2.2.trans hcode) (hecc ▸ hdecode), hecc, mergeErrs_self_append]
  exact ⟨_, rfl⟩

/-- What the line code does not decode is marked. -/
theorem State.mark_scrubRead_of_undecodable (u : Nat) (hm : s.mark a = 0) (hes : mergeErrs found = found) (hne : found ≠ [])
    (hval : ∀ e ∈ found, e.1 < 151 ∧ e.2 < 256) (hfail : lineDecode found = none) : (s.scrubRead u a found).mark a ≠ 0 := by
  have hecc : (s.finds a found).eccErr a = found := (State.eccErr_finds_line hcode hclean hval).trans hes
  refine State.mark_scrubRead_of_failed hm u (by rwa [hecc]) fun free => ?_
  rw [State.decodeLine_of_undecodable ((s.finds_keeps a found).2.2.trans hcode) (by rwa [hecc])]
  exact Nat.one_ne_zero

end

/-! A word of an on-die store. -/

/-- The regions of the on-die stores have SECDED. -/
theorem State.codeOf_sram (s : State) (h : regionOf a ∈ [Region.mid, .mxt, .vxt, .cat, .sec]) : s.codeOf a = .secded := by
  simp only [List.mem_cons, List.not_mem_nil, or_false] at h
  rcases h with h | h | h | h | h <;> simp only [State.codeOf, h]

/-- The scrubber's read of a line of an on-die store. -/
def State.sramRead (s : State) (u a : Nat) (found : List (Nat × Nat)) : State :=
  if s.mark a ≠ 0 then s else (s.finds a found).checkLine u a

/-- The word at `a` is the next that the scrubber reads of the store of unit `u`. -/
structure State.SramTurn (s : State) (a u : Nat) : Prop where
  held : s.holder a = some u
  region : regionOf a ∈ [Region.mid, .mxt, .vxt, .cat, .sec]
  aligned : a % 8 = 0
  runs : s.scrubs u = true
  next : (a - storeBase u) / 8 = s.scrubAt u

theorem State.SramTurn.exec_eq (h : s.SramTurn a u) (found : List (Nat × Nat)) :
    exec (.sramScrubWord a found) s = .next ((s.sramRead u a found).setScrubAt u
      (if ((a - storeBase u) / 8 + 1) * 8 = storeBytes u then 0 else (a - storeBase u) / 8 + 1)) := by
  obtain ⟨held, region, aligned, runs, next⟩ := h
  have hexec : exec (.sramScrubWord a found) s = execSramScrubWord a found s := rfl
  simp only [List.mem_cons, List.not_mem_nil, or_false] at region
  rw [hexec]
  rcases region with h | h | h | h | h <;> simp [execSramScrubWord, State.sramRead, held, h, aligned, runs, next]

/-- A scrubbed word's line holds what the read left of it, and the scrubber goes on, from the last word to the first. -/
theorem State.SramTurn.completes {P : State → Prop} (h : s.SramTurn a u) (found : List (Nat × Nat))
    (hP : ∀ t, t.stored = (s.sramRead u a found).stored →
      t.scrubAt u = (if ((a - storeBase u) / 8 + 1) * 8 = storeBytes u then 0 else (a - storeBase u) / 8 + 1) → P t) :
    Completes (.sramScrubWord a found) s P :=
  ⟨_, h.exec_eq found, hP _ (State.stored_setScrubAt _ _ _) (State.scrubAt_setScrubAt_same _ _ _)⟩

theorem State.sramRead_of_sound (u : Nat) (h : s.mark a ≠ 0 ∨ s.eccErr a = []) : s.sramRead u a [] = s := by
  rcases h with hm | he
  · exact if_pos hm
  · rw [State.sramRead, State.finds_nil, State.checkLine_of_clean u he, ite_self]

theorem State.sramRead_of_corrected (hm : s.mark a = 0) (u : Nat) (h : ∀ free, ∃ k, (s.finds a found).decodeLine a free = (k, 0, [])) :
    (∀ b, (s.sramRead u a found).byteAt b = s.byteAt b) ∧ (∀ b, (s.sramRead u a found).mark b = s.mark b) ∧
      (s.sramRead u a found).eccErr a = [] := by
  rw [State.sramRead, if_neg (not_not.2 hm)]
  exact State.checkLine_of_found hm u rfl h

section
variable (hcode : s.codeOf a = .secded) (hclean : s.eccErr a = [])
include hcode hclean

/-- One erroneous bit is corrected. -/
theorem State.decodeLine_finds_bit {b m : Nat} (hb : b < 1152) (free : Nat) :
    ∃ k, (s.finds a [(b, m)]).decodeLine a free = (k, 0, []) := by
  have hwf : SMap.wf 0 [(b, 1)] = true := rfl
  have hecc : (s.finds a [(b, m)]).eccErr a = [(b, 1)] :=
    (State.eccErr_finds_secded hcode hclean (by simpa using hb)).trans (mergeErrs_of_wf hwf)
  have hone : ∀ w ∈ wordErrors [(b, 1)], w.2 ≤ 1 := fun w hw => wordErrors_le hwf hw
  have htwo : ((wordErrors [(b, 1)]).filter fun w => w.2 = 2) = [] :=
    List.filter_eq_nil_iff.2 fun w hw => by simpa using ((hone w hw).trans_lt (by decide)).ne
  rw [State.decodeLine_of_secded ((s.finds_keeps a _).2.2.trans hcode) (hecc ▸ fun w hw => (hone w hw).trans (by decide)), hecc, htwo]
  exact ⟨_, rfl⟩

/-- Two erroneous bits of a word are not. -/
theorem State.mark_sramRead_of_two (u : Nat) {b c m : Nat} (hm : s.mark a = 0) (hbc : b < c) (hc : c < 1152) (hword : b / 72 = c / 72) :
    (s.sramRead u a [(b, m), (c, m)]).mark a ≠ 0 := by
  have hwf : SMap.wf 0 [(b, 1), (c, 1)] = true := by simpa [SMap.wf] using hbc
  have hecc : (s.finds a [(b, m), (c, m)]).eccErr a = [(b, 1), (c, 1)] :=
    (State.eccErr_finds_secded hcode hclean (by simpa using ⟨hbc.trans hc, hc⟩)).trans (mergeErrs_of_wf hwf)
  have hmem : (c / 72, 2) ∈ wordErrors [(b, 1), (c, 1)] := (mem_wordErrors hwf).2 ⟨by omega, by decide, by simp [hword]⟩
  rw [State.sramRead, if_neg (not_not.2 hm)]
  refine State.mark_checkLine_of_failed u (((s.finds_keeps a _).2.1 a).trans hm) (hecc ▸ List.cons_ne_nil _ _) fun free => ?_
  rw [State.decodeLine_of_secded ((s.finds_keeps a _).2.2.trans hcode) (hecc ▸ fun w hw => wordErrors_le hwf hw), hecc]
  exact (List.length_pos_of_mem (List.mem_filter.2 ⟨hmem, rfl⟩)).ne'

end

end

end Sys2Proof.Machine
end

section
/-!
Aperture entries: what a write of each word answers and leaves (R357, Table 8.5); and the calibration of an LPDDR port (R336).
-/
namespace Sys2Proof.Machine

open Sys2Proof

/-! The rules of an entry. -/

/-- A reserved bit or page size in word 0. -/
def Apt.reserved (e : Apt) : Bool := bits e.w0 4 12 ≠ 0 || bit e.w0 1 || bits e.w0 2 2 == 3

/-- The target is on this device. -/
def State.aptHere (s : State) (e : Apt) : Bool := bit e.w1 3 || e.pa / 2 ^ 56 == s.devId

/-- A target on this device that is not backed. -/
def State.aptUnbacked (s : State) (e : Apt) : Bool := s.aptHere e && !(s.rangeBacked (e.pa % 2 ^ 56) e.size)

/-- An address that is no multiple of the page size, or a page on this device that spans two regions. -/
def State.aptCrooked (s : State) (e : Apt) : Bool :=
  e.va % e.size ≠ 0 || e.pa % e.size ≠ 0 ||
    (s.aptHere e && regionOf (e.pa % 2 ^ 56) != regionOf (e.pa % 2 ^ 56 + e.size - 1))

/-- Word 0 as an entry keeps it: without its reserved bits. -/
def keptWord0 (v : Nat) : Nat := v / 2 ^ 16 * 2 ^ 16 + bits v 2 2 * 4 + b2n (bit v 0)

theorem bit_keptWord0_of_clear {v : Nat} (h : bit v 0 = false) : bit (keptWord0 v) 0 = false := by
  rw [keptWord0, h]
  simp only [bit, b2n, Bool.false_eq_true, if_false, beq_eq_false_iff_ne]
  omega

section
variable {s : State} {e : Apt}

theorem Apt.reserved_eq_true_iff : e.reserved = true ↔ bits e.w0 4 12 ≠ 0 ∨ bit e.w0 1 = true ∨ bits e.w0 2 2 = 3 := by
  simp [Apt.reserved, or_assoc]

/-- A page is at a multiple of 64 KiB, so its device is in the top byte of word 1. -/
theorem State.aptHere_eq_true_iff : s.aptHere e = true ↔ bit e.w1 3 = true ∨ e.w1 / 2 ^ 56 = s.devId := by
  have hpa : e.pa / 2 ^ 56 = e.w1 / 2 ^ 56 := by
    rw [Apt.pa]
    omega
  rw [State.aptHere, hpa, Bool.or_eq_true, beq_iff_eq]

theorem State.aptUnbacked_eq_true_iff :
    s.aptUnbacked e = true ↔ s.aptHere e = true ∧ s.rangeBacked (e.pa % 2 ^ 56) e.size = false := by
  rw [State.aptUnbacked, Bool.and_eq_true, Bool.not_eq_true']

theorem State.aptCrooked_eq_true_iff : s.aptCrooked e = true ↔ e.va % e.size ≠ 0 ∨ e.pa % e.size ≠ 0 ∨
    (s.aptHere e = true ∧ regionOf (e.pa % 2 ^ 56) ≠ regionOf (e.pa % 2 ^ 56 + e.size - 1)) := by
  simp [State.aptCrooked, or_assoc]

theorem keptWord0_of_valid (hset : bit e.w0 0 = true) (hr : e.reserved = false) : keptWord0 e.w0 = e.w0 := by
  have hform := mt Apt.reserved_eq_true_iff.2 (Bool.eq_false_iff.1 hr)
  simp only [not_or, not_not] at hform
  obtain ⟨hhigh, hbit, -⟩ := hform
  rw [keptWord0, hset]
  simp only [bit, bits, b2n, beq_iff_eq, if_true] at hset hhigh hbit ⊢
  omega

/-! The check of a valid word 0, whose first failure is the answer. -/

theorem State.aptCheck_eq (s : State) (e : Apt) : s.aptCheck e.w0 e.w1 =
    firstFail [(e.reserved, Sc.reservedNonzero), (s.aptUnbacked e, Sc.boundViolation), (s.aptCrooked e, Sc.alignment)] := rfl

theorem State.aptCheck_of_reserved (h : e.reserved = true) : s.aptCheck e.w0 e.w1 = Sc.reservedNonzero := by
  simp only [State.aptCheck_eq, firstFail, h, if_true]

theorem State.aptCheck_of_unbacked (hr : e.reserved = false) (h : s.aptUnbacked e = true) :
    s.aptCheck e.w0 e.w1 = Sc.boundViolation := by
  simp only [State.aptCheck_eq, firstFail, hr, h, Bool.false_eq_true, if_false, if_true]

theorem State.aptCheck_of_backed (hr : e.reserved = false) (hb : s.aptUnbacked e = false) :
    s.aptCheck e.w0 e.w1 = if s.aptCrooked e then Sc.alignment else 0 := by
  simp only [State.aptCheck_eq, firstFail, hr, hb, Bool.false_eq_true, if_false]

end

/-! The entries after a write. -/

section
variable {s : State} {c i v : Nat}

@[simp] theorem State.aptEntry_setApt_same (s : State) (c i : Nat) (e : Apt) : (s.setApt c i e).aptEntry c i = e := SMap.get_set_same _ _ _ _

theorem State.aptEntry_setApt_other (s : State) {c i c' i' : Nat} (e : Apt) (hi : i < 4096) (hi' : i' < 4096) (h : (c', i') ≠ (c, i)) :
    (s.setApt c i e).aptEntry c' i' = s.aptEntry c' i' := by
  refine SMap.get_set_other _ _ _ fun hkey => h ?_
  rw [Prod.mk.injEq]
  omega

@[simp] theorem State.aptEntry_bump (s : State) (key n c i : Nat) : (s.bump key n).aptEntry c i = s.aptEntry c i := rfl

@[simp] theorem State.aptEntry_setAptCtl (s : State) (c' : Nat) (x : AptCtl) (c i : Nat) : (s.setAptCtl c' x).aptEntry c i = s.aptEntry c i := rfl

@[simp] theorem State.aptCtl_bump (s : State) (key n c : Nat) : (s.bump key n).aptCtl c = s.aptCtl c := rfl

@[simp] theorem State.aptEntry_aptReject (s : State) (c i w st c' i' : Nat) :
    (s.aptReject c i w st).aptEntry c' i' = s.aptEntry c' i' := by
  rw [State.aptReject, State.aptEntry_bump, State.aptEntry_setAptCtl]

/-- A rejection is recorded in APT_STATUS (Table 8.5). -/
theorem State.status_aptReject (s : State) (c i w st : Nat) :
    ((s.aptReject c i w st).aptCtl c).status = st + i * 2 ^ 8 + w * 2 ^ 20 := by
  rw [State.aptReject, State.aptCtl_bump, State.aptCtl_setAptCtl_same]

/-- Every entry but one is as it was. -/
def State.AptOthers (s : State) (c i : Nat) (t : State) : Prop :=
  ∀ c' i', i' < 4096 → (c', i') ≠ (c, i) → t.aptEntry c' i' = s.aptEntry c' i'

/-- A write of word `w` is refused: no entry changes, and APT_STATUS names the word and why. -/
def State.AptRefused (s : State) (c i w st : Nat) (t : State) : Prop :=
  t.aptEntry c i = s.aptEntry c i ∧ s.AptOthers c i t ∧ (t.aptCtl c).status = st + i * 2 ^ 8 + w * 2 ^ 20

theorem State.aptRefused_aptReject (s : State) (c i w st : Nat) : s.AptRefused c i w st (s.aptReject c i w st) :=
  ⟨s.aptEntry_aptReject c i w st c i, fun c' i' _ _ => s.aptEntry_aptReject c i w st c' i', s.status_aptReject c i w st⟩

theorem State.aptOthers_setApt (hup : s.aptUp c i = true) (e : Apt) : s.AptOthers c i (s.setApt c i e) := by
  rw [State.aptUp, Bool.and_eq_true, decide_eq_true_eq] at hup
  exact fun _ _ hi' h => s.aptEntry_setApt_other e hup.2 hi' h

/-! The ways of a write. -/

theorem State.aptWord1_of_inUse (hv : bits v 4 12 = 0) (h : (s.aptEntry c i).valid = true) :
    s.aptWord1 c i v = (Sc.accessDenied, s.aptReject c i 1 Sc.accessDenied) := by
  simp [State.aptWord1, firstFail, hv, h]

theorem State.aptWord1_of_free (hv : bits v 4 12 = 0) (h : (s.aptEntry c i).valid = false) :
    s.aptWord1 c i v = (Sc.ok, s.setApt c i { s.aptEntry c i with w1 := v }) := by
  simp [State.aptWord1, firstFail, hv, h]

theorem State.aptWord0_of_clear (h : bit v 0 = false) :
    s.aptWord0 c i v = (Sc.ok, s.setApt c i { s.aptEntry c i with w0 := keptWord0 v }) := by
  simp [State.aptWord0, keptWord0, h]

theorem State.aptWord0_of_bad {st : Nat} (hset : bit v 0 = true) (h : s.aptCheck v (s.aptEntry c i).w1 = st) (hst : st ≠ 0) :
    s.aptWord0 c i v = (st, s.aptReject c i 0 st) := by
  simp only [State.aptWord0, hset, h, if_true, if_pos hst]

theorem State.aptWord0_of_sound (hset : bit v 0 = true) (h : s.aptCheck v (s.aptEntry c i).w1 = 0) :
    s.aptWord0 c i v = (Sc.ok, s.setApt c i { s.aptEntry c i with w0 := keptWord0 v }) := by
  simp only [State.aptWord0, keptWord0, hset, h, if_true, ne_eq, not_true_eq_false, if_false]

/-- A write of word 1 that the tables take goes its way. -/
theorem Completes.aptWord1Write {P : State → Prop} {r : Nat × State} (hup : s.aptUp c i = true) (hv : v < 2 ^ 64)
    (hr : s.aptWord1 c i v = r) (h : P r.2) : Completes (.aptWord1Write c i v) s P :=
  .of_occ (t := (s.aptWord1 c i (v % 2 ^ 64)).2) rfl hup (by rwa [Nat.mod_eq_of_lt hv, hr])

/-- And so does a write of word 0. -/
theorem Completes.aptWord0Write {P : State → Prop} {r : Nat × State} (hup : s.aptUp c i = true) (hv : v < 2 ^ 64)
    (hr : s.aptWord0 c i v = r) (h : P r.2) : Completes (.aptWord0Write c i v) s P :=
  .of_occ (t := (s.aptWord0 c i (v % 2 ^ 64)).2) rfl hup (by rwa [Nat.mod_eq_of_lt hv, hr])

/-- A word 0 that fails its check answers with the failure, and is refused. -/
theorem Completes.aptWord0Write_refused {st : Nat} (hup : s.aptUp c i = true) (hv : v < 2 ^ 64) (hset : bit v 0 = true)
    (h : s.aptCheck v (s.aptEntry c i).w1 = st) (hst : st ≠ 0) :
    (s.aptWord0 c i v).1 = st ∧ Completes (.aptWord0Write c i v) s (s.AptRefused c i 0 st) := by
  have hw := State.aptWord0_of_bad hset h hst
  exact ⟨congrArg Prod.fst hw, .aptWord0Write hup hv hw (s.aptRefused_aptReject c i 0 st)⟩

end

/-! Calibration of an LPDDR port. -/

section
variable {s : State}

/-- A calibration holds its port's requests for at most 2 µs (R336). -/
theorem State.lpRecal_completes {p : Nat} (hp : p < 8) (hav : s.available (unitOf 7 p) = true) (hstage : 3 ≤ s.stage)
    (huse : 0 < s.lpUsable p) (hsafe : s.safety.safe = false) :
    Completes (.lpRecal p) s fun t => s.timeNs ≤ SMap.get 0 t.mem.lpHold p ∧ SMap.get 0 t.mem.lpHold p ≤ s.timeNs + 2000 ∧
      (∀ b, t.byteAt b = s.byteAt b) ∧ t.net.packets = s.net.packets := by
  refine .of_occ rfl (by simp [hav, hp, hstage, huse, hsafe]) ⟨?_, ?_, fun _ => rfl, rfl⟩ <;> rw [SMap.get_set_same] <;> omega

/-- A request of a port that calibrates is not taken (R336). -/
theorem State.arrived_of_calibrates {k : Packet} (kd : PKind) (hk : s.packet k.id = some k) (h : s.calibrates k = true) :
    s.arrived k.id kd = none := by
  simp [State.arrived, hk, h]

end

/-- Settles O48: the first check that fails answers a write of an entry; the scrubber's read is the line's decoding, which cancels what
the code corrects and marks what it does not; a calibration only sets until when its port holds. -/
theorem apertureEntriesAndScrubbing : Obligations.ApertureEntriesAndScrubbing := by
  refine ⟨?apertures, ?dram, ?sram, fun s p => State.lpRecal_completes, fun s k n d kd hk hresp hregion hplace hheld => ?held⟩
  case apertures =>
    intro s c i v hup hv e here size pa reserved crooked others refused
    -- The entry that a valid word 0 would make, which is what its check is about.
    let e' : Apt := { w0 := v, w1 := e.w1 }
    have hform : e'.reserved = true ↔ reserved := Apt.reserved_eq_true_iff
    have hformed (hr : ¬reserved) : e'.reserved = false := Bool.eq_false_iff.2 (mt hform.1 hr)
    have hhere : s.aptHere e' = true ↔ here := State.aptHere_eq_true_iff
    have hunbacked : s.aptUnbacked e' = true ↔ here ∧ s.rangeBacked (pa % 2 ^ 56) size = false :=
      State.aptUnbacked_eq_true_iff.trans (and_congr_left' hhere)
    have hcrooked : s.aptCrooked e' = true ↔ crooked :=
      State.aptCrooked_eq_true_iff.trans (or_congr_right (or_congr_right (and_congr_left' hhere)))
    have hbad {st : Nat} (hset : bit v 0 = true) (h : s.aptCheck v e.w1 = st) := Completes.aptWord0Write_refused hup hv hset h
    have hlast (hr : ¬reserved) (hb : here → s.rangeBacked (pa % 2 ^ 56) size = true) :
        s.aptCheck v e.w1 = if s.aptCrooked e' then Sc.alignment else 0 :=
      State.aptCheck_of_backed (hformed hr) <| Bool.eq_false_iff.2 fun h =>
        Bool.false_ne_true ((hunbacked.1 h).2.symm.trans (hb (hunbacked.1 h).1))
    refine ⟨fun huse hz => ?inUse, fun hfree hz => ?free, fun hclear => ?clear, fun hset hr => ?reserved,
      fun hset hr hh hb => ?unbacked, fun hset hr hb hc => ?crooked, fun hset hr hb hc => ?sound⟩
    case inUse =>
      have hw := State.aptWord1_of_inUse hz huse
      exact ⟨congrArg Prod.fst hw, .aptWord1Write hup hv hw (s.aptRefused_aptReject c i 1 _)⟩
    case free =>
      have hw := State.aptWord1_of_free hz hfree
      exact ⟨congrArg Prod.fst hw, .aptWord1Write hup hv hw ⟨s.aptEntry_setApt_same c i _, State.aptOthers_setApt hup _⟩⟩
    case clear =>
      have hw : s.aptWord0 c i v = _ := State.aptWord0_of_clear hclear
      refine ⟨congrArg Prod.fst hw, .aptWord0Write hup hv hw ⟨?_, ?_, State.aptOthers_setApt hup _⟩⟩ <;>
        rw [State.aptEntry_setApt_same]
      exact bit_keptWord0_of_clear hclear
    case reserved => exact hbad hset (State.aptCheck_of_reserved (e := e') (hform.2 hr)) (by decide)
    case unbacked =>
      exact hbad hset (State.aptCheck_of_unbacked (hformed hr) (hunbacked.2 ⟨hh, hb⟩)) (by decide)
    case crooked => exact hbad hset ((hlast hr hb).trans (if_pos (hcrooked.2 hc))) (by decide)
    case sound =>
      have hw := State.aptWord0_of_sound hset ((hlast hr hb).trans (if_neg (mt hcrooked.1 hc)))
      refine ⟨congrArg Prod.fst hw, .aptWord0Write hup hv hw ⟨?_, State.aptOthers_setApt hup _⟩⟩
      rw [State.aptEntry_setApt_same, keptWord0_of_valid hset (hformed hr)]
  case dram =>
    intro s line u n hline hruns hrate hturn a
    have turn : s.ScrubTurn line u n := ⟨hline, hruns, hrate, hturn⟩
    refine ⟨fun hsound => ⟨_, turn.exec_eq [], ?sound⟩, fun f hm he hcode hf => ⟨fun hlen hkey => ?few, fun hes hlow hhigh => ?many⟩,
      fun i m hm he hcode hi hi' hpos hlt => ?address⟩
    case sound =>
      have hstored := s.stored_scrubPast u n
      rw [State.scrubRead_of_sound u hsound]
      exact ⟨State.byteAt_of_stored hstored, State.mark_of_stored hstored, s.scrubPast_progress u n⟩
    case few =>
      obtain ⟨hbyte, hmark, hecc⟩ := State.scrubRead_of_corrected hm u
        (State.decodeLine_finds_few hcode he hlen hkey fun x hx => (hf x hx).2.2)
      exact turn.completes f fun t ht => ⟨fun b => (State.byteAt_of_stored ht b).trans (hbyte b),
        fun b => (State.mark_of_stored ht b).trans (hmark b), (State.eccErr_of_stored ht a).trans hecc⟩
    case many =>
      refine turn.completes f fun t ht => ?_
      rw [State.mark_of_stored ht]
      exact State.mark_scrubRead_of_undecodable hcode he u hm hes (List.ne_nil_of_length_pos (by omega))
        (fun x hx => ⟨(hf x hx).1, (hf x hx).2.2⟩) (lineDecode_of_many hes hlow hhigh)
    case address =>
      have hne : m ≠ 0 := hpos.ne'
      refine turn.completes _ fun t ht => ?_
      rw [State.mark_of_stored ht]
      exact State.mark_scrubRead_of_undecodable hcode he u hm (mergeErrs_single hne) (List.cons_ne_nil _ _)
        (by simpa using ⟨hi', hlt⟩) (lineDecode_of_address hi hne)
  case sram =>
    intro s a u hheld hregion halign hruns n hturn
    have turn : s.SramTurn a u := ⟨hheld, hregion, halign, hruns, hturn⟩
    have hcode := s.codeOf_sram hregion
    refine ⟨fun hsound => ?sound, fun b m hm he hb => ?bit, fun b c m hm he hbc hc hword => ?two⟩
    case sound =>
      refine turn.completes [] fun t ht hat => ⟨fun b => ?_, hat⟩
      rw [State.byteAt_of_stored ht, State.sramRead_of_sound u hsound]
    case bit =>
      obtain ⟨hbyte, hmark, hecc⟩ := State.sramRead_of_corrected hm u (State.decodeLine_finds_bit hcode he hb)
      exact turn.completes _ fun t ht _ => ⟨fun c => (State.byteAt_of_stored ht c).trans (hbyte c),
        (State.eccErr_of_stored ht a).trans hecc, (State.mark_of_stored ht a).trans ((hmark a).trans hm)⟩
    case two =>
      refine turn.completes _ fun t ht _ => ?_
      rw [State.mark_of_stored ht]
      exact State.mark_sramRead_of_two hcode he u hm hbc hc hword
  case held => exact State.arrived_of_calibrates kd hk (by simp [State.calibrates, hresp, hregion, hplace, hheld])

end Sys2Proof.Machine
end

section
/-!
Stores: the entries that an ST appends to the store buffer (R374, R377), and what appending them leaves.
-/
namespace Sys2Proof.Machine

open Sys2Proof

/-! Appending to the store buffer. -/

/-- Entries at the tail of a sequencer's store buffer, each with the next tag. -/
def State.bufferStores (s : State) (q : Nat) (es : List SbEntry) : State :=
  { s.setSeq q { s.seq q with sb := (s.seq q).sb ++ es } with nextOp := s.nextOp + es.length }

section
variable (s : State) (q k : Nat) (es : List SbEntry)

@[simp] theorem State.sb_bufferStores : ((s.bufferStores q es).seq q).sb = (s.seq q).sb ++ es :=
  congrArg Sequencer.sb (s.seq_setSeq_same q _)

theorem State.seq_bufferStores_other {q' : Nat} (h : q' ≠ q) : (s.bufferStores q es).seq q' = s.seq q' :=
  s.seq_setSeq_other q q' _ h

@[simp] theorem State.slot_bufferStores : (s.bufferStores q es).slot q k = s.slot q k :=
  s.slot_setSeq q k _ rfl rfl

@[simp] theorem State.byteAt_bufferStores (a : Nat) : (s.bufferStores q es).byteAt a = s.byteAt a := rfl

end

/-! Going on. -/

section
variable (s : State) (q k n : Nat)

@[simp] theorem State.byteAt_advance (a : Nat) : (s.advance q k n).byteAt a = s.byteAt a := by
  obtain ⟨_, _, h⟩ := s.advance_eq q k n
  rw [h]
  rfl

theorem State.seq_advance_other {q' : Nat} (h : q' ≠ q) : (s.advance q k n).seq q' = s.seq q' :=
  s.seq_setSeq_other q q' _ h

end

@[simp] theorem Slot.x_goto (t : Slot) (i now : Nat) : (t.goto i now).x = t.x := rfl

/-! The store. -/

@[simp] theorem Slot.marks_singleton (t : Slot) (r : Nat) : t.marks [r] = t.regMark r := rfl

section
variable (s : State) (q k : Nat) (c : Cmd) (xv n : Nat)

/-- The translation of a store's n bytes. -/
def State.storeRange : Nat × List (Nat × Nat × Nat) × Bool × State :=
  s.xlateRange (s.slot q k).ctx (memAddr (s.slot q k) c) n false true

/-- The entries of an ST of the low n bytes of register xv: one for each line it touches. -/
def State.storeEntries : List SbEntry :=
  let x := s.storeRange q k c n
  (cutLines x.2.1).zipIdx.map fun p =>
    { slot := k, addr := p.1.1, bytes := ((leBytes n ((s.slot q k).reg xv)).drop p.1.2.1).take p.1.2.2, replay := x.2.2.1,
      poison := (s.slot q k).regMark xv, sent := false, tag := x.2.2.2.nextOp + p.2 }

@[simp] theorem State.length_storeEntries :
    (s.storeEntries q k c xv n).length = (cutLines (s.storeRange q k c n).2.1).length := by
  simp [State.storeEntries]

/-- An ST that is stored: its registers are ready and its address is not poisoned, it translates, to other than device space,
and the store buffer has room for its entries. -/
structure State.Stores : Prop where
  op : c.op = 0x11
  address : (s.slot q k).pendReg (bits c.w0 44 4) = false
  value : (s.slot q k).pendReg xv = false
  sound : (s.slot q k).regMark (bits c.w0 44 4) = 0
  translates : (s.storeRange q k c n).1 = 0
  plain : (s.storeRange q k c n).2.2.2.isMmio ((cutLines (s.storeRange q k c n).2.1).headD (0, 0, 0)).1 = false
  room : ((s.storeRange q k c n).2.2.2.seq q).sb.length + (cutLines (s.storeRange q k c n).2.1).length ≤ (s.slot q k).sbDepth

variable {s q k c xv n}

/-- Such a store appends its entries and goes on by one word. -/
theorem State.Stores.storeWord_eq (h : s.Stores q k c xv n) :
    s.storeWord q k c xv n =
      ((s.storeRange q k c n).2.2.2.bufferStores q (s.storeEntries q k c xv n)).advance q k 1 := by
  obtain ⟨hop, haddress, hvalue, hsound, htranslates, hplain, hroom⟩ := h
  have hkind : bits c.w0 56 8 ≠ 0x13 := fun he => absurd (hop.symm.trans he) (by decide)
  rw [State.storeRange] at htranslates hplain hroom
  simp only [State.storeWord, hkind, haddress, hvalue, hsound, htranslates, hplain, Nat.not_lt.2 hroom, List.any_cons, List.any_nil,
    Bool.or_self, Bool.false_eq_true, ne_eq, not_true_eq_false, if_false, State.bufferStores, State.length_storeEntries]
  rfl

end

/-- Settles O18: the store buffer's tail holds the store's entries; memory, the slot's registers and the other sequencers are as
the translation left them. -/
theorem storesEnterTheStoreBuffer : Obligations.StoresEnterTheStoreBuffer := by
  intro s q k xv n c t xs x s1 ps data hop haddress hvalue hsound htranslates hplain hroom _ u
  have hu : u = (s1.bufferStores q (s.storeEntries q k c xv n)).advance q k 1 :=
    State.Stores.storeWord_eq ⟨hop, haddress, hvalue, hsound, htranslates, hplain, hroom⟩
  rw [hu]
  refine ⟨?entries, fun a => ?bytes, ?registers, fun q' hq => ?others⟩
  case entries =>
    rw [(State.seq_advance _ q k 1 q).2, State.sb_bufferStores]
    rfl
  case bytes => rw [State.byteAt_advance, State.byteAt_bufferStores]
  case registers => rw [State.slot_advance, Slot.x_goto, State.slot_bufferStores]
  case others => rw [State.seq_advance_other _ _ _ _ hq, State.seq_bufferStores_other _ _ _ hq]

end Sys2Proof.Machine
end

section
/-!
Integer arithmetic: the integer elements of a vector tile (R478) and the accumulators of a matrix tile (R407, R408). A pattern and
its signed value are congruent modulo 2^w, and a value in the range of w bits is the only one of its class there.
-/
namespace Sys2Proof.Machine

open Sys2Proof

/-! Two's complement of w bits. -/

/-- Of a residue class, a range as long as the modulus holds one value. -/
theorem eq_of_modEq_of_range {m lo x y : Int} (h : x ≡ y [ZMOD m]) (hx : lo ≤ x) (hx' : x < lo + m) (hy : lo ≤ y)
    (hy' : y < lo + m) : x = y := by
  have hdiff : |x - y| < m := abs_sub_lt_iff.2 ⟨by omega, by omega⟩
  exact Int.sub_eq_zero.1 (Int.eq_zero_of_abs_lt_dvd h.symm.dvd hdiff)

section
variable (w v : Nat) (i : Int)

theorem sgn_modEq : sgn w v ≡ v [ZMOD 2 ^ w] := by
  have hmod : ((v % 2 ^ w : Nat) : Int) ≡ v [ZMOD 2 ^ w] := by
    push_cast
    exact Int.mod_modEq _ _
  rw [sgn]
  split
  · exact hmod
  · have hpow : ((2 ^ w : Nat) : Int) ≡ 0 [ZMOD 2 ^ w] := by
      push_cast
      exact (dvd_refl _).modEq_zero_int
    simpa using hmod.sub hpow

theorem unsgn_lt : unsgn w i < 2 ^ w := by
  have hpos : (0 : Int) < (2 ^ w : Nat) := mod_cast Nat.two_pow_pos w
  have hnonneg := Int.emod_nonneg i hpos.ne'
  have hlt := Int.emod_lt_of_pos i hpos
  rw [unsgn]
  omega

theorem unsgn_modEq : (unsgn w i : Int) ≡ i [ZMOD 2 ^ w] := by
  have hpos : (0 : Int) < (2 ^ w : Nat) := mod_cast Nat.two_pow_pos w
  rw [unsgn, Int.toNat_of_nonneg (Int.emod_nonneg i hpos.ne')]
  push_cast
  exact Int.mod_modEq _ _

variable {w v i}

/-- The encoding of an integer is the residue of any number congruent to it. -/
theorem unsgn_of_modEq (h : i ≡ v [ZMOD 2 ^ w]) : unsgn w i = v % 2 ^ w := by
  have hv : (unsgn w i : Int) ≡ v [ZMOD (2 ^ w : Nat)] := by
    push_cast
    exact (unsgn_modEq w i).trans h
  exact (Nat.mod_eq_of_lt (unsgn_lt w i)).symm.trans (Int.natCast_modEq_iff.1 hv)

theorem sgn_range (hw : 0 < w) : -2 ^ (w - 1) ≤ sgn w v ∧ sgn w v < 2 ^ (w - 1) := by
  have hlt := Nat.mod_lt v (Nat.two_pow_pos w)
  have htwice := Nat.two_pow_pred_mul_two hw
  rw [sgn]
  zify at *
  split <;> omega

/-- The encoding of an integer in range has that integer as its signed value. -/
theorem sgn_unsgn (hw : 0 < w) (hlo : -2 ^ (w - 1) ≤ i) (hhi : i < 2 ^ (w - 1)) : sgn w (unsgn w i) = i := by
  obtain ⟨hlo', hhi'⟩ := sgn_range (v := unsgn w i) hw
  have htwice := mul_pow_sub_one hw.ne' (2 : Int)
  exact eq_of_modEq_of_range ((sgn_modEq w _).trans (unsgn_modEq w i)) hlo' (by omega) hlo (by omega)

theorem unsgn_natCast (h : v < 2 ^ w) : unsgn w v = v := (unsgn_of_modEq rfl).trans (Nat.mod_eq_of_lt h)

/-- The least value's pattern has the sign bit alone. -/
theorem unsgn_min (hw : 0 < w) : unsgn w (-2 ^ (w - 1)) = 2 ^ (w - 1) := by
  have hclass : (-2 ^ (w - 1) : Int) ≡ (2 ^ (w - 1) : Nat) [ZMOD 2 ^ w] := by
    rw [Int.modEq_iff_dvd, ← mul_pow_sub_one hw.ne']
    push_cast
    exact ⟨1, by ring⟩
  exact (unsgn_of_modEq hclass).trans (Nat.mod_eq_of_lt (Nat.two_pow_pred_lt_two_pow hw))

theorem sgn_min (hw : 0 < w) : sgn w (2 ^ (w - 1)) = -2 ^ (w - 1) := by
  have hpos : (0 : Int) < 2 ^ (w - 1) := by positivity
  rw [← unsgn_min hw, sgn_unsgn hw le_rfl (by omega)]

end

/-! Vector elements. -/

/-- The pattern and event that the integer z gives in a signed type of w bits, clamped: SAT_HIGH is 4 and SAT_LOW 5. -/
def Clamps (w : Nat) (z : Int) (r : Nat × Nat) : Prop :=
  ((2 : Int) ^ (w - 1) - 1 < z → r = (2 ^ (w - 1) - 1, 4)) ∧ (z < -(2 : Int) ^ (w - 1) → r = (2 ^ (w - 1), 5)) ∧
  (-(2 : Int) ^ (w - 1) ≤ z → z ≤ (2 : Int) ^ (w - 1) - 1 → r.1 < 2 ^ w ∧ sgn w r.1 = z ∧ r.2 = 0)

section
variable {w : Nat} {z : Int}

theorem sat_of_range (hlo : -(2 : Int) ^ (w - 1) ≤ z) (hhi : z ≤ (2 : Int) ^ (w - 1) - 1) : sat w z = (unsgn w z, 0) := by
  simp [sat, outRange, clampEv, hlo.not_gt, hhi.not_gt]

variable (hw : 0 < w)
include hw

theorem sat_of_high (h : (2 : Int) ^ (w - 1) - 1 < z) : sat w z = (2 ^ (w - 1) - 1, 4) := by
  have hmax : unsgn w ((2 ^ (w - 1) : Nat) - 1) = 2 ^ (w - 1) - 1 := by
    rw [← Nat.cast_pred (Nat.two_pow_pos _)]
    exact unsgn_natCast ((Nat.sub_le _ _).trans_lt (Nat.two_pow_pred_lt_two_pow hw))
  have hclamp : ((2 ^ (w - 1) : Nat) : Int) - 1 < z := by exact_mod_cast h
  simp only [sat, outRange, clampEv, Bool.false_eq_true, if_false, gt_iff_lt, hclamp, if_true, hmax]

theorem sat_of_low (h : z < -(2 : Int) ^ (w - 1)) : sat w z = (2 ^ (w - 1), 5) := by
  have hpos : (0 : Int) < 2 ^ (w - 1) := by positivity
  have hhigh : ¬ (2 : Int) ^ (w - 1) - 1 < z := by omega
  simp [sat, outRange, clampEv, hhigh, h, unsgn_min hw]

theorem clamps_sat : Clamps w z (sat w z) := by
  refine ⟨sat_of_high hw, sat_of_low hw, fun hlo hhi => ?_⟩
  rw [sat_of_range hlo hhi]
  exact ⟨unsgn_lt w z, sgn_unsgn hw hlo (by omega), rfl⟩

end

theorem eight_mul_tySize_pos (t : Nat) : 0 < 8 * tySize t := by
  unfold tySize
  split <;> decide

section
variable {t : Nat} (ht : isFloat t = false) (a b : Nat)

include ht

theorem vxBinary_add : vxBinary 1 t a b = ((a + b) % 2 ^ (8 * tySize t), 0) := by
  have hsum : sgn (8 * tySize t) a + sgn (8 * tySize t) b ≡ (a + b : Nat) [ZMOD 2 ^ (8 * tySize t)] := by
    push_cast
    exact (sgn_modEq _ a).add (sgn_modEq _ b)
  simp [vxBinary, ht, unsgn_of_modEq hsum]

theorem vxBinary_sub (hb : b < 2 ^ (8 * tySize t)) :
    vxBinary 2 t a b = ((a + 2 ^ (8 * tySize t) - b) % 2 ^ (8 * tySize t), 0) := by
  have hdiff : sgn (8 * tySize t) a - sgn (8 * tySize t) b ≡ (a + 2 ^ (8 * tySize t) - b : Nat)
      [ZMOD 2 ^ (8 * tySize t)] := by
    rw [Nat.cast_sub (hb.le.trans (Nat.le_add_left _ _))]
    push_cast
    exact ((sgn_modEq _ a).trans Int.add_modEq_right.symm).sub (sgn_modEq _ b)
  simp [vxBinary, ht, unsgn_of_modEq hdiff]

theorem vxBinary_mul : vxBinary 3 t a b = (a * b % 2 ^ (8 * tySize t), 0) := by
  have hprod : sgn (8 * tySize t) a * sgn (8 * tySize t) b ≡ (a * b : Nat) [ZMOD 2 ^ (8 * tySize t)] := by
    push_cast
    exact (sgn_modEq _ a).mul (sgn_modEq _ b)
  simp [vxBinary, ht, unsgn_of_modEq hprod]

theorem vxBinary_addSat : vxBinary 8 t a b = sat (8 * tySize t) (sgn (8 * tySize t) a + sgn (8 * tySize t) b) := by
  simp [vxBinary, ht]

theorem vxBinary_subSat : vxBinary 9 t a b = sat (8 * tySize t) (sgn (8 * tySize t) a - sgn (8 * tySize t) b) := by
  simp [vxBinary, ht]

variable (imm : Nat) (blk : List Byte) (i : Nat)

theorem vxUnary_abs : vxUnary 0x10 t imm blk i a = sat (8 * tySize t) |sgn (8 * tySize t) a| := by
  simp [vxUnary, ht]

theorem vxUnary_neg : vxUnary 0x11 t imm blk i a = sat (8 * tySize t) (-(sgn (8 * tySize t) a)) := by
  simp [vxUnary, ht]

end

/-! Accumulators. -/

/-- The value lies in the range of the pass's accumulators. -/
def Pass.Holds (p : Pass) (v : Int) : Prop := p.accLo ≤ v ∧ v ≤ p.accHi

/-- What a WRAP accumulator reads after the exact sum v. -/
def Pass.wrapped (p : Pass) (v : Int) : Int := if p.signed then sgn p.accW (unsgn p.accW v) else unsgn p.accW v

/-- A SAT accumulator and its saturation state after one product more. -/
def Pass.satAdd (p : Pass) (r : Int × Nat) (x : Int × Int) : Int × Nat :=
  if r.1 + x.1 * x.2 > p.accHi then (p.accHi, 1) else if r.1 + x.1 * x.2 < p.accLo then (p.accLo, 2) else (r.1 + x.1 * x.2, r.2)

/-- The exact sum after the first n products. -/
def partialSum (start : Int) (xs : List (Int × Int)) (n : Nat) : Int := start + ((xs.take n).map fun x => x.1 * x.2).sum

@[simp] theorem partialSum_zero (start : Int) (xs : List (Int × Int)) : partialSum start xs 0 = start := by simp [partialSum]

@[simp] theorem partialSum_cons_succ (start : Int) (x : Int × Int) (xs : List (Int × Int)) (n : Nat) :
    partialSum start (x :: xs) (n + 1) = partialSum (start + x.1 * x.2) xs n := by
  simp [partialSum, add_assoc]

section
variable (p : Pass) (start v : Int) (st : Nat) (as bs : List Int)

theorem Pass.accW_pos : 0 < p.accW := by
  rw [Pass.accW]
  split <;> decide

theorem Pass.accHi_eq : p.accHi = p.accLo + 2 ^ p.accW - 1 := by
  have htwice := mul_pow_sub_one p.accW_pos.ne' (2 : Int)
  rw [Pass.accHi, Pass.accLo]
  push_cast
  split <;> omega

theorem Pass.wrapped_modEq : p.wrapped v ≡ v [ZMOD 2 ^ p.accW] := by
  rw [Pass.wrapped]
  split
  · exact (sgn_modEq _ _).trans (unsgn_modEq _ v)
  · exact unsgn_modEq _ v

theorem Pass.holds_wrapped : p.Holds (p.wrapped v) := by
  have hlt := unsgn_lt p.accW v
  obtain ⟨hlo, hhi⟩ := sgn_range (v := unsgn p.accW v) p.accW_pos
  rw [Pass.Holds, Pass.accLo, Pass.accHi, Pass.wrapped]
  zify at *
  split <;> omega

variable {v} in
theorem Pass.Holds.wrapped_eq (h : p.Holds v) : p.wrapped v = v := by
  have hhi := p.accHi_eq
  obtain ⟨hlo, hle⟩ := h
  obtain ⟨hlo', hle'⟩ := p.holds_wrapped v
  exact eq_of_modEq_of_range (p.wrapped_modEq v) hlo' (by omega) hlo (by omega)

variable {p} in
theorem Pass.accumulate_wrap (h : p.wrap = true) :
    p.accumulate start st as bs = (p.wrapped (partialSum start (as.zip bs) (as.zip bs).length), st) := by
  rw [Pass.accumulate, if_pos h, partialSum, List.take_length, List.sum_eq_foldl, List.foldl_map]
  rfl

variable {p} in
theorem Pass.accumulate_sat (h : p.wrap = false) : p.accumulate start st as bs = (as.zip bs).foldl p.satAdd (start, st) := by
  rw [Pass.accumulate, if_neg (Bool.not_eq_true _ ▸ h)]
  rfl

theorem Pass.holds_satAdd (r : Int × Nat) (x : Int × Int) : p.Holds (p.satAdd r x).1 := by
  have hrange : p.accLo ≤ p.accHi := by
    have hpos : (0 : Int) < 2 ^ p.accW := by positivity
    have hhi := p.accHi_eq
    omega
  rw [Pass.satAdd]
  split
  case isTrue => exact ⟨hrange, le_rfl⟩
  case isFalse hhigh =>
    split
    case isTrue => exact ⟨le_rfl, hrange⟩
    case isFalse hlow => exact ⟨not_lt.1 hlow, not_lt.1 hhigh⟩

variable {p} in
theorem Pass.satAdd_of_holds {r : Int × Nat} {x : Int × Int} (h : p.Holds (r.1 + x.1 * x.2)) :
    p.satAdd r x = (r.1 + x.1 * x.2, r.2) := by
  rw [Pass.satAdd, if_neg h.2.not_gt, if_neg h.1.not_gt]

variable {p} in
theorem Pass.holds_foldl_satAdd (xs : List (Int × Int)) {r : Int × Nat} (h : p.Holds r.1) :
    p.Holds (xs.foldl p.satAdd r).1 := by
  induction xs generalizing r with
  | nil => exact h
  | cons x xs ih => exact ih (p.holds_satAdd r x)

variable {p} in
/-- Where no partial sum leaves the range, no product is clamped. -/
theorem Pass.foldl_satAdd_of_holds (xs : List (Int × Int)) (h : ∀ n ≤ xs.length, p.Holds (partialSum start xs n)) :
    xs.foldl p.satAdd (start, st) = (partialSum start xs xs.length, st) := by
  induction xs generalizing start with
  | nil => simp
  | cons x xs ih =>
    have hfirst : p.Holds (start + x.1 * x.2) := by simpa using h 1 (by simp)
    rw [List.foldl_cons, Pass.satAdd_of_holds hfirst, List.length_cons, partialSum_cons_succ]
    exact ih _ fun n hn => by simpa using h (n + 1) (by simpa using hn)

variable {p start} in
theorem Pass.holds_accumulate (h : p.Holds start) : p.Holds (p.accumulate start st as bs).1 := by
  cases hwrap : p.wrap with
  | true => rw [Pass.accumulate_wrap _ _ _ _ hwrap]; exact p.holds_wrapped _
  | false => rw [Pass.accumulate_sat _ _ _ _ hwrap]; exact Pass.holds_foldl_satAdd _ h

variable {p} in
theorem Pass.accumulate_of_holds (h : ∀ n ≤ (as.zip bs).length, p.Holds (partialSum start (as.zip bs) n)) :
    p.accumulate start st as bs = (partialSum start (as.zip bs) (as.zip bs).length, st) := by
  cases hwrap : p.wrap with
  | true => rw [Pass.accumulate_wrap _ _ _ _ hwrap, (h _ le_rfl).wrapped_eq]
  | false => rw [Pass.accumulate_sat _ _ _ _ hwrap, Pass.foldl_satAdd_of_holds _ _ _ h]

end

/-- Settles O52: the exact integer's residue or its clamp for each element, and the exact sum's residue or its clamped steps for an
accumulator. -/
theorem integerArithmeticIsExact : Obligations.IntegerArithmeticIsExact := by
  refine ⟨?elements, ?accumulators⟩
  case elements =>
    intro t ht a b w _ hb hi lo clamped
    have hw : 0 < w := eight_mul_tySize_pos t
    have hf : isFloat t = false := (by decide : ∀ t ∈ [4, 5, 6], isFloat t = false) t ht
    have hmin : sat w (2 ^ (w - 1)) = (2 ^ (w - 1) - 1, 4) := sat_of_high hw (by omega)
    refine ⟨vxBinary_add hf a b, vxBinary_sub hf a b hb, vxBinary_mul hf a b, ?_, ?_, fun imm blk i => ⟨?_, ?_, ?_, ?_⟩⟩
    · rw [vxBinary_addSat hf]
      exact clamps_sat hw
    · rw [vxBinary_subSat hf]
      exact clamps_sat hw
    · rw [vxUnary_abs hf]
      exact clamps_sat hw
    · rw [vxUnary_neg hf]
      exact clamps_sat hw
    · rw [vxUnary_abs hf, sgn_min hw, abs_neg, abs_of_nonneg (by positivity)]
      exact hmin
    · rw [vxUnary_neg hf, sgn_min hw, neg_neg]
      exact hmin
  case accumulators =>
    intro p start st as bs hlo hhi sum r
    obtain ⟨hlo', hhi'⟩ := Pass.holds_accumulate st as bs ⟨hlo, hhi⟩
    refine ⟨hlo', hhi', fun hwrap => ?_, fun hsum => Pass.accumulate_of_holds start st as bs hsum⟩
    have hr : r = (p.wrapped (sum (as.zip bs).length), st) := Pass.accumulate_wrap start st as bs hwrap
    rw [hr]
    exact ⟨rfl, (p.wrapped_modEq _).symm.dvd⟩

end Sys2Proof.Machine
end

section
/-!
The claims about every command and every step: that it goes on, what it keeps of the state, and the command that it runs.
-/
namespace Sys2Proof.Machine

open Sys2Proof

/-- Settles O1: `step` runs the front command on the rest of the queue, and idles on an empty one. -/
theorem frontCommandRuns : Obligations.FrontCommandRuns :=
  ⟨fun _ _ _ => rfl, fun s hs => ⟨s.idle, by simp [step, hs], rfl, rfl⟩⟩

/-- Settles O3: `exec_keeps` names the next state of every command. -/
theorem everyCommandAnswersNext : Obligations.EveryCommandAnswersNext := by
  intro c s
  obtain ⟨t, ht, -⟩ := exec_keeps c s
  exact ⟨t, ht⟩

/-- Settles O4: `Kept` carries the canonical form, and no queue of commands is part of it. -/
theorem stepKeepsCanonicalForm : Obligations.StepKeepsCanonicalForm := by
  intro s t hs ht
  obtain ⟨u, hu, hk⟩ := step_keeps s
  obtain rfl : u = t := Host.Outcome.next.inj (hu.symm.trans ht)
  exact hk.canonical hs

/-- Settles O6: every command but the resets of R757 is steady, and a steady state keeps the latch. -/
theorem safeStateIsLatched : Obligations.SafeStateIsLatched := by
  intro s t c rest hp hsafe hc ht
  obtain ⟨u, hu, hk⟩ := exec_continues (.refl { s with pending := rest }) hc
  have hstep : step s = exec c { s with pending := rest } := by unfold step; rw [hp]
  obtain rfl : u = t := Host.Outcome.next.inj (hu.symm.trans (hstep.symm.trans ht))
  exact hk.safe hsafe

end Sys2Proof.Machine
end

section
/-!
What raising an error changes: the aggregator, events and interrupts, the counts of errors, and the ERR_N latch.
-/
namespace Sys2Proof.Machine

open Sys2Proof

/-- The objects that raising an error counts in. -/
def errorCounts : List Nat :=
  [Obj.ERR_COUNT_CORRECTED, Obj.ERR_COUNT_DEFERRED, Obj.ERR_COUNT_CONTAINED, Obj.ERR_COUNT_FATAL, Obj.OAP_OVERRUNS]

theorem classCounter_mem_errorCounts (c : ErrClass) : classCounter c ∈ errorCounts := by cases c <;> decide

/-- `t` is `s` but for what raising an error that is not FATAL changes. -/
def Told (s t : State) : Prop :=
  ∃ o d bl sh ov q vs m a e, t = { s with
      out := o, dict := d, blocks := bl, oap := { s.oap with shadow := sh, overridden := ov, evtQ := q }
      host := { s.host with vectors := vs, irqMultihit := m }, agg := a, safety := { s.safety with errN := e } } ∧
    ∀ k, k ∉ errorCounts → t.obj k = s.obj k

section
variable {s t u : State}

theorem Told.refl (s : State) : Told s s := ⟨_, _, _, _, _, _, _, _, _, _, rfl, fun _ _ => rfl⟩

theorem Told.trans (h : Told s t) (h' : Told t u) : Told s u := by
  obtain ⟨o, d, bl, sh, ov, q, vs, m, a, e, ht, hk⟩ := h
  obtain ⟨o', d', bl', sh', ov', q', vs', m', a', e', hu, hk'⟩ := h'
  refine ⟨o', d', bl', sh', ov', q', vs', m', a', e', ?_, fun k hn => (hk' k hn).trans (hk k hn)⟩
  rw [hu, ht]

theorem Told.ite {c : Prop} [Decidable c] (h : Told s t) (h' : Told s u) : Told s (if c then t else u) := by
  split <;> assumption

theorem Told.of_noted (h : Noted (· ∈ errorCounts) s t) : Told s t := by
  obtain ⟨o, d, bl, sh, ov, q, vs, ht, hk⟩ := h
  exact ⟨o, d, bl, sh, ov, q, vs, _, _, _, ht, hk⟩

theorem Told.setObj {key : Nat} (v : Nat) (hk : key ∈ errorCounts) : Told s (s.setObj key v) :=
  .of_noted ((Noted.refl s).setObj hk)

theorem State.recordError_told (s : State) (src : Nat) (e : ErrInfo) : Told s (s.recordError src e) :=
  ⟨_, _, _, _, _, _, _, _, _, _, rfl, fun _ _ => rfl⟩

theorem State.routeError_told (s : State) (src : Nat) : Told s (s.routeError src) := by
  simp only [State.routeError]
  split
  · exact .refl s
  · refine Told.trans (.ite (.refl s) ?_) (.of_noted (Noted.refl _).raiseVector)
    exact ⟨_, _, _, _, _, _, _, _, _, _, rfl, fun _ _ => rfl⟩

theorem State.reportError_told (s : State) (src : Nat) (e : ErrInfo) : Told s (s.reportError src e) := by
  simp only [State.reportError]
  refine .ite (Told.trans ?_ ((Told.of_noted ((Noted.refl _).sendEvent (by decide))).trans (State.routeError_told _ _))) (.refl s)
  exact ⟨_, _, _, _, _, _, _, _, _, _, rfl, fun _ _ => rfl⟩

/-- The part of the reaction to an error that every class has. -/
def State.tell (s : State) (src : Nat) (e : ErrInfo) : State :=
  let c := sourceClass src
  let s := ((s.recordError src e).bump (classCounter c)).reportError src e
  if s.errNEnabled c then { s with safety := { s.safety with errN := true } } else s

theorem State.tell_told (s : State) (src : Nat) (e : ErrInfo) : Told s (s.tell src e) := by
  unfold State.tell
  extract_lets c t
  have ht : Told s t :=
    ((s.recordError_told src e).trans (.setObj _ (classCounter_mem_errorCounts c))).trans (State.reportError_told _ _ _)
  exact .ite (ht.trans ⟨_, _, _, _, _, _, _, _, _, _, rfl, fun _ _ => rfl⟩) ht

theorem State.raise_eq_tell (s : State) {src : Nat} (e : ErrInfo) (h : sourceClass src ≠ .fatal) : s.raise src e = s.tell src e := by
  simp only [State.raise, State.tell, beq_eq_false_iff_ne.2 h, Bool.false_eq_true, if_false]

theorem State.raise_fatal (s : State) {src : Nat} (e : ErrInfo) (h : sourceClass src = .fatal) :
    s.raise src e = (s.tell src e).enterSafe := by
  simp only [State.raise, State.tell, h, beq_self_eq_true, if_true]

/-- Raising an error that is not FATAL changes only what `Told` names. -/
theorem State.raise_told (s : State) {src : Nat} (e : ErrInfo) (h : sourceClass src ≠ .fatal) : Told s (s.raise src e) :=
  s.raise_eq_tell e h ▸ s.tell_told src e

end

end Sys2Proof.Machine
end

section
/-!
The safety monitor, the test schedule, aging, the coolant watch and the test port.
-/
namespace Sys2Proof.Machine

open Sys2Proof

theorem State.abortTests_keeps {α : Type} (π : State → α) (hu : ∀ s u b, π (State.setUcb s u b) = π s)
    (ho : ∀ s k v, π (State.setObj s k v) = π s) (s : State) : π s.abortTests = π s := by
  unfold State.abortTests
  refine foldl_keeps π (fun u b => ?_) _ s
  dsimp only
  split
  · exact (ho _ _ _).trans ((ho _ _ _).trans (hu _ _ _))
  · rfl

theorem State.enterSafe_monitorOk (s : State) : s.enterSafe.safety.monitorOk = s.safety.monitorOk := by
  have h : s.abortTests.safety = s.safety := s.abortTests_keeps State.safety (fun _ _ _ => rfl) (fun _ _ _ => rfl)
  simp only [State.enterSafe]
  revert h
  generalize s.abortTests = t
  intro h
  split
  · rfl
  · rw [← h]

/-- A FATAL error enters the safe state, and leaves what the monitor found. -/
theorem State.raise_fatal_spec (s : State) {src : Nat} (e : ErrInfo) (h : sourceClass src = .fatal) :
    (s.raise src e).safety.safe = true ∧ (s.raise src e).safety.monitorOk = s.safety.monitorOk := by
  rw [s.raise_fatal e h]
  obtain ⟨_, _, _, _, _, _, _, _, _, _, ht, -⟩ := s.tell_told src e
  exact ⟨State.enterSafe_safe _, (State.enterSafe_monitorOk _).trans (by rw [ht])⟩

/-- The test instructions select themselves under BOOT_MODE 0b100. -/
theorem State.selectTest_of_boundary {s : State} (i : JInstr) (h : s.obj Obj.BOOT_MODE_SAMPLED = 4) :
    s.selectTest i = s.select i := if_pos h

theorem State.selectTest_of_other {s : State} (i : JInstr) (h : s.obj Obj.BOOT_MODE_SAMPLED ≠ 4) :
    s.selectTest i = (s.select .bypass).bump Obj.JTAG_REFUSED := if_neg h

/-- The state after the readings of a sample, before their maximum is noted. -/
def State.aged (s : State) (rs : List AgeReading) : State := rs.foldl (fun s r => s.ageDomain r) s

/-- A first reading that is neither over the limit nor a warning. -/
theorem State.aged_single {s : State} {d mv : Nat} (hd : s.safety.drift = []) (ho : s.safety.driftOver = []) (hmv : 0 < mv) :
    s.aged [{ domain := d, driftMv := mv, overLimit := false }] = { s with safety := { s.safety with drift := [(d, mv)] } } := by
  have hset : SMap.set 0 ([] : SMap Nat) d mv = [(d, mv)] := by simp [SMap.set, SMap.erase, SMap.ins, hmv.ne']
  simp [State.aged, State.ageDomain, hd, ho, hset]

/-- Settles O60: each command's occasion holds and its effect is read off. -/
theorem careCommandsAct : Obligations.CareCommandsAct := by
  intro s
  refine ⟨?log, ?monitor, ?schedule, ?firstSample, ?samples, ?hours, ?coolant, ?testPort⟩
  case log =>
    intro v hst hsafe hv
    show execLogReadWrite v s = _
    simp only [execLogReadWrite, occ, hst, hsafe, hv, decide_true, Bool.not_false, Bool.and_self, if_true]
  case monitor =>
    intro hst
    have hocc : decide (1 ≤ s.stage) = true := decide_eq_true hst
    refine ⟨.of_occ rfl hocc ⟨s.obj_bump_same _ _, rfl⟩, .of_occ rfl hocc ?_, .of_occ rfl hocc ?_⟩
    · exact (s.raise_fatal_spec (src := Es.aggregatorFault) _ (by decide)).1
    · exact State.raise_fatal_spec (src := Es.monitorFault) _ _ (by decide)
  case schedule =>
    intro cls u hlive htest hint hfind
    show execSelftestScheduleTick cls s = _
    simp [execSelftestScheduleTick, hfind, occ, hlive, htest, hint]
  case firstSample =>
    intro d mv hst hd hmv hwarn hmax hdmax ho
    refine .of_occ rfl (decide_eq_true hst) ?_
    have hage := State.aged_single (d := d) hd ho hmv
    unfold State.aged at hage
    simp only [hage]
    have hfew : ([(d, mv)].filter fun e => decide (s.obj Obj.AGING_WARN_MV ≤ e.2)).length = 0 := by
      simp [hwarn]
    refine ⟨rfl, ?_, ?_, ?_, rfl⟩
    · rw [State.obj_setObj_other _ _ _ _ (by decide), State.obj_setObj_other _ _ _ _ (by decide), State.obj_setObj_same]
      simp [hmv]; omega
    · rw [State.obj_setObj_other _ _ _ _ (by decide), State.obj_setObj_same]
      simp [hmv]; omega
    · rw [State.obj_setObj_same]
      exact congrArg (· % 2 ^ 64) hfew
  case samples =>
    intro rs hst
    exact .of_occ rfl (decide_eq_true hst) rfl
  case hours =>
    intro hcold hbits
    exact .of_occ rfl (by simp [hcold, hbits]) ⟨rfl, rfl, rfl⟩
  case coolant =>
    intro hcold hwatch hfall
    refine .of_occ rfl (by simp [hcold, hwatch, hfall]) ?_
    simp only [State.forgetInlet, if_neg hwatch]
    exact ⟨rfl, rfl, State.obj_bump_same _ _ _⟩
  case testPort =>
    intro hst
    have hocc : decide (1 ≤ s.stage) = true := decide_eq_true hst
    refine ⟨.of_occ rfl hocc ⟨rfl, rfl⟩, .of_occ rfl hocc ⟨rfl, rfl⟩, fun a b => .of_occ rfl hocc ⟨rfl, rfl, rfl, rfl⟩,
      fun hboot => ?_, fun hboot => ?_⟩
    · have hsel (i : JInstr) : (s.selectTest i).cool.jtag = i ∧ (s.selectTest i).dict = s.dict := by
        rw [State.selectTest_of_boundary i hboot]
        exact ⟨rfl, rfl⟩
      exact ⟨.of_occ rfl hocc (hsel _), .of_occ rfl hocc (hsel _), .of_occ rfl hocc (hsel _), .of_occ rfl hocc (hsel _),
        .of_occ rfl hocc (hsel _)⟩
    · have hsel (i : JInstr) : (s.selectTest i).cool.jtag = .bypass ∧
          (s.selectTest i).obj Obj.JTAG_REFUSED = satBump 32 (s.obj Obj.JTAG_REFUSED) 1 := by
        rw [State.selectTest_of_other i hboot]
        exact ⟨rfl, State.obj_bump_same _ _ _⟩
      simp only [List.forall_mem_cons]
      exact ⟨.of_occ rfl hocc (hsel .extest), .of_occ rfl hocc (hsel .extestPulse), .of_occ rfl hocc (hsel .extestTrain),
        .of_occ rfl hocc (hsel .highz), .of_occ rfl hocc (hsel .clamp), nofun⟩

end Sys2Proof.Machine
end

section
/-!
Cipher arithmetic: Barrett's reduction, the check of a modulus chain, the chain table's writes, and the random source.
-/
namespace Sys2Proof.Machine

open Sys2Proof

/-! Reduction. -/

/-- The quotient that Barrett's reduction estimates, B being half the power of two above q, falls short by less than 3. -/
theorem barrett_estimate {B q x : Nat} (hlo : B ≤ q) (hB : 0 < B) (hx : x < 4 * B * B) :
    x / B * (4 * B * B / q) / (4 * B) * q ≤ x ∧ x < x / B * (4 * B * B / q) / (4 * B) * q + 3 * q := by
  have hq : 0 < q := by omega
  obtain ⟨A, hA⟩ : ∃ A, x / B = A := ⟨_, rfl⟩
  obtain ⟨m, hm⟩ : ∃ m, 4 * B * B / q = m := ⟨_, rfl⟩
  obtain ⟨e, he⟩ : ∃ e, A * m / (4 * B) = e := ⟨_, rfl⟩
  rw [hA, hm, he]
  have hA' : B * A + x % B = x := hA ▸ Nat.div_add_mod x B
  have hm' : q * m + 4 * B * B % q = 4 * B * B := hm ▸ Nat.div_add_mod (4 * B * B) q
  have he' : 4 * B * e + A * m % (4 * B) = A * m := he ▸ Nat.div_add_mod (A * m) (4 * B)
  have h1 : x % B < B := Nat.mod_lt _ hB
  have h2 : 4 * B * B % q < q := Nat.mod_lt _ hq
  have h3 : A * m % (4 * B) < 4 * B := Nat.mod_lt _ (by omega)
  generalize x % B = r1 at hA' h1
  generalize 4 * B * B % q = r2 at hm' h2
  generalize A * m % (4 * B) = r3 at he' h3
  have hA4 : A < 4 * B := by rw [← hA]; exact Nat.div_lt_of_lt_mul (by linarith)
  -- what the estimate leaves, 4B times
  have hleft : 4 * B * x = 4 * B * (e * q) + (4 * B * r1 + A * r2 + r3 * q) := by
    calc 4 * B * x = 4 * B * (B * A + r1) := by rw [hA']
      _ = A * (4 * B * B) + 4 * B * r1 := by ring
      _ = A * (q * m + r2) + 4 * B * r1 := by rw [hm']
      _ = q * (A * m) + A * r2 + 4 * B * r1 := by ring
      _ = q * (4 * B * e + r3) + A * r2 + 4 * B * r1 := by rw [he']
      _ = 4 * B * (e * q) + (4 * B * r1 + A * r2 + r3 * q) := by ring
  have hB4 : 0 < 4 * B := by omega
  have hsmall : 4 * B * r1 + A * r2 + r3 * q < 4 * B * (3 * q) := by
    have ha : 4 * B * r1 < 4 * B * q := Nat.mul_lt_mul_of_pos_left (by omega) hB4
    have hb : A * r2 ≤ 4 * B * q := Nat.mul_le_mul hA4.le h2.le
    have hc : r3 * q ≤ 4 * B * q := Nat.mul_le_mul_right _ h3.le
    linarith
  constructor
  · exact Nat.le_of_mul_le_mul_left (by omega) hB4
  · refine Nat.lt_of_mul_lt_mul_left (a := 4 * B) ?_
    rw [Nat.mul_add]
    omega

/-- A remainder short of 3q is reduced by two conditional subtractions. -/
theorem mod_of_two_subtractions {q y : Nat} (h : y < 3 * q) :
    (let r := if q ≤ y then y - q else y; if q ≤ r then r - q else r) = y % q := by
  by_cases h1 : q ≤ y
  · by_cases h2 : q ≤ y - q
    · simp only [h1, h2, if_true]
      rw [Nat.mod_eq_sub_mod h1, Nat.mod_eq_sub_mod h2, Nat.mod_eq_of_lt (by omega)]
    · simp only [h1, h2, if_true, if_false]
      rw [Nat.mod_eq_sub_mod h1, Nat.mod_eq_of_lt (by omega)]
  · simp only [h1, if_false]
    rw [Nat.mod_eq_of_lt (by omega)]

/-- Barrett's reduction is exact for moduli short of 60 bits. -/
theorem barrett_eq_mod {q x : Nat} (hq : 0 < q) (hhi : q < 2 ^ 60) (hx : x < 2 ^ (2 * (Nat.log2 q + 1))) : barrett q x = x % q := by
  have hlog : 2 ^ Nat.log2 q ≤ q := Nat.log2_self_le hq.ne'
  have hsq : 2 ^ (2 * (Nat.log2 q + 1)) = 4 * 2 ^ Nat.log2 q * 2 ^ Nat.log2 q := by ring
  have hup : 2 ^ (Nat.log2 q + 1 + 1) = 4 * 2 ^ Nat.log2 q := by ring
  rw [hsq] at hx
  obtain ⟨hle, hlt⟩ := barrett_estimate hlog (Nat.two_pow_pos _) hx
  simp only [barrett, hsq, hup, Nat.add_sub_cancel]
  generalize x / 2 ^ Nat.log2 q * (4 * 2 ^ Nat.log2 q * 2 ^ Nat.log2 q / q) / (4 * 2 ^ Nat.log2 q) = e at hle hlt
  have hred : (x + 2 ^ 64 * (e + 1) - e * q) % 2 ^ 64 = x - e * q := by
    rw [Nat.sub_add_comm hle, Nat.add_mul_mod_self_left, Nat.mod_eq_of_lt (by omega)]
  rw [hred]
  refine (mod_of_two_subtractions (by omega)).trans ?_
  rw [mul_comm e q] at hle ⊢
  exact Nat.sub_mul_mod hle

/-! The check of a chain. -/

theorem squarings_eq_pow (q n b : Nat) : squarings q n b = b ^ 2 ^ n % q := by
  induction n generalizing b with
  | zero => simp [squarings]
  | succ n ih => rw [squarings, ih, ← Nat.pow_mod, ← sq, ← pow_mul, ← pow_succ']

/-- What R553 asks of modulus r of a chain for a ring of dimension 2^n. -/
def Chain.GoodModulus (x : Chain) (n r : Nat) : Prop :=
  2 ^ 31 < x.qAt r ∧ x.qAt r < 2 ^ 60 ∧ x.qAt r % 2 = 1 ∧ x.qAt r % (2 * 2 ^ n) = 1 ∧ x.psiAt r < x.qAt r ∧
    x.psiAt r ^ 2 ^ n % x.qAt r = x.qAt r - 1 ∧ ∀ i, i < r → Nat.gcd (x.qAt i) (x.qAt r) = 1

theorem Chain.badModulus_eq_false_iff (x : Chain) (n r : Nat) : x.badModulus n r = false ↔ x.GoodModulus n r := by
  simp only [Chain.badModulus, Chain.GoodModulus, squarings_eq_pow, Bool.or_eq_false_iff, decide_eq_false_iff_not, not_le,
    beq_eq_false_iff_ne, ne_eq, Nat.mod_two_ne_zero, not_not, List.any_eq_false, List.mem_range, decide_eq_true_eq, pow_succ', and_assoc]

theorem Chain.check_eq_ok_iff (x : Chain) (v : Nat) : (x.check v).1 = Sc.ok ↔
    bits v 22 41 = 0 ∧ bits v 14 2 = 0 ∧ bits v 5 3 = 0 ∧ 10 ≤ bits v 0 5 ∧ bits v 0 5 ≤ 16 ∧ 1 ≤ bits v 8 6 ∧
    bits v 8 6 ≤ 48 ∧ bits v 16 6 < bits v 8 6 ∧ ∀ r, r < bits v 8 6 → x.GoodModulus (bits v 0 5) r := by
  unfold Chain.check
  extract_lets n count
  simp only [← Chain.badModulus_eq_false_iff, Bool.or_eq_true, decide_eq_true_eq]
  split_ifs with hres hrange
  · exact ⟨nofun, fun h => by omega⟩
  · exact ⟨nofun, fun h => by omega⟩
  · split
    · next r hr =>
      refine ⟨nofun, fun h => ?_⟩
      have hbad := List.find?_some hr
      have hmem := List.mem_range.1 (List.mem_of_find?_eq_some hr)
      rw [h.2.2.2.2.2.2.2.2 r hmem] at hbad
      cases hbad
    · next hnone =>
      refine ⟨fun _ => ?_, fun _ => rfl⟩
      have hall : ∀ r, r < count → x.badModulus n r = false := fun r hr =>
        Bool.eq_false_iff.2 (List.find?_eq_none.1 hnone r (List.mem_range.2 hr))
      refine ⟨?_, ?_, ?_, ?_, ?_, ?_, ?_, ?_, hall⟩ <;> omega

/-! Writes of the chain table. -/

theorem Completes.chainCtrlWrite {s : State} {c v : Nat} {P : State → Prop} (hst : 2 ≤ s.stage) (hsafe : s.safety.safe = false) (hc : c < 16) (hv : v < 2 ^ 64)
    (h : P (s.chainCtrl c v).2) : Completes (.chainCtrlWrite c v) s P := by
  rw [← Nat.mod_eq_of_lt hv] at h
  exact .of_occ rfl (by simp [State.chainUp, hst, hsafe, hc]) h

/-- Settles O55: the reduction by the estimate of its quotient, the check by its cases, a write by the answer of the check. -/
theorem chainsAreCheckedAndClosed : Obligations.ChainsAreCheckedAndClosed := by
  refine ⟨?reduction, ?product, ?check, ?write, ?closed, ?random⟩
  case reduction => exact fun q x hlo hhi hx => barrett_eq_mod (by omega) hhi hx
  case product =>
    intro q a b hlo hhi ha hb
    refine barrett_eq_mod (by omega) hhi ?_
    have hq : q < 2 ^ (Nat.log2 q + 1) := Nat.lt_log2_self
    calc a * b < 2 ^ (Nat.log2 q + 1) * 2 ^ (Nat.log2 q + 1) := Nat.mul_lt_mul'' (ha.trans hq) (hb.trans hq)
      _ = 2 ^ (2 * (Nat.log2 q + 1)) := by rw [← pow_add, two_mul]
  case check => exact Chain.check_eq_ok_iff
  case write =>
    intro s c v hst hsafe hc hv x reserved
    have hdone {P : State → Prop} (h : P (s.chainCtrl c v).2) : Completes (.chainCtrlWrite c v) s P :=
      .chainCtrlWrite hst hsafe hc hv h
    have hres : (bits v 22 41 ≠ 0 || bits v 14 2 ≠ 0 || bits v 5 3 ≠ 0) = true ↔ reserved := by
      simp [reserved, or_assoc]
    refine ⟨fun hset hok => hdone ?_, fun hset hbad => hdone ?_, fun hclear hr => hdone ?_, fun hclear hr hidle => hdone ?_,
      fun hclear hr hbusy => hdone ?_⟩
    · have hok' : ¬ ((s.chain c).check v).1 ≠ 0 := fun h => h hok
      simp only [State.chainCtrl, hset, if_true, if_neg hok']
      exact ⟨s.chain_setChain_same c _, fun d hd => s.chain_setChain_other c d _ hd, rfl, rfl, rfl⟩
    · have hbad' : ((s.chain c).check v).1 ≠ 0 := hbad
      simp only [State.chainCtrl, hset, if_true, if_pos hbad']
      exact ⟨fun _ => rfl, rfl, State.obj_bump_same _ _ _, rfl⟩
    · simp only [State.chainCtrl, hclear, Bool.false_eq_true, if_false, if_pos (hres.2 hr)]
      exact ⟨fun _ => rfl, by simp [State.chainReject, State.bump], State.obj_bump_same _ _ _, rfl⟩
    · simp only [State.chainCtrl, hclear, Bool.false_eq_true, if_false, if_neg (fun h => hr (hres.1 h)), x, hidle]
      rw [State.chain_setChain_same]
      exact ⟨rfl, hclear, fun d hd => s.chain_setChain_other c d _ hd, rfl, rfl⟩
    · simp only [State.chainCtrl, hclear, Bool.false_eq_true, if_false, if_neg (fun h => hr (hres.1 h)), x, hbusy, if_true]
      rw [State.chain_setChain_same]
      exact ⟨rfl, by simp [Chain.open_], fun d hd => s.chain_setChain_other c d _ hd, rfl, rfl⟩
  case closed =>
    intro s c hc hclosing hidle
    exact .of_occ rfl (by simp [hc, hclosing, hidle])
      ⟨s.chain_setChain_same c _, fun d hd => s.chain_setChain_other c d _ hd, rfl, rfl⟩
  case random =>
    intro s hsafe
    refine ⟨fun hdown hheld => ⟨⟨{ s with drbg := { seeded := true, healthy := true, requests := 0 } }, ?_, rfl, rfl, rfl, rfl⟩, ?_⟩, fun hh => .of_occ rfl (by simp [hh, hsafe]) ⟨?_, rfl, ?_⟩⟩
    · show execDrbgSeed true s = _
      simp only [execDrbgSeed, hdown, hsafe, hheld, Bool.or_self, Bool.false_eq_true, if_false, if_true]
    · show execDrbgSeed false s = _
      simp only [execDrbgSeed, hdown, hsafe, hheld, Bool.or_self, Bool.false_eq_true, if_false]
    · obtain ⟨_, _, _, _, _, _, _, _, _, _, ht, -⟩ :=
        State.raise_told { s with drbg := { s.drbg with healthy := false } } (src := Es.drbgHealth) {} (by decide)
      rw [ht]
      exact Bool.and_false _
    · obtain ⟨_, _, _, _, _, _, _, _, _, _, ht, -⟩ :=
        State.raise_told { s with drbg := { s.drbg with healthy := false } } (src := Es.drbgHealth) {} (by decide)
      rw [ht]

end Sys2Proof.Machine
end

section
/-!
Moves of units: what of the state the moves of one unit leave as it is (R29, R309, R461).
-/
namespace Sys2Proof.Machine

open Sys2Proof

/-! Counting changes objects only, a control block its unit. -/

section
variable (s : State) (key n : Nat)

@[simp] theorem State.bump_mem : (s.bump key n).mem = s.mem := rfl
@[simp] theorem State.bump_timeNs : (s.bump key n).timeNs = s.timeNs := rfl
@[simp] theorem State.bump_tiles : (s.bump key n).tiles = s.tiles := rfl
@[simp] theorem State.ucb_bump (u : Nat) : (s.bump key n).ucb u = s.ucb u := rfl
@[simp] theorem State.tile_bump (t : Nat) : (s.bump key n).tile t = s.tile t := rfl
@[simp] theorem State.handOf_bump (t : Nat) : (s.bump key n).handOf t = s.handOf t := rfl
@[simp] theorem State.handOf_setUcb (u t : Nat) (b : Ucb) : (s.setUcb u b).handOf t = s.handOf t := rfl
@[simp] theorem State.runningOn_setObj (u : Nat) : (s.setObj key n).runningOn u = s.runningOn u := rfl
@[simp] theorem State.runningOn_bump (u : Nat) : (s.bump key n).runningOn u = s.runningOn u := rfl
@[simp] theorem State.dom_bump (u : Nat) : (s.bump key n).dom u = s.dom u := rfl
@[simp] theorem State.bump_sup : (s.bump key n).sup = s.sup := rfl

end

/-! Chains that end. -/

/-- The parts of the state that neither chains that end nor requests on the network enter. -/
def State.bystanders (s : State) := (s.mem, s.ucbs, s.tiles, s.ep, s.link, s.sup)

theorem Told.bystanders {s t : State} (h : Told s t) : t.bystanders = s.bystanders := by
  obtain ⟨_, _, _, _, _, _, _, _, _, _, rfl, -⟩ := h
  rfl

theorem Routed.bystanders {s t : State} (h : Routed s t) : t.bystanders = s.bystanders := by
  obtain ⟨_, _, _, _, _, _, rfl, -⟩ := h
  rfl

theorem State.bystanders_cancelWait (s : State) (w : Waiter) (m : Nat) : (s.cancelWait w m).bystanders = s.bystanders := by
  simp only [State.cancelWait]
  split
  · rfl
  · split
    · next h => exact (Routed.of_send h).bystanders.trans rfl
    · rfl

theorem State.bystanders_endChain (s : State) (e st : Nat) : (s.endChain e st).bystanders = s.bystanders := by
  unfold State.endChain
  extract_lets x st1 st2 s1 y s2 s3
  have h2 : s2.bystanders = s.bystanders := s.bystanders_cancelWait _ _
  have h3 : s3.bystanders = s.bystanders := by
    unfold s3
    split
    · exact h2
    · exact h2
  split
  · rfl
  · split
    · exact (State.raise_told _ _ (by decide)).bystanders.trans h3
    · exact h3

theorem State.mem_endChain (s : State) (e st : Nat) : (s.endChain e st).mem = s.mem := congrArg (·.1) (s.bystanders_endChain e st)
theorem State.ucb_endChain (s : State) (e st u : Nat) : (s.endChain e st).ucb u = s.ucb u :=
  congrArg (fun b : _ × SMap Ucb × _ => SMap.get ({} : Ucb) b.2.1 u) (s.bystanders_endChain e st)
theorem State.tile_endChain (s : State) (e st n : Nat) : (s.endChain e st).tile n = s.tile n :=
  congrArg (fun b : _ × _ × Tiles × _ => SMap.get ({} : Tile) b.2.2.1.mxt n) (s.bystanders_endChain e st)

/-! Moves of one unit. -/

/-- A view of the state that the moves of unit `u` keep: it does not show the state of `u`, its target or the state before a band,
nor its domain, its hand-over, chains, objects, shadowed writes or ports. -/
structure UnitFrame {α : Type} (π : State → α) (u : Nat) : Prop where
  ucb (s : State) (st : UState) (tg bb : Option UState) :
    π (s.setUcb u { s.ucb u with st := st, target := tg, beforeBand := bb }) = π s
  dom (s : State) (d : Domain) : π (s.setDom u d) = π s
  hand (s : State) (h : Hand) : π (s.setHand u h) = π s
  chain (s : State) (e st : Nat) : π (s.endChain e st) = π s
  obj (s : State) (k v : Nat) : π (s.setObj k v) = π s
  block (s : State) (k : Nat) (v : List Byte) : π (s.setBlock k v) = π s
  ports (s : State) (p : SMap Phy) : π { s with link := { s.link with ports := p } } = π s
  shadow (s : State) (m : SMap Nat) : π { s with oap := { s.oap with shadow := m } } = π s

section
variable {α : Type} {π : State → α} {u : Nat}

theorem UnitFrame.loadShadow (f : UnitFrame π u) (s : State) (key v : Nat) : π (s.loadShadow key v) = π s := by
  have h : π (if blockBytes key = 0 then s.setObj key v else s.setBlock key (leBytes (blockBytes key) v)) = π s := by
    split
    · exact f.obj _ _ _
    · exact f.block _ _ _
  simp only [State.loadShadow]
  split
  · exact (f.ports _ _).trans h
  · exact h

theorem UnitFrame.shadowLoad (f : UnitFrame π u) (s : State) (v : Nat) : π (s.shadowLoad v) = π s := by
  simp only [State.shadowLoad]
  split
  · rfl
  · exact (f.shadow _ _).trans (foldl_keeps π (fun t e => f.loadShadow t _ _) _ s)

theorem UnitFrame.enterReady (f : UnitFrame π u) (s : State) : π (s.enterReady u) = π s :=
  (f.shadowLoad _ u).trans ((f.ucb _ .ready none _).trans (f.dom _ _))

theorem UnitFrame.startDrain (f : UnitFrame π u) (s : State) (t : UState) : π (s.startDrain u t) = π s := by
  refine (f.dom _ _).trans (foldl_keeps π (fun v e => ?_) _ _)
  split
  · rfl
  · exact f.chain _ _ _

theorem UnitFrame.wake (f : UnitFrame π u) (s : State) : π (s.wake u) = π s := by
  simp only [State.wake]
  have hawake (d : Domain) : π (((s.setDom u d).setUcb u { s.ucb u with st := .ready, target := none }).bump Obj.WAKE_ABORTS) = π s :=
    (f.obj _ _ _).trans ((f.ucb (s.setDom u d) .ready none _).trans (f.dom _ _))
  split
  · exact hawake _
  · split
    · exact hawake _
    · split
      · rfl
      · exact (f.obj _ _ _).trans (f.dom _ _)
  · rfl
  · split
    · rfl
    · exact (f.obj _ _ _).trans (f.dom _ _)

theorem UnitFrame.unhood (f : UnitFrame π u) (s : State) : π (s.unhood u) = π s := by
  simp only [State.unhood]
  split
  · split
    · exact f.hand _ _
    · rfl
    · exact f.enterReady s
  · exact f.enterReady s

theorem UnitFrame.moveUnit (f : UnitFrame π u) (s : State) (t : UState) : π (s.moveUnit u t) = π s := by
  simp only [State.moveUnit]
  split
  · exact f.ucb s _ _ (some t)
  split
  · split
    · split
      · exact f.dom _ _
      · exact f.wake s
    · exact (f.wake _).trans (f.dom _ _)
    · exact f.dom _ _
    · split
      · exact f.unhood s
      · exact f.dom _ _
      · exact f.dom _ _
      · rfl
  · split
    · exact f.dom _ _
    · split
      · split
        · exact (f.ucb (s.setDom u _) .hooded none _).trans (f.dom _ _)
        · exact f.dom _ _
      · exact f.dom _ _
    · exact f.dom _ _
    · split
      · exact f.startDrain s _
      · split
        · rfl
        · exact f.dom _ _
      · split
        · rfl
        · split
          · exact f.dom _ _
          · exact f.dom _ _
      · split
        · rfl
        · split
          · exact f.dom _ _
          · exact f.dom _ _
      · rfl

theorem UnitFrame.restSpare (f : UnitFrame π u) (s : State) : π (s.restSpare u) = π s := by
  simp only [State.restSpare]
  split
  · split
    · exact f.moveUnit s _
    · exact f.moveUnit s _
    · exact f.moveUnit s _
  · rfl

end

/-- Memory is no part of a unit. -/
theorem unitFrame_mem (u : Nat) : UnitFrame State.mem u :=
  ⟨fun _ _ _ _ => rfl, fun _ _ => rfl, fun _ _ => rfl, fun s e st => s.mem_endChain e st, fun _ _ _ => rfl,
    fun _ _ _ => rfl, fun _ _ => rfl, fun _ _ => rfl⟩

/-- Nor is what another tile does. -/
theorem unitFrame_tile {u n : Nat} (h : n ≠ u) : UnitFrame (State.tile · n) u :=
  ⟨fun _ _ _ _ => rfl, fun _ _ => rfl, fun _ _ => SMap.get_set_other _ _ _ h,
    fun s e st => s.tile_endChain e st n, fun _ _ _ => rfl,
    fun _ _ _ => rfl, fun _ _ => rfl, fun _ _ => rfl⟩

/-- Nor is another unit's control block. -/
theorem unitFrame_ucb {u w : Nat} (h : w ≠ u) : UnitFrame (State.ucb · w) u :=
  ⟨fun _ _ _ _ => State.ucb_setUcb_other _ _ _ _ h, fun _ _ => rfl, fun _ _ => rfl,
    fun s e st => s.ucb_endChain e st w, fun _ _ _ => rfl,
    fun _ _ _ => rfl, fun _ _ => rfl, fun _ _ => rfl⟩

/-- What a control block holds of tests. -/
def Ucb.tests (b : Ucb) := (b.testWaits, b.beforeTest, b.lastPassNs)

/-- A unit's moves leave what its own control block holds of tests. -/
theorem unitFrame_tests (u : Nat) : UnitFrame (fun s => (s.ucb u).tests) u :=
  ⟨fun s _ _ _ => by rw [State.ucb_setUcb_same]; rfl, fun _ _ => rfl, fun _ _ => rfl,
    fun s e st => congrArg Ucb.tests (s.ucb_endChain e st u), fun _ _ _ => rfl,
    fun _ _ _ => rfl, fun _ _ => rfl, fun _ _ => rfl⟩

theorem State.tests_moveUnit (s : State) (u v : Nat) (t : UState) : ((s.moveUnit v t).ucb u).tests = (s.ucb u).tests := by
  by_cases h : u = v
  · subst h
    exact (unitFrame_tests u).moveUnit s t
  · exact congrArg Ucb.tests ((unitFrame_ucb h).moveUnit s t)

end Sys2Proof.Machine
end

section
/-!
Self-tests: how they begin and end, and the hand-over of a tile's store.
-/
namespace Sys2Proof.Machine

open Sys2Proof

/-! Stores copied line by line. -/

section
variable {α : Type} [DecidableEq α] {d : α} {src dst i : Nat}

theorem get_foldl_move_other {l : SMap α} {b : SMap α} {k : Nat} (h : ∀ e ∈ l, e.1 - src + dst ≠ k) :
    SMap.get d (l.foldl (fun m e => SMap.set d m (e.1 - src + dst) e.2) b) k = SMap.get d b k := by
  induction l generalizing b with
  | nil => rfl
  | cons e l ih =>
    rw [List.foldl_cons, ih fun e he => h e (List.mem_cons_of_mem _ he), SMap.get_set_other _ _ _ (h e List.mem_cons_self).symm]

/-- Entries moved onto a map that lists nothing there are read where they were moved to. -/
theorem get_foldl_move {l : SMap α} {b : SMap α} (hrise : l.Pairwise fun a b => a.1 < b.1) (hsrc : ∀ e ∈ l, src ≤ e.1)
    (hb : SMap.get d b (dst + i) = d) :
    SMap.get d (l.foldl (fun m e => SMap.set d m (e.1 - src + dst) e.2) b) (dst + i) = SMap.get d l (src + i) := by
  induction l generalizing b with
  | nil => exact hb
  | cons e l ih =>
    obtain ⟨k, v⟩ := e
    obtain ⟨hk, hl⟩ := List.forall_mem_cons.1 hsrc
    obtain ⟨hfirst, hrest⟩ := List.pairwise_cons.1 hrise
    rw [List.foldl_cons, SMap.get]
    by_cases he : src + i = k
    · have hplace : k - src + dst = dst + i := by omega
      rw [if_pos he, get_foldl_move_other, hplace, SMap.get_set_same]
      intro e' he'
      have h1 := hfirst e' he'
      have h2 := hl e' he'
      dsimp only at h1
      omega
    · rw [if_neg he]
      refine ih hrest hl ?_
      rw [SMap.get_set_other _ _ _ (by dsimp only at hk ⊢; omega), hb]

/-- A moved range holds what the source's range held. -/
theorem get_moveKeys_inside {m : SMap α} {n : Nat} (h : SMap.wf d m = true) (hi : i < n) :
    SMap.get d (moveKeys d m src dst n) (dst + i) = SMap.get d m (src + i) := by
  unfold moveKeys
  rw [get_foldl_move (((SMap.wf_iff d m).1 h).1.filter _)]
  · exact SMap.get_filter_keep d m fun v => by simp [hi]
  · intro e he
    have := (List.mem_filter.1 he).2
    simp only [Bool.and_eq_true, decide_eq_true_eq] at this
    exact this.1
  · exact SMap.get_filter_drop d m fun v => by simp [hi]

theorem get_moveKeys_outside {m : SMap α} {n a : Nat} (ha : ¬ (dst ≤ a ∧ a < dst + n)) :
    SMap.get d (moveKeys d m src dst n) a = SMap.get d m a := by
  unfold moveKeys
  rw [get_foldl_move_other]
  · refine SMap.get_filter_keep d m fun v => ?_
    simp only [Bool.not_eq_true', Bool.and_eq_false_iff, decide_eq_false_iff_not]
    omega
  · intro e he
    have := (List.mem_filter.1 he).2
    simp only [Bool.and_eq_true, decide_eq_true_eq] at this
    omega

end

/-! Units by number. -/

theorem unitClass_tile {u : Nat} (h : u < 64) : unitClass u = 0 := (by decide : ∀ u < 64, unitClass u = 0) u h
theorem unitIndex_tile {u : Nat} (h : u < 64) : unitIndex u = u := (by decide : ∀ u < 64, unitIndex u = u) u h
theorem unitClass_ne_zero {u : Nat} (hu : u < 201) (h : 64 ≤ u) : unitClass u ≠ 0 :=
  (by decide +kernel : ∀ u < 201, 64 ≤ u → unitClass u ≠ 0) u hu h
theorem unitCode_lt {u : Nat} (hu : u < 201) : unitCode u < 65536 := (by decide +kernel : ∀ u < 201, unitCode u < 65536) u hu
theorem sourceClass_unitFault {u : Nat} (hu : u < 201) : sourceClass (Es.unitFault u) ≠ .fatal := by
  simp only [sourceClass, Es.unitFault, if_pos (show u < 0x192 by omega)]
  decide

/-! How a test begins. -/

section
variable {s : State} {u : Nat}

/-- A test begins where the unit stands: its request no longer waits, and it returns to `back`. -/
def State.testFrom (s : State) (u : Nat) (back : UState) : State := s.setUcb u { s.ucb u with testWaits := false, beforeTest := some back }

theorem State.startTest_ready (h : (s.ucb u).st = .ready) : s.startTest u = (s.testFrom u .ready).startDrain u .hooded := by
  simp [State.startTest, State.testFrom, h]

theorem State.startTest_hooded (h : (s.ucb u).st = .hooded) : s.startTest u = (s.testFrom u .hooded).testHooded u := by
  simp [State.startTest, State.testFrom, h]

theorem State.startTest_asleep (h : (s.ucb u).st = .off ∨ (s.ucb u).st = .mews) :
    s.startTest u = (s.testFrom u (s.ucb u).st).powerUp u := by
  rcases h with h | h <;> simp [State.startTest, State.testFrom, h]

theorem State.startTest_busy (h : (s.ucb u).st = .busy) : s.startTest u =
    s.setUcb u { s.ucb u with testWaits := false, beforeTest := some .ready, st := .quiescing, target := some .hooded } := by
  simp [State.startTest, h]

theorem State.ucb_testFrom (s : State) (u : Nat) (back : UState) :
    (s.testFrom u back).ucb u = { s.ucb u with testWaits := false, beforeTest := some back } := State.ucb_setUcb_same _ _ _

theorem State.ucb_startDrain (s : State) (u w : Nat) (t : UState) : (s.startDrain u t).ucb w = s.ucb w := by
  refine foldl_keeps (State.ucb · w) (fun v e => ?_) (unitEngines u) s
  split
  · rfl
  · exact v.ucb_endChain _ _ _

theorem State.dom_startDrain (s : State) (u : Nat) (t : UState) :
    ((s.startDrain u t).dom u).phase = .draining ∧ ((s.startDrain u t).dom u).target = t := by
  unfold State.startDrain
  rw [State.dom_setDom_same]
  exact ⟨rfl, rfl⟩

/-- The hand-over that a hooded unit's test waits for leaves what its control block holds of the test. -/
theorem State.tests_testHooded (s : State) (u : Nat) : ((s.testHooded u).ucb u).tests = (s.ucb u).tests := by
  have htest : ((s.setUnitSt u .test).ucb u).tests = (s.ucb u).tests := by
    rw [State.setUnitSt, State.ucb_setUcb_same]
    rfl
  simp only [State.testHooded]
  split
  · split
    · exact htest
    · split
      · rfl
      · exact State.tests_moveUnit _ _ _ _
    · exact htest
  · exact htest

theorem State.testHooded_unserved (hu : u < 201) (h : 64 ≤ u ∨ s.handOf u = .none_ ∧ s.freeUnderstudy u = none) :
    s.testHooded u = s.setUnitSt u .test := by
  rcases Nat.lt_or_ge u 64 with hlt | hge
  · obtain ⟨hhand, hfree⟩ := h.resolve_left (by omega)
    simp only [State.testHooded, unitClass_tile hlt, if_true, hhand, hfree]
  · simp only [State.testHooded, if_neg (unitClass_ne_zero hu hge)]

theorem State.testHooded_served {v : Nat} (hu : u < 64) (hhand : s.handOf u = .none_) (hfree : s.freeUnderstudy u = some v)
    (hv : s.unitSt v = .ready) : s.testHooded u = (s.setHand u (.waking v)).setTile v { s.tile v with carrying := some u } := by
  simp only [State.testHooded, unitClass_tile hu, if_true, hhand, hfree]
  exact if_pos (beq_iff_eq.2 hv)

theorem State.handOf_setTile_other (s : State) {u v : Nat} (x : Tile) (h : u ≠ v) : (s.setTile v x).handOf u = s.handOf u :=
  congrArg Tile.hand (State.tile_setTile_other s v u x h)

theorem State.handOf_setHand_same (s : State) (u : Nat) (h : Hand) : (s.setHand u h).handOf u = h :=
  congrArg Tile.hand (State.tile_setTile_same s u { s.tile u with hand := h })

/-- The free understudy of a tile does not depend on what control blocks hold of tests. -/
theorem State.freeUnderstudy_testFrom (s : State) (u : Nat) (back : UState) : (s.testFrom u back).freeUnderstudy u = s.freeUnderstudy u := by
  have hst (v : Nat) : (s.testFrom u back).unitSt v = s.unitSt v := by
    by_cases hv : v = u
    · subst hv
      rw [State.unitSt, State.ucb_testFrom]
      rfl
    · exact congrArg Ucb.st (State.ucb_setUcb_other _ _ _ _ hv)
  simp only [State.freeUnderstudy, hst]
  rfl

end

/-! How a test ends. -/

section
variable (s : State) (u : Nat)

/-- A unit that is neither moving nor ready leaves a hood in one of three ways. -/
theorem State.unhood_of_released (h : 64 ≤ u ∨ s.handOf u = .none_) : s.unhood u = s.enterReady u := by
  simp only [State.unhood]
  split
  · next hu => rw [h.resolve_left (by omega)]
  · rfl

theorem State.unhood_of_redirected {v : Nat} (hu : u < 64) (h : s.handOf u = .redirected v) : s.unhood u = s.setHand u (.releasing v) := by
  simp only [State.unhood, if_pos hu, h]

theorem State.unhood_cases : s.unhood u = s.enterReady u ∨ s.unhood u = s ∨ ∃ v, s.unhood u = s.setHand u (.releasing v) := by
  simp only [State.unhood]
  split
  · split
    · exact .inr (.inr ⟨_, rfl⟩)
    · exact .inr (.inl rfl)
    · exact .inl rfl
  · exact .inl rfl

theorem State.ucb_loadShadow (key v w : Nat) : (s.loadShadow key v).ucb w = s.ucb w := by
  simp only [State.loadShadow]
  split_ifs <;> rfl

theorem State.ucb_enterReady : (s.enterReady u).ucb u = { s.ucb u with st := .ready, target := none } := by
  have h : ((s.setDom u { s.dom u with phase := .open_, wakeAfter := false }).setUcb u
      { s.ucb u with st := .ready, target := none }).ucb u = { s.ucb u with st := .ready, target := none } := State.ucb_setUcb_same _ _ _
  refine Eq.trans ?_ h
  simp only [State.enterReady, State.shadowLoad]
  split
  · rfl
  · exact foldl_keeps (State.ucb · u) (fun t e => t.ucb_loadShadow _ _ _) _ _

theorem State.unitSt_enterReady : (s.enterReady u).unitSt u = .ready := by rw [State.unitSt, State.ucb_enterReady]

/-- Entering READY, a unit loads objects of its own. -/
theorem State.obj_enterReady {k : Nat} (hk : keyHome k ≠ some u) : (s.enterReady u).obj k = s.obj k := by
  simp only [State.enterReady, State.shadowLoad]
  split
  · rfl
  · refine List.foldlRecOn (motive := fun t => State.obj t k = s.obj k) _ _ rfl fun t ht e he => ?_
    have hhome : keyHome e.1 = some u := beq_iff_eq.1 (List.mem_filter.1 he).2
    have hne : k ≠ e.1 := fun h => hk (h ▸ hhome)
    have hset (x : Nat) : (t.setObj e.1 x).obj k = s.obj k := (State.obj_setObj_other _ _ _ _ hne).trans ht
    simp only [State.loadShadow]
    split_ifs
    · exact hset _
    · exact ht
    · exact hset _
    · exact ht

theorem State.obj_unhood {k : Nat} (hk : keyHome k ≠ some u) : (s.unhood u).obj k = s.obj k := by
  obtain h | h | ⟨v, h⟩ := s.unhood_cases u
  · rw [h, s.obj_enterReady u hk]
  · rw [h]
  · rw [h]; rfl

/-- A hooded unit that is to sleep has its domain moved, or notes where it goes after the band. -/
theorem State.moveUnit_hooded_asleep {t : UState} (hst : s.unitSt u = .hooded) (ht : t = .off ∨ t = .mews) :
    (∃ bb, s.moveUnit u t = s.setUcb u { s.ucb u with beforeBand := bb }) ∨ ∃ d, s.moveUnit u t = s.setDom u d := by
  have hst' : (s.ucb u).st = .hooded := hst
  have hne : (t == UState.hooded) = false := by rcases ht with rfl | rfl <;> rfl
  simp only [State.moveUnit, hst', hne, Bool.false_eq_true, if_false]
  split
  · exact .inl ⟨_, rfl⟩
  · refine .inr ?_
    rcases ht with rfl | rfl
    all_goals
      dsimp only
      split
      · exact ⟨_, rfl⟩
      · split <;> exact ⟨_, rfl⟩
      · exact ⟨_, rfl⟩
      · exact ⟨_, rfl⟩

theorem State.moveUnit_hooded_open {t : UState} (hst : s.unitSt u = .hooded) (ht : t = .off ∨ t = .mews)
    (hopen : (s.dom u).phase = .open_) (hb : s.sup.inMews = false) : s.moveUnit u t = s.startDown u t := by
  have hst' : (s.ucb u).st = .hooded := hst
  rcases ht with rfl | rfl <;> simp [State.moveUnit, hst', hopen, hb]

end

end Sys2Proof.Machine
end

section
/-!
The results of self-tests, hand-overs and repairs.
-/
namespace Sys2Proof.Machine

open Sys2Proof

/-! A unit that leaves TEST. -/

section
variable {s : State} {u : Nat}

/-- The state of a unit that leaves TEST, before it goes where it is wanted. -/
def State.testOver (s : State) (u : Nat) : State :=
  s.setUcb u { s.ucb u with st := .hooded, beforeTest := none, target := none, testAgain := false, testClears := false }

/-- Where a unit goes when it leaves TEST. -/
def Ucb.back (b : Ucb) : UState := match b.target with | some t => t | none => b.beforeTest.getD .ready

theorem State.leaveTest_eq (s : State) (u : Nat) : s.leaveTest u =
    match (s.ucb u).back with
    | .hooded => s.testOver u
    | .ready => (s.testOver u).unhood u
    | t => (s.testOver u).moveUnit u t := rfl

theorem State.leaveTest_hooded (h : (s.ucb u).back = .hooded) : s.leaveTest u = s.testOver u := by
  rw [State.leaveTest_eq, h]

theorem State.leaveTest_ready (h : (s.ucb u).back = .ready) : s.leaveTest u = (s.testOver u).unhood u := by
  rw [State.leaveTest_eq, h]

theorem State.leaveTest_asleep (h : (s.ucb u).back = .off ∨ (s.ucb u).back = .mews) :
    s.leaveTest u = (s.testOver u).moveUnit u (s.ucb u).back := by
  rw [State.leaveTest_eq]
  rcases h with h | h <;> rw [h]

theorem State.ucb_testOver (s : State) (u : Nat) : (s.testOver u).ucb u =
    { s.ucb u with st := .hooded, beforeTest := none, target := none, testAgain := false, testClears := false } := State.ucb_setUcb_same _ _ _

theorem State.tests_unhood (s : State) (u : Nat) : ((s.unhood u).ucb u).tests = (s.ucb u).tests := (unitFrame_tests u).unhood s

/-- Whatever it goes back to, the test is over and the objects of the device stay. -/
theorem State.leaveTest_keeps (h : (s.ucb u).back ∈ [UState.ready, .hooded, .off, .mews]) :
    ((s.leaveTest u).ucb u).tests = ((s.ucb u).testWaits, none, (s.ucb u).lastPassNs) ∧
    ∀ k, keyHome k = none → (s.leaveTest u).obj k = s.obj k := by
  have hover : ((s.testOver u).ucb u).tests = ((s.ucb u).testWaits, none, (s.ucb u).lastPassNs) := by
    rw [State.ucb_testOver]
    rfl
  simp only [List.mem_cons, List.not_mem_nil, or_false] at h
  obtain hr | hh | hs := h
  · rw [State.leaveTest_ready hr]
    exact ⟨(State.tests_unhood _ _).trans hover, fun k hk => State.obj_unhood _ _ (by rw [hk]; nofun)⟩
  · rw [State.leaveTest_hooded hh]
    exact ⟨hover, fun _ _ => rfl⟩
  · rw [State.leaveTest_asleep hs]
    refine ⟨(State.tests_moveUnit _ _ _ _).trans hover, fun k _ => ?_⟩
    have hst : (s.testOver u).unitSt u = .hooded := by rw [State.unitSt, State.ucb_testOver]
    obtain ⟨bb, h⟩ | ⟨d, h⟩ := State.moveUnit_hooded_asleep _ u hst hs
    · rw [h]; rfl
    · rw [h]; rfl

theorem State.unitSt_testOver (s : State) (u : Nat) : (s.testOver u).unitSt u = .hooded := by rw [State.unitSt, State.ucb_testOver]

end

/-! Results. -/

section
variable (s : State) {u : Nat} (p : Nat) (c : Bool) (rs : List Nat)

/-- A result is counted and recorded. -/
def State.noteResult (u code detail : Nat) : State :=
  ((s.bump Obj.TESTS_RUN).setObj Obj.TEST_LAST (unitCode u + code * 65536)).setObj Obj.TEST_LAST_DETAIL detail

/-- A pass is dated, and counted where it follows the keeper's own repairs. -/
def State.notePass (u : Nat) (again : Bool) : State :=
  let t := s.setUcb u { s.ucb u with lastPassNs := s.timeNs }
  if again then t.bump Obj.REPAIRS_AUTO else t

@[simp] theorem State.ucb_noteResult (u code detail w : Nat) : (s.noteResult u code detail).ucb w = s.ucb w := by
  simp [State.noteResult]

@[simp] theorem State.dom_noteResult (u code detail w : Nat) : (s.noteResult u code detail).dom w = s.dom w := by
  simp [State.noteResult]

theorem State.noteResult_keeps (u code detail : Nat) : (s.noteResult u code detail).timeNs = s.timeNs ∧
    (s.noteResult u code detail).tiles = s.tiles ∧ (s.noteResult u code detail).sup = s.sup := by
  simp [State.noteResult]

theorem State.obj_noteResult (hu : u < 201) {code : Nat} (detail : Nat) (hc : code < 3) :
    (s.noteResult u code detail).obj Obj.TESTS_RUN = satBump 32 (s.obj Obj.TESTS_RUN) 1 ∧
    (s.noteResult u code detail).obj Obj.TEST_LAST = unitCode u + code * 65536 ∧
    ∀ k, k ∉ [Obj.TESTS_RUN, Obj.TEST_LAST, Obj.TEST_LAST_DETAIL] → (s.noteResult u code detail).obj k = s.obj k := by
  have hcode := unitCode_lt hu
  refine ⟨?_, ?_, fun k hk => ?_⟩
  · rw [State.noteResult, State.obj_setObj_other _ _ _ _ (by decide), State.obj_setObj_other _ _ _ _ (by decide), State.obj_bump_same]
  · rw [State.noteResult, State.obj_setObj_other _ _ _ _ (by decide), State.obj_setObj_same]
    omega
  · simp only [List.mem_cons, List.not_mem_nil, or_false, not_or] at hk
    obtain ⟨h1, h2, h3⟩ := hk
    rw [State.noteResult, State.obj_setObj_other _ _ _ _ h3, State.obj_setObj_other _ _ _ _ h2, State.obj_bump_other _ _ _ _ h1]

theorem execSelftestComplete_pass (hu : u < 201) (hst : s.unitSt u = .test) (hsafe : s.safety.safe = false)
    (hstop : (s.ucb u).testClears = false ∨ (s.ucb u).mgmtStop = false ∨ (s.ucb u).target.isSome = true) :
    execSelftestComplete u .pass p c rs s = .next (((s.noteResult u 0 0).notePass u (s.ucb u).testAgain).leaveTest u) := by
  have hst' : (s.ucb u).st = .test := hst
  have hgo : (decide (201 ≤ u) || (s.ucb u).st != .test || s.safety.safe) = false := by simp [hst', hsafe, hu]
  have hnone : ((s.ucb u).testClears && (s.ucb u).mgmtStop && (s.ucb u).target.isNone) = false := by
    rcases hstop with h | h | h
    · simp [h]
    · simp [h]
    · simp [← Option.not_isSome, h]
  simp only [execSelftestComplete, hgo, hnone, Bool.false_eq_true, if_false, reduceCtorEq, decide_false, Bool.false_and, ne_eq,
    not_true, Bool.and_false, State.noteResult, State.notePass]


/-- What TEST_LAST_DETAIL shows of a tile's failure. -/
def testDetail (u p : Nat) (c : Bool) : Nat := if unitClass u = 0 then p % 512 + b2n c * 4096 else 0

/-- A failure is counted and recorded. -/
def State.noteFailure (u code : Nat) : State := (s.noteResult u code (testDetail u p c)).bump Obj.TESTS_FAILED

@[simp] theorem State.ucb_noteFailure (u code w : Nat) : (s.noteFailure p c u code).ucb w = s.ucb w := by
  simp [State.noteFailure]

@[simp] theorem State.tile_noteFailure (u code n : Nat) : (s.noteFailure p c u code).tile n = s.tile n := by
  simp [State.noteFailure, State.noteResult]

@[simp] theorem State.runningOn_noteFailure (u code n : Nat) : (s.noteFailure p c u code).runningOn n = s.runningOn n := by
  simp [State.noteFailure, State.noteResult]

/-- A unit that fails its test becomes FAULTED. -/
def State.failTest (u : Nat) : State :=
  (s.setUcb u { s.ucb u with beforeTest := none, testAgain := false, testClears := false }).unitFault u 2

/-- A redirection ends with its tile. -/
def State.endHand (u : Nat) : State :=
  match s.handOf u with
  | .redirected v => if u < 64 then (s.setHand u (.ending v)).settleHand u else s
  | _ => s

/-- A tile whose fault a repair can mend is hooded for it. -/
def State.hoodForRepair (u : Nat) : State :=
  (s.setUcb u { s.ucb u with st := .hooded, beforeTest := none, testClears := false }).unitFault u 3

theorem execSelftestComplete_fail (hu : u < 201) (hst : s.unitSt u = .test) (hsafe : s.safety.safe = false) {r : TestResult}
    (hr : r = .fail ∨ r = .repairable ∧ 64 ≤ u) :
    execSelftestComplete u r p c rs s = .next (((s.noteFailure p c u 2).failTest u).endHand u) := by
  have hst' : (s.ucb u).st = .test := hst
  have hgo : (decide (201 ≤ u) || (s.ucb u).st != .test || s.safety.safe) = false := by simp [hst', hsafe, hu]
  have heff : (if r = .repairable && unitClass u ≠ 0 then TestResult.fail else r) = .fail := by
    rcases hr with rfl | ⟨rfl, hge⟩
    · rfl
    · simp [unitClass_ne_zero hu hge]
  have hdetail : (unitClass u = 0 && TestResult.fail ≠ .pass) = decide (unitClass u = 0) := by simp
  simp only [execSelftestComplete, hgo, Bool.false_eq_true, if_false, heff, hdetail, decide_eq_true_eq]
  rfl

theorem execSelftestComplete_repairable (hu : u < 64) (hst : s.unitSt u = .test) (hsafe : s.safety.safe = false)
    (hagain : (s.ucb u).testAgain = false) : execSelftestComplete u .repairable p c rs s =
      let t := (s.noteFailure p c u 1).hoodForRepair u
      if t.flag Obj.AUTO_REPAIR then .next ((t.setTile u { t.tile u with auto := rs }).autoRepair u) else .next t := by
  have hst' : (s.ucb u).st = .test := hst
  have hgo : (decide (201 ≤ u) || (s.ucb u).st != .test || s.safety.safe) = false := by simp [hst', hsafe]; omega
  have hclass : unitClass u = 0 := unitClass_tile hu
  simp only [execSelftestComplete, hgo, Bool.false_eq_true, if_false, hclass, ne_eq, not_true_eq_false, decide_false, Bool.and_false,
    decide_true, Bool.true_and, reduceCtorEq, not_false_eq_true, if_true, hagain, State.noteFailure, State.noteResult, testDetail]
  rfl

end

end Sys2Proof.Machine
end

section
/-!
Self-tests, hand-overs and field repair: the claims, from how tests begin and end.
-/
namespace Sys2Proof.Machine

open Sys2Proof

/-! What a reported error leaves of units and tiles. -/

section
variable {s t : State}

theorem Told.ucb (h : Told s t) (w : Nat) : t.ucb w = s.ucb w := by
  obtain ⟨_, _, _, _, _, _, _, _, _, _, rfl, -⟩ := h
  rfl

theorem Told.tile (h : Told s t) (n : Nat) : t.tile n = s.tile n := by
  obtain ⟨_, _, _, _, _, _, _, _, _, _, rfl, -⟩ := h
  rfl

theorem Told.runningOn (h : Told s t) (n : Nat) : t.runningOn n = s.runningOn n := by
  obtain ⟨_, _, _, _, _, _, _, _, _, _, rfl, -⟩ := h
  rfl

theorem Told.obj (h : Told s t) {k : Nat} (hk : k ∉ errorCounts) : t.obj k = s.obj k := by
  obtain ⟨_, _, _, _, _, _, _, _, _, _, -, ho⟩ := h
  exact ho k hk

end

section
variable (s : State) {u : Nat}

/-- A fault that no repair mends is reported, and the unit is FAULTED. -/
theorem State.unitFault_spec (hu : u < 201) {cause : Nat} (hc : cause ≠ 3) : ∃ t, Told s t ∧
    s.unitFault u cause = t.setUcb u { s.ucb u with st := .faulted, target := none } := by
  have ht := State.raise_told s (src := Es.unitFault u)
    { oClass := unitClass u, oIndex := unitIndex u, status := Sc.internalFault, info := cause, cls := unitClass u, sub := unitIndex u + 1 }
    (sourceClass_unitFault hu)
  refine ⟨_, ht, ?_⟩
  simp only [State.unitFault, if_neg hc, ht.ucb]

/-- A repairable fault is reported. -/
theorem State.unitFault_repairable_told (hu : u < 201) : Told s (s.unitFault u 3) :=
  State.raise_told s _ (sourceClass_unitFault hu)

/-! A failed test. -/

theorem State.failTest_spec (hu : u < 201) : ((s.failTest u).ucb u).st = .faulted ∧ ((s.failTest u).ucb u).beforeTest = none ∧
    (∀ n, (s.failTest u).handOf n = s.handOf n) ∧ (∀ n, (s.failTest u).runningOn n = s.runningOn n) ∧
    ∀ k, k ∉ errorCounts → (s.failTest u).obj k = s.obj k := by
  obtain ⟨t, ht, he⟩ := State.unitFault_spec
    (s.setUcb u { s.ucb u with beforeTest := none, testAgain := false, testClears := false }) hu (cause := 2) (by decide)
  unfold State.failTest
  rw [he, State.ucb_setUcb_same, State.ucb_setUcb_same]
  exact ⟨rfl, rfl, fun n => congrArg Tile.hand (ht.tile n), fun n => ht.runningOn n, fun k hk => ht.obj hk⟩

theorem State.endHand_of_other (h : 64 ≤ u ∨ s.handOf u = .none_) : s.endHand u = s := by
  simp only [State.endHand]
  rcases h with h | h
  · split
    · exact if_neg (by omega)
    · rfl
  · rw [h]

theorem State.endHand_of_running {v : Nat} (hu : u < 64) (h : s.handOf u = .redirected v) (hrun : s.runningOn v = true) :
    s.endHand u = s.setHand u (.ending v) := by
  have hrun' : (s.setHand u (.ending v)).runningOn v = true := hrun
  simp only [State.endHand, h, if_pos hu, State.settleHand, State.handOf_setHand_same, hrun', if_true]

theorem State.obj_noteFailure (p : Nat) (c : Bool) {code : Nat} (hu : u < 201) (hc : code < 3) :
    (s.noteFailure p c u code).obj Obj.TESTS_RUN = satBump 32 (s.obj Obj.TESTS_RUN) 1 ∧
    (s.noteFailure p c u code).obj Obj.TESTS_FAILED = satBump 32 (s.obj Obj.TESTS_FAILED) 1 ∧
    (s.noteFailure p c u code).obj Obj.TEST_LAST = unitCode u + code * 65536 ∧
    ∀ k, k ∉ [Obj.TESTS_RUN, Obj.TEST_LAST, Obj.TEST_LAST_DETAIL, Obj.TESTS_FAILED] → (s.noteFailure p c u code).obj k = s.obj k := by
  obtain ⟨hrun, hlast, hrest⟩ := s.obj_noteResult hu (testDetail u p c) hc
  unfold State.noteFailure
  refine ⟨?_, ?_, ?_, fun k hk => ?_⟩
  · rw [State.obj_bump_other _ _ _ _ (by decide), hrun]
  · rw [State.obj_bump_same, hrest _ (by decide)]
  · rw [State.obj_bump_other _ _ _ _ (by decide), hlast]
  · simp only [List.mem_cons, List.not_mem_nil, or_false, not_or] at hk
    rw [State.obj_bump_other _ _ _ _ hk.2.2.2, hrest k (by simp [hk])]

/-- A tile hooded for repair has reported its fault, and is otherwise as it was. -/
theorem State.hoodForRepair_spec (hu : u < 201) : Told (s.setUcb u { s.ucb u with st := .hooded, beforeTest := none, testClears := false })
    (s.hoodForRepair u) := State.unitFault_repairable_told _ hu

end

/-! Passed tests. -/

section
variable (s : State) {u : Nat}

theorem State.notePass_spec (u : Nat) (again : Bool) : (s.notePass u again).ucb u = { s.ucb u with lastPassNs := s.timeNs } ∧
    (s.notePass u again).tiles = s.tiles ∧ (∀ w, (s.notePass u again).dom w = s.dom w) ∧ (s.notePass u again).sup = s.sup ∧
    (s.notePass u again).obj Obj.REPAIRS_AUTO = (if again then satBump 32 (s.obj Obj.REPAIRS_AUTO) 1 else s.obj Obj.REPAIRS_AUTO) ∧
    ∀ k, k ≠ Obj.REPAIRS_AUTO → (s.notePass u again).obj k = s.obj k := by
  have hucb : (s.setUcb u { s.ucb u with lastPassNs := s.timeNs }).ucb u = { s.ucb u with lastPassNs := s.timeNs } :=
    State.ucb_setUcb_same _ _ _
  cases again
  · exact ⟨hucb, rfl, fun _ => rfl, rfl, rfl, fun _ _ => rfl⟩
  · exact ⟨hucb, rfl, fun _ => rfl, rfl, State.obj_bump_same _ _ _, fun _ hk => State.obj_bump_other _ _ _ _ hk⟩

end

/-! Copies of a tile's store. -/

theorem State.byteAt_copyTile_inside (s : State) (a b : Nat) {i : Nat} (h : s.mem.wf = true) (hi : i < 0x400000) :
    (s.copyTile a b).byteAt (storeBase b + i) = s.byteAt (storeBase a + i) := 
  get_moveKeys_inside (α := Byte) (m := s.mem.cells) h hi

theorem State.byteAt_copyTile_outside (s : State) (a b : Nat) {x : Nat} (h : ¬ (storeBase b ≤ x ∧ x < storeBase b + 0x400000)) :
    (s.copyTile a b).byteAt x = s.byteAt x := 
  get_moveKeys_outside (α := Byte) (m := s.mem.cells) h

/-! The end of a redirection. -/

section
variable (s : State) {n v : Nat}

theorem State.endRedirect_keeps (h : n ≠ v) : (s.endRedirect n v).handOf n = .none_ ∧ SMap.get 0 (s.endRedirect n v).mem.redirect n = 0 ∧
    ∀ a, (s.endRedirect n v).byteAt a = s.byteAt a := by
  have hmem : (s.endRedirect n v).mem = (s.setRedirect n none).mem := (unitFrame_mem v).restSpare _
  refine ⟨?_, ?_, fun a => ?_⟩
  · refine (congrArg Tile.hand ((unitFrame_tile h).restSpare _)).trans ?_
    exact (State.handOf_setTile_other _ _ h).trans (State.handOf_setHand_same _ _ _)
  · rw [hmem]
    exact SMap.get_set_same 0 s.mem.redirect n 0
  · unfold State.byteAt
    rw [hmem]
    rfl

theorem State.enterReady_keeps (u : Nat) : (∀ m, (s.enterReady u).handOf m = s.handOf m) ∧ (s.enterReady u).mem = s.mem := by
  refine ⟨fun m => ?_, (unitFrame_mem u).enterReady s⟩
  simp only [State.enterReady, State.shadowLoad]
  split
  · rfl
  · refine foldl_keeps (State.handOf · m) (fun t e => ?_) _ _
    simp only [State.loadShadow]
    split_ifs <;> rfl

end

/-! Answers. -/

/-- An answer to a request leaves tiles and memory. -/
theorem State.answer_keeps (s : State) (w : Asker) (st : Nat) (v : List Byte) (n : Nat) :
    (s.answer w st v n).tiles = s.tiles ∧ (s.answer w st v n).mem = s.mem := by
  have hpdu (t : State) (tr : Transport) (src : Nat) (pdu : List Byte) :
      (t.sendPdu tr src pdu).tiles = t.tiles ∧ (t.sendPdu tr src pdu).mem = t.mem := by
    cases tr
    · simp only [State.sendPdu]
      split <;> exact ⟨rfl, rfl⟩
    · simp only [State.sendPdu]
      split <;> exact ⟨rfl, rfl⟩
    · obtain ⟨_, _, _, _, _, _, _, ht, -⟩ := (Noted.refl (K := fun _ => True)
        ({ t with oap := { t.oap with mbxRsp := pdu, mbxRspValid := true, mbxBusy := false } } : State)).raiseVector (fn := 0) (v := 0)
      simp only [State.sendPdu]
      rw [ht]
      exact ⟨rfl, rfl⟩
  simp only [State.answer]
  split
  · exact hpdu _ _ _ _
  · exact hpdu _ _ _ _

/-! Repairs. -/

section
variable {s : State} {n : Nat}

/-- A repair programmed, its tile no longer waits for one. -/
def State.repaired (s : State) (n v : Nat) : State :=
  s.setTile n { (s.tile n).program v with repair := none, held := (s.tile n).held }

theorem execRepairProgramDone_asked {v : Nat} {w : Asker} (hn : n < 64) (h : (s.tile n).repair = some (v, some w)) :
    execRepairProgramDone n s = .next ((s.repaired n v).answer w Sc.ok) := by
  simp only [execRepairProgramDone, h, if_neg (Nat.not_le.2 hn)]
  rfl

theorem execRepairProgramDone_own {v : Nat} (hn : n < 64) (h : (s.tile n).repair = some (v, none)) :
    execRepairProgramDone n s = .next ((s.repaired n v).autoRepair n) := by
  simp only [execRepairProgramDone, h, if_neg (Nat.not_le.2 hn)]
  rfl

theorem Tile.auto_program (t : Tile) (v : Nat) : (t.program v).auto = t.auto := by
  unfold Tile.program
  extract_lets pl t'
  have ht : t'.auto = t.auto := by
    unfold t'
    split <;> rfl
  split
  · exact ht
  · exact ht

/-- The last of the keeper's own repairs is followed by another test. -/
theorem State.autoRepair_last (h : (s.tile n).auto = []) :
    s.autoRepair n = s.setUcb n { s.ucb n with testAgain := true, beforeTest := some .ready, st := .test } := by
  simp only [State.autoRepair, h]

theorem State.autoRepair_next {v : Nat} {rest : List Nat} (h : (s.tile n).auto = v :: rest)
    (hok : (s.setTile n { s.tile n with auto := rest }).repairStatus n v = 0) :
    s.autoRepair n = (s.setTile n { s.tile n with auto := rest }).startRepair n v none := by
  simp only [State.autoRepair, h, hok, if_true]

/-- Whether a repair can be made depends on the tile's spares, its state and the policy. -/
theorem State.repairStatus_congr {t : State} (v : Nat) (hsp : (t.tile n).spares = (s.tile n).spares) (hst : t.unitSt n = s.unitSt n)
    (hpol : t.obj Obj.REPAIR_POLICY = s.obj Obj.REPAIR_POLICY) : t.repairStatus n v = s.repairStatus n v := by
  have hplan : (t.tile n).repairPlan v = (s.tile n).repairPlan v := by
    simp only [Tile.repairPlan, Tile.spareAt, Tile.serving, hsp]
  have hspare (k : Nat) : (t.tile n).spareAt k = (s.tile n).spareAt k := by simp only [Tile.spareAt, hsp]
  have hfree (c : Bool) : (t.tile n).freeSpares c = (s.tile n).freeSpares c := by simp only [Tile.freeSpares, hspare]
  dsimp only [State.repairStatus]
  rw [hplan, hfree, hst, hpol]
  simp only [hspare]

end

end Sys2Proof.Machine
end

section
/-!
Self-tests, hand-overs and field repair: the claims.
-/
namespace Sys2Proof.Machine

open Sys2Proof

/-! A pass and the failures of a test. -/

section
variable {s : State} {u : Nat} (p : Nat) (c : Bool) (rs : List Nat)

/-- A passed unit goes back to the state before the test, or where management asked meanwhile (R764). -/
theorem selftestComplete_passes (hu : u < 201) (hst : s.unitSt u = .test) (hsafe : s.safety.safe = false)
    (hstop : (s.ucb u).testClears = false ∨ (s.ucb u).mgmtStop = false ∨ (s.ucb u).target.isSome = true)
    (hback : (s.ucb u).back ∈ [UState.ready, .hooded, .off, .mews]) :
    Completes (.selftestComplete u .pass p c rs) s fun t => (t.ucb u).beforeTest = none ∧ (t.ucb u).lastPassNs = s.timeNs ∧
      t.obj Obj.TESTS_RUN = satBump 32 (s.obj Obj.TESTS_RUN) 1 ∧ t.obj Obj.TEST_LAST = unitCode u ∧
      t.obj Obj.TESTS_FAILED = s.obj Obj.TESTS_FAILED ∧
      t.obj Obj.REPAIRS_AUTO = (if (s.ucb u).testAgain then satBump 32 (s.obj Obj.REPAIRS_AUTO) 1 else s.obj Obj.REPAIRS_AUTO) ∧
      ((s.ucb u).back = .hooded → t.unitSt u = .hooded) ∧
      ((s.ucb u).back = .ready → (64 ≤ u ∨ s.handOf u = .none_) → t.unitSt u = .ready) ∧
      (∀ v, (s.ucb u).back = .ready → u < 64 → s.handOf u = .redirected v → t.unitSt u = .hooded ∧ t.handOf u = .releasing v) ∧
      ((s.ucb u).back = .off ∨ (s.ucb u).back = .mews → (s.dom u).phase = .open_ → s.sup.inMews = false →
        (t.dom u).phase = .down ∧ (t.dom u).target = (s.ucb u).back) := by
  refine ⟨_, execSelftestComplete_pass s p c rs hu hst hsafe hstop, ?_⟩
  set x := (s.noteResult u 0 0).notePass u (s.ucb u).testAgain with hx
  obtain ⟨hrun, hlast, hrest⟩ := s.obj_noteResult hu 0 (code := 0) (by decide)
  obtain ⟨hucb, htiles, hdom, hsup, hauto, hother⟩ := (s.noteResult u 0 0).notePass_spec u (s.ucb u).testAgain
  obtain ⟨htime, htiles', hsup'⟩ := s.noteResult_keeps u 0 0
  rw [← hx] at hucb htiles hdom hsup hauto hother
  rw [htiles'] at htiles
  rw [hsup'] at hsup
  have hucb' : x.ucb u = { s.ucb u with lastPassNs := s.timeNs } := by
    rw [hucb, State.ucb_noteResult, htime]
  have hxback : (x.ucb u).back = (s.ucb u).back := by rw [hucb']; rfl
  obtain ⟨htests, hobj⟩ := State.leaveTest_keeps (s := x) (u := u) (hxback ▸ hback)
  rw [hucb'] at htests
  refine ⟨congrArg (·.2.1) htests, congrArg (·.2.2) htests, ?_, ?_, ?_, ?_, fun hb => ?_, fun hb hfree => ?_, fun v hb hlt hhand => ?_,
    fun hb hopen hmews => ?_⟩
  · rw [hobj _ (by decide), hother _ (by decide), hrun]
  · rw [hobj _ (by decide), hother _ (by decide), hlast]
    omega
  · rw [hobj _ (by decide), hother _ (by decide), hrest _ (by decide)]
  · rw [hobj _ (by decide), hauto, hrest _ (by decide)]
  · rw [State.leaveTest_hooded (hxback.trans hb), State.unitSt_testOver]
  · have hfree' : 64 ≤ u ∨ (x.testOver u).handOf u = .none_ := by
      unfold State.handOf at hfree ⊢
      exact htiles ▸ hfree
    rw [State.leaveTest_ready (hxback.trans hb), State.unhood_of_released _ _ hfree', State.unitSt_enterReady]
  · have hhand' : (x.testOver u).handOf u = .redirected v := by
      unfold State.handOf at hhand ⊢
      exact htiles ▸ hhand
    rw [State.leaveTest_ready (hxback.trans hb), State.unhood_of_redirected _ _ hlt hhand']
    exact ⟨State.unitSt_testOver x u, State.handOf_setHand_same _ _ _⟩
  · have hopen' : ((x.testOver u).dom u).phase = .open_ := by
      rw [← hopen, ← State.dom_noteResult s u 0 0 u, ← hdom]
      rfl
    have hmews' : (x.testOver u).sup.inMews = false := (congrArg Supply.inMews hsup).trans hmews
    rw [State.leaveTest_asleep (by rwa [hxback]), hxback, State.moveUnit_hooded_open _ _ (State.unitSt_testOver x u) hb hopen' hmews',
      State.startDown, State.dom_setDom_same]
    exact ⟨rfl, rfl⟩

/-- A unit that a repair cannot mend is FAULTED. -/
theorem selftestComplete_faults {r : TestResult} (hu : u < 201) (hst : s.unitSt u = .test) (hsafe : s.safety.safe = false)
    (hmem : r ∈ [TestResult.repairable, .fail]) (hr : r = .fail ∨ 64 ≤ u) (hfree : 64 ≤ u ∨ s.handOf u = .none_) :
    Completes (.selftestComplete u r p c rs) s fun t => t.unitSt u = .faulted ∧ (t.ucb u).beforeTest = none ∧
      t.obj Obj.TESTS_RUN = satBump 32 (s.obj Obj.TESTS_RUN) 1 ∧ t.obj Obj.TESTS_FAILED = satBump 32 (s.obj Obj.TESTS_FAILED) 1 ∧
      t.obj Obj.TEST_LAST = unitCode u + 2 * 65536 := by
  have hr' : r = .fail ∨ r = .repairable ∧ 64 ≤ u := by
    cases r
    · cases hmem with
      | tail _ h => cases h with | tail _ h => cases h
    · exact .inr ⟨rfl, hr.resolve_left nofun⟩
    · exact .inl rfl
  refine ⟨_, execSelftestComplete_fail s p c rs hu hst hsafe hr', ?_⟩
  obtain ⟨hfst, hfbefore, hfhand, -, hfobj⟩ := (s.noteFailure p c u 2).failTest_spec hu
  obtain ⟨hrun, hfails, hlast, -⟩ := s.obj_noteFailure p c hu (code := 2) (by decide)
  have hfree' : 64 ≤ u ∨ ((s.noteFailure p c u 2).failTest u).handOf u = .none_ :=
    hfree.imp id fun h => (hfhand u).trans ((congrArg Tile.hand (State.tile_noteFailure s p c u 2 u)).trans h)
  rw [State.endHand_of_other _ hfree']
  exact ⟨hfst, hfbefore, (hfobj _ (by decide)).trans hrun, (hfobj _ (by decide)).trans hfails, (hfobj _ (by decide)).trans hlast⟩

/-- A tile that fails while its understudy runs its programs hands nothing back. -/
theorem selftestComplete_faults_redirected {v : Nat} (hlt : u < 64) (hst : s.unitSt u = .test) (hsafe : s.safety.safe = false)
    (hhand : s.handOf u = .redirected v) (hrunning : s.runningOn v = true) :
    Completes (.selftestComplete u .fail p c rs) s fun t => t.unitSt u = .faulted ∧ t.handOf u = .ending v := by
  have hu : u < 201 := by omega
  refine ⟨_, execSelftestComplete_fail s p c rs hu hst hsafe (.inl rfl), ?_⟩
  obtain ⟨hfst, -, hfhand, hfrun, -⟩ := (s.noteFailure p c u 2).failTest_spec hu
  have hhand' := (hfhand u).trans ((congrArg Tile.hand (State.tile_noteFailure s p c u 2 u)).trans hhand)
  rw [State.endHand_of_running _ hlt hhand' ((hfrun v).trans ((State.runningOn_noteFailure s p c u 2 v).trans hrunning))]
  exact ⟨hfst, State.handOf_setHand_same _ _ _⟩

/-- A repairable tile waits hooded for a repair. -/
theorem selftestComplete_waits (hlt : u < 64) (hst : s.unitSt u = .test) (hsafe : s.safety.safe = false)
    (hagain : (s.ucb u).testAgain = false) (hauto : s.flag Obj.AUTO_REPAIR = false) :
    Completes (.selftestComplete u .repairable p c rs) s fun t =>
      t.unitSt u = .hooded ∧ t.handOf u = s.handOf u ∧ t.obj Obj.TESTS_FAILED = satBump 32 (s.obj Obj.TESTS_FAILED) 1 := by
  have hu : u < 201 := by omega
  have htold := (s.noteFailure p c u 1).hoodForRepair_spec hu
  obtain ⟨-, hfails, -, hrest⟩ := s.obj_noteFailure p c hu (code := 1) (by decide)
  have hflag : ((s.noteFailure p c u 1).hoodForRepair u).flag Obj.AUTO_REPAIR = false := by
    rw [State.flag, htold.obj (by decide), State.obj_setUcb, hrest _ (by decide)]
    exact hauto
  refine ⟨(s.noteFailure p c u 1).hoodForRepair u, ?_, ?_, ?_, ?_⟩
  · refine (execSelftestComplete_repairable s p c rs hlt hst hsafe hagain).trans ?_
    simp only [hflag, Bool.false_eq_true, if_false]
  · rw [State.unitSt, htold.ucb, State.ucb_setUcb_same]
  · rw [State.handOf, show SMap.get _ _ _ = _ from htold.tile u, State.tile_setUcb, State.tile_noteFailure]
    rfl
  · rw [htold.obj (by decide), State.obj_setUcb, hfails]

/-- Under AUTO_REPAIR the keeper asks for the first of the repairs itself (R765). -/
theorem selftestComplete_repairs {v : Nat} {rest : List Nat} (hlt : u < 64) (hst : s.unitSt u = .test) (hsafe : s.safety.safe = false)
    (hagain : (s.ucb u).testAgain = false) (hauto : s.flag Obj.AUTO_REPAIR = true)
    (hrep : (s.setUnitSt u .hooded).repairStatus u v = 0) :
    Completes (.selftestComplete u .repairable p c (v :: rest)) s fun t =>
      t.unitSt u = .hooded ∧ (t.tile u).repair = some (v, none) ∧ (t.tile u).auto = rest := by
  have hu : u < 201 := by omega
  have hexec := execSelftestComplete_repairable s p c (v :: rest) hlt hst hsafe hagain
  have htold := (s.noteFailure p c u 1).hoodForRepair_spec hu
  obtain ⟨-, -, -, hrest⟩ := s.obj_noteFailure p c hu (code := 1) (by decide)
  generalize (s.noteFailure p c u 1).hoodForRepair u = x at hexec htold
  have hobj {k : Nat} (hk : k ∉ errorCounts) (hk' : k ∉ [Obj.TESTS_RUN, Obj.TEST_LAST, Obj.TEST_LAST_DETAIL, Obj.TESTS_FAILED]) :
      x.obj k = s.obj k := by rw [htold.obj hk, State.obj_setUcb, hrest _ hk']
  have hflag : x.flag Obj.AUTO_REPAIR = true := by
    rw [State.flag, hobj (by decide) (by decide)]
    exact hauto
  have hst' : x.unitSt u = .hooded := by rw [State.unitSt, htold.ucb, State.ucb_setUcb_same]
  have htile : x.tile u = s.tile u := by rw [htold.tile, State.tile_setUcb, State.tile_noteFailure]
  obtain ⟨y, hy⟩ : ∃ y, x.setTile u { x.tile u with auto := v :: rest } = y := ⟨_, rfl⟩
  have hytile : y.tile u = { s.tile u with auto := v :: rest } := by rw [← hy, State.tile_setTile_same, htile]
  have hyst : y.unitSt u = .hooded := by rw [← hy]; exact hst'
  have hyrep : (y.setTile u { y.tile u with auto := rest }).repairStatus u v = 0 := by
    refine (State.repairStatus_congr v ?_ ?_ ?_).trans hrep
    · rw [State.tile_setTile_same, hytile]
      rfl
    · rw [State.setUnitSt, State.unitSt_setTile, hyst, State.unitSt, State.ucb_setUcb_same]
    · rw [State.obj_setTile, ← hy, State.obj_setTile, hobj (by decide) (by decide), State.setUnitSt, State.obj_setUcb]
  have hnext := State.autoRepair_next (s := y) (by rw [hytile]) hyrep
  simp only [hflag, if_true, hy, hnext] at hexec
  refine ⟨_, hexec, hyst, ?_, ?_⟩
  · rw [State.startRepair, State.tile_setTile_same]
  · rw [State.startRepair, State.tile_setTile_same, State.tile_setTile_same]

end

/-- The understudy holds the store, and what is meant for the tile goes there (R460). -/
theorem handoverCopyDone_redirects {s : State} {n v : Nat} (hn : n < 64) (hwf : s.mem.wf = true) (hhand : s.handOf n = .waking v)
    (hvst : s.unitSt v = .ready) (hnst : s.unitSt n = .hooded) : Completes (.handoverCopyDone n) s fun t =>
      t.handOf n = .redirected v ∧ t.unitSt n = .test ∧ SMap.get 0 t.mem.redirect n = v + 1 ∧
      t.obj Obj.HANDOVERS = satBump 32 (s.obj Obj.HANDOVERS) 1 ∧
      (∀ i, i < 0x400000 → t.byteAt (storeBase v + i) = s.byteAt (storeBase n + i)) ∧
      (∀ a, ¬(storeBase v ≤ a ∧ a < storeBase v + 0x400000) → t.byteAt a = s.byteAt a) := by
  obtain ⟨y, hy⟩ : ∃ y, (s.copyTile n v).setRedirect n (some v) = y := ⟨_, rfl⟩
  have hredir : SMap.get 0 y.mem.redirect n = v + 1 := by rw [← hy]; exact SMap.get_set_same 0 s.mem.redirect n (v + 1)
  have hobj (k : Nat) : y.obj k = s.obj k := by rw [← hy]; rfl
  have hbytes (a : Nat) : y.byteAt a = (s.copyTile n v).byteAt a := by rw [← hy]; rfl
  refine ⟨((y.setHand n (.redirected v)).bump Obj.HANDOVERS).setUnitSt n .test, ?_, ?_, ?_, hredir, ?_, fun i hi => ?_, fun a ha => ?_⟩
  · show execHandoverCopyDone n s = _
    simp only [execHandoverCopyDone, hhand, hy]
    rw [if_pos (by simp [hn, hvst, hnst])]
  · rw [State.setUnitSt, State.handOf_setUcb, State.handOf_bump, State.handOf_setHand_same]
  · rw [State.setUnitSt, State.unitSt, State.ucb_setUcb_same]
  · rw [State.setUnitSt, State.obj_setUcb, State.obj_bump_same]
    exact congrArg (satBump 32 · 1) (hobj _)
  · exact (hbytes _).trans (s.byteAt_copyTile_inside n v hwf hi)
  · exact (hbytes _).trans (s.byteAt_copyTile_outside n v ha)

/-- The store is copied back from an understudy that has not failed, and the tile goes on (R461). -/
theorem releaseCopyDone_ends {s : State} {n v : Nat} (hn : n < 64) (hnv : n ≠ v) (hwf : s.mem.wf = true)
    (hhand : s.handOf n = .releasing v) (hidle : s.runningOn v = false) : Completes (.releaseCopyDone n) s fun t =>
      t.unitSt n = .ready ∧ t.handOf n = .none_ ∧ SMap.get 0 t.mem.redirect n = 0 ∧
      (s.unitSt v ≠ .faulted → ∀ i, i < 0x400000 → t.byteAt (storeBase n + i) = s.byteAt (storeBase v + i)) ∧
      (s.unitSt v = .faulted → ∀ a, t.byteAt a = s.byteAt a) ∧
      (∀ a, ¬(storeBase n ≤ a ∧ a < storeBase n + 0x400000) → t.byteAt a = s.byteAt a) := by
  set x := if s.unitSt v == .faulted then s else s.copyTile v n with hx
  obtain ⟨hnone, hredir, hbytes⟩ := x.endRedirect_keeps hnv
  obtain ⟨hhands, hmem⟩ := (x.endRedirect n v).enterReady_keeps n
  have hbyte (a : Nat) : ((x.endRedirect n v).enterReady n).byteAt a = x.byteAt a :=
    (congrArg (fun m : Memory => SMap.get 0 m.cells a) hmem).trans (hbytes a)
  refine ⟨(x.endRedirect n v).enterReady n, ?_, State.unitSt_enterReady _ _, (hhands n).trans hnone, ?_, fun hok i hi => ?_, fun hbad a => ?_,
    fun a ha => ?_⟩
  · show execReleaseCopyDone n s = _
    simp only [execReleaseCopyDone, hhand]
    rw [if_pos (by simp [hn, hidle])]
  · rw [hmem, hredir]
  · rw [hbyte, hx, if_neg (by simpa using hok)]
    exact s.byteAt_copyTile_inside v n hwf hi
  · rw [hbyte, hx, if_pos (by simpa using hbad)]
  · rw [hbyte, hx]
    split
    · rfl
    · exact s.byteAt_copyTile_outside v n ha

/-- Settles O50: where a test begins and ends, and what hand-overs and repairs move. -/
theorem testsHandOversAndRepairs : Obligations.TestsHandOversAndRepairs := by
  refine ⟨?begins, ?started, ?passed, ?failed, ?handedOver, ?released, ?repaired⟩
  case begins =>
    intro s u hu hlive b hwaits hbefore hclass hst
    have hgo : (s.live && decide (u < 201) && b.testWaits && b.beforeTest.isNone &&
        ((b.st == .ready && (s.dom u).phase == .open_) || b.st == .hooded || b.st == .off || b.st == .mews ||
          (b.st == .busy && (s.epoch (s.domainOf u)).commit == .applied)) && !s.classTesting u) = true := by
      rcases hst with ⟨h1, h2⟩ | h | h | h | ⟨h1, h2⟩ <;> simp [*]
    refine ⟨fun hmay => ?_, fun hforced hcrit => ?_⟩
    · have hmay' : (!b.testForced && s.testCritical u) = false := by
        rcases hmay with h | h <;> simp [h]
      show execSelftestStart u s = _
      simp only [execSelftestStart, b] at hgo hmay' ⊢
      rw [if_pos hgo, if_neg (by simp [hmay'])]
    · have hcrit' : (!b.testForced && s.testCritical u) = true := by simp [hforced, hcrit]
      refine ⟨((s.setUcb u { b with testWaits := false }).bump Obj.TESTS_DEFERRED).setObj Obj.TEST_LAST (unitCode u + 3 * 65536), ?_, ?_⟩
      · show execSelftestStart u s = _
        simp only [execSelftestStart, b] at hgo hcrit' ⊢
        rw [if_pos hgo, if_pos hcrit']
      · have hcode := unitCode_lt hu
        have hucb : (s.setUcb u { b with testWaits := false }).ucb u = { b with testWaits := false } := State.ucb_setUcb_same _ _ _
        simp only [State.unitSt, State.ucb_setObj, State.ucb_bump, hucb]
        refine ⟨trivial, rfl, hbefore, ?_, ?_⟩
        · rw [State.obj_setObj_other _ _ _ _ (by decide), State.obj_bump_same]
          rfl
        · rw [State.obj_setObj_same]
          omega
  case started =>
    intro s u hu b t
    have hfrom (back : UState) : ((s.testFrom u back).ucb u).tests = (false, some back, b.lastPassNs) := by
      rw [State.ucb_testFrom]
      rfl
    have hsplit {x : Ucb} {back : UState} (h : x.tests = (false, some back, b.lastPassNs)) :
        x.testWaits = false ∧ x.beforeTest = some back := ⟨congrArg (·.1) h, congrArg (·.2.1) h⟩
    refine ⟨fun hst => hsplit ?_, fun hst => ?_, fun hst hfree => ?_, fun v hst hlt hv hhand hfree hready => ?_, fun hst => ?_,
      fun hst => ?_⟩
    · simp only [List.mem_cons, List.not_mem_nil, or_false] at hst
      obtain h | h | h := hst
      · rw [show t = _ from State.startTest_ready h, h, State.ucb_startDrain]
        exact hfrom _
      · rw [show t = _ from State.startTest_hooded h, h, State.tests_testHooded]
        exact hfrom _
      · rw [show t = _ from State.startTest_asleep h]
        exact hfrom _
    · rw [show t = _ from State.startTest_ready hst]
      obtain ⟨hphase, htarget⟩ := State.dom_startDrain (s.testFrom u .ready) u .hooded
      refine ⟨?_, hphase, htarget⟩
      rw [State.unitSt, State.ucb_startDrain, State.ucb_testFrom]
      exact hst
    · rw [show t = _ from State.startTest_hooded hst, State.testHooded_unserved hu (by rwa [State.freeUnderstudy_testFrom])]
      exact congrArg Ucb.st (State.ucb_setUcb_same _ _ _)
    · have hserved := State.testHooded_served (s := s.testFrom u .hooded) hlt hhand ((State.freeUnderstudy_testFrom s u _).trans hfree)
        ((congrArg Ucb.st (State.ucb_setUcb_other _ _ _ _ hv)).trans hready)
      rw [show t = _ from State.startTest_hooded hst, hserved]
      refine ⟨?_, ?_, ?_⟩
      · show ((s.testFrom u .hooded).ucb u).st = _
        rw [State.ucb_testFrom]
        exact hst
      · rw [State.handOf_setTile_other _ _ hv.symm, State.handOf_setHand_same]
      · rw [State.tile_setTile_same]
    · rw [show t = _ from State.startTest_asleep hst]
      refine ⟨?_, ?_⟩
      · show ((s.testFrom u _).ucb u).st = _
        rw [State.ucb_testFrom]
      · rw [State.powerUp, State.dom_setDom_same]
    · have hucb : t.ucb u = _ := (congrArg (State.ucb · u) (State.startTest_busy hst)).trans (State.ucb_setUcb_same _ _ _)
      rw [State.unitSt, hucb]
      exact ⟨rfl, rfl, rfl⟩
  case passed =>
    intro s u p c rs hu hst hsafe b hstop back hback
    exact selftestComplete_passes p c rs hu hst hsafe hstop hback
  case failed =>
    intro s u p c rs hu hst hsafe b
    refine ⟨fun r hmem hr hfree => selftestComplete_faults p c rs hu hst hsafe hmem hr hfree,
      fun v hlt hhand hrunning => selftestComplete_faults_redirected p c rs hlt hst hsafe hhand hrunning,
      fun hlt hagain hauto => selftestComplete_waits p c rs hlt hst hsafe hagain hauto, fun v rest hlt hagain hauto hrs hrep => ?_⟩
    subst hrs
    exact selftestComplete_repairs p c hlt hst hsafe hagain hauto hrep
  case handedOver => exact fun s n v hn _ _ hwf hhand hvst hnst => handoverCopyDone_redirects hn hwf hhand hvst hnst
  case released => exact fun s n v hn _ hnv hwf hhand hidle => releaseCopyDone_ends hn hnv hwf hhand hidle
  case repaired =>
    intro s n v hn x
    refine ⟨fun w hw => ⟨execRepairProgramDone_asked hn hw, _, execRepairProgramDone_asked hn hw, ?_⟩, fun hown => execRepairProgramDone_own hn hown,
      fun hown hauto => ⟨_, execRepairProgramDone_own hn hown, ?_⟩⟩
    · obtain ⟨htiles, hmem⟩ := (s.repaired n v).answer_keeps w Sc.ok [] 0
      have htile (m : Nat) : ((s.repaired n v).answer w Sc.ok).tile m = (s.repaired n v).tile m :=
        congrArg (fun t : Tiles => SMap.get ({} : Tile) t.mxt m) htiles
      refine ⟨?_, ?_, fun m hm => ?_, hmem⟩
      · rw [htile, State.repaired, State.tile_setTile_same]
      · rw [htile, State.repaired, State.tile_setTile_same]
      · rw [htile, State.repaired, State.tile_setTile_other _ _ _ _ hm]
    · have htile : (s.repaired n v).tile n = { (s.tile n).program v with repair := none, held := (s.tile n).held } :=
        State.tile_setTile_same _ _ _
      rw [State.autoRepair_last (by rw [htile]; exact (Tile.auto_program _ _).trans hauto)]
      refine ⟨?_, ?_, ?_, rfl⟩
      · rw [State.unitSt, State.ucb_setUcb_same]
      · rw [State.ucb_setUcb_same]
      · rw [State.tile_setUcb, htile]

end Sys2Proof.Machine
end

section
/-!
What work leaves alone: the views of a state that counting keeps, the units that no error report, pellet or memory check touches, and
what a trigger changes.
-/
namespace Sys2Proof.Machine

open Sys2Proof

/-! Counting changes objects alone. -/

section
variable (s : State) (key n : Nat)

@[simp] theorem State.sp_bump (p : Nat) : (s.bump key n).sp p = s.sp p := rfl
@[simp] theorem State.sp_bump64 (p : Nat) : (s.bump64 key n).sp p = s.sp p := rfl
@[simp] theorem State.sec_bump (c : Nat) : (s.bump key n).sec c = s.sec c := rfl
@[simp] theorem State.sec_bump64 (c : Nat) : (s.bump64 key n).sec c = s.sec c := rfl
@[simp] theorem State.sem_bump (m : Nat) : (s.bump key n).sem m = s.sem m := rfl
@[simp] theorem State.sem_bump64 (m : Nat) : (s.bump64 key n).sem m = s.sem m := rfl
@[simp] theorem State.epoch_bump (d : Nat) : (s.bump key n).epoch d = s.epoch d := rfl
@[simp] theorem State.epoch_bump64 (d : Nat) : (s.bump64 key n).epoch d = s.epoch d := rfl
@[simp] theorem State.phy_bump (p : Nat) : (s.bump key n).phy p = s.phy p := rfl
@[simp] theorem State.phy_bump64 (p : Nat) : (s.bump64 key n).phy p = s.phy p := rfl
@[simp] theorem State.lane_bump (p l : Nat) : (s.bump key n).lane p l = s.lane p l := rfl
@[simp] theorem State.lane_bump64 (p l : Nat) : (s.bump64 key n).lane p l = s.lane p l := rfl
@[simp] theorem State.region_bump (r : Nat) : (s.bump key n).region r = s.region r := rfl
@[simp] theorem State.bump64_mem : (s.bump64 key n).mem = s.mem := rfl
@[simp] theorem State.bump_ep : (s.bump key n).ep = s.ep := rfl
@[simp] theorem State.bump64_ep : (s.bump64 key n).ep = s.ep := rfl

end

/-! The units that reports, pellets and memory checks leave alone. -/

/-- What event units, the fabric, the tables and the epoch domains hold. -/
def State.works (s : State) : Events × Fabric × Tables × Epochs := (s.ev, s.fab, s.tab, s.ep)

section
variable {s t : State}

theorem State.works_of_background (h : t.background = s.background) : t.works = s.works :=
  show t.background.works = s.background.works by rw [h]

theorem State.works_ite {c : Prop} [Decidable c] {u : State} (ht : t.works = s.works) (hu : u.works = s.works) :
    (if c then t else u).works = s.works := by split <;> assumption

theorem State.sec_of_works (h : t.works = s.works) (c : Nat) : t.sec c = s.sec c :=
  congrArg (fun e : Events => SMap.get ({} : Sec) e.secs c) (congrArg (·.1) h)

theorem State.sp_of_works (h : t.works = s.works) (p : Nat) : t.sp p = s.sp p :=
  congrArg (fun e : Events => SMap.get ({} : Sp) e.sps p) (congrArg (·.1) h)

theorem State.fab_of_works (h : t.works = s.works) : t.fab = s.fab := congrArg (·.2.1) h

theorem State.region_of_works (h : t.works = s.works) (r : Nat) : t.region r = s.region r :=
  congrArg (fun f : Fabric => SMap.get ({} : Region_) f.regions r) (State.fab_of_works h)

theorem State.tab_of_works (h : t.works = s.works) : t.tab = s.tab := congrArg (·.2.2.1) h

end

section
variable (s : State)

theorem State.works_abortTests : s.abortTests.works = s.works := State.works_of_background s.background_abortTests

theorem State.works_enterSafe : s.enterSafe.works = s.works := by
  have h := s.works_abortTests
  simp only [State.enterSafe]
  revert h
  generalize s.abortTests = t
  intro h
  split
  · rfl
  · exact h

@[simp] theorem State.works_raise (src : Nat) (e : ErrInfo) : (s.raise src e).works = s.works := by
  have ht : (s.tell src e).works = s.works := by
    obtain ⟨_, _, _, _, _, _, _, _, _, _, h, -⟩ := s.tell_told src e
    rw [h]
    rfl
  by_cases h : sourceClass src = .fatal
  · rw [s.raise_fatal e h]
    exact (State.works_enterSafe _).trans ht
  · rw [s.raise_eq_tell e h]
    exact ht

@[simp] theorem State.works_setObj (key v : Nat) : (s.setObj key v).works = s.works := rfl
@[simp] theorem State.works_bump (key n : Nat) : (s.bump key n).works = s.works := rfl
@[simp] theorem State.works_rawWrite (a : Nat) (bs : List Byte) : (s.rawWrite a bs).works = s.works := rfl
@[simp] theorem State.works_setEcc (a : Nat) (e : List (Nat × Nat)) : (s.setEcc a e).works = s.works := rfl
@[simp] theorem State.works_setMark (a m : Nat) : (s.setMark a m).works = s.works := rfl
@[simp] theorem State.works_setUnitSt (u : Nat) (st : UState) : (s.setUnitSt u st).works = s.works := rfl
@[simp] theorem State.works_setMem (m : Memory) : ({ s with mem := m } : State).works = s.works := rfl
@[simp] theorem State.works_setStr (x : Streams) : ({ s with str := x } : State).works = s.works := rfl

@[simp] theorem State.works_pellet (p : PelletInfo) : (s.pellet p).2.works = s.works := by
  simp only [State.pellet]
  split
  · split
    · rw [State.works_raise, State.works_bump]
    · rw [State.works_setMem, State.works_raise, State.works_raise, State.works_bump]
  · split
    · rw [State.works_raise, State.works_raise, State.works_bump]
    · rw [State.works_raise, State.works_bump, State.works_setStr, State.works_rawWrite, apply_ite State.works, State.works_setObj,
        ite_self]

@[simp] theorem State.works_drawN (n : Nat) : (s.drawN n).2.works = s.works := by
  obtain ⟨c, h⟩ := State.drawN_eq n s
  rw [h]
  rfl

@[simp] theorem State.works_drawBytes (n : Nat) : (s.drawBytes n).2.works = s.works := s.works_drawN _

@[simp] theorem State.works_errsStand (a : Nat) (es : List (Nat × Nat)) : (s.errsStand a es).works = s.works :=
  State.works_ite rfl rfl

@[simp] theorem State.works_scramble (a : Nat) : (s.scramble a).works = s.works := s.works_drawBytes 128

@[simp] theorem State.works_checkLine (u a : Nat) : (s.checkLine u a).works = s.works := by
  simp only [State.checkLine]
  split
  · rfl
  split
  · rfl
  have hd : ∀ es, (((s.drawN 1).2.errsStand a es).setEcc a []).works = s.works := fun es => by
    rw [State.works_setEcc, State.works_errsStand, State.works_drawN]
  generalize s.decodeLine a _ = d
  rw [apply_ite State.works, State.works_setMark, State.works_scramble, State.works_pellet, State.works_setObj, State.works_bump, ite_self,
    apply_ite State.works, State.works_raise, State.works_bump, hd, ite_self]

@[simp] theorem State.works_ownRead (u off n : Nat) : (s.ownRead u off n).2.2.works = s.works :=
  foldl_keeps State.works (fun t _ => t.works_checkLine u _) _ _

@[simp] theorem State.works_loseReservations (ag : Agent) (a : Nat) : (s.loseReservations ag a).works = s.works := by
  have hseq (t : State) (q : SMap Sequencer) : ({ t with seqs := q } : State).works = t.works := rfl
  simp only [State.loseReservations, apply_ite State.works, State.works_bump, State.works_setMem, hseq, ite_self]

@[simp] theorem State.works_dropHeld (a n : Nat) : (s.dropHeld a n).works = s.works := State.works_ite rfl rfl

@[simp] theorem State.works_poisonLine (u a m : Nat) : (s.poisonLine u a m).works = s.works := by
  simp only [State.poisonLine, apply_ite State.works, State.works_setUnitSt, State.works_raise, State.works_setMark, State.works_scramble,
    State.works_setEcc, ite_self]

@[simp] theorem State.works_storeLine (u a : Nat) (bs : List Byte) (m : Nat) : (s.storeLine u a bs m).works = s.works := by
  simp only [State.storeLine, apply_ite State.works, State.works_poisonLine, State.works_rawWrite, State.works_setEcc, State.works_bump,
    State.works_setMark, State.works_checkLine, State.works_dropHeld, ite_self]

@[simp] theorem State.works_ownWrite (u off : Nat) (bs : List Byte) (m : Nat) : (s.ownWrite u off bs m).works = s.works := by
  refine foldl_keeps State.works (fun t p => ?_) _ _
  simp only [apply_ite State.works, State.works_storeLine, State.works_setMark, State.works_rawWrite, State.works_setEcc,
    State.works_dropHeld, State.works_loseReservations, ite_self]

end

/-! Triggers of epoch domains (R534, R536). -/

/-- `t` is `s` but for what triggers change: the epoch domains and their counts of lost triggers. -/
def Triggered (s t : State) : Prop :=
  ∃ e k, t = { s with ep := e, dict := k } ∧ ∀ i, (∀ d < 32, i ≠ Obj.ED_OVERRUN d) → t.obj i = s.obj i

section
variable {s t u : State}

theorem Triggered.refl (s : State) : Triggered s s := ⟨_, _, rfl, fun _ _ => rfl⟩

theorem Triggered.trans (h : Triggered s t) (h' : Triggered t u) : Triggered s u := by
  obtain ⟨_, _, ht, hk⟩ := h
  obtain ⟨_, _, hu, hk'⟩ := h'
  exact ⟨_, _, by rw [hu, ht], fun i hi => (hk' i hi).trans (hk i hi)⟩

theorem Triggered.trigger (s : State) {d : Nat} (hd : d < 32) : Triggered s (s.trigger d) := by
  unfold State.trigger
  extract_lets x
  split
  · exact ⟨_, _, rfl, fun _ _ => rfl⟩
  · split
    · exact ⟨_, _, rfl, fun _ _ => rfl⟩
    · exact ⟨_, _, rfl, fun i hi => State.obj_bump_other _ _ _ _ (hi d hd)⟩

theorem Triggered.edSource (h : Triggered s t) {d : Nat} (hd : d < 32) : t.edSource d = s.edSource d := by
  obtain ⟨_, _, -, hk⟩ := h
  exact hk _ fun e he => by unfold Obj.ED_SOURCE Obj.ED_OVERRUN; omega

theorem Triggered.edArg (h : Triggered s t) {d : Nat} (hd : d < 32) : t.edArg d = s.edArg d := by
  obtain ⟨_, _, -, hk⟩ := h
  exact hk _ fun e he => by unfold Obj.ED_SOURCE_ARG Obj.ED_OVERRUN; omega

theorem State.epoch_trigger_other (s : State) {d m : Nat} (h : m ≠ d) : (s.trigger d).epoch m = s.epoch m := by
  unfold State.trigger
  extract_lets x
  split
  · exact State.epoch_setEpoch_other _ _ _ _ h
  · split
    · exact State.epoch_setEpoch_other _ _ _ _ h
    · rfl

/-- What a trigger makes of a domain depends on the domain alone. -/
theorem State.epoch_trigger_congr {d : Nat} (h : t.epoch d = s.epoch d) : (t.trigger d).epoch d = (s.trigger d).epoch d := by
  unfold State.trigger
  simp only [h]
  split
  · rw [State.epoch_setEpoch_same, State.epoch_setEpoch_same]
  · split
    · rw [State.epoch_setEpoch_same, State.epoch_setEpoch_same]
    · exact h

/-- The first n domains take a trigger of a source. -/
theorem State.triggered_range (s : State) (src arg : Nat) {n : Nat} (hn : n ≤ 32) :
    let t := (List.range n).foldl (fun s d => if s.edSource d = src && s.edArg d = arg then s.trigger d else s) s
    Triggered s t ∧ (∀ d, d < n → s.edSource d = src → s.edArg d = arg → t.epoch d = (s.trigger d).epoch d) ∧
    ∀ d, ¬(d < n ∧ s.edSource d = src ∧ s.edArg d = arg) → t.epoch d = s.epoch d := by
  induction n with
  | zero => exact ⟨.refl s, fun d hd => absurd hd (Nat.not_lt_zero d), fun _ _ => rfl⟩
  | succ n ih =>
    obtain ⟨ht, hsame, hother⟩ := ih (by omega)
    rw [List.range_succ, List.foldl_append]
    revert ht hsame hother
    generalize (List.range n).foldl _ s = t
    intro ht hsame hother
    simp only [List.foldl_cons, List.foldl_nil, ht.edSource (show n < 32 by omega), ht.edArg (show n < 32 by omega)]
    by_cases hc : s.edSource n = src ∧ s.edArg n = arg
    · rw [if_pos (by simpa using hc)]
      have hnew : (t.trigger n).epoch n = (s.trigger n).epoch n :=
        State.epoch_trigger_congr (hother n fun h => absurd h.1 (Nat.lt_irrefl n))
      refine ⟨ht.trans (.trigger t (by omega)), fun d hd hs ha => ?_, fun d hd => ?_⟩
      · by_cases hdn : d = n
        · rw [hdn]
          exact hnew
        · exact (State.epoch_trigger_other t hdn).trans (hsame d (by omega) hs ha)
      · have hdn : d ≠ n := fun h => hd ⟨by omega, h ▸ hc.1, h ▸ hc.2⟩
        exact (State.epoch_trigger_other t hdn).trans (hother d fun h => hd ⟨by omega, h.2⟩)
    · rw [if_neg (by simpa using hc)]
      refine ⟨ht, fun d hd hs ha => hsame d ?_ hs ha, fun d hd => hother d fun h => hd ⟨by omega, h.2⟩⟩
      have hdn : d ≠ n := fun h => hc ⟨h ▸ hs, h ▸ ha⟩
      omega

theorem Triggered.triggerSource (s : State) (src arg : Nat) : Triggered s (s.triggerSource src arg) :=
  (s.triggered_range src arg (Nat.le_refl 32)).1

/-- Where the domains stand as in `s`, every domain whose source is the one named takes a trigger, and no other changes (R534). -/
theorem State.epoch_triggerSource (src arg : Nat) (hep : t.ep = s.ep)
    (hobj : ∀ d < 32, t.edSource d = s.edSource d ∧ t.edArg d = s.edArg d) :
    (∀ d, d < 32 → s.edSource d = src → s.edArg d = arg → (t.triggerSource src arg).epoch d = (s.trigger d).epoch d) ∧
    ∀ d, ¬(d < 32 ∧ s.edSource d = src ∧ s.edArg d = arg) → (t.triggerSource src arg).epoch d = s.epoch d := by
  obtain ⟨-, hsame, hother⟩ := t.triggered_range src arg (Nat.le_refl 32)
  have he : ∀ d, t.epoch d = s.epoch d := fun d => congrArg (fun e : Epochs => SMap.get ({} : EpochDom) e.doms d) hep
  refine ⟨fun d hd hs ha => ?_, fun d hd => ?_⟩
  · exact (hsame d hd ((hobj d hd).1.trans hs) ((hobj d hd).2.trans ha)).trans (State.epoch_trigger_congr (he d))
  · refine (hother d fun h => hd ?_).trans (he d)
    exact ⟨h.1, (hobj d h.1).1.symm.trans h.2.1, (hobj d h.1).2.symm.trans h.2.2⟩

end

end Sys2Proof.Machine
end

section
/-!
Sensor ports: what an arriving header leads to, captured frames, words of events, and the registers of frame capture.
-/
namespace Sys2Proof.Machine

open Sys2Proof

/-! Headers (R581, R583, R584, R586). -/

theorem firstMark_ne_zero (a : Nat) {b : Nat} (hb : b ≠ 0) : firstMark a b ≠ 0 := by
  unfold firstMark
  split
  · exact hb
  · split <;> assumption

section
variable {s : State} {p vc ecc : Nat}

theorem State.spHeader_deaf (w : Bool) (hp : p < 8) (hsafe : s.safety.safe = false) (hr : s.spReceives p = false) :
    s.spHeader p vc ecc w = (false, s.spLose p 1) := by
  simp [State.spHeader, hsafe, hr, Nat.not_le.2 hp]

theorem State.spHeader_off (w : Bool) (hp : p < 8) (hsafe : s.safety.safe = false) (hr : s.spReceives p = true) (hm : s.spMode p = 0) :
    s.spHeader p vc ecc w = (false, s) := by
  simp [State.spHeader, hsafe, hr, hm, Nat.not_le.2 hp]

theorem State.spHeader_broken (w : Bool) (hp : p < 8) (hsafe : s.safety.safe = false) (hr : s.spReceives p = true) (hm : s.spMode p ≠ 0)
    (he : 1 < ecc) :
    let r := (s.bump (Obj.SP_HDR_ERRORS p)).spPellet p Es.spHeader
    s.spHeader p vc ecc w = (false, r.2.setSp p { r.2.sp p with pendMark := firstMark (r.2.sp p).pendMark r.1 }) := by
  simp [State.spHeader, hsafe, hr, hm, Nat.not_le.2 hp, he]

theorem State.spHeader_other (w : Bool) (hp : p < 8) (hsafe : s.safety.safe = false) (hr : s.spReceives p = true) (hm : s.spMode p ≠ 0)
    (hvc : vc ≠ s.obj (Obj.SP_VC p)) : s.spHeader p vc 0 w = (false, s.bump (Obj.SP_VC_DISCARDS p)) := by
  simp [State.spHeader, hsafe, hr, hm, Nat.not_le.2 hp, hvc]

theorem State.spHeader_sound (hp : p < 8) (hsafe : s.safety.safe = false) (hr : s.spReceives p = true) (hm : s.spMode p ≠ 0) :
    s.spHeader p (s.obj (Obj.SP_VC p)) 0 true = (true, s.bump64 (Obj.SP_PACKETS p)) := by
  simp [State.spHeader, hsafe, hr, hm, Nat.not_le.2 hp]

/-- A packet whose header does not let it go on leaves what its header does. -/
theorem exec_of_header {dt : Nat} {pay : List Byte} {ok : Bool} {c : Instr} {r : Bool × State}
    (hc : c ∈ [Instr.spFrameStart p vc ecc, .spFrameEnd p vc ecc, .spLongPacket p vc dt ecc pay ok])
    (h : ∀ w, s.spHeader p vc ecc w = r) (hr : r.1 = false) : exec c s = .next r.2 := by
  simp only [List.mem_cons, List.not_mem_nil, or_false] at hc
  obtain rfl | rfl | rfl := hc
  · show execSpFrameStart p vc ecc s = _
    simp only [execSpFrameStart, h, hr, Bool.not_false, if_true]
  · show execSpFrameEnd p vc ecc s = _
    simp only [execSpFrameEnd, h, hr, Bool.not_false, if_true]
  · show execSpLongPacket p vc dt ecc pay ok s = _
    simp only [execSpLongPacket, h, hr, Bool.not_false, if_true]

end

theorem State.spPellet_ne_zero (s : State) (p src : Nat) : (s.spPellet p src).1 ≠ 0 := Nat.succ_ne_zero _

theorem State.sp_spPellet (s : State) (p src q : Nat) : (s.spPellet p src).2.sp q = s.sp q := State.sp_of_works (s.works_pellet _) q

/-- A port passes on no packet that it does not receive, that its mode ignores, whose header is broken, or of another channel. -/
theorem portsSortHeaders (s : State) (p vc ecc dt : Nat) (pay : List Byte) (ok : Bool) (hp : p < 8) (hsafe : s.safety.safe = false) :
    ∀ c ∈ [Instr.spFrameStart p vc ecc, .spFrameEnd p vc ecc, .spLongPacket p vc dt ecc pay ok],
    (s.spReceives p = false → Completes c s fun t => (t.sp p).loss = true ∧
      t.obj (Obj.SP_OVERRUN p) = satBump 32 (s.obj (Obj.SP_OVERRUN p)) 1 ∧ (∀ q, q ≠ p → t.sp q = s.sp q) ∧ t.mem = s.mem) ∧
    (s.spReceives p = true → s.spMode p = 0 → exec c s = .next s) ∧
    (s.spReceives p = true → s.spMode p ≠ 0 → 1 < ecc → Completes c s fun t => (t.sp p).pendMark ≠ 0 ∧ ∀ q, q ≠ p → t.sp q = s.sp q) ∧
    (s.spReceives p = true → s.spMode p ≠ 0 → ecc = 0 → vc ≠ s.obj (Obj.SP_VC p) →
      exec c s = .next (s.bump (Obj.SP_VC_DISCARDS p))) := by
  intro c hc
  refine ⟨fun hr => ?_, fun hr hm => ?_, fun hr hm he => ?_, fun hr hm he hvc => ?_⟩
  · refine ⟨_, exec_of_header hc (fun w => State.spHeader_deaf w hp hsafe hr) rfl, ?_, s.obj_bump_same _ _, fun q hq => ?_, rfl⟩
    · simp [State.spLose]
    · exact State.sp_setSp_other _ _ _ _ hq
  · exact exec_of_header hc (fun w => State.spHeader_off w hp hsafe hr hm) rfl
  · refine ⟨_, exec_of_header hc (fun w => State.spHeader_broken w hp hsafe hr hm he) rfl, ?_, fun q hq => ?_⟩
    · rw [State.sp_setSp_same]
      exact firstMark_ne_zero _ (State.spPellet_ne_zero _ _ _)
    · exact (State.sp_setSp_other _ _ _ _ hq).trans (State.sp_spPellet _ _ _ _)
  · subst he
    exact exec_of_header hc (fun w => State.spHeader_other w hp hsafe hr hm hvc) rfl

/-! Frame starts and frame ends (R592, R594, R606). -/

/-- Outputs made in turn. -/
theorem State.foldl_emit {β : Type} (f : β → Output) (l : List β) (s : State) :
    l.foldl (fun s d => s.emit (f d)) s = { s with out := s.out ++ l.map f } := by
  induction l generalizing s with
  | nil => simp
  | cons d l ih =>
    rw [List.foldl_cons, ih]
    simp [State.emit]

/-- Items for the fabric change neither memory nor the epoch domains. -/
theorem State.spItems_keeps (s : State) (p mark vc dt m : Nat) (bs : List Byte) :
    (s.spItems p mark vc dt m bs).ep = s.ep ∧ (s.spItems p mark vc dt m bs).mem = s.mem := by
  simp only [State.spItems, State.foldl_emit]
  split
  · generalize (if mark ≠ 0 then _ else _ : List (List Byte)) = parts
    constructor <;> dsimp only <;> split <;> rfl
  · constructor <;> split <;> rfl

/-- Posting changes the table of semaphores and its count of overflows. -/
theorem State.post_keeps (s : State) (m n : Nat) : (s.post m n).2.ep = s.ep ∧ (s.post m n).2.mem = s.mem ∧ (s.post m n).2.ev = s.ev := by
  unfold State.post
  split <;> exact ⟨rfl, rfl, rfl⟩

theorem State.breakFrame_keeps (s : State) (p f : Nat) : (s.breakFrame p f).ep = s.ep ∧ (s.breakFrame p f).mem = s.mem := by
  unfold State.breakFrame
  extract_lets x t
  split
  · obtain ⟨he, hm, -⟩ := t.post_keeps (semOf (frPair x.frCfg) 1) 1
    exact ⟨he, hm⟩
  · exact ⟨rfl, rfl⟩

theorem State.captureStart_keeps (s : State) (p : Nat) : (s.captureStart p).ep = s.ep ∧ (s.captureStart p).mem = s.mem := by
  unfold State.captureStart
  extract_lets t x free
  have ht : t.ep = s.ep ∧ t.mem = s.mem := by
    show (if _ then _ else s : State).ep = _ ∧ (if _ then _ else s : State).mem = _
    split
    · exact s.breakFrame_keeps p _
    · exact ⟨rfl, rfl⟩
  split <;> exact ht

/-- What a frame start that a port takes leaves, before what its mode does with it. -/
def State.frameStarted (s : State) (p : Nat) : State := (s.bump64 (Obj.SP_PACKETS p)).triggerSource 3 p

section
variable {s : State} {p : Nat}

theorem State.frameStarted_triggered (s : State) (p : Nat) : Triggered (s.bump64 (Obj.SP_PACKETS p)) (s.frameStarted p) :=
  .triggerSource ..

theorem State.spMode_frameStarted (hp : p < 8) : (s.frameStarted p).spMode p = s.spMode p := by
  obtain ⟨_, _, -, hk⟩ := s.frameStarted_triggered p
  refine (hk _ fun d hd => ?_).trans (State.obj_bump64_other _ _ _ _ ?_)
  · unfold Obj.SP_MODE Obj.ED_OVERRUN
    omega
  · unfold Obj.SP_MODE Obj.SP_PACKETS
    omega

theorem exec_spFrameStart (hp : p < 8) (hsafe : s.safety.safe = false) (hr : s.spReceives p = true) (hm : s.spMode p ≠ 0) :
    (s.spMode p = 2 → exec (.spFrameStart p (s.obj (Obj.SP_VC p)) 0) s =
      .next ((s.frameStarted p).spItems p 1 (s.obj (Obj.SP_VC p)) 0 0 [])) ∧
    (s.spMode p = 3 → exec (.spFrameStart p (s.obj (Obj.SP_VC p)) 0) s = .next ((s.frameStarted p).captureStart p)) ∧
    (s.spMode p ≠ 2 → s.spMode p ≠ 3 → exec (.spFrameStart p (s.obj (Obj.SP_VC p)) 0) s = .next (s.frameStarted p)) := by
  have hmode := State.spMode_frameStarted (s := s) hp
  have h : exec (.spFrameStart p (s.obj (Obj.SP_VC p)) 0) s = execSpFrameStart p (s.obj (Obj.SP_VC p)) 0 s := rfl
  have hu : (s.bump64 (Obj.SP_PACKETS p)).triggerSource 3 p = s.frameStarted p := rfl
  simp only [h, execSpFrameStart, State.spHeader_sound hp hsafe hr hm, Bool.not_true, Bool.false_eq_true, if_false, hu]
  refine ⟨fun h2 => ?_, fun h3 => ?_, fun h2 h3 => ?_⟩
  · simp only [hmode, h2]
  · simp only [hmode, h3]
  · split
    · exact absurd (hmode.symm.trans ‹_›) h2
    · exact absurd (hmode.symm.trans ‹_›) h3
    · rfl

/-- A frame start triggers the domains that have it as their source, and changes no memory. -/
theorem frameStartTriggers (hp : p < 8) (hsafe : s.safety.safe = false) (hr : s.spReceives p = true) (hm : s.spMode p ≠ 0) :
    Completes (.spFrameStart p (s.obj (Obj.SP_VC p)) 0) s fun t =>
      (∀ d, d < 32 → s.edSource d = 3 → s.edArg d = p → t.epoch d = (s.trigger d).epoch d) ∧
      (∀ d, ¬(d < 32 ∧ s.edSource d = 3 ∧ s.edArg d = p) → t.epoch d = s.epoch d) ∧ t.mem = s.mem := by
  have hmem : (s.frameStarted p).mem = s.mem := by
    obtain ⟨_, _, h, -⟩ := s.frameStarted_triggered p
    rw [h]
    rfl
  obtain ⟨hsame, hother⟩ := State.epoch_triggerSource (s := s) (t := s.bump64 (Obj.SP_PACKETS p)) 3 p rfl fun d hd =>
    ⟨State.obj_bump64_other _ _ _ _ (by unfold Obj.ED_SOURCE Obj.SP_PACKETS; omega),
      State.obj_bump64_other _ _ _ _ (by unfold Obj.ED_SOURCE_ARG Obj.SP_PACKETS; omega)⟩
  suffices h : ∀ t : State, t.ep = (s.frameStarted p).ep → t.mem = (s.frameStarted p).mem →
      (∀ d, d < 32 → s.edSource d = 3 → s.edArg d = p → t.epoch d = (s.trigger d).epoch d) ∧
      (∀ d, ¬(d < 32 ∧ s.edSource d = 3 ∧ s.edArg d = p) → t.epoch d = s.epoch d) ∧ t.mem = s.mem by
    obtain ⟨h2, h3, ho⟩ := exec_spFrameStart hp hsafe hr hm
    by_cases hm2 : s.spMode p = 2
    · obtain ⟨he, hm⟩ := (s.frameStarted p).spItems_keeps p 1 (s.obj (Obj.SP_VC p)) 0 0 []
      exact ⟨_, h2 hm2, h _ he hm⟩
    by_cases hm3 : s.spMode p = 3
    · obtain ⟨he, hm⟩ := (s.frameStarted p).captureStart_keeps p
      exact ⟨_, h3 hm3, h _ he hm⟩
    · exact ⟨_, ho hm2 hm3, h _ rfl rfl⟩
  intro t he hm
  have hd (d : Nat) : t.epoch d = (s.frameStarted p).epoch d := congrArg (fun e : Epochs => SMap.get ({} : EpochDom) e.doms d) he
  exact ⟨fun d h1 h2 h3 => (hd d).trans (hsame d h1 h2 h3), fun d h => (hd d).trans (hother d h), hm.trans hmem⟩

theorem State.frameStarted_eq (s : State) (p : Nat) : ∃ e k, s.frameStarted p = { s with ep := e, dict := k } := by
  obtain ⟨e, k, h, -⟩ := s.frameStarted_triggered p
  exact ⟨e, k, h⟩

theorem State.sp_frameStarted (q : Nat) : (s.frameStarted p).sp q = s.sp q := by
  obtain ⟨_, _, h⟩ := s.frameStarted_eq p
  rw [h]
  rfl

theorem State.sem_frameStarted (m : Nat) : (s.frameStarted p).sem m = s.sem m := by
  obtain ⟨_, _, h⟩ := s.frameStarted_eq p
  rw [h]
  rfl

theorem State.frameDrops_frameStarted (hp : p < 8) : (s.frameStarted p).obj (Obj.SP_FRAME_DROPS p) = s.obj (Obj.SP_FRAME_DROPS p) := by
  obtain ⟨_, _, -, hk⟩ := s.frameStarted_triggered p
  refine (hk _ fun d hd => ?_).trans (State.obj_bump64_other _ _ _ _ ?_)
  · unfold Obj.SP_FRAME_DROPS Obj.ED_OVERRUN
    omega
  · unfold Obj.SP_FRAME_DROPS Obj.SP_PACKETS
    omega

/-- In FRAME_TILE a frame start takes FREE and begins a capture. -/
theorem captureBegins (hp : p < 8) (hsafe : s.safety.safe = false) (hr : s.spReceives p = true) (hm : s.spMode p = 3)
    (hin : (s.sp p).inFrame = false) (hv : bit (s.sp p).frCfg 63 = true) (hf : s.sem (semOf (frPair (s.sp p).frCfg) 1) ≠ 0) :
    Completes (.spFrameStart p (s.obj (Obj.SP_VC p)) 0) s fun t =>
      t.sp p = { s.sp p with inFrame := true, line := 0, frame := (s.sp p).frame + 1 } ∧
      t.sem (semOf (frPair (s.sp p).frCfg) 1) = s.sem (semOf (frPair (s.sp p).frCfg) 1) - 1 ∧
      (∀ m, m ≠ semOf (frPair (s.sp p).frCfg) 1 → t.sem m = s.sem m) ∧ ∀ q, q ≠ p → t.sp q = s.sp q := by
  refine ⟨_, (exec_spFrameStart hp hsafe hr (by omega)).2.1 hm, ?_⟩
  simp only [State.captureStart, State.sp_frameStarted, State.sem_frameStarted, hin, hv, hf, Bool.not_true, decide_false, Bool.or_self,
    Bool.false_eq_true, if_false, State.sp_setSp_same, State.sem_setSp, State.sem_setSem_same]
  refine ⟨trivial, trivial, fun m hne => ?_, fun q hq => ?_⟩
  · exact (State.sem_setSem_other _ _ _ _ hne).trans (State.sem_frameStarted m)
  · rw [State.sp_setSp_other _ _ _ _ hq, State.setSem, State.sp_setJess, State.sp_frameStarted]

/-- Without FREE the frame is dropped and counted. -/
theorem captureDropped (hp : p < 8) (hsafe : s.safety.safe = false) (hr : s.spReceives p = true) (hm : s.spMode p = 3)
    (hin : (s.sp p).inFrame = false) (hf : s.sem (semOf (frPair (s.sp p).frCfg) 1) = 0) :
    Completes (.spFrameStart p (s.obj (Obj.SP_VC p)) 0) s fun t =>
      t.sp p = s.sp p ∧ t.obj (Obj.SP_FRAME_DROPS p) = satBump 32 (s.obj (Obj.SP_FRAME_DROPS p)) 1 ∧ ∀ m, t.sem m = s.sem m := by
  refine ⟨_, (exec_spFrameStart hp hsafe hr (by omega)).2.1 hm, ?_⟩
  simp only [State.captureStart, State.sp_frameStarted, State.sem_frameStarted, hin, hf, decide_true, Bool.or_true, Bool.false_eq_true,
    if_true, if_false]
  simp only [State.sp_bump, State.sem_bump, State.sp_frameStarted, State.sem_frameStarted, State.obj_bump_same,
    State.frameDrops_frameStarted hp, implies_true, and_self]

theorem exec_spFrameEnd (hp : p < 8) (hsafe : s.safety.safe = false) (hr : s.spReceives p = true) :
    (s.spMode p = 1 → exec (.spFrameEnd p (s.obj (Obj.SP_VC p)) 0) s = .next ((s.bump64 (Obj.SP_PACKETS p)).flushBeats p)) ∧
    (s.spMode p = 3 → (s.sp p).inFrame = true → exec (.spFrameEnd p (s.obj (Obj.SP_VC p)) 0) s =
      .next ((s.bump64 (Obj.SP_PACKETS p)).setSp p { s.sp p with
        inFrame := false, ended := (s.sp p).ended ++ [(s.sp p).frame], slot := ((s.sp p).slot + 1) % frSlots (s.sp p).frCfg })) := by
  have hmode : (s.bump64 (Obj.SP_PACKETS p)).spMode p = s.spMode p :=
    State.obj_bump64_other _ _ _ _ (by unfold Obj.SP_MODE Obj.SP_PACKETS; omega)
  have h : exec (.spFrameEnd p (s.obj (Obj.SP_VC p)) 0) s = execSpFrameEnd p (s.obj (Obj.SP_VC p)) 0 s := rfl
  refine ⟨fun hm => ?_, fun hm hin => ?_⟩
  · simp only [h, execSpFrameEnd, State.spHeader_sound hp hsafe hr (by omega), Bool.not_true, Bool.false_eq_true, if_false, hmode, hm]
  · simp only [h, execSpFrameEnd, State.spHeader_sound hp hsafe hr (by omega), Bool.not_true, Bool.false_eq_true, if_false, hmode, hm,
      State.sp_bump64, hin, if_true]

/-- In FRAME_TILE a frame end queues the captured slot. -/
theorem captureEnds (hp : p < 8) (hsafe : s.safety.safe = false) (hr : s.spReceives p = true) (hm : s.spMode p = 3)
    (hin : (s.sp p).inFrame = true) : Completes (.spFrameEnd p (s.obj (Obj.SP_VC p)) 0) s fun t =>
      t.sp p = { s.sp p with
        inFrame := false, ended := (s.sp p).ended ++ [(s.sp p).frame], slot := ((s.sp p).slot + 1) % frSlots (s.sp p).frCfg } ∧
      (∀ m, t.sem m = s.sem m) ∧ t.mem = s.mem :=
  ⟨_, (exec_spFrameEnd hp hsafe hr).2 hm hin, State.sp_setSp_same .., fun _ => rfl, rfl⟩

end

end Sys2Proof.Machine
end

section
/-!
Sensor ports, continued: long packets, words of events, delivery, and the registers of frame capture.
-/
namespace Sys2Proof.Machine

open Sys2Proof

/-! Numbers as bytes. -/

theorem ofLE_leBytes (n v : Nat) : ofLE (leBytes n v) = v % 256 ^ n := by
  induction n generalizing v with
  | zero => simp [leBytes, ofLE, Nat.mod_one]
  | succ n ih =>
    rw [leBytes, ofLE, ih, BitVec.toNat_ofNat, Nat.pow_succ]
    exact ((congrArg (v % ·) (Nat.mul_comm _ _)).trans (Nat.mod_mul (x := v) (a := 256))).symm

theorem fieldLE_leBytes (n v : Nat) : fieldLE (leBytes n v) 0 n = v % 256 ^ n := by
  rw [fieldLE, List.drop_zero, List.take_of_length_le (Nat.le_of_eq (length_leBytes n v)), ofLE_leBytes]

/-! Long packets (R581, R585, R587, R594). -/

section
variable {s : State} {p dt : Nat}

theorem exec_spLongPacket (pay : List Byte) (hp : p < 8) (hsafe : s.safety.safe = false) (hr : s.spReceives p = true)
    (hm : s.spMode p ≠ 0) (hdt : dt = s.obj (Obj.SP_DATA_TYPE p)) (h2 : dt ≠ 2) (h3 : dt ≠ 3) (ha : (s.sp p).armed = false) :
    let u := s.bump64 (Obj.SP_PACKETS p)
    (s.spMode p = 3 → exec (.spLongPacket p (s.obj (Obj.SP_VC p)) dt 0 pay true) s = .next (u.spLine p 0 pay)) ∧
    (s.spMode p = 1 → exec (.spLongPacket p (s.obj (Obj.SP_VC p)) dt 0 pay true) s =
      .next (let v := (List.range (pay.length / (u.inWidth p / 8))).foldl (fun s i =>
          s.spWord p (fieldLE pay (i * (u.inWidth p / 8)) (u.inWidth p / 8)) 0 u.nowUs) u
        if pay.length % (u.inWidth p / 8) = 0 then v else v.bump (Obj.SP_NOMATCH p) (pay.length % (u.inWidth p / 8)))) := by
  have hmode : (s.bump64 (Obj.SP_PACKETS p)).spMode p = s.spMode p :=
    State.obj_bump64_other _ _ _ _ (by unfold Obj.SP_MODE Obj.SP_PACKETS; omega)
  have h : exec (.spLongPacket p (s.obj (Obj.SP_VC p)) dt 0 pay true) s = execSpLongPacket p (s.obj (Obj.SP_VC p)) dt 0 pay true s := rfl
  have hw : (false || decide (dt = s.obj (Obj.SP_DATA_TYPE p))) = true := by simp [← hdt]
  have hs : (decide (dt = 2) || decide (dt = 3)) = false := by simp [h2, h3]
  refine ⟨fun hm3 => ?_, fun hm1 => ?_⟩
  · simp only [h, execSpLongPacket, hs, hw, State.spHeader_sound hp hsafe hr hm, Bool.not_true, Bool.false_eq_true, if_false,
      State.sp_bump64, ha, Bool.or_self, hmode, hm3]
  · simp only [h, execSpLongPacket, hs, hw, State.spHeader_sound hp hsafe hr hm, Bool.not_true, Bool.false_eq_true, if_false,
      State.sp_bump64, ha, Bool.or_self, hmode, hm1]

/-- A payload of one word of 64 bits gives that word to the rules. -/
theorem exec_spLongPacket_word {w : Nat} (hp : p < 8) (hsafe : s.safety.safe = false) (hr : s.spReceives p = true)
    (hdt : dt = s.obj (Obj.SP_DATA_TYPE p)) (h2 : dt ≠ 2) (h3 : dt ≠ 3) (ha : (s.sp p).armed = false) (hm : s.spMode p = 1)
    (hin : s.inWidth p = 64) (hwv : w < 2 ^ 64) : exec (.spLongPacket p (s.obj (Obj.SP_VC p)) dt 0 (leBytes 8 w) true) s =
      .next ((s.bump64 (Obj.SP_PACKETS p)).spWord p w 0 s.nowUs) := by
  rw [(exec_spLongPacket (leBytes 8 w) hp hsafe hr (by omega) hdt h2 h3 ha).2 hm]
  have hin' : (s.bump64 (Obj.SP_PACKETS p)).inWidth p = 64 := by
    rw [← hin, State.inWidth, State.inWidth, State.obj_bump64_other _ _ _ _ (by unfold Obj.SP_EVT_WORD Obj.SP_PACKETS; omega)]
  have hnow : (s.bump64 (Obj.SP_PACKETS p)).nowUs = s.nowUs := rfl
  have hword : fieldLE (leBytes 8 w) 0 8 = w := (fieldLE_leBytes 8 w).trans (Nat.mod_eq_of_lt (by simpa using hwv))
  simp only [length_leBytes, hin', hnow, Nat.reduceDiv, Nat.reduceMod, if_true, List.range_one, List.foldl_cons, List.foldl_nil,
    Nat.zero_mul, hword]

/-! Words (R587, R589, R590). -/

/-- The rules of a port that a word satisfies. -/
def State.ruleHits (s : State) (p w : Nat) : List Nat :=
  (List.range 16).filter fun r => bit (s.ruleWord p r 2) 63 && Nat.land w (s.ruleWord p r 0) == s.ruleWord p r 1

theorem State.spTime_lt (s : State) (p t arrival : Nat) : s.spTime p t arrival < 2 ^ 32 := by
  unfold State.spTime
  extract_lets e off
  split <;> exact Nat.mod_lt _ (by decide)

/-- The fields of an event word that a port makes. -/
theorem event_fields {k t p pol x y : Nat} (ht : t < 2 ^ 32) (hp : p < 8) (hpol : pol < 2) (hx : x < 4096) (hy : y < 4096) :
    let e := k * 2 ^ 60 + t * 2 ^ 28 + p * 2 ^ 25 + pol * 2 ^ 24 + y * 4096 + x
    evX e = x ∧ evY e = y ∧ evPort e = p ∧ evTime e = t ∧ evPol e = pol := by
  simp only [evX, evY, evPort, evTime, evPol, bits]
  omega

theorem bits_one_lt (v lo : Nat) : bits v lo 1 < 2 := Nat.mod_lt _ (by decide)

theorem wordsBecomeEvents (v : List Nat) (w m arrival r : Nat) (hp : p < 8) (hv : s.ruleHits p w = v) :
    let k := s.ruleWord p r 2
    let time := bits w (bits k 44 6) (bits k 50 6)
    let ex := bits w (bits k 8 6) (bits k 16 4)
    let ey := bits w (bits k 24 6) (bits k 32 4)
    (v = [] → s.spWord p w m arrival = s.bump (Obj.SP_NOMATCH p)) ∧
    (v = [r] → bits k 60 2 = 1 → s.spWord p w m arrival = s.setSp p { s.sp p with tHigh := time }) ∧
    (v = [r] → bits k 60 2 = 0 → ex < bits (s.obj (Obj.SP_GEOMETRY p)) 0 13 → ey < bits (s.obj (Obj.SP_GEOMETRY p)) 16 13 →
      ex < 4096 → ey < 4096 → ∃ e, s.spWord p w m arrival = s.spEvent p e m ∧ evX e = ex ∧ evY e = ey ∧ evPort e = p ∧
        evTime e = s.spTime p time arrival ∧ evPol e = (if bit k 58 then bits k 57 1 else bits w (bits k 38 6) 1)) := by
  intro k time ex ey
  rw [State.ruleHits] at hv
  refine ⟨fun h => ?_, fun h hk => ?_, fun h hk hx hy hx' hy' => ?_⟩
  · simp only [State.spWord, hv, h]
  · simp only [State.spWord, hv, h, List.isEmpty_nil, if_true]
    simp only [show s.ruleWord p r 2 = k from rfl, hk]
    rfl
  · refine ⟨_, ?_, event_fields (k := bits k 59 1) (s.spTime_lt p time arrival) hp ?_ hx' hy'⟩
    · simp only [State.spWord, hv, h, List.isEmpty_nil, if_true]
      simp only [show s.ruleWord p r 2 = k from rfl, hk]
      rw [if_neg]
      simp only [Bool.or_eq_true, decide_eq_true_eq, not_or, Nat.not_le]
      exact ⟨hx, hy⟩
    · split <;> exact bits_one_lt _ _

/-! Delivery and frame capture (R592, R594, R619). -/

theorem State.flushBeats_of_empty (h : (s.sp p).fifo = []) : s.flushBeats p = s := by
  have hb : State.sendBeats p 256 s = s := by simp [State.sendBeats, h]
  simp [State.flushBeats, hb, h, State.sendBeat]

theorem framePosted {f : Nat} {r : List Nat} (hp : p < 8) (hsafe : s.safety.safe = false) (ht : (s.sp p).todo = [])
    (he : (s.sp p).ended = f :: r) (hw : s.writing (.line p f) = false) (hsem : s.sem (semOf (frPair (s.sp p).frCfg) 0) < 65535) :
    Completes (.spFrameFillPost p) s fun t => t.sp p = { s.sp p with ended := r } ∧
      t.sem (semOf (frPair (s.sp p).frCfg) 0) = s.sem (semOf (frPair (s.sp p).frCfg) 0) + 1 ∧
      (∀ m, m ≠ semOf (frPair (s.sp p).frCfg) 0 → t.sem m = s.sem m) ∧ t.mem = s.mem := by
  have hex : exec (.spFrameFillPost p) s = .next ((((s.setSp p { s.sp p with ended := r }).setSem (semOf (frPair (s.sp p).frCfg) 0)
      (s.sem (semOf (frPair (s.sp p).frCfg) 0) + 1))).bump (Obj.SP_FRAMES p)) := by
    show execSpFrameFillPost p s = _
    have hpost (x : Sp) := State.post_of_le (s := s.setSp p x) (m := semOf (frPair (s.sp p).frCfg) 0) (n := 1)
      (by rw [State.sem_setSp]; omega)
    simp only [execSpFrameFillPost, hsafe, Nat.not_le.2 hp, decide_false, Bool.false_eq_true, if_false, ht, List.length_nil,
      State.pumpLines, he, List.any_nil, hw, Bool.or_self, hpost, State.sem_setSp]
  refine ⟨_, hex, ?_⟩
  simp only [State.sp_bump, State.sem_bump, State.bump_mem, State.setSem, State.sp_setJess, State.sp_setSp_same,
    true_and]
  exact ⟨State.sem_setSem_same .., fun m hm => State.sem_setSem_other _ _ _ _ hm, rfl⟩

theorem exec_frCfgWrite {off v : Nat} (hp : p < 8) (hoff : off = 0x10 ∨ off = 0x18) (hv : v < 2 ^ 64) :
    exec (.frCfgWrite p off v) s = .next (s.frWrite p off v).2 := by
  show occ (decide (p < 8) && (off == 0x10 || off == 0x18) && decide (v < 2 ^ 64)) s _ = _
  have h : (decide (p < 8) && (off == 0x10 || off == 0x18) && decide (v < 2 ^ 64)) = true := by
    rw [decide_eq_true hp, decide_eq_true hv]
    simpa using hoff
  rw [occ, if_pos h]

/-- The registers of frame capture are refused while in use, or with a reserved bit, and else take their value. -/
theorem captureRegistersWritten (hp : p < 8) :
    (∀ v, v < 2 ^ 64 → (bit (s.sp p).frCfg 63 = false ∨ s.spMode p ≠ 3) →
      (Completes (.frCfgWrite p 0x10 v) s fun t => t.sp p = { s.sp p with frBase := v } ∧ t.dict = s.dict ∧ t.mem = s.mem) ∧
      (Nat.land v 0x780000000000F8C0 ≠ 0 → Completes (.frCfgWrite p 0x18 v) s fun t =>
        t.sp p = { s.sp p with regStatus := Sc.reservedNonzero + 0x18 * 256 } ∧ t.dict = s.dict ∧ t.mem = s.mem)) ∧
    (∀ v, v < 2 ^ 64 → bit v 63 = false → Nat.land v 0x780000000000F8C0 = 0 → (s.sp p).inFrame = false →
      Completes (.frCfgWrite p 0x18 v) s fun t => t.sp p = { s.sp p with frCfg := v } ∧ t.dict = s.dict ∧ t.mem = s.mem) ∧
    (∀ v off, v < 2 ^ 64 → bit (s.sp p).frCfg 63 = true → s.spMode p = 3 → (off = 0x10 ∨ off = 0x18 ∧ bit v 63 = true) →
      Completes (.frCfgWrite p off v) s fun t =>
        t.sp p = { s.sp p with regStatus := Sc.accessDenied + off * 256 } ∧ t.dict = s.dict ∧ t.mem = s.mem) := by
  refine ⟨fun v hv hfree => ?_, fun v hv h63 hz hin => ?_, fun v off hv hbit hm hoff => ?_⟩
  · have hnot : ∀ c : Bool, (bit (s.sp p).frCfg 63 && decide (s.spMode p = 3) && c) = false := fun c => by
      obtain h | h := hfree <;> simp [h]
    refine ⟨⟨_, exec_frCfgWrite hp (.inl rfl) hv, ?_⟩, fun hz => ⟨_, exec_frCfgWrite hp (.inr rfl) hv, ?_⟩⟩
    · simp only [State.frWrite, hnot, Bool.false_eq_true, if_false, if_true, State.sp_setSp_same, true_and]
      exact ⟨rfl, rfl⟩
    · simp only [State.frWrite, hnot, Bool.false_eq_true, if_false, ne_eq, hz, not_false_eq_true, if_true, State.sp_setSp_same,
        show ¬ (0x18 = 0x10) by decide, true_and]
      exact ⟨rfl, rfl⟩
  · refine ⟨_, exec_frCfgWrite hp (.inr rfl) hv, ?_⟩
    simp only [State.frWrite, h63, hz, hin, Bool.not_false, Bool.and_true, decide_true, Bool.not_true, Bool.and_false, Bool.false_eq_true,
      if_false, if_true, ne_eq, not_true_eq_false, show ¬ (0x18 = 0x10) by decide, State.sp_setSp_same, true_and]
    exact ⟨rfl, rfl⟩
  · refine ⟨_, exec_frCfgWrite hp (by omega) hv, ?_⟩
    have hden : (bit (s.sp p).frCfg 63 && decide (s.spMode p = 3) && !(decide (off = 0x18) && !bit v 63)) = true := by
      obtain rfl | ⟨rfl, h63⟩ := hoff
      · simp [hbit, hm]
      · simp [hbit, hm, h63]
    simp only [State.frWrite, hden, if_true, State.sp_setSp_same, true_and]
    exact ⟨rfl, rfl⟩

end

end Sys2Proof.Machine
end

section
/-!
Spiking event cores: the neuron, dequeued events, closed bins and their FILL posts; and the claim on ports and cores.
-/
namespace Sys2Proof.Machine

open Sys2Proof

/-! The neuron (R601). -/

/-- The age of a neuron in µs at a time, 0 where the time lies before its last update. -/
theorem neuronUpdated (l : Layer) (co t : Nat) (n : Neuron) (w : Int) :
    let d0 := (t + 2 ^ 32 - n.tUpd) % 2 ^ 32
    let d := if d0 < 2 ^ 31 then d0 else 0
    let z := updateNeuron l co n t w
    (d < n.ref → z = { n := { n with tUpd := t, ref := n.ref - d }, ignored := true }) ∧
    (n.ref ≤ d →
      let drop : Int := (min 32767 (d * l.param co 4 2 / 2 ^ l.param co 6 1) : Nat)
      let leaked := if 0 < n.v then max 0 (n.v - drop) else min 0 (n.v + drop)
      let v := leaked + w * (2 ^ l.param co 7 1 : Nat)
      let cl := max (-32768) (min 32767 v)
      let th : Int := (l.param co 0 2 : Nat)
      z.ignored = false ∧ z.n.tUpd = t ∧ z.clamped = decide (cl ≠ v) ∧ z.spiked = decide (th ≤ cl) ∧
      (th ≤ cl → z.n.ref = l.param co 8 2 ∧ z.n.v = if l.param co 10 1 = 0 then sgn 16 (l.param co 2 2) else cl - th) ∧
      (cl < th → z.n.ref = 0 ∧ z.n.v = cl)) := by
  intro d0 d z
  have hd : (if 2 ^ 31 ≤ d0 then 0 else d0) = d := by
    show _ = if d0 < 2 ^ 31 then d0 else 0
    split <;> split <;> omega
  have hz : z = updateNeuron l co n t w := rfl
  simp only [updateNeuron, show (t + 2 ^ 32 - n.tUpd) % 2 ^ 32 = d0 from rfl, hd] at hz
  refine ⟨fun h => ?_, fun h => ?_⟩
  · rw [hz, if_pos (by omega)]
  · rw [if_neg (by omega)] at hz
    intro drop leaked v cl th
    -- the model leaks in two steps, of which one acts
    have hleak : (if (if n.v > 0 then max 0 (n.v - drop) else n.v) < 0 then
        min 0 ((if n.v > 0 then max 0 (n.v - drop) else n.v) + drop) else if n.v > 0 then max 0 (n.v - drop) else n.v) = leaked := by
      have hdrop : 0 ≤ drop := Int.natCast_nonneg _
      show _ = if 0 < n.v then max 0 (n.v - drop) else min 0 (n.v + drop)
      split <;> split <;> omega
    simp only [show ((min 32767 (d * l.param co 4 2 / 2 ^ l.param co 6 1) : Nat) : Int) = drop from rfl, hleak] at hz
    by_cases hth : th ≤ cl
    · rw [if_pos hth] at hz
      rw [hz]
      exact ⟨rfl, rfl, rfl, (decide_eq_true hth).symm, fun _ => ⟨rfl, rfl⟩, fun h => absurd hth (Int.not_le.2 h)⟩
    · rw [if_neg hth] at hz
      rw [hz]
      exact ⟨rfl, rfl, rfl, (decide_eq_false hth).symm, fun h => absurd h hth, fun _ => ⟨rfl, rfl⟩⟩

/-! Events (R598, R601, R604). -/

theorem eventsDequeued (s : State) (c w m : Nat) (rest : List (Nat × Nat)) (hruns : s.secRuns c = true)
    (hq : (s.sec c).queue = (w, m) :: rest) :
    let x : Sec := { s.sec c with queue := rest }
    ((s.sec c).layer = none → exec (.secEventProcess c) s = .next ((s.setSec c x).bump64 (Obj.SEC_FILTERED c))) ∧
    (∀ l, (s.sec c).layer = some l →
      (l.accepts w = false → exec (.secEventProcess c) s = .next ((s.setSec c x).bump64 (Obj.SEC_FILTERED c))) ∧
      (l.accepts w = true → l.binMode ≠ 0 ∨ (x.binOpen = true ∧ atOrAfter (evTime w) (x.tStart + l.binUs) = false) →
        exec (.secEventProcess c) s = .next ((((s.setSec c x).setSec c
          { x with
            coreTime := evTime w
            firstT := some (x.firstT.getD (evTime w))
            lastT := evTime w
            eventsIn := satBump 32 x.eventsIn 1
            lossy := x.lossy || evLoss w
            mark := firstMark x.mark m }).bump64 (Obj.SEC_EVENTS c)).eventUpdates c l w))) := by
  intro x
  have hx : x = { s.sec c with queue := rest } := rfl
  have hlayer : x.layer = (s.sec c).layer := rfl
  clear_value x
  have h : exec (.secEventProcess c) s = execSecEventProcess c s := rfl
  simp only [h, execSecEventProcess, hruns, hq, Bool.not_true, Bool.false_eq_true, if_false, ← hx, State.sec_setSec_same]
  refine ⟨fun hl => ?_, fun l hl => ⟨fun ha => ?_, fun ha hbin => ?_⟩⟩
  · simp only [hlayer, hl]
  · simp only [hlayer, hl, ha, Bool.not_false, if_true]
  · have hclose : (decide (l.binMode = 0) && x.binOpen && atOrAfter (evTime w) (x.tStart + l.binUs)) = false := by
      obtain h | ⟨-, h⟩ := hbin <;> simp [h]
    have hopen : (decide (l.binMode = 0) && !x.binOpen) = false := by
      obtain h | ⟨h, -⟩ := hbin <;> simp [h]
    simp only [hlayer, hl, ha, Bool.not_true, Bool.false_eq_true, if_false, hclose, hopen, State.sec_setSec_same]

/-! Bins (R604 to R606, R608). -/

theorem State.writeBatch_of_empty {s : State} {c : Nat} (h : (s.sec c).batch = []) : s.writeBatch c = s := by
  simp [State.writeBatch, h]

theorem State.triggerSource_ev (s : State) (src arg : Nat) : (s.triggerSource src arg).ev = s.ev := by
  obtain ⟨_, _, h, -⟩ := Triggered.triggerSource s src arg
  rw [h]

theorem State.sec_binEnd (s : State) (c : Nat) (e : Bool) (k : Nat) : (s.binEnd c e).sec k = s.sec k := by
  unfold State.binEnd
  split
  · rfl
  · exact congrArg (fun v : Events => SMap.get ({} : Sec) v.secs k) (s.triggerSource_ev 4 c)

/-- A bin that a core closes without a tensor. -/
theorem State.closeBin_sec {s : State} {c : Nat} {l : Layer} (hl : (s.sec c).layer = some l)
    (hopen : l.binMode ≠ 0 ∨ (s.sec c).binOpen = true) (hb : (s.sec c).batch = []) (ht : l.tensor = false) :
    let x := (s.closeBin c).sec c
    x.cur = 1 - (s.sec c).cur ∧ x.binOpen = false ∧ x.binSeq = ((s.sec c).binSeq + 1) % 2 ^ 32 ∧ x.eventsIn = 0 ∧ x.spikes = 0 ∧
      x.outs = (s.sec c).outs ∧ x.queue = (s.sec c).queue := by
  have hgo : (decide (l.binMode = 0) && !(s.sec c).binOpen) = false := by
    obtain h | h := hopen <;> simp [h]
  simp only [State.closeBin, hl, hgo, Bool.false_eq_true, if_false, State.writeBatch_of_empty hb, State.sec_bump, ht, Bool.not_false, if_true]
  rw [State.sec_binEnd, State.sec_of_works (State.works_ownWrite ..), State.sec_setSec_same]
  exact ⟨rfl, rfl, rfl, rfl, rfl, rfl, rfl⟩

/-- Bins close by their mode, and batches are written. -/
theorem binsClose (s : State) (c : Nat) (l : Layer) (hup : s.secUp c = true) (hl : (s.sec c).layer = some l) :
    (l.binMode = 0 → (s.sec c).binOpen = true → (s.sec c).queue = [] → exec (.secBinIdleClose c) s = .next (s.closeBin c)) ∧
    (l.binMode = 1 → exec (.secBinArrivalClose c) s = .next (s.closeBin c)) ∧
    (l.binMode ≠ 0 ∨ (s.sec c).binOpen = true → (s.sec c).batch = [] → l.tensor = false →
      let x := (s.closeBin c).sec c
      x.cur = 1 - (s.sec c).cur ∧ x.binOpen = false ∧ x.binSeq = ((s.sec c).binSeq + 1) % 2 ^ 32 ∧ x.eventsIn = 0 ∧ x.spikes = 0 ∧
      x.outs = (s.sec c).outs ∧ x.queue = (s.sec c).queue) ∧
    exec (.secBatchTimeout c) s = .next (s.writeBatch c) ∧
    ((s.sec c).batch = [] → s.writeBatch c = s) ∧
    ((s.sec c).batch ≠ [] → 255 < s.obj (Obj.SEC_EVT_CQ c) → s.writeBatch c = s.setSec c { s.sec c with batch := [] }) := by
  refine ⟨fun hm ho hq => ?_, fun hm => ?_, fun ho hb ht => State.closeBin_sec hl ho hb ht, ?_, State.writeBatch_of_empty, fun hb hcq => ?_⟩
  · show execSecBinIdleClose c s = _
    simp [execSecBinIdleClose, hl, occ, hup, hm, ho, hq]
  · show execSecBinArrivalClose c s = _
    simp [execSecBinArrivalClose, hl, occ, hup, hm]
  · show occ (s.secUp c) s _ = _
    rw [occ, if_pos hup]
  · simp [State.writeBatch, hb, hcq]

/-- The state in which the oldest bin of a core has ended, before its trigger: its post is counted and made. -/
def State.binDone (s : State) (c : Nat) (b : BinOut) : State :=
  ((s.counted (.sec c)).setSem (semOf b.pair 0) (s.sem (semOf b.pair 0) + 1)).setSec c { s.sec c with outs := [] }

theorem State.binDone_spec (s : State) (c : Nat) (b : BinOut) : (s.binDone c b).ep = s.ep ∧ (s.binDone c b).mem = s.mem ∧
    (∀ m, (s.binDone c b).sem m = if m = semOf b.pair 0 then s.sem m + 1 else s.sem m) ∧
    (s.binDone c b).sec c = { s.sec c with outs := [] } ∧
    ∀ d < 32, (s.binDone c b).edSource d = s.edSource d ∧ (s.binDone c b).edArg d = s.edArg d := by
  have hr := Routed.counted s (.sec c)
  unfold State.binDone
  generalize s.counted (.sec c) = y at hr
  have hsem := hr.sem
  obtain ⟨_, _, _, _, _, _, rfl, hk⟩ := hr
  refine ⟨rfl, rfl, fun m => ?_, State.sec_setSec_same .., fun d hd => ⟨?_, ?_⟩⟩
  · rw [State.sem_setSec]
    split
    · next h => rw [h, State.sem_setSem_same]
    · next h => rw [State.sem_setSem_other _ _ _ _ h, hsem]
  · exact hk _ (by unfold Obj.ED_SOURCE Obj.ROUTE_MULTIHIT_TOTAL; omega)
  · exact hk _ (by unfold Obj.ED_SOURCE_ARG Obj.ROUTE_MULTIHIT_TOTAL; omega)

theorem exec_secBinFillPost {s : State} {c : Nat} {b : BinOut} (hsafe : s.safety.safe = false) (hc : c < 16) (ho : (s.sec c).outs = [b])
    (ht : b.todo = []) (hw : s.writing (.opWrite (.sec c)) = false) (hdev : b.dev = s.devId) (hsem : s.sem (semOf b.pair 0) < 65535) :
    exec (.secBinFillPost c) s = .next ((s.binDone c b).binEnd c b.epoch) := by
  have hr := Routed.counted s (.sec c)
  have hcnt : (s.counted (.sec c)).sec c = s.sec c := State.sec_of_works (State.works_of_background hr.background) c
  have hpost := State.post_of_le (s := s.counted (.sec c)) (m := semOf b.pair 0) (n := 1) (by rw [hr.sem]; omega)
  rw [hr.sem] at hpost
  have houts : (((s.binDone c b).binEnd c b.epoch).sec c).outs = [] := by
    obtain ⟨-, -, -, hsec, -⟩ := s.binDone_spec c b
    rw [State.sec_binEnd, hsec]
  have hpump : ((s.binDone c b).binEnd c b.epoch).pumpBin c = (s.binDone c b).binEnd c b.epoch := by
    simp only [State.pumpBin, houts]
  have hpost' : s.unitPost (.sec c) (semOf b.pair 0) b.dev =
      some ((s.counted (.sec c)).setSem (semOf b.pair 0) (s.sem (semOf b.pair 0) + 1)) := by
    rw [State.unitPost, if_pos hdev, hpost]
  have hsec : ((s.counted (.sec c)).setSem (semOf b.pair 0) (s.sem (semOf b.pair 0) + 1)).sec c = s.sec c := by
    rw [State.setSem, State.sec_setJess, hcnt]
  refine Eq.trans ?_ (congrArg Host.Outcome.next hpump)
  show execSecBinFillPost c s = _
  simp only [execSecBinFillPost, hsafe, Nat.not_le.2 hc, decide_false, Bool.or_self, Bool.false_eq_true, if_false, ho, ht,
    List.isEmpty_nil, Bool.not_true, hw, hpost', hsec, State.binDone]

/-- The FILL post of a closed bin whose writes are acknowledged (R605, R606). -/
theorem binPosted (s : State) (c : Nat) (b : BinOut) (hsafe : s.safety.safe = false) (hc : c < 16) (ho : (s.sec c).outs = [b])
    (ht : b.todo = []) (hw : s.writing (.opWrite (.sec c)) = false) (hdev : b.dev = s.devId) (hsem : s.sem (semOf b.pair 0) < 65535) :
    Completes (.secBinFillPost c) s fun t => t.sec c = { s.sec c with outs := [] } ∧
      t.sem (semOf b.pair 0) = s.sem (semOf b.pair 0) + 1 ∧ (∀ m, m ≠ semOf b.pair 0 → t.sem m = s.sem m) ∧ t.mem = s.mem ∧
      (b.epoch = true → t.ep = s.ep) ∧
      (b.epoch = false → ∀ d, d < 32 → s.edSource d = 4 → s.edArg d = c → t.epoch d = (s.trigger d).epoch d) := by
  have hex := exec_secBinFillPost hsafe hc ho ht hw hdev hsem
  have hu := s.binDone_spec c b
  generalize s.binDone c b = u at hex hu
  obtain ⟨hep, hmem, husem, husec, hobj⟩ := hu
  have hend : ∃ e k, u.binEnd c b.epoch = { u with ep := e, dict := k } := by
    unfold State.binEnd
    split
    · exact ⟨_, _, rfl⟩
    · obtain ⟨e, k, h, -⟩ := Triggered.triggerSource u 4 c
      exact ⟨e, k, h⟩
  have hsemEnd (m : Nat) : (u.binEnd c b.epoch).sem m = u.sem m := by
    obtain ⟨_, _, h⟩ := hend
    rw [h]
    rfl
  refine ⟨_, hex, (State.sec_binEnd ..).trans husec, ?_, fun m hm => ?_, ?_, fun he => ?_, fun he => ?_⟩
  · rw [hsemEnd, husem, if_pos rfl]
  · rw [hsemEnd, husem, if_neg hm]
  · obtain ⟨_, _, h⟩ := hend
    rw [h]
    exact hmem
  · rw [State.binEnd, if_pos he, hep]
  · rw [State.binEnd, he, if_neg Bool.false_ne_true]
    exact (State.epoch_triggerSource 4 c hep hobj).1

/-- Settles O56: each clause is a lemma on headers, captures, words, registers, neurons, events or bins above. -/
theorem portsAndCoresHandleEvents : Obligations.PortsAndCoresHandleEvents := by
  unfold Obligations.PortsAndCoresHandleEvents
  refine ⟨fun s p vc ecc dt pay ok hp hs => portsSortHeaders s p vc ecc dt pay ok hp hs, fun s p hp hs hr => ?_, fun s p hp hs => ?_,
    fun l co t n w _ _ => neuronUpdated l co t n w, fun s c w m rest => eventsDequeued s c w m rest, fun s c l => binsClose s c l,
    fun s c b => binPosted s c b⟩
  · exact ⟨fun hm => frameStartTriggers hp hs hr hm, fun hm hin hv hf => captureBegins hp hs hr hm hin hv hf,
      fun hm hin hf => captureDropped hp hs hr hm hin hf, fun hm hin => captureEnds hp hs hr hm hin, (exec_spFrameEnd hp hs hr).1,
      fun dt pay hdt h2 h3 ha hm => (exec_spLongPacket pay hp hs hr (by omega) hdt h2 h3 ha).1 hm,
      fun dt w hdt h2 h3 ha hm hin hw => exec_spLongPacket_word hp hs hr hdt h2 h3 ha hm hin hw,
      fun v w m arrival r hv => wordsBecomeEvents v w m arrival r hp hv⟩
  · have hflush : exec (.spBeatFlush p) s = .next (s.flushBeats p) := by
      show occ (decide (p < 8) && !s.safety.safe) s _ = _
      rw [occ, hs, decide_eq_true hp]
      rfl
    obtain ⟨hfree, hclear, hused⟩ := captureRegistersWritten (s := s) hp
    exact ⟨hflush, fun h => by rw [hflush, State.flushBeats_of_empty h],
      fun f r ht he hw hsem => framePosted hp hs ht he hw hsem, hfree, hclear, hused⟩

end Sys2Proof.Machine
end

section
/-!
Loads of the logic fabric: what starts and ends them, what a load's steps do to the regions, and the writes of a stream.
-/
namespace Sys2Proof.Machine

open Sys2Proof

/-! Operations on entries of a table, one after another. -/

/-- A fold that changes one entry of a view for each member of a list, no entry twice. -/
theorem foldl_updates {α β : Type} (view : State → Nat → α) {f : State → β → State} {key : β → Nat} {g : β → α → α}
    (hsame : ∀ u b, view (f u b) (key b) = g b (view u (key b))) (hother : ∀ u b q, q ≠ key b → view (f u b) q = view u q)
    (l : List β) (hl : (l.map key).Nodup) (s : State) :
    (∀ b ∈ l, view (l.foldl f s) (key b) = g b (view s (key b))) ∧ ∀ q, q ∉ l.map key → view (l.foldl f s) q = view s q := by
  induction l generalizing s with
  | nil => exact ⟨fun b hb => absurd hb List.not_mem_nil, fun _ _ => rfl⟩
  | cons a l ih =>
    rw [List.map_cons, List.nodup_cons] at hl
    obtain ⟨ihsame, ihother⟩ := ih hl.2 (f s a)
    rw [List.foldl_cons]
    refine ⟨fun b hb => ?_, fun q hq => ?_⟩
    · obtain rfl | hb := List.mem_cons.1 hb
      · exact (ihother _ hl.1).trans (hsame s b)
      · have hne : key b ≠ key a := fun h => hl.1 (h ▸ List.mem_map_of_mem hb)
        rw [ihsame b hb, hother s a _ hne]
    · rw [List.map_cons, List.mem_cons, not_or] at hq
      exact (ihother q hq.2).trans (hother s a q hq.1)

theorem hdrRegions_nodup (h : List Byte) : (hdrRegions h).Nodup := List.nodup_range.filter _

theorem loadRegions_nodup (l : Load) : (loadRegions l).Nodup := by
  unfold loadRegions
  split
  · exact List.nodup_range
  · exact hdrRegions_nodup _

/-- A fold that changes one region for each of a load's regions. -/
theorem foldl_regions {f : State → Nat → State} {g : Nat → Region_ → Region_} (hsame : ∀ u r, (f u r).region r = g r (u.region r))
    (hother : ∀ u r q, q ≠ r → (f u r).region q = u.region q) {l : List Nat} (hl : l.Nodup) (s : State) :
    (∀ r ∈ l, (l.foldl f s).region r = g r (s.region r)) ∧ ∀ q, q ∉ l → (l.foldl f s).region q = s.region q := by
  have h := foldl_updates State.region (key := id) hsame hother l (by rwa [List.map_id]) s
  rwa [List.map_id] at h

/-! Regions. -/

section
variable (s : State)

theorem State.region_clearRegion_same (r : Nat) : (s.clearRegion r).region r = {} := by
  unfold State.clearRegion
  extract_lets t
  split <;> exact State.region_setRegion_same ..

theorem State.region_clearRegion_other {r q : Nat} (h : q ≠ r) : (s.clearRegion r).region q = s.region q := by
  unfold State.clearRegion
  extract_lets t
  split <;> exact State.region_setRegion_other _ _ _ _ h

theorem State.works_setUcb (u : Nat) (b : Ucb) : (s.setUcb u b).works = s.works := rfl

theorem State.works_hoodUnit (u : Nat) : (s.hoodUnit u).works = s.works := by
  unfold State.hoodUnit
  extract_lets b
  split
  · exact State.works_of_background (s.background_startDrain u .hooded)
  · rfl
  · rfl

/-- The end of a load as a failure clears the regions it has touched (R58, R634, R635). -/
theorem loadFails (st : Nat) (src : Option Nat) (r : Nat) : (s.failLoad st src).fab.load = {} ∧
    (2 ≤ s.fab.load.step → r ∈ loadRegions s.fab.load → (s.failLoad st src).region r = {}) ∧
    (s.fab.load.step < 2 ∨ r ∉ loadRegions s.fab.load → (s.failLoad st src).region r = s.region r) := by
  obtain ⟨hin, hout⟩ := foldl_regions (f := fun s r => s.clearRegion r) (g := fun _ _ => {}) State.region_clearRegion_same
    (fun u r q h => u.region_clearRegion_other h) (loadRegions_nodup s.fab.load) s
  unfold State.failLoad
  extract_lets l t t' w _ u
  -- raising the source keeps what stands then
  suffices h : ∀ v : State, v.works = u.works → v.fab.load = {} ∧ (2 ≤ s.fab.load.step → r ∈ loadRegions s.fab.load → v.region r = {}) ∧
      (s.fab.load.step < 2 ∨ r ∉ loadRegions s.fab.load → v.region r = s.region r) by
    cases src with
    | none => exact h u rfl
    | some e => exact h _ (u.works_raise _ _)
  intro v hv
  have hreg : v.region r = (if 2 ≤ s.fab.load.step then (loadRegions s.fab.load).foldl (fun s r => s.clearRegion r) s else s).region r :=
    State.region_of_works hv r
  refine ⟨congrArg Fabric.load (State.fab_of_works hv), fun h hr => ?_, fun h => ?_⟩
  · rw [hreg, if_pos h]
    exact hin r hr
  · rw [hreg]
    split
    · next h2 => exact hout r (h.resolve_left (Nat.not_lt.2 h2))
    · rfl

end

/-! Starts and aborts (R634, R636). -/

theorem exec_cfgGo {s : State} {v : Nat} (hv : v < 2 ^ 64) (hs : s.safety.safe = false) (h0 : bit v 0 = true) :
    exec (.cfgGo v) s = .next (s.cfgCtrl v).2 := by
  show occ (bit v 0 && decide (v < 2 ^ 64) && !s.safety.safe) s _ = _
  rw [h0, hs, decide_eq_true hv]
  rfl

theorem exec_cfgAbort {s : State} {v : Nat} (hv : v < 2 ^ 64) (hs : s.safety.safe = false) (h0 : bit v 0 = false) (h8 : bit v 8 = true) :
    exec (.cfgAbort v) s = .next (s.cfgCtrl v).2 := by
  show occ (bit v 8 && !bit v 0 && decide (v < 2 ^ 64) && !s.safety.safe) s _ = _
  rw [h0, h8, hs, decide_eq_true hv]
  rfl

/-- A CFG_CTRL value that is refused as it stands. -/
def ctrlReserved (v : Nat) : Bool := Nat.land v 0xFFFFFFFFFFFFFECE ≠ 0 || bits v 4 2 = 3

theorem ctrlReserved_iff (v : Nat) : ctrlReserved v = true ↔ Nat.land v 0xFFFFFFFFFFFFFECE ≠ 0 ∨ bits v 4 2 = 3 := by
  simp [ctrlReserved]

theorem loadsControlled (s : State) (v : Nat) (hv : v < 2 ^ 64) (hs : s.safety.safe = false) :
    let l := s.fab.load
    let reserved := Nat.land v 0xFFFFFFFFFFFFFECE ≠ 0 ∨ bits v 4 2 = 3
    (bit v 0 = true → reserved → Completes (.cfgGo v) s fun t => t.fab = { s.fab with regStatus := Sc.reservedNonzero + 0x800000 * 256 } ∧
      t.obj Obj.CFG_LAST_STATUS = Sc.reservedNonzero ∧ t.mem = s.mem ∧ t.ucbs = s.ucbs) ∧
    (bit v 0 = true → ¬reserved → l.step = 0 → Completes (.cfgGo v) s fun t =>
      t.fab.load = { step := 1, source := bits v 4 2, addr := s.fab.cfgAddr, len := s.fab.cfgLen, boot := false } ∧
      t.fab.regions = s.fab.regions ∧ t.fab.waitHost = false ∧ t.dict = s.dict ∧ t.mem = s.mem ∧ t.ucbs = s.ucbs) ∧
    (bit v 0 = true → bit v 8 = false → ¬reserved → l.step ≠ 0 → Completes (.cfgGo v) s fun t =>
      t.fab = { s.fab with regStatus := Sc.stateConflict + 0x800000 * 256 } ∧ t.dict = s.dict ∧ t.mem = s.mem) ∧
    (bit v 0 = false → bit v 8 = true → ¬reserved → l.step ≠ 0 →
      exec (.cfgAbort v) s = .next (s.failLoad Sc.stateConflict (some Es.fabricLoad))) ∧
    (bit v 0 = false → bit v 8 = true → ¬reserved → l.step = 0 → exec (.cfgAbort v) s = .next s) := by
  intro l reserved
  have hin (hr : reserved) : (decide (Nat.land v 0xFFFFFFFFFFFFFECE ≠ 0) || decide (bits v 4 2 = 3)) = true := (ctrlReserved_iff v).2 hr
  have hnot (hr : ¬reserved) : (decide (Nat.land v 0xFFFFFFFFFFFFFECE ≠ 0) || decide (bits v 4 2 = 3)) = false :=
    Bool.not_eq_true _ ▸ fun h => hr ((ctrlReserved_iff v).1 h)
  refine ⟨fun h0 hr => ⟨_, exec_cfgGo hv hs h0, ?_⟩, fun h0 hr hl => ⟨_, exec_cfgGo hv hs h0, ?_⟩,
    fun h0 h8 hr hl => ⟨_, exec_cfgGo hv hs h0, ?_⟩, fun h0 h8 hr hl => (exec_cfgAbort hv hs h0 h8).trans ?_,
    fun h0 h8 hr hl => (exec_cfgAbort hv hs h0 h8).trans ?_⟩
  · simp only [State.cfgCtrl, hin hr, if_true, h0, State.cfgReject]
    refine ⟨rfl, (State.obj_setObj_same _ _ _).trans (Nat.mod_eq_of_lt (by decide : Sc.reservedNonzero < 2 ^ 64)), ?_, ?_⟩
    · rw [State.setObj_mem]
      rfl
    · rw [State.setObj_ucbs]
      rfl
  · have hl' : s.fab.load.step = 0 := hl
    simp only [State.cfgCtrl, hnot hr, h0, hl', ne_eq, not_true_eq_false, decide_false, Bool.and_false, Bool.false_eq_true, if_false, if_true]
    exact ⟨rfl, rfl, rfl, rfl, rfl, rfl⟩
  · have hl' : s.fab.load.step ≠ 0 := hl
    simp only [State.cfgCtrl, hnot hr, h0, h8, Bool.false_and, Bool.false_eq_true, if_false, if_true, ne_eq, hl', not_false_eq_true,
      State.cfgReject]
    exact ⟨rfl, rfl, rfl⟩
  · have hl' : s.fab.load.step ≠ 0 := hl
    simp only [State.cfgCtrl, hnot hr, h0, h8, Bool.true_and, Bool.false_eq_true, if_false, if_true, ne_eq, hl', not_false_eq_true,
      decide_true]
  · have hl' : s.fab.load.step = 0 := hl
    simp only [State.cfgCtrl, hnot hr, h0, h8, Bool.true_and, Bool.false_eq_true, if_false, ne_eq, hl', not_true_eq_false, decide_false]

/-! The words of a stream (R637, R639). -/

theorem exec_cfgDataWrite {s : State} {v : Nat} (hv : v < 2 ^ 64) :
    exec (.cfgDataWrite v) s = .next (s.setFab { s.fab with heldData := s.fab.heldData ++ [v] }).takeHeldData := by
  show occ (decide (v < 2 ^ 64)) s _ = _
  rw [decide_eq_true hv]
  rfl

/-- A word goes straight to the load where none is held. -/
theorem exec_cfgDataWrite_of_running {s : State} {v : Nat} (hv : v < 2 ^ 64) (hp : s.fabPaused = false) (hh : s.fab.heldData = []) :
    exec (.cfgDataWrite v) s = .next (s.cfgData 0x900000 8 v).2 := by
  rw [exec_cfgDataWrite hv, hh]
  have hpause : (s.setFab { s.fab with heldData := [v] }).fabPaused = s.fabPaused := rfl
  have hback : (s.setFab { s.fab with heldData := [v] }).setFab { (s.setFab { s.fab with heldData := [v] }).fab with heldData := [] } = s := by
    show { s with fab := { s.fab with heldData := [] } } = s
    rw [← hh]
  simp only [State.takeHeldData, List.nil_append, hpause, hp, Bool.false_eq_true, if_false, hback]
  rfl

theorem streamWritten (s : State) (v : Nat) (hv : v < 2 ^ 64) (hp : s.fabPaused = false) (hh : s.fab.heldData = []) :
    let l := s.fab.load
    (¬(l.source = 0 ∧ (l.step = 1 ∨ l.step = 2)) → Completes (.cfgDataWrite v) s fun t =>
      t.fab = { s.fab with regStatus := Sc.accessDenied + 0x900000 * 256 } ∧ t.dict = s.dict) ∧
    (l.source = 0 → l.step = 1 → l.got < 512 → Completes (.cfgDataWrite v) s fun t =>
      t.fab = { s.fab with load := { l with header := l.header ++ leBytes 8 v, got := l.got + 8 } } ∧ t.dict = s.dict) ∧
    (l.source = 0 → l.step = 2 → 512 ≤ l.got → l.got + 8 ≤ 512 + hdrBody l.header → Completes (.cfgDataWrite v) s fun t =>
      t.fab = { s.fab with load := { l with body := l.body ++ leBytes 8 v, got := l.got + 8 } } ∧ t.dict = s.dict) := by
  intro l
  have hl : s.fab.load = l := rfl
  refine ⟨fun h => ⟨_, exec_cfgDataWrite_of_running hv hp hh, ?_⟩, fun h0 h1 hg => ⟨_, exec_cfgDataWrite_of_running hv hp hh, ?_⟩,
    fun h0 h1 hg hn => ⟨_, exec_cfgDataWrite_of_running hv hp hh, ?_⟩⟩
  · have hc : (!(decide (l.source = 0) && (decide (l.step = 1) || decide (l.step = 2)))) = true := by
      simpa [imp_iff_not_or] using h
    simp only [State.cfgData, hl, hc, ne_eq, not_true_eq_false, if_false, if_true, State.cfgReject]
    exact ⟨rfl, rfl⟩
  · simp only [State.cfgData, hl, h0, h1, hg, Nat.not_le.2 hg, ne_eq, not_true_eq_false, if_false, if_true, decide_true, decide_false,
      Bool.true_or, Bool.true_and, Bool.false_and, Bool.not_true, Bool.false_eq_true]
    exact ⟨rfl, rfl⟩
  · simp only [State.cfgData, hl, h0, h1, Nat.not_lt.2 hg, Nat.not_lt.2 hn, ne_eq, not_true_eq_false, if_false, decide_true, decide_false,
      Bool.or_true, Bool.true_and, Bool.and_false, Bool.not_true, Bool.false_eq_true]
    exact ⟨rfl, rfl⟩

end Sys2Proof.Machine
end

section
/-!
Loads of the logic fabric, continued: its steps in order (R634 to R636).
-/
namespace Sys2Proof.Machine

open Sys2Proof

/-- A region is LOADING, and its port, where it has one, is hooded (R634). -/
def State.markLoading (s : State) (r : Nat) : State :=
  if r < 16 then (s.setRegion r { st := 1 }).hoodUnit (unitOf 9 r) else s.setRegion r { st := 1 }

theorem State.works_markLoading (s : State) (r : Nat) : (s.markLoading r).works = (s.setRegion r { st := 1 }).works := by
  unfold State.markLoading
  split
  · exact State.works_hoodUnit _ _
  · rfl

theorem State.region_markLoading_same (s : State) (r : Nat) : (s.markLoading r).region r = { st := 1 } :=
  (State.region_of_works (s.works_markLoading r) r).trans (State.region_setRegion_same ..)

theorem State.region_markLoading_other (s : State) (r q : Nat) (h : q ≠ r) : (s.markLoading r).region q = s.region q :=
  (State.region_of_works (s.works_markLoading r) q).trans (State.region_setRegion_other _ _ _ _ h)

/-- The frames of one region are written from a load's body, at the region's place in it (R636). -/
def State.writeFrames (body : List Byte) (s : State) (r : Nat × Nat) : State :=
  s.setRegion r.1 { s.region r.1 with frames := frameWords ((body.drop (r.2 * regionBytes)).take regionBytes) }

section
variable {s : State}

/-- The header of a streamed load is judged as it stands. -/
theorem execLoadHeaderCheck_stream (fl : List Byte) (fb : Nat) (hp : s.fabPaused = false) (h1 : s.fab.load.step = 1)
    (h0 : s.fab.load.source = 0) (hg : 512 ≤ s.fab.load.got) :
    let h := s.fab.load.header
    (hdrReserved h = true → execLoadHeaderCheck fl fb s = .next (s.failLoad Sc.reservedNonzero (some Es.fabricLoad))) ∧
    (hdrReserved h = false → hdrBound h = true → execLoadHeaderCheck fl fb s = .next (s.failLoad Sc.boundViolation (some Es.fabricLoad))) ∧
    (hdrReserved h = false → hdrBound h = false → hdrTrusted h = false →
      execLoadHeaderCheck fl fb s = .next (s.failLoad Sc.accessDenied (some Es.fabricAuth))) ∧
    (hdrReserved h = false → hdrBound h = false → hdrTrusted h = true → execLoadHeaderCheck fl fb s =
      .next ((loadRegions { s.fab.load with step := 2 }).foldl State.markLoading
        (s.setFab { s.fab with load := { s.fab.load with step := 2 }, lastMask := hdrMask h }))) := by
  intro h
  have hh : s.fab.load.header = h := rfl
  have hself : s.setLoad { s.fab.load with header := h } = s := rfl
  have hgo : (decide ¬s.fab.load.step = 1 || s.fabPaused || decide (s.fab.load.got < 512)) = false := by
    simp [h1, hp, Nat.not_lt.2 hg]
  have hsrc0 : (s.fab.load.source = 0) = True := eq_true h0
  have hsrc1 : (s.fab.load.source = 1) = False := eq_false (by omega)
  have hsrc2 : (s.fab.load.source = 2) = False := eq_false (by omega)
  have hbody : execLoadHeaderCheck fl fb s =
      let st := firstFail [(hdrReserved h, Sc.reservedNonzero), (hdrBound h, Sc.boundViolation), (false, Sc.alignment),
        (!hdrTrusted h, Sc.accessDenied)]
      if st ≠ 0 then .next (s.failLoad st (some (if st = Sc.accessDenied then Es.fabricAuth else Es.fabricLoad))) else
      .next ((loadRegions { s.fab.load with step := 2 }).foldl State.markLoading
        (s.setFab { s.fab with load := { s.fab.load with step := 2 }, lastMask := hdrMask h })) := by
    simp only [execLoadHeaderCheck, hgo, hsrc0, hsrc1, hsrc2, decide_true, decide_false, Bool.false_and, Bool.not_false, Bool.true_and,
      Bool.false_eq_true, if_false, if_true, hh, hself, ne_eq, not_true_eq_false, Bool.or_false]
    rfl
  rw [hbody]
  refine ⟨fun hr => ?_, fun hr hb => ?_, fun hr hb ht => ?_, fun hr hb ht => ?_⟩
  · rw [hr]
    rfl
  · rw [hr, hb]
    rfl
  · rw [hr, hb, ht]
    rfl
  · rw [hr, hb, ht]
    rfl

/-- A sound header marks the regions of its load LOADING and hoods their ports; nothing else of the fabric changes. -/
theorem headerAccepted (fl : List Byte) (fb : Nat) (hp : s.fabPaused = false) (h1 : s.fab.load.step = 1) (h0 : s.fab.load.source = 0)
    (hg : 512 ≤ s.fab.load.got) (hr : hdrReserved s.fab.load.header = false) (hb : hdrBound s.fab.load.header = false)
    (ht : hdrTrusted s.fab.load.header = true) : Completes (.loadHeaderCheck fl fb) s fun t =>
      t.fab.load = { s.fab.load with step := 2 } ∧ t.fab.lastMask = hdrMask s.fab.load.header ∧
      (∀ r ∈ loadRegions s.fab.load, t.region r = { st := 1 }) ∧ (∀ r, r ∉ loadRegions s.fab.load → t.region r = s.region r) ∧
      t.fab.ports = s.fab.ports := by
  obtain ⟨-, -, -, hex⟩ := execLoadHeaderCheck_stream fl fb hp h1 h0 hg
  refine ⟨_, hex hr hb ht, ?_⟩
  have hregs : loadRegions { s.fab.load with step := 2 } = loadRegions s.fab.load := rfl
  rw [hregs]
  obtain ⟨hin, hout⟩ := foldl_regions (g := fun _ _ => { st := 1 }) State.region_markLoading_same State.region_markLoading_other
    (loadRegions_nodup s.fab.load)
    (s.setFab { s.fab with load := { s.fab.load with step := 2 }, lastMask := hdrMask s.fab.load.header })
  have hkeep := foldl_keeps (fun u : State => (u.fab.load, u.fab.lastMask, u.fab.ports)) (f := State.markLoading)
    (fun u r => by rw [State.fab_of_works (u.works_markLoading r)]; rfl) (loadRegions s.fab.load)
    (s.setFab { s.fab with load := { s.fab.load with step := 2 }, lastMask := hdrMask s.fab.load.header })
  obtain ⟨hload, hrest⟩ := Prod.mk.inj hkeep
  obtain ⟨hmask, hports⟩ := Prod.mk.inj hrest
  exact ⟨hload, hmask, hin, hout, hports⟩

/-- The body of a streamed load is written to the frames of its regions, in order. -/
theorem bodyWritten (fl : List Byte) (hp : s.fabPaused = false) (h2 : s.fab.load.step = 2) (h0 : s.fab.load.source = 0)
    (hg : s.fab.load.got = 512 + hdrBody s.fab.load.header) : Completes (.loadBodyComplete fl) s fun t =>
      t.fab.load = { s.fab.load with step := 3 } ∧
      (∀ i r, (hdrRegions s.fab.load.header)[i]? = some r → t.region r =
        { s.region r with frames := frameWords ((s.fab.load.body.drop (i * regionBytes)).take regionBytes) }) ∧
      (∀ r, r ∉ hdrRegions s.fab.load.header → t.region r = s.region r) ∧ t.dict = s.dict ∧ t.mem = s.mem := by
  have hsrc0 : (s.fab.load.source = 0) = True := eq_true h0
  have hsrc1 : (s.fab.load.source = 1) = False := eq_false (by omega)
  have hgo : (decide ¬s.fab.load.step = 2 || s.fabPaused || decide ¬s.fab.load.got = 512 + hdrBody s.fab.load.header) = false := by
    simp [h2, hp, hg]
  have hex : exec (.loadBodyComplete fl) s = .next (((hdrRegions s.fab.load.header).zipIdx.foldl (State.writeFrames s.fab.load.body) s).setLoad
      { s.fab.load with step := 3, body := s.fab.load.body, got := 512 + hdrBody s.fab.load.header }) := by
    show execLoadBodyComplete fl s = _
    simp only [execLoadBodyComplete, hsrc0, hsrc1, hgo, decide_true, Bool.true_and, Bool.false_eq_true, if_false, if_true, ne_eq,
      not_true_eq_false]
    rfl
  obtain ⟨hin, hout⟩ := foldl_updates State.region (f := State.writeFrames s.fab.load.body) (key := Prod.fst)
    (g := fun r x => { x with frames := frameWords ((s.fab.load.body.drop (r.2 * regionBytes)).take regionBytes) })
    (fun u r => State.region_setRegion_same ..) (fun u r q h => State.region_setRegion_other _ _ _ _ h)
    (hdrRegions s.fab.load.header).zipIdx (by rw [List.zipIdx_map_fst]; exact hdrRegions_nodup _) s
  have hkeep := foldl_keeps (fun u : State => (u.dict, u.mem)) (f := State.writeFrames s.fab.load.body) (fun _ _ => rfl)
    (hdrRegions s.fab.load.header).zipIdx s
  obtain ⟨hdict, hmem⟩ := Prod.mk.inj hkeep
  rw [List.zipIdx_map_fst] at hout
  refine ⟨_, hex, ?_, fun i r hr => hin (r, i) (List.mk_mem_zipIdx_iff_getElem?.2 hr), hout, hdict, hmem⟩
  rw [← hg]
  rfl

/-- The verdict of the signature is kept for the release. -/
theorem signatureJudged (hp : s.fabPaused = false) (h3 : s.fab.load.step = 3) : Completes .loadSignatureVerify s fun t =>
      let h := s.fab.load.header
      let ok := Config.signatureOk ((h.drop 320).take 96) (Hash.sha384 (h.take 416 ++ s.fab.load.body)) ((h.drop 416).take 96)
      t.fab = { s.fab with load := { s.fab.load with step := 4, fail := if ok then none else some Sc.accessDenied } } ∧
      t.dict = s.dict := by
  have h : exec .loadSignatureVerify s = execLoadSignatureVerify s := rfl
  unfold execLoadSignatureVerify at h
  extract_lets l ok at h
  rw [if_neg (by simp [show l.step = 3 from h3, hp])] at h
  exact ⟨_, h, rfl, rfl⟩

end

end Sys2Proof.Machine
end

section
/-!
Loads of the logic fabric, continued: the release, and the load's claim; the scrubber (R635, R641).
-/
namespace Sys2Proof.Machine

open Sys2Proof

/-- What the release makes of a region that the header names (R635). -/
def Region_.released (x : Region_) (h : List Byte) (r : Nat) : Region_ :=
  { x with
    st := 2, fclkMhz := hdrClk h r, vio := if 16 ≤ r && r < 22 then hdrVio h (r - 16) else 0
    flags := if r < 16 then hdrFlags h r else 0, winLog2 := if r < 16 then hdrWin h r else 0
    esig := if r < 16 then bits (fieldLE h 20 4) (2 * r) 2 else 0 }

/-- The release of one region: cleared where the header does not name it, else running, with the port's window and unit. -/
def State.releaseRegion (h : List Byte) (s : State) (r : Nat) : State :=
  if !bit (hdrMask h) r then s.clearRegion r else
  let s := s.setRegion r ((s.region r).released h r)
  if r < 16 then
    let w := hdrWin h r
    let s := { s with mem := { s.mem with fabricWin := s.mem.fabricWin.set r (if w = 0 then 0 else 2 ^ w) } }
    let u := unitOf 9 r
    if !s.available u || (s.ucb u).mgmtStop || s.unitSt u == .faulted || s.unitSt u == .test then s else s.moveUnit u .ready
  else s

section
variable (h : List Byte) (s : State) (r : Nat)

theorem State.works_releaseRegion (hb : bit (hdrMask h) r = true) :
    (s.releaseRegion h r).works = (s.setRegion r ((s.region r).released h r)).works := by
  unfold State.releaseRegion
  rw [hb]
  extract_lets t w _ t' u
  have hmove : (t'.moveUnit u .ready).works = t'.works := State.works_of_background (t'.background_moveUnit u .ready)
  rw [if_neg (by decide)]
  split
  · split
    · rfl
    · exact hmove
  · rfl

theorem State.region_releaseRegion_same :
    (s.releaseRegion h r).region r = if bit (hdrMask h) r then (s.region r).released h r else {} := by
  cases hb : bit (hdrMask h) r with
  | false =>
    rw [State.releaseRegion, hb]
    exact s.region_clearRegion_same r
  | true => exact (State.region_of_works (s.works_releaseRegion h r hb) r).trans (State.region_setRegion_same ..)

theorem State.region_releaseRegion_other (q : Nat) (hq : q ≠ r) : (s.releaseRegion h r).region q = s.region q := by
  cases hb : bit (hdrMask h) r with
  | false =>
    rw [State.releaseRegion, hb]
    exact s.region_clearRegion_other hq
  | true => exact (State.region_of_works (s.works_releaseRegion h r hb) q).trans (State.region_setRegion_other _ _ _ _ hq)

end

section
variable {s : State}

theorem exec_loadRelease (hp : s.fabPaused = false) (h4 : s.fab.load.step = 4) :
    (∀ st, s.fab.load.fail = some st → exec .loadRelease s = .next (s.failLoad st (some Es.fabricAuth))) ∧
    (s.fab.load.fail = none → exec .loadRelease s = .next
      (((((loadRegions s.fab.load).foldl (State.releaseRegion s.fab.load.header) s).setObj Obj.CFG_LAST_STATUS 0).bump Obj.CFG_LOADS).setLoad
        {})) := by
  have h : exec .loadRelease s = execLoadRelease s := rfl
  have hgo : (decide ¬s.fab.load.step = 4 || s.fabPaused) = false := by simp [h4, hp]
  refine ⟨fun st hf => ?_, fun hf => ?_⟩
  · simp only [h, execLoadRelease, ne_eq, hgo, Bool.false_eq_true, if_false, hf]
  · simp only [h, execLoadRelease, ne_eq, hgo, Bool.false_eq_true, if_false, hf]
    rfl

/-- A release with a sound verdict sets its regions running or clears them. -/
theorem regionsReleased (hp : s.fabPaused = false) (h4 : s.fab.load.step = 4) (hf : s.fab.load.fail = none) :
    Completes .loadRelease s fun t => t.fab.load = {} ∧
      (∀ r ∈ loadRegions s.fab.load, bit (hdrMask s.fab.load.header) r = true → (t.region r).st = 2 ∧
        (t.region r).fclkMhz = hdrClk s.fab.load.header r ∧ (t.region r).frames = (s.region r).frames ∧
        (r < 16 → (t.region r).flags = hdrFlags s.fab.load.header r ∧ (t.region r).winLog2 = hdrWin s.fab.load.header r)) ∧
      (∀ r ∈ loadRegions s.fab.load, bit (hdrMask s.fab.load.header) r = false → t.region r = {}) ∧
      (∀ r, r ∉ loadRegions s.fab.load → t.region r = s.region r) := by
  obtain ⟨hin, hout⟩ := foldl_regions (f := State.releaseRegion s.fab.load.header) (g := fun r x =>
    if bit (hdrMask s.fab.load.header) r then x.released s.fab.load.header r else {}) (State.region_releaseRegion_same _)
    (fun u r q => State.region_releaseRegion_other _ u r q) (loadRegions_nodup s.fab.load) s
  have hex := (exec_loadRelease hp h4).2 hf
  generalize (loadRegions s.fab.load).foldl (State.releaseRegion s.fab.load.header) s = u at hex hin hout
  refine ⟨_, hex, rfl, ?_⟩
  simp only [State.region_setLoad, State.region_bump, State.region_setObj]
  refine ⟨fun r hr hb => ?_, fun r hr hb => ?_, hout⟩
  · have ht := hin r hr
    rw [if_pos hb] at ht
    refine ⟨congrArg Region_.st ht, congrArg Region_.fclkMhz ht, (congrArg Region_.frames ht).trans rfl, fun h16 => ⟨?_, ?_⟩⟩
    · exact (congrArg Region_.flags ht).trans (if_pos h16)
    · exact (congrArg Region_.winLog2 ht).trans (if_pos h16)
  · have ht := hin r hr
    rw [hb] at ht
    exact ht

end

/-- The steps of a load, each in its turn (R634 to R636). -/
theorem loadSteps (s : State) (fl : List Byte) (fb : Nat) (hp : s.fabPaused = false) :
    let l := s.fab.load
    let h := l.header
    (l.step = 1 → l.source = 0 → 512 ≤ l.got →
      (hdrReserved h = true → exec (.loadHeaderCheck fl fb) s = .next (s.failLoad Sc.reservedNonzero (some Es.fabricLoad))) ∧
      (hdrReserved h = false → hdrBound h = true →
        exec (.loadHeaderCheck fl fb) s = .next (s.failLoad Sc.boundViolation (some Es.fabricLoad))) ∧
      (hdrReserved h = false → hdrBound h = false → hdrTrusted h = false →
        exec (.loadHeaderCheck fl fb) s = .next (s.failLoad Sc.accessDenied (some Es.fabricAuth))) ∧
      (hdrReserved h = false → hdrBound h = false → hdrTrusted h = true → Completes (.loadHeaderCheck fl fb) s fun t =>
        t.fab.load = { l with step := 2 } ∧ t.fab.lastMask = hdrMask h ∧ (∀ r ∈ loadRegions l, t.region r = { st := 1 }) ∧
        (∀ r, r ∉ loadRegions l → t.region r = s.region r) ∧ t.fab.ports = s.fab.ports)) ∧
    (l.step = 2 → l.source = 0 → l.got = 512 + hdrBody h → Completes (.loadBodyComplete fl) s fun t =>
      t.fab.load = { l with step := 3 } ∧
      (∀ i r, (hdrRegions h)[i]? = some r →
        t.region r = { s.region r with frames := frameWords ((l.body.drop (i * regionBytes)).take regionBytes) }) ∧
      (∀ r, r ∉ hdrRegions h → t.region r = s.region r) ∧ t.dict = s.dict ∧ t.mem = s.mem) ∧
    (l.step = 3 → Completes .loadSignatureVerify s fun t =>
      let ok := Config.signatureOk ((h.drop 320).take 96) (Hash.sha384 (h.take 416 ++ l.body)) ((h.drop 416).take 96)
      t.fab = { s.fab with load := { l with step := 4, fail := if ok then none else some Sc.accessDenied } } ∧ t.dict = s.dict) ∧
    (∀ st, l.step = 4 → l.fail = some st → exec .loadRelease s = .next (s.failLoad st (some Es.fabricAuth))) ∧
    (l.step = 4 → l.fail = none → Completes .loadRelease s fun t => t.fab.load = {} ∧
      (∀ r ∈ loadRegions l, bit (hdrMask h) r = true → (t.region r).st = 2 ∧ (t.region r).fclkMhz = hdrClk h r ∧
        (t.region r).frames = (s.region r).frames ∧ (r < 16 → (t.region r).flags = hdrFlags h r ∧ (t.region r).winLog2 = hdrWin h r)) ∧
      (∀ r ∈ loadRegions l, bit (hdrMask h) r = false → t.region r = {}) ∧
      (∀ r, r ∉ loadRegions l → t.region r = s.region r)) ∧
    (l.source = 0 → l.step = 1 ∨ l.step = 2 → exec .cfgStreamTimeout s = .next (s.failLoad Sc.timeout (some Es.fabricLoad))) ∧
    (l.source = 2 → l.step = 1 ∨ l.step = 2 → exec .xspiTimeout s = .next (s.failLoad Sc.accessDenied (some Es.xspiAbsent))) := by
  refine ⟨fun h1 h0 hg => ?_, fun h2 h0 hg => bodyWritten fl hp h2 h0 hg, fun h3 => signatureJudged hp h3,
    fun st h4 hf => (exec_loadRelease hp h4).1 st hf, fun h4 hf => regionsReleased hp h4 hf, fun h0 h => ?_, fun h2 h => ?_⟩
  · obtain ⟨hres, hbound, htrust, -⟩ := execLoadHeaderCheck_stream fl fb hp h1 h0 hg
    exact ⟨hres, hbound, htrust, fun hr hb ht => headerAccepted fl fb hp h1 h0 hg hr hb ht⟩
  · refine congrArg Host.Outcome.next (if_pos ?_)
    simpa [hp, h0] using h
  · refine congrArg Host.Outcome.next (if_pos ?_)
    simpa [hp, h2] using h

end Sys2Proof.Machine
end

section
/-!
The scrubber, the ports of the logic fabric and its epoch signals; and the claim on the fabric.
-/
namespace Sys2Proof.Machine

open Sys2Proof

/-! Scrubbing (R641). -/

/-- The upsets of a frame. -/
def Region_.upsetIn (x : Region_) (f : Nat) : List (Nat × Nat) := x.upset.filter fun e => e.1 / 512 == f

/-- What a scrubbed frame loses of its region's upsets: those with one bit set. -/
theorem upset_kept_of_single {x : Region_} {f : Nat} (h : ∀ e ∈ x.upsetIn f, ones72 e.2 = 1) :
    x.upset.filter (fun e => !(e.1 / 512 == f && ones72 e.2 == 1)) = x.upset.filter fun e => !(e.1 / 512 == f) := by
  refine List.filter_congr fun e he => ?_
  cases hf : e.1 / 512 == f with
  | false => rfl
  | true => simp [h e (List.mem_filter.2 ⟨he, hf⟩)]

/-- The state after single errors have been mended and counted, and the position moved on. -/
def State.scrubbed (s : State) (r f : Nat) (w : Bool) (fixed : Nat) : State :=
  let x := s.region r
  let s := s.setRegion r { x with upset := x.upset.filter fun e => !(e.1 / 512 == f && ones72 e.2 == 1) }
  let s := (List.range fixed).foldl (fun s _ => (s.bump Obj.CFG_CE).raise Es.fabricCfgCe { info := r }) s
  let s := if w then s.bump Obj.CFG_SCRUB_PASSES else s
  let pos := r * 1280 + f + 1
  let s := s.setFab { s.fab with scrubPos := pos % (24 * 1280) }
  if pos = 24 * 1280 then s.bump Obj.CFG_SCRUB_PASSES else s

section
variable {s : State} {r f : Nat} {w : Bool}

theorem exec_cfgScrubFrame (found : Nat) (hp : s.fabPaused = false) (hper : s.obj Obj.CFG_SCRUB_PERIOD_MS ≠ 0)
    (hn : s.scrubNext = some (r, f, w)) :
    let here := (s.region r).upsetIn f
    let t := s.scrubbed r f w ((here.filter fun e => ones72 e.2 = 1).length + b2n (found = 1))
    exec (.cfgScrubFrame found) s = .next (if here.any (fun e => 1 < ones72 e.2) || found = 2 then t.cfgUe r else t) := by
  have h : exec (.cfgScrubFrame found) s = execCfgScrubFrame found s := rfl
  have hgo : (decide (s.obj Obj.CFG_SCRUB_PERIOD_MS = 0) || s.fabPaused) = false := by simp [hp, hper]
  simp only [h, execCfgScrubFrame, hgo, Bool.false_eq_true, if_false, hn]
  rfl

theorem State.fab_countCe (s : State) (r fixed : Nat) :
    ((List.range fixed).foldl (fun s _ => (s.bump Obj.CFG_CE).raise Es.fabricCfgCe { info := r }) s).fab = s.fab :=
  foldl_keeps State.fab (fun u _ => State.fab_of_works ((u.bump Obj.CFG_CE).works_raise _ _)) _ _

/-- The scrubber's pass over a frame changes its region's upsets and its own position. -/
theorem State.fab_scrubbed (s : State) (r f : Nat) (w : Bool) (fixed : Nat) :
    let x := s.region r
    (s.scrubbed r f w fixed).fab = { (s.setRegion r { x with upset := x.upset.filter fun e => !(e.1 / 512 == f && ones72 e.2 == 1) }).fab with
      scrubPos := (r * 1280 + f + 1) % (24 * 1280) } := by
  unfold State.scrubbed
  extract_lets x t u v pos _ y
  have hu : u.fab = t.fab := State.fab_countCe t r fixed
  have hv : v.fab = u.fab := by
    show (if _ then _ else u : State).fab = _
    split <;> rfl
  have hy : y.fab = { t.fab with scrubPos := pos % (24 * 1280) } := by
    show ({ v.fab with scrubPos := pos % (24 * 1280) } : Fabric) = _
    rw [hv, hu]
  split
  · exact hy
  · exact hy

theorem State.region_scrubbed (s : State) (r f : Nat) (w : Bool) (fixed q : Nat) :
    (s.scrubbed r f w fixed).region q = (s.setRegion r { s.region r with
      upset := (s.region r).upset.filter fun e => !(e.1 / 512 == f && ones72 e.2 == 1) }).region q :=
  (congrArg (fun f : Fabric => SMap.get ({} : Region_) f.regions q) (s.fab_scrubbed r f w fixed)).trans rfl

/-- The objects that the scrubber's pass over a frame does not count in. -/
theorem State.obj_scrubbed {k : Nat} (fixed : Nat) (he : k ∉ errorCounts) (hpass : k ≠ Obj.CFG_SCRUB_PASSES)
    (hce : fixed = 0 ∨ k ≠ Obj.CFG_CE) : (s.scrubbed r f w fixed).obj k = s.obj k := by
  unfold State.scrubbed
  extract_lets x t u v pos _ y
  have hu : u.obj k = s.obj k := by
    obtain h | h := hce
    · show State.obj (List.foldl _ t (List.range fixed)) k = _
      rw [h]
      rfl
    · refine (foldl_keeps (fun z : State => z.obj k) (fun z _ => ?_) (List.range fixed) t).trans rfl
      exact ((State.raise_told _ _ (by decide)).obj he).trans (State.obj_bump_other _ _ _ _ h)
  have hv : v.obj k = s.obj k := by
    show (if _ then _ else u : State).obj _ = _
    split
    · exact (State.obj_bump_other _ _ _ _ hpass).trans hu
    · exact hu
  split
  · exact (State.obj_bump_other _ _ _ _ hpass).trans hv
  · exact hv

/-- A frame without upsets moves the scrubber on, and changes nothing else that the claim names. -/
theorem frameClean (hp : s.fabPaused = false) (hper : s.obj Obj.CFG_SCRUB_PERIOD_MS ≠ 0) (hn : s.scrubNext = some (r, f, w))
    (hh : (s.region r).upsetIn f = []) : Completes (.cfgScrubFrame 0) s fun t =>
      (∀ q, t.region q = s.region q) ∧ t.fab.scrubPos = (r * 1280 + f + 1) % 30720 ∧
      t.obj Obj.CFG_CE = s.obj Obj.CFG_CE ∧ t.obj Obj.CFG_UE = s.obj Obj.CFG_UE ∧ t.ucbs = s.ucbs := by
  have hex := exec_cfgScrubFrame 0 hp hper hn
  simp only [hh, List.any_nil, List.filter_nil, List.length_nil, show ((0 : Nat) = 2) = False by decide, decide_false, Bool.or_self,
    Bool.false_eq_true, if_false, show ((0 : Nat) = 1) = False by decide, b2n, Nat.add_zero] at hex
  have hup : (s.region r).upset.filter (fun e => !(e.1 / 512 == f && ones72 e.2 == 1)) = (s.region r).upset := by
    refine (upset_kept_of_single fun e he => absurd (hh ▸ he) List.not_mem_nil).trans (List.filter_eq_self.2 fun e he => ?_)
    have hf : (e.1 / 512 == f) = false := Bool.not_eq_true _ ▸ fun h => List.filter_eq_nil_iff.1 hh e he h
    rw [hf]
    rfl
  refine ⟨_, hex, fun q => ?_, congrArg Fabric.scrubPos (s.fab_scrubbed r f w 0), ?_, ?_, ?_⟩
  · rw [State.region_scrubbed, hup]
    by_cases hq : q = r
    · rw [hq, State.region_setRegion_same]
    · exact State.region_setRegion_other _ _ _ _ hq
  · exact State.obj_scrubbed 0 (by decide) (by decide) (.inl rfl)
  · exact State.obj_scrubbed 0 (by decide) (by decide) (.inl rfl)
  · unfold State.scrubbed
    extract_lets x t u v pos _ y
    have hv : v.ucbs = s.ucbs := by
      show (if _ then _ else u : State).ucbs = _
      split <;> rfl
    split <;> exact hv

/-- Single errors are mended. -/
theorem frameMended (hp : s.fabPaused = false) (hper : s.obj Obj.CFG_SCRUB_PERIOD_MS ≠ 0) (hn : s.scrubNext = some (r, f, w))
    (hh : ∀ e ∈ (s.region r).upsetIn f, ones72 e.2 = 1) : Completes (.cfgScrubFrame 0) s fun t =>
      (t.region r).upset = (s.region r).upset.filter (fun e => !(e.1 / 512 == f)) ∧ (t.region r).st = (s.region r).st ∧
      ∀ q, q ≠ r → t.region q = s.region q := by
  have hex := exec_cfgScrubFrame 0 hp hper hn
  have hany : ((s.region r).upsetIn f).any (fun e => decide (1 < ones72 e.2)) = false := by
    rw [List.any_eq_false]
    intro e he
    rw [hh e he]
    decide
  simp only [hany, show ((0 : Nat) = 2) = False by decide, decide_false, Bool.or_self, Bool.false_eq_true, if_false] at hex
  refine ⟨_, hex, ?_⟩
  simp only [State.region_scrubbed, upset_kept_of_single hh, State.region_setRegion_same, true_and]
  exact fun q hq => State.region_setRegion_other _ _ _ _ hq

/-- A double error stops its region, and the port of it. -/
theorem frameBroken (hp : s.fabPaused = false) (hper : s.obj Obj.CFG_SCRUB_PERIOD_MS ≠ 0) (hn : s.scrubNext = some (r, f, w))
    (hact : s.obj Obj.FABRIC_UE_ACTION ≠ 1) : Completes (.cfgScrubFrame 2) s fun t =>
      (t.region r).st = 3 ∧ (t.region r).frames = (s.region r).frames ∧ (∀ q, q ≠ r → t.region q = s.region q) ∧
      (r < 16 → t.unitSt (unitOf 9 r) = .faulted) := by
  have hex := exec_cfgScrubFrame 2 hp hper hn
  simp only [decide_true, Bool.or_true, if_true] at hex
  generalize hfix : (List.filter _ _).length + b2n _ = fixed at hex
  have hreg := s.region_scrubbed r f w fixed
  have hact' : ((s.scrubbed r f w fixed).bump Obj.CFG_UE).obj Obj.FABRIC_UE_ACTION ≠ 1 := by
    rw [State.obj_bump_other _ _ _ _ (by decide), State.obj_scrubbed _ (by decide) (by decide) (.inr (by decide))]
    exact hact
  generalize s.scrubbed r f w fixed = t at hex hreg hact'
  have hue : t.cfgUe r = (if r < 16 then ((t.bump Obj.CFG_UE).setRegion r { t.region r with st := 3 }).setUcb (unitOf 9 r)
      { t.ucb (unitOf 9 r) with st := .faulted, target := none } else (t.bump Obj.CFG_UE).setRegion r { t.region r with st := 3 }).raise
        Es.fabricCfgUe { info := r } := by
    unfold State.cfgUe
    exact if_neg hact'
  have hz (q : Nat) : (t.cfgUe r).region q = ((t.bump Obj.CFG_UE).setRegion r { t.region r with st := 3 }).region q := by
    rw [hue, State.region_of_works (State.works_raise ..)]
    split <;> rfl
  refine ⟨_, hex, ?_, ?_, fun q hq => ?_, fun h16 => ?_⟩
  · rw [hz, State.region_setRegion_same]
  · rw [hz, State.region_setRegion_same, hreg, State.region_setRegion_same]
  · rw [hz, State.region_setRegion_other _ _ _ _ hq, State.region_bump, hreg, State.region_setRegion_other _ _ _ _ hq]
  · rw [hue, if_pos h16, State.unitSt, (State.raise_told _ _ (by decide)).ucb, State.ucb_setUcb_same]

end

end Sys2Proof.Machine
end

section
/-!
The ports of the logic fabric and its epoch signals, and the claim on the fabric (R643 to R653).
-/
namespace Sys2Proof.Machine

open Sys2Proof

/-! The master side (R643 to R647). -/

section
variable {s : State} {n : Nat} {q : FpReq}

theorem mastersQueue (cmd addr len oid tc op : Nat) (pz : Bool) (data : List Byte) (hn : n < 16) (hs : s.safety.safe = false)
    (hr : (s.region n).st = 2) :
    let x := s.fport n
    let q : FpReq := { cmd := cmd, addr := addr, len := len, oid := oid, tc := tc, poison := pz, op := op, data := data }
    let w := s.setFport n { x with waiting := x.waiting ++ [q] }
    exec (.fpMasterRequest n cmd addr len oid tc pz op data) s = .next (State.masterPump n (x.waiting.length + 1) w) ∧
    (x.waiting = [] → State.masterPump n 1 w = ((w.setFport n { x with waiting := [] }).masterTake n q).getD w) := by
  intro x q w
  refine ⟨?_, fun hw => ?_⟩
  · show execFpMasterRequest n cmd addr len oid tc pz op data s = _
    unfold execFpMasterRequest
    exact if_neg (by simp [Nat.not_le.2 hn, hs, hr])
  · have hport : w.fport n = { x with waiting := [q] } := by
      rw [State.fport_setFport_same, hw]
      rfl
    simp only [State.masterPump, hport]
    cases (w.setFport n { x with waiting := [] }).masterTake n q <;> rfl

theorem masterTake_full (h : s.obj (Obj.FP_MAX_OUTSTANDING n) ≤ (s.fport n).masters.length) : s.masterTake n q = none := by
  unfold State.masterTake
  exact if_pos h

theorem masterTake_reserved (h : (s.fport n).masters.length < s.obj (Obj.FP_MAX_OUTSTANDING n)) (hc : 2 < q.cmd) :
    s.masterTake n q = some (s.masterRefuse n q.oid Sc.reservedNonzero 0) := by
  simp [State.masterTake, Nat.not_le.2 h, hc]

theorem masterTake_closed (h : (s.fport n).masters.length < s.obj (Obj.FP_MAX_OUTSTANDING n)) (hc : q.cmd = 1) {st : UState}
    (hst : s.unitSt (unitOf 9 n) = st) (hclosed : (st == .ready || st == .busy || st == .quiescing) = false) :
    s.masterTake n q = some (s.masterRefuse n q.oid (if st == .faulted then Sc.unitDisabled else Sc.unitHooded) 0) := by
  simp [State.masterTake, Nat.not_le.2 h, hc, hst, hclosed]

theorem masterTake_bound (h : (s.fport n).masters.length < s.obj (Obj.FP_MAX_OUTSTANDING n)) (hc : q.cmd < 2)
    (hst : s.unitSt (unitOf 9 n) = .ready) (ho : (s.dom (unitOf 9 n)).phase = .open_) (hl : q.len = 0 ∨ 128 < q.len) :
    s.masterTake n q = some (s.masterRefuse n q.oid Sc.boundViolation 0) := by
  have hc2 : (q.cmd = 2) = False := eq_false (by omega)
  have hlen : (decide (q.len < 1) || decide (128 < q.len)) = true := by
    obtain h | h := hl <;> simp [h]
  simp only [State.masterTake, Nat.not_le.2 h, hc2, hst, ho, hlen, Nat.not_lt.2 (Nat.le_of_lt hc), decide_false, Bool.false_and, Bool.or_self,
    Bool.false_eq_true, if_false, beq_self_eq_true, Bool.true_or, Bool.not_true, bne_self_eq_false, firstFail, if_true, Bool.or_false]
  rfl

theorem masterTake_alignment (h : (s.fport n).masters.length < s.obj (Obj.FP_MAX_OUTSTANDING n)) (hc : q.cmd < 2)
    (hst : s.unitSt (unitOf 9 n) = .ready) (ho : (s.dom (unitOf 9 n)).phase = .open_) (h1 : 1 ≤ q.len) (h128 : q.len ≤ 128)
    (ha : 128 < q.addr % 128 + q.len) : s.masterTake n q = some (s.masterRefuse n q.oid Sc.alignment 0) := by
  have hc2 : (q.cmd = 2) = False := eq_false (by omega)
  simp only [State.masterTake, Nat.not_le.2 h, hc2, hst, ho, Nat.not_lt.2 h1, Nat.not_lt.2 h128, decide_eq_true ha,
    Nat.not_lt.2 (Nat.le_of_lt hc), decide_false, Bool.false_and, Bool.or_self, Bool.false_eq_true, if_false, beq_self_eq_true,
    Bool.true_or, Bool.not_true, bne_self_eq_false, firstFail, if_true]
  rfl

/-- The packet of a read or a write that a port admits. -/
def FpReq.packet (q : FpReq) (n ga d : Nat) : Packet := {
  id := 0
  kind := if q.cmd = 0 then .rdReq else .wr
  tc := if q.tc = 0 then 1 else 2
  src := 0
  dst := d
  at_ := 0
  dev := ga / 2 ^ 56
  addr := ga % 2 ^ 56
  len := q.len
  data := if q.cmd = 0 then [] else padTo q.len q.data
  op := q.op
  sz := if q.len = 8 then 1 else 0
  agent := .fabric n q.oid
  sentNs := 0 }

/-- A read or write within one line, translated: refused where the port may not send, else admitted as a packet. -/
theorem masterTake_translated (h : (s.fport n).masters.length < s.obj (Obj.FP_MAX_OUTSTANDING n)) (hc : q.cmd < 2)
    (hst : s.unitSt (unitOf 9 n) = .ready) (ho : (s.dom (unitOf 9 n)).phase = .open_) (h1 : 1 ≤ q.len)
    (ha : q.addr % 128 + q.len ≤ 128) {ga : Nat} {u : State}
    (ht : (s.xlateRange (s.obj (Obj.FP_CTX n)) q.addr q.len (q.cmd == 0) (q.cmd == 1)).1 = 0)
    (hga : ((s.xlateRange (s.obj (Obj.FP_CTX n)) q.addr q.len (q.cmd == 0) (q.cmd == 1)).2.1.headD (0, 0, 0)).1 = ga)
    (hu : (s.xlateRange (s.obj (Obj.FP_CTX n)) q.addr q.len (q.cmd == 0) (q.cmd == 1)).2.2.2 = u)
    (hm : regionOf (ga % 2 ^ 56) ≠ .mmio) :
    (bit (u.region n).flags 1 = false → s.masterTake n q = some (u.masterRefuse n q.oid Sc.accessDenied 0)) ∧
    (∀ d, bit (u.region n).flags 1 = true → u.destNode (ga / 2 ^ 56) (ga % 2 ^ 56) = some d → q.poison = false →
      let x := s.fport n
      let m : MReq := { oid := q.oid, tag := x.nextTag, mmio := false }
      s.masterTake n q = ((u.setFport n { x with masters := x.masters ++ [m], nextTag := x.nextTag + 1 }).send (q.packet n ga d)
        (.fabric n x.nextTag)).map fun v => v.bump64 (Obj.FP_MASTER_REQS n)) := by
  have hc2 : (q.cmd = 2) = False := eq_false (by omega)
  have hm' : (regionOf (ga % 2 ^ 56) == .mmio) = false := beq_eq_false_iff_ne.2 hm
  have hd0 : decide (q.cmd = 0) = (q.cmd == 0) := rfl
  have hd1 : decide (q.cmd = 1) = (q.cmd == 1) := rfl
  have h128 : ¬ 128 < q.len := by omega
  have hz1 : decide (0 = Sc.alignment) = false := rfl
  have hz2 : decide (0 = Sc.apertureMiss) = false := rfl
  have hne : Sc.accessDenied ≠ 0 := by decide
  refine ⟨fun hf => ?_, fun d hf hdest hpz => ?_⟩
  · simp only [State.masterTake, Nat.not_le.2 h, hc2, hst, ho, Nat.not_lt.2 h1, h128, Nat.not_lt.2 ha, Nat.not_lt.2 (Nat.le_of_lt hc),
      decide_false, Bool.false_and, Bool.or_self, Bool.false_eq_true, if_false, beq_self_eq_true, Bool.true_or, Bool.not_true,
      bne_self_eq_false, firstFail, Bool.or_false, hd0, hd1, ht, hga, hu, hm', hf, Bool.and_false, Bool.not_false, hz1, hz2, Bool.or_true,
      if_true, ne_eq, hne, not_true_eq_false, not_false_eq_true]
  · simp only [State.masterTake, Nat.not_le.2 h, hc2, hst, ho, Nat.not_lt.2 h1, h128, Nat.not_lt.2 ha, Nat.not_lt.2 (Nat.le_of_lt hc),
      decide_false, Bool.false_and, Bool.or_self, Bool.false_eq_true, if_false, beq_self_eq_true, Bool.true_or, Bool.not_true,
      bne_self_eq_false, firstFail, Bool.or_false, hd0, hd1, ht, hga, hu, hm', hf, Bool.and_false, hz1, hz2, ne_eq, not_true_eq_false,
      hdest, hpz]
    simp only [FpReq.packet]
    split
    · next v hv => rw [hv, Option.map_some]
    · next hv => rw [hv, Option.map_none]

end

theorem mastersTaken (s : State) (n : Nat) (q : FpReq) :
    (s.obj (Obj.FP_MAX_OUTSTANDING n) ≤ (s.fport n).masters.length → s.masterTake n q = none) ∧
    ((s.fport n).masters.length < s.obj (Obj.FP_MAX_OUTSTANDING n) →
      (2 < q.cmd → s.masterTake n q = some (s.masterRefuse n q.oid Sc.reservedNonzero 0)) ∧
      (q.cmd = 1 → s.unitSt (unitOf 9 n) = .faulted → s.masterTake n q = some (s.masterRefuse n q.oid Sc.unitDisabled 0)) ∧
      (q.cmd = 1 → s.unitSt (unitOf 9 n) = .hooded → s.masterTake n q = some (s.masterRefuse n q.oid Sc.unitHooded 0)) ∧
      (q.cmd < 2 → s.unitSt (unitOf 9 n) = .ready → (s.dom (unitOf 9 n)).phase = .open_ →
        (q.len = 0 ∨ 128 < q.len → s.masterTake n q = some (s.masterRefuse n q.oid Sc.boundViolation 0)) ∧
        (1 ≤ q.len → q.len ≤ 128 → 128 < q.addr % 128 + q.len →
          s.masterTake n q = some (s.masterRefuse n q.oid Sc.alignment 0)) ∧
        (∀ ga u, 1 ≤ q.len → q.addr % 128 + q.len ≤ 128 →
          let t := s.xlateRange (s.obj (Obj.FP_CTX n)) q.addr q.len (q.cmd == 0) (q.cmd == 1)
          t.1 = 0 → (t.2.1.headD (0, 0, 0)).1 = ga → t.2.2.2 = u → regionOf (ga % 2 ^ 56) ≠ .mmio →
          (bit (u.region n).flags 1 = false → s.masterTake n q = some (u.masterRefuse n q.oid Sc.accessDenied 0)) ∧
          (∀ d, bit (u.region n).flags 1 = true → u.destNode (ga / 2 ^ 56) (ga % 2 ^ 56) = some d → q.poison = false →
            let x := s.fport n
            let m : MReq := { oid := q.oid, tag := x.nextTag, mmio := false }
            s.masterTake n q = ((u.setFport n { x with masters := x.masters ++ [m], nextTag := x.nextTag + 1 }).send (q.packet n ga d)
              (.fabric n x.nextTag)).map fun v => v.bump64 (Obj.FP_MASTER_REQS n))))) :=
  ⟨masterTake_full, fun h => ⟨masterTake_reserved h, fun hc hf => masterTake_closed h hc hf rfl,
    fun hc hh => masterTake_closed h hc hh rfl, fun hc hst ho => ⟨masterTake_bound h hc hst ho, masterTake_alignment h hc hst ho,
      fun _ _ h1 ha ht hga hu hm => masterTake_translated h hc hst ho h1 ha ht hga hu hm⟩⟩⟩

/-! The target side (R649). -/

theorem targetsAnswer (s : State) (n tag : Nat) (p : Packet) (data : List Byte) (hn : n < 16) (hs : s.safety.safe = false)
    (hf : (s.fport n).targets.find? (fun e => e.1 == tag) = some (tag, p)) :
    let u := s.setFport n { s.fport n with targets := (s.fport n).targets.filter (fun e => e.1 ≠ tag) }
    (p.kind = .rdReq → exec (.fpTargetAnswer n tag 0 false data) s = .next (u.respond p .rdRsp Sc.ok (padTo p.len data) 0 0)) ∧
    (p.kind = .wr → exec (.fpTargetAnswer n tag 0 false data) s = .next (u.respond p .wrAck Sc.ok [] 0 0)) ∧
    (p.kind = .wr → exec (.fpTargetAnswer n tag 1 false data) s = .next (u.respond p .wrAck Sc.accessDenied [] 0 0)) ∧
    (p.kind = .wr → exec (.fpTargetAnswer n tag 2 false data) s =
      .next ((u.bump (Obj.FP_TARGET_ERRORS n)).respond p .wrAck Sc.accessDenied [] 0 0)) := by
  intro u
  have h (st : Nat) : exec (.fpTargetAnswer n tag st false data) s = execFpTargetAnswer n tag st false data s := rfl
  have hgo : (decide (16 ≤ n) || s.safety.safe) = false := by simp [Nat.not_le.2 hn, hs]
  refine ⟨fun hk => ?_, fun hk => ?_, fun hk => ?_, fun hk => ?_⟩
  all_goals
    rw [h]
    unfold execFpTargetAnswer
    rw [if_neg (by rw [hgo]; decide)]
    simp only [hf, hk]
    rfl

/-! Epoch signals (R653), and the claim. -/

theorem epochSignalTriggers (s : State) (e : Nat) (he : e < 32) (hs : s.safety.safe = false) (hr : (s.region (e / 2)).st = 2) :
    (bit (s.region (e / 2)).esig (e % 2) = true → Completes (.fabricEpochEdge e) s fun t =>
      (∀ d, d < 32 → s.edSource d = 7 → s.edArg d = e → t.epoch d = (s.trigger d).epoch d) ∧
      (∀ d, ¬(d < 32 ∧ s.edSource d = 7 ∧ s.edArg d = e) → t.epoch d = s.epoch d) ∧ t.mem = s.mem) ∧
    (bit (s.region (e / 2)).esig (e % 2) = false → exec (.fabricEpochEdge e) s = .next s) := by
  refine ⟨fun hb => ?_, fun hb => ?_⟩
  · obtain ⟨hsame, hother⟩ := State.epoch_triggerSource (s := s) (t := s) 7 e rfl fun _ _ => ⟨rfl, rfl⟩
    refine .of_occ rfl (by simp [he, hr, hb, hs]) ⟨hsame, hother, ?_⟩
    obtain ⟨_, _, h, -⟩ := Triggered.triggerSource s 7 e
    rw [h]
  · refine congrArg Host.Outcome.next (if_neg ?_)
    simp [hb]

/-- Settles O57: each clause is a lemma on loads, the scrubber, the ports or the epoch signals. -/
theorem logicFabricLoadsAndServes : Obligations.LogicFabricLoadsAndServes := by
  unfold Obligations.LogicFabricLoadsAndServes
  refine ⟨loadsControlled, loadFails, fun s v hv hp => ?_, streamWritten, loadSteps, fun s r f w hp hper hn => ?_, fun s hs => ?_,
    fun s n cmd addr len oid tc op pz data hn hs hr => mastersQueue cmd addr len oid tc op pz data hn hs hr, mastersTaken, targetsAnswer,
    epochSignalTriggers⟩
  · rw [exec_cfgDataWrite hv]
    exact congrArg Host.Outcome.next (if_pos hp)
  · exact ⟨frameClean hp hper hn, frameMended hp hper hn, fun hact _ => frameBroken hp hper hn hact⟩
  · constructor <;> refine congrArg Host.Outcome.next (if_neg ?_ |>.trans rfl) <;> simp [hs]

end Sys2Proof.Machine
end

section
/-!
The lanes of a port: what setting several of them changes, and masks of lanes.
-/
namespace Sys2Proof.Machine

open Sys2Proof

/-! Masks. -/

theorem bit_eq_testBit (v i : Nat) : bit v i = v.testBit i := by
  rw [bit, Nat.testBit_eq_decide_div_mod_eq]
  exact beq_eq_decide ..

theorem mem_lanesOf {mask l : Nat} : l ∈ lanesOf mask ↔ l < 8 ∧ bit mask l = true := by
  rw [lanesOf, List.mem_filter, List.mem_range]

theorem lanesOf_nodup (mask : Nat) : (lanesOf mask).Nodup := List.nodup_range.filter _

theorem lanesOf_sorted (mask : Nat) : (lanesOf mask).SortedLT := ((List.sortedLT_range 8).pairwise.filter _).sortedLT

/-- The lanes that a mask of eight leaves out. -/
theorem bit_others {m l : Nat} (hm : m < 256) (hl : l < 8) : bit (255 - m) l = !bit m l := by
  have h := Nat.testBit_two_pow_sub_succ (x := m) (n := 8) hm l
  rw [decide_eq_true hl, Bool.true_and, show 2 ^ 8 - (m + 1) = 255 - m by omega] at h
  rw [bit_eq_testBit, bit_eq_testBit, h]

/-- The mask of a rising list of lanes. -/
theorem bit_mask {ls : List Nat} (h : ls.SortedLT) (l : Nat) : bit (ls.map fun l => 2 ^ l).sum l = true ↔ l ∈ ls := by
  rw [bit_eq_testBit, ← Nat.mem_bitIndices, Nat.bitIndices_sum_map_two_pow h]

/-! Lanes set one after another. -/

/-- `t` is `s` but for the lanes. -/
def Relaned (s t : State) : Prop := ∃ L, t = { s with link := { s.link with lanes := L } }

section
variable {s t u : State}

theorem Relaned.refl (s : State) : Relaned s s := ⟨_, rfl⟩
theorem Relaned.setLane (s : State) (n l : Nat) (x : Lane) : Relaned s (s.setLane n l x) := ⟨_, rfl⟩

theorem Relaned.trans (h : Relaned s t) (h' : Relaned t u) : Relaned s u := by
  obtain ⟨_, ht⟩ := h
  obtain ⟨_, hu⟩ := h'
  exact ⟨_, by rw [hu, ht]⟩

theorem Relaned.foldl {β : Type} {f : State → β → State} (hf : ∀ u b, Relaned u (f u b)) (l : List β) (s : State) :
    Relaned s (l.foldl f s) := by
  induction l generalizing s with
  | nil => exact .refl s
  | cons b l ih => exact (hf s b).trans (ih _)

theorem Relaned.phy (h : Relaned s t) (m : Nat) : t.phy m = s.phy m := by
  obtain ⟨_, rfl⟩ := h
  rfl

theorem Relaned.dict (h : Relaned s t) : t.dict = s.dict := by
  obtain ⟨_, rfl⟩ := h
  rfl

theorem Relaned.mem (h : Relaned s t) : t.mem = s.mem := by
  obtain ⟨_, rfl⟩ := h
  rfl

theorem Relaned.out (h : Relaned s t) : t.out = s.out := by
  obtain ⟨_, rfl⟩ := h
  rfl

theorem Relaned.obj (h : Relaned s t) (k : Nat) : t.obj k = s.obj k := by
  obtain ⟨_, rfl⟩ := h
  rfl

end

section
variable (s : State) (n : Nat)

theorem State.lane_setLane_ne {l k : Nat} (x : Lane) (h : k ≠ l) : (s.setLane n l x).lane n k = s.lane n k :=
  State.lane_setLane_other _ _ _ _ _ _ (by omega)

/-- A fold that changes one lane of a port for each of a list. -/
theorem foldl_lanes {f : State → Nat → State} {g : Nat → Lane → Lane} (hsame : ∀ u l, (f u l).lane n l = g l (u.lane n l))
    (hother : ∀ u l k, k ≠ l → (f u l).lane n k = u.lane n k) {ls : List Nat} (hl : ls.Nodup) :
    (∀ l ∈ ls, (ls.foldl f s).lane n l = g l (s.lane n l)) ∧ ∀ k, k ∉ ls → (ls.foldl f s).lane n k = s.lane n k := by
  have h := foldl_updates (fun u l => u.lane n l) (key := id) hsame hother ls (by rwa [List.map_id]) s
  rwa [List.map_id] at h

/-- A fold that sets one lane of a port for each of a list, from what the lane holds. -/
theorem foldl_setLane (g : Nat → Lane → Lane) {ls : List Nat} (hl : ls.Nodup) :
    let t := ls.foldl (fun u l => u.setLane n l (g l (u.lane n l))) s
    (∀ l ∈ ls, t.lane n l = g l (s.lane n l)) ∧ (∀ k, k ∉ ls → t.lane n k = s.lane n k) ∧ Relaned s t := by
  obtain ⟨hin, hout⟩ := foldl_lanes s n (f := fun u l => u.setLane n l (g l (u.lane n l))) (fun u l => State.lane_setLane_same ..)
    (fun u l k h => u.lane_setLane_ne n _ h) hl
  exact ⟨hin, hout, .foldl (fun u l => .setLane u n l _) ls s⟩

/-- Setting the lanes of a mask. -/
theorem State.mapLanes_spec (mask : Nat) (f : Nat → Lane → Lane) :
    (∀ l, l < 8 → bit mask l = true → (s.mapLanes n mask f).lane n l = f l (s.lane n l)) ∧
    (∀ l, bit mask l = false → (s.mapLanes n mask f).lane n l = s.lane n l) ∧ Relaned s (s.mapLanes n mask f) := by
  obtain ⟨hin, hout, hr⟩ := foldl_setLane s n f (lanesOf_nodup mask)
  refine ⟨fun l hl hb => hin l (mem_lanesOf.2 ⟨hl, hb⟩), fun l hb => hout l fun h => ?_, hr⟩
  rw [(mem_lanesOf.1 h).2] at hb
  exact Bool.noConfusion hb

end

end Sys2Proof.Machine
end

section
/-!
Phidun lanes: presence and waiting, training frames, and the exclusion of miscabled lanes (R669 to R676).
-/
namespace Sys2Proof.Machine

open Sys2Proof

/-! Waiting and luring again (R670, R672). -/

section
variable {s : State} {n : Nat}

theorem exec_presenceTimeout (h1 : (s.phy n).step = 1) (hc : (s.phy n).conflict = false) :
    exec (.presenceTimeout n) s = .next ((s.bump (Obj.PH_ABSENT_COUNT n)).enterWait n) := by
  show execPresenceTimeout n s = _
  simp only [execPresenceTimeout, occ, h1, hc, beq_self_eq_true, Bool.not_false, Bool.and_self, Bool.true_or, if_true, State.phy_bump]

theorem portWaits (h1 : (s.phy n).step = 1) (hc : (s.phy n).conflict = false) :
    Completes (.presenceTimeout n) s fun t => (t.phy n).step = 2 ∧ (t.phy n).exclRates = 0 ∧
      t.obj (Obj.PH_ABSENT_COUNT n) = satBump 32 (s.obj (Obj.PH_ABSENT_COUNT n)) 1 ∧
      (∀ l, l < 8 → bit (s.phy n).laneMask l = true → (t.lane n l).step = 2 ∧ (t.lane n l).tx = 3) ∧
      (∀ l, l < 8 → bit (s.phy n).laneMask l = false → t.lane n l = s.lane n l) ∧ (∀ m, m ≠ n → t.phy m = s.phy m) ∧
      t.mem = s.mem := by
  refine ⟨_, exec_presenceTimeout h1 hc, ?_⟩
  unfold State.enterWait
  extract_lets _ u
  have hu : u.phy n = { s.phy n with step := 2, exclRates := 0, fails := 0, failSel := none } := State.phy_setPhy_same ..
  have hmask : (u.phy n).laneMask = (s.phy n).laneMask := by rw [hu]
  have hobj : u.obj (Obj.PH_ABSENT_COUNT n) = satBump 32 (s.obj (Obj.PH_ABSENT_COUNT n)) 1 := s.obj_bump_same _ _
  rw [hmask]
  obtain ⟨hin, hout, hr⟩ := u.mapLanes_spec n (s.phy n).laneMask fun _ x => { laneOffAs false x with step := 2 }
  refine ⟨?_, ?_, (hr.obj _).trans hobj, fun l hl hb => ?_, fun l _ hb => (hout l hb).trans rfl, fun m hm => ?_, hr.mem⟩
  · rw [hr.phy, hu]
  · rw [hr.phy, hu]
  · rw [hin l hl hb]
    exact ⟨rfl, rfl⟩
  · exact (hr.phy m).trans (State.phy_setPhy_other _ _ _ _ hm)

/-- What a port that enters PRESENCE holds, and what its lanes do. -/
theorem State.enterPresence_spec (s : State) (n : Nat) (hm : s.obj (Obj.PH_LANE_MASK n) < 256) :
    let t := s.enterPresence n
    (t.phy n).step = 1 ∧ (t.phy n).maxRate = s.obj (Obj.PH_MAX_RATE n) ∧ (t.phy n).laneMask = s.obj (Obj.PH_LANE_MASK n) ∧
    (∀ l, l < 8 → bit (s.obj (Obj.PH_LANE_MASK n)) l = true → (t.lane n l).step = 1 ∧ (t.lane n l).tx = 0) ∧
    (∀ l, l < 8 → bit (s.obj (Obj.PH_LANE_MASK n)) l = false → (t.lane n l).step = 0 ∧ (t.lane n l).tx = 3) ∧
    (∀ m, m ≠ n → t.phy m = s.phy m) ∧ t.mem = s.mem := by
  intro t
  have ht : t = s.enterPresence n := rfl
  clear_value t
  unfold State.enterPresence at ht
  extract_lets m _ u v at ht
  obtain ⟨hoff, hkeep, hv⟩ := u.mapLanes_spec n (255 - m) fun _ x => laneOffAs false x
  obtain ⟨hon, hrest, hr⟩ := v.mapLanes_spec n m fun l x => lanePresence (v.obj (Obj.TX_FFE (8 * n + l))) x
  rw [← ht] at hon hrest hr
  have hphy (k : Nat) : t.phy k = u.phy k := (hr.phy k).trans (hv.phy k)
  have hu : u.phy n = _ := State.phy_setPhy_same ..
  refine ⟨?_, ?_, ?_, fun l hl hb => ?_, fun l hl hb => ?_, fun k hk => ?_, hr.mem.trans hv.mem⟩
  · rw [hphy, hu]
  · rw [hphy, hu]
  · rw [hphy, hu]
  · rw [hon l hl hb]
    exact ⟨rfl, rfl⟩
  · have hb' : bit (255 - m) l = true := by
      rw [bit_others hm hl, show bit m l = false from hb]
      rfl
    rw [hrest l hb, hoff l hl hb']
    exact ⟨rfl, rfl⟩
  · exact (hphy k).trans (State.phy_setPhy_other _ _ _ _ hk)

theorem exec_phRetryExpiry (h2 : (s.phy n).step = 2) :
    exec (.phRetryExpiry n) s = .next ((s.bump (Obj.PH_ABSENT_COUNT n)).enterPresence n) := by
  show execPhRetryExpiry n s = _
  simp only [execPhRetryExpiry, occ, h2, beq_self_eq_true, Bool.true_or, if_true, State.phy_bump]

theorem portLuresAgain (h2 : (s.phy n).step = 2) (hm : s.obj (Obj.PH_LANE_MASK n) < 256) :
    Completes (.phRetryExpiry n) s fun t => (t.phy n).step = 1 ∧
      (t.phy n).maxRate = s.obj (Obj.PH_MAX_RATE n) ∧ (t.phy n).laneMask = s.obj (Obj.PH_LANE_MASK n) ∧
      (∀ l, l < 8 → bit (s.obj (Obj.PH_LANE_MASK n)) l = true → (t.lane n l).step = 1 ∧ (t.lane n l).tx = 0) ∧
      (∀ l, l < 8 → bit (s.obj (Obj.PH_LANE_MASK n)) l = false → (t.lane n l).step = 0 ∧ (t.lane n l).tx = 3) ∧
      (∀ m, m ≠ n → t.phy m = s.phy m) ∧ t.mem = s.mem := by
  have hmask : (s.bump (Obj.PH_ABSENT_COUNT n)).obj (Obj.PH_LANE_MASK n) = s.obj (Obj.PH_LANE_MASK n) :=
    State.obj_bump_other _ _ _ _ (by unfold Obj.PH_LANE_MASK Obj.PH_ABSENT_COUNT; omega)
  have hrate : (s.bump (Obj.PH_ABSENT_COUNT n)).obj (Obj.PH_MAX_RATE n) = s.obj (Obj.PH_MAX_RATE n) :=
    State.obj_bump_other _ _ _ _ (by unfold Obj.PH_MAX_RATE Obj.PH_ABSENT_COUNT; omega)
  obtain ⟨h1, hmax, hlm, hon, hoff, hphy, hmem⟩ := (s.bump (Obj.PH_ABSENT_COUNT n)).enterPresence_spec n (hmask.symm ▸ hm)
  rw [hmask] at hlm hon hoff
  rw [hrate] at hmax
  exact ⟨_, exec_phRetryExpiry h2, h1, hmax, hlm, hon, hoff, hphy, hmem⟩

/-! A detected lure (R672). -/

theorem lureHeard {l : Nat} (hl : l < 8) (hstep : (s.lane n l).step = 2) (hx : (s.phy n).step ≠ 2) :
    Completes (.lureDetected n l) s fun t =>
      (t.lane n l).step = 1 ∧ (t.lane n l).los = false ∧ (t.lane n l).lol = false ∧ (∀ k, k < 8 → k ≠ l → t.lane n k = s.lane n k) ∧
      t.phy n = s.phy n ∧ t.dict = s.dict := by
  have hex : exec (.lureDetected n l) s = .next (s.setLane n l { lanePresence (s.obj (Obj.TX_FFE (8 * n + l))) (s.lane n l) with
      los := false, lol := false }) := by
    show execLureDetected n l s = _
    simp only [execLureDetected, occ, hl, hstep, hx, decide_true, beq_self_eq_true, Bool.and_self, if_true, decide_false, Bool.false_and,
      Bool.false_eq_true, if_false]
  refine ⟨_, hex, ?_⟩
  dsimp only
  rw [State.lane_setLane_same]
  exact ⟨rfl, rfl, rfl, fun k _ hk => s.lane_setLane_ne n _ hk, rfl, rfl⟩

/-- A port that leaves WAIT: the masked lanes that were off wait, those outside the mask are off. -/
def State.leaveWait (s : State) (n : Nat) : State :=
  let m := s.obj (Obj.PH_LANE_MASK n)
  let s := s.setPhy n { s.phy n with step := 1, maxRate := s.obj (Obj.PH_MAX_RATE n), laneMask := m, rateSel := none, switched := false }
  let s := s.mapLanes n (255 - m) fun _ y => laneOffAs false y
  s.mapLanes n m fun _ y => if y.step = 0 then { y with step := 2 } else y

theorem State.leaveWait_spec (s : State) (n : Nat) {m : Nat} (hm : m = s.obj (Obj.PH_LANE_MASK n)) (hm' : m < 256) :
    let t := s.leaveWait n
    (t.phy n).step = 1 ∧ (t.phy n).laneMask = m ∧ (t.phy n).maxRate = s.obj (Obj.PH_MAX_RATE n) ∧ t.dict = s.dict ∧
    (∀ k, k < 8 → bit m k = true → (s.lane n k).step ≠ 0 → t.lane n k = s.lane n k) ∧
    ∀ k, k < 8 → bit m k = false → (t.lane n k).step = 0 ∧ (t.lane n k).tx = 3 := by
  subst hm
  intro t
  have ht : t = s.leaveWait n := rfl
  clear_value t
  unfold State.leaveWait at ht
  extract_lets m _ u v at ht
  obtain ⟨hoff, hkeep, hv⟩ := u.mapLanes_spec n (255 - m) fun _ y => laneOffAs false y
  obtain ⟨hon, hrest, hr⟩ := v.mapLanes_spec n m fun _ y => if y.step = 0 then { y with step := 2 } else y
  rw [← ht] at hon hrest hr
  have hphy : t.phy n = u.phy n := (hr.phy n).trans (hv.phy n)
  have hu : u.phy n = _ := State.phy_setPhy_same ..
  refine ⟨?_, ?_, ?_, hr.dict.trans hv.dict, fun k hk hb hs => ?_, fun k hk hb => ?_⟩
  · rw [hphy, hu]
  · rw [hphy, hu]
  · rw [hphy, hu]
  · have hb' : bit (255 - m) k = false := by
      rw [bit_others hm' hk, show bit m k = true from hb]
      rfl
    have hvk : v.lane n k = s.lane n k := (hkeep k hb').trans rfl
    rw [hon k hk hb, hvk, if_neg hs]
  · have hb' : bit (255 - m) k = true := by
      rw [bit_others hm' hk, show bit m k = false from hb]
      rfl
    rw [hrest k hb, hoff k hk hb']
    exact ⟨rfl, rfl⟩

theorem lureHeardInWait {l m : Nat} (hl : l < 8) (hstep : (s.lane n l).step = 2) (hx : (s.phy n).step = 2)
    (hm : m = s.obj (Obj.PH_LANE_MASK n)) (hm' : m < 256) : Completes (.lureDetected n l) s fun t =>
      (t.phy n).step = 1 ∧ (t.phy n).laneMask = m ∧ (t.phy n).maxRate = s.obj (Obj.PH_MAX_RATE n) ∧ t.dict = s.dict ∧
      (bit m l = true → (t.lane n l).step = 1 ∧ (t.lane n l).los = false ∧ (t.lane n l).lol = false) ∧
      (bit m l = false → (t.lane n l).step = 0) ∧
      ∀ k, k < 8 → k ≠ l → (bit m k = true → (s.lane n k).step ≠ 0 → t.lane n k = s.lane n k) ∧
        (bit m k = false → (t.lane n k).step = 0 ∧ (t.lane n k).tx = 3) := by
  have hex : exec (.lureDetected n l) s = .next (if !bit m l then s.leaveWait n else (s.leaveWait n).setLane n l
      { lanePresence ((s.leaveWait n).obj (Obj.TX_FFE (8 * n + l))) ((s.leaveWait n).lane n l) with los := false, lol := false }) := by
    show execLureDetected n l s = _
    simp only [execLureDetected, occ, hl, hstep, hx, decide_true, beq_self_eq_true, Bool.and_self, if_true, Bool.true_and, ← hm]
    rw [State.leaveWait, ← hm]
  obtain ⟨h1, hlm, hmax, hdict, hin, hout⟩ := s.leaveWait_spec n hm hm'
  generalize s.leaveWait n = t at hex h1 hlm hmax hdict hin hout
  refine ⟨_, hex, ?_⟩
  cases hb : bit m l with
  | false => exact ⟨h1, hlm, hmax, hdict, fun h => Bool.noConfusion h, fun _ => (hout l hl hb).1, fun k hk _ => ⟨hin k hk, hout k hk⟩⟩
  | true =>
    simp only [Bool.not_true, Bool.false_eq_true, if_false, State.phy_setLane, State.lane_setLane_same]
    refine ⟨h1, hlm, hmax, hdict, fun _ => ⟨rfl, trivial, trivial⟩, fun h => absurd h Bool.noConfusion, fun k hk hne => ?_⟩
    rw [t.lane_setLane_ne n _ hne]
    exact ⟨hin k hk, hout k hk⟩

end

end Sys2Proof.Machine
end

section
/-!
Phidun lanes, continued: training-frame headers and the end of PRESENCE (R669, R673 to R676).
-/
namespace Sys2Proof.Machine

open Sys2Proof

/-! Training-frame headers. -/

section
variable {s : State} {n l h : Nat}

/-- What a lane keeps of a valid header. -/
def State.headerKept (s : State) (n l h : Nat) : Lane :=
  let x := s.lane n l
  let own := (s.phy n).rateSel
  let inTime := (s.phy n).framing || decide (s.timeNs ≤ (s.phy n).rateNs + 1000000)
  let up (c : Bool) (v : Nat) : Nat := if c then min 8 (v + 1) else 0
  { x with
    hdr := h % 2 ^ 128, good := up true x.good, heard := up (Th.step h == 1 && Th.heard h) x.heard
    sel := up (own == some (Th.rateSel h)) x.sel, sawRate := x.sawRate || (x.step == 3 && Th.step h == 2 && inTime)
    partnerReady := x.partnerReady || (Th.ready h && headerStep h == x.step), los := false, lol := false }

theorem exec_trainingFrameRx (hl : l < 8) (hf : (s.phy n).framing = false) (hrx : (s.lane n l).rx = 0) (h0 : (s.lane n l).step ≠ 0)
    (h2 : (s.lane n l).step ≠ 2) : exec (.trainingFrameRx n l h) s = .next (if !trainingValid h then
      (s.bump (Obj.TF_REJECTS (8 * n + l))).setLane n l { s.lane n l with good := 0, heard := 0, sel := 0 }
      else ((s.setLane n l (s.headerKept n l h)).noteConflict n).noteRates n h) := by
  show execTrainingFrameRx n l h s = _
  have hocc : (decide (l < 8) && (s.lane n l).rx == 0 && (s.lane n l).step != 0 && (s.lane n l).step != 2 && !(s.phy n).framing ||
      decide (l < 8) && (s.retraining n).contains l) = true := by
    simp [hl, hrx, h0, h2, hf]
  simp only [execTrainingFrameRx, occ, hocc, if_true]
  rfl

theorem commonRate_spec {own partner r : Nat} (h : commonRate own partner = some r) :
    bit own r = true ∧ bit partner r = true ∧ ∀ k, k < 4 → r < k → ¬(bit own k = true ∧ bit partner k = true) := by
  unfold commonRate at h
  have hb := List.find?_some h
  obtain ⟨-, as, bs, hsplit, hno⟩ := List.find?_eq_some_iff_append.1 h
  simp only [Bool.and_eq_true] at hb
  refine ⟨hb.1, hb.2, fun k hk hrk hkb => ?_⟩
  have hmem : k ∈ as := by
    have hin : k ∈ as ++ r :: bs := by
      rw [← hsplit]
      simp only [List.mem_cons, List.not_mem_nil, or_false]
      omega
    obtain hin | hin := List.mem_append.1 hin
    · exact hin
    · have hsorted : (as ++ r :: bs).Pairwise (· > ·) := by
        rw [← hsplit]
        decide
      obtain rfl | hin := List.mem_cons.1 hin
      · exact absurd hrk (Nat.lt_irrefl _)
      · have hgt := List.rel_of_pairwise_cons (List.pairwise_append.1 hsorted).2.1 hin
        omega
  have hn := hno k hmem
  simp [hkb.1, hkb.2] at hn

theorem headersCounted (hl : l < 8) (hf : (s.phy n).framing = false) (hrx : (s.lane n l).rx = 0) (h0 : (s.lane n l).step ≠ 0)
    (h2 : (s.lane n l).step ≠ 2) :
    let x := s.phy n
    let y := s.lane n l
    (trainingValid h = false → Completes (.trainingFrameRx n l h) s fun t => t.lane n l = { y with good := 0, heard := 0, sel := 0 } ∧
      t.obj (Obj.TF_REJECTS (8 * n + l)) = satBump 32 (s.obj (Obj.TF_REJECTS (8 * n + l))) 1 ∧ t.phy n = x) ∧
    (trainingValid h = true → x.step ≠ 1 → ¬(x.step = 3 ∧ x.rateSel = none ∧ Th.step h = 2) →
      Completes (.trainingFrameRx n l h) s fun t => (t.lane n l).hdr = h % 2 ^ 128 ∧ (t.lane n l).good = min 8 (y.good + 1) ∧
        (t.lane n l).step = y.step ∧ t.phy n = x ∧ t.dict = s.dict ∧ ∀ k, k < 8 → k ≠ l → t.lane n k = s.lane n k) ∧
    (∀ r, trainingValid h = true → x.step = 3 → x.rateSel = none → Th.step h = 2 → commonRate x.rates (Th.rates h) = some r →
      Completes (.trainingFrameRx n l h) s fun t => t.phy n = { x with rateSel := some r } ∧ bit x.rates r = true ∧
        bit (Th.rates h) r = true ∧ ∀ k, k < 4 → r < k → ¬(bit x.rates k = true ∧ bit (Th.rates h) k = true)) := by
  intro x y
  have hex := exec_trainingFrameRx (h := h) hl hf hrx h0 h2
  refine ⟨fun hv => ?_, fun hv h1 hn => ?_, fun r hv h3 hsel hst hr => ?_⟩
  · rw [hv] at hex
    exact ⟨_, hex, State.lane_setLane_same .., s.obj_bump_same _ _, rfl⟩
  · rw [hv, Bool.not_true, if_neg Bool.false_ne_true] at hex
    have hconf : (s.setLane n l (s.headerKept n l h)).noteConflict n = s.setLane n l (s.headerKept n l h) := by
      unfold State.noteConflict
      exact if_pos (by simp [show (s.phy n).step ≠ 1 from h1])
    have hrates : (s.setLane n l (s.headerKept n l h)).noteRates n h = s.setLane n l (s.headerKept n l h) := by
      unfold State.noteRates
      refine if_neg fun hc => hn ?_
      simp only [State.phy_setLane, Bool.and_eq_true, decide_eq_true_eq, Option.isNone_iff_eq_none] at hc
      obtain ⟨⟨⟨h3, -⟩, hsel⟩, hst⟩ := hc
      exact ⟨of_decide_eq_true h3, hsel, hst⟩
    rw [hconf, hrates] at hex
    refine ⟨_, hex, ?_⟩
    dsimp only
    rw [State.lane_setLane_same]
    exact ⟨rfl, rfl, rfl, rfl, rfl, fun k _ hk => s.lane_setLane_ne n _ hk⟩
  · rw [hv, Bool.not_true, if_neg Bool.false_ne_true] at hex
    have h3' : (s.phy n).step = 3 := h3
    have hconf : (s.setLane n l (s.headerKept n l h)).noteConflict n = s.setLane n l (s.headerKept n l h) := by
      unfold State.noteConflict
      exact if_pos (by simp [h3'])
    have hrates : (s.setLane n l (s.headerKept n l h)).noteRates n h =
        (s.setLane n l (s.headerKept n l h)).setPhy n { x with rateSel := some r } := by
      unfold State.noteRates
      rw [State.phy_setLane, if_pos (by simp [h3', hf, show (s.phy n).rateSel = none from hsel, hst]),
        show commonRate (s.phy n).rates (Th.rates h) = some r from hr]
    rw [hconf, hrates] at hex
    exact ⟨_, hex, State.phy_setPhy_same .., commonRate_spec hr⟩

end

/-! The end of PRESENCE. -/

section
variable {s : State} {n l0 : Nat} {ls : List Nat}

theorem retraining_eq_nil (hf : (s.phy n).framing = false) : s.retraining n = [] := by
  unfold State.retraining
  rw [hf]
  rfl

theorem withPresence_sorted (s : State) (n : Nat) : (s.withPresence n).SortedLT := ((lanesOf_sorted _).pairwise.filter _).sortedLT

/-- A lane with presence whose header names another partner than the first one's, or a lane that a lower one named. -/
def State.misplaced (s : State) (n l0 : Nat) (lanes : List Nat) (l : Nat) : Bool :=
  Th.device (s.lane n l).hdr != Th.device (s.lane n l0).hdr || Th.port (s.lane n l).hdr != Th.port (s.lane n l0).hdr ||
    lanes.any fun k => decide (k < l) && Th.lane (s.lane n k).hdr == Th.lane (s.lane n l).hdr

/-- What PRESENCE leaves: the misplaced lanes off, the others in RATE. -/
def State.placed (s : State) (n : Nat) (bad good : List Nat) : State :=
  let s := if bad.isEmpty then s else s.bump (Obj.MISCABLE_EVENTS n) bad.length
  let s := bad.foldl (fun s l => s.setLane n l { laneOffAs true (s.lane n l) with miscabled := true }) s
  good.foldl (fun s l => s.setLane n l { s.lane n l with step := 3, good := 0, sel := 0, sawRate := false, partnerReady := false }) s

theorem State.placed_lane (s : State) (n : Nat) {bad good : List Nat} (hb : bad.Nodup) (hg : good.Nodup)
    (hd : ∀ l ∈ bad, l ∉ good) :
    (∀ l ∈ bad, ((s.placed n bad good).lane n l) = { laneOffAs true (s.lane n l) with miscabled := true }) ∧
    (∀ l ∈ good, ((s.placed n bad good).lane n l).step = 3) ∧
    ∀ l, l ∉ bad → l ∉ good → (s.placed n bad good).lane n l = s.lane n l := by
  unfold State.placed
  extract_lets u v
  have hu (l : Nat) : u.lane n l = s.lane n l := by
    show State.lane (ite ..) n l = _
    split <;> rfl
  obtain ⟨hin, hout, -⟩ := foldl_setLane u n (fun _ x => { laneOffAs true x with miscabled := true }) hb
  obtain ⟨hon, hrest, -⟩ := foldl_setLane v n (fun _ x => { x with step := 3, good := 0, sel := 0, sawRate := false, partnerReady := false }) hg
  refine ⟨fun l hl => ?_, fun l hl => ?_, fun l hl hl' => ?_⟩
  · rw [hrest l (hd l hl), hin l hl, hu]
  · rw [hon l hl]
  · rw [hrest l hl', hout l hl, hu]

theorem exec_presenceComplete (hf : (s.phy n).framing = false) (h1 : (s.phy n).step = 1) (hw : s.withPresence n = l0 :: ls)
    (hc : s.idConflict n = false) :
    let bad := (l0 :: ls).filter (s.misplaced n l0 (l0 :: ls))
    let good := (l0 :: ls).filter fun l => !bad.contains l
    exec (.presenceComplete n) s = .next ((s.placed n bad good).setPhy n { s.phy n with
      step := 3, rate := 0, rateSel := none, switched := false, rateNs := (s.placed n bad good).timeNs, set := (good.map fun l => 2 ^ l).sum
      partner := some (Th.device (s.lane n l0).hdr, Th.port (s.lane n l0).hdr) }) := by
  intro bad good
  show execPresenceComplete n s = _
  simp only [execPresenceComplete, occ, retraining_eq_nil hf, List.filter_nil, List.isEmpty_nil, Bool.not_true, Bool.false_eq_true,
    if_false, h1, hw, hc, List.isEmpty_cons, Bool.not_false, beq_self_eq_true, Bool.and_self, if_true]
  rfl

theorem presenceEnds (hf : (s.phy n).framing = false) (h1 : (s.phy n).step = 1) (hw : s.withPresence n = l0 :: ls)
    (hc : s.idConflict n = false) :
    let h0 := (s.lane n l0).hdr
    Completes (.presenceComplete n) s fun t => (t.phy n).step = 3 ∧ (t.phy n).partner = some (Th.device h0, Th.port h0) ∧
      (∀ l ∈ l0 :: ls, (Th.device (s.lane n l).hdr ≠ Th.device h0 ∨ Th.port (s.lane n l).hdr ≠ Th.port h0) →
        (t.lane n l).miscabled = true ∧ (t.lane n l).excluded = true ∧ (t.lane n l).step = 0 ∧ bit (t.phy n).set l = false) ∧
      (t.lane n l0).step = 3 ∧ bit (t.phy n).set l0 = true ∧
      (∀ l, l < 8 → l ∉ l0 :: ls → t.lane n l = s.lane n l ∧ bit (t.phy n).set l = false) := by
  intro h0
  have hex := exec_presenceComplete hf h1 hw hc
  dsimp only at hex
  have hsorted : (l0 :: ls).SortedLT := hw ▸ withPresence_sorted s n
  generalize hbad : (l0 :: ls).filter (s.misplaced n l0 (l0 :: ls)) = bad at hex
  generalize hgood : ((l0 :: ls).filter fun l => !bad.contains l) = good at hex
  have hgs : good.SortedLT := hgood ▸ (hsorted.pairwise.filter _).sortedLT
  have hbs : bad.SortedLT := hbad ▸ (hsorted.pairwise.filter _).sortedLT
  have hmem (l : Nat) : l ∈ good ↔ l ∈ l0 :: ls ∧ l ∉ bad := by
    rw [← hgood, List.mem_filter]
    simp
  obtain ⟨hin, hon, hrest⟩ := s.placed_lane n hbs.nodup hgs.nodup fun l hl hl' => ((hmem l).1 hl').2 hl
  generalize s.placed n bad good = u at hex hin hon hrest
  have hset (l : Nat) (h : l ∉ good) : bit (good.map fun l => 2 ^ l).sum l = false :=
    Bool.eq_false_iff.2 fun hb => h ((bit_mask hgs l).1 hb)
  have hfirst : s.misplaced n l0 (l0 :: ls) l0 = false := by
    have hle (k : Nat) (hk : k ∈ l0 :: ls) : ¬k < l0 := by
      obtain rfl | hk := List.mem_cons.1 hk
      · exact Nat.lt_irrefl _
      · exact Nat.not_lt_of_gt (List.rel_of_pairwise_cons hsorted.pairwise hk)
    simp only [State.misplaced, bne_self_eq_false, Bool.or_self, Bool.false_or, List.any_eq_false, Bool.and_eq_true,
      decide_eq_true_eq]
    exact fun k hk hkl => hle k hk hkl.1
  have h0good : l0 ∈ good := by
    rw [hmem, ← hbad, List.mem_filter, hfirst]
    simp
  refine ⟨_, hex, ?_⟩
  simp only [State.phy_setPhy_same, State.lane_setPhy]
  refine ⟨trivial, rfl, fun l hl hne => ?_, hon l0 h0good, (bit_mask hgs l0).2 h0good, fun l hl hl' => ?_⟩
  · have hlb : l ∈ bad := by
      rw [← hbad, List.mem_filter]
      refine ⟨hl, ?_⟩
      simpa [State.misplaced, h0, or_assoc] using Or.inl hne
    rw [hin l hlb]
    exact ⟨rfl, rfl, rfl, hset l fun h => ((hmem l).1 h).2 hlb⟩
  · have hnb : l ∉ bad := fun h => hl' (by rw [← hbad] at h; exact List.mem_of_mem_filter h)
    have hng : l ∉ good := fun h => hl' ((hmem l).1 h).1
    exact ⟨hrest l hnb hng, hset l hng⟩

end

end Sys2Proof.Machine
end

section
/-!
Phidun lanes, continued: the rate switch, the steps of the creance, training failures and link framing (R673, R676 to R681).
-/
namespace Sys2Proof.Machine

open Sys2Proof

/-! A lane's equalisers and its next step. -/

/-- `t` is `s` with the equalisers of lane `l` chosen again. -/
structure Equalised (n l : Nat) (s t : State) : Prop where
  phy : ∀ m, t.phy m = s.phy m
  other : ∀ k, k ≠ l → t.lane n k = s.lane n k
  own : ∃ c taps, t.lane n l = { s.lane n l with ctle := c, taps := taps }

section
variable {n l : Nat} {s t u : State}

theorem Equalised.of_link (h : t.link = s.link) : Equalised n l s t := by
  have hl (k : Nat) : t.lane n k = s.lane n k := by rw [State.lane, State.lane, h]
  exact ⟨fun m => by rw [State.phy, State.phy, h], fun k _ => hl k, _, _, hl l⟩

theorem Equalised.refl (n l : Nat) (s : State) : Equalised n l s s := .of_link rfl

theorem Equalised.trans (h : Equalised n l s t) (h' : Equalised n l t u) : Equalised n l s u := by
  obtain ⟨c, taps, ht⟩ := h.own
  obtain ⟨c', taps', hu⟩ := h'.own
  exact ⟨fun m => (h'.phy m).trans (h.phy m), fun k hk => (h'.other k hk).trans (h.other k hk), c', taps', by rw [hu, ht]⟩

theorem Equalised.setLane (h : Equalised n l s t) (c : Nat) (taps : List Int) :
    Equalised n l s (t.setLane n l { s.lane n l with ctle := c, taps := taps }) :=
  ⟨h.phy, fun k hk => (State.lane_setLane_ne _ _ _ hk).trans (h.other k hk), c, taps, State.lane_setLane_same ..⟩

theorem Equalised.bump (h : Equalised n l s t) (k v : Nat) : Equalised n l s (t.bump k v) := h.trans (.of_link rfl)

theorem State.chooseCtle_equalises (s : State) (n l : Nat) : Equalised n l s (s.chooseCtle n l) := by
  unfold State.chooseCtle
  extract_lets v _ r
  have hr : Equalised n l s r.2 := .of_link rfl
  split
  · exact (Equalised.refl n l s).setLane _ _
  · exact hr.setLane _ _

theorem State.drawN_equalises (s : State) (n l k : Nat) : Equalised n l s (s.drawN k).2 := by
  obtain ⟨c, hc⟩ := s.drawN_eq k
  rw [hc]
  exact .of_link rfl

theorem State.adaptDfe_equalises (s : State) (n l : Nat) : Equalised n l s (s.adaptDfe n l) := by
  unfold State.adaptDfe
  extract_lets v r taps ends x t
  have hr : Equalised n l s r.2 := s.drawN_equalises n l 12
  clear_value r
  have ht : Equalised n l s t := hr.setLane x.ctle taps
  clear_value t taps
  split
  · exact .refl n l s
  · split
    · exact ht
    · exact ht.bump _ _

theorem State.equalise (s : State) (n l : Nat) : Equalised n l s ((s.chooseCtle n l).adaptDfe n l) :=
  (s.chooseCtle_equalises n l).trans (State.adaptDfe_equalises _ n l)

theorem State.laneUses_step (s : State) (n l : Nat) (x : Lane) : (s.laneUses n l x).step = x.step := by
  unfold State.laneUses
  split <;> rfl

/-- A lane's next step. -/
theorem State.laneNext_spec (s : State) (n l : Nat) :
    (∀ m, (s.laneNext n l).phy m = s.phy m) ∧ (∀ k, k ≠ l → (s.laneNext n l).lane n k = s.lane n k) ∧
    ((s.laneNext n l).lane n l).step = (s.lane n l).step + 1 ∧ ((s.laneNext n l).lane n l).partnerReady = false := by
  unfold State.laneNext
  extract_lets x t
  have hx : x.step = (s.lane n l).step := s.laneUses_step n l _
  have ht : t.lane n l = _ := State.lane_setLane_same ..
  have hother (k : Nat) (hk : k ≠ l) : t.lane n k = s.lane n k := State.lane_setLane_ne _ _ _ hk
  obtain ⟨hphy, hk, c, taps, hown⟩ : Equalised n l t (if x.step = 4 then (t.chooseCtle n l).adaptDfe n l else t) := by
    split
    · exact t.equalise n l
    · exact .refl n l t
  refine ⟨hphy, fun k h => (hk k h).trans (hother k h), ?_, ?_⟩
  · rw [hown, ht]
    exact congrArg (· + 1) hx
  · rw [hown, ht]

end

/-- Lanes that go on by a step, one after another. -/
theorem lanesNext_spec (s : State) (n : Nat) {ls : List Nat} (hl : ls.Nodup) :
    let t := ls.foldl (fun u l => u.laneNext n l) s
    (∀ m, t.phy m = s.phy m) ∧ (∀ k, k ∉ ls → t.lane n k = s.lane n k) ∧
    ∀ l ∈ ls, (t.lane n l).step = (s.lane n l).step + 1 ∧ (t.lane n l).partnerReady = false := by
  intro t
  have hphy (m : Nat) : t.phy m = s.phy m :=
    foldl_keeps (fun u => u.phy m) (fun u l => (u.laneNext_spec n l).1 m) ls s
  obtain ⟨hin, -⟩ := foldl_updates (fun u l => ((u.lane n l).step, (u.lane n l).partnerReady)) (key := id)
    (g := fun _ v => (v.1 + 1, false)) (f := fun u l => u.laneNext n l)
    (fun u l => Prod.ext (u.laneNext_spec n l).2.2.1 (u.laneNext_spec n l).2.2.2)
    (fun u l k hk => by rw [(u.laneNext_spec n l).2.1 k hk]) ls (by rwa [List.map_id]) s
  refine ⟨hphy, fun k hk => ?_, fun l hl => ?_⟩
  · refine List.foldlRecOn (motive := fun u : State => u.lane n k = s.lane n k) ls _ rfl fun u hu l hl => ?_
    exact ((u.laneNext_spec n l).2.1 k fun h => hk (h ▸ hl)).trans hu
  · exact ⟨congrArg Prod.fst (hin l hl), congrArg Prod.snd (hin l hl)⟩

section
variable {s : State} {n : Nat}

/-! The rate switch (R676). -/

theorem exec_rateSwitch {r : Nat} {keep : List Nat} (hf : (s.phy n).framing = false)
    (hk : (lanesOf (s.phy n).set).filter (fun l => (s.lane n l).sawRate) = keep) (h3 : (s.phy n).step = 3) (hsw : (s.phy n).switched = false)
    (hset : setAcceptable (keep.map fun l => 2 ^ l).sum = true) (hr : (s.phy n).rateSel = some r)
    (hall : ∀ l ∈ keep, 8 ≤ (s.lane n l).sel ∧ (s.lane n l).partnerReady = true) : exec (.rateSwitch n) s = .next
      (keep.foldl (fun u l => u.setLane n l { u.lane n l with good := 0, heard := 0, sel := 0, partnerReady := false })
        (s.setPhy n { s.phy n with set := (keep.map fun l => 2 ^ l).sum, rate := r, switched := true, switchNs := s.timeNs })) := by
  have hb : (keep.all fun l => decide (8 ≤ (s.lane n l).sel) && (s.lane n l).partnerReady) = true := by
    simpa only [List.all_eq_true, Bool.and_eq_true, decide_eq_true_eq] using hall
  show execRateSwitch n s = _
  simp only [execRateSwitch, occ, hk, h3, hf, hsw, beq_self_eq_true, Bool.not_false, Bool.and_self, if_true, hset, Bool.not_true,
    Bool.false_eq_true, if_false, hr, hb]

theorem lanesSwitchRate {r : Nat} (hf : (s.phy n).framing = false) :
    let x := s.phy n
    let keep := (lanesOf x.set).filter fun l => (s.lane n l).sawRate
    let set := (keep.map fun l => 2 ^ l).sum
    x.step = 3 → x.switched = false → setAcceptable set = true → x.rateSel = some r →
      (∀ l ∈ keep, 8 ≤ (s.lane n l).sel ∧ (s.lane n l).partnerReady = true) → Completes (.rateSwitch n) s fun t =>
        t.phy n = { x with set := set, rate := r, switched := true, switchNs := s.timeNs } ∧ t.dict = s.dict ∧
        ∀ l ∈ keep, (t.lane n l).good = 0 ∧ (t.lane n l).partnerReady = false ∧ (t.lane n l).step = (s.lane n l).step := by
  intro x keep set h3 hsw hset hr hall
  have hex := exec_rateSwitch hf rfl h3 hsw hset hr hall
  have hkn : keep.Nodup := (lanesOf_nodup _).filter _
  obtain ⟨hin, -, hrel⟩ := foldl_setLane (s.setPhy n { s.phy n with set := set, rate := r, switched := true, switchNs := s.timeNs }) n
    (fun _ y => { y with good := 0, heard := 0, sel := 0, partnerReady := false }) hkn
  refine ⟨_, hex, (hrel.phy n).trans (State.phy_setPhy_same ..), hrel.dict, fun l hl => ?_⟩
  rw [hin l hl]
  exact ⟨rfl, rfl, rfl⟩

/-! The steps of the creance (R670, R673, R677 to R679). -/

/-- Every lane of the set is ready to go on. -/
def State.setReady (s : State) (n : Nat) : Prop := ∀ l ∈ lanesOf (s.phy n).set,
  if (s.lane n l).step = 3 then 8 ≤ (s.lane n l).good ∧ (s.phy n).switched = true else (s.lane n l).partnerReady = true

/-- The step of a port that goes on: leaving RATE, the lanes that still lure are excluded. -/
def State.stepOn (s : State) (n : Nat) : State :=
  (if (s.phy n).step = 3 then (s.luring n).foldl (fun s l => s.setLane n l (laneOffAs true (s.lane n l))) s else s).setPhy n
    { s.phy n with step := (s.phy n).step + 1 }

theorem exec_creanceStepComplete {skew : Nat} (hf : (s.phy n).framing = false) (hr : s.setReady n) (h3 : 3 ≤ (s.phy n).step)
    (h6 : (s.phy n).step ≤ 6) : exec (.creanceStepComplete n skew) s = .next (if (s.phy n).step = 6 ∧ 1024 < skew then s.trainFail n true else
      (lanesOf (s.phy n).set).foldl (fun s l => s.laneNext n l) (s.stepOn n)) := by
  have hall : ((lanesOf (s.phy n).set).all fun l => if (s.lane n l).step = 3 then
      decide (8 ≤ (s.lane n l).good) && ((s.phy n).switched || (s.phy n).framing) else (s.lane n l).partnerReady) = true := by
    rw [List.all_eq_true]
    intro l hl
    have h := hr l hl
    split at h
    next hs => simp [hs, h.1, h.2]
    next hs => rw [if_neg hs, h]
  have hff : ((s.phy n).framing = true) = False := by simp [hf]
  show execCreanceStepComplete n skew s = _
  simp only [execCreanceStepComplete, occ, hff, if_false, h3, h6, decide_true, Bool.true_and, hall, if_true,
    Bool.and_eq_true, decide_eq_true_eq]
  rfl

theorem creanceStepAdvances (hf : (s.phy n).framing = false) (hr : s.setReady n) (skew : Nat) (h3 : 3 ≤ (s.phy n).step)
    (h6 : (s.phy n).step ≤ 6) (hskew : (s.phy n).step = 6 → skew ≤ 1024) : Completes (.creanceStepComplete n skew) s fun t =>
      t.phy n = { s.phy n with step := (s.phy n).step + 1 } ∧ (∀ l ∈ lanesOf (s.phy n).set, (t.lane n l).step = (s.lane n l).step + 1 ∧
        (t.lane n l).partnerReady = false) ∧
        (∀ l, l < 8 → l ∉ lanesOf (s.phy n).set → ((s.phy n).step ≠ 3 ∨ l ∉ s.luring n) → t.lane n l = s.lane n l) ∧
        ∀ l ∈ s.luring n, (s.phy n).step = 3 → (t.lane n l).excluded = true ∧ (t.lane n l).step = 0 := by
  have hex := exec_creanceStepComplete (skew := skew) hf hr h3 h6
  rw [if_neg fun h => absurd (hskew h.1) (by omega)] at hex
  have hlu : (s.luring n).Nodup := (lanesOf_nodup _).filter _
  obtain ⟨hin, hout, -⟩ := foldl_setLane s n (fun _ => laneOffAs true) hlu
  have hluring (l : Nat) (hl : l ∈ s.luring n) : l ∉ lanesOf (s.phy n).set := fun h => by
    have hb := (List.mem_filter.1 hl).2
    rw [(mem_lanesOf.1 h).2] at hb
    exact Bool.noConfusion hb
  have hphy : (s.stepOn n).phy n = { s.phy n with step := (s.phy n).step + 1 } := State.phy_setPhy_same ..
  have hlane (l : Nat) (h : (s.phy n).step ≠ 3 ∨ l ∉ s.luring n) : (s.stepOn n).lane n l = s.lane n l := by
    show State.lane (ite ..) n l = _
    split
    next hs => exact hout l (h.resolve_left fun hne => hne hs)
    · rfl
  have hgone (l : Nat) (hl : l ∈ s.luring n) (h : (s.phy n).step = 3) : (s.stepOn n).lane n l = laneOffAs true (s.lane n l) := by
    show State.lane (ite ..) n l = _
    rw [if_pos h]
    exact hin l hl
  obtain ⟨hp, hkeep, hnext⟩ := lanesNext_spec (s.stepOn n) n (lanesOf_nodup (s.phy n).set)
  refine ⟨_, hex, (hp n).trans hphy, fun l hl => ?_, fun l _ hl h => (hkeep l hl).trans (hlane l h), fun l hl h => ?_⟩
  · have hs := hnext l hl
    rwa [hlane l (.inr fun h => hluring l h hl)] at hs
  · rw [hkeep l (hluring l hl), hgone l hl h]
    exact ⟨rfl, rfl⟩

theorem creanceStepSkewed (hf : (s.phy n).framing = false) (hr : s.setReady n) (skew : Nat) (h6 : (s.phy n).step = 6) (hskew : 1024 < skew) :
    exec (.creanceStepComplete n skew) s = .next (s.trainFail n true) := by
  rw [exec_creanceStepComplete hf hr (by omega) (by omega), if_pos ⟨h6, hskew⟩]

theorem creanceStepTimesOut (hf : (s.phy n).framing = false) (h3 : 3 ≤ (s.phy n).step) (h7 : (s.phy n).step ≤ 7) :
    exec (.creanceStepTimeout n) s = .next (s.trainFail n true) := by
  show execCreanceStepTimeout n s = _
  simp only [execCreanceStepTimeout, occ, hf, h3, h7, decide_true, Bool.not_false, Bool.and_self, Bool.true_or, if_true, Bool.false_eq_true,
    if_false]

/-! Training failures (R681). -/

theorem State.creanceStart_rates (s : State) (n : Nat) :
    ((s.creanceStart n).phy n).exclRates = (s.phy n).exclRates ∧ ((s.creanceStart n).phy n).fails = (s.phy n).fails := by
  have hoff (step : Nat) : (s.portOff n step).phy n = { s.phy n with
      step := step, framing := false, set := 0, running := 0, rateSel := none, switched := false, conflict := false
      laneReq := none, window := none } :=
    ((State.mapLanes_spec _ n 255 _).2.2.phy n).trans (State.phy_setPhy_same ..)
  have hon : (s.enterPresence n).phy n = { s.phy n with
      step := 1, framing := false, set := 0, running := 0, rate := 0, rateSel := none, switched := false, partner := none
      conflict := false, laneReq := none, window := none, maxRate := s.obj (Obj.PH_MAX_RATE n), laneMask := s.obj (Obj.PH_LANE_MASK n) } :=
    ((State.mapLanes_spec _ n _ _).2.2.phy n).trans (((State.mapLanes_spec _ n _ _).2.2.phy n).trans (State.phy_setPhy_same ..))
  unfold State.creanceStart
  split
  · exact ⟨rfl, rfl⟩
  split
  · rw [hoff]
    exact ⟨rfl, rfl⟩
  split
  · rw [hoff]
    exact ⟨rfl, rfl⟩
  · rw [hon]
    exact ⟨rfl, rfl⟩

/-- The counters of a training failure. -/
def State.failCounted (s : State) (n : Nat) (timeout : Bool) : State :=
  let s := s.bump (Obj.CREANCE_RESTARTS n)
  if timeout then s.bump (Obj.TRAIN_TIMEOUTS n) else s

theorem State.phy_failCounted (s : State) (n : Nat) (b : Bool) : (s.failCounted n b).phy n = s.phy n := by
  unfold State.failCounted
  cases b <;> rfl

theorem State.trainFail_of_rate {r : Nat} (s : State) (n : Nat) (b : Bool) (hr : (s.phy n).rateSel = some r) :
    let x := s.phy n
    let fails := if x.failSel = some r then x.fails + 1 else 1
    s.trainFail n b = if fails < 3 then ((s.failCounted n b).setPhy n { x with fails := fails, failSel := some r }).creanceStart n
      else if r = 0 then
        (((s.failCounted n b).bump (Obj.RATE_FALLBACKS n)).setPhy n { x with fails := 0, failSel := none, exclRates := x.exclRates + 2 ^ r }).enterWait n
      else
        (((s.failCounted n b).bump (Obj.RATE_FALLBACKS n)).setPhy n { x with fails := 0, failSel := none, exclRates := x.exclRates + 2 ^ r }).creanceStart n := by
  intro x fails
  unfold State.trainFail
  extract_lets u v y f
  have hv : v = s.failCounted n b := rfl
  have hy : y = x := s.phy_failCounted n b
  have hf : f = fails := by
    show (if y.rateSel.isNone then 0 else if y.failSel == y.rateSel then y.fails + 1 else 1) = _
    rw [hy, show x.rateSel = some r from hr]
    simp [fails]
  clear_value v y f
  subst hv hy hf
  rw [show x.rateSel = some r from hr]

theorem thirdFailureExcludesRate {r : Nat} (b : Bool) (hr : (s.phy n).rateSel = some r) (hfs : (s.phy n).failSel = some r)
    (h2 : 2 ≤ (s.phy n).fails) (h0 : r ≠ 0) :
    ((s.trainFail n b).phy n).exclRates = (s.phy n).exclRates + 2 ^ r ∧ ((s.trainFail n b).phy n).fails = 0 := by
  rw [s.trainFail_of_rate n b hr, if_pos hfs, if_neg (by omega), if_neg h0]
  obtain ⟨he, hf⟩ := State.creanceStart_rates (((s.failCounted n b).bump (Obj.RATE_FALLBACKS n)).setPhy n
    { s.phy n with fails := 0, failSel := none, exclRates := (s.phy n).exclRates + 2 ^ r }) n
  rw [he, hf, State.phy_setPhy_same]
  exact ⟨rfl, rfl⟩

theorem earlierFailureKeepsRates {r : Nat} (b : Bool) (hr : (s.phy n).rateSel = some r)
    (h : (s.phy n).failSel ≠ some r ∨ (s.phy n).fails < 2) : ((s.trainFail n b).phy n).exclRates = (s.phy n).exclRates := by
  have hlt : (if (s.phy n).failSel = some r then (s.phy n).fails + 1 else 1) < 3 := by
    split
    next hs =>
      have := h.resolve_left fun hne => hne hs
      omega
    · omega
  rw [s.trainFail_of_rate n b hr, if_pos hlt, (State.creanceStart_rates _ n).1, State.phy_setPhy_same]

/-! Link framing (R680, R727). -/

theorem framingStarts (hf : (s.phy n).framing = false) (h7 : (s.phy n).step = 7)
    (hr : ∀ l ∈ lanesOf (s.phy n).set, (s.lane n l).partnerReady = true) : Completes (.linkFramingStart n) s fun t =>
      (t.phy n).framing = true ∧ (t.phy n).running = runningOf (s.phy n).set ∧ (t.phy n).fails = 0 ∧ (t.phy n).txSeq = 0 ∧
      (t.phy n).credits = List.replicate 8 32 ∧
      ∀ l ∈ lanesOf (s.phy n).set, bit (runningOf (s.phy n).set) l = true → (t.lane n l).step = 7 ∧ (t.lane n l).tx = 0 ∧ (t.lane n l).rx = 0 := by
  have hall : ((lanesOf (s.phy n).set).all fun l => (s.lane n l).partnerReady) = true := List.all_eq_true.2 hr
  have hex : exec (.linkFramingStart n) s = .next (((lanesOf (s.phy n).set).foldl (fun u l =>
      if bit (runningOf (s.phy n).set) l then
        u.setLane n l { u.lane n l with step := 7, tx := 0, rx := 0, dfeEnd := u.obj (Obj.RX_DFE_CTRL (8 * n + l)) }
      else u.setLane n l (laneOffAs true (u.lane n l))) s).setPhy n
      { (s.phy n).linkUp with running := runningOf (s.phy n).set, fails := 0, failSel := none, graceSaid := false }) := by
    show execLinkFramingStart n s = _
    simp only [execLinkFramingStart, occ, h7, hf, hall, beq_self_eq_true, Bool.not_false, Bool.and_self, if_true]
  obtain ⟨hin, -⟩ := foldl_updates (fun u l => ((u.lane n l).step, (u.lane n l).tx, (u.lane n l).rx)) (key := id)
    (g := fun l _ => if bit (runningOf (s.phy n).set) l then (7, 0, 0) else (0, 3, 3)) (f := fun u l =>
      if bit (runningOf (s.phy n).set) l then
        u.setLane n l { u.lane n l with step := 7, tx := 0, rx := 0, dfeEnd := u.obj (Obj.RX_DFE_CTRL (8 * n + l)) }
      else u.setLane n l (laneOffAs true (u.lane n l)))
    (fun u l => by
      dsimp only
      split <;> simp [laneOffAs])
    (fun u l k hk => by
      dsimp only
      have hk' : k ≠ l := hk
      split <;> rw [State.lane_setLane_ne _ _ _ hk']) (lanesOf (s.phy n).set) (by rw [List.map_id]; exact lanesOf_nodup _) s
  generalize (lanesOf (s.phy n).set).foldl _ s = u at hex hin
  refine ⟨_, hex, ?_⟩
  simp only [State.phy_setPhy_same, State.lane_setPhy]
  refine ⟨rfl, trivial, trivial, rfl, rfl, fun l hl hb => ?_⟩
  have h := hin l hl
  simp only [id, hb, if_true, Prod.mk.injEq] at h
  exact h

end

end Sys2Proof.Machine
end

section
/-!
Phidun lanes, concluded: equalisers, detectors, recalibration, patterns, required ports and degrading (R677, R682, R685 to R687, R693,
R696, R728).
-/
namespace Sys2Proof.Machine

open Sys2Proof

/-! Equaliser requests (R677). -/

theorem tapRequest_legal {legal : Int → Bool} {req sts : Nat} {v : Int} (h : legal v = true) : legal (tapRequest req sts v legal).1 = true := by
  unfold tapRequest
  split
  · exact h
  split
  · exact h
  extract_lets w
  cases hw : legal w with
  | true => exact hw
  | false => exact h

theorem tapRequest_up (v : Int) (legal : Int → Bool) : tapRequest 1 0 v legal = if legal (v + 1) then (v + 1, 1) else (v, 2) := rfl

theorem ffePreset_legal {k : Nat} : ffeLegal (ffePreset k).1 (ffePreset k).2.1 (ffePreset k).2.2 = true := by
  by_cases hk : k < 8
  · have hall : ∀ j < 8, ffeLegal (ffePreset j).1 (ffePreset j).2.1 (ffePreset j).2.2 = true := by decide
    exact hall k hk
  · rw [ffePreset, List.getD_eq_default _ _ (by simpa using hk)]
    decide

section
variable {s : State} {n l : Nat}

/-- A lane as its FFE answers the requests of the header it holds. -/
def Lane.tapped (x : Lane) : Lane :=
  let a := tapRequest (Th.reqPre x.hdr) x.stsPre x.pre fun v => ffeLegal v x.main x.post
  let b := tapRequest (Th.reqMain x.hdr) x.stsMain x.main fun v => ffeLegal a.1 v x.post
  let c := tapRequest (Th.reqPost x.hdr) x.stsPost x.post fun v => ffeLegal a.1 b.1 v
  { x with pre := a.1, main := b.1, post := c.1, stsPre := a.2, stsMain := b.2, stsPost := c.2 }

/-- A lane that takes a preset. -/
def Lane.presetTaken (x : Lane) : Lane :=
  let c := ffePreset (Th.reqPreset x.hdr - 1)
  { x with pre := c.1, main := c.2.1, post := c.2.2, stsPre := 1, stsMain := 1, stsPost := 1 }

theorem Lane.tapped_legal {x : Lane} (h : ffeLegal x.pre x.main x.post = true) :
    ffeLegal x.tapped.pre x.tapped.main x.tapped.post = true := by
  have ha := tapRequest_legal (legal := fun v => ffeLegal v x.main x.post) (req := Th.reqPre x.hdr) (sts := x.stsPre) h
  have hb := tapRequest_legal (legal := fun v => ffeLegal _ v x.post) (req := Th.reqMain x.hdr) (sts := x.stsMain) ha
  exact tapRequest_legal (legal := fun v => ffeLegal _ _ v) (req := Th.reqPost x.hdr) (sts := x.stsPost) hb

theorem exec_ffeRequestApply (hl : l < 8) (h4 : (s.lane n l).step = 4) (h3 : Th.step (s.lane n l).hdr = 3) :
    exec (.ffeRequestApply n l) s = .next (if bit (s.lane n l).ffeAt 31 then s.setLane n l { s.lane n l with stsPre := 0, stsMain := 0, stsPost := 0 }
      else if Th.reqPreset (s.lane n l).hdr ≠ 0 then
        if (s.lane n l).stsPre = 0 && (s.lane n l).stsMain = 0 && (s.lane n l).stsPost = 0 then s.setLane n l (s.lane n l).presetTaken else s
      else s.setLane n l (s.lane n l).tapped) := by
  have hocc : (decide (l < 8) && (s.lane n l).step == 4 && Th.step (s.lane n l).hdr == 3) = true := by simp [hl, h4, h3]
  show execFfeRequestApply n l s = _
  simp only [execFfeRequestApply, occ, hocc, if_true]
  rfl

theorem fixedTapsClearAnswers (hl : l < 8) (h4 : (s.lane n l).step = 4) (h3 : Th.step (s.lane n l).hdr = 3)
    (hfix : bit (s.lane n l).ffeAt 31 = true) :
    exec (.ffeRequestApply n l) s = .next (s.setLane n l { s.lane n l with stsPre := 0, stsMain := 0, stsPost := 0 }) := by
  rw [exec_ffeRequestApply hl h4 h3, if_pos hfix]

theorem tapsStayLegal (hl : l < 8) (h4 : (s.lane n l).step = 4) (h3 : Th.step (s.lane n l).hdr = 3)
    (hfree : bit (s.lane n l).ffeAt 31 = false) (hleg : ffeLegal (s.lane n l).pre (s.lane n l).main (s.lane n l).post = true) :
    let y := s.lane n l
    Completes (.ffeRequestApply n l) s fun t => let z := t.lane n l
      ffeLegal z.pre z.main z.post = true ∧ z.step = 4 ∧ t.dict = s.dict ∧
      (Th.reqPreset y.hdr = 0 → Th.reqPre y.hdr = 1 → y.stsPre = 0 →
        if ffeLegal (y.pre + 1) y.main y.post then z.pre = y.pre + 1 ∧ z.stsPre = 1 else z.pre = y.pre ∧ z.stsPre = 2) ∧
      (Th.reqPreset y.hdr ≠ 0 → y.stsPre = 0 → y.stsMain = 0 → y.stsPost = 0 →
        (z.pre, z.main, z.post) = ffePreset (Th.reqPreset y.hdr - 1) ∧ z.stsPre = 1) := by
  intro y
  have hex := exec_ffeRequestApply hl h4 h3
  rw [if_neg (by simp [hfree])] at hex
  refine ⟨_, hex, ?_⟩
  by_cases hp : Th.reqPreset y.hdr = 0
  · rw [if_neg (not_not_intro hp)]
    dsimp only
    rw [State.lane_setLane_same]
    refine ⟨Lane.tapped_legal hleg, h4, rfl, fun _ h1 h0 => ?_, fun h => absurd hp h⟩
    have ha : tapRequest (Th.reqPre y.hdr) y.stsPre y.pre (fun v => ffeLegal v y.main y.post) =
        if ffeLegal (y.pre + 1) y.main y.post then (y.pre + 1, 1) else (y.pre, 2) := by
      rw [h1, h0, tapRequest_up]
    have hpre : y.tapped.pre = _ := congrArg Prod.fst ha
    have hsts : y.tapped.stsPre = _ := congrArg Prod.snd ha
    rw [hpre, hsts]
    split <;> exact ⟨rfl, rfl⟩
  · rw [if_pos hp]
    dsimp only
    by_cases hs : y.stsPre = 0 ∧ y.stsMain = 0 ∧ y.stsPost = 0
    · obtain ⟨ha, hb, hc⟩ := hs
      rw [if_pos (by simp [show (s.lane n l).stsPre = 0 from ha, show (s.lane n l).stsMain = 0 from hb,
        show (s.lane n l).stsPost = 0 from hc]), State.lane_setLane_same]
      exact ⟨ffePreset_legal, h4, rfl, fun h => absurd h hp, fun _ _ _ _ => ⟨rfl, rfl⟩⟩
    · rw [if_neg (by simpa [and_assoc] using hs)]
      exact ⟨hleg, h4, rfl, fun h => absurd h hp, fun _ ha hb hc => absurd ⟨ha, hb, hc⟩ hs⟩

/-! Detectors (R685 to R687). -/

theorem losMasked (hsw : (s.phy n).switched = true) (hf : (s.phy n).framing = false) (ht : s.timeNs < (s.phy n).switchNs + 2000) :
    exec (.losDetected n l) s = .next s := by
  show execLosDetected n l s = _
  simp only [execLosDetected, occ, hsw, hf, ht, decide_true, Bool.not_false, Bool.and_self, Bool.not_true, Bool.and_false,
    Bool.false_eq_true, if_false]

theorem losReported (hl : l < 8) (hn : n < 20) (hrx : (s.lane n l).rx = 0) (h0 : (s.lane n l).step ≠ 0) (hlos : (s.lane n l).los = false)
    (hm : (s.phy n).switched = false ∨ (s.phy n).framing = true ∨ (s.phy n).switchNs + 2000 ≤ s.timeNs) : exec (.losDetected n l) s =
      .next (((s.bump (Obj.LOS_EVENTS (8 * n + l))).setLane n l { s.lane n l with los := true }).detectorReport n l) := by
  have hmask : ((s.phy n).switched && !(s.phy n).framing && decide (s.timeNs < (s.phy n).switchNs + 2000)) = false := by
    obtain h | h | h := hm
    · simp [h]
    · simp [h]
    · simp [Nat.not_lt.2 h]
  have hocc : (decide (n < 20) && decide (l < 8) && (s.lane n l).rx == 0 && (s.lane n l).step != 0 && !(s.lane n l).los && !false) = true := by
    simp [hn, hl, hrx, h0, hlos]
  show execLosDetected n l s = _
  simp only [execLosDetected, occ, hmask, hocc, if_true]

theorem lolReported (hl : l < 8) (hn : n < 20) (hrx : (s.lane n l).rx = 0) (h3 : 3 ≤ (s.lane n l).step) (hlol : (s.lane n l).lol = false) :
    exec (.lolDetected n l) s =
      .next (((s.bump (Obj.LOL_EVENTS (8 * n + l))).setLane n l { s.lane n l with lol := true }).detectorReport n l) := by
  have hocc : (decide (n < 20) && decide (l < 8) && (s.lane n l).rx == 0 && decide (3 ≤ (s.lane n l).step) && !(s.lane n l).lol) = true := by
    simp [hn, hl, hrx, h3, hlol]
  show execLolDetected n l s = _
  simp only [execLolDetected, occ, hocc, if_true]

theorem detectorReport_waiting (hf : (s.phy n).framing = false) (h3 : (s.phy n).step < 3) :
    s.detectorReport n l = s.setLane n l { s.lane n l with good := 0, heard := 0, sel := 0 } := by
  simp only [State.detectorReport, hf, Bool.false_and, Bool.false_eq_true, if_false, show ¬3 ≤ (s.phy n).step by omega, decide_false]

theorem detectorReport_idleLane (hf : (s.phy n).framing = true) (h7 : (s.lane n l).step = 7) (hb : bit (s.phy n).running l = false) :
    ((s.detectorReport n l).lane n l).step = 1 ∧ (s.detectorReport n l).phy n = s.phy n := by
  have h : s.detectorReport n l = s.setLane n l { lanePresence (s.obj (Obj.TX_FFE (8 * n + l))) (s.lane n l) with
      los := (s.lane n l).los, lol := (s.lane n l).lol } := by
    unfold State.detectorReport
    extract_lets x y
    rw [if_pos (by simp [x, y, hf, h7])]
    unfold State.laneLost
    exact if_pos (by simp [hb])
  rw [h, State.lane_setLane_same]
  exact ⟨rfl, rfl⟩

/-! Recalibration (R693). -/

theorem recalibrationDue (hl : l < 8) (h7 : (s.lane n l).step = 7) (hd : (s.lane n l).recalDue = false) : Completes (.recalDue n l) s fun t =>
    t.lane n l = { s.lane n l with recalDue := true, recalLate := false } ∧ t.dict = s.dict ∧ t.link.ports = s.link.ports := by
  have hocc : (decide (l < 8) && (s.lane n l).step == 7 && !(s.lane n l).recalDue) = true := by simp [hl, h7, hd]
  exact .of_occ rfl hocc ⟨State.lane_setLane_same .., rfl, rfl⟩

theorem recalibrationEnds (hl : l < 8) (hd : (s.lane n l).recalDue = true) (hrx : (s.lane n l).rx = 1) :
    Completes (.recalPiece n l true) s fun t => (t.lane n l).recalDue = false ∧
      (t.lane n l).recalLate = false ∧ (t.lane n l).step = (s.lane n l).step ∧ (∀ k, k < 8 → k ≠ l → t.lane n k = s.lane n k) := by
  have hocc : (decide (l < 8) && (s.lane n l).recalDue && ((s.lane n l).rx == 1 || (s.lane n l).recalLate)) = true := by simp [hl, hd, hrx]
  refine .of_occ rfl hocc ?_
  obtain ⟨-, hother, c, taps, hown⟩ := State.equalise ((s.bump (Obj.RECAL_DONE (8 * n + l))).setLane n l
    { s.lane n l with recalDue := false, recalLate := false }) n l
  rw [State.lane_setLane_same] at hown
  simp only [if_true, hown]
  exact ⟨trivial, trivial, trivial, fun k _ hk => (hother k hk).trans (State.lane_setLane_ne _ _ _ hk)⟩

theorem recalibrationDeferred (hl : l < 8) (hf : (s.phy n).framing = true) (hd : (s.lane n l).recalDue = true)
    (hlate : (s.lane n l).recalLate = false) : exec (.recalDeferred n l) s =
      .next (((s.bump (Obj.RECAL_DEFERRED (8 * n + l))).setLane n l { s.lane n l with recalLate := true }).askWindow n l) := by
  have hocc : (decide (l < 8) && (s.phy n).framing && (s.lane n l).recalDue && !(s.lane n l).recalLate) = true := by
    simp [hl, hf, hd, hlate]
  show execRecalDeferred n l s = _
  simp only [execRecalDeferred, occ, hocc, if_true]

/-! Pattern checkers (R696). -/

theorem checkerLocks (hl : l < 8) (hh : s.unitSt (phUnit n) = .hooded) (hp : bits (s.obj (Obj.PATTERN_CTRL (8 * n + l))) 4 3 ≠ 0)
    (hk : (s.lane n l).locked = false) : Completes (.patternCheckerLock n l) s fun t =>
      t.lane n l = { s.lane n l with locked := true, relock := true, lockNs := s.timeNs } ∧
      ((s.lane n l).relock = true → t.obj (Obj.CHK_RELOCKS (8 * n + l)) = satBump 32 (s.obj (Obj.CHK_RELOCKS (8 * n + l))) 1) ∧
      ((s.lane n l).relock = false → t.dict = s.dict) := by
  have hex : exec (.patternCheckerLock n l) s = .next ((if (s.lane n l).relock then s.bump (Obj.CHK_RELOCKS (8 * n + l)) else s).setLane n l
      { s.lane n l with locked := true, relock := true, lockNs := s.timeNs }) := by
    have hocc : (decide (l < 8) && s.unitSt (phUnit n) == .hooded && bits (s.obj (Obj.PATTERN_CTRL (8 * n + l))) 4 3 != 0 &&
        !(s.lane n l).locked) = true := by
      simp [hl, hh, hp, hk]
    show execPatternCheckerLock n l s = _
    simp only [execPatternCheckerLock, occ, hocc, if_true]
    split <;> rfl
  refine ⟨_, hex, State.lane_setLane_same .., fun h => ?_, fun h => ?_⟩
  · rw [if_pos h]
    exact s.obj_bump_same _ _
  · rw [if_neg (by simp [h])]
    rfl

theorem checkerLosesLock {b e : Nat} (hl : l < 8) (hk : (s.lane n l).locked = true) (hb : 256 ≤ b) (he : 64 < e) (heb : e ≤ b) :
    Completes (.patternCheckerLockLoss n l b e) s fun t => t.lane n l = { s.lane n l with locked := false } ∧
      t.obj (Obj.PATTERN_BITS (8 * n + l)) = satBump 48 (s.obj (Obj.PATTERN_BITS (8 * n + l))) b ∧
      t.obj (Obj.PATTERN_ERRORS (8 * n + l)) = satBump 48 (s.obj (Obj.PATTERN_ERRORS (8 * n + l))) e := by
  have hne : Obj.PATTERN_ERRORS (8 * n + l) ≠ Obj.PATTERN_BITS (8 * n + l) := by
    unfold Obj.PATTERN_ERRORS Obj.PATTERN_BITS
    omega
  have hmod (v w : Nat) : satBump 48 v w % 2 ^ 64 = satBump 48 v w := by
    unfold satBump
    omega
  have hex : exec (.patternCheckerLockLoss n l b e) s = .next (((s.setObj (Obj.PATTERN_ERRORS (8 * n + l))
      (satBump 48 (s.obj (Obj.PATTERN_ERRORS (8 * n + l))) e)).setObj (Obj.PATTERN_BITS (8 * n + l))
      (satBump 48 (s.obj (Obj.PATTERN_BITS (8 * n + l))) b)).setLane n l { s.lane n l with locked := false }) := by
    have hocc : (decide (l < 8) && (s.lane n l).locked && decide (256 ≤ b) && decide (64 < e) && decide (e ≤ b)) = true := by
      simp [hl, hk, hb, he, heb]
    show execPatternCheckerLockLoss n l b e s = _
    simp only [execPatternCheckerLockLoss, occ, hocc, if_true, State.obj_setObj_other _ _ _ _ hne.symm]
  refine ⟨_, hex, State.lane_setLane_same .., ?_, ?_⟩
  · rw [State.obj_setLane, State.obj_setObj_same, hmod]
  · rw [State.obj_setLane, State.obj_setObj_other _ _ _ _ hne, State.obj_setObj_same, hmod]

end

section
variable {s : State} {n : Nat}

/-! Required ports and degrading (R682, R728). -/

theorem requiredPortGrace (hn : n < s.phPorts) (h5 : 5 ≤ s.stage) (hr : s.flag (Obj.PH_REQUIRED n) = true) (hf : (s.phy n).framing = false) :
    ((s.phy n).graceSaid = false → exec (.phRequiredGrace n) s = .next
      ((s.setPhy n { s.phy n with graceSaid := true }).raise Es.phRequiredDown { oClass := 6, oIndex := n, cls := 6, sub := n + 1 })) ∧
    ((s.phy n).graceSaid = true → exec (.phRequiredGrace n) s = .next s) := by
  have hocc (b : Bool) : (decide (n < s.phPorts) && decide (5 ≤ s.stage) && s.flag (Obj.PH_REQUIRED n) && !(s.phy n).framing && b) = b := by
    simp [hn, h5, hr, hf]
  refine ⟨fun hg => ?_, fun hg => ?_⟩
  · show execPhRequiredGrace n s = _
    simp only [execPhRequiredGrace, occ, hocc, show (!(s.phy n).graceSaid) = true by simp [hg], if_true]
  · show execPhRequiredGrace n s = _
    simp only [execPhRequiredGrace, occ, hocc, show (!(s.phy n).graceSaid) = false by simp [hg], Bool.false_eq_true, if_false]

theorem portDegrades {k : Nat} (hk : (s.phy n).laneReq = some k) (hf : (s.phy n).framing = true) : Completes (.laneDegradeSwitch n) s fun t =>
    t.phy n = { s.phy n with running := k, laneReq := none } ∧
    (∀ l ∈ lanesOf (s.phy n).set, (s.lane n l).step = 7 →
      (t.lane n l).tx = (if bit k l then 0 else 1) ∧ (t.lane n l).rx = if bit k l then 0 else 1) ∧
    (k ≠ 0xFF → t.obj (Obj.DEGRADES n) = satBump 32 (s.obj (Obj.DEGRADES n)) 1) ∧ (k = 0xFF → t.dict = s.dict) := by
  obtain ⟨hin, -, hr⟩ := s.mapLanes_spec n (s.phy n).set fun l y => if y.step ≠ 7 then y else { y with
    tx := if bit k l then 0 else 1, rx := if bit k l then 0 else 1 }
  have hex : exec (.laneDegradeSwitch n) s = .next (let u := (s.mapLanes n (s.phy n).set fun l y => if y.step ≠ 7 then y else { y with
      tx := if bit k l then 0 else 1, rx := if bit k l then 0 else 1 }).setPhy n { s.phy n with running := k, laneReq := none }
      if k = 0xFF then u else u.bump (Obj.DEGRADES n)) := by
    show execLaneDegradeSwitch n s = _
    simp only [execLaneDegradeSwitch]
    split
    next h => exact absurd (hk.symm.trans h) (Option.some_ne_none k)
    next j h =>
      obtain rfl : k = j := Option.some.inj (hk.symm.trans h)
      rw [if_neg (by simp [hf])]
  generalize s.mapLanes n (s.phy n).set _ = u at hex hin hr
  have hlane (l : Nat) (hl : l ∈ lanesOf (s.phy n).set) (h7 : (s.lane n l).step = 7) :
      (u.lane n l).tx = (if bit k l then 0 else 1) ∧ (u.lane n l).rx = if bit k l then 0 else 1 := by
    obtain ⟨hl8, hb⟩ := mem_lanesOf.1 hl
    rw [hin l hl8 hb, if_neg (not_not_intro h7)]
    exact ⟨rfl, rfl⟩
  by_cases hff : k = 0xFF
  · rw [if_pos hff] at hex
    exact ⟨_, hex, State.phy_setPhy_same .., hlane, fun h => absurd hff h, fun _ => hr.dict⟩
  · rw [if_neg hff] at hex
    refine ⟨_, hex, State.phy_setPhy_same .., hlane, fun _ => ?_, fun h => absurd h hff⟩
    rw [State.obj_bump_same, State.obj_setPhy, hr.obj]

end

/-- Settles O58: each clause is the rule of its command, from PRESENCE to the degraded port. -/
theorem lanesTrainAndReport : Obligations.LanesTrainAndReport := by
  refine ⟨fun s n => ⟨portWaits, portLuresAgain, fun l => lureHeard, fun l m => lureHeardInWait⟩,
    fun s n l h hl hf hrx h0 h2 => headersCounted hl hf hrx h0 h2, fun s n l0 ls hf h1 hw hc => presenceEnds hf h1 hw hc,
    fun s n hf => ⟨fun r => lanesSwitchRate hf,
      fun hr => ⟨creanceStepAdvances hf hr, creanceStepSkewed hf hr⟩, creanceStepTimesOut hf,
      fun r b => thirdFailureExcludesRate b, fun r b => earlierFailureKeepsRates b, framingStarts hf⟩,
    fun s n l hl => ⟨fixedTapsClearAnswers hl, tapsStayLegal hl, ?_, losReported hl, lolReported hl, detectorReport_waiting,
      detectorReport_idleLane, recalibrationDue hl, recalibrationEnds hl, recalibrationDeferred hl, checkerLocks hl,
      fun b e _ => checkerLosesLock hl⟩,
    fun s n => ⟨requiredPortGrace, fun k => portDegrades⟩⟩
  rintro x rfl hsw hf ht
  exact losMasked hsw hf ht

end Sys2Proof.Machine
end

section
/-!
Phidun link: what a codeword carries survives its stripes over the lanes (R705, R706).
-/
namespace Sys2Proof.Machine

open Sys2Proof

/-! Bit fields of a number laid out in parts. -/

theorem bits_append_low {a b k lo w : Nat} (h : lo + w ≤ k) : bits (a + 2 ^ k * b) lo w = bits a lo w := by
  obtain ⟨m, rfl⟩ := Nat.exists_eq_add_of_le h
  rw [bits, show a + 2 ^ (lo + w + m) * b = a + 2 ^ lo * (2 ^ w * (2 ^ m * b)) by rw [pow_add, pow_add]; simp only [Nat.mul_assoc],
    Nat.add_mul_div_left _ _ (Nat.two_pow_pos lo), Nat.add_mul_mod_self_left, bits]

theorem bits_append_high {a b k : Nat} (h : a < 2 ^ k) (lo w : Nat) : bits (a + 2 ^ k * b) (k + lo) w = bits b lo w := by
  rw [bits, pow_add, ← Nat.div_div_eq_div_mul, Nat.add_mul_div_left _ _ (Nat.two_pow_pos k), Nat.div_eq_of_lt h, Nat.zero_add, bits]

theorem bits_of_lt {a w : Nat} (h : a < 2 ^ w) : bits a 0 w = a := by
  rw [bits, pow_zero, Nat.div_one, Nat.mod_eq_of_lt h]

theorem append_lt {a b k m : Nat} (ha : a < 2 ^ k) (hb : b < 2 ^ m) : a + 2 ^ k * b < 2 ^ (k + m) := by
  rw [pow_add]
  calc a + 2 ^ k * b < 2 ^ k + 2 ^ k * b := Nat.add_lt_add_right ha _
    _ = 2 ^ k * (b + 1) := by rw [Nat.mul_add, Nat.mul_one, Nat.add_comm]
    _ ≤ 2 ^ k * 2 ^ m := Nat.mul_le_mul_left _ hb

/-! Stripes. -/

/-- Every `n`-th member of a list from the first whose place has the residue `r`. -/
theorem stripe_getElem? {lanes : Nat} (hl : lanes = 4 ∨ lanes = 8) (syms : List Nat) {k d r : Nat} (j : Nat) (hd : d < lanes)
    (hr : (k + d) % lanes = r) :
    (((syms.zipIdx k).filter fun s => s.2 % lanes == r).map (·.1))[j]? = syms[d + lanes * j]? := by
  induction syms generalizing k d j with
  | nil => rfl
  | cons a syms ih =>
    rw [List.zipIdx_cons, List.filter_cons]
    by_cases hk : k % lanes = r
    · have h0 : d = 0 := by obtain rfl | rfl := hl <;> omega
      rw [if_pos (beq_iff_eq.2 hk), h0, List.map_cons]
      cases j with
      | zero => rfl
      | succ j =>
        rw [List.getElem?_cons_succ, ih (d := lanes - 1) j (by omega) (by obtain rfl | rfl := hl <;> omega),
          show 0 + lanes * (j + 1) = lanes - 1 + lanes * j + 1 by obtain rfl | rfl := hl <;> omega, List.getElem?_cons_succ]
    · have h0 : d ≠ 0 := fun h => hk (by rw [← hr, h, Nat.add_zero])
      rw [if_neg (by simpa using hk), ih (d := d - 1) j (by omega) (by rw [show k + 1 + (d - 1) = k + d by omega, hr]),
        show d + lanes * j = d - 1 + lanes * j + 1 by omega, List.getElem?_cons_succ]

theorem unstripe_stripe {lanes : Nat} (hl : lanes = 4 ∨ lanes = 8) (syms : List Nat) :
    unstripe (stripe lanes syms) = (List.range 544).map fun i => syms.getD i 0 % 1024 := by
  have hlen : (stripe lanes syms).length = lanes := by rw [stripe, List.length_map, List.length_range]
  refine List.map_congr_left fun i _ => ?_
  have hlt : i % lanes < lanes := Nat.mod_lt _ (by obtain rfl | rfl := hl <;> decide)
  have hrow : (stripe lanes syms).getD (i % lanes) [] = (syms.zipIdx.filter fun s => s.2 % lanes == i % lanes).map (·.1) := by
    rw [stripe, List.getD_eq_getElem?_getD, List.getElem?_map, List.getElem?_range hlt, Option.map_some, Option.getD_some]
  rw [hlen, hrow, List.getD_eq_getElem?_getD, stripe_getElem? hl syms (i / lanes) hlt (by rw [Nat.zero_add, Nat.mod_mod]), Nat.mod_add_div,
    ← List.getD_eq_getElem?_getD]

/-! Symbols. -/

/-- A number from its 10-bit symbols. -/
theorem foldr_symbols (m v : Nat) : ((List.range m).map fun i => bits v (10 * i) 10).foldr (fun s v => s + 1024 * v) 0 = v % 2 ^ (10 * m) := by
  induction m generalizing v with
  | zero => rw [Nat.mul_zero, pow_zero, Nat.mod_one]; rfl
  | succ m ih =>
    have htail : (List.range m).map ((fun i => bits v (10 * i) 10) ∘ Nat.succ) = (List.range m).map fun i => bits (v / 1024) (10 * i) 10 := by
      refine List.map_congr_left fun i _ => ?_
      show v / 2 ^ (10 * (i + 1)) % 2 ^ 10 = v / 1024 / 2 ^ (10 * i) % 2 ^ 10
      rw [Nat.div_div_eq_div_mul, Nat.mul_add, Nat.add_comm, pow_add]
      rfl
    rw [List.range_succ_eq_map, List.map_cons, List.map_map, htail, List.foldr_cons, ih, Nat.mul_add, Nat.add_comm (10 * m), pow_add,
      Nat.mod_mul, bits, Nat.mul_zero, pow_zero, Nat.div_one]
    rfl

theorem codewordData_symbols (data : Nat) (h : data < 2 ^ 5140) {lanes : Nat} (hl : lanes = 4 ∨ lanes = 8) :
    ((unstripe (stripe lanes (codewordSymbols data))).take 514).foldr (fun s v => s + 1024 * v) 0 = data := by
  have hsyms : (unstripe (stripe lanes (codewordSymbols data))).take 514 = (List.range 514).map fun i => bits data (10 * i) 10 := by
    rw [unstripe_stripe hl, ← List.map_take, List.take_range]
    refine List.map_congr_left fun i hi => ?_
    have hi' : i < 514 := List.mem_range.1 hi
    rw [codewordSymbols, List.getD_eq_getElem?_getD, List.getElem?_append_left (by rwa [List.length_map, List.length_range]), List.getElem?_map,
      List.getElem?_range hi', Option.map_some, Option.getD_some]
    exact bits_mod data (10 * i) 10
  rw [hsyms, foldr_symbols, Nat.mod_eq_of_lt h]

theorem crc32_lt (n v : Nat) : crc32 n v < 2 ^ 32 := by
  unfold crc32
  omega

/-- The parts of a codeword's data, each after the other. -/
theorem codewordData_eq {flits first seq : Nat} (hf : flits < 2 ^ 5088) (h1 : first < 2 ^ 11) (hs : seq < 512) :
    codewordData flits first seq = (flits + 2 ^ 5088 * (first + 2 ^ 11 * seq)) +
      2 ^ 5108 * crc32 5108 (flits + 2 ^ 5088 * (first + 2 ^ 11 * seq)) := by
  have hv : flits % 2 ^ 5088 + first % 2 ^ 11 * 2 ^ 5088 + seq % 512 * 2 ^ 5099 = flits + 2 ^ 5088 * (first + 2 ^ 11 * seq) := by
    rw [Nat.mod_eq_of_lt hf, Nat.mod_eq_of_lt h1, Nat.mod_eq_of_lt hs, show 5099 = 5088 + 11 from rfl, pow_add,
      Nat.mul_add, Nat.mul_comm first, Nat.mul_comm seq, Nat.mul_assoc, Nat.add_assoc]
  rw [codewordData]
  simp only [hv]
  rw [Nat.mul_comm (crc32 ..)]

theorem codewordSurvives {flits first seq lanes : Nat} (hf : flits < 2 ^ 5088) (h1 : first < 2 ^ 11) (hs : seq < 512)
    (hl : lanes = 4 ∨ lanes = 8) : readCodeword (stripe lanes (codewordSymbols (codewordData flits first seq))) =
      { flits := flits, first := first, seq := seq, crcOk := true } := by
  have hb : first + 2 ^ 11 * seq < 2 ^ (11 + 9) := append_lt h1 hs
  have hv : flits + 2 ^ 5088 * (first + 2 ^ 11 * seq) < 2 ^ 5108 := by
    rw [show 5108 = 5088 + (11 + 9) from rfl]
    exact append_lt hf hb
  rw [codewordData_eq hf h1 hs]
  generalize hvd : flits + 2 ^ 5088 * (first + 2 ^ 11 * seq) = v at hv
  have hc : crc32 5108 v < 2 ^ 32 := crc32_lt _ _
  have hd : v + 2 ^ 5108 * crc32 5108 v < 2 ^ 5140 := by
    rw [show 5140 = 5108 + 32 from rfl]
    exact append_lt hv hc
  unfold readCodeword
  rw [codewordData_symbols _ hd hl]
  have hmod : (v + 2 ^ 5108 * crc32 5108 v) % 2 ^ 5108 = v := by
    rw [Nat.add_mul_mod_self_left, Nat.mod_eq_of_lt hv]
  have hcrc : bits (v + 2 ^ 5108 * crc32 5108 v) 5108 32 = crc32 5108 v :=
    (bits_append_high hv 0 32).trans (bits_of_lt hc)
  have hflits : bits v 0 5088 = flits := by
    rw [← hvd, bits_append_low (by decide), bits_of_lt hf]
  have hfirst : bits v 5088 11 = first := by
    rw [← hvd]
    refine (bits_append_high hf 0 11).trans ?_
    rw [bits_append_low (by decide), bits_of_lt h1]
  have hseq : bits v 5099 9 = seq := by
    rw [← hvd]
    exact (bits_append_high hf 11 9).trans ((bits_append_high h1 0 9).trans (bits_of_lt hs))
  simp only [hmod, hcrc, bits_append_low (show 0 + 5088 ≤ 5108 by decide), bits_append_low (show 5088 + 11 ≤ 5108 by decide),
    bits_append_low (show 5099 + 9 ≤ 5108 by decide), hflits, hfirst, hseq, beq_self_eq_true]

end Sys2Proof.Machine
end

section
/-!
Phidun link: codewords received, the flits they bring, and transactions taken (R706, R709, R711 to R713).
-/
namespace Sys2Proof.Machine

open Sys2Proof

/-! Drops. -/

section
variable {s : State} {n : Nat}

theorem dropNotices_link (n : Nat) (ps : List Packet) (s : State) : (ps.foldl (fun s p => s.dropNotice n p) s).link = s.link :=
  foldl_keeps State.link (f := fun s p => s.dropNotice n p) (fun _ _ => rfl) ps s

/-- A port that drops frames no more. -/
theorem State.linkDrop_framing (s : State) (n : Nat) : ((s.linkDrop n).phy n).framing = false := by
  unfold State.linkDrop
  extract_lets u x gone _ v
  have hv : (v.phy n).framing = false := congrArg Phy.framing (State.phy_setPhy_same ..)
  clear_value v gone
  rw [State.phy, dropNotices_link]
  exact hv

theorem State.creanceStart_framing (s : State) (n : Nat) (h : (s.phy n).framing = false) : ((s.creanceStart n).phy n).framing = false := by
  have hoff (step : Nat) : ((s.portOff n step).phy n).framing = false :=
    congrArg Phy.framing (((State.mapLanes_spec _ n 255 _).2.2.phy n).trans (State.phy_setPhy_same ..))
  have hon : ((s.enterPresence n).phy n).framing = false :=
    congrArg Phy.framing (((State.mapLanes_spec _ n _ _).2.2.phy n).trans
      (((State.mapLanes_spec _ n _ _).2.2.phy n).trans (State.phy_setPhy_same ..)))
  unfold State.creanceStart
  split
  · exact h
  split
  · exact hoff 0
  split
  · exact hoff 8
  · exact hon

theorem State.portDrop_framing (s : State) (n : Nat) : ((s.portDrop n).phy n).framing = false :=
  State.creanceStart_framing _ n ((congrArg Phy.framing (State.phy_setPhy_same ..)).trans (s.linkDrop_framing n))

/-! Codewords. -/

/-- The counters of a codeword. -/
def State.codewordCounted (s : State) (n corrected : Nat) (uncorrectable bad : Bool) : State :=
  let s := s.bump64 (Obj.FEC_CODEWORDS n)
  if uncorrectable then s.bump (Obj.FEC_UNCORRECTABLE n)
  else
    let s := if corrected = 0 then s else (s.bump64 (Obj.FEC_CORRECTED n)).bump64 (Obj.FEC_SYMBOLS n) corrected
    if bad then s.bump (Obj.CRC_FAILS n) else s

theorem State.codewordCounted_keeps {α : Type} (π : State → α) (h : ∀ s k v, π (State.setObj s k v) = π s) (s : State) (n corrected : Nat)
    (u bad : Bool) : π (s.codewordCounted n corrected u bad) = π s := by
  have hb (t : State) (k v : Nat) : π (t.bump k v) = π t := h ..
  have hb64 (t : State) (k v : Nat) : π (t.bump64 k v) = π t := h ..
  unfold State.codewordCounted
  extract_lets t v
  have ht : π t = π s := hb64 ..
  have hv : π v = π t := by
    show π (ite ..) = _
    split
    · rfl
    · rw [hb64, hb64]
  split
  · rw [hb, ht]
  split
  · rw [hb, hv, ht]
  · rw [hv, ht]

theorem State.codewordCounted_obj (s : State) {n : Nat} (corrected : Nat) (u bad : Bool) {k : Nat} (h0 : k ≠ Obj.FEC_CODEWORDS n)
    (h1 : k ≠ Obj.FEC_UNCORRECTABLE n) (h2 : k ≠ Obj.FEC_CORRECTED n) (h3 : k ≠ Obj.FEC_SYMBOLS n) (h4 : k ≠ Obj.CRC_FAILS n) :
    (s.codewordCounted n corrected u bad).obj k = s.obj k := by
  unfold State.codewordCounted
  extract_lets t v
  have ht : t.obj k = s.obj k := State.obj_bump64_other _ _ _ _ h0
  have hv : v.obj k = t.obj k := by
    show State.obj (ite ..) k = _
    split
    · rfl
    · rw [State.obj_bump64_other _ _ _ _ h3, State.obj_bump64_other _ _ _ _ h2]
  split
  · rw [State.obj_bump_other _ _ _ _ h1, ht]
  split
  · rw [State.obj_bump_other _ _ _ _ h4, hv, ht]
  · rw [hv, ht]

/-- FEC could not correct a codeword. -/
theorem State.codewordCounted_uncorrectable (s : State) (n corrected : Nat) (bad : Bool) :
    (s.codewordCounted n corrected true bad).obj (Obj.FEC_UNCORRECTABLE n) = satBump 32 (s.obj (Obj.FEC_UNCORRECTABLE n)) 1 := by
  show State.obj (State.bump ..) _ = _
  rw [State.obj_bump_same, State.obj_bump64_other _ _ _ _ (by unfold Obj.FEC_CODEWORDS Obj.FEC_UNCORRECTABLE; omega)]

/-- A codeword failed without FEC's saying so. -/
theorem State.codewordCounted_crc (s : State) (n corrected : Nat) :
    (s.codewordCounted n corrected false true).obj (Obj.CRC_FAILS n) = satBump 32 (s.obj (Obj.CRC_FAILS n)) 1 := by
  unfold State.codewordCounted
  extract_lets t v
  have ht : t.obj (Obj.CRC_FAILS n) = s.obj (Obj.CRC_FAILS n) :=
    State.obj_bump64_other _ _ _ _ (by unfold Obj.FEC_CODEWORDS Obj.CRC_FAILS; omega)
  have hv : v.obj (Obj.CRC_FAILS n) = t.obj (Obj.CRC_FAILS n) := by
    show State.obj (ite ..) _ = _
    split
    · rfl
    · rw [State.obj_bump64_other _ _ _ _ (by unfold Obj.FEC_SYMBOLS Obj.CRC_FAILS; omega),
        State.obj_bump64_other _ _ _ _ (by unfold Obj.FEC_CORRECTED Obj.CRC_FAILS; omega)]
  rw [if_neg Bool.false_ne_true, if_pos rfl, State.obj_bump_same, hv, ht]

/-- What makes a codeword fail. -/
def Codeword.fails (c : Codeword) (uncorrectable : Bool) (fs : List LinkFlit) : Bool :=
  uncorrectable || !c.crcOk || decide (1151 < c.first) || fs.any fun f => flitBad f.hdr

/-- What a port holds once it has discarded a failed codeword. -/
def Phy.codewordLost (x : Phy) : Phy := { x.discard with part := none, badCodewords := x.badCodewords + 1 }

theorem State.takeCodeword_of_bad (s : State) {n : Nat} (corrected : Nat) {u : Bool} {c : Codeword}
    (h : c.fails u ((c.straddling (s.phy n).part).toList ++ c.whole) = true) :
    s.takeCodeword n corrected u c = if 8 ≤ (s.phy n).badCodewords + 1 then
      ((s.codewordCounted n corrected u true).setPhy n (s.phy n).codewordLost).portDrop n
    else (s.codewordCounted n corrected u true).setPhy n (s.phy n).codewordLost := by
  unfold State.takeCodeword
  extract_lets x t head fs bad v w _ _
  have hbad : bad = true := h
  clear_value bad
  subst hbad
  rfl

/-- A sound codeword. -/
theorem State.takeCodeword_of_sound (s : State) {n : Nat} (corrected : Nat) {c : Codeword} {head : Option LinkFlit}
    (hh : c.straddling (s.phy n).part = head) (h : c.fails false (head.toList ++ c.whole) = false) :
    let x := s.phy n
    let y := Phy.takeFlits (if head.toList.any (fun f => bits f.hdr 124 4 != 0xE) then (c.seq + 511) % 512 else c.seq) (head.toList ++ c.whole)
      { (if head.isNone && decide (0 < c.first) then x.discard else x) with part := some c.rest, badCodewords := 0 }
    let v := ((s.codewordCounted n corrected false false).mapLanes n x.running fun _ y => { y with rx := if y.rx = 3 then 3 else 0 }).setPhy n y
    s.takeCodeword n corrected false c = if v.obj Obj.ACK_INTERVAL ≤ (v.phy n).accepted then v.sendCtl n 0 0 else v := by
  subst hh
  intro x y v
  unfold State.takeCodeword
  extract_lets t head fs bad v w _ _
  have hbad : bad = false := h
  clear_value bad
  subst hbad
  rfl

variable {c : Codeword} {corrected : Nat} {l0 l1 l2 l3 : List Nat} {upper : List (List Nat)}

theorem exec_codewordRx {u : Bool} (hn : n < 20) (hf : (s.phy n).framing = true) (hs : s.safety.safe = false) (hm : s.sup.inMews = false) :
    exec (.codewordRx n corrected u l0 l1 l2 l3 upper) s =
      .next (s.takeCodeword n corrected u (readCodeword (l0 :: l1 :: l2 :: l3 :: upper))) := by
  have hocc : (decide (n < 20) && (s.phy n).framing && !s.safety.safe && !s.sup.inMews) = true := by simp [hn, hf, hs, hm]
  show execCodewordRx n corrected u l0 l1 l2 l3 upper s = _
  simp only [execCodewordRx, occ, hocc, if_true]

/-- A failed codeword before the eighth in a row. -/
theorem State.takeCodeword_lost {u : Bool} (hlt : (s.phy n).badCodewords < 7)
    (h : c.fails u ((c.straddling (s.phy n).part).toList ++ c.whole) = true) :
    let t := s.takeCodeword n corrected u c
    t.phy n = (s.phy n).codewordLost ∧ t.link.lanes = s.link.lanes ∧
      (∀ k, t.obj k = (s.codewordCounted n corrected u true).obj k) ∧ t.out = s.out ∧ t.mem = s.mem := by
  intro t
  have ht : t = (s.codewordCounted n corrected u true).setPhy n (s.phy n).codewordLost := by
    show s.takeCodeword n corrected u c = _
    rw [s.takeCodeword_of_bad corrected h, if_neg (by omega)]
  rw [ht]
  refine ⟨State.phy_setPhy_same .., ?_, fun k => rfl, ?_, ?_⟩
  · exact s.codewordCounted_keeps (fun t => t.link.lanes) (fun _ _ _ => rfl) n corrected u true
  · exact s.codewordCounted_keeps State.out (fun _ _ _ => rfl) n corrected u true
  · exact s.codewordCounted_keeps State.mem (fun _ _ _ => rfl) n corrected u true

theorem Codeword.fails_sound {fs : List LinkFlit} (hc : c.crcOk = true) (h1 : c.first ≤ 1151) (hfs : ∀ f ∈ fs, flitBad f.hdr = false) :
    c.fails false fs = false := by
  have hany : (fs.any fun f => flitBad f.hdr) = false := List.any_eq_false.2 fun f hf => by rw [hfs f hf]; exact Bool.false_ne_true
  rw [Codeword.fails, hany, hc, decide_eq_false (by omega)]
  rfl

theorem Codeword.fails_of {fs : List LinkFlit} (h : c.crcOk = false ∨ 1151 < c.first ∨ ∃ f ∈ fs, flitBad f.hdr = true) :
    c.fails false fs = true := by
  unfold Codeword.fails
  obtain h | h | ⟨f, hf, h⟩ := h
  · rw [h]
    rfl
  · rw [decide_eq_true h, Bool.or_true, Bool.true_or]
  · rw [show (fs.any fun f => flitBad f.hdr) = true from List.any_eq_true.2 ⟨f, hf, h⟩, Bool.or_true]

theorem State.takeCodeword_sound (hn : n < 20) {head : Option LinkFlit} (hh : c.straddling (s.phy n).part = head) {y : Phy}
    (h : c.fails false (head.toList ++ c.whole) = false)
    (hy : Phy.takeFlits (if head.toList.any (fun f => bits f.hdr 124 4 != 0xE) then (c.seq + 511) % 512 else c.seq) (head.toList ++ c.whole)
      { (if head.isNone && decide (0 < c.first) then (s.phy n).discard else s.phy n) with part := some c.rest, badCodewords := 0 } = y)
    (hack : y.accepted < s.obj Obj.ACK_INTERVAL) :
    let t := s.takeCodeword n corrected false c
    t.phy n = y ∧ (∀ l ∈ lanesOf (s.phy n).running, (s.lane n l).rx ≠ 3 → (t.lane n l).rx = 0) ∧ t.out = s.out ∧ t.mem = s.mem := by
  intro t
  have ht := s.takeCodeword_of_sound corrected hh h
  dsimp only at ht
  rw [hy] at ht
  have hlink : (s.codewordCounted n corrected false false).link = s.link := s.codewordCounted_keeps State.link (fun _ _ _ => rfl) n corrected false false
  have hout : (s.codewordCounted n corrected false false).out = s.out := s.codewordCounted_keeps State.out (fun _ _ _ => rfl) n corrected false false
  have hmem : (s.codewordCounted n corrected false false).mem = s.mem := s.codewordCounted_keeps State.mem (fun _ _ _ => rfl) n corrected false false
  have hobj : (s.codewordCounted n corrected false false).obj Obj.ACK_INTERVAL = s.obj Obj.ACK_INTERVAL := by
    refine s.codewordCounted_obj corrected false false ?_ ?_ ?_ ?_ ?_ <;>
      simp only [Obj.ACK_INTERVAL, Obj.FEC_CODEWORDS, Obj.FEC_UNCORRECTABLE, Obj.FEC_CORRECTED, Obj.FEC_SYMBOLS, Obj.CRC_FAILS] <;> omega
  generalize s.codewordCounted n corrected false false = w at ht hlink hout hmem hobj
  obtain ⟨hin, -, hr⟩ := w.mapLanes_spec n (s.phy n).running fun _ y => { y with rx := if y.rx = 3 then 3 else 0 }
  generalize w.mapLanes n (s.phy n).running _ = v at ht hin hr
  rw [State.phy_setPhy_same, State.obj_setPhy, hr.obj, hobj, if_neg (by omega)] at ht
  rw [show t = v.setPhy n y from ht]
  refine ⟨State.phy_setPhy_same .., fun l hl h3 => ?_, hr.out.trans hout, hr.mem.trans hmem⟩
  obtain ⟨hl8, hb⟩ := mem_lanesOf.1 hl
  have hlane : w.lane n l = s.lane n l := by rw [State.lane, State.lane, hlink]
  rw [State.lane_setPhy, hin l hl8 hb, hlane, if_neg h3]

theorem codewordTaken (hn : n < 20) (hf : (s.phy n).framing = true) (hs : s.safety.safe = false) (hm : s.sup.inMews = false) :
    let x := s.phy n
    let c := readCodeword (l0 :: l1 :: l2 :: l3 :: upper)
    let head := c.straddling x.part
    let fs := head.toList ++ c.whole
    (x.badCodewords < 7 → Completes (.codewordRx n corrected true l0 l1 l2 l3 upper) s fun t =>
      t.phy n = { x.discard with part := none, badCodewords := x.badCodewords + 1 } ∧ t.link.lanes = s.link.lanes ∧
      t.obj (Obj.FEC_UNCORRECTABLE n) = satBump 32 (s.obj (Obj.FEC_UNCORRECTABLE n)) 1 ∧ t.out = s.out ∧ t.mem = s.mem) ∧
    (x.badCodewords < 7 → (c.crcOk = false ∨ 1151 < c.first ∨ ∃ f ∈ fs, flitBad f.hdr = true) →
      Completes (.codewordRx n corrected false l0 l1 l2 l3 upper) s fun t =>
        t.phy n = { x.discard with part := none, badCodewords := x.badCodewords + 1 } ∧ t.link.lanes = s.link.lanes ∧
        t.obj (Obj.CRC_FAILS n) = satBump 32 (s.obj (Obj.CRC_FAILS n)) 1 ∧ t.out = s.out ∧ t.mem = s.mem) ∧
    (7 ≤ x.badCodewords → Completes (.codewordRx n corrected true l0 l1 l2 l3 upper) s fun t => (t.phy n).framing = false) ∧
    (c.crcOk = true → c.first ≤ 1151 → (∀ f ∈ fs, flitBad f.hdr = false) →
      let num := if head.toList.any (fun f => bits f.hdr 124 4 != 0xE) then (c.seq + 511) % 512 else c.seq
      let y := Phy.takeFlits num fs
        { (if head.isNone && decide (0 < c.first) then x.discard else x) with part := some c.rest, badCodewords := 0 }
      y.accepted < s.obj Obj.ACK_INTERVAL → Completes (.codewordRx n corrected false l0 l1 l2 l3 upper) s fun t => t.phy n = y ∧
        (∀ l ∈ lanesOf x.running, (s.lane n l).rx ≠ 3 → (t.lane n l).rx = 0) ∧ t.out = s.out ∧ t.mem = s.mem) := by
  intro x c head fs
  have hex (u : Bool) := exec_codewordRx (corrected := corrected) (l0 := l0) (l1 := l1) (l2 := l2) (l3 := l3) (upper := upper) (u := u)
    hn hf hs hm
  have hu : c.fails true fs = true := rfl
  refine ⟨fun hlt => ?_, fun hlt hbad => ?_, fun h7 => ?_, fun hc h1 hfs => ?_⟩
  · obtain ⟨hp, hl, ho, hout, hmem⟩ := State.takeCodeword_lost (corrected := corrected) hlt hu
    exact ⟨_, hex true, hp, hl, (ho _).trans (s.codewordCounted_uncorrectable ..), hout, hmem⟩
  · obtain ⟨hp, hl, ho, hout, hmem⟩ := State.takeCodeword_lost (corrected := corrected) hlt (Codeword.fails_of hbad)
    exact ⟨_, hex false, hp, hl, (ho _).trans (s.codewordCounted_crc ..), hout, hmem⟩
  · refine ⟨_, hex true, ?_⟩
    rw [s.takeCodeword_of_bad corrected hu, if_pos (Nat.succ_le_succ h7)]
    exact State.portDrop_framing _ n
  · intro num y hack
    exact ⟨_, hex false, State.takeCodeword_sound hn rfl (Codeword.fails_sound hc h1 hfs) rfl hack⟩

/-! Flits in order (R711, R712). -/

theorem takeFlits_next {x : Phy} (f : LinkFlit) (fs : List LinkFlit) (hfs : ∀ g ∈ f :: fs, bits g.hdr 124 4 ≠ 0xE) :
    Phy.takeFlits x.rxSeq (f :: fs) x = { x with
      rx := x.rx ++ f :: fs, rxSeq := (x.rxSeq + (f :: fs).length) % 512, nakGiven := false, accepted := x.accepted + (f :: fs).length } := by
  have hstep (g : LinkFlit) (gs : List LinkFlit) (y : Phy) (hg : bits g.hdr 124 4 ≠ 0xE) : Phy.takeFlits y.rxSeq (g :: gs) y =
      Phy.takeFlits ((y.rxSeq + 1) % 512) gs { y with
        rx := y.rx ++ [g], rxSeq := (y.rxSeq + 1) % 512, nakGiven := false, accepted := y.accepted + 1 } := by
    rw [Phy.takeFlits, if_neg hg, if_pos rfl]
  induction fs generalizing x f with
  | nil => rw [hstep f [] x (hfs f (List.mem_singleton_self f))]; rfl
  | cons g gs ih =>
    rw [hstep f _ x (hfs f List.mem_cons_self)]
    have hnext := ih (x := { x with rx := x.rx ++ [f], rxSeq := (x.rxSeq + 1) % 512, nakGiven := false, accepted := x.accepted + 1 })
      g fun k hk => hfs k (List.mem_cons_of_mem _ hk)
    refine hnext.trans ?_
    have hseq : ((x.rxSeq + 1) % 512 + (g :: gs).length) % 512 = (x.rxSeq + (f :: g :: gs).length) % 512 := by
      rw [Nat.mod_add_mod, List.length_cons (a := f), Nat.add_assoc, Nat.add_comm 1]
    have hacc : x.accepted + 1 + (g :: gs).length = x.accepted + (f :: g :: gs).length := by
      rw [List.length_cons (a := f), Nat.add_assoc, Nat.add_comm 1]
    simp only [hseq, hacc, List.append_assoc, List.singleton_append]

theorem takeFlits_wrongNumber {x : Phy} {num : Nat} {f : LinkFlit} (hf : bits f.hdr 124 4 ≠ 0xE) (h : num ≠ x.rxSeq) :
    Phy.takeFlits num [f] x = x.discard := by
  rw [Phy.takeFlits, if_neg hf, if_neg h, Phy.takeFlits]

theorem discard_once {x : Phy} (h : x.nakGiven = false) :
    x.discard.nak = true ∧ x.discard.discard = x.discard ∧ x.discard.rx = x.rx := by
  have hd : x.discard = { x with nak := true, nakGiven := true } := by rw [Phy.discard, h]; rfl
  rw [hd]
  exact ⟨rfl, rfl, rfl⟩

/-! Transactions (R717, R722). -/

theorem transactionTaken {f : LinkFlit} {rest : List LinkFlit} (hrx : (s.phy n).rx = f :: rest) (hs : s.safety.safe = false) :
    let u := s.setPhy n { s.phy n with rx := rest }
    (linkKind f.hdr = none → exec (.linkTransactionRx n) s = .next u) ∧
    (∀ k, linkKind f.hdr = some k → k.response = true →
      exec (.linkTransactionRx n) s = .next (((u.linkResponse n f k).freePlace n (4 + bits f.hdr 122 2)).tryHood n)) ∧
    (∀ k t, linkKind f.hdr = some k → k.response = false → u.linkRequest n f k = some t →
      exec (.linkTransactionRx n) s = .next ((t.freePlace n (bits f.hdr 122 2)).tryHood n)) ∧
    (∀ k, linkKind f.hdr = some k → k.response = false → u.linkRequest n f k = none → exec (.linkTransactionRx n) s = .next s) := by
  intro u
  have hsafe : ¬s.safety.safe = true := by simp [hs]
  refine ⟨fun hk => ?_, fun k hk hr => ?_, fun k t hk hr ht => ?_, fun k hk hr ht => ?_⟩
  · show execLinkTransactionRx n s = _
    simp only [execLinkTransactionRx, hrx, if_neg hsafe, hk]
    rfl
  · show execLinkTransactionRx n s = _
    simp only [execLinkTransactionRx, hrx, if_neg hsafe, hk, hr, if_true]
    rfl
  · have ht' : (s.setPhy n { s.phy n with rx := rest }).linkRequest n f k = some t := ht
    show execLinkTransactionRx n s = _
    simp only [execLinkTransactionRx, hrx, if_neg hsafe, hk, hr, Bool.false_eq_true, if_false, ht', Nat.zero_add]
  · have ht' : (s.setPhy n { s.phy n with rx := rest }).linkRequest n f k = none := ht
    show execLinkTransactionRx n s = _
    simp only [execLinkTransactionRx, hrx, if_neg hsafe, hk, hr, Bool.false_eq_true, if_false, ht']

end

end Sys2Proof.Machine
end

section
/-!
Phidun link: link control, replay, power states and the hood (R710, R713 to R715, R728 to R732).
-/
namespace Sys2Proof.Machine

open Sys2Proof

/-! What every LCTRL carries (R710). -/

/-- The credits of eight queues, a byte each. -/
def creditField (freed : List Nat) : Nat := (freed.zipIdx.map fun c => c.1 % 256 * 256 ^ c.2).sum

theorem creditField_eq (freed : List Nat) : creditField freed = Nat.ofDigits 256 (freed.map (· % 256)) := by
  have hfrom (k : Nat) : ((freed.zipIdx k).map fun c => c.1 % 256 * 256 ^ c.2).sum = 256 ^ k * Nat.ofDigits 256 (freed.map (· % 256)) := by
    induction freed generalizing k with
    | nil => rfl
    | cons a l ih =>
      rw [List.zipIdx_cons, List.map_cons, List.sum_cons, ih, List.map_cons, Nat.ofDigits_cons, pow_succ]
      ring
  exact (hfrom 0).trans (by rw [pow_zero, Nat.one_mul])

theorem creditField_bits (freed : List Nat) (q : Nat) : bits (creditField freed) (8 * q) 8 = freed.getD q 0 % 256 := by
  rw [creditField_eq]
  induction freed generalizing q with
  | nil => exact (congrArg (· % 2 ^ 8) (Nat.zero_div _)).trans rfl
  | cons a l ih =>
    have ha : a % 256 < 2 ^ 8 := Nat.mod_lt _ (by decide)
    rw [List.map_cons, Nat.ofDigits_cons]
    cases q with
    | zero => exact (bits_append_low (k := 8) (Nat.le_refl 8)).trans (bits_of_lt ha)
    | succ q =>
      rw [List.getD_cons_succ, ← ih q, Nat.mul_succ, Nat.add_comm (8 * q)]
      exact bits_append_high (k := 8) ha (8 * q) 8

theorem creditField_lt {freed : List Nat} (h : freed.length = 8) : creditField freed < 2 ^ 64 := by
  have hlt := Nat.ofDigits_lt_base_pow_length (b := 256) (l := freed.map (· % 256)) (by decide) fun x hx => by
    obtain ⟨a, -, rfl⟩ := List.mem_map.1 hx
    exact Nat.mod_lt _ (by decide)
  rw [creditField_eq]
  rwa [List.length_map, h] at hlt

/-- The header of an LCTRL flit. -/
def Phy.ctlHeader (x : Phy) (op arg : Nat) : Nat :=
  0xE * 2 ^ 124 + op * 2 ^ 120 + (x.rxSeq + 511) % 512 * 2 ^ 111 + b2n x.nak * 2 ^ 110 + arg * 2 ^ 64 + creditField x.freed

theorem Phy.ctlHeader_fields (x : Phy) {op arg : Nat} (h8 : x.freed.length = 8) (hop : op < 16) (harg : arg < 4096) :
    let h := x.ctlHeader op arg
    bits h 124 4 = 0xE ∧ bits h 120 4 = op ∧ bits h 64 12 = arg ∧ bits h 111 9 = (x.rxSeq + 511) % 512 ∧ bit h 110 = x.nak ∧
      ∀ q, q < 8 → bits h (8 * q) 8 = x.freed.getD q 0 % 256 := by
  intro h
  have hc := creditField_lt h8
  have hseq : (x.rxSeq + 511) % 512 < 512 := Nat.mod_lt _ (by decide)
  have hnak : b2n x.nak < 2 := by cases x.nak <;> decide
  have hh : h = creditField x.freed + 2 ^ 64 * (arg + 2 ^ 46 * (b2n x.nak + 2 * ((x.rxSeq + 511) % 512 + 512 * (op + 16 * 14)))) := by
    show Phy.ctlHeader x op arg = _
    rw [Phy.ctlHeader]
    omega
  clear_value h
  generalize (x.rxSeq + 511) % 512 = seq at hseq hh ⊢
  refine ⟨?_, ?_, ?_, ?_, ?_, fun q hlt => ?_⟩
  · unfold bits
    omega
  · unfold bits
    omega
  · unfold bits
    omega
  · unfold bits
    omega
  · have hb : h / 2 ^ 110 % 2 = b2n x.nak := by omega
    rw [bit, hb]
    cases x.nak <;> rfl
  · rw [hh, bits_append_low (by omega), creditField_bits]

section
variable {s u : State} {n arg : Nat}

theorem State.sendCtl_eq (op arg : Nat) (h : (s.phy n).laneReq = none) : s.sendCtl n op arg =
    (s.setPhy n { s.phy n with nak := false, accepted := 0, freedSince := List.replicate 8 0 }).emit
      (.link n ((s.phy n).ctlHeader op arg) (zeros 128)) := by
  unfold State.sendCtl
  extract_lets x lost down arg' op' cred hdr
  have hd : down = none := by
    show (match (s.phy n).laneReq with | some k => _ | none => _) = none
    rw [h]
  have harg : arg' = arg := congrArg (Option.getD · arg) hd
  have hop : op' = op := by
    show (if down.isSome then 4 else op) = op
    rw [hd]
    rfl
  have hhdr : hdr = x.ctlHeader op arg := by
    rw [← harg, ← hop]
    rfl
  rw [hhdr]

theorem controlSent (op arg : Nat) (hl : (s.phy n).laneReq = none) (h8 : (s.phy n).freed.length = 8) (hop : op < 16) (harg : arg < 4096) : ∃ h,
    (s.sendCtl n op arg).out = s.out ++ [.link n h (zeros 128)] ∧ bits h 124 4 = 0xE ∧ bits h 120 4 = op ∧ bits h 64 12 = arg ∧
    bits h 111 9 = ((s.phy n).rxSeq + 511) % 512 ∧ bit h 110 = (s.phy n).nak ∧
    (∀ q, q < 8 → bits h (8 * q) 8 = (s.phy n).freed.getD q 0 % 256) ∧
    (s.sendCtl n op arg).phy n = { s.phy n with nak := false, accepted := 0, freedSince := List.replicate 8 0 } := by
  obtain ⟨hkind, hop', harg', hseq, hnak, hq⟩ := (s.phy n).ctlHeader_fields h8 hop harg
  refine ⟨(s.phy n).ctlHeader op arg, ?_, hkind, hop', harg', hseq, hnak, hq, ?_⟩
  · rw [State.sendCtl_eq op arg hl]
    rfl
  · rw [State.sendCtl_eq op arg hl, State.phy_emit, State.phy_setPhy_same]

/-! What an LCTRL brings (R713 to R715). -/

theorem State.linkPump_phy (h : (s.phy n).txq = []) : (s.linkPump n).phy n = s.phy n := by
  unfold State.linkPump
  split
  · rw [h, State.pumpQueue, State.phy_setPhy_same, List.reverse_nil, ← h]
  · rfl

theorem State.endFull_of_notFull (h : (s.phy n).fullNs = 0) : s.endFull n = s := if_pos h

/-- A port with the ACK and CRED values of an LCTRL taken. -/
def Phy.ctlTaken (x : Phy) (h : Nat) : Phy :=
  let covered := x.unacked.findIdx? fun u => u.1 == bits h 111 9
  { x with
    unacked := match covered with | some i => x.unacked.drop (i + 1) | none => x.unacked
    replays := if covered.isSome then 0 else x.replays
    credits := x.credits.zipIdx.map fun c => c.1 + (bits h (8 * c.2) 8 + 256 - x.creditSeen.getD c.2 0) % 256
    creditSeen := (List.range 8).map fun q => bits h (8 * q) 8 }

theorem State.takeCtl_phy {h : Nat} (hnak : bit h 110 = false) (hq : (s.phy n).txq = []) (hf : (s.phy n).fullNs = 0) :
    (s.takeCtl n h).phy n = (s.phy n).ctlTaken h := by
  unfold State.takeCtl
  extract_lets x ack covered left cred gain u v w
  have hu : u.phy n = x.ctlTaken h := State.phy_setPhy_same ..
  have hv : v = u := by
    show ite .. = u
    rw [State.endFull_of_notFull (by rw [hu]; exact hf), ite_self]
  have hw : w = u := by
    show ite .. = u
    rw [hnak, if_neg Bool.false_ne_true, hv]
  rw [hw, State.linkPump_phy (by rw [hu]; exact hq), hu]

/-! Link-control operations (R728 to R732). -/

theorem idleTaken (h : s.ctlHead n [0, 8, 9, 10, 11, 12, 13, 14, 15] = some (arg, u)) : exec (.lctrlIdle n) s = .next u := by
  show execLctrlIdle n s = _
  simp only [execLctrlIdle, h]

theorem powerStateFollowed (h : s.ctlHead n [1] = some (arg, u)) (harg : arg = 1 ∨ arg = 2) (hf : (u.phy n).framing = true) :
    exec (.pmReq n) s = .next ((u.mapLanes n (u.phy n).running fun _ y => { y with rx := arg }).sendCtl n 2 arg) := by
  have hc : (decide (arg ≠ 1) && decide (arg ≠ 2) || !(u.phy n).framing) = false := by
    rw [hf]
    obtain rfl | rfl := harg <;> rfl
  show execPmReq n s = _
  simp only [execPmReq, h, hc, Bool.false_eq_true, if_false]

theorem powerStateUnknown (h : s.ctlHead n [1] = some (arg, u)) (h1 : arg ≠ 1) (h2 : arg ≠ 2) : exec (.pmReq n) s = .next u := by
  have hc : (decide (arg ≠ 1) && decide (arg ≠ 2) || !(u.phy n).framing) = true := by simp [h1, h2]
  show execPmReq n s = _
  simp only [execPmReq, h, hc, if_true]

theorem powerStateEntered (h : s.ctlHead n [2] = some (arg, u)) (hw : (u.phy n).pmWait = some arg) : Completes (.pmAck n) s fun t =>
    t.phy n = { u.phy n with pmWait := none } ∧ (∀ l ∈ lanesOf (u.phy n).running, t.lane n l = { u.lane n l with tx := arg }) ∧
    t.dict = u.dict ∧ t.out = u.out := by
  have hex : exec (.pmAck n) s =
      .next ((u.mapLanes n (u.phy n).running fun _ y => { y with tx := arg }).setPhy n { u.phy n with pmWait := none }) := by
    have hc : ((u.phy n).pmWait == some arg) = true := by simp [hw]
    show execPmAck n s = _
    simp only [execPmAck, h, hc, if_true]
  obtain ⟨hin, -, hr⟩ := u.mapLanes_spec n (u.phy n).running fun _ y => { y with tx := arg }
  refine ⟨_, hex, State.phy_setPhy_same .., fun l hl => ?_, hr.dict, hr.out⟩
  obtain ⟨hl8, hb⟩ := mem_lanesOf.1 hl
  exact hin l hl8 hb

theorem windowOpened (h : s.ctlHead n [3] = some (arg, u)) (h0 : bits arg 0 4 ≠ 0) (h128 : arg < 128) : Completes (.recalWin n) s fun t =>
    t.phy n = { u.phy n with window := some (bits arg 4 3, u.timeNs + bits arg 0 4 * 10 + 200) } ∧ t.link.lanes = u.link.lanes := by
  have hex : exec (.recalWin n) s =
      .next (u.setPhy n { u.phy n with window := some (bits arg 4 3, u.timeNs + bits arg 0 4 * 10 + 200) }) := by
    have hc : (decide (bits arg 0 4 = 0) || decide (arg / 128 ≠ 0)) = false := by simp [h0, Nat.div_eq_of_lt h128]
    show execRecalWin n s = _
    simp only [execRecalWin, h, hc, Bool.false_eq_true, if_false]
  exact ⟨_, hex, State.phy_setPhy_same .., rfl⟩

theorem exec_laneDown (h : s.ctlHead n [4] = some (arg, u)) (hf : (u.phy n).framing = true) (hrun : (u.phy n).running = 0xFF)
    (harg : arg = 0x0F ∨ arg = 0xF0) : exec (.laneDown n) s = match (u.phy n).laneReq with
      | some k => if k = arg || k = 0xFF then .next (u.setPhy n { u.phy n with laneReq := some arg }) else .next (u.portDrop n)
      | none => .next (u.setPhy n { u.phy n with laneReq := some arg }) := by
  have hc : (!(u.phy n).framing || decide ((u.phy n).running ≠ 0xFF) || (decide (arg ≠ 0x0F) && decide (arg ≠ 0xF0))) = false := by
    rw [hf, hrun]
    obtain rfl | rfl := harg <;> rfl
  show execLaneDown n s = _
  unfold execLaneDown
  rw [h]
  exact if_neg (by rw [hc]; exact Bool.false_ne_true)

theorem halfAgreed (h : s.ctlHead n [4] = some (arg, u)) (hf : (u.phy n).framing = true) (hrun : (u.phy n).running = 0xFF)
    (harg : arg = 0x0F ∨ arg = 0xF0)
    (hreq : (u.phy n).laneReq = none ∨ (u.phy n).laneReq = some arg ∨ (u.phy n).laneReq = some 0xFF) : Completes (.laneDown n) s fun t =>
      t.phy n = { u.phy n with laneReq := some arg } ∧ t.dict = u.dict ∧ t.out = u.out := by
  have hex : exec (.laneDown n) s = .next (u.setPhy n { u.phy n with laneReq := some arg }) := by
    rw [exec_laneDown h hf hrun harg]
    split
    next k hk =>
      rw [hk] at hreq
      exact if_pos (by simpa using hreq)
    · rfl
  exact ⟨_, hex, State.phy_setPhy_same .., rfl, rfl⟩

theorem halvesDisagree {k : Nat} (h : s.ctlHead n [4] = some (arg, u)) (hf : (u.phy n).framing = true) (hrun : (u.phy n).running = 0xFF)
    (harg : arg = 0x0F ∨ arg = 0xF0) (hk : (u.phy n).laneReq = some k) (hne : k ≠ arg) (hff : k ≠ 0xFF) :
    exec (.laneDown n) s = .next (u.portDrop n) := by
  rw [exec_laneDown h hf hrun harg]
  split
  next j hj =>
    obtain rfl : k = j := Option.some.inj (hk.symm.trans hj)
    exact if_neg (by simp [hne, hff])
  next hj => exact absurd (hk.symm.trans hj) (Option.some_ne_none k)

theorem allLanesAgreed (h : s.ctlHead n [5] = some (arg, u)) (hf : (u.phy n).framing = true) (harg : arg = 0xFF)
    (hrun : (u.phy n).running ≠ 0xFF) (hreq : (u.phy n).laneReq = none) (hok : u.halfOk n 0xFF = true) :
    exec (.laneUp n) s = .next ((u.setPhy n { u.phy n with laneReq := some 0xFF }).sendCtl n 5 0xFF) := by
  have hc : (!(u.phy n).framing || decide (arg ≠ 0xFF) || decide ((u.phy n).running = 0xFF) || (u.phy n).laneReq.isSome ||
      !(u.halfOk n 0xFF)) = false := by
    simp [hf, harg, hrun, hreq, hok]
  show execLaneUp n s = _
  unfold execLaneUp
  rw [h]
  exact if_neg (by rw [hc]; exact Bool.false_ne_true)

theorem hoodTaken (h : s.ctlHead n [6] = some (arg, u)) :
    exec (.hood n) s = .next ((u.setPhy n { u.phy n with hoodRx := true, openRx := false }).tryHood n) := by
  show execHood n s = _
  simp only [execHood, h]

theorem openUnwanted (h : s.ctlHead n [7] = some (arg, u)) (hw : u.obj (Obj.PH_LINK_ENABLE n) ≠ 1 ∨ u.unitSt (phUnit n) ≠ .ready) :
    exec (.open_ n) s = .next (u.setPhy n { u.phy n with openRx := true }) := by
  have hc : (u.obj (Obj.PH_LINK_ENABLE n) == 1 && u.unitSt (phUnit n) == .ready) = false := by
    obtain hw | hw := hw <;> simp [hw]
  show execOpen n s = _
  unfold execOpen
  rw [h]
  exact if_pos (by
    show (!(u.obj (Obj.PH_LINK_ENABLE n) == 1 && u.unitSt (phUnit n) == .ready)) = true
    rw [hc]
    rfl)

theorem openAnswered (h : s.ctlHead n [7] = some (arg, u)) (hen : u.obj (Obj.PH_LINK_ENABLE n) = 1) (hst : u.unitSt (phUnit n) = .ready)
    (hq : (u.phy n).txq = []) (hot : (u.phy n).openTx = true) : Completes (.open_ n) s fun t =>
      t.phy n = { u.phy n with hoodTx := false, hoodRx := false, openTx := false, openRx := false } := by
  have hc : (u.obj (Obj.PH_LINK_ENABLE n) == 1 && u.unitSt (phUnit n) == .ready) = true := by simp [hen, hst]
  have hex : exec (.open_ n) s = .next ((u.setPhy n { u.phy n with openRx := true }).settleOpen n) := by
    show execOpen n s = _
    unfold execOpen
    rw [h]
    refine (if_neg ?_).trans ?_
    · show ¬(!(u.obj (Obj.PH_LINK_ENABLE n) == 1 && u.unitSt (phUnit n) == .ready)) = true
      rw [hc]
      exact Bool.false_ne_true
    · rw [if_pos hot]
  refine ⟨_, hex, ?_⟩
  show State.phy (State.settleOpen _ n) n = _
  unfold State.settleOpen
  rw [State.phy_setPhy_same, if_pos (by rw [show (u.phy n).openTx = true from hot]; rfl),
    State.linkPump_phy (by rw [State.phy_setPhy_same]; exact hq), State.phy_setPhy_same]

/-! Replay and power-state announcements (R713, R714, R730). -/

theorem ackTimerSends (hf : (s.phy n).framing = true) (h0 : 0 < (s.phy n).accepted) : exec (.ackTimer n) s = .next (s.sendCtl n 0 0) := by
  have hocc : ((s.phy n).framing && decide (0 < (s.phy n).accepted)) = true := by simp [hf, h0]
  show execAckTimer n s = _
  simp only [execAckTimer, occ, hocc, if_true]

theorem exec_replayTimeout (hf : (s.phy n).framing = true) (hs : s.safety.safe = false) : exec (.replayTimeout n) s = .next (s.replay n) := by
  have hocc : ((s.phy n).framing && !s.safety.safe) = true := by simp [hf, hs]
  show execReplayTimeout n s = _
  simp only [execReplayTimeout, occ, hocc, if_true]

theorem replayed (hf : (s.phy n).framing = true) (hs : s.safety.safe = false) (hu : (s.phy n).unacked ≠ [])
    (hlim : (s.phy n).replays + 1 ≤ s.obj Obj.REPLAY_LIMIT) : Completes (.replayTimeout n) s fun t =>
      t.phy n = { s.phy n with replays := (s.phy n).replays + 1 } ∧
      t.out = s.out ++ (s.phy n).unacked.map (fun f => .link n f.2.hdr f.2.payload) ∧
      t.obj (Obj.REPLAYS n) = satBump 32 (s.obj (Obj.REPLAYS n)) 1 ∧ t.mem = s.mem := by
  have hr : s.replay n = (s.phy n).unacked.foldl (fun u f => u.emit (.link n f.2.hdr f.2.payload))
      ((s.bump (Obj.REPLAYS n)).setPhy n { s.phy n with replays := (s.phy n).replays + 1 }) := by
    unfold State.replay
    extract_lets x v
    rw [if_neg (by simpa [x] using hu), if_neg (Nat.not_lt.2 hlim)]
  refine ⟨_, exec_replayTimeout hf hs, ?_⟩
  rw [hr, State.foldl_emit]
  exact ⟨State.phy_setPhy_same .., rfl, s.obj_bump_same _ _, rfl⟩

theorem nothingToReplay (hf : (s.phy n).framing = true) (hs : s.safety.safe = false) (hu : (s.phy n).unacked = []) :
    exec (.replayTimeout n) s = .next s := by
  rw [exec_replayTimeout hf hs, State.replay]
  simp only [hu, List.isEmpty_nil, if_true]

theorem replayLimitDrops (hf : (s.phy n).framing = true) (hs : s.safety.safe = false) (hu : (s.phy n).unacked ≠ [])
    (hlim : s.obj Obj.REPLAY_LIMIT < (s.phy n).replays + 1) : exec (.replayTimeout n) s = .next (s.portDrop n) := by
  rw [exec_replayTimeout hf hs]
  unfold State.replay
  extract_lets x v
  rw [if_neg (by simpa [x] using hu), if_pos hlim]

/-- The power state that an idle transmitter announces next, 0 for none. -/
def idleNext (tx timers : Nat) : Nat := if tx = 0 && bits timers 0 16 ≠ 0 then 1 else if tx ≤ 1 && bits timers 16 16 ≠ 0 then 2 else 0

theorem exec_linkIdleTimer (hf : (s.phy n).framing = true) (hq : (s.phy n).txq = []) (hw : (s.phy n).pmWait = none)
    (hs : s.safety.safe = false) {k : Nat}
    (hk : idleNext (s.lane n ((lanesOf (s.phy n).running).headD 0)).tx (s.obj (Obj.IDLE_TIMERS n)) = k) : exec (.linkIdleTimer n) s =
      .next (if (k != 0) = true then (s.setPhy n { s.phy n with pmWait := some k }).sendCtl n 1 k else s) := by
  have hocc : ((s.phy n).framing && (s.phy n).txq.isEmpty && (s.phy n).pmWait.isNone && (k != 0) && !s.safety.safe) = (k != 0) := by
    simp [hf, hq, hw, hs]
  rw [← hocc, ← hk]
  rfl

theorem idleAnnounced (hf : (s.phy n).framing = true) (hq : (s.phy n).txq = []) (hw : (s.phy n).pmWait = none) (hs : s.safety.safe = false) :
    let tx := (s.lane n ((lanesOf (s.phy n).running).headD 0)).tx
    let t := s.obj (Obj.IDLE_TIMERS n)
    (tx = 0 → bits t 0 16 ≠ 0 → exec (.linkIdleTimer n) s = .next ((s.setPhy n { s.phy n with pmWait := some 1 }).sendCtl n 1 1)) ∧
    (tx = 1 → bits t 16 16 ≠ 0 → exec (.linkIdleTimer n) s = .next ((s.setPhy n { s.phy n with pmWait := some 2 }).sendCtl n 1 2)) ∧
    (2 ≤ tx → exec (.linkIdleTimer n) s = .next s) := by
  intro tx t
  refine ⟨fun h0 hb => ?_, fun h1 hb => ?_, fun h2 => ?_⟩
  · have hk : idleNext tx t = 1 := by simp [idleNext, h0, hb]
    rw [exec_linkIdleTimer hf hq hw hs hk, if_pos (by decide)]
  · have hk : idleNext tx t = 2 := by simp [idleNext, h1, hb]
    rw [exec_linkIdleTimer hf hq hw hs hk, if_pos (by decide)]
  · have hk : idleNext tx t = 0 := by simp [idleNext, show tx ≠ 0 by omega, show ¬tx ≤ 1 by omega]
    rw [exec_linkIdleTimer hf hq hw hs hk, if_neg (by decide)]

theorem powerRequestDropped (hw : (s.phy n).pmWait.isSome = true) : Completes (.pmReqTimeout n) s fun t =>
    t.phy n = { s.phy n with pmWait := none } ∧ t.link.lanes = s.link.lanes ∧ t.dict = s.dict ∧ t.out = s.out :=
  .of_occ rfl hw ⟨State.phy_setPhy_same .., rfl, rfl, rfl⟩

end

/-- Settles O59: codewords survive their stripes (`codewordSurvives`), and each command of the link has its rule. -/
theorem linkCarriesTransactions : Obligations.LinkCarriesTransactions := by
  refine ⟨fun s n corrected l0 l1 l2 l3 upper => codewordTaken, fun _ _ _ _ hf h1 hs hl => codewordSurvives hf h1 hs hl,
    fun x fs _ hne hfs => ?_, fun x num f => takeFlits_wrongNumber, fun x => discard_once, fun s n f rest => transactionTaken,
    fun s n h hnak hq hf => State.takeCtl_phy hnak hq hf,
    fun s u n arg => ⟨idleTaken, powerStateFollowed, powerStateUnknown, powerStateEntered, windowOpened,
      fun h hf hrun harg => ⟨halfAgreed h hf hrun harg, fun k => halvesDisagree h hf hrun harg⟩, allLanesAgreed, hoodTaken, openUnwanted,
      openAnswered⟩,
    fun s n op arg => controlSent op arg, fun s n => ⟨ackTimerSends, fun hf hs => ⟨nothingToReplay hf hs, replayed hf hs,
      replayLimitDrops hf hs⟩, idleAnnounced, powerRequestDropped⟩⟩
  obtain _ | ⟨f, fs⟩ := fs
  · exact absurd rfl hne
  · exact takeFlits_next f fs hfs

end Sys2Proof.Machine
end

section
/-!
Embedding tables: descriptors, hot-row tags and their copies (R506, R521).
-/
namespace Sys2Proof.Machine

open Sys2Proof

/-- A value that a map's transformation leaves as it is is read as before, where the transformation keeps every key. -/
theorem get_filterMap_kept {α : Type} {d : α} {m : SMap α} {f : Nat × α → Option (Nat × α)} (hkey : ∀ e x, f e = some x → x.1 = e.1) {i : Nat}
    (hkeep : f (i, SMap.get d m i) = some (i, SMap.get d m i)) : SMap.get d (m.filterMap f) i = SMap.get d m i := by
  induction m with
  | nil => rfl
  | cons e m ih =>
    obtain ⟨k, v⟩ := e
    by_cases hk : i = k
    · subst hk
      have hget : SMap.get d ((i, v) :: m) i = v := if_pos rfl
      rw [hget] at hkeep ⊢
      rw [List.filterMap_cons, hkeep]
      exact if_pos rfl
    · have hget : SMap.get d ((k, v) :: m) i = SMap.get d m i := if_neg hk
      rw [hget] at hkeep ⊢
      rw [List.filterMap_cons]
      split
      · exact ih hkeep
      next x hx =>
        obtain rfl : x.1 = k := hkey _ _ hx
        exact (if_neg hk).trans (ih hkeep)

section
variable {s : State} {d v : Nat}

/-- The answer to the write of a tag whose copy is over. -/
def answerTag (st : Nat) (s : State) (c : TagCopy) : State :=
  match c.req with
  | some p => s.respond p .wrAck st [] 0 0
  | none => s

/-- Answers to waiting writes leave the tables and memory as they are. -/
theorem answers_keep (cs : List TagCopy) (st : Nat) (s : State) :
    (cs.foldl (answerTag st) s).tab = s.tab ∧ (cs.foldl (answerTag st) s).mem = s.mem := by
  refine ⟨foldl_keeps State.tab (fun u c => ?_) cs s, foldl_keeps State.mem (fun u c => ?_) cs s⟩ <;>
    unfold answerTag <;> split <;> rfl

theorem State.descWord_of_tab {t : State} (h : t.tab.desc = s.tab.desc) (d w : Nat) : t.descWord d w = s.descWord d w := by
  rw [State.descWord, State.descWord, h]

theorem State.hotTag_of_tab {t : State} (h : t.tab.tags = s.tab.tags) (e : Nat) : t.hotTag e = s.hotTag e := by
  rw [State.hotTag, State.hotTag, h]

theorem State.descWord_setDescWord_same (s : State) (d w v : Nat) : (s.setDescWord d w v).descWord d w = v := SMap.get_set_same _ _ _ _

theorem State.descWord_setDescWord_other (s : State) {d w d' w' : Nat} (v : Nat) (h : d' * 8 + w' ≠ d * 8 + w) :
    (s.setDescWord d w v).descWord d' w' = s.descWord d' w' := SMap.get_set_other _ _ _ h

theorem State.hotTag_setHotTag_same (s : State) (e v : Nat) : (s.setHotTag e v).hotTag e = v := SMap.get_set_same _ _ _ _

theorem State.hotTag_setHotTag_other (s : State) {e f : Nat} (v : Nat) (h : f ≠ e) : (s.setHotTag e v).hotTag f = s.hotTag f :=
  SMap.get_set_other _ _ _ h

/-- The keys of two descriptor words differ. -/
theorem descKey_ne {d w d' w' : Nat} (hw : w < 8) (hw' : w' < 8) (h : (d', w') ≠ (d, w)) : d' * 8 + w' ≠ d * 8 + w := fun he =>
  h (Prod.ext (by show d' = d; omega) (by show w' = w; omega))

/-! Descriptor words (R506). -/

theorem exec_tableDescWordWrite {w : Nat} (hg : s.geUp = true) (hd : d < 1024) (hv : v < 2 ^ 64) (h1 : 1 ≤ w) (h7 : w ≤ 7) :
    exec (.tableDescWordWrite d w v) s = .next (s.descWordN d w v).2 := by
  have hocc : (s.geUp && decide (d < 1024) && decide (1 ≤ w) && decide (w ≤ 7)) = true := by simp [hg, hd, h1, h7]
  show execTableDescWordWrite d w v s = _
  simp only [execTableDescWordWrite, occ, hocc, if_true, Nat.mod_eq_of_lt hv]

theorem validDescriptorKept {w : Nat} (hg : s.geUp = true) (hd : d < 1024) (hv : v < 2 ^ 64) (h1 : 1 ≤ w) (h7 : w ≤ 7)
    (hval : bit (s.descWord d 0) 0 = true) : (s.descWordN d w v).1 = Sc.accessDenied ∧
      Completes (.tableDescWordWrite d w v) s fun t => t.tab.desc = s.tab.desc ∧ t.tab.tags = s.tab.tags ∧ t.mem = s.mem := by
  have hn : s.descWordN d w v = (Sc.accessDenied, s.geReject (0x800000 + d * 64 + w * 8) Sc.accessDenied) := if_pos hval
  refine ⟨by rw [hn], _, exec_tableDescWordWrite hg hd hv h1 h7, ?_⟩
  rw [hn]
  exact ⟨rfl, rfl, rfl⟩

theorem freeDescriptorWritten {w : Nat} (hg : s.geUp = true) (hd : d < 1024) (hv : v < 2 ^ 64) (h1 : 1 ≤ w) (h7 : w ≤ 7)
    (hval : bit (s.descWord d 0) 0 = false) : Completes (.tableDescWordWrite d w v) s fun t => t.descWord d w = v ∧
      (∀ d' w', w' < 8 → (d', w') ≠ (d, w) → t.descWord d' w' = s.descWord d' w') ∧ t.tab.tags = s.tab.tags ∧ t.mem = s.mem := by
  have hn : s.descWordN d w v = (Sc.ok, s.setDescWord d w v) := if_neg (by simp [hval])
  refine ⟨_, exec_tableDescWordWrite hg hd hv h1 h7, ?_⟩
  rw [hn]
  exact ⟨s.descWord_setDescWord_same d w v,
    fun d' w' hw' h => s.descWord_setDescWord_other v (descKey_ne (by omega) hw' h), rfl, rfl⟩

theorem exec_tableDescWord0Write (hg : s.geUp = true) (hd : d < 1024) (hv : v < 2 ^ 64) :
    exec (.tableDescWord0Write d v) s = .next (s.descWord0 d v).2 := by
  have hocc : (s.geUp && decide (d < 1024)) = true := by simp [hg, hd]
  show execTableDescWord0Write d v s = _
  simp only [execTableDescWord0Write, occ, hocc, if_true, Nat.mod_eq_of_lt hv]

/-- A tag once the descriptor of its table is gone. -/
def tagDropped (d : Nat) (e : Nat × Nat) : Option (Nat × Nat) :=
  if !(bits e.2 40 10 == d) then some e else if bits e.2 0 50 = 0 then none else some (e.1, bits e.2 0 50)

theorem tagDropped_key {d : Nat} (e x : Nat × Nat) (h : tagDropped d e = some x) : x.1 = e.1 := by
  unfold tagDropped at h
  split at h
  · rw [Option.some.inj h]
  split at h
  · exact absurd h.symm (Option.some_ne_none x)
  · rw [← Option.some.inj h]

theorem tagDropped_invalid {d : Nat} (e x : Nat × Nat) (h : tagDropped d e = some x) (hx : bits x.2 40 10 = d) : bit x.2 63 = false := by
  unfold tagDropped at h
  split at h
  next hn =>
    rw [Option.some.inj h, hx] at hn
    simp at hn
  split at h
  · exact absurd h.symm (Option.some_ne_none x)
  · rw [← Option.some.inj h]
    have hlt : bits e.2 0 50 < 2 ^ 50 := Nat.mod_lt _ (by decide)
    rw [bit, Nat.div_eq_of_lt (by omega)]
    rfl

theorem descriptorCleared (hg : s.geUp = true) (hd : d < 1024) (hv : v < 2 ^ 64) (h0 : bit v 0 = false) :
    (s.descWord0 d v).1 = Sc.ok ∧ Completes (.tableDescWord0Write d v) s fun t => t.descWord d 0 = v ∧
      (∀ e, bits (t.hotTag e) 40 10 = d → bit (t.hotTag e) 63 = false) ∧
      (∀ e, bits (s.hotTag e) 40 10 ≠ d → t.hotTag e = s.hotTag e) ∧ ∀ x ∈ t.tab.copies, bits x.value 40 10 ≠ d := by
  have hw : (s.descWord0 d v).1 = Sc.ok ∧ (s.descWord0 d v).2.tab = { s.tab with
      desc := SMap.set 0 s.tab.desc (d * 8 + 0) v, tags := s.tab.tags.filterMap (tagDropped d)
      copies := s.tab.copies.filter fun c => !(bits c.value 40 10 == d) } := by
    unfold State.descWord0
    rw [if_neg (by simp [h0])]
    exact ⟨rfl, (answers_keep _ _ _).1⟩
  obtain ⟨hok, htab⟩ := hw
  refine ⟨hok, _, exec_tableDescWord0Write hg hd hv, ?_, fun e => ?_, fun e he => ?_, fun x hx => ?_⟩
  · rw [State.descWord, htab]
    exact SMap.get_set_same _ _ _ _
  · rw [State.hotTag, htab]
    refine SMap.get_induction (P := fun v => bits v 40 10 = d → bit v 63 = false) (fun _ => rfl) (fun x hx => ?_) e
    obtain ⟨y, -, hy⟩ := List.mem_filterMap.1 hx
    exact tagDropped_invalid y x hy
  · rw [State.hotTag, htab]
    refine get_filterMap_kept tagDropped_key (if_pos ?_)
    rw [Bool.not_eq_true', beq_eq_false_iff_ne]
    exact he
  · rw [htab] at hx
    simpa using (List.mem_filter.1 hx).2

theorem descriptorRejected (hg : s.geUp = true) (hd : d < 1024) (hv : v < 2 ^ 64) (h1 : bit v 0 = true) {check : Nat}
    (hc : descCheckWords s.devId (fun w => if w = 0 then v else s.descWord d w) = check) (hne : check ≠ 0) :
    (s.descWord0 d v).1 = check ∧ Completes (.tableDescWord0Write d v) s fun t =>
      t.tab.desc = s.tab.desc ∧ t.tab.tags = s.tab.tags ∧ t.obj Obj.DESC_REJECTS = satBump 32 (s.obj Obj.DESC_REJECTS) 1 := by
  have hw : s.descWord0 d v = (check, s.geReject (0x800000 + d * 64) check) := by
    unfold State.descWord0
    rw [if_pos h1, hc]
    exact if_pos hne
  refine ⟨by rw [hw], _, exec_tableDescWord0Write hg hd hv, ?_⟩
  rw [hw]
  exact ⟨rfl, rfl, State.obj_bump_same _ _ _⟩

theorem descriptorTaken (hg : s.geUp = true) (hd : d < 1024) (hv : v < 2 ^ 64) (h1 : bit v 0 = true)
    (hc : descCheckWords s.devId (fun w => if w = 0 then v else s.descWord d w) = 0) :
    Completes (.tableDescWord0Write d v) s fun t => t.descWord d 0 = v ∧ t.tab.tags = s.tab.tags ∧
      ∀ d' w', w' < 8 → (d', w') ≠ (d, 0) → t.descWord d' w' = s.descWord d' w' := by
  have hw : s.descWord0 d v = (Sc.ok, s.setDescWord d 0 v) := by
    unfold State.descWord0
    rw [if_pos h1, hc]
    exact if_neg (not_not_intro rfl)
  refine ⟨_, exec_tableDescWord0Write hg hd hv, ?_⟩
  rw [hw]
  exact ⟨s.descWord_setDescWord_same d 0 v, rfl,
    fun d' w' hw' h => s.descWord_setDescWord_other v (descKey_ne (by decide) hw' h)⟩

end

section
variable {s : State} {e v : Nat}

/-! Hot-row tags (R521). -/

theorem exec_hotTagWrite (hg : s.geUp = true) (he : e < 16384) (hv : v < 2 ^ 64) :
    exec (.hotTagWrite e v) s = .next (s.hotTagWrite e v none).2 := by
  have hocc : (s.geUp && decide (e < 16384)) = true := by simp [hg, he]
  show execHotTagWrite e v s = _
  simp only [execHotTagWrite, occ, hocc, if_true, Nat.mod_eq_of_lt hv]

/-- The checks of a write of a tag with VALID 1. -/
def State.hotCheck (s : State) (e v : Nat) : Nat :=
  firstFail [
    (bit (s.hotTag e) 63 || s.copyingTag e || !(s.desc (bits v 40 10)).valid || !(s.desc (bits v 40 10)).hot, Sc.accessDenied),
    (decide (s.hotSlots ≤ e) || decide ((s.desc (bits v 40 10)).local_ ≤ bits v 0 40) ||
      decide (s.obj Obj.HOT_SLOT_BYTES < (s.desc (bits v 40 10)).rowBytes), Sc.boundViolation)]

theorem State.hotTagWrite_valid {req : Option Packet} (hr : bits v 50 13 = 0) (h63 : bit v 63 = true) : s.hotTagWrite e v req =
    if s.hotCheck e v ≠ 0 then (some (s.hotCheck e v), s.geReject (0x900000 + e * 8) (s.hotCheck e v))
    else (none, { s with tab := { s.tab with copies := s.tab.copies ++ [{ slot := e, value := v, req := req }] } }) := by
  unfold State.hotTagWrite
  rw [if_neg (not_not_intro hr), if_neg (by simp [h63])]
  rfl

theorem reservedTagRefused (hg : s.geUp = true) (he : e < 16384) (hv : v < 2 ^ 64) (hr : bits v 50 13 ≠ 0) :
    (s.hotTagWrite e v none).1 = some Sc.reservedNonzero ∧ Completes (.hotTagWrite e v) s fun t =>
      t.tab.tags = s.tab.tags ∧ t.tab.copies = s.tab.copies := by
  have hw : s.hotTagWrite e v none = (some Sc.reservedNonzero, s.geReject (0x900000 + e * 8) Sc.reservedNonzero) := if_pos hr
  refine ⟨by rw [hw], _, exec_hotTagWrite hg he hv, ?_⟩
  rw [hw]
  exact ⟨rfl, rfl⟩

theorem tagCleared (hg : s.geUp = true) (he : e < 16384) (hv : v < 2 ^ 64) (h63 : bit v 63 = false) (hr : bits v 50 13 = 0) :
    Completes (.hotTagWrite e v) s fun t => t.hotTag e = bits v 0 50 ∧ (∀ f, f ≠ e → t.hotTag f = s.hotTag f) ∧ t.mem = s.mem := by
  have hw : (s.hotTagWrite e v none).2.tab.tags = (s.setHotTag e (bits v 0 50)).tab.tags ∧ (s.hotTagWrite e v none).2.mem = s.mem := by
    unfold State.hotTagWrite
    rw [if_neg (not_not_intro hr), if_pos (by simp [h63])]
    extract_lets gone u _ w
    obtain ⟨htab, hmem⟩ := answers_keep gone Sc.accessDenied w
    have htags := congrArg Tables.tags htab
    exact ⟨htags, hmem⟩
  obtain ⟨htags, hmem⟩ := hw
  refine ⟨_, exec_hotTagWrite hg he hv, ?_, fun f hf => ?_, hmem⟩
  · rw [State.hotTag_of_tab htags, State.hotTag_setHotTag_same]
  · rw [State.hotTag_of_tab htags, State.hotTag_setHotTag_other _ _ hf]

theorem validTagRefused (hg : s.geUp = true) (he : e < 16384) (hv : v < 2 ^ 64) (h63 : bit v 63 = true) (hval : bit (s.hotTag e) 63 = true)
    (hr : bits v 50 13 = 0) : (s.hotTagWrite e v none).1 = some Sc.accessDenied ∧
      Completes (.hotTagWrite e v) s fun t => t.tab.tags = s.tab.tags ∧ t.tab.copies = s.tab.copies := by
  have hc : s.hotCheck e v = Sc.accessDenied := by
    unfold State.hotCheck
    rw [hval]
    rfl
  have hw : s.hotTagWrite e v none = (some Sc.accessDenied, s.geReject (0x900000 + e * 8) Sc.accessDenied) := by
    rw [State.hotTagWrite_valid hr h63, hc]
    exact if_pos (by decide)
  refine ⟨by rw [hw], _, exec_hotTagWrite hg he hv, ?_⟩
  rw [hw]
  exact ⟨rfl, rfl⟩

theorem tagCopyBegins (hg : s.geUp = true) (he : e < 16384) (hv : v < 2 ^ 64) (h63 : bit v 63 = true)
    (hnone : (s.hotTagWrite e v none).1 = none) : Completes (.hotTagWrite e v) s fun t => t.tab.tags = s.tab.tags ∧
      t.tab.copies = s.tab.copies ++ [{ slot := e, value := v, req := none }] := by
  have hr : bits v 50 13 = 0 := by
    by_contra hr
    have hw : (s.hotTagWrite e v none).1 = some Sc.reservedNonzero := congrArg Prod.fst (if_pos hr)
    exact absurd (hw.symm.trans hnone) (Option.some_ne_none _)
  have hw := State.hotTagWrite_valid (s := s) (e := e) (req := none) hr h63
  by_cases hc : s.hotCheck e v ≠ 0
  · rw [if_pos hc] at hw
    rw [hw] at hnone
    exact absurd hnone (Option.some_ne_none _)
  · rw [if_neg hc] at hw
    refine ⟨_, exec_hotTagWrite hg he hv, ?_⟩
    rw [hw]
    exact ⟨rfl, rfl⟩

/-! Copies to hot slots (R521). -/

theorem State.endCopy_tab (s : State) (e : Nat) : (s.endCopy e Sc.ok).tab = { s.tab with copies := s.tab.copies.filter fun c => c.slot ≠ e } := by
  unfold State.endCopy
  exact (answers_keep _ _ _).1

variable {c : TagCopy}

/-- The copy to a slot that is under way. -/
def State.copyOn (s : State) (e : Nat) (c : TagCopy) : Prop :=
  s.tab.copies.find? (fun c => c.slot == e) = some c ∧ s.safety.safe = false ∧ s.reply (unitOf 5 0) = .deliver

/-- The row that a copy to a slot writes there. -/
def State.copyRow (s : State) (e : Nat) (c : TagCopy) : Option Ans × State :=
  s.rowAt (.gather 0) (2 + e) (s.desc (bits c.value 40 10)) (bits c.value 0 40)

theorem exec_hotTagCopyDone (h : s.copyOn e c) : exec (.hotTagCopyDone e) s =
    if c.wrote then .next (if s.writing (.hot e) then s else (s.endCopy e Sc.ok).setHotTag e c.value)
    else match s.copyRow e c with
      | (none, s) => .next s
      | (some a, t) =>
        if isFaultStatus a.status then .next (t.endCopy e a.status)
        else match t.putPieces (.gather 0) 2 false (t.hotPiece e a.bytes.length) a.bytes a.mark (.hot e) with
          | none => .next s
          | some w => .next { w.2 with tab := { w.2.tab with
              copies := w.2.tab.copies.map fun x => if x.slot = e then { x with wrote := true } else x } } := by
  obtain ⟨hc, hs, hrep⟩ := h
  have hgo : ¬(s.safety.safe || s.reply (unitOf 5 0) != .deliver) = true := by simp [hs, hrep]
  show execHotTagCopyDone e s = _
  unfold execHotTagCopyDone
  rw [hc]
  exact if_neg hgo

theorem copyVisible (h : s.copyOn e c) (hw : c.wrote = true) (hv : s.writing (.hot e) = false) : Completes (.hotTagCopyDone e) s fun t =>
    t.hotTag e = c.value ∧ (∀ f, f ≠ e → t.hotTag f = s.hotTag f) ∧ ∀ x ∈ t.tab.copies, x.slot ≠ e := by
  have hex : exec (.hotTagCopyDone e) s = .next ((s.endCopy e Sc.ok).setHotTag e c.value) := by
    rw [exec_hotTagCopyDone h, if_pos hw, if_neg (by simp [hv])]
  have htab := s.endCopy_tab e
  refine ⟨_, hex, State.hotTag_setHotTag_same .., fun f hf => ?_, fun x hx => ?_⟩
  · rw [State.hotTag_setHotTag_other _ _ hf]
    exact State.hotTag_of_tab (by rw [htab]) f
  · have hx' : x ∈ (s.endCopy e Sc.ok).tab.copies := hx
    rw [htab] at hx'
    exact of_decide_eq_true (List.mem_filter.1 hx').2

theorem copyWritePending (h : s.copyOn e c) (hw : c.wrote = true) (hv : s.writing (.hot e) = true) : exec (.hotTagCopyDone e) s = .next s := by
  rw [exec_hotTagCopyDone h, if_pos hw, if_pos hv]

section
variable {a : Ans} {u : State} (h : s.copyOn e c) (hw : c.wrote = false)
include h hw

theorem copyRowAwaited (hr : s.copyRow e c = (none, u)) : exec (.hotTagCopyDone e) s = .next u := by
  rw [exec_hotTagCopyDone h, if_neg (by simp [hw]), hr]

theorem copyRowFaulted (hr : s.copyRow e c = (some a, u)) (hf : isFaultStatus a.status = true) :
    exec (.hotTagCopyDone e) s = .next (u.endCopy e a.status) := by
  rw [exec_hotTagCopyDone h, if_neg (by simp [hw]), hr]
  exact if_pos hf

theorem copyRowWritten {w : Nat × State} (hr : s.copyRow e c = (some a, u)) (hf : isFaultStatus a.status = false)
    (hp : u.putPieces (.gather 0) 2 false (u.hotPiece e a.bytes.length) a.bytes a.mark (.hot e) = some w) :
    exec (.hotTagCopyDone e) s = .next { w.2 with tab := { w.2.tab with
      copies := w.2.tab.copies.map fun x => if x.slot = e then { x with wrote := true } else x } } := by
  rw [exec_hotTagCopyDone h, if_neg (by simp [hw]), hr]
  refine (if_neg (by simp [hf])).trans ?_
  rw [hp]

end

end

end Sys2Proof.Machine
end

section
/-!
Gather engines, phase maps and the moult (R513, R514, R525 to R532).
-/
namespace Sys2Proof.Machine

open Sys2Proof

/-! Gather engines (R509, R512, R513). -/

section
variable {s : State} {g : Nat} {o : UnitOp}

theorem exec_gatherLookupIssue (hl : s.geLive g = true) (ho : s.gxHead g = some o) (hop : (s.ge g).op = some o.id) :
    exec (.gatherLookupIssue g) s = if (s.ge g).stop ≠ 0 then .next (s.writeBags g o) else
      match (s.ge g).bags.find? fun b => !b.todo.isEmpty with
      | some b =>
        (match b.todo with
         | k :: rest => .next ((s.issueChunk g o b k rest).writeBags g o)
         | [] => .next s)
      | none =>
        if (s.ge g).nextBag < gBags { w0 := o.w0, w1 := o.w1 } then .next ((s.openBag g o).writeBags g o) else .next (s.writeBags g o) := by
  have hlive : ¬(!s.geLive g) = true := by simp [hl]
  have hsame : (if (s.ge g).op == some o.id then s else s.setGe g { serve := (s.ge g).serve, op := some o.id }) = s :=
    if_pos (by simp [hop])
  show execGatherLookupIssue g s = _
  unfold execGatherLookupIssue
  rw [ho]
  refine (if_neg hlive).trans ?_
  dsimp only
  rw [hsame] <;> rfl

theorem stoppedEngineWrites (hl : s.geLive g = true) (ho : s.gxHead g = some o) (hop : (s.ge g).op = some o.id) (hst : (s.ge g).stop ≠ 0) :
    exec (.gatherLookupIssue g) s = .next (s.writeBags g o) := by
  rw [exec_gatherLookupIssue hl ho hop, if_pos hst]

theorem nextChunkIssued (hl : s.geLive g = true) (ho : s.gxHead g = some o) (hop : (s.ge g).op = some o.id) {b : Bag} {k : Chunk}
    {rest : List Chunk} (hst : (s.ge g).stop = 0) (hb : (s.ge g).bags.find? (fun b => !b.todo.isEmpty) = some b) (hk : b.todo = k :: rest) :
    exec (.gatherLookupIssue g) s = .next ((s.issueChunk g o b k rest).writeBags g o) := by
  rw [exec_gatherLookupIssue hl ho hop, if_neg (not_not_intro hst), hb]
  dsimp only
  rw [hk]

theorem nextBagOpened (hl : s.geLive g = true) (ho : s.gxHead g = some o) (hop : (s.ge g).op = some o.id) (hst : (s.ge g).stop = 0)
    (hb : (s.ge g).bags.find? (fun b => !b.todo.isEmpty) = none) (hn : (s.ge g).nextBag < gBags { w0 := o.w0, w1 := o.w1 }) :
    exec (.gatherLookupIssue g) s = .next ((s.openBag g o).writeBags g o) := by
  rw [exec_gatherLookupIssue hl ho hop, if_neg (not_not_intro hst), hb]
  exact if_pos hn

end

/-! Served requests (R514, R515). -/

section
variable {s : State} {g : Nat} {p : Packet} {rest : List Packet}

theorem gatherServed (hs : s.safety.safe = false) (hg : g < 16) (hrep : s.reply (unitOf 5 g) = .deliver) (hq : (s.ge g).serve = p :: rest) :
    let s0 := s.setGe g { s.ge g with serve := rest }
    let es := (List.range p.len).map (gatherEntry p)
    (s.serveCheck p ≠ 0 → exec (.gatherServe g) s = .next (s0.refuseGather g p (s.serveCheck p))) ∧
    (∀ u, s.serveCheck p = 0 → s0.chunkRows (.gather g) 1 p.table (es.map (·.1)) = (none, u) →
      exec (.gatherServe g) s = .next (u.setGe g { u.ge g with serve := p :: rest })) ∧
    (∀ as u, s.serveCheck p = 0 → s0.chunkRows (.gather g) 1 p.table (es.map (·.1)) = (some as, u) →
      let v := (es.foldl (fun t e => t.countLookup p.table e.1) u).clearBuf (.gather g) 1
      as.find? (fun a => isFaultStatus a.status) = none → exec (.gatherServe g) s =
        .next ((v.answerGather p Sc.ok
          ((s.desc p.table).chunkBytes p.pool (gatherEntry p 0).2.1 as (es.map fun e => e.2.2.2))
          (as.foldl (fun m a => firstMark m a.mark) (if p.poison then p.pseq + 1 else 0))).bump64 Obj.REQS_SERVED)) := by
  intro s0 es
  have hgo : ¬(s.safety.safe || decide (16 ≤ g) || s.reply (unitOf 5 g) != .deliver) = true := by simp [hs, hrep, Nat.not_le.2 hg]
  refine ⟨fun hc => ?_, fun u hc hr => ?_, fun as u hc hr => ?_⟩
  · show execGatherServe g s = _
    unfold execGatherServe
    rw [if_neg hgo, hq]
    exact if_pos hc
  · show execGatherServe g s = _
    unfold execGatherServe
    rw [if_neg hgo, hq]
    refine (if_neg (not_not_intro hc)).trans ?_
    show (match s0.chunkRows (.gather g) 1 p.table (es.map (·.1)) with | (none, t) => _ | (some as, t) => _) = _
    rw [hr]
  · intro v hf
    show execGatherServe g s = _
    unfold execGatherServe
    rw [if_neg hgo, hq]
    refine (if_neg (not_not_intro hc)).trans ?_
    show (match s0.chunkRows (.gather g) 1 p.table (es.map (·.1)) with | (none, t) => _ | (some as, t) => _) = _
    rw [hr]
    dsimp only
    rw [hf]

end

/-! Phase maps (R525, R526). -/

section
variable {s : State} {m v : Nat}

theorem exec_phaseMapWrite (hg : s.geUp = true) (hm : m < 16) (hv : v < 2 ^ 64) : exec (.phaseMapWrite m v) s = .next (s.phaseMapWrite m v).2 := by
  have hocc : (s.geUp && decide (m < 16)) = true := by simp [hg, hm]
  show execPhaseMapWrite m v s = _
  simp only [execPhaseMapWrite, occ, hocc, if_true, Nat.mod_eq_of_lt hv]

theorem phaseMapWritten (hg : s.geUp = true) (hm : m < 16) (hv : v < 2 ^ 64) (h27 : bits v 27 36 = 0) (h22 : bits v 22 2 = 0)
    (h24 : bits v 24 3 ≤ 4) (h63 : bit v 63 = true → bits v 8 8 ≠ 0) :
    (s.moultNames m = false → Completes (.phaseMapWrite m v) s fun t => t.phaseMap m = v ∧
      (∀ n, n ≠ m → t.phaseMap n = s.phaseMap n) ∧ t.coll.current = s.coll.current) ∧
    (s.moultNames m = true → (s.phaseMapWrite m v).1 = Sc.accessDenied ∧ exec (.phaseMapWrite m v) s = .next s) := by
  have hres : (decide (bits v 27 36 ≠ 0) || decide (bits v 22 2 ≠ 0) || decide (5 ≤ bits v 24 3)) = false := by
    simp [h27, h22, Nat.not_le.2 (Nat.lt_succ_of_le h24)]
  have hbound : (bit v 63 && bits v 8 8 == 0) = false := by
    cases hb : bit v 63 with
    | false => rfl
    | true => simp [h63 hb]
  refine ⟨fun hn => ?_, fun hn => ?_⟩
  · have hw : s.phaseMapWrite m v = (Sc.ok, s.setColl { s.coll with maps := SMap.set 0 s.coll.maps m v }) := by
      simp only [State.phaseMapWrite, firstFail, hres, hbound, hn, Bool.false_eq_true, if_false, ne_eq, not_true_eq_false]
    refine ⟨_, exec_phaseMapWrite hg hm hv, ?_⟩
    rw [hw]
    exact ⟨SMap.get_set_same _ _ _ _, fun n h => SMap.get_set_other _ _ _ h, rfl⟩
  · have hw : s.phaseMapWrite m v = (Sc.accessDenied, s) := by
      simp only [State.phaseMapWrite, firstFail, hres, hbound, hn, Bool.false_eq_true, if_false, if_true]
      rfl
    rw [exec_phaseMapWrite hg hm hv, hw]
    exact ⟨rfl, rfl⟩

theorem exec_currentPhaseWrite (hg : s.geUp = true) (hv : v < 256) : exec (.currentPhaseWrite v) s = .next (s.currentPhaseWrite v).2 := by
  show execCurrentPhaseWrite v s = _
  simp only [execCurrentPhaseWrite, occ, hg, if_true, Nat.mod_eq_of_lt (show v < 2 ^ 32 by omega)]

theorem currentPhaseWritten (hg : s.geUp = true) (hv : v < 256) (h4 : bits v 4 3 = 0) :
    (s.moulting = false → Completes (.currentPhaseWrite v) s fun t => t.coll.current = v ∧ ∀ n, t.phaseMap n = s.phaseMap n) ∧
    (s.moulting = true → (s.currentPhaseWrite v).1 = Sc.accessDenied ∧ exec (.currentPhaseWrite v) s = .next s) := by
  have hres : (decide (bits v 8 24 ≠ 0) || decide (bits v 4 3 ≠ 0)) = false := by
    have h8 : bits v 8 24 = 0 := by
      rw [bits, Nat.div_eq_of_lt (by omega), Nat.zero_mod]
    simp [h8, h4]
  refine ⟨fun hm => ?_, fun hm => ?_⟩
  · have hw : s.currentPhaseWrite v = (Sc.ok, s.setColl { s.coll with current := v }) := by
      simp only [State.currentPhaseWrite, firstFail, hres, hm, Bool.false_eq_true, if_false, ne_eq, not_true_eq_false, Nat.mod_eq_of_lt hv]
    refine ⟨_, exec_currentPhaseWrite hg hv, ?_⟩
    rw [hw]
    exact ⟨rfl, fun _ => rfl⟩
  · have hw : s.currentPhaseWrite v = (Sc.accessDenied, s) := by
      simp only [State.currentPhaseWrite, firstFail, hres, hm, Bool.false_eq_true, if_false, if_true]
      rfl
    rw [exec_currentPhaseWrite hg hv, hw]
    exact ⟨rfl, rfl⟩

end

/-! Steps of a schedule (R527 to R530). -/

section
variable {s : State} {o : UnitOp} {i : Nat}

theorem collOp_of_head (hh : s.headOp 136 = some o) (hop : s.coll.op = some o.id) : s.collOp = some o := by
  unfold State.collOp
  rw [hh]
  exact if_pos (by simp [hop])

theorem beginColl_of_op (hop : s.coll.op = some o.id) : s.beginColl o = s := if_pos (by simp [hop])

theorem stepGoesOn (hh : s.headOp 136 = some o) (hop : s.coll.op = some o.id) (hl : s.collLive = true) {r : StepRun}
    (hr : s.coll.flying.find? (fun r => r.idx == i) = some r) : exec (.moultStepStart i) s = .next ((s.runStep o r).settleColl o) := by
  show execMoultStepStart i s = _
  unfold execMoultStepStart
  rw [hh]
  refine (if_neg (by simp [hl])).trans ?_
  rw [beginColl_of_op hop]
  dsimp only
  rw [hr]

theorem failedScheduleSettles (hh : s.headOp 136 = some o) (hop : s.coll.op = some o.id) (hl : s.collLive = true)
    (hfl : s.coll.flying = []) (hf : s.coll.fail.isSome = true) : exec (.moultStepStart i) s = .next (s.settleColl o) := by
  show execMoultStepStart i s = _
  unfold execMoultStepStart
  rw [hh]
  refine (if_neg (by simp [hl])).trans ?_
  rw [beginColl_of_op hop]
  dsimp only
  rw [hfl, List.find?_nil]
  exact if_pos hf

theorem exec_moultStepDone (hc : s.collOp = some o) {r : StepRun} (hr : s.coll.flying.find? (fun r => r.idx == i) = some r)
    (hs : s.safety.safe = false) (hw : r.waiting = false) (hpos : stBytes r.bytes ≤ r.pos) (hwr : s.writing (.step i) = false) :
    (bit (stPost r.bytes) 15 = false → exec (.moultStepDone i) s = .next (s.endStep o i)) ∧
    (bit (stPost r.bytes) 15 = true → stPostDev r.bytes = s.devId → exec (.moultStepDone i) s =
      if ((s.counted .coll).post (stSem (stPost r.bytes)) 1).1 then
        .next (((s.counted .coll).post (stSem (stPost r.bytes)) 1).2.endStep o i)
      else .next ((((s.counted .coll).post (stSem (stPost r.bytes)) 1).2.stepFail i Sc.overrun).settleColl o)) := by
  have hgo : ¬(s.safety.safe || r.waiting || decide (r.pos < stBytes r.bytes) || s.writing (.step i)) = true := by
    simp [hs, hw, Nat.not_lt.2 hpos, hwr]
  have hex : exec (.moultStepDone i) s = if !bit (stPost r.bytes) 15 then .next (s.endStep o i)
      else if stPostDev r.bytes = s.devId then
        if ((s.counted .coll).post (stSem (stPost r.bytes)) 1).1 then
          .next (((s.counted .coll).post (stSem (stPost r.bytes)) 1).2.endStep o i)
        else .next ((((s.counted .coll).post (stSem (stPost r.bytes)) 1).2.stepFail i Sc.overrun).settleColl o)
      else match s.portFor (stPostDev r.bytes) (bits (stPost r.bytes) 0 11) with
        | none => .next ((s.stepFail i Sc.linkAbsent).settleColl o)
        | some p =>
          match s.send (postPacket .coll (unitNode (unitOf 6 p)) (stPostDev r.bytes) (stSem (stPost r.bytes)) 1) (.step i) with
          | some s => .next (s.setFlying { r with posted := true })
          | none => .next s := by
    show execMoultStepDone i s = _
    unfold execMoultStepDone
    rw [hc]
    dsimp only
    rw [hr]
    exact if_neg hgo
  refine ⟨fun hb => ?_, fun hb hd => ?_⟩
  · rw [hex, if_pos (by simp [hb])]
  · rw [hex, if_neg (by simp [hb]), if_pos hd]

theorem stepWaitTimesOut {r : StepRun} (hr : s.coll.flying.find? (fun r => r.idx == i) = some r) (hs : s.safety.safe = false)
    {w : SemWaiting} {lim : Nat} (hrw : r.waiting = true) (hwait : s.waitOf .coll = some w) (hlim : tmoNs w.tmo = some lim)
    (hpast : w.sinceNs + lim ≤ s.timeNs) : exec (.moultStepTimeout i) s = .next (s.answerWait w Sc.timeout) := by
  have hocc : (!s.safety.safe && r.waiting && (tmoNs w.tmo).any (s.passed w.sinceNs)) = true := by
    simp [hs, hrw, hlim, State.passed, hpast]
  show execMoultStepTimeout i s = _
  unfold execMoultStepTimeout
  rw [hr, hwait]
  dsimp only
  rw [occ, if_pos hocc]

theorem stepFail_coll (s : State) (i st : Nat) : (s.stepFail i st).collOp = s.collOp := by
  unfold State.collOp
  rfl

theorem stepWaited_timeout (hc : s.collOp = some o) {r : StepRun} (hr : s.coll.flying.find? (fun r => r.idx == i) = some r)
    (hrw : r.waiting = true) : s.stepWaited i Sc.timeout = (s.stepFail i Sc.timeout).settleColl o := by
  have hany : (s.coll.flying.any fun r => r.idx == i && r.waiting) = true := by
    refine List.any_eq_true.2 ⟨r, List.mem_of_find?_eq_some hr, ?_⟩
    rw [List.find?_some hr, hrw]
    rfl
  unfold State.stepWaited
  rw [if_neg (by simp [hany]), if_pos (by decide)]
  dsimp only
  rw [stepFail_coll, hc]

/-! Where an operation of the engine ends (R531, R532). -/

theorem State.finishOp_tab (s : State) (o : UnitOp) (e : OpEnd) (h : e.ending = 0) : (s.finishOp o e).tab = s.tab := by
  unfold State.finishOp
  extract_lets x u t t1 t2 t3 v
  split
  · rfl
  · rw [if_neg (not_not_intro h)]
    rfl

theorem settleColl_failed (hf : s.coll.fail.isSome = true) : (s.settleColl o).coll.current = s.coll.current := by
  unfold State.settleColl
  extract_lets x idle first u
  split
  · rfl
  split
  next st hst =>
    split
    · rfl
    extract_lets v
    have hv : v.tab = u.tab := by
      show State.tab (ite ..) = _
      split <;> rfl
    rw [State.coll, State.finishOp_tab _ _ _ (by split <;> rfl), hv]
    rfl
  next hnone =>
    rw [show s.coll.fail = none from hnone] at hf
    exact Bool.noConfusion hf

theorem State.markDomain_tab (s : State) {d : Nat} (hd : d < 32) : (s.markDomain d).2.tab = s.tab := by
  unfold State.markDomain
  split
  · obtain ⟨_, _, ht, -⟩ := Triggered.trigger s hd
    rw [ht]
  · rfl

theorem State.counted_tab (s : State) (ag : Agent) : (s.counted ag).tab = s.tab := by
  obtain ⟨_, _, _, _, _, _, ht, -⟩ := Routed.counted s ag
  rw [ht]

theorem settleColl_moulted (hf : s.coll.fail = none) (hfl : s.coll.flying = []) (hdone : schedSteps o ≤ s.coll.done.length)
    (hm : isMoult o = true) (hout : ∀ y ∈ s.net.outst, ∀ j, y.use = .step j → y.timedOut = true) :
    (s.settleColl o).coll.current = 128 + mTo o := by
  have hfl' : ¬(!s.coll.flying.isEmpty || decide (s.coll.done.length < schedSteps o)) = true := by simp [hfl, Nat.not_lt.2 hdone]
  unfold State.settleColl
  extract_lets x idle first u map w r
  have hr : r.2.tab = w.tab := by
    show State.tab (Prod.snd (ite ..)) = _
    split
    · have hd : bits map 16 5 < 32 := Nat.mod_lt _ (by decide)
      rw [State.markDomain_tab _ hd, State.counted_tab]
    · rfl
  rw [if_neg fun hany => ?pending, show x.fail = none from hf]
  · dsimp only
    rw [if_neg hfl', if_pos hm, State.coll, State.finishOp_tab _ _ _ rfl]
    exact congrArg Coll.current (congrArg Tables.coll hr)
  case pending =>
    obtain ⟨y, hy, h⟩ := List.any_eq_true.1 hany
    rw [Bool.and_eq_true] at h
    obtain ⟨ht, hu⟩ := h
    split at hu
    next j hj =>
      rw [hout y hy j hj] at ht
      exact Bool.noConfusion ht
    · exact Bool.noConfusion hu

end

/-- Settles O53: each clause is the rule of its write or engine command. -/
theorem tablesTagsAndGathers : Obligations.TablesTagsAndGathers := by
  refine ⟨fun s d v hg hd hv => ⟨fun w => validDescriptorKept hg hd hv, fun w => freeDescriptorWritten hg hd hv, descriptorCleared hg hd hv,
      fun h1 hne => descriptorRejected hg hd hv h1 rfl hne, descriptorTaken hg hd hv⟩,
    fun s e v hg he hv => ⟨reservedTagRefused hg he hv, tagCleared hg he hv, validTagRefused hg he hv, tagCopyBegins hg he hv⟩,
    fun s e c hc hs hrep => ?_,
    fun s g o hl ho hop => ⟨stoppedEngineWrites hl ho hop, fun b k rest => nextChunkIssued hl ho hop, nextBagOpened hl ho hop⟩,
    fun s g p rest => gatherServed, fun s m v hg => ⟨phaseMapWritten hg, currentPhaseWritten hg⟩,
    fun s o i hh hop => ?_⟩
  · have h : s.copyOn e c := ⟨hc, hs, hrep⟩
    exact ⟨fun hw hv _ => copyVisible h hw hv, copyWritePending h, fun u hw => copyRowAwaited h hw, fun a u hw => copyRowFaulted h hw,
      fun a u w hw => copyRowWritten h hw⟩
  · have hc := collOp_of_head hh hop
    refine ⟨fun hl r => stepGoesOn hh hop hl, failedScheduleSettles hh hop, fun r hr hs => ⟨fun hw hpos hwr => ?_,
      fun w lim => stepWaitTimesOut hr hs, stepWaited_timeout hc hr⟩, rfl, settleColl_failed,
      fun hf hfl hdone hm _ hout => settleColl_moulted hf hfl hdone hm hout⟩
    obtain ⟨hend, hpost⟩ := exec_moultStepDone hc hr hs hw hpos hwr
    exact ⟨hend, fun hb hd hp => (hpost hb hd).trans (if_pos hp), fun hb hd hp => (hpost hb hd).trans (if_neg (by rw [hp]; exact Bool.false_ne_true))⟩

end Sys2Proof.Machine
end
